-- ==== Sys2Proof/Word.lean ====
section
/-! DEFINITION. Word types and their plainest arithmetic: bytes and words, and the reading of a bit range of a number
(R16: bit 0 is the least significant bit, a range is written [msb:lsb]). -/

namespace Sys2Proof

abbrev Byte := BitVec 8
abbrev Word := BitVec 32
abbrev Addr := BitVec 64

/-- Bits [hi:lo] of a number (R16). -/
def bits (x hi lo : Nat) : Nat := (x / 2 ^ lo) % 2 ^ (hi - lo + 1)

/-- Bit k of a number as a truth value. -/
def bit (x k : Nat) : Bool := bits x k k == 1

end Sys2Proof
end

