-- ==== Sys2Proof/Syntax.lean ====
section
/-! DEFINITION. The commands of the block: one constructor per row of the opcode table, with the row's operands. A bundle
instruction carries where it issues and its raw slot, whose fields are read by the bit positions of
14_instruction_encoding.md; an event of the device or of its surroundings carries what the surroundings decide; a host write
carries its port and the word it writes. -/

namespace Sys2Proof

/-- What the hardware's own checks find while a command runs: nothing, a mod-7 residue mismatch of the engine (R25, R140), one of the
copy of the jump pipeline that draws for its stochastic rounding (R277), a word with bad parity that a read finds (R355; SRC and
address as FOLIO_PERR gives them, 6 is the vat), or one that the merged read of a write of fewer than 64 bits finds (R355). -/
inductive Hw where
  | ok
  | residue
  | rng
  | parity (src : Fin 7) (addr : Nat)
  | merge (src : Fin 7) (addr : Nat)
  deriving DecidableEq, Repr

/-- Where a bundle issues: the physical folio and the sequencer context; what the checks find; and how many units of a resumable
instruction run before the boundary at which the command leaves it (R416, R644), 0 for all: the context stays inside the instruction,
and the same bundle again, or an interrupt, goes on from there. -/
structure Issue where
  folio : Fin 50
  ctx : Fin 4
  hw : Hw
  cut : Nat
  deriving DecidableEq, Repr

/-- The engine slot of a bundle below its opcode (R437), with the scalar slot that shares the bundle (R427). -/
structure Eng where
  tag : BitVec 7
  rel : Bool
  rstrm : BitVec 3
  ac : BitVec 16
  ops : BitVec 61
  sc : BitVec 32
  deriving DecidableEq, Repr

/-- A bundle whose engine slot holds ENOP or a reserved opcode (R430, R437): its opcode, its other fields and its scalar slot. -/
structure BareSlot where
  opc : BitVec 8
  eng : Eng
  deriving DecidableEq, Repr

/-- A tile attempt that runs again (R96): of the arrays of a folio, or with `mvp` a row of its MVP, and what its checks find. -/
structure Rerun where
  folio : Fin 50
  mvp : Bool
  hw : Hw
  deriving DecidableEq, Repr

/-- The requester ports of the register window (R580), with the codes of TXN_SLOTk.PORT. -/
inductive Port where
  | d2d | i3c | jtag
  deriving DecidableEq, Repr

/-- What training finds at bring-up (R387, R612): per stack whether it trains and the mask of pseudo-channels that fail;
the D2D modules that come up, those that use a redundant lane, and the lanes repaired; and in a warm bring-up whether the saved
stream table passes its CRC-64 (R638). -/
structure TrainOut where
  hbms : BitVec 4
  badPc : List (Fin 4 × Fin 32)
  modules : BitVec 4
  repaired : BitVec 4
  lanes : List (Fin 4 × BitVec 7)
  table : Bool
  deriving DecidableEq, Repr

/-- How a granule ends (R373, R388, R389), with the number of the 32-B burst that shows an error: done, done after on-die correction,
a read that fails by severity, a read whose burst arrives with data and check bits that disagree, a write whose check fails, or a
source in folio memory or the vat with a word of bad parity at a byte offset of the granule (R356). -/
inductive GranOut where
  | done
  | corrected
  | severity (burst : Fin 8)
  | crc (burst : Fin 8) (data : List Byte) (check : BitVec 16)
  | writeFail (burst : Fin 8)
  | parity (off : BitVec 8)
  deriving DecidableEq, Repr

/-- What a scrub read finds (R358, R359): good parity, an error of its own, or an error that a read of the same fclk found. -/
inductive ScrubFind where
  | clean | faulty | joined
  deriving DecidableEq, Repr

/-- A read of the step broadcast that fails its check (R25, R356, R389): a word of the vat, of the burst's landing zone or of a
resident wheel's copy, or a burst of the wheel in HBM. -/
inductive CastFail where
  | word (addr : BitVec 26)
  | burst (addr : BitVec 36)
  deriving DecidableEq, Repr

/-- The dispatch of a stream's step, and the check that its broadcast fails. -/
structure Dispatched where
  strm : BitVec 12
  fail : Option CastFail
  deriving DecidableEq, Repr

/-- A word of an on-die memory as the scrub and the golden reload name it: a folio's memory by SRC of FOLIO_PERR, or the vat. -/
inductive Block where
  | folio (n : Fin 50) (src : Fin 6) (addr : BitVec 20)
  | vat (addr : BitVec 26)
  deriving DecidableEq, Repr

/-- A reload of a golden block (R357); `fail` names a burst of the first copy in HBM that failed two reads (R389, R391), by severity, or
with `true` by its check. -/
structure GoldenRead where
  block : Block
  fail : Option (BitVec 36 × Bool)
  deriving DecidableEq, Repr

/-- What the progress watchdog finds stopped (R553): an engine of a folio, with the context whose work it holds, or a mover. -/
inductive HangUnit where
  | engine (n : Fin 50) (c : Fin 4)
  | mover (q : Fin 10)
  deriving DecidableEq, Repr

/-- What a supply monitor watches (R557, R626). -/
inductive Rail where
  | core | sram | rind | vddq | serdes
  | folioReg (n : Fin 50)
  deriving DecidableEq, Repr

/-- What PWRD_RISES names (R360): a segment of a folio, or a vat bank. -/
inductive PwrUnit where
  | seg (n : Fin 50) (k : Fin 16)
  | bank (b : Fin 80)
  deriving DecidableEq, Repr

/-- One collective of a gathering's sequence (R464): its shared tag, and for SCOPE 1 the seats it runs on (R472). -/
structure Coll where
  stag : BitVec 10
  seats : List (BitVec 10)
  deriving DecidableEq, Repr

/-- What a schedule records of a stream class: its guaranteed latency in units of 0.1 µs (R38), the draws of a step (R268),
the collective that carries the result (R466) with its ROWSTAT mark, the home quire (R366), the burst landing zone (R347), the resident wheel's
buffer (R294), and where h lies in the wheel's payload, by byte offset and number of FP32 words (R157). -/
structure SchedClass where
  cls : Fin 16
  lc : Nat
  draws : BitVec 48
  result : Option (BitVec 10)
  rowstat : Bool
  home : Fin 10
  zone : BitVec 10
  wheelBuf : Option (BitVec 10)
  hOff : Nat
  hCount : Nat
  deriving DecidableEq, Repr

/-- What a schedule records of a gathering: the order of its collectives (R464) and its classes. -/
structure SchedGath where
  g : Fin 16
  seq : List Coll
  classes : List SchedClass
  deriving DecidableEq, Repr

/-- A sender ring of a message landing zone (R348): its number, the zone's handle, its first granule and size, and the
sender: a logical folio of this device, or a remote seat. -/
structure Ring where
  num : BitVec 10
  zone : BitVec 10
  start : Nat
  size : Nat
  folio : Option (Fin 48)
  seat : BitVec 10
  deriving DecidableEq, Repr

/-- A sender ring of this device in a message landing zone of a remote device (R348, R384): the remote seat, the zone's handle
there, the ring's number and size. -/
structure RemoteRing where
  seat : BitVec 10
  zone : BitVec 10
  num : BitVec 10
  size : Nat
  deriving DecidableEq, Repr

/-- A golden range (R357): whole 4-KiB blocks of a logical folio's memory and the HBM address of their copy. -/
structure Golden where
  folio : Fin 48
  block : BitVec 8
  count : Nat
  hbm : BitVec 36
  deriving DecidableEq, Repr

/-- What a logical folio is loaded with (R329, R560): instruction memory, gate programs, function store; golden copies at
an HBM address of their own. -/
structure FolioImg where
  folio : Fin 48
  imem : List Byte
  gps : List Byte
  fns : List Byte
  segs : BitVec 16
  deriving DecidableEq, Repr

/-- Where the device delivers a state slice in the broadcast phase (R157): from an offset of the wheel payload to an offset
of the gate state buffer of a logical folio. -/
structure StateSlice where
  cls : Fin 16
  folio : Fin 48
  wheelOff : Nat
  gsbOff : Nat
  bytes : Nat
  deriving DecidableEq, Repr

/-- A schedule image as the loader reads it: its format lies outside the manual (R4, 00_scope.md), its content is what the
rules say a loaded schedule records, and what it brings into its HBM regions (`data`). The second copy of each of its golden blocks
lies `second` × 256 B above the first (R391). -/
structure Sched where
  ident : BitVec 64
  caps : BitVec 64
  wsize : BitVec 16
  gaths : List SchedGath
  handles : List (BitVec 10)
  regions : List (BitVec 36 × Nat)
  rings : List Ring
  remoteRings : List RemoteRing
  golden : List Golden
  second : Nat
  images : List FolioImg
  slices : List StateSlice
  data : List (BitVec 36 × List Byte)
  fits : Bool
  deriving DecidableEq, Repr

/-- A firmware image (R574, R632): its version, whether the signature verifies, whether it keeps what R574 asks, the folio
images and golden ranges by schedule identifier with the bytes of the golden copies, and the rind's delay tables (R539). -/
structure FwImage where
  version : BitVec 16
  signed : Bool
  compat : Bool
  images : List (BitVec 64 × FolioImg)
  golden : List (BitVec 64 × Golden)
  data : List (BitVec 36 × List Byte)
  exits : List (BitVec 17)
  entries : List (BitVec 16)
  deriving DecidableEq, Repr

/-- The commands. -/
inductive Instr where
  /-- PORST_N (R631): Release of the power-on reset, taken by the reset filter, starts a full bring-up. -/
  | porstN
  /-- WARM_N (R636): Warm reset assertion stops dispatch and saves commit records and the stream table before the fabric and folios reset. -/
  | warmN (saved : Bool)
  /-- RIND (R631): Bring-up stage 0x0 ends once REFCLK is valid and rclk moves to REFCLK. -/
  | rind
  /-- REF_WAIT (R631): After 10 ms without a valid REFCLK in RIND, CODE REF_WAIT is set, CLK_REF_LOSS is logged and FAULT_N goes low. -/
  | refWait
  /-- FUSE (R631): Fuses are read twice and compared; a mismatch halts with FUSE_MISMATCH. -/
  | fuse (agree : Bool)
  /-- POWER (R631): Bring-up power stage powers the fabric, the vat and all folios, retiring folios that fail. -/
  | power (failed : BitVec 50) (banks : BitVec 80) (fabric : Bool)
  /-- TEST (R633): Self-test of every folio and vat bank runs and its failures are handled. -/
  | test (failed : BitVec 50) (banks : BitVec 80)
  /-- TRAIN (R631): HBM and UCIe training completes or halts the device with HBM_FAIL or D2D_FAIL. -/
  | train (o : TrainOut)
  /-- LINK (R631): The link training stage ends after its 20 ms bound and the device enters READY. -/
  | link
  /-- NOP (R435): Scalar no-operation. -/
  | nop (a : Issue) (w : BitVec 26)
  /-- ADD (R435): Scalar register addition. -/
  | add (a : Issue) (w : BitVec 26)
  /-- SUB (R435): Scalar register subtraction. -/
  | sub (a : Issue) (w : BitVec 26)
  /-- AND (R435): Scalar bitwise and. -/
  | and (a : Issue) (w : BitVec 26)
  /-- OR (R435): Scalar bitwise or. -/
  | or (a : Issue) (w : BitVec 26)
  /-- XOR (R435): Scalar bitwise xor. -/
  | xor (a : Issue) (w : BitVec 26)
  /-- SHL (R435): Scalar shift left by register. -/
  | shl (a : Issue) (w : BitVec 26)
  /-- SHR (R435): Scalar logical shift right by register. -/
  | shr (a : Issue) (w : BitVec 26)
  /-- SRA (R435): Scalar arithmetic shift right by register. -/
  | sra (a : Issue) (w : BitVec 26)
  /-- MUL (R435): Low 32 bits of a scalar product. -/
  | mul (a : Issue) (w : BitVec 26)
  /-- SLT (R435): Signed set-less-than. -/
  | slt (a : Issue) (w : BitVec 26)
  /-- SLTU (R435): Unsigned set-less-than. -/
  | sltu (a : Issue) (w : BitVec 26)
  /-- ADDI (R435): Scalar add of a sign-extended immediate. -/
  | addi (a : Issue) (w : BitVec 26)
  /-- ANDI (R435): Scalar and with a zero-extended immediate. -/
  | andi (a : Issue) (w : BitVec 26)
  /-- ORI (R435): Scalar or with a zero-extended immediate. -/
  | ori (a : Issue) (w : BitVec 26)
  /-- LUI (R435): Loads an immediate into the upper half of a scalar register. -/
  | lui (a : Issue) (w : BitVec 26)
  /-- SHLI (R435): Scalar shift left by an immediate. -/
  | shli (a : Issue) (w : BitVec 26)
  /-- SHRI (R435): Scalar logical shift right by an immediate. -/
  | shri (a : Issue) (w : BitVec 26)
  /-- SRAI (R435): Scalar arithmetic shift right by an immediate. -/
  | srai (a : Issue) (w : BitVec 26)
  /-- LDW (R436): Loads 4 B from folio memory into a scalar register. -/
  | ldw (a : Issue) (w : BitVec 26)
  /-- STW (R436): Stores 4 B from a scalar register to folio memory. -/
  | stw (a : Issue) (w : BitVec 26)
  /-- LDP (R436): Loads 8 B into a scalar register pair. -/
  | ldp (a : Issue) (w : BitVec 26)
  /-- STP (R436): Stores a scalar register pair to folio memory. -/
  | stp (a : Issue) (w : BitVec 26)
  /-- LDA (R436): Loads an address register from folio memory. -/
  | lda (a : Issue) (w : BitVec 26)
  /-- STA (R436): Stores an address register to folio memory. -/
  | sta (a : Issue) (w : BitVec 26)
  /-- AADD (R435): Adds a sign-extended scalar to an address register. -/
  | aadd (a : Issue) (w : BitVec 26)
  /-- AADDI (R435): Adds a sign-extended immediate to an address register. -/
  | aaddi (a : Issue) (w : BitVec 26)
  /-- AMOV (R435): Forms an address register from a scalar pair. -/
  | amov (a : Issue) (w : BitVec 26)
  /-- SMOV (R435): Copies an address register into a scalar pair. -/
  | smov (a : Issue) (w : BitVec 26)
  /-- LCSET (R435): Sets a loop counter from a scalar register. -/
  | lcset (a : Issue) (w : BitVec 26)
  /-- BR (R405): Conditional branch resolved at issue, next bundle 3 fclk later. -/
  | br (a : Issue) (w : BitVec 26)
  /-- JMP (R405): Unconditional branch. -/
  | jmp (a : Issue) (w : BitVec 26)
  /-- CALL (R405): Pushes the return address and branches. -/
  | call (a : Issue) (w : BitVec 26)
  /-- RET (R405): Pops the return stack and branches. -/
  | ret (a : Issue) (w : BitVec 26)
  /-- LOOP (R405): Decrements a loop counter and branches back while it is not zero. -/
  | loop (a : Issue) (w : BitVec 26)
  /-- IFENCE (R407): Lands pending instruction stores and refetches. -/
  | ifence (a : Issue) (w : BitVec 26)
  /-- ISTORE (R406): Writes one bundle into instruction memory outside normal service. -/
  | istore (a : Issue) (w : BitVec 26)
  /-- SDONE (R414): Ends a context's step work so that checks and commit follow. -/
  | sdone (a : Issue) (w : BitVec 26)
  /-- YIELD (R414): Ends a doorbell entry. -/
  | yield (a : Issue) (w : BitVec 26)
  /-- RESUME (R419): Resumes a suspended instruction from the context's resume record. -/
  | resume (a : Issue) (w : BitVec 26)
  /-- TOPEN (R409): Opens a folio tag. -/
  | topen (a : Issue) (w : BitVec 26)
  /-- TCLOSE (R409): Closes a folio tag. -/
  | tclose (a : Issue) (w : BitVec 26)
  /-- TCANCEL (R411): Cancels a folio tag, aborting its work. -/
  | tcancel (a : Issue) (w : BitVec 26)
  /-- TWAIT (R410): Waits until a tag is DONE and takes its record. -/
  | twait (a : Issue) (w : BitVec 26)
  /-- TPOLL (R410): Returns the oldest completion record of the context. -/
  | tpoll (a : Issue) (w : BitVec 26)
  /-- ENOP (R437): Empty engine slot; with another opcode, an engine slot whose opcode is reserved (R430, R442). -/
  | enop (a : Issue) (x : BareSlot)
  /-- ALOAD (R125): Writes a weight tile into an array's shadow registers. -/
  | aload (a : Issue) (e : Eng)
  /-- ASTREAM (R114): Streams rows through a loaded weight tile in drain or accumulate mode. -/
  | astream (a : Issue) (e : Eng)
  /-- AFOLD (R122): Folds a logical tile onto one array. -/
  | afold (a : Issue) (e : Eng)
  /-- OVERFLOW_RERUN (R96): At the end of a tile attempt with an overflowed slot, the tile is rerun with a lowered offset or completes frozen. -/
  | overflowRerun (r : Rerun)
  /-- MVLD (R149): Loads and converts part of an MVP input latch. -/
  | mvld (a : Issue) (e : Eng)
  /-- MVMUL (R144): Multiplies weight rows by one latch on the matrix-vector path. -/
  | mvmul (a : Issue) (e : Eng)
  /-- GUPD (R158): Describes one cell update on the gate pipeline. -/
  | gupd (a : Issue) (e : Eng)
  /-- GPLOAD (R643): Loads one gate program into the program store. -/
  | gpload (a : Issue) (e : Eng)
  /-- SFN (R204): Evaluates one special function on vector lanes. -/
  | sfn (a : Issue) (e : Eng)
  /-- FNLOAD (R215): Copies a checked range into the function store. -/
  | fnload (a : Issue) (e : Eng)
  /-- SXCLR (R221): Clears the softmax lane sums and SROW. -/
  | sxclr (a : Issue) (e : Eng)
  /-- SXACC (R221): Adds wide exponentials of scores into the lane sums. -/
  | sxacc (a : Issue) (e : Eng)
  /-- SXRED (R221): Reduces the lane sums into SROW, optionally over the spine. -/
  | sxred (a : Issue) (e : Eng)
  /-- SXDIV (R221): Divides each exponential by SROW and encodes the result. -/
  | sxdiv (a : Issue) (e : Eng)
  /-- VADD (R240): Element-wise floating-point addition. -/
  | vadd (a : Issue) (e : Eng)
  /-- VSUB (R240): Element-wise floating-point subtraction. -/
  | vsub (a : Issue) (e : Eng)
  /-- VMUL (R240): Element-wise floating-point multiplication. -/
  | vmul (a : Issue) (e : Eng)
  /-- VFMA (R240): Element-wise fused multiply-add. -/
  | vfma (a : Issue) (e : Eng)
  /-- VMAX (R240): Element-wise IEEE maximum. -/
  | vmax (a : Issue) (e : Eng)
  /-- VMIN (R240): Element-wise IEEE minimum. -/
  | vmin (a : Issue) (e : Eng)
  /-- VABS (R240): Clears the sign bit of each element. -/
  | vabs (a : Issue) (e : Eng)
  /-- VNEG (R240): Inverts the sign bit of each element. -/
  | vneg (a : Issue) (e : Eng)
  /-- VCMP (R240): Floating-point compare into a mask register. -/
  | vcmp (a : Issue) (e : Eng)
  /-- VSEL (R240): Selects between two registers by a mask. -/
  | vsel (a : Issue) (e : Eng)
  /-- VCVT (R242): Converts elements between formats. -/
  | vcvt (a : Issue) (e : Eng)
  /-- VPACK (R246): Converts two registers into one packed register. -/
  | vpack (a : Issue) (e : Eng)
  /-- VUNPACK (R246): Unpacks half of a packed register into lane form. -/
  | vunpack (a : Issue) (e : Eng)
  /-- VIADD (R241): Integer addition. -/
  | viadd (a : Issue) (e : Eng)
  /-- VISUB (R241): Integer subtraction. -/
  | visub (a : Issue) (e : Eng)
  /-- VIMUL (R241): Low 32 bits of an integer product. -/
  | vimul (a : Issue) (e : Eng)
  /-- VAND (R241): Bitwise and of vector registers. -/
  | vand (a : Issue) (e : Eng)
  /-- VOR (R241): Bitwise or of vector registers. -/
  | vor (a : Issue) (e : Eng)
  /-- VXOR (R241): Bitwise xor of vector registers. -/
  | vxor (a : Issue) (e : Eng)
  /-- VSHL (R241): Vector shift left. -/
  | vshl (a : Issue) (e : Eng)
  /-- VSHRL (R241): Vector logical shift right. -/
  | vshrl (a : Issue) (e : Eng)
  /-- VSHRA (R241): Vector arithmetic shift right. -/
  | vshra (a : Issue) (e : Eng)
  /-- VIMAX (R241): Signed integer maximum. -/
  | vimax (a : Issue) (e : Eng)
  /-- VIMIN (R241): Signed integer minimum. -/
  | vimin (a : Issue) (e : Eng)
  /-- VICMP (R241): Signed integer compare into a mask register. -/
  | vicmp (a : Issue) (e : Eng)
  /-- VIOTA (R241): Writes each lane's index. -/
  | viota (a : Issue) (e : Eng)
  /-- VMOV (R241): Copies a vector register. -/
  | vmov (a : Issue) (e : Eng)
  /-- VPERM (R244): Permutes lanes of one register by an index register. -/
  | vperm (a : Issue) (e : Eng)
  /-- VPERM2 (R244): Permutes lanes drawn from two registers. -/
  | vperm2 (a : Issue) (e : Eng)
  /-- VSHUF (R245): Applies a fixed shuffle pattern. -/
  | vshuf (a : Issue) (e : Eng)
  /-- VLD (R247): Loads a vector register from folio memory. -/
  | vld (a : Issue) (e : Eng)
  /-- VST (R248): Stores masked lanes to folio memory. -/
  | vst (a : Issue) (e : Eng)
  /-- VSSQ (R250): Updates per-lane sum-of-squares records. -/
  | vssq (a : Issue) (e : Eng)
  /-- VMV (R250): Updates per-lane mean-and-variance records. -/
  | vmv (a : Issue) (e : Eng)
  /-- VSCLR (R250): Empties a statistics file. -/
  | vsclr (a : Issue) (e : Eng)
  /-- VSTRED (R250): Combines a statistics file's lanes and writes one record. -/
  | vstred (a : Issue) (e : Eng)
  /-- VSTST (R250): Writes all 64 statistics records. -/
  | vstst (a : Issue) (e : Eng)
  /-- VAMAX (R251): Updates per-lane argmax records. -/
  | vamax (a : Issue) (e : Eng)
  /-- VACLR (R251): Resets an argmax file. -/
  | vaclr (a : Issue) (e : Eng)
  /-- VAMRED (R251): Combines argmax lanes into one record. -/
  | vamred (a : Issue) (e : Eng)
  /-- VZRD (R255): Decodes a zero-run coded map from the vat into folio memory. -/
  | vzrd (a : Issue) (e : Eng)
  /-- SSCAN (R175): Head-form linear scan of one group from a carry-in. -/
  | sscan (a : Issue) (e : Eng)
  /-- SSUMM (R186): Summary pass of a span for the tail-form scan. -/
  | ssumm (a : Issue) (e : Eng)
  /-- SCONV (R191): Causal depthwise convolution. -/
  | sconv (a : Issue) (e : Eng)
  /-- CARRY_PASS (R183): A sent carry arrives in the destination folio's carry inbox. -/
  | carryPass (n : Fin 50)
  /-- RSET (R266): Sets the generator seed and key of the context. -/
  | rset (a : Issue) (e : Eng)
  /-- RSTART (R271): Positions the run state of every lane. -/
  | rstart (a : Issue) (e : Eng)
  /-- RGEN (R270): Draws random values in element or run mode. -/
  | rgen (a : Issue) (e : Eng)
  /-- FMFILL (R352): Fills folio memory with a pattern. -/
  | fmfill (a : Issue) (e : Eng)
  /-- FMCOPY (R352): Copies within folio memory. -/
  | fmcopy (a : Issue) (e : Eng)
  /-- OBLD (R352): Copies folio memory into an operand buffer. -/
  | obld (a : Issue) (e : Eng)
  /-- OBST (R352): Copies an operand buffer into folio memory. -/
  | obst (a : Issue) (e : Eng)
  /-- VTFILL (R352): Fills a vat buffer with a pattern. -/
  | vtfill (a : Issue) (e : Eng)
  /-- VTCOPY (R352): Copies between vat buffers. -/
  | vtcopy (a : Issue) (e : Eng)
  /-- VTLD (R352): Copies a vat buffer into folio memory. -/
  | vtld (a : Issue) (e : Eng)
  /-- VTST (R352): Copies folio memory into a vat buffer. -/
  | vtst (a : Issue) (e : Eng)
  /-- LZPUT (R348): Writes granules into a message landing-zone ring under credits. -/
  | lzput (a : Issue) (e : Eng)
  /-- LZCOPY (R349): Copies landing-zone granules into the owning folio, optionally freeing them. -/
  | lzcopy (a : Issue) (e : Eng)
  /-- XFER (R367): Queues one move between HBM and the vat or folio memory. -/
  | xfer (a : Issue) (e : Eng)
  /-- XSTREAM (R377): Opens a fetch stream and issues its first tiles. -/
  | xstream (a : Issue) (e : Eng)
  /-- XREL (R378): Releases fetch-stream tiles, issuing the next ones. -/
  | xrel (a : Issue) (e : Eng)
  /-- XMCAST (R383): Reads an HBM range once and delivers it to several folios. -/
  | xmcast (a : Issue) (e : Eng)
  /-- XMRECV (R383): Posts a folio's receive for a multicast. -/
  | xmrecv (a : Issue) (e : Eng)
  /-- LPMSG (R384): Sends a light-path message into a landing-zone ring. -/
  | lpmsg (a : Issue) (e : Eng)
  /-- SPRED (R460): Spine reduction by sum, maximum or minimum. -/
  | spred (a : Issue) (e : Eng)
  /-- SPGATH (R460): Spine all-gather in logical order. -/
  | spgath (a : Issue) (e : Eng)
  /-- SPBCAST (R460): Spine broadcast from the first taking-part folio. -/
  | spbcast (a : Issue) (e : Eng)
  /-- SPSTAT (R460): Spine combination of statistics records. -/
  | spstat (a : Issue) (e : Eng)
  /-- SPARG (R460): Spine argmax combination. -/
  | sparg (a : Issue) (e : Eng)
  /-- SPBAR (R460): Spine barrier. -/
  | spbar (a : Issue) (e : Eng)
  /-- SPCARRY (R460): Spine carry computation for a tail-form scan. -/
  | spcarry (a : Issue) (e : Eng)
  /-- COLLECTIVE_COMPLETE (R468): A collective writes its last result beat and completes on every taking-part folio. -/
  | collectiveComplete (g : Fin 16) (hw : Hw)
  /-- INBOUND_BURST_FLIT (R305): A D2D burst flit is taken into a curd, refused, or discarded as whey. -/
  | inboundBurstFlit
  /-- CURD_EXPIRY (R307): A curd's hold timer reaches zero and the curd is discarded with STEP_INCOMPLETE. -/
  | curdExpiry (i : BitVec 12)
  /-- STEP_HOLD_EXPIRY (R33): A held burst's acceptance is taken 10 µs after the previous acceptance. -/
  | stepHoldExpiry (i : BitVec 12)
  /-- TOKEN_REFILL (R300): A class bucket gains one token every TOKEN_INT fclk. -/
  | tokenRefill (k : Fin 16)
  /-- STEP_DISPATCH (R413): A dispatch entry is placed on every folio of the class's gathering and the context's registers are set. -/
  | stepDispatch (x : Dispatched)
  /-- INTERRUPT_TAKEN (R415): The running context is taken at a point of R416 and the interrupting context starts. -/
  | interruptTaken (n : Fin 50) (fclk : BitVec 9)
  /-- STEP_RELEASE (R25): Once every check has passed, the step's result message is handed to the D2D port. -/
  | stepRelease (i : BitVec 12)
  /-- STEP_RERUN (R28): A step that fails a check before release is aborted and rerun from the uncommitted wheel, or fails after three attempts. -/
  | stepRerun (i : BitVec 12)
  /-- STEP_RERUN_AFTER_RELEASE (R29): A step failing after release is rerun and its check compared, committing or diverging. -/
  | stepRerunAfterRelease (i : BitVec 12)
  /-- STEP_COMMIT (R26): Release, acknowledged wheel write and mirror acknowledgement make the new wheel the committed one. -/
  | stepCommit (i : BitVec 12)
  /-- COMMIT_RECORD_WRITE (R293): The step's commit record is written to HBM within 2 µs of the commit. -/
  | commitRecordWrite (i : BitVec 12)
  /-- CHECKPOINT_COMMIT (R201): A replay checkpoint commits the wheel and releases replayed results. -/
  | checkpointCommit (i : BitVec 12) (bursts : Nat)
  /-- START (R288): Stream command that assigns a handle and writes the initial wheel. -/
  | start (p : Port)
  /-- START_WHEEL_WRITTEN (R283): The initial wheel is written and mirrored and the stream becomes ACTIVE. -/
  | startWheelWritten (i : BitVec 12) (ok : Bool)
  /-- PAUSE (R289): Stream command that pauses the stream after its step in flight. -/
  | pause (p : Port)
  /-- RESUME_REPLAY (R289): Stream command that replays the backlog. -/
  | resumeReplay (p : Port)
  /-- RESUME_DROP (R289): Stream command that drops the backlog and reactivates. -/
  | resumeDrop (p : Port)
  /-- END (R290): Stream command that ends the stream and discards its bursts. -/
  | endStream (p : Port)
  /-- END_ERASE (R290): Stream command that ends the stream and erases its wheel slots. -/
  | endErase (p : Port)
  /-- EXPORT (R322): Stream command that encrypts and sends the committed wheel. -/
  | exportWheel (p : Port)
  /-- EXPORT_COMPLETE (R283): The last flit of the export message is handed over and the stream becomes EXPORTED. -/
  | exportComplete (i : BitVec 12)
  /-- IMPORT (R322): Stream command that reserves an index for an incoming wheel image. -/
  | importWheel (p : Port)
  /-- IMPORT_WHEEL_WRITTEN (R323): The verified image's wheel is written and mirrored and the stream becomes PAUSED. -/
  | importWheelWritten (i : BitVec 12) (ok : Bool)
  /-- IMPORT_INCOMPLETE (R283): No image burst is accepted within 100 ms and the index returns to FREE. -/
  | importIncomplete (i : BitVec 12)
  /-- OP_RESERVED (R287): A stream command with a reserved OP is refused. -/
  | opReserved (p : Port) (op : BitVec 4)
  /-- STRM_DONE_HI (R325): Reading STRM_DONE_HI removes the oldest completion record, freeing a held completion. -/
  | strmDoneHi (p : Port)
  /-- STRM_VIEW_SEL (R326): Selects a stream-table entry for viewing. -/
  | strmViewSel (p : Port) (w : Word)
  /-- STRM_VIEW_CLR (R326): Clears the selected entry's counters. -/
  | strmViewClr (p : Port) (w : Word)
  /-- STRM_CNT_CLR (R327): Clears the device-wide stream counters. -/
  | strmCntClr (p : Port) (w : Word)
  /-- HBM_GRANULE_DONE (R373): A granule's read data return or its write is acknowledged, with its checks. -/
  | hbmGranuleDone (q : Fin 10) (id g : Nat) (o : GranOut)
  /-- REFRESH_WINDOW (R374): A common HBM refresh window opens every 3,120 fclk. -/
  | refreshWindow (temps : BitVec 32) (failed : List (Fin 4 × Fin 32))
  /-- CANCEL_ACK (R381): The movers acknowledge a tag's cancellation after its last stale granule. -/
  | cancelAck (n : Fin 50) (k : BitVec 6)
  /-- TAG_DONE (R409): A tag's last work completes and a record enters the completion queue. -/
  | tagDone (n : Fin 50) (k : BitVec 6)
  /-- PC_RETIRE_DONE (R390): The drain copy ends and the pseudo-channel map switches to RETIRED. -/
  | pcRetireDone (s : Fin 4)
  /-- GOLDEN_RELOAD (R357): A golden reload of a block completes in parallel with the rerun's wheel fetch. -/
  | goldenReload (x : GoldenRead)
  /-- SCRUB_READ (R358): Scrub reads and checks a word in an idle slot. -/
  | scrubRead (b : Block) (found : ScrubFind) (pass : Bool)
  /-- FORCED_SCRUB_READ (R358): A scrub read is forced once per interval when none has occurred. -/
  | forcedScrubRead (b : Block) (found : ScrubFind) (pass : Bool)
  /-- ARR_STALL_OVER (R135): Array freezes exceed the counted bound. -/
  | arrStallOver (n : Fin 50) (c : Fin 4)
  /-- MVP_STALL_OVER (R152): MVP freezes exceed the counted bound. -/
  | mvpStallOver (n : Fin 50) (c : Fin 4)
  /-- SCAN_STALL_OVER (R181): Sewing-unit freezes exceed the counted bound. -/
  | scanStallOver (n : Fin 50) (c : Fin 4)
  /-- VEC_STALL_OVER (R249): Vector-engine freezes exceed the counted bound. -/
  | vecStallOver (n : Fin 50) (c : Fin 4)
  /-- MEM_GRANT_LATE (R338): A folio memory request misses its grant bound. -/
  | memGrantLate (n : Fin 50) (c : Fin 4)
  /-- VAT_GRANT_LATE (R343): A vat beat is granted later than its bound. -/
  | vatGrantLate (n : Fin 50) (c : Fin 4)
  /-- LZ_CREDIT_LATE (R412): An LZPUT credit wait passes its limit. -/
  | lzCreditLate (n : Fin 50) (c : Fin 4)
  /-- SEQ_WAIT_LATE (R412): A TWAIT or MVLD wait passes its limit. -/
  | seqWaitLate (n : Fin 50) (c : Fin 4)
  /-- SCAN_CARRY_LATE (R184): An SSCAN inbox wait passes its counted bound. -/
  | scanCarryLate (n : Fin 50) (c : Fin 4)
  /-- MOVE_WAIT_LATE (R383): A multicast leader waits beyond its counted wait. -/
  | moveWaitLate (n : Fin 50) (c : Fin 4)
  /-- HBM_LATE (R375): A granule misses its completion bound. -/
  | hbmLate (q : Fin 10) (id g : Nat)
  /-- SPN_LATE (R471): A collective has not completed within its recorded count. -/
  | spnLate (g : Fin 16)
  /-- ENG_HANG (R553): An engine or mover makes no progress for 4,096 fclk. -/
  | engHang (u : HangUnit)
  /-- SEQ_LOCKSTEP (R423): The two sequencer copies differ and all work on the folio fails and reloads. -/
  | seqLockstep (n : Fin 50)
  /-- SUBSTITUTION_DONE (R560): The spare's reload ends, the leaf map is rewritten and the spare takes the logical index. -/
  | substitutionDone (n : Fin 50)
  /-- D2D_FLIT (R614): A D2D flit arrives and is checked, ordered, acknowledged and credited. -/
  | d2dFlit (bytes : List Byte)
  /-- D2D_RESEND (R614): A flit not acknowledged within 2 µs is resent with every later flit. -/
  | d2dResend
  /-- D2D_RETRAIN (R615): The D2D port retrains after 4 µs without a good flit, a 16th attempt or a credit overflow. -/
  | d2dRetrain
  /-- RESET_REQ (R600): A sideband reset-of-requester orphans the named transactions. -/
  | resetReq (tag : BitVec 16)
  /-- LINK_FLIT (R488): A link flit and control word arrive and are checked, acknowledged, forwarded or retried. -/
  | linkFlit (l : Fin 6) (bytes : List Byte) (fec : BitVec 16)
  /-- DATA (R482): A collective beat, carry or summary arrives over a link. -/
  | data
  /-- MSG (R482): A light-path message or remote credit return arrives. -/
  | msg
  /-- MIRROR (R511): A buddy receives a wheel mirror, writes it and acknowledges. -/
  | mirror (ok : Bool)
  /-- MACK (R512): The owner receives a mirror acknowledgement. -/
  | mack
  /-- MREL (R512): A buddy frees a mirror entry. -/
  | mrel
  /-- MIRROR_TIMEOUT (R512): No MACK within CH_MIRROR.TO fails the step after release. -/
  | mirrorTimeout (i : BitVec 12)
  /-- RENEW (R504): A member receives a hoop renewal request and answers with RACK. -/
  | renew
  /-- RENEWAL_ROUND (R504): Every RENEW ms the device starts a hoop renewal round. -/
  | renewalRound
  /-- RACK (R504): A renewal acknowledgement arrives and may extend the hoop. -/
  | rack
  /-- HOOP_LAPSE (R506): The hoop lapses and owned streams become FENCED. -/
  | hoopLapse
  /-- LSTATE (R496): A link-state notice is applied, forwarded and routes recomputed. -/
  | lstate
  /-- PROPOSE (R501): A proposal arrives and the member votes for it. -/
  | propose
  /-- VOTE (R501): A vote arrives at the proposer, which commits on quorum. -/
  | vote
  /-- COMMIT (R503): A charter commit is applied: new epoch, renewal, credits and buddies. -/
  | commit
  /-- PROPOSAL_TIMEOUT (R501): A proposal not committed within 200 µs is dropped and may be retried after backoff. -/
  | proposalTimeout
  /-- JOIN (R518): A joiner's request arrives and the lowest member proposes an extended charter. -/
  | join
  /-- TAKEOVER (R515): At commit + LEN + 2 ms the buddy takes over a stream from its mirror. -/
  | takeover (m : Nat)
  /-- LANECTL (R489): A lane-swap or training-identity message between neighbours is applied. -/
  | lanectl (l : Fin 6)
  /-- LANE_FAIL (R489): A lane loses lock or exceeds its symbol errors and is swapped to the spare. -/
  | laneFail (l : Fin 6) (lane : Fin 5)
  /-- LNK_LOST (R490): A link is lost after 16 µs without a good control word or a 17th attempt. -/
  | lnkLost (l : Fin 6)
  /-- LINK_RETRAIN (R490): A lost port attempts training again every 10 ms. -/
  | linkRetrain (l : Fin 6)
  /-- LINK_UP (R495): A port completes training, or enters the miswired state. -/
  | linkUp (l : Fin 6) (seat : BitVec 10) (peer : BitVec 3) (lanes : BitVec 5)
  /-- KNOCK (R492): The squelch detector sees a knock and raises a wake event. -/
  | knock (l : Fin 6) (bursts : List (Nat × Nat))
  /-- KNOCK_REPETITION (R492): A knock is sent again every 100 µs until the link trains or 1 s passes. -/
  | knockRepetition (l : Fin 6)
  /-- FORMATION_RETRY (R499): Uncommitted formation is retried every 10 ms. -/
  | formationRetry
  /-- CLK_REF_LOSS (R523): A missing REFCLK edge moves rclk to the RC backup and puts the PLLs in holdover. -/
  | clkRefLoss
  /-- REFCLK_RETURN (R523): After 960 rclk of valid REFCLK, rclk moves back to REFCLK. -/
  | refclkReturn
  /-- REFCLK_LOSS_TIMEOUT (R523): REFCLK absent for 10 ms sends the device to D2 and withdraws it. -/
  | refclkLossTimeout
  /-- CLK_PLL (R557): A PLL loses lock and its domains move to the limp clock. -/
  | clkPll (u : Fin 11)
  /-- SUPPLY (R557): A rail leaves its monitor band and the device releases nothing. -/
  | supply (r : Rail)
  /-- SUPPLY_EXCURSION_TIMEOUT (R557): A core or SRAM excursion longer than 10 µs withdraws the device. -/
  | supplyExcursionTimeout (r : Rail)
  /-- THERMAL_SAMPLE (R546): Junction sensors are sampled every 8 rclk and THERM_N follows. -/
  | thermalSample (temps : BitVec 128)
  /-- THERM_TRIP (R547): A sensor crosses 115 °C and the device holds work and removes power. -/
  | thermTrip
  /-- F1_ENTRY (R526): A folio with all contexts idle and all engines idle enters F1. -/
  | f1Entry (n : Fin 50)
  /-- POWER_ENTRY (R530): After the holdoff the power manager starts an entry, with window E0 checks. -/
  | powerEntry (d : BitVec 8) (regulatorOk : Bool)
  /-- ENTRY_COMPLETE (R540): An entry completes and any latched wake starts the exit. -/
  | entryComplete (d : BitVec 8)
  /-- EXIT_STEP (R537): An exit step ends at its ready report or delay and the next starts. -/
  | exitStep (d : BitVec 8)
  /-- WAKE_FAIL (R542): A wake step times out, is retried once, then marks the domain failed. -/
  | wakeFail (d : BitVec 8)
  /-- PLANNER_EXPIRY (R536): The wake planner's timer expires and the scheduler votes on the gathering. -/
  | plannerExpiry
  /-- PM_VOTE_HOST (R529): A host vote write holds or releases domains and may wake the device. -/
  | pmVoteHost (p : Port) (w : Word)
  /-- PM_VOTE_DBG (R529): A debug vote write, honoured only in debug mode. -/
  | pmVoteDbg (p : Port) (w : Word)
  /-- PM_WAKE_CAUSE (R540): Clearing wake causes releases WAKE_N. -/
  | pmWakeCause (p : Port) (w : Word)
  /-- PM_REFUSE_LOG (R549): Writing VALID clears the refusal log and its counter. -/
  | pmRefuseLog (p : Port) (w : Word)
  /-- TXN_BEGIN (R592): Opens a transaction in the lowest free slot. -/
  | txnBegin (p : Port) (w : Word)
  /-- TXN_SEL (R593): Selects the port's transaction and restarts its lease. -/
  | txnSel (p : Port) (w : Word)
  /-- TXN_STAGE (R594): A write to a TX field is staged in the selected transaction or refused. -/
  | txnStage (p : Port) (addr : BitVec 21) (w : Word)
  /-- TXN_COMMIT (R596): Moves a transaction to COMMITTING and holds dispatch to its gatherings. -/
  | txnCommit (p : Port) (w : Word)
  /-- PRESS_POINT (R596): At the press point every commit check runs and the staged writes apply or the transaction fails. -/
  | pressPoint (k : Fin 4)
  /-- TXN_ROLLBACK (R598): Discards the staged writes of a transaction. -/
  | txnRollback (p : Port) (w : Word)
  /-- TXN_ORPHANED (R600): An open transaction's lease runs out and it is rolled back. -/
  | txnOrphaned (k : Fin 4)
  /-- TXN_CNT_CLR (R602): Clears the transaction counters. -/
  | txnCntClr (p : Port) (w : Word)
  /-- IFACE_LEVEL (R590): A write requests an interface level or clears REFUSED. -/
  | ifaceLevel (p : Port) (w : Word)
  /-- IFACE_LEVEL_DECISION (R590): A pending level request is accepted or refused within 2 µs. -/
  | ifaceLevelDecision
  /-- DEV_SEAL (R589): Sets the seal and debug permission in one rclk. -/
  | devSeal (p : Port) (w : Word)
  /-- DOOR (R413): A doorbell places a dispatch entry for the context. -/
  | door (p : Port) (n : Fin 50) (c : Fin 4)
  /-- HALT (R422): A debug halt request takes the context at a point of R416. -/
  | halt (p : Port) (n : Fin 50) (c : Fin 4)
  /-- GO (R422): Takes a halted context out of HALTED. -/
  | go (p : Port) (n : Fin 50) (c : Fin 4)
  /-- FORM (R499): Starts charter formation and gives timer 3 to the hoop watchdog. -/
  | form (p : Port)
  /-- ARR_DBG_SEL (R142): Selects an array register for debug reading. -/
  | arrDbgSel (p : Port) (n : Fin 50) (w : Word)
  /-- FOLIO_OVR_CLR (R102): Clears the overflow counters of a folio. -/
  | folioOvrClr (p : Port) (n : Fin 50) (w : Word)
  /-- FOLIO_PERR_CLR (R362): Clears a folio's parity counters. -/
  | folioPerrClr (p : Port) (n : Fin 50) (w : Word)
  /-- VAT_PERR_CLR (R363): Clears the vat parity counters. -/
  | vatPerrClr (p : Port) (w : Word)
  /-- HBM_ERR_CLR (R393): Clears a stack's error counters. -/
  | hbmErrClr (p : Port) (s : Fin 4) (w : Word)
  /-- MOVER_CNT_CLR (R394): Clears a mover's counters. -/
  | moverCntClr (p : Port) (q : Fin 10) (w : Word)
  /-- SEQ_CNT_CLR (R424): Clears the sequencer counters and SEQ_IRQ_MAX. -/
  | seqCntClr (p : Port) (n : Fin 50) (w : Word)
  /-- SPN_CNT_CLR (R478): Clears the spine counters. -/
  | spnCntClr (p : Port) (w : Word)
  /-- LNK_DEV_CLR (R521): Clears the device link counters. -/
  | lnkDevClr (p : Port) (w : Word)
  /-- LNK_CNT_CLR (R521): Clears a port's counters. -/
  | lnkCntClr (p : Port) (l : Fin 6) (w : Word)
  /-- CH_CNT_CLR (R521): Clears the charter counters. -/
  | chCntClr (p : Port) (w : Word)
  /-- THERM_CLR (R549): Clears the highest thermal reading. -/
  | thermClr (p : Port) (w : Word)
  /-- D2D_CNT_CLR (R630): Clears the D2D counters. -/
  | d2dCntClr (p : Port) (w : Word)
  /-- FLT_CLR (R572): Clears the fault-log counters. -/
  | fltClr (p : Port) (w : Word)
  /-- FLT_STAT_FAULT (R571): Writing FAULT clears the flag and releases FAULT_N. -/
  | fltStatFault (p : Port) (w : Word)
  /-- WITHDRAW (R565): Host write that withdraws the device. -/
  | withdraw (p : Port) (w : Word)
  /-- FLT_INJECT (R572): Writes a FLT_TEST entry while a folio is in test mode. -/
  | fltInject (p : Port) (w : Word)
  /-- FW_LOAD (R632): Mailbox operation that loads and verifies the boot image. -/
  | fwLoad (p : Port) (img : FwImage)
  /-- FW_STAGE (R574): Mailbox operation that verifies and stages a firmware image. -/
  | fwStage (p : Port) (img : FwImage)
  /-- FW_PROMOTE (R575): Mailbox operation that makes the staged image the base. -/
  | fwPromote (p : Port)
  /-- SCHED_LOAD (R609): Mailbox operation that loads a schedule image and places it in the folios. -/
  | schedLoad (p : Port) (img : Sched)
  /-- SCHED_UNLOAD (R609): Mailbox operation that unloads a schedule. -/
  | schedUnload (p : Port)
  /-- KEY_LOAD (R318): Mailbox operation that loads an AES key slot. -/
  | keyLoad (p : Port)
  /-- KEY_CLEAR (R609): Mailbox operation that empties a key slot. -/
  | keyClear (p : Port)
  /-- BULK_EXPORT (R324): Mailbox operation that exports every paused stream of a class. -/
  | bulkExport (p : Port)
  /-- ROM_READ (R641): Mailbox operation that returns a function ROM image. -/
  | romRead (p : Port)
  /-- SCRUB_ALL (R609): Mailbox operation that runs one extra scrub pass. -/
  | scrubAll (p : Port)
  /-- SELF_TEST (R609): Mailbox operation that tests named spare or idle folios. -/
  | selfTest (p : Port)
  /-- FOLIO_RETIRE (R609): Mailbox operation that retires a folio. -/
  | folioRetire (p : Port)
  /-- PC_RETIRE (R390): Mailbox operation that retires a pseudo-channel. -/
  | pcRetire (p : Port)
  /-- MBX_OP (R609): A mailbox command with a reserved or hidden OP ends at once. -/
  | mbxOp (p : Port) (op : BitVec 8)
  /-- MBX_CHUNK (R608): The host hands over the mailbox data window. -/
  | mbxChunk (p : Port) (w : Word)
  /-- MBX_TIMEOUT (R608): A chunk waits 100 ms and the operation ends. -/
  | mbxTimeout
  /-- MBX_OPERATION_END (R607): A running mailbox operation ends with its outcome code. -/
  | mbxOperationEnd (found : BitVec 64)
  /-- FW_UPDATE_FAIL (R576): A staged-copy failure during a switch returns the gathering to the base image. -/
  | fwUpdateFail (g : Fin 16)
  /-- I3C_TARGET_RESET (R600): An I3C target reset orphans that port's transactions. -/
  | i3cTargetReset
  /-- I3C_TRANSFER_TIMEOUT (R620): A transfer stopped for 100 µs without STOP is abandoned. -/
  | i3cTransferTimeout
  /-- TEST_LOGIC_RESET (R600): JTAG entry into Test-Logic-Reset orphans the JTAG port's transactions. -/
  | testLogicReset
  /-- WINDOW (R625): A JTAG WINDOW access is made at Update-DR or refused. -/
  | window (w : BitVec 97)
  /-- REGISTER_WRITE (R580): A register write with no behaviour of its own takes effect or sets ERR_STATUS. -/
  | registerWrite (p : Port) (addr : BitVec 32) (width : BitVec 8) (data : BitVec 64)
  /-- PORST_N_ASSERTION (R622): Assertion of PORST_N, taken by the reset filter, resets the device, releases its outputs and ends any warm reset in progress. -/
  | porstNAssertion
  /-- WARM_N_RELEASE (R631): Release of WARM_N, taken by the reset filter, starts the warm bring-up with the skips and restorations of R637. -/
  | warmNRelease
  /-- SUPPLY_RETURN (R557): A rail comes back inside its monitor band, ending the release block 1 µs later and letting the device leave D2 under R628. -/
  | supplyReturn (r : Rail)
  /-- D2D_RETRAIN_COMPLETE (R615): A D2D retrain ends within 1 ms, resending retried flits and excluding any module that failed, which withdraws the device if none is left. -/
  | d2dRetrainComplete (up repaired : BitVec 4) (lanes : List (Fin 4 × BitVec 7))
  /-- FW_SWITCH_COMPLETE (R575): A gathering's reload from the staged or base image ends and its FW_STAT.ON bit and switch state are updated. -/
  | fwSwitchComplete (g : Fin 16)
  /-- PWRD_RISES (R360): A folio memory segment or vat bank switched on finishes its zero-fill and its PWRD bit rises. -/
  | pwrdRises (u : PwrUnit)
  deriving DecidableEq, Repr

end Sys2Proof
end

