-- ==== Sys2Proof/Decode.lean ====
section
/-! DEFINITION. The decoding of a table word. No row of the opcode table gives bits: a bundle's fields are operands of its
command, read by the bit positions of 14_instruction_encoding.md where the command runs. -/

namespace Sys2Proof

/-- The command that a word of `nbits` bits spells by the table's bits: none, since the table gives no row bits. -/
def decodeTableWord (_nbits _w : Nat) : Option Instr := none

end Sys2Proof
end

