-- ==== Sys2Proof/Config.lean ====
section
/-! DEFINITION. What an implementation fixes and the manual leaves open: fused values, the contents of the function
ROMs, the ciphers and signatures of external standards, and free values. Each is a constant without a body. -/

namespace Sys2Proof.Config

/-- The fused serial number of R319 and R588. -/
opaque serial : BitVec 32
/-- The fused silicon revision of R588: MAJOR in [15:8], MINOR in [7:0]. -/
opaque revision : BitVec 16
/-- Byte `offset` of the function ROM image of a level (R211, R641); the manual does not list the values. -/
opaque romByte : (level offset : Nat) → BitVec 8
/-- The bytes that the level-1 function ROM image holds after its 16-byte header (R609, R641). -/
opaque romSize : Nat
/-- The result that the bytes of the level-1 image fix for a function (R217, R218, R641), in its FP32 working precision and before the
rounding to the output format: the code of the value for the FP32 code of the argument. The layout of the segments in the image is
not in the manual. -/
opaque sfuLevel1 : (image : List (BitVec 8)) → (fn : Nat) → (x : BitVec 32) → BitVec 32
/-- Bits [30:15] of the device's fclk count while an rclk count stands (R624); the manual does not say where the count starts. -/
opaque fclkCount : (rclk : Nat) → BitVec 16
/-- A value the manual leaves open, fresh for each counter value and wide enough for any field. -/
opaque freeValue : Nat → BitVec 64

end Sys2Proof.Config
end

