-- ==== Sys2Proof/Machine/Num.lean ====
section
/-! DEFINITION. Number formats and conversion (02_number_formats.md R43 to R74): values as exact rationals, the
decoding of an encoding, rounding in every direction, and the encoding of a value with its flags. -/

namespace Sys2Proof.Machine

/-- The eleven element formats of R43. -/
inductive Fmt where
  | fp32 | bf16 | fp16 | fp64 | int8 | mxint8 | e4m3 | e5m2 | e2m3 | e3m2 | e2m1
  deriving DecidableEq, Repr

/-- The rounding values of R61. -/
inductive Rnd where
  | ne | tz | up | dn | stoch
  deriving DecidableEq, Repr

/-- A value a format can hold: a NaN (signalling or quiet), an infinity, or a finite value of a sign and a magnitude. -/
inductive FV where
  | nan (sig : Bool)
  | inf (neg : Bool)
  | fin (neg : Bool) (mag : Rat)
  deriving DecidableEq, Repr

/-- The four sticky flags of R74. -/
structure Fl where
  of : Bool := false
  uf : Bool := false
  nx : Bool := false
  nv : Bool := false
  deriving DecidableEq, Repr

def Fl.or (a b : Fl) : Fl := ⟨a.of || b.of, a.uf || b.uf, a.nx || b.nx, a.nv || b.nv⟩
def Fl.none : Fl := {}
def Fl.invalid : Fl := { nv := true }

/-- The flags as the 4-bit field of R76: bit 3 OF, bit 2 UF, bit 1 NX, bit 0 NV. -/
def Fl.nat (f : Fl) : Nat :=
  (if f.of then 8 else 0) + (if f.uf then 4 else 0) + (if f.nx then 2 else 0) + (if f.nv then 1 else 0)

/-- The format of a 4-bit format code under an accepted level (R43, R8). -/
def Fmt.ofCode (level code : Nat) : Option Fmt :=
  match code with
  | 0 => some .fp32 | 1 => some .bf16 | 2 => some .fp16 | 3 => some .fp64 | 4 => some .int8
  | 5 => some .mxint8 | 6 => some .e4m3 | 7 => some .e5m2
  | 8 => if level < 2 then none else some .e2m3
  | 9 => if level < 2 then none else some .e3m2
  | 10 => if level < 2 then none else some .e2m1
  | _ => none

def Fmt.code : Fmt → Nat
  | .fp32 => 0 | .bf16 => 1 | .fp16 => 2 | .fp64 => 3 | .int8 => 4 | .mxint8 => 5 | .e4m3 => 6 | .e5m2 => 7
  | .e2m3 => 8 | .e3m2 => 9 | .e2m1 => 10

/-- Element bits (R43). -/
def Fmt.bits : Fmt → Nat
  | .fp32 => 32 | .bf16 => 16 | .fp16 => 16 | .fp64 => 64 | .int8 => 8 | .mxint8 => 8 | .e4m3 => 8 | .e5m2 => 8
  | .e2m3 => 6 | .e3m2 => 6 | .e2m1 => 4

/-- Fraction width m, exponent width and bias of the floating-point formats (R44); zeros for the integer ones. -/
def Fmt.frac : Fmt → Nat
  | .fp64 => 52 | .fp32 => 23 | .bf16 => 7 | .fp16 => 10 | .e5m2 => 2 | .e4m3 => 3 | .e3m2 => 2 | .e2m3 => 3
  | .e2m1 => 1 | .int8 => 0 | .mxint8 => 0
def Fmt.expw : Fmt → Nat
  | .fp64 => 11 | .fp32 => 8 | .bf16 => 8 | .fp16 => 5 | .e5m2 => 5 | .e4m3 => 4 | .e3m2 => 3 | .e2m3 => 2
  | .e2m1 => 2 | .int8 => 0 | .mxint8 => 0
def Fmt.bias : Fmt → Int
  | .fp64 => 1023 | .fp32 => 127 | .bf16 => 127 | .fp16 => 15 | .e5m2 => 15 | .e4m3 => 7 | .e3m2 => 3 | .e2m3 => 1
  | .e2m1 => 1 | .int8 => 0 | .mxint8 => 0
/-- The formats whose all-ones exponent encodes infinity and NaN (R44). -/
def Fmt.hasInf : Fmt → Bool
  | .fp64 | .fp32 | .bf16 | .fp16 | .e5m2 => true
  | _ => false
/-- The formats with a block scale (R49), the integer ones among them. -/
def Fmt.isMx : Fmt → Bool
  | .mxint8 | .e4m3 | .e5m2 | .e2m3 | .e3m2 | .e2m1 => true
  | _ => false
/-- Strict mode accepts FP16, FP32, FP64 and BF16 (R59); complex operands the same four (R56). -/
def Fmt.isIeee : Fmt → Bool
  | .fp32 | .bf16 | .fp16 | .fp64 => true
  | _ => false
/-- FP32 and FP64 flush subnormals in fast mode (R58). -/
def Fmt.flushes : Fmt → Bool
  | .fp32 | .fp64 => true
  | _ => false

/-- 2^k for an integer k, exact. -/
def pow2 : Int → Rat
  | .ofNat n => mkRat (2 ^ n) 1
  | .negSucc n => mkRat 1 (2 ^ (n + 1))

/-- floor(log2 q) for q > 0. -/
def floorLog2 (q : Rat) : Int :=
  let k : Int := (Nat.log2 q.num.toNat : Int) - (Nat.log2 q.den : Int)
  if pow2 k ≤ q then k else k - 1

/-- The floor of a non-negative rational. -/
def floorNat (q : Rat) : Nat := q.num.toNat / q.den

/-- Signed value of a finite FV; 0 for the others. -/
def FV.rat : FV → Rat
  | .fin n q => if n then -q else q
  | _ => 0
def FV.isNan : FV → Bool | .nan _ => true | _ => false
def FV.isSNan : FV → Bool | .nan b => b | _ => false
def FV.isInf : FV → Bool | .inf _ => true | _ => false
def FV.isFin : FV → Bool | .fin _ _ => true | _ => false
def FV.neg : FV → Bool | .nan _ => false | .inf n => n | .fin n _ => n
def FV.isZero : FV → Bool | .fin _ q => q == 0 | _ => false
def FV.flip : FV → FV | .nan b => .nan b | .inf n => .inf (!n) | .fin n q => .fin (!n) q
def FV.abs : FV → FV | .nan b => .nan b | .inf _ => .inf false | .fin _ q => .fin false q
def FV.pzero : FV := .fin false 0
/-- The value of an exact rational that is not a signed zero. -/
def FV.ofRat (q : Rat) : FV := if q < 0 then .fin true (-q) else .fin false q

/-- The largest finite magnitude of a format (R44, R45). -/
def Fmt.maxFin : Fmt → Rat
  | .int8 => 127
  | .mxint8 => 127 / 64
  | .e4m3 => 448
  | f =>
    let top : Int := (2 ^ f.expw : Int) - (if f.hasInf then 2 else 1) - f.bias
    (2 - pow2 (-(f.frac : Int))) * pow2 top
/-- The exponent of the smallest normal (R44). -/
def Fmt.emin (f : Fmt) : Int := 1 - f.bias

/-- The value of an encoding under R44 and R45. -/
def Fmt.decode (f : Fmt) (w : Nat) : FV :=
  match f with
  | .int8 => let q := Sys2Proof.bits w 7 0; if q < 128 then .fin false q else .fin true ((256 - q : Nat) : Rat)
  | .mxint8 =>
    let q := Sys2Proof.bits w 7 0
    if q < 128 then .fin false ((q : Rat) / 64) else .fin true (((256 - q : Nat) : Rat) / 64)
  | f =>
    let m := f.frac
    let fr := w % 2 ^ m
    let e := (w / 2 ^ m) % 2 ^ f.expw
    let n := (w / 2 ^ (m + f.expw)) % 2 == 1
    if f.hasInf && e + 1 == 2 ^ f.expw then
      if fr == 0 then .inf n else .nan (f != .e5m2 && fr < 2 ^ (m - 1))
    else if f == .e4m3 && w % 128 == 127 then .nan false
    else if e == 0 then .fin n ((fr : Rat) * pow2 (f.emin - m))
    else .fin n (((2 ^ m + fr : Nat) : Rat) * pow2 ((e : Int) - f.bias - m))

/-- An operand as an operation reads it: in fast mode an FP32 or FP64 subnormal is a zero of its sign (R58). -/
def Fmt.read (f : Fmt) (strict : Bool) (w : Nat) : FV :=
  match f.decode w with
  | .fin n q => if !strict && f.flushes && q < pow2 f.emin then .fin n 0 else .fin n q
  | v => v

/-- The canonical NaN (R47). -/
def Fmt.qnan : Fmt → Nat
  | .fp64 => 0x7FF8000000000000 | .fp32 => 0x7FC00000 | .bf16 => 0x7FC0 | .fp16 => 0x7E00 | .e5m2 => 0x7E
  | .e4m3 => 0x7F | _ => 0
def Fmt.signBit (f : Fmt) (n : Bool) : Nat := if n then 2 ^ (f.bits - 1) else 0
/-- The encoding of an infinity (R44). -/
def Fmt.infCode (f : Fmt) (n : Bool) : Nat := f.signBit n + (2 ^ f.expw - 1) * 2 ^ f.frac
/-- The largest finite encoding: all ones below the infinity, S.1111.110 in E4M3, every one elsewhere (R44). -/
def Fmt.maxCode (f : Fmt) (n : Bool) : Nat :=
  f.signBit n + (if f.hasInf then (2 ^ f.expw - 1) * 2 ^ f.frac - 1
    else if f == .e4m3 then 126 else 2 ^ (f.expw + f.frac) - 1)

/-- Does a magnitude with fraction `fr` above the integer `fl` round up? R61 and, for stochastic rounding, R62 with
the 16-bit value r. -/
def roundsUp (rnd : Rnd) (neg : Bool) (fl : Nat) (fr : Rat) (r : Nat) : Bool :=
  match rnd with
  | .ne => fr > 1 / 2 || (fr == 1 / 2 && fl % 2 == 1)
  | .tz => false
  | .up => !neg && fr > 0
  | .dn => neg && fr > 0
  | .stoch => r < floorNat (fr * 65536)

/-- A non-negative rational rounded to an integer, and whether the rounding was inexact. -/
def roundNat (rnd : Rnd) (neg : Bool) (q : Rat) (r : Nat) : Nat × Bool :=
  let fl := floorNat q
  let fr := q - fl
  (if roundsUp rnd neg fl fr r then fl + 1 else fl, fr != 0)

/-- A magnitude rounded to `p` significant bits with the exponent of its lowest bit not below `elo`: the rounded
magnitude and whether it is inexact. -/
def roundMag (rnd : Rnd) (p : Nat) (elo : Int) (neg : Bool) (q : Rat) (r : Nat) : Rat × Bool :=
  if q == 0 then (0, false)
  else
    let u := max (floorLog2 q - ((p : Int) - 1)) elo
    let (n, ix) := roundNat rnd neg (q / pow2 u) r
    ((n : Rat) * pow2 u, ix)

/-- An exact magnitude rounded to nearest even at `p` bits with an unbounded exponent, then judged against the limits
[2^lo, hi] on the rounded value (R66; also R206 and R220). -/
def roundUnb (p : Nat) (lo : Int) (hi : Rat) (neg : Bool) (q : Rat) : FV × Bool :=
  if q == 0 then (.fin neg 0, false)
  else
    let u := floorLog2 q - ((p : Int) - 1)
    let (n, ix) := roundNat .ne neg (q / pow2 u) 0
    let v := (n : Rat) * pow2 u
    if v > hi then (.inf neg, true) else if v < pow2 lo then (.fin neg 0, true) else (.fin neg v, ix)

/-- roundw (R66): 24 bits, 2^(-511) to (2 - 2^(-23)) × 2^510. NaN and infinity pass. -/
def roundw : FV → FV × Bool
  | .fin n q => roundUnb 24 (-511) ((2 - pow2 (-23)) * pow2 510) n q
  | v => (v, false)
/-- roundk (R206): 32 bits, 2^(-511) to (2 - 2^(-31)) × 2^510. -/
def roundk : FV → FV × Bool
  | .fin n q => roundUnb 32 (-511) ((2 - pow2 (-31)) * pow2 510) n q
  | v => (v, false)
/-- roundsum (R220): 24 bits, 2^(-2047) to below 2^2048. -/
def roundsum : FV → FV × Bool
  | .fin n q => roundUnb 24 (-2047) ((2 - pow2 (-23)) * pow2 2047) n q
  | v => (v, false)

/-- The code of a magnitude that the format holds exactly (R44). -/
def Fmt.magCode (f : Fmt) (neg : Bool) (v : Rat) : Nat :=
  if v == 0 then f.signBit neg
  else
    let e := max (floorLog2 v) f.emin
    let k := floorNat (v / pow2 (e - f.frac))
    if k < 2 ^ f.frac then f.signBit neg + k
    else f.signBit neg + (e + f.bias).toNat * 2 ^ f.frac + (k - 2 ^ f.frac)

/-- How a conversion is made: rounding, strict mode, saturate bit, the stochastic value r of R274, and whether an overflow follows the
rounding direction as a strict accumulation step does (R60, R97). -/
structure Cvt where
  rnd : Rnd := .ne
  strict : Bool := false
  sat : Bool := false
  r : Nat := 0
  ieee : Bool := false
  deriving DecidableEq, Repr

/-- Overflow under R70: saturation to the largest finite value, or an infinity, in every mode. Only a step of a strict accumulation
keeps the largest finite value in a direction that rounds toward zero for the sign, as IEEE 754-2019 does (R60, R97; DEDUCED that
R70 holds at every other encoding, log entry 115). -/
def Fmt.overflow (f : Fmt) (c : Cvt) (neg : Bool) : Nat :=
  let keeps := c.ieee && (c.rnd == .tz || (c.rnd == .up && neg) || (c.rnd == .dn && !neg))
  if !f.hasInf || keeps || (c.sat && f != .fp64) then f.maxCode neg else f.infCode neg

/-- encode(t, out, rnd) (R69, R70, R58, R74). MXINT8 elements reach it from the block encoder only. -/
def Fmt.encode (f : Fmt) (c : Cvt) (t : FV) : Nat × Fl :=
  match f with
  | .int8 =>
    match t with
    | .nan _ => (0, Fl.invalid)
    | .inf n => (if n then 128 else 127, Fl.invalid)
    | .fin n q =>
      let (k, ix) := roundNat c.rnd n q c.r
      if n then
        if k > 128 then (128, Fl.invalid) else ((256 - k) % 256, { nx := ix })
      else if k > 127 then (127, Fl.invalid) else (k, { nx := ix })
  | .mxint8 =>
    match t with
    | .nan _ => (0, Fl.invalid)
    | .inf n => (if n then 128 else 127, { of := true, nx := true })
    | .fin n q =>
      let (k, ix) := roundNat c.rnd n (q * 64) c.r
      let tiny := q != 0 && q < 1 / 64 && ix
      if n then
        if k > 128 then (128, { of := true, nx := true }) else ((256 - k) % 256, { nx := ix, uf := tiny })
      else if k > 127 then (127, { of := true, nx := true }) else (k, { nx := ix, uf := tiny })
  | f =>
    match t with
    | .nan sig => (f.qnan, { nv := sig })
    | .inf n => (f.infCode n, {})
    | .fin n q =>
      let (v, ix) := roundMag c.rnd (f.frac + 1) (f.emin - f.frac) n q c.r
      if v > f.maxFin then (f.overflow c n, { of := true, nx := true })
      else if !c.strict && f.flushes && v < pow2 f.emin && q != 0 then (f.signBit n, { uf := true, nx := true })
      else (f.magCode n v, { nx := ix, uf := ix && q < pow2 f.emin })

/-- emax of a format in the MX block encoder (R71). -/
def Fmt.emax : Fmt → Int
  | .e4m3 => 8 | .e5m2 => 15 | .e3m2 => 4 | .e2m3 => 2 | .e2m1 => 2 | _ => 0

/-- The MX block encoder (R71): the scale byte, the element codes and the flags of one block. `rs` gives each
element's stochastic value. -/
def mxEncode (f : Fmt) (c : Cvt) (ts : List FV) (rs : List Nat) : Nat × List Nat × Fl :=
  if ts.any FV.isNan || (!f.hasInf && ts.any FV.isInf) then
    (255, ts.map (fun _ => 0), { nv := ts.any FV.isInf || ts.any FV.isSNan })
  else
    let m := ts.foldl (fun a t => match t with | .fin _ q => max a q | _ => a) (0 : Rat)
    let x0 : Int := if m == 0 then -127 else floorLog2 m - f.emax
    let x := min (max x0 (-127)) 127
    let enc := (ts.zip rs).map (fun p =>
      let t := match p.1 with | .fin n q => FV.fin n (q / pow2 x) | v => v
      f.encode { c with r := p.2 } t)
    ((x + 127).toNat, enc.map Prod.fst, enc.foldl (fun a e => a.or e.2) {})

/-- Sign of an exact zero sum (R64): −0 when every term is −0 or the rounding is toward −∞. -/
def zeroSign (rnd : Rnd) (allNegZero : Bool) : Bool := allNegZero || rnd == .dn

/-- Sum of values with the special cases of R63 and R64, exact: the value and whether the operation is invalid. -/
def sumFV (rnd : Rnd) (ts : List FV) : FV × Bool :=
  if ts.any FV.isNan then (.nan false, ts.any FV.isSNan)
  else
    let pos := ts.any (fun t => t.isInf && !t.neg)
    let ngs := ts.any (fun t => t.isInf && t.neg)
    if pos && ngs then (.nan false, true)
    else if pos then (.inf false, false)
    else if ngs then (.inf true, false)
    else
      let q := ts.foldl (fun a t => a + t.rat) 0
      if q == 0 then (.fin (zeroSign rnd (ts.all (fun t => t.isZero && t.neg))) 0, false)
      else (.ofRat q, false)

/-- Product with the special cases of R63, exact. -/
def mulFV (a b : FV) : FV × Bool :=
  match a, b with
  | .nan s, .nan t => (.nan false, s || t)
  | .nan s, _ => (.nan false, s)
  | _, .nan t => (.nan false, t)
  | .inf n, x => if x.isZero then (.nan false, true) else (.inf (n != x.neg), false)
  | x, .inf n => if x.isZero then (.nan false, true) else (.inf (n != x.neg), false)
  | .fin n p, .fin m q => (.fin (n != m) (p * q), false)

/-- Quotient with the special cases of R63: 0/0 and ∞/∞ are invalid; a finite non-zero value over zero is an infinity. -/
def divFV (a b : FV) : FV × Bool :=
  match a, b with
  | .nan s, .nan t => (.nan false, s || t)
  | .nan s, _ => (.nan false, s)
  | _, .nan t => (.nan false, t)
  | .inf _, .inf _ => (.nan false, true)
  | .inf n, x => (.inf (n != x.neg), false)
  | .fin n _, .inf m => (.fin (n != m) 0, false)
  | .fin n p, .fin m q =>
    if q == 0 then (if p == 0 then (.nan false, true) else (.inf (n != m), false)) else (.fin (n != m) (p / q), false)

/-- A multiply-add a × b + c, exact, with its invalid cases. An infinity times zero is invalid also beside a quiet-NaN addend, where
R63 can be read either way (DESIGN CHOICE, log entry 116). -/
def fmaFV (rnd : Rnd) (a b c : FV) : FV × Bool :=
  let (p, i1) := mulFV a b
  let (s, i2) := sumFV rnd [p, c]
  (s, i1 || i2 || c.isSNan)

/-- Round an exact value to a float format, the invalid mark of the exact operation joined to the flags. -/
def fuse (f : Fmt) (c : Cvt) (v : FV × Bool) : Nat × Fl :=
  let (w, fl) := f.encode c (match v.1 with | .nan _ => .nan false | x => x)
  (w, { fl with nv := fl.nv || v.2 })

/-- fused(x) of R161: one rounding to FP32, nearest-even, with R58's flush and R64's zero sign. -/
def fused (v : FV × Bool) : Nat × Fl := fuse .fp32 {} v

/-- Comparison of two values that are not NaN with −0 below +0 (R65's maximum order): a < b. -/
def ltTotal (a b : FV) : Bool :=
  match a, b with
  | .inf n, .inf m => n && !m
  | .inf n, _ => n
  | _, .inf m => !m
  | x, y => x.rat < y.rat || (x.rat == y.rat && x.neg && !y.neg)

/-- IEEE 754-2019 maximum and minimum (R65): NaN gives NaN, −0 is below +0. -/
def maxFV (a b : FV) : FV × Bool :=
  if a.isNan || b.isNan then (.nan false, a.isSNan || b.isSNan) else (if ltTotal a b then b else a, false)
def minFV (a b : FV) : FV × Bool :=
  if a.isNan || b.isNan then (.nan false, a.isSNan || b.isSNan) else (if ltTotal b a then b else a, false)

/-- Numerical order of R65, −0 equal to +0, for values that are not NaN. -/
def ltNum (a b : FV) : Bool :=
  match a, b with
  | .inf n, .inf m => n && !m
  | .inf n, _ => n
  | _, .inf m => !m
  | x, y => x.rat < y.rat
def eqNum (a b : FV) : Bool :=
  match a, b with
  | .inf n, .inf m => n == m
  | .inf _, _ => false
  | _, .inf _ => false
  | x, y => x.rat == y.rat

/-- Compare conditions 0 EQ, 1 NE, 2 LT, 3 LE, 4 GT, 5 GE, 6 UN (R447) under R65: the truth value and NV. -/
def cmpFV (cond : Nat) (a b : FV) : Bool × Bool :=
  let un := a.isNan || b.isNan
  let sn := a.isSNan || b.isSNan
  match cond with
  | 0 => (!un && eqNum a b, sn)
  | 1 => (un || !eqNum a b, sn)
  | 2 => (!un && ltNum a b, un)
  | 3 => (!un && (ltNum a b || eqNum a b), un)
  | 4 => (!un && ltNum b a, un)
  | 5 => (!un && (ltNum b a || eqNum a b), un)
  | _ => (un, sn)

end Sys2Proof.Machine
end

