-- ==== Sys2Proof/Machine/FnRef.lean ====
section
/-! DEFINITION. The exact functions of 07_special_functions.md R207 as rationals that differ from them by less than 2^(−100) in relative
terms, and the bounds of R209 and R218 on a result. The bytes of the function ROM are open (Config.romByte): a value that breaks its
bound is one that no device returns, and the function's own value stands in its place (DEDUCED, log entry 129). -/

namespace Sys2Proof.Machine

/-- A rational cut to 480 significant bits, toward zero. -/
def cutRat (q : Rat) : Rat :=
  if q = 0 then 0
  else
    let a := if q < 0 then -q else q
    let u := floorLog2 a - 480
    let v := ((floorNat (a / pow2 u) : Nat) : Rat) * pow2 u
    if q < 0 then -v else v
/-- A sum whose next term is `step n t` after the term t. -/
def series (step : Nat → Rat → Rat) : (fuel n : Nat) → (t acc : Rat) → Rat
  | 0, _, _, acc => acc
  | fuel + 1, n, t, acc => let t' := cutRat (step n t); series step fuel (n + 1) t' (acc + t')
/-- The sum of s^n × t^(2n + 1) / (2n + 1), the power in hand being p. -/
def oddSeries (s t2 : Rat) : (fuel n : Nat) → (p acc : Rat) → Rat
  | 0, _, _, acc => acc
  | fuel + 1, n, p, acc => oddSeries s t2 fuel (n + 1) (cutRat (s * p * t2)) (acc + cutRat (p / ((2 * n + 1 : Nat) : Rat)))
/-- 2 artanh t for |t| up to 1/3. -/
def artanh2 (t : Rat) : Rat := 2 * oddSeries 1 (t * t) 160 0 t 0
def arctan (t : Rat) : Rat := oddSeries (-1) (t * t) 160 0 t 0
def ln2Rat : Rat := artanh2 (1 / 3)
def piRat : Rat := 16 * arctan (1 / 5) - 4 * arctan (1 / 239)
/-- √q for q above 0. -/
def sqrtRat (q : Rat) : Rat :=
  let k := 240 - floorLog2 q / 2
  ((Nat.sqrt (floorNat (q * pow2 (2 * k))) : Nat) : Rat) * pow2 (-k)
def expRat (x : Rat) : Rat :=
  let k := (x / ln2Rat + 1 / 2).floor
  let r := cutRat (x - k * ln2Rat)
  series (fun n t => t * r / ((n : Nat) : Rat)) 90 1 1 1 * pow2 k
def exp2Rat (x : Rat) : Rat := pow2 x.floor * expRat ((x - x.floor) * ln2Rat)
/-- ln x for x above 0. -/
def lnRat (x : Rat) : Rat :=
  let e := floorLog2 x
  let m := x / pow2 e
  let (m, e) := if m > 3 / 2 then (m / 2, e + 1) else (m, e)
  artanh2 (cutRat ((m - 1) / (m + 1))) + e * ln2Rat
/-- erf z = 2/√π × Σ (−1)^n z^(2n + 1) / (n! (2n + 1)), each term from the last. -/
def erfRat (z : Rat) : Rat :=
  let z2 := cutRat (z * z)
  let step := fun (n : Nat) (t : Rat) => -(t * z2 * ((2 * n - 1 : Nat) : Rat)) / ((n * (2 * n + 1) : Nat) : Rat)
  2 / sqrtRat piRat * series step 520 1 z z
/-- f(x) of R207 for a finite argument inside the domain that is no exact point. -/
def fnRef (fn : Nat) (x : Rat) : Rat :=
  match fn with
  | 0 => 1 / (1 + expRat (-x))
  | 1 => let e := expRat (2 * x); (e - 1) / (e + 1)
  | 2 => exp2Rat x
  | 3 => expRat x
  | 4 => lnRat x / ln2Rat
  | 5 => 1 / x
  | 6 => 1 / sqrtRat x
  | 7 => sqrtRat x
  | 8 => lnRat x
  | 9 => expRat x
  | 10 => x / (1 + expRat (-x))
  | 11 => x * (1 + erfRat (x / sqrtRat 2)) / 2
  | 12 => let e := expRat x; artanh2 (e / (e + 2)) |> fun small => if e < 1 then small else lnRat (1 + e)
  | _ => erfRat x

def absRat (q : Rat) : Rat := if q < 0 then -q else q
/-- The unit in the last place of a format at a magnitude above 0. -/
def Fmt.ulp (f : Fmt) (q : Rat) : Rat := pow2 (max (floorLog2 q) f.emin - f.frac)
/-- Does the conversion of v to a format differ from f(x) by less than k units in the last place (R209, R218)? For FP32 the bound
applies before the flush. -/
def Fmt.within (f : Fmt) (k : Nat) (c : Cvt) (ref : Rat) (v : FV) : Bool :=
  match f.decode (f.encode { c with strict := true } v).1 with
  | .fin n q => decide (absRat ((if n then -q else q) - ref) < k * f.ulp (absRat ref))
  | .inf n => decide (f.maxFin ≤ absRat ref) && n == decide (ref < 0)
  | .nan _ => false
/-- The value, or f(x) where the value breaks the bound. -/
def Fmt.bounded (f : Fmt) (k : Nat) (c : Cvt) (ref : Rat) (v : FV) : FV := if f.within k c ref v then v else FV.ofRat ref
/-- The same for the wide format of R66, whose fraction has 23 bits. -/
def boundedWide (ref : Rat) (v : FV) : FV :=
  if absRat (v.rat - ref) < pow2 (floorLog2 ref - 23) && v.isFin then v else (roundw (FV.ofRat ref)).1

end Sys2Proof.Machine
end

