-- ==== Sys2Proof/Machine/Sparse.lean ====
section
/-! DEFINITION. Indexed state as sparse canonical lists: pairs of a key and a value, keys strictly rising, no entry
equal to what an unlisted key reads as. Every register file and every memory of the machine is one of these. -/

namespace Sys2Proof.Machine

/-- A map from keys to values of which only the entries that differ from the default are listed. -/
abbrev Sp (α : Type) := List (Nat × α)

/-- The value at a key; an unlisted key reads as the default `d`. -/
def Sp.get {α : Type} (d : Nat → α) : Sp α → Nat → α
  | [], k => d k
  | (a, v) :: m, k => if a = k then v else Sp.get d m k

/-- The map with no entry at a key. -/
def Sp.del {α : Type} (m : Sp α) (k : Nat) : Sp α := m.filter (fun p => p.1 != k)

/-- The map with an entry at a key, in its place. -/
def Sp.put {α : Type} : Sp α → Nat → α → Sp α
  | [], k, w => [(k, w)]
  | (a, v) :: m, k, w =>
    if a = k then (a, w) :: m else if k < a then (k, w) :: (a, v) :: m else (a, v) :: Sp.put m k w

/-- The map with a value written at a key: the default value is written by removing the entry. -/
def Sp.set {α : Type} [DecidableEq α] (d : Nat → α) (m : Sp α) (k : Nat) (w : α) : Sp α :=
  if w = d k then Sp.del m k else Sp.put m k w

/-- Values written at consecutive keys. -/
def Sp.setMany {α : Type} [DecidableEq α] (d : Nat → α) : Sp α → Nat → List α → Sp α
  | m, _, [] => m
  | m, k, v :: vs => Sp.setMany d (Sp.set d m k v) (k + 1) vs

/-- The map with every key from `lo` to `lo + n - 1` back at its default. -/
def Sp.erase {α : Type} (m : Sp α) (lo n : Nat) : Sp α := m.filter (fun p => decide (p.1 < lo) || decide (lo + n ≤ p.1))

/-- The canonical form: keys strictly rising from a lower bound, no entry equal to the default. -/
def Sp.wfFrom {α : Type} [DecidableEq α] (d : Nat → α) : Nat → Sp α → Bool
  | _, [] => true
  | lo, (a, v) :: m => decide (lo ≤ a) && decide (v ≠ d a) && Sp.wfFrom d (a + 1) m

/-- The canonical form of a map. -/
def Sp.wf {α : Type} [DecidableEq α] (d : Nat → α) (m : Sp α) : Bool := Sp.wfFrom d 0 m

/-- A byte memory: an unlisted byte reads as zero (R360, R633 for the on-die memories). -/
abbrev Memory := Sp (BitVec 8)

/-- What a byte that is not listed reads as. -/
def Memory.zero : Nat → BitVec 8 := fun _ => 0

/-- The canonical form of a memory. -/
def Memory.wf (m : Memory) : Bool := Sp.wf Memory.zero m

def Memory.byte (m : Memory) (a : Nat) : BitVec 8 := Sp.get Memory.zero m a
def Memory.setByte (m : Memory) (a : Nat) (b : BitVec 8) : Memory := Sp.set Memory.zero m a b

/-- `n` bytes from address `a`, the lowest address first. -/
def Memory.bytes (m : Memory) (a : Nat) : Nat → List (BitVec 8)
  | 0 => []
  | n + 1 => m.byte a :: Memory.bytes m (a + 1) n

/-- Bytes written at consecutive addresses. -/
def Memory.write (m : Memory) (a : Nat) (bs : List (BitVec 8)) : Memory := Sp.setMany Memory.zero m a bs

/-- The little-endian value of bytes (R17). -/
def ofBytes : List (BitVec 8) → Nat
  | [] => 0
  | b :: bs => b.toNat + 256 * ofBytes bs

/-- The `n` little-endian bytes of a value (R17). -/
def toBytes : Nat → Nat → List (BitVec 8)
  | 0, _ => []
  | n + 1, v => BitVec.ofNat 8 v :: toBytes n (v / 256)

/-- An `n`-byte little-endian value at an address. -/
def Memory.load (m : Memory) (a n : Nat) : Nat := ofBytes (m.bytes a n)
/-- An `n`-byte little-endian value stored at an address. -/
def Memory.store (m : Memory) (a n v : Nat) : Memory := m.write a (toBytes n v)

end Sys2Proof.Machine
end

