-- ==== Sys2Proof/Machine/Sfu.lean ====
section
/-! DEFINITION. Function evaluation in the special-function unit (07_special_functions.md R206 to R218, R641): function programs,
the built-in functions with their domains, special results and exact points, and EXPW. The bytes of the function ROM image are
Config.romByte, within the bounds of Machine/FnRef.lean. -/

namespace Sys2Proof.Machine

/-- A byte source: the function ROM image, or a folio's function store. -/
abbrev Bytes := Nat → BitVec 8
/-- An n-byte little-endian value of a byte source. -/
def rdn (b : Bytes) (off : Nat) : (n : Nat) → Nat
  | 0 => 0
  | n + 1 => (b off).toNat + 256 * rdn b (off + 1) n
def rd32 (b : Bytes) (off : Nat) : FV := Fmt.fp32.decode (rdn b off 4)

/-- The size of the function ROM image of a level (R641). -/
def romImage (level : Nat) : Nat := if level = 2 then 0x1B6B8 else 16 + Config.romSize
/-- LO and HI of a built-in function's descriptor as FP32 codes (R207, R641). On an open side the bound is the smallest or the largest
finite FP32 value of the domain; the smallest above zero is read as the smallest subnormal (DEDUCED, log entry 130). -/
def romBounds (fn : Nat) : Nat × Nat :=
  match fn with
  | 0 => (0xC2BC0000, 0x41900000)
  | 1 => (0xC1200000, 0x41200000)
  | 2 => (0xC3060000, 0x43000000)
  | 3 => (0xC2BC0000, 0x42B20000)
  | 4 => (1, 0x7F7FFFFF)
  | 5 => (0xFF7FFFFF, 0x7F7FFFFF)
  | 6 => (1, 0x7F7FFFFF)
  | 7 => (0, 0x7F7FFFFF)
  | 8 => (1, 0x7F7FFFFF)
  | 9 => (0xC3B10000, 0x43B10000)
  | 10 => (0xC2C80000, 0x41900000)
  | 11 => (0xC1600000, 0x40C00000)
  | 12 => (0xC2BC0000, 0x41800000)
  | _ => (0xC0800000, 0x40800000)
/-- Origin and width of ROM tables 0 to 4 as FP32 codes (R211). -/
def romTable (k : Nat) : Nat × Nat :=
  match k with
  | 0 => (0, 0x3F800000)
  | 1 => (0x3F400000, 0x3F400000)
  | 2 => (0x3F800000, 0x3F800000)
  | _ => (0x3F800000, 0x40400000)
/-- Byte o of the function ROM image of a level: the header of both levels, and of level 2 the descriptors' FLAGS, bounds and saturation
values and the headers of tables 0 to 4, as R211 and R641 fix them; every other byte is open. -/
def romByteAt (level o : Nat) : Byte :=
  let le := fun (v k : Nat) => (toBytes 4 v).getD k 0
  let d := (o - 0x10) % 32
  let t := (o - 0x1D0) % 8
  if o < 16 then
    (toBytes 4 (if level = 2 then 0x2B61 else 0x1A04) ++ toBytes 4 (romImage level) ++ toBytes 8 0).getD o 0
  else if level = 2 ∧ o < 0x1D0 ∧ 6 ≤ d ∧ d < 24 then
    (let b := romBounds ((o - 0x10) / 32)
     if d = 6 then 0 else if d = 7 then 0x80 else if d < 12 then le b.1 (d - 8) else if d < 16 then le b.2 (d - 12) else 0)
  else if level = 2 ∧ 0x1D0 ≤ o ∧ o < 0x1F8 then
    (let b := romTable ((o - 0x1D0) / 8)
     if t < 4 then le b.1 t else le b.2 (t - 4))
  else Config.romByte level o
/-- The level-2 function ROM image (R641). -/
def rom2 : Bytes := romByteAt 2

/-- A product with a power of two. Exponents beyond ±4096 give what ±4096 gives after roundk. -/
def FV.shift (v : FV) (k : Int) : FV :=
  match v with
  | .fin n q => .fin n (q * pow2 (max (-4096) (min 4096 k)))
  | x => x

/-- The nearest integer to √q, and whether √q is not that integer (a √q halfway between two integers does not arise here). -/
def sqrtNear (q : Rat) : Nat × Bool :=
  let a := floorNat q
  let r := Nat.sqrt a
  let up := decide (((r : Rat) + 1 / 2) * ((r : Rat) + 1 / 2) < q)
  (if up then r + 1 else r, decide (((r : Rat) * (r : Rat)) ≠ q))
/-- roundk (v × 2^(−k/2)), the irrational factor of an odd k exact inside the one rounding (R214). -/
def mulHalf (v : FV) (k : Int) : FV × Bool :=
  if k % 2 = 0 then roundk (v.shift (-(k / 2)))
  else match v with
    | .fin n q =>
      if q = 0 then (v, false)
      else
        let k' := max (-4096) (min 4096 k)
        let sq := q * q * pow2 (-k')
        let e := floorLog2 sq / 2 - 31
        let (m, ix) := sqrtNear (sq / pow2 (2 * e))
        roundk (.fin n ((m : Rat) * pow2 e)) |> fun r => (r.1, ix || r.2)
    | x => (x, false)

/-- A function descriptor (R213). -/
structure FnDesc where
  steps : List Nat
  lo : FV
  hi : FV
  satLo : FV
  satHi : FV
  const : FV
  deriving DecidableEq, Repr

/-- The descriptor at an offset of a byte source. -/
def descAt (b : Bytes) (off : Nat) : FnDesc :=
  { steps := (List.range 6).map (fun i => (b (off + i)).toNat), lo := rd32 b (off + 8), hi := rd32 b (off + 12),
    satLo := rd32 b (off + 16), satHi := rd32 b (off + 20), const := (sumFV .ne [rd32 b (off + 24), rd32 b (off + 28)]).1 }

/-- A table as a step reads it (R213, R214): origin, width, entries. -/
structure FnTable where
  a : Rat
  w : Rat
  src : Bytes
  base : Nat
  size : Nat

/-- Table `k` of R211: a ROM table, or the user table for 31 (R212). -/
def tableOf (store : Bytes) (k : Nat) : FnTable :=
  if k = 31 then
    let wx := (store 0x1E4).toNat
    let kind := (store 0x1E5).toNat
    { a := (rd32 store 0x1E0).rat, w := pow2 (if wx < 128 then (wx : Int) else (wx : Int) - 256), src := store, base := 0x200,
      size := if kind = 2 then 14 else 10 }
  else { a := (rd32 rom2 (0x1D0 + 8 * k)).rat, w := (rd32 rom2 (0x1D4 + 8 * k)).rat, src := rom2, base := 0x4B8 + 3584 * k, size := 14 }
/-- The coefficients of entry i: c0, c1, c2. -/
def FnTable.coef (t : FnTable) (i : Nat) : FV × FV × FV :=
  let o := t.base + t.size * i
  ((sumFV .ne [rd32 t.src o, Fmt.bf16.decode (rdn t.src (o + 4) 2)]).1, rd32 t.src (o + 6),
    if t.size = 14 then rd32 t.src (o + 10) else .fin false 0)
/-- A coefficient set (R214). -/
def polyOf (store : Bytes) (k : Nat) : List FV :=
  (List.range 4).map (fun i => if k = 31 then rd32 store (0x1E8 + 4 * i) else rd32 rom2 (0x2C8 + 16 * k + 4 * i))

/-- Exact sums and products over values, keeping the invalid mark. -/
def addV (a b : FV × Bool) : FV × Bool := let r := sumFV .ne [a.1, b.1]; (r.1, r.2 || a.2 || b.2)
def mulV (a b : FV × Bool) : FV × Bool := let r := mulFV a.1 b.1; (r.1, r.2 || a.2 || b.2)

/-- What a program carries from step to step (R214): v, k, s, m, whether a rounding was inexact, whether an operation was
invalid, and whether the program has ended with the canonical NaN. -/
structure FnSt where
  v : FV
  k : Int
  neg : Bool
  m : Rat
  ix : Bool
  nv : Bool
  dead : Bool

/-- A new v by one roundk. -/
def FnSt.put (st : FnSt) (r : FV × Bool) : FnSt :=
  let (v, ix) := roundk r.1
  { st with v := v, ix := st.ix || ix, nv := st.nv || r.2 }
/-- The program ends with the canonical NaN and NV. -/
def FnSt.fail (st : FnSt) : FnSt := { st with v := .nan false, nv := true, dead := true }

/-- A range reduction (R214). -/
def fnReduce (c : FV) (arg : Nat) (st : FnSt) : FnSt :=
  match arg with
  | 0 =>
    match (mulFV st.v c).1 with
    | .fin n q =>
      let t : Rat := if n then -q else q
      { st with k := t.floor }.put (FV.ofRat (t - (t.floor : Rat)), false)
    | _ => st.fail
  | 4 => { st with neg := st.v.neg, v := st.v.abs }
  | arg =>
    match st.v with
    | .fin false q =>
      if q = 0 then st.fail
      else
        let e := floorLog2 q
        let m := q / pow2 e
        if arg = 2 ∧ m ≥ 3 / 2 then { st with k := e + 1, m := m / 2, v := .fin false (m / 2) }
        else if arg = 3 ∧ e % 2 ≠ 0 then { st with k := e - 1, m := m * 2, v := .fin false (m * 2) }
        else { st with k := e, m := m, v := .fin false m }
    | _ => st.fail
/-- A table step (R214). -/
def fnTable (t : FnTable) (st : FnSt) : FnSt :=
  let i : Nat := match st.v with
    | .fin _ _ => (max 0 (min 255 ((st.v.rat - t.a) * 256 / t.w).floor)).toNat
    | .inf n => if n then 0 else 255
    | .nan _ => 0
  let mid : Rat := t.a + ((i : Rat) + 1 / 2) * t.w / 256
  let d := addV (st.v, false) (FV.ofRat (-mid), false)
  let c := t.coef i
  st.put (addV (addV (c.1, false) (mulV (c.2.1, false) d)) (mulV (c.2.2, false) (mulV d d)))
/-- A polynomial step (R214). -/
def fnPoly (p : List FV) (st : FnSt) : FnSt :=
  let v := (st.v, false)
  let co := fun i => ((p.getD i (.fin false 0), false) : FV × Bool)
  st.put (addV (addV (addV (co 0) (mulV (co 1) v)) (mulV (co 2) (mulV v v))) (mulV (co 3) (mulV v (mulV v v))))
/-- A combine step (R214). -/
def fnCombine (c x : FV) (arg : Nat) (st : FnSt) : FnSt :=
  let v := (st.v, false)
  let one := ((.fin false 1, false) : FV × Bool)
  match arg with
  | 0 => st.put (st.v.shift st.k, false)
  | 1 => st.put (st.v.shift (-st.k), false)
  | 2 => let r := mulHalf st.v st.k; { st with v := r.1, ix := st.ix || r.2 }
  | 3 => st.put (addV v (FV.ofRat (st.k : Rat), false))
  | 4 => st.put (mulV v (c, false))
  | 5 => st.put (mulV v (FV.ofRat (st.m - 1), false))
  | 6 => st.put (mulV v (x, false))
  | 7 => st.put (addV v one)
  | 8 => st.put (addV one (st.v.flip, false))
  | 9 => st.put (if st.neg then st.v.flip else st.v, false)
  | 10 => st.put (addV v (c, false))
  | _ => st.put (addV (st.v.shift st.k, false) one)
/-- The steps of a program, until a none step. -/
def fnSteps (store : Bytes) (c x : FV) : List Nat → FnSt → FnSt
  | [], st => st
  | b :: bs, st =>
    let arg := bits b 4 0
    match bits b 7 5 with
    | 0 => st
    | k =>
      let st' := if st.dead then st
        else match k with
          | 1 => fnReduce c arg st
          | 2 => fnTable (tableOf store arg) st
          | 3 => fnPoly (polyOf store arg) st
          | _ => fnCombine c x arg st
      fnSteps store c x bs st'
/-- A program's value before the final rounding. -/
def fnRun (store : Bytes) (d : FnDesc) (x : FV) : FnSt :=
  fnSteps store d.const x d.steps ⟨x, 0, false, 1, false, false, false⟩

/-- Is a value tiny (R74)? -/
def Fmt.tiny (f : Fmt) (v : FV) : Bool := match v with | .fin _ q => q != 0 && decide (q < pow2 f.emin) | _ => false

/-! ## User functions (R214) -/

/-- sfu_eval of a user function: the code and the flags. +0 given for a finite argument below LO raises UF (R210; DEDUCED, log
entry 107). -/
def userEval (store : Bytes) (slot : Nat) (x : FV) (out : Fmt) (c : Cvt) : Nat × Fl :=
  let d := descAt store (32 * slot)
  if x.isNan then (out.qnan, { nv := x.isSNan })
  else if ltNum x d.lo then
    (let (w, f) := out.encode c d.satLo; (w, { f with uf := f.uf || (x.isFin && d.satLo.isZero && !d.satLo.neg) }))
  else if ltNum d.hi x then out.encode c d.satHi
  else
    let st := fnRun store d x
    let (w, f) := out.encode c (match st.v with | .nan _ => .nan false | v => v)
    (w, { f with nx := f.nx || st.ix, uf := f.uf || (st.ix && out.tiny st.v), nv := f.nv || st.nv })

/-! ## Built-in functions (R207 to R210) -/

/-- The domain of a built-in function, by image (R207, R218): none where it is open on that side or by R208. -/
def domLo (img fn : Nat) : Option Rat :=
  match fn with
  | 0 => some (if img = 1 then -16 else -94)
  | 1 => some (if img = 1 then -8 else -10)
  | 2 => some (if img = 1 then -126 else -134)
  | 3 => some (if img = 1 then -88 else -94)
  | 9 => some (-354)
  | 10 => some (-100)
  | 11 => some (-14)
  | 12 => some (-94)
  | 13 => some (-4)
  | _ => none
def domHi (img fn : Nat) : Option Rat :=
  match fn with
  | 0 => some (if img = 1 then 16 else 18)
  | 1 => some (if img = 1 then 8 else 10)
  | 2 => some 128
  | 3 => some 89
  | 9 => some 354
  | 10 => some 18
  | 11 => some 6
  | 12 => some 16
  | 13 => some 4
  | _ => none

/-- Is a rational a power of two, and of which exponent? -/
def log2Exact (q : Rat) : Option Int :=
  if q > 0 then (let e := floorLog2 q; if q = pow2 e then some e else none) else none

/-- The exact points of R207: the exact value at a finite argument, where the table gives one. -/
def exactPoint (fn : Nat) (x : FV) : Option FV :=
  match x with
  | .fin n q =>
    match fn with
    | 0 => if q = 0 then some (.fin false (1 / 2)) else none
    | 1 => if q = 0 then some x else none
    | 2 =>
      let t : Rat := if n then -q else q
      if t = (t.floor : Rat) ∧ -133 ≤ t ∧ t ≤ 127 then some (.fin false (pow2 t.floor)) else none
    | 3 => if q = 0 then some (.fin false 1) else none
    | 4 => if n then none else (log2Exact q).map (fun e => FV.ofRat (e : Rat))
    | 5 => (log2Exact q).map (fun e => .fin n (pow2 (-e)))
    | 6 => if n then none else (match log2Exact q with | some e => if e % 2 = 0 then some (.fin false (pow2 (-(e / 2)))) else none | none => none)
    | 7 =>
      if q = 0 then some x
      else if n then none
      else (match log2Exact q with | some e => if e % 2 = 0 then some (.fin false (pow2 (e / 2))) else none | none => none)
    | 8 => if n = false ∧ q = 1 then some (.fin false 0) else none
    | 9 => if q = 0 then some (.fin false 1) else none
    | 10 => if q = 0 then some x else none
    | 11 => if q = 0 then some x else none
    | 13 => if q = 0 then some x else none
    | _ => none
  | _ => none

/-- The results of R208 for infinite arguments, zeros and arguments below −0; the invalid mark gives NV. -/
def special (fn : Nat) (x : FV) : Option (FV × Bool) :=
  match x with
  | .nan sig => some (.nan false, sig)
  | .inf n =>
    match fn with
    | 0 => some (.fin false (if n then 0 else 1), false)
    | 1 => some (.fin n 1, false)
    | 2 => some (if n then .fin false 0 else .inf false, false)
    | 3 => some (if n then .fin false 0 else .inf false, false)
    | 5 => some (.fin n 0, false)
    | 6 => some (if n then (.nan false, true) else (.fin false 0, false))
    | 9 => some (if n then .fin false 0 else .inf false, false)
    | 10 => some (if n then .fin true 0 else .inf false, false)
    | 11 => some (if n then .fin true 0 else .inf false, false)
    | 12 => some (if n then .fin false 0 else .inf false, false)
    | 13 => some (.fin n 1, false)
    | _ => some (if n then (.nan false, true) else (.inf false, false))
  | .fin n q =>
    match fn with
    | 5 => if q = 0 then some (.inf n, false) else none
    | 4 | 8 => if q = 0 then some (.inf true, false) else if n then some (.nan false, true) else none
    | 6 => if q = 0 then some (.inf n, false) else if n then some (.nan false, true) else none
    | 7 => if q ≠ 0 ∧ n then some (.nan false, true) else none
    | _ => none

/-- The saturation value of R207 beyond the domain: `none` is overflow under R70. -/
def satBelow (fn : Nat) : FV := match fn with | 1 => .fin true 1 | 13 => .fin true 1 | 10 => .fin true 0 | 11 => .fin true 0 | _ => .fin false 0
def satAbove (fn : Nat) (x : FV) : Option FV :=
  match fn with
  | 0 => some (.fin false 1) | 1 => some (.fin false 1) | 13 => some (.fin false 1)
  | 10 => some x | 11 => some x | 12 => some x
  | _ => none

/-- The level-1 function ROM image as ROM_READ returns it. -/
def rom1Bytes : List (BitVec 8) := (List.range (romImage 1)).map (romByteAt 1)
/-- What the image of a level gives for an argument inside the domain: the program of R211 and R641, or the level-1 segments. -/
def imageValue (img fn : Nat) (x : FV) : FV :=
  if img = 1 then Fmt.fp32.decode (Config.sfuLevel1 rom1Bytes fn (BitVec.ofNat 32 (Fmt.fp32.encode { strict := true } x).1)).toNat
  else (fnRun rom2 (descAt rom2 (0x10 + 32 * fn)) x).v
/-- The functions that return f(−x) = −f(x) bit for bit (R209). SILU and GELU stand there too, whose f is not odd; the model follows
R207 for them (DEDUCED, log entry 129). -/
def fnOdd (fn : Nat) : Bool := fn == 1 || fn == 5 || fn == 13
/-- The value of a built-in function inside its domain before the final rounding, within the bound of R209, or of R218 for the level-1
image. -/
def builtinValue (img fn : Nat) (x : FV) (out : Fmt) (c : Cvt) : FV :=
  let y := if fnOdd fn then x.abs else x
  let v := imageValue img fn y
  let b := if img = 1 then Fmt.fp32.bounded 4 {} (fnRef fn y.rat) v else out.bounded 1 c (fnRef fn y.rat) v
  if fnOdd fn && x.neg then b.flip else b

/-- A built-in function other than EXPW: the code and the flags (R207 to R210, R218). -/
def builtinEval (img fn : Nat) (x : FV) (out : Fmt) (c : Cvt) : Nat × Fl :=
  let inside := fun (_ : Unit) =>
    let v := builtinValue img fn x out c
    let (w, f) := out.encode c v
    (w, { f with nx := f.nx || !(out.decode w).isInf, uf := f.uf || out.tiny v })
  match special fn x with
  | some (v, bad) => let (w, _) := out.encode c v; (w, { nv := bad })
  | none =>
    if (match domLo img fn with | some b => decide (x.rat < b) | none => false) then
      (let (w, f) := out.encode c (satBelow fn); (w, { f with nx := true, uf := f.uf || (satBelow fn).isZero }))
    else if (match domHi img fn with | some b => decide (b < x.rat) | none => false) then
      (match satAbove fn x with
       | some v => let (w, f) := out.encode c v; (w, { f with nx := true })
       | none => (out.overflow c false, { of := true, nx := true }))
    else match exactPoint fn x with
      | some v => let (w, f) := out.encode c v
                  if fn = 2 ∧ f.nat ≠ 0 then inside () else (w, f)
      | none => inside ()

/-- EXPW (R207 to R210, R219, R222): a value of the wide format and the flags. -/
def expw (x : FV) : FV × Fl :=
  match special 9 x with
  | some (v, bad) => (v, { nv := bad })
  | none =>
    if x.isZero then (.fin false 1, {})
    else
      let at' := fun (t : FV) => boundedWide (fnRef 9 t.rat) (roundw (imageValue 2 9 t)).1
      if x.rat < -354 then (at' (.fin true 354), { uf := true, nx := true })
      else if x.rat > 354 then (at' (.fin false 354), { of := true, nx := true })
      else (at' x, { nx := true })

/-- Is a function of level 2 (R207)? -/
def fnLevel2 (fn : Nat) : Bool := decide (8 ≤ fn)
/-- Does a user function read the user table? -/
def readsUserTable (store : Bytes) (slot : Nat) : Bool :=
  ((descAt store (32 * slot)).steps.takeWhile (fun b => b ≠ 0)).any (fun b => b == 0x5F)
/-- Does a user function read the user-table header and region: table 31 or coefficient set 31 (R215)? -/
def readsUserArea (store : Bytes) (slot : Nat) : Bool :=
  ((descAt store (32 * slot)).steps.takeWhile (fun b => b ≠ 0)).any (fun b => b == 0x5F || b == 0x7F)
/-- Does a function read a range of `len` 32-byte units of the function store from unit `off` (R215)? -/
def fnReads (store : Bytes) (fn off len : Nat) : Bool :=
  decide (0x040 ≤ fn) && decide (fn ≤ 0x04E)
    && ((decide (off ≤ fn - 0x040) && decide (fn - 0x040 < off + len)) || (decide (15 < off + len) && readsUserArea store (fn - 0x040)))
/-- The SFN_FN test of a function index (R234) at an accepted level. -/
def fnBad (level : Nat) (compat : Bool) (store : Bytes) (fn : Nat) : Bool :=
  if fn ≤ 0x00D then fnLevel2 fn && (decide (level < 2) || compat)
  else if 0x040 ≤ fn ∧ fn ≤ 0x04E then
    decide (level < 2) || compat || !bit (rdn store (32 * (fn - 0x040) + 6) 2) 15
      || (readsUserTable store (fn - 0x040) && (store 0x1E5) == 0)
  else true
/-- A function evaluated for SFN or the gate pipeline (R204, R217). -/
def fnEval (level : Nat) (compat : Bool) (store : Bytes) (fn : Nat) (x : FV) (out : Fmt) (c : Cvt) : Nat × Fl :=
  if fn ≤ 0x00D then builtinEval (if level < 2 ∨ compat then 1 else 2) fn x out c
  else userEval store (fn - 0x040) x out c

/-! ## The checks of FNLOAD (R215) -/

/-- A step byte with a reserved KIND or ARG for a user program. -/
def stepBad (b : Nat) : Bool :=
  let arg := bits b 4 0
  match bits b 7 5 with
  | 0 => arg != 0
  | 1 => decide (4 < arg)
  | 2 => decide (4 < arg) && arg != 31
  | 3 => false
  | 4 => decide (11 < arg)
  | _ => true
/-- A step byte other than 0x00 after a none step. -/
def stepsAfterNone : List Nat → Bool
  | [] => false
  | b :: bs => if bits b 7 5 = 0 then bs.any (fun x => x != 0) else stepsAfterNone bs
/-- A descriptor that breaks R215; `at` is its offset in the byte source. -/
def descBad (b : Bytes) (off : Nat) : Bool :=
  let d := descAt b off
  if bit (rdn b (off + 6) 2) 15 then
    d.steps.any stepBad || stepsAfterNone d.steps || !d.lo.isFin || !d.hi.isFin || !(rd32 b (off + 24)).isFin
      || !(rd32 b (off + 28)).isFin || ltNum d.hi d.lo || d.satLo.isNan || d.satHi.isNan
  else rdn b off 32 != 0
/-- A user-table header that breaks R215. -/
def headBad (b : Bytes) (off : Nat) : Bool :=
  let wx := (b (off + 4)).toNat
  decide (2 < (b (off + 5)).toNat) || (decide (24 < wx) && decide (wx < 232)) || !(rd32 b off).isFin
/-- A loaded range of `len` 32-byte units from unit `off`, its bytes from offset 0 of the source (R215). -/
def fnRangeBad (b : Bytes) (off len : Nat) : Bool :=
  (List.range len).any (fun i =>
    if off + i < 15 then descBad b (32 * i) else if off + i = 15 then headBad b (32 * i) else false)

/-! ## The sum format (R220) -/

/-- The 36-bit code of a sum-format value: sign, 12-bit exponent with bias 2,048, 23-bit fraction. -/
def sumCode (v : FV) : Nat :=
  match v with
  | .nan _ => 4095 * 2 ^ 23 + 2 ^ 22
  | .inf n => (if n then 2 ^ 35 else 0) + 4095 * 2 ^ 23
  | .fin n q =>
    (if n then 2 ^ 35 else 0) + (if q = 0 then 0 else
      let e := floorLog2 q
      (e + 2048).toNat * 2 ^ 23 + (floorNat (q / pow2 (e - 23)) - 2 ^ 23))
/-- The value of a 36-bit code. -/
def sumValue (w : Nat) : FV :=
  let n := bit w 35
  let e := bits w 34 23
  let f := bits w 22 0
  if e = 0 then .fin n 0
  else if e = 4095 then (if f = 0 then .inf n else .nan false)
  else .fin n (((2 ^ 23 + f : Nat) : Rat) * pow2 ((e : Int) - 2048 - 23))

end Sys2Proof.Machine
end

