-- ==== Sys2Proof/Machine/Crc.lean ====
section
/-! DEFINITION. The checks over byte strings: CRC-64/ECMA-182 of results and wheels (10_streams_and_wheels.md R297) and
CRC-32C of bursts and flits (R304, 16_linueton_systems.md R483, 20_ports_and_electrical.md R613). -/

namespace Sys2Proof.Machine

/-- One bit shifted into a CRC-64 register, the most significant bit first. -/
def crc64Shift (c : Nat) : Nat :=
  if c < 2 ^ 63 then 2 * c else (2 * c % 2 ^ 64) ^^^ 0x42F0E1EBA9EA3693
/-- One byte into a CRC-64 register. -/
def crc64Byte (c : Nat) (b : Byte) : Nat :=
  let x := c ^^^ (b.toNat * 2 ^ 56)
  crc64Shift (crc64Shift (crc64Shift (crc64Shift (crc64Shift (crc64Shift (crc64Shift (crc64Shift x)))))))
/-- CRC-64/ECMA-182 (R297): initial value 0, no reflection, no final inversion. -/
def crc64 (bs : List Byte) : Nat := bs.foldl crc64Byte 0

/-- One bit shifted out of a reflected CRC-32C register. -/
def crc32Shift (c : Nat) : Nat := if c % 2 = 0 then c / 2 else (c / 2) ^^^ 0x82F63B78
/-- One byte into a CRC-32C register. -/
def crc32Byte (c : Nat) (b : Byte) : Nat :=
  let x := c ^^^ b.toNat
  crc32Shift (crc32Shift (crc32Shift (crc32Shift (crc32Shift (crc32Shift (crc32Shift (crc32Shift x)))))))
/-- CRC-32C (Castagnoli), as RFC 3720 computes it. -/
def crc32c (bs : List Byte) : Nat := bs.foldl crc32Byte 0xFFFFFFFF ^^^ 0xFFFFFFFF

end Sys2Proof.Machine
end

