-- ==== Sys2Proof/Machine/Dot.lean ====
section
/-! DEFINITION. The defined dot product (03_dot_product.md R79 to R97), the strict sequence (02_number_formats.md R60) and the fused
output conversion (R67 to R71): the arithmetic of the arrays and the matrix-vector path, over lists of element codes. -/

namespace Sys2Proof.Machine

/-! ## Elements (R79, R81) -/

/-- The formats whose elements enter as E4M3 (R54). -/
def Fmt.narrow : Fmt → Bool
  | .e3m2 | .e2m3 | .e2m1 => true
  | _ => false
/-- The format of an element after R54's expansion. -/
def Fmt.expanded (f : Fmt) : Fmt := if f.narrow then .e4m3 else f
/-- The expansion of an element (R54); it keeps the sign of zero. -/
def Fmt.expand (f : Fmt) (w : Nat) : Nat :=
  if f.narrow then (match f.decode w with | .fin n q => Fmt.e4m3.magCode n q | _ => 0) else w
/-- P of R79: the significand's width. -/
def Fmt.prec (f : Fmt) : Nat := match f with | .int8 => 8 | .mxint8 => 8 | f => f.frac + 1

/-- A finite element as (−1)^s × M × 2^E (R79). -/
structure Sme where
  neg : Bool
  m : Nat
  e : Int
  deriving DecidableEq, Repr

/-- The sign, M and E of an element in fast mode (R79). -/
def Fmt.sme (f : Fmt) (w : Nat) : Sme :=
  match f with
  | .int8 => let q := w % 256; if q < 128 then ⟨false, q, 0⟩ else ⟨true, 256 - q, 0⟩
  | .mxint8 => let q := w % 256; if q < 128 then ⟨false, q, -6⟩ else ⟨true, 256 - q, -6⟩
  | f =>
    let fr := w % 2 ^ f.frac
    let e := (w / 2 ^ f.frac) % 2 ^ f.expw
    let n := (w / 2 ^ (f.frac + f.expw)) % 2 == 1
    if e = 0 then ⟨n, if f.flushes then 0 else fr, f.emin - f.frac⟩
    else ⟨n, 2 ^ f.frac + fr, (e : Int) - f.bias - f.frac⟩

/-- The window width W of R81. -/
def Fmt.window (f : Fmt) : Nat := match f with | .fp64 => 160 | .fp32 => 96 | .fp16 => 64 | _ => 48
/-- The pieces of a significand with their shifts (R81). The FP16 weight enters whole. -/
def Fmt.pieces (f : Fmt) (weight : Bool) (m : Nat) : List (Nat × Nat) :=
  if f == .fp16 && weight then [(m, 0)]
  else (List.range ((f.prec + 7) / 8)).map (fun i => (m / 2 ^ (8 * i) % 256, 8 * i))

/-! ## The chunk window (R83, R86, R87) -/

/-- A chunk as it enters the window: the scale codes of its two blocks, and the codes of its terms below L, an input and a
weight each, 16 at most. -/
structure Chunk where
  xa : Nat
  xb : Nat
  ts : List (Nat × Nat)
  deriving DecidableEq, Repr

/-- floor(v / 2^k) of v = (−1)^neg × p × 2^j as an integer, and whether the floor drops an amount. -/
def floorShift (neg : Bool) (p : Nat) (j k : Int) : Int × Bool :=
  let v : Int := if neg then -(p : Int) else (p : Int)
  let d := j - k
  if 0 ≤ d then (v * 2 ^ d.toNat, false) else (Int.fdiv v (2 ^ (-d).toNat), p % 2 ^ (-d).toNat != 0)

/-- chunk_sum of R83 at exponent offset `sigma`, with whether the window truncates. -/
def chunkSum (f : Fmt) (sigma : Int) (ts : List (Sme × Sme)) : FV × Bool :=
  let zero := FV.fin (decide (ts.length = 16) && ts.all (fun t => (t.1.m == 0 || t.2.m == 0) && t.1.neg != t.2.neg)) 0
  let live := ts.filter (fun t => t.1.m != 0 && t.2.m != 0)
  match live.map (fun t => t.1.e + t.2.e + 2 * (f.prec : Int) + sigma) with
  | [] => (zero, false)
  | x :: xs =>
    let ulp := xs.foldl max x - 1 + 5 - (f.window : Int)
    let parts := live.flatMap (fun t =>
      (f.pieces false t.1.m).flatMap (fun i => (f.pieces true t.2.m).map (fun w =>
        floorShift (t.1.neg != t.2.neg) (i.1 * w.1) (t.1.e + t.2.e + i.2 + w.2 + sigma) ulp)))
    let sum := parts.foldl (fun a p => a + p.1) (0 : Int)
    (if sum = 0 then zero else FV.ofRat ((sum : Rat) * pow2 ulp), parts.any Prod.snd)

/-! ## Accumulators (R86 to R90) -/

/-- The accumulator of one dot product: its slot, or the high and low parts of a pair; whether it is frozen; the flags its
roundings raised; the infinite, NaN and invalid terms met (R86); and the flags of the pre-sums of a complex product, which are no
flags of its terms (R94). -/
structure Acc where
  hi : FV
  lo : FV
  ovf : Bool
  fl : Fl
  nan : Bool
  nv : Bool
  pinf : Bool
  ninf : Bool
  pre : Fl
  deriving DecidableEq, Repr

def Acc.zero : Acc := ⟨FV.pzero, FV.pzero, false, {}, false, false, false, false, {}⟩

/-- What a dot product is computed with: the operands' format after expansion, strict mode and its rounding, the logical length,
the sum of the coarse exponents, and the rerun count. -/
structure DotCfg where
  f : Fmt
  strict : Bool
  rnd : Rnd
  len : Nat
  k : Int
  n : Nat
  deriving DecidableEq, Repr

/-- The slot format: FP64 for FP64 operands, else FP32 (R88). -/
def DotCfg.slot (g : DotCfg) : Fmt := if g.f == .fp64 then .fp64 else .fp32
/-- Does the output use a compensated pair (R88)? No pair applies in strict mode (R60, R89). -/
def DotCfg.pair (g : DotCfg) : Bool := !g.strict && g.f != .fp64 && decide (256 < g.len)

/-- acc_round (R88): the rounded value, whether it overflows, whether it is inexact, whether UF is due (R90). -/
def accRound (f : Fmt) (v : FV) : FV × Bool × Bool × Bool :=
  match v with
  | .fin n q =>
    let (r, ix) := roundMag .ne (f.frac + 1) (f.emin - f.frac) n q 0
    (.fin n r, decide (f.maxFin < r), ix, ix && r != 0 && decide (r < pow2 f.emin))
  | x => (x, false, false, false)

/-- Freezing (R88). -/
def Acc.freeze (a : Acc) (f : Fmt) (v : FV) : Acc := { a with hi := .fin v.neg f.maxFin, lo := FV.pzero, ovf := true }
/-- A value added into the slot, or into the low part of a pair. -/
def Acc.add (g : DotCfg) (a : Acc) (v : FV) : Acc :=
  let x := (sumFV .ne [if g.pair then a.lo else a.hi, v]).1
  let (r, ovr, ix, uf) := accRound g.slot x
  if ovr then { a with fl := { a.fl with nx := true } }.freeze g.slot x
  else
    let fl : Fl := { a.fl with nx := a.fl.nx || ix, uf := a.fl.uf || uf }
    if g.pair then { a with lo := r, fl := fl } else { a with hi := r, fl := fl }
/-- The fold at the end of a run of 256 terms (R88); its acc_round raises flags as any other does (R90; DEDUCED, log entry 22). -/
def Acc.fold (g : DotCfg) (a : Acc) : Acc :=
  let x := (sumFV .ne [a.hi, a.lo]).1
  let (h, ovr, ix, uf) := accRound g.slot x
  if ovr then { a with fl := { a.fl with nx := true } }.freeze g.slot x
  else { a with hi := h, lo := FV.ofRat (x.rat - h.rat), fl := { a.fl with nx := a.fl.nx || ix, uf := a.fl.uf || uf } }

/-- The special terms of a chunk met (R86): NaN and invalid terms, infinities by sign. -/
def Acc.specials (g : DotCfg) (a : Acc) (ch : Chunk) : Acc :=
  if g.f.isMx && (ch.xa == 255 || ch.xb == 255) && !ch.ts.isEmpty then { a with nan := true }
  else ch.ts.foldl (fun a t =>
    match mulFV (g.f.read false t.1) (g.f.read false t.2) with
    | (.nan _, bad) => { a with nan := true, nv := a.nv || bad }
    | (.inf true, _) => { a with ninf := true }
    | (.inf false, _) => { a with pinf := true }
    | _ => a) a

/-- The exponent offset of a chunk (R80). -/
def DotCfg.sigma (g : DotCfg) (ch : Chunk) : Int :=
  (if g.f.isMx then ((ch.xa : Int) - 127) + ((ch.xb : Int) - 127) else 0) + g.k - 8 * (g.n : Int)

/-- Chunk c taken in fast mode (R83, R86, R88). -/
def Acc.chunk (g : DotCfg) (c : Nat) (ch : Chunk) (a : Acc) : Acc :=
  let a := a.specials g ch
  let fin := fun w => match g.f.read false w with | .fin _ _ => true | _ => false
  let (v, cut) := chunkSum g.f (g.sigma ch) ((ch.ts.filter (fun t => fin t.1 && fin t.2)).map (fun t => (g.f.sme t.1, g.f.sme t.2)))
  let a := if cut then { a with fl := { a.fl with nx := true } } else a
  if a.ovf then a
  else
    let a := a.add g v
    if !a.ovf && g.pair && c % 16 == 15 && decide (c + 1 < (g.len + 15) / 16) then a.fold g else a

/-- One strict step acc ← round(±a × b × 2^k + acc) (R60). -/
def Acc.strictStep (g : DotCfg) (a : Acc) (neg : Bool) (x y : Nat) : Acc :=
  let (p, bad) := mulFV (g.f.decode x) (g.f.decode y)
  let p := if neg then p.flip else p
  let p := match p with | .fin n q => FV.fin n (q * pow2 g.k) | v => v
  let (t, inv) := sumFV g.rnd [p, a.hi]
  let (w, fl) := fuse g.slot { rnd := g.rnd, strict := true, ieee := true } (t, bad || inv)
  { a with hi := g.slot.decode w, fl := a.fl.or fl }

/-! ## The accumulators of one output element -/

/-- The chunks of an output's operands: the real parts, and for a complex product the imaginary parts beside them. -/
structure CChunk where
  xa : Nat
  xb : Nat
  re : List (Nat × Nat)
  im : List (Nat × Nat)
  deriving DecidableEq, Repr

/-- round_fmt of R94 with its flags: a sum of two elements rounded to the operand format under R58, R63 and R74 (log entry 106). -/
def preSum (f : Fmt) (x y : Nat) : Nat × Fl := fuse f {} (sumFV .ne [f.read false x, f.read false y])

/-- The third accumulator takes the flags of the pre-sums of a chunk. -/
def Acc.preFl (a : Acc) (f : Fl) : Acc := { a with pre := a.pre.or f }

/-- The accumulators of one output: one real sum; or t1, t2, t3 of R94; or the real and imaginary sequences of R95. -/
def accsZero (strict cplx : Bool) : List Acc := List.replicate (if cplx then (if strict then 2 else 3) else 1) Acc.zero

/-- One chunk taken by the accumulators of one output. -/
def accsChunk (g : DotCfg) (cplx : Bool) (c : Nat) (ch : CChunk) (as : List Acc) : List Acc :=
  match g.strict, cplx, as with
  | true, false, [a] => [ch.re.foldl (fun a t => a.strictStep g false t.1 t.2) a]
  | true, true, [r, i] =>
    let ts := ch.re.zip ch.im
    [ts.foldl (fun a t => (a.strictStep g false t.1.1 t.1.2).strictStep g true t.2.1 t.2.2) r,
     ts.foldl (fun a t => (a.strictStep g false t.1.1 t.2.2).strictStep g false t.2.1 t.1.2) i]
  | false, false, [a] => [a.chunk g c ⟨ch.xa, ch.xb, ch.re⟩]
  | false, true, [a1, a2, a3] =>
    let ps := (ch.re.zip ch.im).map (fun t => (preSum g.f t.1.1 t.2.1, preSum g.f t.1.2 t.2.2))
    [a1.chunk g c ⟨ch.xa, ch.xb, ch.re⟩, a2.chunk g c ⟨ch.xa, ch.xb, ch.im⟩,
     (ps.foldl (fun a p => a.preFl (p.1.2.or p.2.2)) a3).chunk g c ⟨ch.xa, ch.xb, ps.map (fun p => (p.1.1, p.2.1))⟩]
  | _, _, as => as

/-- The accumulators after all chunks of an output. -/
def accsRun (g : DotCfg) (cplx : Bool) (chs : List CChunk) : List Acc :=
  ((List.range chs.length).zip chs).foldl (fun as p => accsChunk g cplx p.1 p.2 as) (accsZero g.strict cplx)

/-- Has an accumulator without infinite and NaN terms overflowed (R96)? -/
def Acc.over (a : Acc) : Bool := a.ovf && !(a.nan || a.pinf || a.ninf)

/-- exact(acc) and its flags (R86, R88, R90); flags of an output with special terms are NV alone. A slot that holds −0 is summed with
its low part +0, which gives +0 under R64 (R88; DEDUCED, log entry 117). -/
def Acc.value (a : Acc) : FV × Fl :=
  if a.nan then (.nan false, { nv := a.nv })
  else if a.pinf && a.ninf then (.nan false, { nv := true })
  else if a.pinf then (.inf false, {})
  else if a.ninf then (.inf true, {})
  else ((sumFV .ne [a.hi, a.lo]).1, { a.fl with of := a.fl.of || a.ovf, nv := a.fl.nv || a.nv })

/-- The values of one output: one real, or real and imaginary parts (R94, R95), with their flags. In strict mode the sequence's
own value stands. -/
def accsValue (strict : Bool) (as : List Acc) : List (FV × Fl) :=
  if strict then as.map (fun a => (a.hi, a.fl))
  else match as with
    | [a] => [a.value]
    | [a1, a2, a3] =>
      let (t1, f1) := a1.value
      let (t2, f2) := a2.value
      let (t3, f3) := a3.value
      let (re, i1) := sumFV .ne [t1, t2.flip]
      let (im, i2) := sumFV .ne [t3, t1.flip, t2.flip]
      [(re, (f1.or f2).or { nv := i1 }), (im, (((f1.or f2).or f3).or a3.pre).or { nv := i2 })]
    | _ => []

/-! ## The fused output conversion (R67 to R71) -/

/-- What the conversion stage applies (R67): coarse significands, multiplier, clip bounds, output format, rounding, and whether
the accumulator is FP64. -/
structure OutCfg where
  ma : Rat
  mb : Rat
  q : FV
  lo : FV
  hi : FV
  out : Fmt
  c : Cvt
  f64 : Bool
  deriving DecidableEq, Repr

/-- A rounding of the stage: roundw, or nearest-even to FP64 for FP64 accumulators. It raises NX only (R74). -/
def OutCfg.round (o : OutCfg) (v : FV) : FV × Fl :=
  if o.f64 then (let (w, fl) := Fmt.fp64.encode { strict := true } v; (Fmt.fp64.decode w, { nx := fl.nx }))
  else (let (w, ix) := roundw v; (w, { nx := ix }))

/-- convert_out of R67 up to the encoding: t of one output, with its flags. -/
def OutCfg.stage (o : OutCfg) (n : Nat) (bias : Option FV) (acc : FV) : FV × Fl :=
  let (g, f0) := o.round ((mulFV (.fin false (o.ma * o.mb)) o.q).1)
  let (p, bad) := mulFV acc g
  let (t, f1) := o.round (match p with | .fin s q => .fin s (q * pow2 (8 * (n : Int))) | v => v)
  let (t, f2) := match bias with
    | none => (t, ({} : Fl))
    | some b =>
      let (v, inv) := sumFV .ne [t, b]
      let (w, f) := o.round v
      (w, { f with nv := inv })
  let t := if t.isNan then t else (minFV (maxFV t o.lo).1 o.hi).1
  (t, ((f0.or f1).or f2).or { nv := bad })

/-- One output row encoded: element codes, block scales for an MX format, flags, and the written values (R52, R225). `rs` gives the
stochastic value of each element. An MX row is written in whole blocks: the positions of its last block beyond the row hold +0 (R71). -/
def encodeRow (f : Fmt) (c : Cvt) (rs : List Nat) : (fuel : Nat) → List FV → List Nat × List Nat × Fl × List FV
  | 0, _ => ([], [], {}, [])
  | k + 1, ts =>
    if f.isMx then
      (match ts with
       | [] => ([], [], {}, [])
       | _ =>
         let b := ts.take 32
         let pad := b ++ List.replicate (32 - b.length) FV.pzero
         let (sc, es, fl) := mxEncode f c pad (rs.take b.length ++ List.replicate (32 - b.length) 0)
         let vs := (es.take b.length).map (fun e => if sc = 255 then .nan false else
           match f.decode e with | .fin n q => .fin n (q * pow2 ((sc : Int) - 127)) | v => v)
         let (es', scs, fl', vs') := encodeRow f c (rs.drop 32) k (ts.drop 32)
         (es ++ es', sc :: scs, fl.or fl', vs ++ vs'))
    else
      let enc := (ts.zip rs).map (fun p => f.encode { c with r := p.2 } p.1)
      (enc.map Prod.fst, [], enc.foldl (fun a e => a.or e.2) {}, enc.map (fun e => f.decode e.1))

/-- The bytes of packed elements (R48). -/
def packBytes (bits : Nat) (es : List Nat) : List Byte :=
  toBytes ((bits * es.length + 7) / 8) (es.foldr (fun e a => e + 2 ^ bits * a) 0)
/-- Packed elements of a byte list (R48). -/
def unpackBytes (bits count : Nat) (bs : List Byte) : List Nat :=
  let v := ofBytes bs
  (List.range count).map (fun i => v / 2 ^ (bits * i) % 2 ^ bits)

/-- A row-statistics record (R225, R226): the maximum in [31:0] and the sum in [63:32], each one rounding to FP32 in the mode of the
instruction (R58, R73). -/
def rowRecord (mode : Nat) (sat strict : Bool) (vs : List FV) : List Byte × Fl :=
  let (m, i1) := match vs with
    | [] => (FV.pzero, false)
    | v :: l => l.foldl (fun a x => let r := maxFV a.1 x; (r.1, a.2 || r.2)) (v, v.isSNan)
  let (mw, f1) := fuse .fp32 { sat := sat, strict := strict } (m, i1)
  let (sw, f2) := fuse .fp32 { sat := sat, strict := strict } (sumFV .ne vs)
  (toBytes 4 (if mode % 2 = 1 then mw else 0) ++ toBytes 4 (if 2 ≤ mode then sw else 0),
   (if mode % 2 = 1 then f1 else {}).or (if 2 ≤ mode then f2 else {}))

/-! ## Slices (R93) -/

/-- A joined accumulator: (h, l), the rerun count that its value is scaled by, whether it is marked sat, and the flags of its
roundings. -/
structure Joined where
  h : FV
  l : FV
  n : Nat
  sat : Bool
  fl : Fl
  deriving DecidableEq, Repr

/-- An accumulator as a join takes it: its exact value and rerun count. -/
def Joined.leaf (n : Nat) (x : FV) : Joined := ⟨x, FV.pzero, n, false, {}⟩
/-- The exact value of a joined pair. -/
def Joined.exact (a : Joined) : FV := (sumFV .ne [a.h, a.l]).1
/-- The terms of a joined pair, aligned to a rerun count that is not below its own (R93). -/
def Joined.terms (a : Joined) (n : Nat) : List FV :=
  [a.h, a.l].map (fun v => match v with | .fin s q => .fin s (q * pow2 (8 * ((a.n : Int) - n))) | x => x)
/-- The join of a strict reduction: one IEEE addition in the accumulator's format and the instruction's direction (R60). -/
def Joined.strictJoin (f : Fmt) (rnd : Rnd) (a b : Joined) : Joined :=
  let (w, fl) := fuse f { rnd := rnd, strict := true, ieee := true } (sumFV rnd [a.exact, b.exact])
  ⟨f.decode w, FV.pzero, 0, a.sat || b.sat, (a.fl.or b.fl).or fl⟩
/-- join of R93; infinities and NaN combine under R63. NX is raised when h or l is inexact and UF under R90 (DEDUCED, log entry
22). With a direction, the strict join of R60. -/
def Joined.join (f64 : Bool) (strict : Option Rnd) (a b : Joined) : Joined :=
  let f : Fmt := if f64 then .fp64 else .fp32
  match strict with
  | some rnd => a.strictJoin f rnd b
  | none =>
    let n := max a.n b.n
    let (v, bad) := sumFV .ne (a.terms n ++ b.terms n)
    let fl := a.fl.or b.fl
    match v with
    | .fin s q =>
      let (h, ovr, ix, uf) := accRound f (.fin s q)
      if ovr then ⟨.fin s f.maxFin, FV.pzero, n, true, { fl with nx := true }⟩
      else
        let (l, _, ixl, _) := if f64 then (FV.pzero, false, ix, false) else accRound .fp32 (FV.ofRat (v.rat - h.rat))
        ⟨h, l, n, a.sat || b.sat, fl.or { nx := ixl, uf := uf }⟩
    | x => ⟨x, FV.pzero, n, a.sat || b.sat, fl.or { nv := bad }⟩

end Sys2Proof.Machine
end

