-- ==== Sys2Proof/Machine/Regs.lean ====
section
/-! DEFINITION. The register window (19_registers_and_transactions.md R580 to R591 and the register tables of every
chapter): the pages, and for each 32-bit word its fields by access code (R19) and its reset value. A word is named by its
byte address. A bit in no field is reserved. -/

namespace Sys2Proof.Machine

/-- Byte address of offset `o` in page `p` (R580). -/
def pg (p o : Nat) : Nat := p * 4096 + o

/-- The bits [hi:lo] as a mask. -/
def msk (hi lo : Nat) : Nat := 2 ^ (hi + 1) - 2 ^ lo

/-- One register word: the accepted level that shows it, and its bits by access code (R19), with its reset value.
`lk` marks those of its bits that the seal locks. -/
structure RegSpec where
  lvl : Nat := 1
  ro : Nat := 0
  rw : Nat := 0
  tx : Nat := 0
  w1c : Nat := 0
  w1s : Nat := 0
  wo : Nat := 0
  lk : Nat := 0
  reset : Nat := 0
  deriving DecidableEq, Repr

/-- Every bit that lies in a named field. -/
def RegSpec.named (r : RegSpec) : Nat := r.ro ||| r.rw ||| r.tx ||| r.w1c ||| r.w1s ||| r.wo

def regAll : Nat := 0xFFFFFFFF

/-- Kind code and level of a page of the catalogue (R591); none for a reserved page. -/
def pageInfo (p : Nat) : Option (Nat × Nat) :=
  if p ≤ 0x009 then some (p + 1, 1)
  else if p = 0x00A then some (0x0A, 1)
  else if p = 0x00B then some (0x0B, 1)
  else if p = 0x00C then some (0x0C, 2)
  else if 0x040 ≤ p ∧ p < 0x108 then some (0x10 + (p - 0x040) % 4, 1)
  else if p = 0x140 then some (0x20, 1)
  else if 0x141 ≤ p ∧ p ≤ 0x148 then some (0x21, 1)
  else if p = 0x150 then some (0x28, 1)
  else if 0x151 ≤ p ∧ p ≤ 0x154 then some (0x29, 1)
  else if 0x160 ≤ p ∧ p ≤ 0x169 then some (0x2A, 1)
  else if p = 0x170 then some (0x30, 1)
  else if 0x171 ≤ p ∧ p ≤ 0x176 then some (0x31, 1)
  else if p = 0x177 then some (0x32, 1)
  else if p = 0x190 then some (0x38, 1)
  else if 0x1A0 ≤ p ∧ p ≤ 0x1A4 then some (0x40 + (p - 0x1A0), 1)
  else if p = 0x1A5 then some (0x45, 2)
  else if p = 0x1B0 then some (0x48, 1)
  else if p = 0x1B1 ∨ p = 0x1B2 then some (0x49, 1)
  else if p = 0x1B3 ∨ p = 0x1B4 then some (0x4A, 1)
  else none

/-- CAPS of the Hexat (R585), split into its low and high words. -/
def capsLo : Nat := 0x4A16AC32
def capsHi : Nat := 0x00384213

/-- The causes beside bit 0 that a page's INT_STATUS defines (R586). -/
def intCauses (p : Nat) : Nat :=
  if p = 0x001 ∨ p = 0x002 then 6
  else if p = 0x003 ∨ p = 0x008 ∨ p = 0x1A0 then 2
  else if 0x040 ≤ p ∧ p < 0x108 ∧ ((p - 0x040) % 4 = 1 ∨ (p - 0x040) % 4 = 2) then 2
  else 0

/-- Is a page a folio control page? -/
def isFolioPage (p k : Nat) : Bool := decide (0x040 ≤ p) && decide (p < 0x108) && (p - 0x040) % 4 == k

/-- The page header (R584). CTRL is FOLIO_CTRL on a folio control page, with MODE in [2:0] at start-up, and reserved
elsewhere; no page defines STATUS. -/
def headerSpec (p o : Nat) : RegSpec :=
  match pageInfo p with
  | none => {}
  | some (kind, level) =>
    if o = 0x000 then { ro := msk 31 24 + msk 8 0, reset := kind * 2 ^ 24 + p }
    else if o = 0x004 then { ro := msk 31 28 + msk 7 0, reset := level * 2 ^ 28 + 1 }
    else if o = 0x008 then { ro := regAll, reset := capsLo }
    else if o = 0x00C then { ro := regAll, reset := capsHi }
    else if o = 0x010 then (if isFolioPage p 0 then { tx := 7, reset := 1 } else {})
    else if o = 0x018 then { w1c := msk 31 28 }
    else if o = 0x01C then { rw := msk 31 28 }
    else if o = 0x020 then { ro := intCauses p + 1 }
    else if o = 0x024 then { rw := regAll }
    else if o = 0x028 then { ro := msk 15 0 }
    else {}

/-- A write-only clear bit at [0]. -/
def clrSpec : RegSpec := { wo := 1 }
/-- Two 16-bit read-only counters. -/
def cntSpec : RegSpec := { ro := regAll }
/-- FOLIO_PERR and VAT_PERR: VALID is W1C, the rest is read only (R362, R363). -/
def folioPerrSpec : RegSpec := { w1c := msk 31 31, ro := msk 30 27 + msk 19 0 }
def vatPerrSpec : RegSpec := { w1c := msk 31 31, ro := msk 30 30 + msk 25 0 }

/-- Words of page 0x000 (R588, R640). DEV_REV and DEV_SERIAL are fused. -/
def idSpec (o : Nat) : RegSpec :=
  if o = 0x040 then { ro := regAll, reset := 0x7A310006 }
  else if o = 0x044 then { ro := msk 15 0, reset := Config.revision.toNat }
  else if o = 0x048 then { ro := regAll, reset := Config.serial.toNat }
  else if o = 0x050 then { ro := msk 31 31 + msk 7 4, w1c := msk 30 30, wo := msk 3 0, reset := 0x10 }
  else if o = 0x054 then { rw := 2, lk := 2, w1s := 1, reset := 2 }
  else if o = 0x060 then { ro := msk 31 28 + msk 23 14 + msk 7 0 }
  else if 0x100 ≤ o ∧ o < 0x140 then { ro := regAll }
  else {}

/-- Words of page 0x001: transactions (R602) and ownership (R603). TXN_BEGIN_STAT and TXN_SEL have a copy per port,
held beside the window. -/
def txnSpec (o : Nat) : RegSpec :=
  if o = 0x040 then { wo := regAll }
  else if o = 0x044 then { ro := msk 31 31 + msk 9 0 }
  else if o = 0x048 then { rw := msk 15 0 }
  else if o = 0x04C ∨ o = 0x050 then { wo := msk 15 0 }
  else if o = 0x054 then { rw := msk 15 0, reset := 0x32 }
  else if o = 0x058 then { w1c := msk 3 0 }
  else if o = 0x05C then cntSpec
  else if o = 0x060 then clrSpec
  else if 0x080 ≤ o ∧ o < 0x0C0 then
    (if o % 16 = 0 then { ro := regAll } else if o % 16 = 4 then { ro := msk 31 27 + msk 15 0 }
     else if o % 16 = 8 then { ro := msk 31 8 } else { ro := msk 27 0 })
  else if 0x100 ≤ o ∧ o < 0x120 then { tx := msk 7 0, reset := if o = 0x11C then 7 else 0 }
  else if 0x120 ≤ o ∧ o < 0x140 then { tx := msk 7 0, reset := if o < 0x130 then (o - 0x120) / 4 + 1 else 0 }
  else if 0x140 ≤ o ∧ o < 0x240 then { tx := msk 31 31 + msk 25 16 + msk 7 0 }
  else {}

/-- Words of page 0x002, the mailbox (R607). -/
def mbxSpec (o : Nat) : RegSpec :=
  if o = 0x040 then { wo := msk 31 24 }
  else if o = 0x044 then { ro := msk 31 31 + msk 29 29 + msk 23 0, w1c := msk 30 30 }
  else if 0x080 ≤ o ∧ o < 0x0B0 then { wo := regAll }
  else if 0x0C0 ≤ o ∧ o < 0x0D0 then { ro := regAll }
  else if o = 0x0D0 then { w1s := msk 31 31, rw := msk 30 30 + msk 11 0 }
  else if 0x800 ≤ o ∧ o < 0x1000 then { rw := regAll }
  else {}

/-- PM_FOLIO_STATEi at reset: F1, and F4 for folios 48 and 49; folios 50 to 55 read zero (R549). -/
def pmFolioReset (i : Nat) : Nat := if i < 6 then 0x11111111 else 0x44

/-- Words of page 0x003, the power manager (R549). -/
def pmSpec (o : Nat) : RegSpec :=
  if o = 0x040 then { ro := msk 31 29 }
  else if o = 0x044 then { rw := msk 31 31 + msk 21 0, reset := 0x803FFFFF }
  else if o = 0x048 then { rw := msk 31 31 + msk 21 0 }
  else if o = 0x04C then { w1c := msk 31 31, ro := msk 7 0 }
  else if o = 0x050 then { tx := msk 31 27 + msk 15 0, reset := 0xA000000A }
  else if o = 0x054 then cntSpec
  else if o = 0x058 then { w1c := msk 31 31, ro := msk 30 24 + msk 7 0 }
  else if o = 0x05C then { w1c := msk 9 0 }
  else if o = 0x060 then { lvl := 2, tx := msk 31 31 + msk 27 0 }
  else if 0x080 ≤ o ∧ o < 0x09C then { ro := regAll, reset := pmFolioReset ((o - 0x080) / 4) }
  else {}

/-- Delay and ready report of exit step Xj (R537). -/
def exitStep (j : Nat) : Nat × Bool :=
  match j with
  | 1 => (4, true) | 2 => (5, true) | 3 => (3, true) | 4 => (2, false) | 5 => (10, true) | 6 => (20, true)
  | 7 => (38, true) | 8 => (8, false) | 9 => (28, true) | 10 => (288, true) | 11 => (115, true) | 12 => (6, true)
  | 13 => (10, true) | 14 => (38, true) | 15 => (2, false) | 16 => (48, true) | 17 => (76, true) | 18 => (6, true)
  | 19 => (2304, true) | _ => (0, false)

/-- Entry delays of F2, F3, F4, D1, D2 (R549). -/
def entryDelay (k : Nat) : Nat :=
  match k with | 0 => 4 | 1 => 8 | 2 => 6 | 3 => 24 | 4 => 48 | _ => 0

/-- Words of pages 0x004 to 0x007: clocks, delay tables, thermal status, rind timers (R549). -/
def clkSpec (p o : Nat) : RegSpec :=
  if p = 0x004 then (if o = 0x040 then { ro := msk 31 31 + msk 29 29 + msk 10 0, w1c := msk 30 30 } else {})
  else if p = 0x005 then
    (if 0x044 ≤ o ∧ o ≤ 0x08C then
       let x := exitStep ((o - 0x040) / 4)
       { ro := msk 16 0, reset := x.1 + (if x.2 then 0x10000 else 0) }
     else if 0x100 ≤ o ∧ o < 0x114 then { ro := msk 15 0, reset := entryDelay ((o - 0x100) / 4) }
     else {})
  else if p = 0x006 then
    (if 0x040 ≤ o ∧ o < 0x080 then { ro := msk 31 31 + msk 7 0 }
     else if o = 0x080 then { ro := msk 31 31 + msk 23 0 }
     else if o = 0x084 then clrSpec else {})
  else if p = 0x007 then
    (if 0x040 ≤ o ∧ o < 0x060 then { ro := regAll, reset := if o < 0x050 then ((o - 0x040) / 4 + 1) * 2 ^ 28 else 0 } else {})
  else {}

/-- Words of pages 0x008 to 0x00C: fault log, sparing, update (R567, R572, R573, R577). -/
def fltSpec (p o : Nat) : RegSpec :=
  if p = 0x008 then
    (if o = 0x040 then { w1c := msk 31 30, w1s := msk 29 29 }
     else if o = 0x044 then { ro := msk 7 0 }
     else if o = 0x048 then { rw := msk 7 0 }
     else if o = 0x04C then cntSpec
     else if o = 0x050 then clrSpec
     else if o = 0x054 then { w1s := 1 } else {})
  else if p = 0x009 ∨ p = 0x00A then (if 0x800 ≤ o ∧ o < 0x1000 then { ro := regAll } else {})
  else if p = 0x00B then
    (if o = 0x040 then { ro := 3, reset := 2 }
     else if o = 0x044 then { ro := regAll }
     else if o = 0x048 then { ro := msk 17 0 }
     else if o = 0x04C then { ro := regAll }
     else if o = 0x050 then { ro := msk 15 0 }
     else if o = 0x054 ∨ o = 0x058 then { ro := regAll }
     else if o = 0x05C then { ro := msk 15 0 } else {})
  else if p = 0x00C then
    (if o = 0x040 then { lvl := 2, tx := msk 15 0 }
     else if o = 0x044 then { lvl := 2, ro := msk 31 30 + msk 19 0 }
     else if o = 0x048 then { lvl := 2, ro := regAll } else {})
  else {}

/-- The four words of a context descriptor (R397), lowest first, as TX masks. -/
def descMask (w : Nat) : Nat :=
  match w with
  | 0 => msk 31 29 | 1 => msk 31 0 | 2 => msk 31 15 + msk 7 0 | _ => msk 31 16 + msk 15 3

/-- Words of the four pages of a folio (R76, R102, R142, R235, R362, R397, R424, R425). -/
def folioSpec (k o : Nat) : RegSpec :=
  if k = 0 then
    (if o = 0x0C0 ∨ o = 0x0C4 then { tx := msk 15 0, reset := 0xFFFF }
     else if o = 0x0C8 then { ro := msk 15 0, reset := 0xFFFF }
     else if o = 0x0D0 then folioPerrSpec
     else if o = 0x0D4 then cntSpec
     else if o = 0x0D8 then clrSpec
     else if o = 0x0DC then { ro := msk 15 0 } else {})
  else if k = 1 then
    (if 0x040 ≤ o ∧ o < 0x050 then { tx := msk 31 31, w1s := msk 30 28, ro := msk 23 21 + msk 17 0 }
     else if o = 0x050 then { w1c := msk 31 31, ro := msk 30 21 + msk 12 0 }
     else if o = 0x054 then cntSpec
     else if o = 0x058 then { lvl := 2, ro := msk 8 0 }
     else if o = 0x05C then clrSpec
     else if 0x080 ≤ o ∧ o < 0x0C0 then { tx := descMask ((o % 16) / 4) } else {})
  else if k = 2 then
    (if o = 0x040 then { w1c := msk 23 0 }
     else if o = 0x044 then { rw := msk 23 0 }
     else if o = 0x048 then { lvl := 2, ro := regAll }
     else if o = 0x04C then { lvl := 2, wo := 1 }
     else if o = 0x050 then { lvl := 2, ro := regAll, reset := 0x2B611A04 }
     else if o = 0x054 then { lvl := 2, w1c := msk 31 31, ro := msk 16 16 + msk 14 0 } else {})
  else
    (if o = 0x080 then { lvl := 2, ro := msk 31 31, rw := msk 21 5 + msk 2 0 }
     else if o = 0x084 then { lvl := 2, ro := regAll }
     else if 0x100 ≤ o ∧ o < 0x400 then { ro := regAll } else {})

/-- Words of the vat, HBM and mover pages (R344, R363, R393, R394). -/
def memSpec (p o : Nat) : RegSpec :=
  if p = 0x140 then
    (if o = 0x040 ∨ o = 0x044 ∨ o = 0x050 ∨ o = 0x054 then { tx := regAll, reset := regAll }
     else if o = 0x048 ∨ o = 0x058 then { tx := msk 15 0, reset := 0xFFFF }
     else if o = 0x070 ∨ o = 0x074 then { ro := regAll, reset := regAll }
     else if o = 0x078 then { ro := msk 15 0, reset := 0xFFFF }
     else if o = 0x060 then vatPerrSpec
     else if o = 0x064 then cntSpec
     else if o = 0x068 then clrSpec
     else if o = 0x06C then { ro := msk 15 0 } else {})
  else if 0x141 ≤ p ∧ p ≤ 0x148 then
    (if 0x100 ≤ o ∧ o < 0x900 then
       (if o % 16 = 0 then {}
        else if o % 16 = 4 then { tx := msk 31 17 }
        else if o % 16 = 8 then { tx := msk 31 24 + msk 17 0 }
        else { tx := regAll })
     else {})
  else if p = 0x150 then
    (if o = 0x040 then { ro := msk 7 0 } else if o = 0x044 then { ro := regAll } else {})
  else if 0x151 ≤ p ∧ p ≤ 0x154 then
    (if o = 0x040 ∨ o = 0x044 then { ro := regAll }
     else if o = 0x048 then cntSpec
     else if o = 0x04C then clrSpec
     else if o = 0x050 then { ro := msk 31 5 }
     else if o = 0x054 then { w1c := msk 31 31, ro := msk 30 28 + msk 3 0 }
     else if o = 0x058 then { ro := msk 7 0 } else {})
  else
    (if o = 0x040 then { ro := msk 16 0 } else if o = 0x044 then cntSpec else if o = 0x048 then clrSpec else {})

/-- Words of the link, D2D and spine pages (R478, R521, R630). -/
def lnkSpec (p o : Nat) : RegSpec :=
  if p = 0x170 then
    (if o = 0x040 then { tx := msk 21 15 + msk 9 0, reset := 0x3F0000 }
     else if o = 0x044 then { ro := regAll }
     else if o = 0x048 then clrSpec else {})
  else if 0x171 ≤ p ∧ p ≤ 0x176 then
    (if o = 0x040 then { ro := msk 31 29 + msk 23 11 + msk 4 0 }
     else if o = 0x044 ∨ o = 0x048 then cntSpec
     else if o = 0x04C then clrSpec else {})
  else if p = 0x177 then
    (if o = 0x080 then { ro := msk 31 29 + msk 7 0 }
     else if o = 0x084 then cntSpec
     else if o = 0x088 then { ro := msk 15 0 }
     else if o = 0x08C then clrSpec else {})
  else if p = 0x190 then
    (if 0x040 ≤ o ∧ o < 0x080 then { ro := msk 31 31 + msk 21 16 + msk 9 0 }
     else if o = 0x080 then cntSpec
     else if o = 0x084 then clrSpec
     else if 0x0C0 ≤ o ∧ o < 0x180 then { ro := msk 5 0, reset := (o - 0x0C0) / 4 } else {})
  else {}

/-- Words of the stream pages (R284, R299, R302, R325 to R328). -/
def strmSpec (p o : Nat) : RegSpec :=
  if p = 0x1A0 then
    (if o = 0x040 then { wo := msk 31 28 }
     else if o = 0x044 then { ro := msk 31 31 + msk 7 0, w1c := msk 30 30 }
     else if o = 0x048 then { ro := regAll }
     else if o = 0x04C then { ro := msk 31 31 + msk 27 16 }
     else if o = 0x050 then { rw := regAll }
     else if o = 0x058 then { tx := msk 31 30, ro := msk 29 0 }
     else if o = 0x05C then { tx := msk 3 0 }
     else if 0x080 ≤ o ∧ o < 0x0C0 then { rw := regAll } else {})
  else if p = 0x1A1 then
    (if 0x040 ≤ o ∧ o ≤ 0x058 then { ro := regAll } else if o = 0x07C then clrSpec else {})
  else if p = 0x1A2 then
    (if 0x040 ≤ o ∧ o < 0x140 then
       (if o % 16 = 0 then { tx := regAll, reset := 200 * 65536 }
        else if o % 16 = 12 then {}
        else { tx := regAll })
     else {})
  else if p = 0x1A3 then
    (if 0x040 ≤ o ∧ o < 0x0C0 then (if o % 8 = 0 then { tx := regAll } else { tx := msk 31 30 + msk 15 0 }) else {})
  else if p = 0x1A4 then
    (if o = 0x040 then { rw := msk 11 0 }
     else if o = 0x044 then clrSpec
     else if 0x080 ≤ o ∧ o < 0x0A0 then { ro := regAll } else {})
  else if p = 0x1A5 then (if o = 0x040 then { lvl := 2, ro := msk 15 0 } else {})
  else {}

/-- Words of the charter pages (R521). -/
def chSpec (p o : Nat) : RegSpec :=
  if p = 0x1B0 then
    (if o = 0x040 then { tx := msk 12 0 }
     else if o = 0x044 then { tx := msk 9 0 }
     else if o = 0x048 then { tx := msk 31 8, reset := 0x00140500 }
     else if o = 0x04C then { tx := msk 31 16 + msk 5 0, reset := 0x00640000 }
     else if o = 0x050 then { ro := regAll }
     else if o = 0x054 then { ro := msk 31 29 + msk 9 0 }
     else if o = 0x058 then { ro := regAll }
     else if o = 0x05C then { w1s := 1 }
     else if o = 0x060 then cntSpec
     else if o = 0x064 then clrSpec else {})
  else if p = 0x1B1 ∨ p = 0x1B2 then (if 0x040 ≤ o ∧ o < 0x840 then { tx := msk 31 31 + msk 19 16 } else {})
  else if p = 0x1B3 ∨ p = 0x1B4 then (if 0x040 ≤ o ∧ o < 0x840 then { ro := msk 31 31 + msk 19 16 } else {})
  else {}

/-- The word at a byte address of the window: the header of R584 below offset 0x040, the page's own words above. -/
def regSpec (a : Nat) : RegSpec :=
  let p := a / 4096
  let o := a % 4096
  if o < 0x040 then headerSpec p o
  else if p = 0x000 then idSpec o
  else if p = 0x001 then txnSpec o
  else if p = 0x002 then mbxSpec o
  else if p = 0x003 then pmSpec o
  else if p ≤ 0x007 then clkSpec p o
  else if p ≤ 0x00C then fltSpec p o
  else if 0x040 ≤ p ∧ p < 0x108 then folioSpec ((p - 0x040) % 4) o
  else if 0x140 ≤ p ∧ p < 0x170 ∧ (pageInfo p).isSome then memSpec p o
  else if 0x170 ≤ p ∧ p < 0x1A0 then lnkSpec p o
  else if 0x1A0 ≤ p ∧ p < 0x1B0 then strmSpec p o
  else if 0x1B0 ≤ p ∧ p < 0x1C0 then chSpec p o
  else {}

/-- The reset value of a word. -/
def regReset (a : Nat) : BitVec 32 := BitVec.ofNat 32 (regSpec a).reset

/-! Named words. -/

def DEV_SEAL : Nat := 0x054
def IFACE_LEVEL : Nat := 0x050
def BOOT_STAT : Nat := 0x060
def TXN_BEGIN : Nat := pg 0x001 0x040
def TXN_SEL : Nat := pg 0x001 0x048
def TXN_COMMIT : Nat := pg 0x001 0x04C
def TXN_ROLLBACK : Nat := pg 0x001 0x050
def TXN_LEASE : Nat := pg 0x001 0x054
def TXN_SLOT_ACK : Nat := pg 0x001 0x058
def TXN_CNT : Nat := pg 0x001 0x05C
def TXN_SLOT (k w : Nat) : Nat := pg 0x001 (0x080 + 16 * k + 4 * w)
def OWN_SB (k : Nat) : Nat := pg 0x001 (0x100 + 4 * k)
def OWN_TMR (k : Nat) : Nat := pg 0x001 (0x120 + 4 * k)
def OWN_LZ (k : Nat) : Nat := pg 0x001 (0x140 + 4 * k)
def MBX_CMD : Nat := pg 0x002 0x040
def MBX_STAT : Nat := pg 0x002 0x044
def MBX_ARG (i : Nat) : Nat := pg 0x002 (0x080 + 4 * i)
def MBX_RES (i : Nat) : Nat := pg 0x002 (0x0C0 + 4 * i)
def MBX_CHUNK : Nat := pg 0x002 0x0D0
def MBX_DATA (o : Nat) : Nat := pg 0x002 (0x800 + o)
def PM_STATE : Nat := pg 0x003 0x040
def PM_VOTE_HOST : Nat := pg 0x003 0x044
def PM_VOTE_DBG : Nat := pg 0x003 0x048
def PM_VOTE_STAT : Nat := pg 0x003 0x04C
def PM_LIMIT : Nat := pg 0x003 0x050
def PM_REFUSE_CNT : Nat := pg 0x003 0x054
def PM_REFUSE_LOG : Nat := pg 0x003 0x058
def PM_WAKE_CAUSE : Nat := pg 0x003 0x05C
def PM_PLAN : Nat := pg 0x003 0x060
def PM_FOLIO_STATE (i : Nat) : Nat := pg 0x003 (0x080 + 4 * i)
def CLK_STAT : Nat := pg 0x004 0x040
def PM_EXIT_TBL (j : Nat) : Nat := pg 0x005 (0x040 + 4 * j)
def PM_ENTRY_TBL (k : Nat) : Nat := pg 0x005 (0x100 + 4 * k)
def THERM_S (k : Nat) : Nat := pg 0x006 (0x040 + 4 * k)
def THERM_STAT : Nat := pg 0x006 0x080
def RIND_TMR (k : Nat) : Nat := pg 0x007 (0x040 + 4 * k)
def FLT_STAT : Nat := pg 0x008 0x040
def FLT_HEAD : Nat := pg 0x008 0x044
def FLT_TAIL : Nat := pg 0x008 0x048
def FLT_CNT : Nat := pg 0x008 0x04C
/-- Word w of fault-log entry i (R567). -/
def FLT_ENTRY (i w : Nat) : Nat := pg (0x009 + i / 128) (0x800 + 16 * (i % 128) + 4 * w)
def SPARE_STAT : Nat := pg 0x00B 0x040
def FOLIO_RET (i : Nat) : Nat := pg 0x00B (0x044 + 4 * i)
def FOLIO_VAC (i : Nat) : Nat := pg 0x00B (0x04C + 4 * i)
def VAT_FAIL (i : Nat) : Nat := pg 0x00B (0x054 + 4 * i)
def FW_SEL : Nat := pg 0x00C 0x040
def FW_STAT : Nat := pg 0x00C 0x044
def FW_VER : Nat := pg 0x00C 0x048
def FOLIO_CTRL (n : Nat) : Nat := pg (0x040 + 4 * n) 0x010
def FOLIO_FM_PWR (n : Nat) : Nat := pg (0x040 + 4 * n) 0x0C0
def FOLIO_FM_RET (n : Nat) : Nat := pg (0x040 + 4 * n) 0x0C4
def FOLIO_FM_STAT (n : Nat) : Nat := pg (0x040 + 4 * n) 0x0C8
def FOLIO_PERR (n : Nat) : Nat := pg (0x040 + 4 * n) 0x0D0
def FOLIO_PERR_CNT (n : Nat) : Nat := pg (0x040 + 4 * n) 0x0D4
def FOLIO_SCRUB (n : Nat) : Nat := pg (0x040 + 4 * n) 0x0DC
def SEQ_CTX (n c : Nat) : Nat := pg (0x041 + 4 * n) (0x040 + 4 * c)
def SEQ_TRAP (n : Nat) : Nat := pg (0x041 + 4 * n) 0x050
def SEQ_CNT (n : Nat) : Nat := pg (0x041 + 4 * n) 0x054
def SEQ_IRQ_MAX (n : Nat) : Nat := pg (0x041 + 4 * n) 0x058
def SEQ_DESC (n c w : Nat) : Nat := pg (0x041 + 4 * n) (0x080 + 16 * c + 4 * w)
def FOLIO_NFLAGS (n : Nat) : Nat := pg (0x042 + 4 * n) 0x040
def FOLIO_NFLAG_IE (n : Nat) : Nat := pg (0x042 + 4 * n) 0x044
def FOLIO_OVR_CNT (n : Nat) : Nat := pg (0x042 + 4 * n) 0x048
def FOLIO_SFU_ROM (n : Nat) : Nat := pg (0x042 + 4 * n) 0x050
def FOLIO_SFU_STORE (n : Nat) : Nat := pg (0x042 + 4 * n) 0x054
def ARR_DBG_SEL (n : Nat) : Nat := pg (0x043 + 4 * n) 0x080
def ARR_DBG_DATA (n : Nat) : Nat := pg (0x043 + 4 * n) 0x084
def VAT_PWR (i : Nat) : Nat := pg 0x140 (0x040 + 4 * i)
def VAT_RET (i : Nat) : Nat := pg 0x140 (0x050 + 4 * i)
def VAT_STAT (i : Nat) : Nat := pg 0x140 (0x070 + 4 * i)
def VAT_PERR : Nat := pg 0x140 0x060
def VAT_PERR_CNT : Nat := pg 0x140 0x064
def VAT_SCRUB : Nat := pg 0x140 0x06C
/-- Word w of signature-table entry h (R344). -/
def SIG (h w : Nat) : Nat := pg (0x141 + h / 128) (0x100 + 16 * (h % 128) + 4 * w)
def HBM_STAT : Nat := pg 0x150 0x040
def HBM_REFWIN : Nat := pg 0x150 0x044
def HBM_PC_STATE (s i : Nat) : Nat := pg (0x151 + s) (0x040 + 4 * i)
def HBM_ERR_CNT (s : Nat) : Nat := pg (0x151 + s) 0x048
def HBM_ERR_LOG_LO (s : Nat) : Nat := pg (0x151 + s) 0x050
def HBM_ERR_LOG_HI (s : Nat) : Nat := pg (0x151 + s) 0x054
def HBM_TEMP (s : Nat) : Nat := pg (0x151 + s) 0x058
def MOVER_STAT (q : Nat) : Nat := pg (0x160 + q) 0x040
def MOVER_CNT (q : Nat) : Nat := pg (0x160 + q) 0x044
def LNK_CFG : Nat := pg 0x170 0x040
def LNK_DEV_CNT : Nat := pg 0x170 0x044
def LNK_STAT (p : Nat) : Nat := pg (0x171 + p) 0x040
def LNK_CNT (p : Nat) : Nat := pg (0x171 + p) 0x044
def LNK_FEC (p : Nat) : Nat := pg (0x171 + p) 0x048
def D2D_STAT : Nat := pg 0x177 0x080
def D2D_CNT : Nat := pg 0x177 0x084
def D2D_RETRAIN_CNT : Nat := pg 0x177 0x088
def SPN_PLANE_STAT (g : Nat) : Nat := pg 0x190 (0x040 + 4 * g)
def SPN_CNT : Nat := pg 0x190 0x080
def SPN_LEAF (k : Nat) : Nat := pg 0x190 (0x0C0 + 4 * k)
def STRM_CMD : Nat := pg 0x1A0 0x040
def STRM_CMD_STAT : Nat := pg 0x1A0 0x044
def STRM_DONE_LO : Nat := pg 0x1A0 0x048
def STRM_DONE_HI : Nat := pg 0x1A0 0x04C
def STRM_CMD_HANDLE : Nat := pg 0x1A0 0x050
def WHEEL_BASE_LO : Nat := pg 0x1A0 0x058
def WHEEL_BASE_HI : Nat := pg 0x1A0 0x05C
def STRM_DESC (o : Nat) : Nat := pg 0x1A0 (0x080 + o)
/-- The device-wide counters of R327 in the table's order: whey, incomplete, overrun, rerun, failed, refused, drop. -/
def STRM_CNT (i : Nat) : Nat := pg 0x1A1 (0x040 + 4 * i)
def CLASS_TBL (n w : Nat) : Nat := pg 0x1A2 (0x040 + 16 * n + 4 * w)
def GATH_TBL (n w : Nat) : Nat := pg 0x1A3 (0x040 + 8 * n + 4 * w)
def STRM_VIEW_SEL : Nat := pg 0x1A4 0x040
def STRM_VIEW (o : Nat) : Nat := pg 0x1A4 (0x080 + o)
def KEY_STAT : Nat := pg 0x1A5 0x040
def CH_DIM : Nat := pg 0x1B0 0x040
def CH_ANCHOR : Nat := pg 0x1B0 0x044
def CH_HOOP : Nat := pg 0x1B0 0x048
def CH_MIRROR : Nat := pg 0x1B0 0x04C
def CH_EPOCH : Nat := pg 0x1B0 0x050
def CH_STAT : Nat := pg 0x1B0 0x054
def CH_WEIGHT : Nat := pg 0x1B0 0x058
def CH_CMD : Nat := pg 0x1B0 0x05C
def CH_CNT : Nat := pg 0x1B0 0x060
/-- Seat k of the configured charter and of the charter in force (R521). -/
def CH_SEAT (k : Nat) : Nat := pg (0x1B1 + k / 512) (0x040 + 4 * (k % 512))
def CH_SEAT_NOW (k : Nat) : Nat := pg (0x1B3 + k / 512) (0x040 + 4 * (k % 512))
def ERR_STATUS (p : Nat) : Nat := pg p 0x018
def ERR_MASK (p : Nat) : Nat := pg p 0x01C
def INT_ENABLE (p : Nat) : Nat := pg p 0x024

end Sys2Proof.Machine
end

