-- ==== Sys2Proof/Machine/State.lean ====
section
/-! DEFINITION. The state of the block as plain data: the queue of commands, the register window, the sequencers, the
engines, the memories, streams, movers, spine, links, power and faults. Indexed state is a sparse canonical list
(Machine/Sparse.lean); the key of each is said in its docstring, f a physical folio, c a context. -/

namespace Sys2Proof.Machine

/-- Why a command stops. -/
inductive Fault where
  /-- Raised by an event of the device or its surroundings that the rules do not let happen in this state (the text names the
  condition that fails), and by a bundle of a context that is not running. Safe: the hardware never takes such a step. -/
  | notDue (what : String)
  deriving DecidableEq, Repr

/-- Why a command has no meaning. -/
inductive Refusal where
  /-- Raised by an arm of exec that has no meaning yet. Safe: nothing can be proved of it. -/
  | notModelled (mnemonic : String)
  deriving DecidableEq, Repr

/-- Context states (R399). -/
inductive CtxSt where
  | off | idle | ready | running | suspended | halted
  deriving DecidableEq, Repr

/-- The code of a context state in SEQ_CTXc.STATE (R399). -/
def CtxSt.code : CtxSt → Nat
  | .off => 0 | .idle => 1 | .ready => 2 | .running => 3 | .suspended => 4 | .halted => 5

/-- A dispatch entry: a step's, with the values R413 puts into the registers, or a doorbell's. -/
structure Entry where
  step : Bool
  stream : Nat
  handle : Nat
  seq : Nat
  cseq : Nat
  cursor : Nat
  len : Nat
  attempt : Nat
  oldSlot : Nat
  newSlot : Nat
  deriving DecidableEq, Repr

/-- One lane record of a statistics file (R228): the count, then ss, or mean and m2, as FP32 codes. -/
structure StatRec where
  n : Nat
  a : Nat
  b : Nat
  deriving DecidableEq, Repr

def StatRec.empty : StatRec := ⟨0, 0, 0⟩

/-- One lane record of an argmax file (R251): the FP32 code of the value, and the index. -/
structure ArgRec where
  value : Nat
  index : Nat
  deriving DecidableEq, Repr

def ArgRec.reset : ArgRec := ⟨0, 0⟩
/-- The record VACLR writes (R251). -/
def ArgRec.empty : ArgRec := ⟨0xFF800000, 0xFFFFFFFF⟩

/-- A generator context (R266, R271): seed and key, whether RSET and RSTART have run, and the run state, which lane j holds at
index base + j × 2^40 + t. -/
structure GenCtx where
  seed : BitVec 64
  key : BitVec 32
  set : Bool
  started : Bool
  base : Nat
  t : Nat
  deriving DecidableEq, Repr

def GenCtx.reset : GenCtx := ⟨0, 0, false, false, 0, 0⟩

/-- Why the running context waits at issue (R401, R410, R412, R348, R150, R183, R202, R368, R644): `tagFree` is a TWAIT without a
limit, `inbox` an SSCAN for the carry of its key, `carry` a sewing unit whose last carry pass stands before a full inbox, `token` a
replayed step before the class's bucket. -/
inductive WaitK where
  | tag | tagFree | credit | latch | inbox (key : Nat) | carry | token | queue | inside | sendSlot
  deriving DecidableEq, Repr

/-- The resume record of R418, and beside it the register operands as the suspended bundle read them at its issue (R428), from
which the instruction continues exactly (R419). `save` is the carry file and the lane states of the sewing unit (R195). The same
data describe the resumable instruction that a context stays inside between its boundaries (R644). -/
structure Resume where
  bundle : BitVec 128
  pc : BitVec 13
  kind : BitVec 8
  valid : Bool
  pos : Nat
  sregs : List Word
  aregs : List Addr
  save : List Word
  deriving DecidableEq, Repr

def Resume.empty : Resume := ⟨0, 0, 0, false, 0, [], [], []⟩

/-- A tile of R96 that has been attempted: its place in the instruction, its rerun count, whether it overflowed with budget left,
whether an output is frozen, the accumulators of its outputs, and, while it is due to run again, the operands of each output that
the device keeps (R98). -/
structure DotTile where
  idx : Nat
  n : Nat
  due : Bool
  sat : Bool
  accs : List (List Acc)
  kept : List (List CChunk)
  deriving DecidableEq, Repr

/-- One sequencer context (R396, R399, R410, R413) beside its registers. `inside` is the resumable instruction that it stays inside
(R644), `due` the array tile of that instruction which is to run again before the next boundary (R92, R96), `halting` a debug halt
that waits for a point of R416 (R422). -/
structure Ctx where
  st : CtxSt
  pc : BitVec 13
  ctag : BitVec 13
  rstack : List (BitVec 13)
  queue : List Entry
  entry : Option Entry
  doneQ : List (BitVec 32)
  wait : Option WaitK
  resume : Resume
  inside : Option Resume
  due : Option DotTile
  halting : Bool
  deriving DecidableEq, Repr

def Ctx.reset : Ctx :=
  { st := .off, pc := 0, ctag := 0, rstack := [], queue := [], entry := none, doneQ := [], wait := none, resume := Resume.empty,
    inside := none, due := none, halting := false }

/-- A pending store into instruction memory (R406): the context that stored, bundle index, bundle, and bundles that this context
has still to issue before it lands. -/
structure IStore where
  ctx : Nat
  index : BitVec 13
  bundle : BitVec 128
  left : Nat
  deriving DecidableEq, Repr

/-- Folio tag states (R409). -/
inductive TagSt where
  | free | opened | closed | cancelling | done
  deriving DecidableEq, Repr

/-- A folio tag: state, the context that holds it, the status of its record (R410: 0 OK, 1 CANCELLED, 2 FAILED), and the stream
whose step opened it, none for a doorbell's entry (R421, R422). -/
structure TagRec where
  st : TagSt
  ctx : Nat
  status : Nat
  owner : Option Nat
  deriving DecidableEq, Repr

def TagRec.reset : TagRec := ⟨.free, 0, 0, none⟩

/-- Stream states (R282). -/
inductive StrmSt where
  | free | starting | active | pausing | paused | replay | exporting | exported | ending | fenced | importing
  deriving DecidableEq, Repr

def StrmSt.code : StrmSt → Nat
  | .free => 0 | .starting => 1 | .active => 2 | .pausing => 3 | .paused => 4 | .replay => 5 | .exporting => 6
  | .exported => 7 | .ending => 8 | .fenced => 9 | .importing => 10

def StrmSt.ofCode : Nat → StrmSt
  | 1 => .starting | 2 => .active | 3 => .pausing | 4 => .paused | 5 => .replay | 6 => .exporting
  | 7 => .exported | 8 => .ending | 9 => .fenced | 10 => .importing | _ => .free

/-- A burst in a landing zone (R304, R305, R347): a curd while flits are missing, then held. `timer` is the curd's hold
time left in rclk (R307). `acc` and `spent`: its step has been accepted (R24, R33), with the class's bucket empty (R300). -/
structure Burst where
  seq : Nat
  bid : Nat
  typ : Nat
  fmt : Nat
  len : Nat
  elems : Nat
  crc : Nat
  next : Nat
  got : Nat
  timer : Nat
  zone : Nat
  grans : List Nat
  acc : Bool
  spent : Bool
  deriving DecidableEq, Repr

/-- A step in flight (R24 to R29, R295): its burst, the folios (by logical index, as a mask) it was dispatched to and those
that ended it, the counted attempt, whether this attempt failed before or after release, whether the failure is not counted
(R558) or final (the status code it ends with), the HBM addresses whose reads have failed (R389), the checks of the results that were
released, in step order, with the SEQ of the last of their inputs (R291, R297), the payload the collector holds (R466). `replayed` marks the work between two checkpoints of a replay (R201), `covered` the inputs of the
checkpoint whose results are released. `cold` is a rerun that reads the wheel from HBM (R357), `badRead` the vat word that failed its
check as the broadcast read it (R356), `lost` a wheel that waits for its buddy's mirror (R389). -/
structure Step where
  burst : Burst
  dispatched : Bool
  mask : Nat
  ended : Nat
  attempt : Nat
  failed : Bool
  uncounted : Bool
  readFails : List Nat
  final : Option Nat
  overrun : Bool
  released : Bool
  rchecks : List Nat
  failedAfter : Bool
  mirrorAck : Bool
  rerun : Bool
  replayed : Bool
  covered : Nat
  lastSeq : Nat
  result : List Byte
  cold : Bool
  badRead : Option Nat
  lost : Bool
  deriving DecidableEq, Repr

/-- A stream-table entry (R281, R282, R298, R326) with its descriptor (R284) and what R289 to R313, R509 and R511 keep of it.
`lastAccept` is the rclk of the last acceptance (R33); `cmd` the accepted command not yet complete (R286); `acked` the
buddy's acknowledgement of an initial wheel (R288); `image` that the image burst of an IMPORT has been accepted (R323); `timer` the rclk of IMPORT's acceptance or of the last mirror sent. -/
structure Strm where
  gen : Nat
  st : StrmSt
  cls : Nat
  slot : Bool
  fault : Bool
  resident : Bool
  mirror : Bool
  cseq : Nat
  cursor : Nat
  wheelSeq : Nat
  lastSeq : Nat
  cntWhey : Nat
  cntIncomplete : Nat
  cntOverrun : Nat
  cntRerun : Nat
  cntDrop : Nat
  backlogged : Nat
  key : Nat
  wsize : Nat
  buddy : Nat
  sched : Nat
  init : Nat
  backlog : Nat
  backlogLen : Nat
  backlogUsed : Nat
  backlogRead : Nat
  originSeat : Nat
  originHandle : Nat
  rcheck : Nat
  curd : Option Burst
  held : List Burst
  step : Option Step
  cmd : Option Nat
  erase : Bool
  warm : Bool
  stepped : Bool
  lastAccept : Nat
  timer : Nat
  recordDue : Bool
  acked : Bool
  image : Bool
  deriving DecidableEq, Repr

def Strm.reset : Strm :=
  { gen := 0, st := .free, cls := 0, slot := false, fault := false, resident := false, mirror := false, cseq := 0,
    cursor := 0, wheelSeq := 0, lastSeq := 0, cntWhey := 0, cntIncomplete := 0, cntOverrun := 0, cntRerun := 0,
    cntDrop := 0, backlogged := 0, key := 0, wsize := 0, buddy := 0xFFFF, sched := 0, init := 0, backlog := 0,
    backlogLen := 0, backlogUsed := 0, backlogRead := 0, originSeat := 0, originHandle := 0, rcheck := 0, curd := none,
    held := [], step := none, cmd := none, erase := false, warm := false, stepped := false, lastAccept := 0, timer := 0,
    recordDue := false, acked := false, image := false }

/-- The entry of a stream index that becomes FREE: its generation and counters stay (R281, R298). -/
def Strm.freed (x : Strm) : Strm :=
  { Strm.reset with
    gen := x.gen, cntWhey := x.cntWhey, cntIncomplete := x.cntIncomplete, cntOverrun := x.cntOverrun,
    cntRerun := x.cntRerun, cntDrop := x.cntDrop }

/-- A completion record of the stream commands (R286, R325): handle, operation, code. -/
structure DoneRec where
  handle : Nat
  op : Nat
  code : Nat
  deriving DecidableEq, Repr

/-- A D2D burst flit as it passes to its burst (R613). -/
structure Flit where
  last : Bool
  fidx : Nat
  handle : Nat
  bid : Nat
  payload : List Byte
  deriving DecidableEq, Repr

/-- A key slot (R318): the key, its generation, the export counter. -/
structure KeySlot where
  key : BitVec 256
  gen : BitVec 32
  ctr : Nat
  deriving DecidableEq, Repr

/-- One end of a move (R367): HBM, a vat handle with offset, or the issuing folio's memory at a physical address; or bytes that the
device itself writes (R366). -/
inductive MoveEnd where
  | hbm (a : Nat)
  | vat (h off : Nat)
  | fm (a : Nat)
  | own (bs : List Byte)
  deriving DecidableEq, Repr

/-- Whose move it is: an XFER, with the fetch stream that it releases after its last read (R439); tile `tile` of the fetch stream that
was opened as `opened`; a multicast; or the device's own, for a step (R366). -/
inductive MoveOwner where
  | xfer (rel : Option Nat)
  | tile (strm tile opened : Nat)
  | mcast
  | own
  deriving DecidableEq, Repr

/-- A multicast receive posted by a folio (R383): its destination is a physical address of the folio's memory. -/
structure McRecv where
  folio : Nat
  ctx : Nat
  tag : Nat
  key : Nat
  len : Nat
  dest : Nat
  deriving DecidableEq, Repr

/-- A move in a mover (R367, R368, R381): the issuing folio and context, its work tag, both ends, its length, the number of
granules that have landed (a rising list), and, once its tag is cancelled, the stale granules still to land. `dests` are the
receives of a multicast (R383); `retried` lists the granules whose write was repeated (R389); `taken` says that the mover has taken the
descriptor from its folio's queue (R368). -/
structure Move where
  id : Nat
  folio : Nat
  ctx : Nat
  tag : Nat
  src : MoveEnd
  dst : MoveEnd
  len : Nat
  stripe : Nat
  done : List Nat
  stale : Option (List Nat)
  retried : List Nat
  owner : MoveOwner
  dests : List McRecv
  taken : Bool
  deriving DecidableEq, Repr

/-- A fetch stream (R377 to R380). `landed` lists the tiles that have landed, `opened` numbers its opening, `cancelled` a stream whose
tag was cancelled, which is closed but for the releases that it ignores (R381). -/
structure Fetch where
  tag : Nat
  base : Nat
  stride : Nat
  tileBytes : Nat
  tiles : Nat
  depth : Nat
  ring : MoveEnd
  issued : Nat
  released : Nat
  landed : List Nat
  opened : Nat
  cancelled : Bool
  deriving DecidableEq, Repr

/-- A granule request in the queue of a pseudo-channel (R371): the mover, the move and the granule. -/
structure Req where
  q : Nat
  id : Nat
  g : Nat
  deriving DecidableEq, Repr

/-- A multicast waiting for its receives (R383): the leader, the named folios as a mask of logical indices. -/
structure McLead where
  folio : Nat
  ctx : Nat
  tag : Nat
  key : Nat
  len : Nat
  src : Nat
  mask : Nat
  deriving DecidableEq, Repr

/-- The contribution of a folio that waits in its send slot (R457, R463, R464): the operation (the low four bits of the
collective's opcode), format, sub-operation, count, shared tag, scope, destination, and the contribution's bytes; `field`
is the FOLIO_NFLAGS field of R462, `record` the ROWSTAT record of a GUPD (R227), `key` the key of a summary (R186), `owner` the stream
whose step handed it over, none in a doorbell's entry. -/
structure Contrib where
  op : Nat
  fmt : Nat
  rop : Nat
  count : Nat
  stag : Nat
  scope : Bool
  dest : Nat
  ctx : Nat
  bytes : List Byte
  field : Nat
  record : List Byte := []
  key : Nat := 0
  owner : Option Nat := none
  deriving DecidableEq, Repr

/-- What an engine has written into the send slot, of 8 KiB, and no collective has taken (R457, R463). -/
structure Slot where
  ctx : Nat
  tag : Nat
  bytes : List Byte
  record : List Byte := []
  key : Nat := 0
  deriving DecidableEq, Repr

/-- One half, active or shadow, of an array's weight registers (R108, R109, R443): the format of the tile's ALOAD, none where
nothing was loaded; complex or not; the 16-bit W and X words of row r, column c at place 64r + c, and those of the imaginary parts
beside (an empty plane is all zeros); the column scale bytes. -/
structure WTile where
  fmt : Option Nat
  cplx : Bool
  w : List Nat
  x : List Nat
  wi : List Nat
  xi : List Nat
  sc : List Nat
  deriving DecidableEq, Repr

def WTile.empty : WTile := { fmt := none, cplx := false, w := [], x := [], wi := [], xi := [], sc := [] }

/-- An open output tile of accumulate mode (R115 to R119): its context and work tag, its first slot, which names it, its shape, the chunks taken, and the accumulators of its outputs, row by row. -/
structure OpenTile where
  ctx : Nat
  tag : Nat
  slot : Nat
  m : Nat
  cols : Nat
  fmt : Nat
  cplx : Bool
  strict : Bool
  len : Nat
  chunks : Nat
  accs : List (List Acc)
  deriving DecidableEq, Repr

/-- A matrix array (R107, R108): active and shadow weight tiles, open output tiles, and the accumulators of the output tile that a
fold has in progress (R122), with what is kept of its operands. -/
structure ArrSt where
  act : WTile
  shd : WTile
  tiles : List OpenTile
  fold : List (List Acc)
  kept : List (List CChunk)
  deriving DecidableEq, Repr

def ArrSt.reset : ArrSt := { act := WTile.empty, shd := WTile.empty, tiles := [], fold := [], kept := [] }

/-- An MVMUL of which a row is due to run again (R96, R98, R147), or that is queued behind one (R151): its slot, context, work
tag, register operands and generator context as it issued (R266, R428), and its rows. -/
structure DotJob where
  e : Eng
  ctx : Nat
  tag : Nat
  sregs : List Word
  aregs : List Addr
  gen : GenCtx
  tiles : List DotTile
  deriving DecidableEq, Repr

/-- A GUPD that is open or queued (R158): its fields, k4 to k7, and the pre-activations that have arrived. -/
structure Gupd where
  cls : Nat
  units : Nat
  pslot : Nat
  old : Nat
  new : Nat
  rows : Nat
  stride : Nat
  ks : List Nat
  compat : Bool
  rowstat : Nat
  ctx : Nat
  tag : Nat
  pre : List Nat
  deriving DecidableEq, Repr

/-- A carry (R183): key, the work tag that sent it and its seat (0x3FF for this device), the physical folio of this device whose
sewing unit passed it, and its elements as high and low FP32 codes. -/
structure Carry where
  key : Nat
  tag : Nat
  seat : Nat
  unit : Option Nat
  vals : List (Nat × Nat)
  deriving DecidableEq, Repr

/-- A power sequence in progress (R530, R537, R540): the state it goes to, the one it comes from, the rclk at which the entry or the
present step of the exit started, the exit steps to come, the delays of the entry or of those steps, which the sequence keeps from its
start (R539), whether the present step has timed out once (R542), a wake latched after E0, and the causes of the wake (R549). -/
structure PwrSeq where
  entering : Bool
  target : Nat
  old : Nat
  since : Nat
  steps : List Nat
  delays : List Nat
  retried : Bool
  latched : Bool
  causes : Nat
  deriving DecidableEq, Repr

/-- A transaction slot (R592, R602): `staged` holds word addresses, the bits staged and their values, `len` the lease it was opened
with, `out` the outcome that TXN_SLOT_ACK has to clear (R586): 1 COMMITTED or FAILED, 2 ORPHANED. -/
structure Txn where
  tag : Nat
  gmask : Nat
  st : Nat
  port : Nat
  staged : List (Nat × Nat × Nat)
  code : Nat
  res : Nat
  owner : Nat
  lease : Nat
  len : Nat
  out : Nat
  deriving DecidableEq, Repr

def Txn.reset : Txn := ⟨0, 0, 0, 0, [], 0, 0, 0, 0, 0, 0⟩

/-- A mailbox operation in progress (R607, R608): its OP, the port that started it, whether its last inbound chunk has come,
the image its chunks carry, the chunks moved, the rclk at which CHUNK rose, and ARG0 and ARG1 as it started. -/
structure MbxOp where
  op : Nat
  port : Port
  lastChunk : Bool
  fw : Option FwImage
  sched : Option Sched
  sent : Nat
  since : Nat
  a0 : Nat
  a1 : Nat
  deriving DecidableEq, Repr

/-- A message that a link has brought to this device (R481, R482). -/
structure LMsg where
  typ : Nat
  src : Nat
  epoch : Nat
  port : Nat
  payload : List Byte
  deriving DecidableEq, Repr

/-- A message whose flits are still arriving: virtual channel, sender, number, next flit index and the bytes so far (R481). -/
structure Partial where
  vc : Nat
  src : Nat
  msgid : Nat
  next : Nat
  bytes : List Byte
  deriving DecidableEq, Repr

/-- A Linueton port beside its registers (R483, R485, R488, R489): next sequence number expected and sent, last one
acknowledged by the peer, flits in the retry buffer with their attempts, pool credits held, reserved credits held out (R485,
virtual channel and hop class), a NAK that is due, a resend that was asked for and is awaited, knocks left to repeat, flits that wait for a credit, the virtual channel served last, pool
credits the peer holds, and credits to return to it. -/
structure LinkPort where
  rxSeq : Nat
  txSeq : Nat
  acked : Nat
  retry : List (Nat × List Byte)
  attempts : Nat
  pool : Nat
  resv : List (Nat × Nat)
  nak : Bool
  lost : Bool
  knocks : Nat
  spare : Bool
  queue : List (List Byte)
  last : Nat
  rxPool : Nat
  owed : List (Nat × Nat)
  deriving DecidableEq, Repr

def LinkPort.reset : LinkPort := ⟨0, 0, 1023, [], 0, 512, [], false, false, 0, false, [], 0, 512, []⟩

/-- A mirror-table entry (R509 to R511). -/
structure Mirror where
  originSeat : Nat
  originHandle : Nat
  ownerSeat : Nat
  ownerHandle : Nat
  slot : Bool
  cseq : Nat
  wsize : Nat
  cls : Nat
  resident : Bool
  sched : Nat
  deriving DecidableEq, Repr

/-- A proposal of a charter (R501): epoch, members, those of them that join, votes given, the origins that the voters have taken
over, and the rclk at which it was sent. -/
structure Proposal where
  epoch : Nat
  members : List Nat
  joins : List Nat
  votes : List Nat
  taken : List (Nat × Nat)
  forming : Bool
  sent : Nat
  deriving DecidableEq, Repr

/-- A takeover that waits for its time (R515): mirror entry, the rclk at which it is due, and whether it has been counted as
finding no index FREE. -/
structure Takeover where
  entry : Nat
  due : Nat
  counted : Bool
  deriving DecidableEq, Repr

/-- The hoop and the votes (R501, R504 to R508). `ends` is the rclk at which the hoop ends; `round` and `roundAt` the
renewal round; `racks` the seats that answered it; `voted` the epochs voted for; `refused` the seats that get no RACK; `missed`
the rounds a seat has left unanswered (R507); `backoff` the rclk before which no proposal is made; `formAt` the rclk of
CH_CMD.FORM or of the last retry; `joiners` the seats whose JOIN waits for a proposal (R518). -/
structure Hoop where
  standing : Bool
  ends : Nat
  round : Nat
  roundAt : Nat
  racks : List Nat
  voted : List Nat
  refused : List Nat
  proposal : Option Proposal
  missed : List (Nat × Nat)
  backoff : Nat
  formAt : Nat
  joiners : List Nat
  deriving DecidableEq, Repr

def Hoop.reset : Hoop := ⟨true, 0, 0, 0, [], [], [], none, [], 0, 0, []⟩

/-- A counted event of the sliding windows of R559, R564, R565 and R389: unit, code, address or engine, rclk. -/
structure FEvent where
  unit : Nat
  code : Nat
  info : Nat
  time : Nat
  deriving DecidableEq, Repr

/-- Sideband messages to the host die (R587, R616), and I3C in-band interrupts (R620). -/
inductive SbMsg where
  | interrupt (page : Nat)
  | inBand (page : Nat)
  | state (d : Nat)
  deriving DecidableEq, Repr

/-- The trace-data stream (R624): the bits of the record being sent that are still to come, a record that waits, whether records were
dropped since the last one taken, and the bits that the bumps carried at each edge. -/
structure Trace where
  sending : List Bool
  next : Option (BitVec 32)
  dropped : Bool
  out : List (List Bool)
  deriving DecidableEq, Repr
def Trace.reset : Trace := ⟨[], none, false, []⟩
/-- What a sideband bump drives (R624). -/
inductive SbOut where
  | highZ
  | level (high : Bool)
  | clock
  | data
  deriving DecidableEq, Repr

/-- A folio substitution or reload in progress (R560, R575): the spare, the logical index. -/
structure Subst where
  spare : Nat
  logical : Nat
  deriving DecidableEq, Repr

/-- The state of the block. -/
structure State where
  /-- The commands that wait, first in first out. -/
  pending : List Instr
  /-- The register window by byte address (R580); a word not listed holds its reset value. -/
  regs : Sp Word
  /-- TXN_BEGIN_STAT (key 2 × port) and TXN_SEL (key 2 × port + 1), one copy per port (R602). -/
  portRegs : Sp Word
  /-- rclk count since PORST_N (R568). -/
  rclk : Nat
  /-- PORST_N is asserted (R622). -/
  inReset : Bool
  /-- WARM_N is asserted, its reset under way (R636). -/
  inWarm : Bool
  /-- A reset that waits in TRIP until every sensor reads below 95 °C (R548): 0 none, 1 PORST_N asserted, 2 and released again,
  3 WARM_N asserted, 4 and released again. -/
  tripReset : Nat
  /-- CH_CMD.FORM has been written since PORST_N (R637). -/
  formed : Bool
  /-- The stream-table image was saved (R636, R638). -/
  saved : Bool
  /-- The stream table as saved in HBM (R636). -/
  savedTable : Sp Strm
  /-- The image store and the staged image (R574, R632). -/
  image : Option FwImage
  staged : Option FwImage
  /-- Scalar registers s0 to s31, key (4f + c) × 32 + r (R396). -/
  sreg : Sp Word
  /-- Address registers a0 to a15, key (4f + c) × 16 + r. -/
  areg : Sp Addr
  /-- Loop counters, key (4f + c) × 4 + n. -/
  lc : Sp Word
  /-- Sequencer contexts, key 4f + c. -/
  ctxs : Sp Ctx
  /-- Pending instruction stores of a folio, oldest first (R406). -/
  istores : Sp (List IStore)
  /-- Folio tags, key 64 × logical folio + k (R408, R409). -/
  tags : Sp TagRec
  /-- Flags held against a work tag (R75), key 8192f + tag, laid out as FOLIO_NFLAGS. -/
  heldFlags : Sp Nat
  /-- Overflow counts held against a work tag (R102), key 8192f + tag: SAT and RERUN. -/
  heldOvr : Sp (Nat × Nat)
  /-- Instruction memory, key 131072f + address (R329). -/
  imem : Memory
  /-- Folio memory, key 2^20 f + address. -/
  fm : Memory
  /-- Operand buffers, key (4f + array) × 65536 + address. -/
  ob : Memory
  /-- Gate state buffer, key 8192f + address. -/
  gsb : Memory
  /-- Gate program store, key 512f + address. -/
  gps : Memory
  /-- Function store, key 4096f + address. -/
  fns : Memory
  /-- Vat, by its 26-bit address (R340). -/
  vat : Memory
  /-- HBM, by its 36-bit address (R369); a retired pseudo-channel's granules lie in the spare region (R390). -/
  hbm : Memory
  /-- The 64-bit words of the on-die memories whose parity is bad (R355), key 2^32 × SRC of FOLIO_PERR, 6 for the vat, plus the number
  of the word in that memory. -/
  bad : Sp Bool
  /-- What the step broadcast has written into the spine receive buffers for the entry of a context, key 4f + c (R150, R457). -/
  casts : Sp (List Byte)
  /-- Vector registers, key (32f + v) × 64 + lane; masks vm1 to vm3, key 4f + k (R236). -/
  vreg : Sp Word
  vmask : Sp (BitVec 64)
  /-- Statistics files, key (2f + file) × 64 + lane, and what a file holds, key 2f + file: 0 nothing since its clear, 1 sums of
  squares, 2 means and variances (R250); argmax files, keyed as the statistics files. -/
  sf : Sp StatRec
  sfKind : Sp Nat
  am : Sp ArgRec
  /-- Lane sums SA, key 64f + lane, and SROW, key f, in the sum format (R220). -/
  sa : Sp FV
  srow : Sp FV
  /-- The work tag whose softmax the lane sums hold, key f (R233). -/
  saTag : Sp (Option Nat)
  /-- The matrix arrays, key 4f + array; their accumulator files, key ((4f + array) × 64 + column) × 32 + slot (R108). -/
  arr : Sp ArrSt
  accf : Sp Word
  /-- The MVP input latches (R148): elements, key (2f + latch) × 8192 + element; scale bytes, key (2f + latch) × 256 + block; and
  the target format of the last load with its complex bit, key 2f + latch. -/
  latchEl : Sp (BitVec 64)
  latchSc : Sp (BitVec 8)
  latchFmt : Sp (Option (Nat × Bool))
  /-- MVMULs that a rerun keeps, oldest first, key f (R96, R151). -/
  jobs : Sp (List DotJob)
  /-- GUPDs that are open or queued, oldest first, key f (R158). -/
  gateQ : Sp (List Gupd)
  /-- Array results on their way to the gate pipeline for which no GUPD is open (R133): work tag and FP32 code, key f. -/
  gatePend : Sp (List (Nat × Nat))
  /-- The carry file of a sewing unit (R182) and the states its lanes hold: key 512f + element, the low parts 256 above. -/
  carryf : Sp Word
  sew : Sp Word
  /-- Carry inboxes, key f (R183); carries on their way, key logical folio; the seats that hold carries of a work tag (R184). -/
  inbox : Sp (List Carry)
  carries : Sp (List Carry)
  carrySent : List (Nat × Nat)
  /-- Generator contexts, key 4f + c (R266). -/
  gens : Sp GenCtx
  /-- What an engine has written into a folio's send slot (R463), key f. -/
  slots : Sp (Option Slot)
  /-- Contributions waiting for their collective (R464), key f. -/
  contribs : Sp (List Contrib)
  /-- The position in its sequence of the collective a plane serves next (R464), key g. -/
  plane : Sp Nat
  /-- Results of other devices for a SCOPE 1 collective (R472): shared tag, seat, bytes. -/
  remote : List (Nat × Nat × List Byte)
  /-- Moves in the movers, taken ones first in their order (R368), key quire; the number of the next one; the turn of a mover that took
  a descriptor last, 5 for its own moves. -/
  movers : Sp (List Move)
  moveId : Nat
  turns : Sp Nat
  /-- Queues of granule requests of the pseudo-channels, key 32 × stack + pseudo-channel (R371). -/
  pcQueue : Sp (List Req)
  /-- Fetch streams, key (4f + c) × 8 + stream (R377). -/
  fetch : Sp (Option Fetch)
  /-- Multicasts that wait and receives that are posted (R383). -/
  mleads : List McLead
  mrecvs : List McRecv
  /-- Rings: credits and tail position, key ring number (R348); occupied granules of a zone, key handle (R347). -/
  credits : Sp Nat
  ringTail : Sp Nat
  ringHead : Sp Nat
  occupied : Sp (List Nat)
  /-- The stream table (R281). -/
  strm : Sp Strm
  /-- Token buckets of the classes (R300). -/
  tokens : Sp Nat
  /-- The completion FIFO of the stream commands, and completions held for space (R286). -/
  doneFifo : List DoneRec
  doneHeld : List DoneRec
  /-- Key slots (R318). -/
  keys : Sp (Option KeySlot)
  /-- Loaded schedules (R609). -/
  scheds : List Sched
  /-- Transactions, key slot (R592). -/
  txns : Sp Txn
  /-- The mailbox operation in progress (R607). -/
  mbx : Option MbxOp
  /-- MBX_STAT.CODE holds the outcome of an operation that has ended (R586). -/
  mbxValid : Bool
  /-- Writes of W1C, W1S and WO bits to domains that are off, with the port's code, oldest first (R583). -/
  heldWrites : List (Nat × Nat × Nat)
  /-- A level request that waits for its decision (R590). -/
  levelReq : Option Nat
  /-- Flits the D2D port has passed to the bursts (R613), messages handed over (R24), sideband messages sent (R616). -/
  burstIn : List Flit
  outbox : List (List Byte)
  sideband : List SbMsg
  /-- D2D port (R613 to R615): next sequence number expected and sent, retry buffer (a flit without its trailer), attempts,
  transmit credits, the next flit of the oldest message, credits to return, a NAK due, and the flits sent. -/
  d2dRx : Nat
  d2dTx : Nat
  d2dRetry : List (Nat × List Byte)
  d2dAttempts : Nat
  d2dCredits : Nat
  d2dPos : Nat
  d2dOwed : Nat
  d2dNak : Bool
  d2dLost : Bool
  d2dOut : List (List Byte)
  /-- The data bits of the JTAG register WINDOW (R625). -/
  jtagData : BitVec 64
  /-- Link ports, key port. -/
  links : Sp LinkPort
  /-- Messages and partial messages the links brought (R481); flits handed to a port (R484). -/
  linkIn : List LMsg
  partials : List Partial
  linkOut : List (Nat × List Byte)
  /-- The next message number of each virtual channel (R481). -/
  linkMsgId : Sp Nat
  /-- Light-path messages sent to other devices that a port may still hold (R382): folio, context, message number. -/
  lpSent : List (Nat × Nat × Nat)
  /-- Link states known to be down, key 8 × seat + port, and the last LSTATE number of each seat (R496). -/
  linkDown : Sp Bool
  lstateSeq : Sp Nat
  /-- Hoop and votes (R501 to R508). -/
  hoop : Hoop
  /-- Mirror table (R509), and takeovers that wait (R515). -/
  mirrors : Sp (Option Mirror)
  takeovers : List Takeover
  /-- Power sequences in progress, key domain code of PM_VOTE_STAT (R549). -/
  pwr : Sp (Option PwrSeq)
  /-- Domains marked failed (R542). -/
  pwrFailed : Sp Bool
  /-- The rclk at which the planner's vote was placed (R536). -/
  planAt : Option Nat
  /-- REFCLK is absent; rails outside their bands (R523, R557). -/
  refLost : Bool
  railsOut : List Rail
  /-- The rclk until which a core rail that came back still holds releases (R557). -/
  quietUntil : Nat
  /-- Substitutions in progress, key physical index of the retired folio (R560). -/
  substs : Sp (Option Subst)
  /-- Gatherings whose image switch is in progress (R575), as a mask. -/
  switching : Nat
  /-- Counted fault events (R559). -/
  events : List FEvent
  /-- Pins driven low: FAULT_N, WAKE_N, THERM_N (R544). -/
  faultLow : Bool
  wakeLow : Bool
  thermLow : Bool
  /-- The trace-data stream of the sideband bumps (R624). -/
  trace : Trace
  /-- The model's own counter of free values (Config.freeValue); no rule of the spec names it. -/
  fresh : Nat
  deriving DecidableEq, Repr

/-- The state right after reset: PORST_N is asserted, every register holds its reset value (Machine/Regs.lean regReset), every
memory lists nothing, nothing waits. A register for which the spec gives no reset value holds zero (log entries 3 and 4). -/
def State.reset : State :=
  { pending := [], regs := [], portRegs := [], rclk := 0, inReset := true, inWarm := false, tripReset := 0,
    formed := false, saved := false, savedTable := [], image := none, staged := none, sreg := [], areg := [],
    lc := [], ctxs := [], istores := [], tags := [], heldFlags := [], heldOvr := [], imem := [], fm := [],
    ob := [], gsb := [], gps := [], fns := [], vat := [], hbm := [], bad := [], casts := [], vreg := [],
    vmask := [], sf := [], sfKind := [], am := [], sa := [], srow := [], saTag := [], arr := [], accf := [],
    latchEl := [], latchSc := [], latchFmt := [], jobs := [], gateQ := [], gatePend := [], carryf := [],
    sew := [], inbox := [], carries := [], carrySent := [], gens := [], slots := [], contribs := [], plane := [], remote := [],
    movers := [], moveId := 0, turns := [], pcQueue := [], fetch := [], mleads := [], mrecvs := [], credits := [], ringTail := [],
    ringHead := [], occupied := [], strm := [], tokens := [], doneFifo := [], doneHeld := [], keys := [],
    scheds := [], txns := [], mbx := none, mbxValid := false, heldWrites := [], levelReq := none,
    burstIn := [], outbox := [], sideband := [], d2dRx := 0, d2dTx := 0, d2dRetry := [], d2dAttempts := 0,
    d2dCredits := 0, d2dPos := 0, d2dOwed := 0, d2dNak := false, d2dLost := false, d2dOut := [], jtagData := 0, links := [],
    linkIn := [], partials := [], linkOut := [], linkMsgId := [], lpSent := [], linkDown := [], lstateSeq := [],
    hoop := Hoop.reset, mirrors := [], takeovers := [], pwr := [], pwrFailed := [], planAt := none,
    refLost := false, railsOut := [], quietUntil := 0, substs := [], switching := 0, events := [],
    faultLow := false, wakeLow := false, thermLow := false, trace := Trace.reset, fresh := 0 }

end Sys2Proof.Machine
end

