-- ==== Sys2Proof/Machine/Ops.lean ====
section
/-! DEFINITION. The named operations over the state that every family shares: register words and their fields, contexts,
folio maps, interrupt lines, the fault log, flags held against work tags, dispatch entries, traps and the issue of a bundle. -/

namespace Sys2Proof.Machine

/-- What a meaning answers. -/
abbrev Res := Host.Outcome State Fault Refusal

/-- An event that the rules do not let happen in this state. -/
def notDue (what : String) : Res := .fault (.notDue what)

/-! ## Register words -/

/-- The value of a register word (R580); an unlisted word holds its reset value. -/
def State.reg (s : State) (a : Nat) : Nat := (Sp.get regReset s.regs a).toNat
/-- A register word with a new value. -/
def State.setReg (s : State) (a v : Nat) : State := { s with regs := Sp.set regReset s.regs a (BitVec.ofNat 32 v) }
/-- The field [hi:lo] of a register word. -/
def State.fld (s : State) (a hi lo : Nat) : Nat := bits (s.reg a) hi lo
/-- A number with its field [hi:lo] replaced. -/
def putBits (x hi lo v : Nat) : Nat := x - bits x hi lo * 2 ^ lo + (v % 2 ^ (hi - lo + 1)) * 2 ^ lo
/-- A register word with its field [hi:lo] replaced. -/
def State.setFld (s : State) (a hi lo v : Nat) : State := s.setReg a (putBits (s.reg a) hi lo v)
/-- A counter field that holds at its largest value, raised by `k`. -/
def State.bump (s : State) (a hi lo k : Nat) : State := s.setFld a hi lo (min (s.fld a hi lo + k) (2 ^ (hi - lo + 1) - 1))
/-- One bit of a register word. -/
def State.rbit (s : State) (a k : Nat) : Bool := bit (s.reg a) k
def State.setBit (s : State) (a k : Nat) (b : Bool) : State := s.setFld a k k (if b then 1 else 0)

/-- The accepted interface level (R590). -/
def State.level (s : State) : Nat := s.fld IFACE_LEVEL 7 4
/-- Does the accepted level show a page (R582)? -/
def State.pageShown (s : State) (p : Nat) : Bool :=
  match pageInfo p with
  | some x => decide (x.2 ≤ s.level)
  | none => false
/-- FOLIO_CTRL.MODE of a folio (R119): 0 normal service, 1 start-up, 2 test, 3 recovery, 4 debug. -/
def State.mode (s : State) (n : Nat) : Nat := s.fld (FOLIO_CTRL n) 2 0
/-- Is the device withdrawn (R565, R572)? -/
def State.withdrawn (s : State) : Bool := s.rbit FLT_STAT 29

/-! ## Folios, gatherings, classes -/

/-- The physical folio of a logical index (R459). -/
def State.phys (s : State) (k : Nat) : Nat := s.fld (SPN_LEAF k) 5 0
/-- Is a logical index vacant (R562)? -/
def State.vacant (s : State) (k : Nat) : Bool := s.rbit (FOLIO_VAC (k / 32)) (k % 32)
/-- Is a physical folio retired (R559)? -/
def State.retired (s : State) (n : Nat) : Bool := s.rbit (FOLIO_RET (n / 32)) (n % 32)
/-- The logical index of a physical folio (R22), if it has one. -/
def State.logical (s : State) (n : Nat) : Option Nat :=
  (List.range 48).find? (fun k => s.phys k == n && !s.vacant k)
/-- The mask of a gathering (R302). -/
def State.gmask (s : State) (g : Nat) : Nat := s.reg (GATH_TBL g 0) + s.fld (GATH_TBL g 1) 15 0 * 2 ^ 32
def State.gathEn (s : State) (g : Nat) : Bool := s.rbit (GATH_TBL g 1) 31
def State.gathRsv (s : State) (g : Nat) : Bool := s.rbit (GATH_TBL g 1) 30
/-- The logical folios of a mask in ascending order. -/
def members (m : Nat) : List Nat := (List.range 48).filter (fun k => bit m k)
/-- The enabled gathering of a logical folio (R302). -/
def State.gathOf (s : State) (k : Nat) : Option Nat := (List.range 16).find? (fun g => s.gathEn g && bit (s.gmask g) k)
/-- The gathering of a physical folio. -/
def State.gathOfPhys (s : State) (n : Nat) : Option Nat := (s.logical n).bind s.gathOf
/-- Fields of a class-table entry (R299). -/
def State.clsGath (s : State) (k : Nat) : Nat := s.fld (CLASS_TBL k 2) 23 16
def State.clsEn (s : State) (k : Nat) : Bool := s.rbit (CLASS_TBL k 2) 24
def State.clsRt (s : State) (k : Nat) : Bool := s.rbit (CLASS_TBL k 2) 25
def State.clsHold (s : State) (k : Nat) : Nat := s.fld (CLASS_TBL k 0) 31 16
def State.clsBudget (s : State) (k : Nat) : Nat := s.fld (CLASS_TBL k 0) 15 0
def State.clsDepth (s : State) (k : Nat) : Nat := s.fld (CLASS_TBL k 1) 31 24
def State.clsTokenInt (s : State) (k : Nat) : Nat := s.fld (CLASS_TBL k 1) 23 0
def State.clsBurstMax (s : State) (k : Nat) : Nat := s.fld (CLASS_TBL k 2) 15 0

/-- The tokens in a class's bucket (R300). -/
def State.tokensOf (s : State) (k : Nat) : Nat := Sp.get (fun _ => 0) s.tokens k
def State.setTokens (s : State) (k v : Nat) : State := { s with tokens := Sp.set (fun _ => 0) s.tokens k v }

/-- The context descriptor of a context as a 128-bit number (R397). -/
def State.desc (s : State) (n c : Nat) : Nat :=
  s.reg (SEQ_DESC n c 0) + s.reg (SEQ_DESC n c 1) * 2 ^ 32 + s.reg (SEQ_DESC n c 2) * 2 ^ 64 + s.reg (SEQ_DESC n c 3) * 2 ^ 96
def State.dEntry (s : State) (n c : Nat) : Nat := bits (s.desc n c) 111 99
def State.dFmbase (s : State) (n c : Nat) : Nat := bits (s.desc n c) 95 88
def State.dFmsize (s : State) (n c : Nat) : Nat := bits (s.desc n c) 87 79
def State.dTaglo (s : State) (n c : Nat) : Nat := bits (s.desc n c) 71 66
def State.dTagn (s : State) (n c : Nat) : Nat := bits (s.desc n c) 65 59
def State.dVbase (s : State) (n c : Nat) : Nat := bits (s.desc n c) 58 56
def State.dVcnt (s : State) (n c : Nat) : Nat := bits (s.desc n c) 55 52
def State.dVm (s : State) (n c : Nat) : Nat := bits (s.desc n c) 51 49
def State.dVf (s : State) (n c : Nat) : Nat := bits (s.desc n c) 48 45
def State.dWlim (s : State) (n c : Nat) : Nat := bits (s.desc n c) 44 29
def State.dClasses (s : State) (n c : Nat) : Nat := bits (s.desc n c) 127 112
def State.ctxEn (s : State) (n c : Nat) : Bool := s.rbit (SEQ_CTX n c) 31

/-- The state of a folio's power domain in PM_FOLIO_STATEi (R549). -/
def State.folioState (s : State) (n : Nat) : Nat := s.fld (PM_FOLIO_STATE (n / 8)) (4 * (n % 8) + 3) (4 * (n % 8))
def State.setFolioState (s : State) (n v : Nat) : State := s.setFld (PM_FOLIO_STATE (n / 8)) (4 * (n % 8) + 3) (4 * (n % 8)) v

/-! ## Contexts and their registers -/

def State.ctx (s : State) (n c : Nat) : Ctx := Sp.get (fun _ => Ctx.reset) s.ctxs (4 * n + c)
def State.setCtx (s : State) (n c : Nat) (x : Ctx) : State :=
  { s with ctxs := Sp.set (fun _ => Ctx.reset) s.ctxs (4 * n + c) x }
/-- s(r), a(r), lc(r) of a context (R396). -/
def State.sr (s : State) (n c r : Nat) : Nat := (Sp.get (fun _ => 0) s.sreg ((4 * n + c) * 32 + r)).toNat
def State.setSr (s : State) (n c r v : Nat) : State :=
  { s with sreg := Sp.set (fun _ => 0) s.sreg ((4 * n + c) * 32 + r) (BitVec.ofNat 32 v) }
def State.ar (s : State) (n c r : Nat) : Nat := (Sp.get (fun _ => 0) s.areg ((4 * n + c) * 16 + r)).toNat
def State.setAr (s : State) (n c r v : Nat) : State :=
  { s with areg := Sp.set (fun _ => 0) s.areg ((4 * n + c) * 16 + r) (BitVec.ofNat 64 v) }
def State.lcr (s : State) (n c r : Nat) : Nat := (Sp.get (fun _ => 0) s.lc ((4 * n + c) * 4 + r)).toNat
def State.setLcr (s : State) (n c r v : Nat) : State :=
  { s with lc := Sp.set (fun _ => 0) s.lc ((4 * n + c) * 4 + r) (BitVec.ofNat 32 v) }
/-- The pair s(r), s(r + 1) as a number, the low word first. -/
def State.srPair (s : State) (n c r : Nat) : Nat := s.sr n c r + s.sr n c (r + 1) * 2 ^ 32
/-- The context of a folio that runs, if one does (R399). -/
def State.running (s : State) (n : Nat) : Option Nat := [3, 2, 1, 0].find? (fun c => (s.ctx n c).st == .running)

/-! ## Tags -/

/-- The record of folio tag k of logical folio lf (R409). -/
def State.tag (s : State) (lf k : Nat) : TagRec := Sp.get (fun _ => TagRec.reset) s.tags (64 * lf + k)
def State.setTag (s : State) (lf k : Nat) (r : TagRec) : State :=
  { s with tags := Sp.set (fun _ => TagRec.reset) s.tags (64 * lf + k) r }
/-- The work tag of folio tag k of logical folio lf (R408). -/
def folioTag (lf k : Nat) : Nat := 4096 + 64 * lf + k

/-! ## Streams -/

def State.str (s : State) (i : Nat) : Strm := Sp.get (fun _ => Strm.reset) s.strm i
def State.setStr (s : State) (i : Nat) (x : Strm) : State := { s with strm := Sp.set (fun _ => Strm.reset) s.strm i x }
/-- The handle of a stream index (R281). -/
def State.handle (s : State) (i : Nat) : Nat := (s.str i).gen * 4096 + i
def sat16 (x : Nat) : Nat := min x 0xFFFF

/-! ## Words with bad parity (R355) -/

/-- The memory of a code of SRC (R362); 6 is the vat. -/
def State.mem (s : State) (m : Nat) : Memory :=
  match m with | 0 => s.fm | 1 => s.ob | 2 => s.imem | 3 => s.fns | 4 => s.gsb | 5 => s.gps | _ => s.vat
def State.setMem (s : State) (m : Nat) (x : Memory) : State :=
  match m with
  | 0 => { s with fm := x } | 1 => { s with ob := x } | 2 => { s with imem := x } | 3 => { s with fns := x } | 4 => { s with gsb := x }
  | 5 => { s with gps := x } | _ => { s with vat := x }
/-- The bytes that a folio has of each memory. -/
def memSpan (m : Nat) : Nat :=
  match m with | 0 => 2 ^ 20 | 1 => 2 ^ 18 | 2 => 131072 | 3 => 4096 | 4 => 8192 | 5 => 512 | _ => 0
/-- The word at an address of a folio's memory, or of the vat. -/
def wordKey (n m a : Nat) : Nat := m * 2 ^ 32 + (n * memSpan m + a) / 8
/-- The words that lie whole in the `len` bytes from `k` of memory m are written with valid parity. -/
def cured (bad : Sp Bool) (m k len : Nat) : Sp Bool := Sp.erase bad (m * 2 ^ 32 + (k + 7) / 8) ((k + len) / 8 - (k + 7) / 8)
/-- Bytes written at key k of memory m; words written whole get valid parity, a bad one written in part stays bad. -/
def State.put (s : State) (m k : Nat) (bs : List Byte) : State :=
  { s.setMem m ((s.mem m).write k bs) with bad := cured s.bad m k bs.length }
/-- `len` bytes from key k of memory m back at zero, with valid parity (R360). -/
def State.wipe (s : State) (m k len : Nat) : State :=
  { s.setMem m (Sp.erase (s.mem m) k len) with bad := cured s.bad m k len }
def State.isBad (s : State) (w : Nat) : Bool := Sp.get (fun _ => false) s.bad w
/-- The first word with bad parity in a range of memory m, as its key there. -/
def State.badIn (s : State) (m k len : Nat) : Option Nat :=
  (s.bad.find? (fun p => decide (m * 2 ^ 32 + k / 8 ≤ p.1) && decide (p.1 < m * 2 ^ 32 + (k + len + 7) / 8))).map (fun p => 8 * (p.1 - m * 2 ^ 32))
def State.markBad (s : State) (n m a : Nat) : State := { s with bad := Sp.set (fun _ => false) s.bad (wordKey n m a) true }

/-! ## The places of HBM granules (R369, R390) -/

/-- The state of pseudo-channel p of stack k (R393): 0 active, 1 draining, 2 retired. -/
def State.pcState (s : State) (k p : Nat) : Nat := s.fld (HBM_PC_STATE k (p / 16)) (2 * (p % 16) + 1) (2 * (p % 16))
/-- The stack of an HBM address. -/
def hbmStack (a : Nat) : Nat := bits a 9 8
/-- The sibling of pseudo-channel p that holds location ℓ, and the address in the spare region of the granule's place there. -/
def sibling (p l : Nat) : Nat := if l % 31 < p then l % 31 else l % 31 + 1
def spareOf (a : Nat) : Nat :=
  let l := a / 2 ^ 15
  (0x1F0000 + l / 31) * 2 ^ 15 + sibling (bits a 14 10) l * 2 ^ 10 + a % 2 ^ 10
/-- Is an address of the usable range? -/
def usable (a : Nat) : Bool := decide (a < 0xF80000000)
/-- The place that holds a byte of HBM. -/
def State.hbmPlace (s : State) (a : Nat) : Nat := if usable a && s.pcState (hbmStack a) (bits a 14 10) == 2 then spareOf a else a
/-- Has every stack all its pseudo-channels active? -/
def State.pcsActive (s : State) : Bool := (List.range 4).all (fun k => s.reg (HBM_PC_STATE k 0) == 0 && s.reg (HBM_PC_STATE k 1) == 0)
def State.hbmBytes (s : State) (a n : Nat) : List Byte :=
  if s.pcsActive then s.hbm.bytes a n else (List.range n).map (fun i => s.hbm.byte (s.hbmPlace (a + i)))
def State.hbmLoad (s : State) (a n : Nat) : Nat := ofBytes (s.hbmBytes a n)
/-- One byte written at its place, and at the sibling's beside it while its pseudo-channel drains. -/
def State.hbmByteTo (s : State) (m : Memory) (a : Nat) (b : Byte) : Memory :=
  let m1 := m.setByte (s.hbmPlace a) b
  if usable a && s.pcState (hbmStack a) (bits a 14 10) == 1 then m1.setByte (spareOf a) b else m1
def State.hbmWrite (s : State) (a : Nat) (bs : List Byte) : State :=
  if s.pcsActive then { s with hbm := s.hbm.write a bs }
  else { s with hbm := ((List.range bs.length).zip bs).foldl (fun m p => s.hbmByteTo m (a + p.1) p.2) s.hbm }
def State.hbmErase (s : State) (a n : Nat) : State :=
  if s.pcsActive then { s with hbm := Sp.erase s.hbm a n }
  else { s with hbm := (List.range n).foldl (fun m i => s.hbmByteTo m (a + i) 0) s.hbm }

/-! ## The loaded schedules -/

/-- The loaded schedule that binds gathering g, with what it records of it. -/
def State.gathSched (s : State) (g : Nat) : Option (Sched × SchedGath) :=
  s.scheds.findSome? (fun x => (x.gaths.find? (fun y => y.g.val == g)).map (fun y => (x, y)))
/-- The sequence of collectives of a gathering (R464). -/
def State.collSeq (s : State) (g : Nat) : List Coll := match s.gathSched g with | some p => p.2.seq | none => []
/-- What the schedule records of class k on its gathering. -/
def State.schedClass (s : State) (k : Nat) : Option SchedClass :=
  match s.gathSched (s.clsGath k) with
  | some p => p.2.classes.find? (fun x => x.cls.val == k)
  | none => none

/-! ## The step broadcast (R157, R467) -/

/-- The vat address of a handle's buffer (R344). -/
def State.sigBase (s : State) (h : Nat) : Nat := s.fld (SIG h 2) 17 0 * 256
/-- The bytes of a burst's granules in list order: the 32-byte header, the payload, and what the last granule holds past it. -/
def State.burstBytes (s : State) (b : Burst) : List Byte :=
  b.grans.flatMap (fun g => s.vat.bytes (s.sigBase b.zone + 256 * g) 256)
/-- The payload of a burst, header excluded. -/
def State.burstPayload (s : State) (b : Burst) : List Byte := ((s.burstBytes b).drop 32).take b.len

/-- The address of WHEEL_BASE (R325), of a slot of a stream's wheel (R291) and of its commit record (R293). -/
def State.wheelBase (s : State) : Nat := s.fld WHEEL_BASE_LO 31 30 * 2 ^ 30 + s.fld WHEEL_BASE_HI 3 0 * 2 ^ 32
def State.wheelAddr (s : State) (i : Nat) (slot : Bool) : Nat := s.wheelBase + i * 0x80000 + (if slot then 0x40000 else 0)
def State.recordAddr (s : State) (i : Nat) : Nat := s.wheelBase + 0x80000000 + 16 * i
/-- The vat address of the copy of stream i's committed wheel, while the stream's step reads it: a resident wheel that is warm, but for
the cold rerun after an error in a golden block (R294, R357). -/
def State.wheelHome (s : State) (i : Nat) : Option Nat :=
  let x := s.str i
  if x.resident && x.warm && !x.step.any (fun t => t.cold) then
    ((s.schedClass x.cls).bind (fun k => k.wheelBuf)).map (fun h => s.sigBase h.toNat)
  else none
/-- `n` bytes from offset `off` of the payload of the committed wheel of stream i: from its copy in the vat while it is warm, else
from HBM (R294). -/
def State.wheelBytes (s : State) (i off n : Nat) : List Byte :=
  match s.wheelHome i with
  | some b => s.vat.bytes (b + 256 + off) n
  | none => s.hbmBytes (s.wheelAddr i (s.str i).slot + 256 + off) n

/-- A byte string read as little-endian words of `k` bytes. -/
def wordList (k : Nat) : (fuel : Nat) → List Byte → List Nat
  | 0, _ => []
  | fuel + 1, bs => if bs.length < k then [] else ofBytes (bs.take k) :: wordList k fuel (bs.drop k)
/-- The input vector of a feature-vector burst in BF16 (R157; the rounding of FP32 elements is DEDUCED, log entry 34): FMT is BF16,
FP32 or INT8 (R304). -/
def toBf16 (fmt : Nat) (bs : List Byte) : List Byte :=
  match Fmt.ofCode 2 fmt with
  | some .bf16 => bs
  | some .fp32 => (wordList 4 bs.length bs).flatMap (fun w => toBytes 2 (Fmt.bf16.encode {} (Fmt.fp32.read false w)).1)
  | some .int8 => bs.flatMap (fun b => toBytes 2 (Fmt.bf16.encode {} (Fmt.int8.decode b.toNat)).1)
  | _ => []
/-- The bytes of the carries on their way to a folio, which its receive buffer holds as far as it has room (R457); those beyond it are
still in their frozen senders (R183). An element is a high and a low FP32 code. -/
def State.carryBytes (s : State) (n : Nat) : Nat :=
  match s.logical n with
  | some k => ((Sp.get (fun _ => []) s.carries k).map (fun x => 8 * x.vals.length)).sum
  | none => 0
/-- Does the broadcast send the burst's vector: not a zero-run map, nor a replayed burst? -/
def Step.sendsX (t : Step) : Bool := t.burst.typ == 0xB1 && !t.replayed
/-- What the broadcast sends for stream i's step: x, unless the burst is a zero-run map or a replayed one, and h rounded to BF16
(R157, R467). -/
def State.broadcast (s : State) (i : Nat) (t : Step) : List Byte :=
  let x := if t.sendsX then toBf16 t.burst.fmt (s.burstPayload t.burst) else []
  let h := match s.schedClass (s.str i).cls with
    | some k => (wordList 4 k.hCount (s.wheelBytes i k.hOff (4 * k.hCount))).flatMap
        (fun w => toBytes 2 (Fmt.bf16.encode {} (Fmt.fp32.read false w)).1)
    | none => []
  x ++ h
/-- The state slices of stream i's class (R157). -/
def State.slicesOf (s : State) (i : Nat) : List StateSlice :=
  match s.gathSched (s.clsGath (s.str i).cls) with
  | none => []
  | some p => p.1.slices.filter (fun (x : StateSlice) => x.cls.val == (s.str i).cls)
/-- The state slices of stream i's class for a logical folio, copied into the gate state buffer of a folio (R157). -/
def State.sliceIn (s : State) (n k i : Nat) : State :=
  ((s.slicesOf i).filter (fun x => x.folio.val == k)).foldl (fun s x =>
      s.put 4 (8192 * n + x.gsbOff) (s.wheelBytes i x.wheelOff x.bytes)) s
/-- What the broadcast of stream i's step reads of the vat, address and length: the burst's granules, and what it takes of the wheel's
copy (R356). -/
def State.castBurst (s : State) (t : Step) : List (Nat × Nat) :=
  if t.sendsX then t.burst.grans.map (fun g => (s.sigBase t.burst.zone + 256 * g, 256)) else []
def State.castWheel (s : State) (i : Nat) : List (Nat × Nat) :=
  match s.wheelHome i with
  | none => []
  | some b =>
    (match s.schedClass (s.str i).cls with | some k => [(b + 256 + k.hOff, 4 * k.hCount)] | none => [])
      ++ (s.slicesOf i).map (fun x => (b + 256 + x.wheelOff, x.bytes))
/-- The first bad word of such ranges. -/
def State.badCast (s : State) (rs : List (Nat × Nat)) : Option Nat := rs.findSome? (fun r => s.badIn 6 r.1 r.2)
/-- The broadcast data in a folio's receive buffer for the entry of a context (R150, R457). -/
def State.castOf (s : State) (n c : Nat) : List Byte := Sp.get (fun _ => []) s.casts (4 * n + c)
/-- The room in a folio's receive buffer beside what the other contexts' entries and inbound carries hold of its 32 KiB (R457). -/
def State.castRoom (s : State) (n c : Nat) : Nat :=
  32768 - (([0, 1, 2, 3].filter (fun k => k != c)).map (fun k => (s.castOf n k).length)).sum - s.carryBytes n
/-- The broadcast phase of stream i's step on folio n, as context c starts the step's entry: the receive buffer holds what is sent, and
the gate state buffer the state slices (R157, R467). Data for an MVLD that waits in a suspended context stay (R150). A bad word of the
landing zone ends the step with BURST_CHECK, one of the wheel's copy fails the attempt and makes the stream cold (R356); what the check
found is logged as the step is taken up again (log entry 132). -/
def State.deliverStep (s : State) (n c i : Nat) : State :=
  match (s.str i).step with
  | none => s
  | some t =>
    match s.badCast (s.castBurst t), s.badCast (s.castWheel i) with
    | some a, _ => s.setStr i { s.str i with step := some { t with final := some 3, badRead := some a } }
    | none, some a => s.setStr i { s.str i with warm := false, step := some { t with failed := true, badRead := some a } }
    | none, none =>
    let bs := (s.broadcast i t).take (s.castRoom n c)
    let s1 := { s with casts := Sp.set (fun _ => []) s.casts (4 * n + c) bs }
    match s.logical n with
    | some k => s1.sliceIn n k i
    | none => s1

/-! ## Interrupt lines -/

/-- The causes a page defines beside bit 0 of INT_STATUS (R586), as they hold now. -/
def State.causes (s : State) (p : Nat) : Nat :=
  if p = 0x001 then
    let un := fun (o : Nat) => (List.range 4).any (fun k => (Sp.get (fun _ => Txn.reset) s.txns k).out == o && s.rbit TXN_SLOT_ACK k)
    (if un 1 then 2 else 0) + (if un 2 then 4 else 0)
  else if p = 0x002 then
    (if s.mbx.isNone && s.mbxValid then 2 else 0) + (if s.rbit MBX_STAT 29 then 4 else 0)
  else if p = 0x003 then (if s.reg PM_WAKE_CAUSE ≠ 0 then 2 else 0)
  else if p = 0x008 then (if s.reg FLT_HEAD ≠ s.reg FLT_TAIL then 2 else 0)
  else if p = 0x1A0 then (if s.doneFifo ≠ [] then 2 else 0)
  else if isFolioPage p 1 then (if s.rbit (SEQ_TRAP ((p - 0x041) / 4)) 31 then 2 else 0)
  else if isFolioPage p 2 then
    (let n := (p - 0x042) / 4
     if s.reg (FOLIO_NFLAGS n) &&& s.reg (FOLIO_NFLAG_IE n) ≠ 0 then 2 else 0)
  else 0
/-- INT_STATUS of a page (R584, R586). -/
def State.intStatus (s : State) (p : Nat) : Nat :=
  s.causes p + (if bits (s.reg (ERR_STATUS p)) 31 28 &&& (15 - bits (s.reg (ERR_MASK p)) 31 28) ≠ 0 then 1 else 0)
/-- The interrupt line of a page (R587); a hidden page reads as zero (R8, R582). -/
def State.line (s : State) (p : Nat) : Bool := s.pageShown p && s.intStatus p &&& s.reg (INT_ENABLE p) ≠ 0
/-- Is the D2D sideband, which is module 0's, down: does the port run without that module (log entry 144)? -/
def State.sidebandDown (s : State) : Bool := s.fld D2D_STAT 31 29 == 2 && !s.rbit D2D_STAT 0
/-- A change of state followed by the interrupt message of page `p` when its line went from 0 to 1: over the D2D sideband, or as an
I3C in-band interrupt while that is down (R587, R620). -/
def State.withLine (s : State) (p : Nat) (t : State) : State :=
  if !s.line p && t.line p then { t with sideband := t.sideband ++ [if t.sidebandDown then .inBand p else .interrupt p] } else t

/-! ## The fault log -/

/-- The codes that assert FAULT_N (R570). -/
def assertsFaultN (code : Nat) : Bool :=
  [0x19, 0x2E, 0x32, 0x33, 0x34, 0x35, 0x38, 0x39, 0x3A, 0x3B, 0x40, 0x41, 0x42, 0x48, 0x49, 0x4A, 0x4B, 0x4C, 0x50,
   0x58, 0x59, 0x5A, 0x5B, 0x61, 0xF0].contains code

/-- One second in rclk (R559). -/
def oneSecond : Nat := 9600000

/-- FAULT_N and FLT_STAT.FAULT after an entry of this code (R571). -/
def State.faultN (s : State) (code : Nat) : State :=
  if assertsFaultN code then { s.setBit FLT_STAT 31 true with faultLow := true } else s

/-- Is the newest entry one with which this event merges (R569)? -/
def State.merges (s : State) (code unit action info : Nat) : Bool :=
  let i := (s.reg FLT_HEAD + 255) % 256
  let w := s.reg (FLT_ENTRY i 2)
  bits w 23 0 == code + unit * 256 + action * 65536 && s.reg (FLT_ENTRY i 3) == info
    && decide (s.rclk ≤ s.reg (FLT_ENTRY i 0) + s.reg (FLT_ENTRY i 1) * 2 ^ 32 + oneSecond)

/-- An event written into the fault log (R567 to R569, R571). The log is full at 255 unread entries, since equal pointers
mean empty (DEDUCED, log entry 12). -/
def State.log (s : State) (code unit action info : Nat) : State :=
  s.withLine 0x008 <|
  let i := s.reg FLT_HEAD
  if s.merges code unit action info then
    ((s.bump (FLT_ENTRY ((i + 255) % 256) 2) 31 24 1)).faultN code
  else
    let s1 := (((s.setReg (FLT_ENTRY i 0) (s.rclk % 2 ^ 32)).setReg (FLT_ENTRY i 1) (s.rclk / 2 ^ 32)).setReg (FLT_ENTRY i 2)
      (code + unit * 256 + action * 65536)).setReg (FLT_ENTRY i 3) info
    let h := (i + 1) % 256
    let full := h == s.reg FLT_TAIL
    let s2 := (s1.setReg FLT_HEAD h).bump FLT_CNT 15 0 1
    let s3 := if full then ((s2.setReg FLT_TAIL ((h + 1) % 256)).setBit FLT_STAT 30 true).bump FLT_CNT 31 16 1 else s2
    s3.faultN code

/-! ## Messages to the host die -/

/-- The 32-byte header of R316. -/
def msgHeader (typ status handle seq bid cseq len : Nat) : List Byte :=
  toBytes 1 typ ++ toBytes 1 status ++ toBytes 2 0 ++ toBytes 4 handle ++ toBytes 4 seq ++ toBytes 2 bid ++ toBytes 2 0
    ++ toBytes 8 cseq ++ toBytes 4 len ++ toBytes 4 0
/-- A message handed to the D2D port; a withdrawn device releases nothing further (R565). -/
def State.send (s : State) (m : List Byte) : State := if s.withdrawn then s else { s with outbox := s.outbox ++ [m] }
/-- A status message about a burst of stream i (R316, R317). -/
def State.status (s : State) (i code seq bid : Nat) : State :=
  s.send (msgHeader 0xC2 code (s.handle i) seq bid (s.str i).cseq 0)

/-- A device-wide stream counter (R327). -/
def State.cntStrm (s : State) (k n : Nat) : State := s.bump (STRM_CNT k) 31 0 n

/-! ## Dispatch entries -/

/-- The registers of a context as an entry starts (R413). -/
def State.entryRegs (s : State) (n c : Nat) (e : Entry) : State :=
  let k := 4 * n + c
  let s0 := { s with sreg := Sp.erase s.sreg (k * 32) 32, areg := Sp.erase s.areg (k * 16) 16, lc := Sp.erase s.lc (k * 4) 4 }
  if e.step then
    ((((((((((s0.setSr n c 0 e.handle).setSr n c 1 e.seq).setSr n c 2 e.cseq).setSr n c 3 (e.cseq / 2 ^ 32)).setSr n c 4
      e.cursor).setSr n c 5 (e.cursor / 2 ^ 32)).setSr n c 6 e.len).setSr n c 7 e.attempt).setAr n c 0 e.oldSlot).setAr n c 1
      e.newSlot)
  else s0
/-- A doorbell's entry (R413). -/
def doorEntry : Entry := ⟨false, 0, 0, 0, 0, 0, 0, 0, 0, 0⟩
/-- A context starts its oldest dispatch entry (R413): registers set, PC at ENTRY, CTAG the step tag or 0. A doorbell that waits for
a place in the queue takes it, and DOOR reads 0 again (R424). -/
def State.startEntry (s : State) (n c : Nat) : State :=
  match (s.ctx n c).queue with
  | [] => s
  | e :: q =>
    let door := s.rbit (SEQ_CTX n c) 30
    let s0 := if e.step then s.deliverStep n c e.stream else s
    let s1 := if door then s0.setBit (SEQ_CTX n c) 30 false else s0
    (s1.entryRegs n c e).setCtx n c
      { s.ctx n c with st := .running, pc := BitVec.ofNat 13 (s.dEntry n c),
                       ctag := BitVec.ofNat 13 (if e.step then e.stream else 0), rstack := [],
                       queue := if door then q ++ [doorEntry] else q,
                       entry := some e, wait := none, resume := Resume.empty, inside := none, due := none, halting := false }
/-- The sequencer chooses the context that runs next when none does (R400): the highest-numbered READY or SUSPENDED one. -/
def State.select (s : State) (n : Nat) : State :=
  if (s.running n).isSome then s
  else match [3, 2, 1, 0].find? (fun c => (s.ctx n c).st == .ready || (s.ctx n c).st == .suspended) with
    | none => s
    | some c => if (s.ctx n c).st == .ready then s.startEntry n c else s.setCtx n c { s.ctx n c with st := .running }
/-- A context's entry ends: it takes its next entry or becomes IDLE, or OFF when it is no longer enabled, and the sequencer
chooses again (R400, R414). -/
def State.endEntry (s : State) (n c : Nat) : State :=
  let x := s.ctx n c
  let st := if !s.ctxEn n c then .off else if x.queue ≠ [] then .ready else .idle
  ({ s with casts := Sp.set (fun _ => []) s.casts (4 * n + c) [] }.setCtx n c
    { x with st := st, entry := none, wait := none, rstack := [], resume := Resume.empty, inside := none, due := none,
             halting := false }).select n
/-- An entry placed in a context's queue (R413); the folio leaves F1. The queue holds 16 entries; a context whose EN is 0 is OFF and
starts none (R399). -/
def State.place (s : State) (n c : Nat) (e : Entry) : State :=
  let x := s.ctx n c
  let s0 := if s.folioState n = 1 then s.setFolioState n 0 else s
  let st := if x.st == .idle || (x.st == .off && s.ctxEn n c) then .ready else x.st
  (s0.setCtx n c { x with queue := x.queue ++ [e], st := st }).select n

end Sys2Proof.Machine
end

