-- ==== Sys2Proof/Machine/LinkOps.lean ====
section
/-! DEFINITION. Sending over the Linueton ports (16_linueton_systems.md R481 to R497): seats and neighbours, routes over live
links, flits with their control words, credits, and messages handed to a port. -/

namespace Sys2Proof.Machine

/-! ## Seats, neighbours and routes (R494 to R496) -/

/-- The device's own seat. -/
def State.seat (s : State) : Nat := s.fld LNK_CFG 9 0
/-- The size of dimension k of the charter's torus, and its WRAP bit. -/
def State.dim (s : State) (k : Nat) : Nat :=
  match k with | 0 => s.fld CH_DIM 9 6 + 1 | 1 => s.fld CH_DIM 5 3 + 1 | _ => s.fld CH_DIM 2 0 + 1
def State.wraps (s : State) (k : Nat) : Bool := s.rbit CH_DIM (10 + k)
def State.seats (s : State) : Nat := s.dim 0 * s.dim 1 * s.dim 2
/-- The distance in rank of one step in dimension k. -/
def State.pitch (s : State) (k : Nat) : Nat := match k with | 0 => 1 | 1 => s.dim 0 | _ => s.dim 0 * s.dim 1
/-- The seat that port p of a seat faces (R494). -/
def State.neighbour (s : State) (seat p : Nat) : Option Nat :=
  let k := p / 2
  let n := s.dim k
  let x := seat / s.pitch k % n
  let base := seat - x * s.pitch k
  if n = 1 ∨ s.seats ≤ seat then none
  else if p % 2 = 0 then
    (if x + 1 < n then some (base + (x + 1) * s.pitch k) else if s.wraps k then some base else none)
  else (if 0 < x then some (base + (x - 1) * s.pitch k) else if s.wraps k then some (base + (n - 1) * s.pitch k) else none)
/-- The port of the neighbour that a port is joined to. -/
def peerPort (p : Nat) : Nat := if p % 2 = 0 then p + 1 else p - 1
/-- Is one end of a link live: the own port up, or no notice that another seat's end is down (R496)? -/
def State.endLive (s : State) (seat p : Nat) : Bool :=
  if seat = s.seat then s.fld (LNK_STAT p) 31 29 == 2 else !Sp.get (fun _ => false) s.linkDown (8 * seat + p)
/-- The seats that a seat reaches over one live link, with the port. -/
def State.hops (s : State) (seat : Nat) : List (Nat × Nat) :=
  (List.range 6).filterMap (fun p =>
    match s.neighbour seat p with
    | some b => if s.endLive seat p && s.endLive b (peerPort p) then some (p, b) else none
    | none => none)
/-- Distances over live links from a seat, found ring by ring. -/
def State.distsFrom (s : State) : (fuel d : Nat) → (front : List Nat) → (seen : List (Nat × Nat)) → List (Nat × Nat)
  | 0, _, _, seen => seen
  | fuel + 1, d, front, seen =>
    let next := ((front.flatMap (fun a => (s.hops a).map Prod.snd)).filter (fun b => !seen.any (fun x => x.1 == b))).eraseDups
    if next.isEmpty then seen else s.distsFrom fuel (d + 1) next (seen ++ next.map (fun b => (b, d + 1)))
def State.dists (s : State) (dst : Nat) : List (Nat × Nat) := s.distsFrom 1024 0 [dst] [(dst, 0)]
/-- The distance between two seats over live links. -/
def State.dist (s : State) (a b : Nat) : Option Nat := ((s.dists b).find? (fun x => x.1 == a)).map Prod.snd
/-- The route to a seat: the port of lowest index on a shortest path (R496). -/
def State.route (s : State) (dst : Nat) : Option Nat :=
  let ds := s.dists dst
  let at' := fun (a : Nat) => (ds.find? (fun x => x.1 == a)).map Prod.snd
  match at' s.seat with
  | none => none
  | some d => ((s.hops s.seat).find? (fun x => match at' x.2 with | some k => k + 1 == d | none => false)).map Prod.fst
/-- Can a seat be reached over live links? -/
def State.reachable (s : State) (seat : Nat) : Bool := (s.dist s.seat seat).isSome

/-! ## Flits (R481 to R485) -/

/-- Flit types. -/
def tyDATA : Nat := 0x01
def tyMSG : Nat := 0x02
def tyMIRROR : Nat := 0x03
def tyMACK : Nat := 0x04
def tyRENEW : Nat := 0x05
def tyRACK : Nat := 0x06
def tyLSTATE : Nat := 0x07
def tyPROPOSE : Nat := 0x08
def tyVOTE : Nat := 0x09
def tyCOMMIT : Nat := 0x0A
def tyJOIN : Nat := 0x0B
def tyMREL : Nat := 0x0C
def tyLANECTL : Nat := 0x0D
/-- The virtual channel of a type (R482). -/
def vcOf (typ : Nat) : Nat := match typ with | 0x01 => 1 | 0x02 => 2 | 0x03 => 0 | 0x0C => 0 | _ => 3
/-- A flit of R481 on its first hop. -/
def mkFlit (typ src dst epoch msgid : Nat) (last : Bool) (fidx : Nat) (payload : List Byte) : List Byte :=
  (toBytes 1 typ ++ toBytes 1 (vcOf typ * 64) ++ toBytes 2 payload.length ++ toBytes 2 src ++ toBytes 2 dst ++ toBytes 4 epoch
    ++ toBytes 2 msgid ++ toBytes 2 (fidx + (if last then 32768 else 0)) ++ payload)
    ++ List.replicate (240 - payload.length) 0
/-- A byte string cut into pieces of `k` bytes, at least one. -/
def chunks (k : Nat) : (fuel : Nat) → List Byte → List (List Byte)
  | 0, bs => [bs]
  | fuel + 1, bs => if bs.length ≤ k then [bs] else bs.take k :: chunks k fuel (bs.drop k)
/-- The flits of a message. -/
def mkFlits (typ src dst epoch msgid : Nat) (payload : List Byte) : List (List Byte) :=
  let cs := chunks 240 payload.length payload
  (List.range cs.length).map (fun i =>
    mkFlit typ src dst epoch msgid (i + 1 == cs.length) i (cs.getD i []))
/-- Fields of a flit's header. -/
def flitN (f : List Byte) (off n : Nat) : Nat := ofBytes ((f.drop off).take n)
def flitVc (f : List Byte) : Nat := bits (flitN f 1 1) 7 6
def flitHop (f : List Byte) : Nat := bits (flitN f 1 1) 4 0 + 1

def State.link (s : State) (p : Nat) : LinkPort := Sp.get (fun _ => LinkPort.reset) s.links p
def State.setLink (s : State) (p : Nat) (x : LinkPort) : State := { s with links := Sp.set (fun _ => LinkPort.reset) s.links p x }

/-- The control word of R483 that follows a flit, as 8 bytes. -/
def controlWord (flit : List Byte) (seq ack : Nat) (nak : Bool) (cvc chop ccnt : Nat) : List Byte :=
  let hi := toBytes 4 (seq * 2 ^ 22 + ack * 2 ^ 12 + (if nak then 2 ^ 11 else 0) + cvc * 2 ^ 9 + chop * 2 ^ 4 + ccnt * 2)
  toBytes 4 (crc32c (flit ++ hi)) ++ hi
/-- The credits that the next control word returns: up to seven of one class (R483, R485). -/
def LinkPort.nextCredits (x : LinkPort) : (Nat × Nat × Nat) × List (Nat × Nat) :=
  match x.owed with
  | [] => ((0, 0x1F, 0), [])
  | o :: _ =>
    let same := x.owed.filter (fun y => y == o)
    let k := min same.length 7
    ((o.1, o.2, k), List.replicate (same.length - k) o ++ x.owed.filter (fun y => y != o))
/-- A flit handed to a port with its control word (R483); `seq` is its link sequence number. -/
def State.emit (s : State) (p seq : Nat) (flit : List Byte) : State :=
  let x := s.link p
  let (c, owed) := x.nextCredits
  let w := controlWord flit seq ((x.rxSeq + 1023) % 1024) x.nak c.1 c.2.1 c.2.2
  { s.setLink p { x with owed := owed, nak := false } with linkOut := s.linkOut ++ [(p, flit ++ w)] }
/-- May a flit be sent: a pool credit, or the reserved credit of its class (R485)? -/
def LinkPort.credit (x : LinkPort) (f : List Byte) : Bool := decide (0 < x.pool) || !x.resv.contains (flitVc f, flitHop f)
/-- The next flit to send (R484): the first of VC3 with a credit, else of VC0 to VC2 round-robin after the last served. -/
def LinkPort.pick (x : LinkPort) : Option (List Byte) :=
  let first := fun (vc : Nat) => (x.queue.find? (fun f => flitVc f == vc)).filter x.credit
  match first 3 with
  | some f => some f
  | none => [1, 2, 3].findSome? (fun k => first ((x.last + k) % 3))
/-- Flits sent while credits and the retry buffer allow (R485, R488). -/
def State.pump (s : State) (p : Nat) : Nat → State
  | 0 => s
  | fuel + 1 =>
    let x := s.link p
    if s.fld (LNK_STAT p) 31 29 ≠ 2 ∨ 512 ≤ x.retry.length then s
    else match x.pick with
      | none => s
      | some f =>
        let x1 := { x with
          queue := x.queue.erase f
          txSeq := (x.txSeq + 1) % 1024
          retry := x.retry ++ [(x.txSeq, f)]
          pool := x.pool - 1
          resv := if 0 < x.pool then x.resv else x.resv ++ [(flitVc f, flitHop f)]
          last := if flitVc f = 3 then x.last else flitVc f }
        ((s.setLink p x1).emit p x.txSeq f).pump p fuel
/-- A flit joins the queue of a port. -/
def State.queueFlit (s : State) (p : Nat) (f : List Byte) : State :=
  let x := s.link p
  (s.setLink p { x with queue := x.queue ++ [f] }).pump p 1024
/-- A message for a seat, on its route; without one its flits are discarded and counted (R486). -/
def State.sendSeat (s : State) (typ dst : Nat) (payload : List Byte) : State :=
  let vc := vcOf typ
  let id := Sp.get (fun _ => 0) s.linkMsgId vc
  let fs := mkFlits typ s.seat dst (s.reg CH_EPOCH) id payload
  let s1 := { s with linkMsgId := Sp.set (fun _ => 0) s.linkMsgId vc ((id + 1) % 65536) }
  match s1.route dst with
  | some p => fs.foldl (fun s f => s.queueFlit p f) s1
  | none => s1.bump LNK_DEV_CNT 10 0 fs.length
/-- Does a port hold a flit of this device's light-path message `id`: queued, or sent and not acknowledged (R488)? -/
def State.linkHolds (s : State) (id : Nat) : Bool :=
  let mine := fun (f : List Byte) => flitN f 0 1 == tyMSG && flitN f 4 2 == s.seat && flitN f 12 2 == id
  s.links.any (fun p => p.2.queue.any mine || p.2.retry.any (fun r => mine r.2))
/-- A light-path message of a context for a remote seat (R384). -/
def State.sendLight (s : State) (n c dst : Nat) (payload : List Byte) : State :=
  let id := Sp.get (fun _ => 0) s.linkMsgId (vcOf tyMSG)
  let s1 := s.sendSeat tyMSG dst payload
  { s1 with lpSent := s1.lpSent.filter (fun x => s1.linkHolds x.2.2) ++ [(n, c, id)] }
/-- A message for the neighbour of a port only (R481). -/
def State.sendPort (s : State) (typ p : Nat) (payload : List Byte) : State :=
  let vc := vcOf typ
  let id := Sp.get (fun _ => 0) s.linkMsgId vc
  let s1 := { s with linkMsgId := Sp.set (fun _ => 0) s.linkMsgId vc ((id + 1) % 65536) }
  (mkFlits typ s.seat 0xFFFF (s.reg CH_EPOCH) id payload).foldl (fun s f => s.queueFlit p f) s1

/-! ## Payloads of light-path messages and credit returns (R384, R348; the layout is a DESIGN CHOICE, log entry 16) -/

def msgLight (zone ring : Nat) (data : List Byte) : List Byte :=
  toBytes 1 0 ++ toBytes 1 0 ++ toBytes 2 zone ++ toBytes 2 ring ++ toBytes 2 data.length ++ data
def msgCredit (zone ring n : Nat) : List Byte := toBytes 1 1 ++ toBytes 1 0 ++ toBytes 2 zone ++ toBytes 2 ring ++ toBytes 2 n

end Sys2Proof.Machine
end

