-- ==== Sys2Proof/Machine/Held.lean ====
section
/-! DEFINITION. What is held against work tags: flags and counts (02_number_formats.md R75, R102), carries (06_recurrence_and_scan.md
R184, R197), the tags of an entry and their completion records (13_sequencer.md R409, R410). -/

namespace Sys2Proof.Machine

/-! ## Flags and carries held against a work tag -/

/-- Flags of an engine held against a work tag (R75); `field` is the engine's place in FOLIO_NFLAGS (R76): 0 ARR, 1 MVP,
2 GATE, 3 SFU, 4 VEC, 5 SCAN. -/
def State.hold (s : State) (n tag field flags : Nat) : State :=
  let k := 8192 * n + tag
  { s with heldFlags := Sp.set (fun _ => 0) s.heldFlags k (Sp.get (fun _ => 0) s.heldFlags k ||| flags * 2 ^ (4 * field)) }
/-- Overflow counts held against a work tag (R102). -/
def State.holdOvr (s : State) (n tag sat rerun : Nat) : State :=
  let o := Sp.get (fun _ => (0, 0)) s.heldOvr (8192 * n + tag)
  { s with heldOvr := Sp.set (fun _ => (0, 0)) s.heldOvr (8192 * n + tag) (o.1 + sat, o.2 + rerun) }
/-- Does an SSCAN that waits at issue on folio n, or one that stands in its instruction memory and may issue later, take a carry of a key
from the inbox (R184; DEDUCED, log entry 127)? An SSCAN has opcode 0x70 in byte 11 of its bundle. -/
def State.keyNamed (s : State) (n key : Nat) : Bool :=
  [0, 1, 2, 3].any (fun c => (s.ctx n c).wait == some (.inbox key))
    || s.imem.any (fun x => x.1 / 131072 == n && x.1 % 16 == 11 && x.2 == 0x70#8 &&
        (let b := s.imem.load (x.1 - 11) 16; bits b 44 43 == 3 && bits b 28 13 == key))
/-- The carries of a map but those that a work tag of a seat sent, of which `keep` holds the ones that stay. -/
def dropCarries (tag seat : Nat) (keep : Nat → Carry → Bool) (m : Sp (List Carry)) : Sp (List Carry) :=
  (m.map (fun p => (p.1, p.2.filter (fun x => x.tag != tag || x.seat != seat || keep p.1 x)))).filter (fun p => !p.2.isEmpty)
/-- The carries that a work tag of a seat sent, dropped as the tag is cancelled or fails, or, once it has completed (`done`), those
whose key no waiting or later instruction names (R184, R197). -/
def State.dropCarries (s : State) (tag seat : Nat) (done : Bool) : State :=
  { s with inbox := Machine.dropCarries tag seat (fun n x => done && s.keyNamed n x.key) s.inbox
           carries := Machine.dropCarries tag seat (fun k x => done && s.keyNamed (s.phys k) x.key) s.carries }
/-- The end of a work tag for the devices that hold carries of it (R184; the payload is a DESIGN CHOICE, log entry 16): kind 3, whether
the tag completed, and the tag. -/
def dataCarryEnd (tag : Nat) (done : Bool) : List Byte := toBytes 1 3 ++ toBytes 1 (if done then 1 else 0) ++ toBytes 2 tag
/-- A work tag of this device has completed, or was cancelled or failed: its carries here and on other devices are dropped under R184. -/
def State.endCarries (s : State) (tag : Nat) (done : Bool) : State :=
  let there := s.carrySent.filter (fun p => p.1 == tag)
  let s1 := { s.dropCarries tag 0x3FF done with carrySent := s.carrySent.filter (fun p => p.1 != tag) }
  there.foldl (fun s p => s.sendSeat tyDATA p.2 (dataCarryEnd tag done)) s1
/-- The flags and counts held against a tag on a folio, cleared (R75, R102). -/
def State.clearHeld (s : State) (n tag : Nat) : State :=
  { s with heldFlags := Sp.set (fun _ => 0) s.heldFlags (8192 * n + tag) 0,
           heldOvr := Sp.set (fun _ => (0, 0)) s.heldOvr (8192 * n + tag) (0, 0) }
/-- What a tag that fails or is cancelled holds on a folio, dropped (R75, R102), with the carries it sent (R184, R197). -/
def State.dropHeld (s : State) (n tag : Nat) : State := (s.endCarries tag false).clearHeld n tag
/-- What a tag holds on a folio, merged into FOLIO_NFLAGS by OR and into FOLIO_OVR_CNT (R75, R102). While level 1 is
accepted, SCAN is reserved (R77) and FOLIO_OVR_CNT behaves as reserved (R8). -/
def State.mergeHeld (s : State) (n tag : Nat) : State :=
  s.withLine (0x042 + 4 * n) <|
  let f := Sp.get (fun _ => 0) s.heldFlags (8192 * n + tag)
  let o := Sp.get (fun _ => (0, 0)) s.heldOvr (8192 * n + tag)
  let f := if s.level < 2 then f % 2 ^ 20 else f
  let s1 := s.setReg (FOLIO_NFLAGS n) (s.reg (FOLIO_NFLAGS n) ||| f)
  let s2 := if s.level < 2 then s1 else (s1.bump (FOLIO_OVR_CNT n) 31 16 o.1).bump (FOLIO_OVR_CNT n) 15 0 o.2
  (s2.endCarries tag true).clearHeld n tag

/-! ## Completion records -/

/-- A folio tag enters DONE with a status (R409, R410): its record enters the context's completion queue, and what it holds is
merged or, unless the status is OK, dropped (R75). -/
def State.tagDone (s : State) (n lf k status : Nat) : State :=
  let r := s.tag lf k
  let x := s.ctx n r.ctx
  let s1 := s.setTag lf k { r with st := .done, status := status }
  let s2 := s1.setCtx n r.ctx { x with doneQ := x.doneQ ++ [BitVec.ofNat 32 (folioTag lf k + status * 2 ^ 13)] }
  if status = 0 then s2.mergeHeld n (folioTag lf k) else s2.dropHeld n (folioTag lf k)
/-- The stream whose step a context's entry is, none for a doorbell's. -/
def Ctx.owner (x : Ctx) : Option Nat := x.entry.bind (fun e => if e.step then some e.stream else none)
/-- The folio tags of a folio that are in use under an owner: a step's, or a doorbell entry's of a context (R421, R422). -/
def State.ownTags (s : State) (n c : Nat) (owner : Option Nat) : List Nat :=
  match s.logical n with
  | none => []
  | some lf => (List.range 64).filter (fun k =>
      let r := s.tag lf k
      r.st != .free && r.owner == owner && (owner.isSome || r.ctx == c))

end Sys2Proof.Machine
end

