-- ==== Sys2Proof/Machine/HbmOps.lean ====
section
/-! DEFINITION. The HBM address map, the granules of a move, the credits its mover holds and the cancellation of a work tag's
moves (12_movement_and_hbm.md R367 to R371, R381, R383, R390). -/

namespace Sys2Proof.Machine

/-- The mover of quire q: its moves, oldest first. -/
def State.mover (s : State) (q : Nat) : List Move := Sp.get (fun _ => []) s.movers q
def State.setMover (s : State) (q : Nat) (ms : List Move) : State :=
  { s with movers := Sp.set (fun _ => []) s.movers q ms }

/-- The end of a move `k` bytes further on. -/
def MoveEnd.plus (e : MoveEnd) (k : Nat) : MoveEnd :=
  match e with
  | .hbm a => .hbm (a + k)
  | .vat h o => .vat h (o + k)
  | .fm a => .fm (a + k)
  | .own bs => .own (bs.drop k)
/-- Where granule g of an end lies (R367): a striped vat end takes handle h + (g mod STRIPE). -/
def MoveEnd.granule (e : MoveEnd) (stripe g : Nat) : MoveEnd :=
  match e with
  | .vat h o => .vat (h + g % stripe) (o + 256 * (g / stripe))
  | e => e.plus (256 * g)
/-- The granules of a move. -/
def Move.total (m : Move) : Nat := m.len / 256
/-- The HBM address that granule g of a move is requested at: where it is read, else where it is written. -/
def Move.hbmAddr (m : Move) (g : Nat) : Nat :=
  match m.src, m.dst with
  | .hbm a, _ => a + 256 * g
  | _, .hbm a => a + 256 * g
  | _, _ => 0
/-- Does a move read HBM, does it write HBM? -/
def Move.reads (m : Move) : Bool := match m.src with | .hbm _ => true | _ => false
def Move.writes (m : Move) : Bool := match m.dst with | .hbm _ => m.dests.isEmpty | _ => false

def State.setPcState (s : State) (k p v : Nat) : State := s.setFld (HBM_PC_STATE k (p / 16)) (2 * (p % 16) + 1) (2 * (p % 16)) v
/-- The pseudo-channel that serves an HBM address: a retired one's sibling (R369, R390). -/
def State.hbmPc (s : State) (a : Nat) : Nat := bits (s.hbmPlace a) 14 10

/-! ## Descriptors and requests (R368, R371) -/

/-- Whose turn a move takes in its mover: its folio's, by physical index in the quire, or the mover's own after index 4. -/
def Move.slot (m : Move) : Nat := if m.owner = .own then 5 else m.folio % 5
/-- The descriptor that a mover takes next, in turn after the slot that it took from last. -/
def nextTaken (turn : Nat) (ms : List Move) : Option Move :=
  (List.range 6).findSome? (fun j => ms.find? (fun m => !m.taken && m.slot == (turn + 1 + j) % 6))
/-- The descriptors that wait, taken in their turns: the taken ones of a mover come first, in their order. -/
def takeAll : (fuel turn : Nat) → List Move → Nat × List Move
  | 0, t, ms => (t, ms)
  | k + 1, t, ms =>
    match nextTaken t ms with
    | none => (t, ms)
    | some m => takeAll k m.slot (ms.filter (fun x => x.taken) ++ { m with taken := true } :: ms.filter (fun x => !x.taken && x.id != m.id))
/-- The queues of the pseudo-channels, and the stacks at which an earlier granule of the mover waits. -/
structure CredAcc where
  queues : Sp (List Req)
  blocked : List Nat
  deriving DecidableEq, Repr
/-- Is a granule of a move in a queue? -/
def requested (qs : Sp (List Req)) (id g : Nat) : Bool := qs.any (fun p => p.2.any (fun r => r.id == id && r.g == g))
/-- One granule asks for a credit (R368, R371): two per pseudo-channel; one that waits blocks its stack. -/
def State.askCredit (s : State) (q : Nat) (acc : CredAcc) (m : Move) (g : Nat) : CredAcc :=
  let a := m.hbmAddr g
  let k := hbmStack a
  let pc := 32 * k + s.hbmPc a
  let queue := Sp.get (fun _ => []) acc.queues pc
  if acc.blocked.contains k || requested acc.queues m.id g then acc
  else if 2 ≤ (queue.filter (fun r => r.q == q)).length then { acc with blocked := k :: acc.blocked }
  else { acc with queues := Sp.set (fun _ => []) acc.queues pc (queue ++ [⟨q, m.id, g⟩]) }
/-- The requests of mover q in descriptor order, as many as its credits allow. -/
def State.askAll (s : State) (q : Nat) (qs : Sp (List Req)) : Sp (List Req) :=
  (((s.mover q).filter (fun m => m.taken && m.stale.isNone)).foldl (fun acc m =>
    ((List.range m.total).filter (fun g => !m.done.contains g)).foldl (fun acc g => s.askCredit q acc m g) acc) (⟨qs, []⟩ : CredAcc)).queues
/-- The movers take the descriptors that wait and request what their credits allow, in the order Q0 to Q9 (R368, R371; DESIGN CHOICE that
they have done so by the next event at the stacks, log entry 133). -/
def State.drive (s : State) : State :=
  (List.range 10).foldl (fun s q =>
    if s.mover q = [] then s
    else
      let r := takeAll (s.mover q).length (Sp.get (fun _ => 5) s.turns q) (s.mover q)
      let s1 := { s.setMover q r.2 with turns := Sp.set (fun _ => 5) s.turns q r.1 }
      { s1 with pcQueue := s1.askAll q s1.pcQueue }) s
/-- The credits that mover q holds. -/
def State.creditsHeld (s : State) (q : Nat) : Nat := ((s.pcQueue.map (fun p => (p.2.filter (fun r => r.q == q)).length))).sum
/-- The granules of a move that hold a credit. -/
def State.creditedOf (s : State) (id : Nat) : List Nat := s.pcQueue.flatMap (fun p => (p.2.filter (fun r => r.id == id)).map (fun r => r.g))
/-- Is a granule the first of its pseudo-channel's queue, which serves it next (R372)? -/
def State.served (s : State) (q id g : Nat) : Bool := s.pcQueue.any (fun p => p.2.head? == some ⟨q, id, g⟩)
/-- A granule leaves its queue and returns its credit. -/
def State.dequeue (s : State) (id g : Nat) : State :=
  { s with pcQueue := (s.pcQueue.map (fun p => (p.1, p.2.filter (fun r => r.id != id || r.g != g)))).filter (fun p => !p.2.isEmpty) }

/-- Does a mover or a waiting multicast still hold work of a tag? -/
def State.moverHolds (s : State) (tag : Nat) : Bool :=
  (List.range 10).any (fun q => (s.mover q).any (fun m => m.tag == tag || m.dests.any (fun r => r.tag == tag)))
    || s.mleads.any (fun m => m.tag == tag) || s.mrecvs.any (fun r => r.tag == tag)
    || s.fetch.any (fun p => match p.2 with | some f => f.tag == tag && !f.cancelled | none => false)

/-- The moves of a work tag in one mover are cancelled (R381): granules that hold no credit are removed, the others are stale. A
step's cancellation is acknowledged, and counted, here when nothing is in flight. -/
def State.cancelIn (s : State) (tag q : Nat) : State :=
  let ms := s.mover q
  if ms.any (fun m => m.tag == tag) then
    let ms' := (ms.map (fun m => if m.tag == tag && m.stale.isNone then { m with stale := some (s.creditedOf m.id) } else m)).filter
      (fun m => m.stale != some [])
    let s1 := s.setMover q ms'
    if tag < 4096 ∧ ms'.all (fun m => m.tag != tag) then s1.bump (MOVER_CNT q) 15 0 1 else s1
  else s
/-- Does a receive answer a multicast (R383)? -/
def State.answers (s : State) (m : McLead) (r : McRecv) : Bool :=
  m.key == r.key && m.len == r.len && (match s.logical r.folio with | some k => bit m.mask k | none => false)
/-- A receive ends as cancelled with its leader (R383): the record of its folio tag will say so. -/
def State.recvCancelled (s : State) (r : McRecv) : State :=
  if r.tag < 4096 then s
  else
    let lf := (r.tag - 4096) / 64
    let k := (r.tag - 4096) % 64
    s.setTag lf k { s.tag lf k with status := 1 }
/-- The moves of a work tag are cancelled in every mover; its fetch streams close (R380), its waiting multicasts end with the
receives posted for them, and its own receives end (R383). -/
def State.cancelMoves (s : State) (tag : Nat) : State :=
  let s0 := s.drive
  let led := ((List.range 10).flatMap s0.mover).filter (fun m => m.tag == tag && m.stale.isNone)
  let s1 := (List.range 10).foldl (fun s q => s.cancelIn tag q) s0
  let dead := s1.mleads.filter (fun m => m.tag == tag)
  let lost := (s1.mrecvs.filter (fun r => r.tag != tag && dead.any (fun m => s1.answers m r)))
    ++ led.flatMap (fun m => m.dests.filter (fun r => r.tag != tag))
  lost.foldl (fun s r => s.recvCancelled r) { s1 with
    mleads := s1.mleads.filter (fun m => m.tag != tag)
    mrecvs := s1.mrecvs.filter (fun r => r.tag != tag && !dead.any (fun m => s1.answers m r))
    fetch := s1.fetch.map (fun p => (p.1, p.2.map (fun f => if f.tag = tag then { f with cancelled := true } else f))) }

end Sys2Proof.Machine
end

