-- ==== Sys2Proof/Machine/Trace.lean ====
section
/-! DEFINITION. The sideband bumps SB0 to SB7: what each drives under the feature that owns it, and the trace of the bundles of a folio
in debug mode (20_ports_and_electrical.md R624, 19_registers_and_transactions.md R604). -/

namespace Sys2Proof.Machine

/-- The feature of a bump (R604). -/
def State.sbFeature (s : State) (k : Nat) : Nat := s.fld (OWN_SB k) 7 0
/-- The trace-data bumps, in ascending order. -/
def State.traceBumps (s : State) : List Nat := [0, 1, 2, 4, 5, 6].filter (fun k => s.sbFeature k == 9)
/-- The folio traced: the physical folio of lowest index in debug mode. -/
def State.traced (s : State) : Option Nat := (List.range 50).find? (fun n => s.mode n == 4)
/-- What bump k drives. The mirrors follow their pins, which assert low; every output is at high impedance while PORST_N is low (R611). -/
def State.sbOut (s : State) (k : Nat) : SbOut :=
  let f := s.sbFeature k
  if s.inReset then .highZ
  else if f = 0x07 then .level !s.faultLow
  else if f = 0x0A then .level !s.thermLow
  else if f = 0x0B then .level !s.wakeLow
  else if f = 0x0C then .level (s.fld PM_STATE 31 29 == 0)
  else if f = 0x08 ∨ f = 0x09 then
    (if s.fld PM_STATE 31 29 ≠ 0 then .highZ
     else if s.traced.isNone then .level false
     else if f = 0x08 then .clock else .data)
  else .highZ
/-- The record of a bundle: PC, context, fclk count bits [30:15], and whether it follows dropped ones. -/
def State.traceRecord (s : State) (c pc : Nat) : BitVec 32 :=
  BitVec.ofNat 32 (pc % 2 ^ 13 + c * 2 ^ 13 + (Config.fclkCount s.rclk).toNat * 2 ^ 15 + (if s.trace.dropped then 2 ^ 31 else 0))
/-- The trace stream after a bundle of context c of folio n, at `pc`, has issued: the bundle's record waits, or is dropped while one
waits. -/
def State.traceIssue (s : State) (n c pc : Nat) : Trace :=
  if s.traced ≠ some n ∨ s.traceBumps = [] then s.trace
  else if s.trace.next.isSome then { s.trace with dropped := true }
  else { s.trace with next := some (s.traceRecord c pc), dropped := false }
/-- A rising edge of the trace clock: the k data bumps carry the next bits; a waiting record follows the one that has been sent. -/
def Trace.edge (t : Trace) (k : Nat) : Trace :=
  let r : List Bool × Option (BitVec 32) := match t.sending, t.next with
    | [], some w => ((List.range 32).map (fun i => w.getLsbD i), none)
    | bs, w => (bs, w)
  if r.1 = [] then t else { t with sending := r.1.drop k, next := r.2, out := t.out ++ [r.1.take k] }
/-- The rising edges of fclk ÷ 16 in the first r rclk: 125 / 12 to an rclk. -/
def traceEdges (r : Nat) : Nat := r * 125 / 12
/-- The trace stream after one rclk more, in which the trace clock runs in D0 while a folio is in debug mode. -/
def State.traceTick (s : State) : Trace :=
  if s.traceBumps = [] ∨ s.traced.isNone ∨ s.fld PM_STATE 31 29 ≠ 0 then s.trace
  else (List.range (traceEdges (s.rclk + 1) - traceEdges s.rclk)).foldl (fun t _ => t.edge s.traceBumps.length) s.trace

end Sys2Proof.Machine
end

