-- ==== Sys2Proof/Machine/Work.lean ====
section
/-! DEFINITION. Work and its failures: aborting a step, ending it, fencing and withdrawing (R25 to R29, R295, R421, R506,
R565), the event windows and folio retirement (R559 to R563), parity errors (R356), and traps (R422). -/

namespace Sys2Proof.Machine

/-! ## Landing zones, moves and collectives of work that ends -/

/-- Granules of a landing zone freed (R347). -/
def State.freeGranules (s : State) (zone : Nat) (gs : List Nat) : State :=
  let left := (Sp.get (fun _ => []) s.occupied zone).filter (fun g => !gs.contains g)
  { s with occupied := Sp.set (fun _ => []) s.occupied zone left }

/-- The contributions of a folio that wait. -/
def State.contrib (s : State) (n : Nat) : List Contrib := Sp.get (fun _ => []) s.contribs n
def State.setContrib (s : State) (n : Nat) (l : List Contrib) : State := { s with contribs := Sp.set (fun _ => []) s.contribs n l }
/-- The contributions of stream i's step dropped, and the shared tags that it leaves without one cancelled (R475, R476): the plane goes
back to the first collective of its sequence, unless it serves another step by then, since step i's work has ended everywhere, another
step waits with the current tag, or step i's contributions stood behind it (DEDUCED, log entry 13). -/
def State.dropPlane (s : State) (i : Nat) (t : Step) : State :=
  let g := s.clsGath (s.str i).cls
  let seq := (s.collSeq g).map (fun x => x.stag.toNat)
  let place := Sp.get (fun _ => 0) s.plane g % seq.length
  let all := (members (s.gmask g)).flatMap (fun k => s.contrib (s.phys k))
  let mine := all.filter (fun x => x.owner == some i)
  let others := (t.ended == t.mask && mine.isEmpty) || all.any (fun x => x.owner != some i && some x.stag == seq[place]?)
    || mine.any (fun x => (seq.take place).contains x.stag)
  (members (s.gmask g)).foldl (fun s k =>
    s.setContrib (s.phys k) ((s.contrib (s.phys k)).filter (fun x => x.owner != some i)))
    (if others then s else { s with plane := Sp.set (fun _ => 0) s.plane g 0 })

/-! ## Steps that end -/

/-- The bundle of an instruction that a context is inside of or suspended in names a tag; CTAG is 0x40 (R438). -/
def Resume.names (r : Resume) (tag : BitVec 13) (lf : Nat) (t : Nat) : Bool :=
  let k := bits r.bundle.toNat 87 81
  if k = 0x40 then tag.toNat == t else folioTag lf k == t
/-- The instruction that a context is inside of or suspended in, withdrawn when its work tag is cancelled (R354, R411, R421). -/
def State.dropResume (s : State) (n c tag : Nat) : State :=
  let x := s.ctx n c
  match s.logical n with
  | none => s
  | some lf =>
    let hits := fun (r : Resume) => r.names x.ctag lf tag
    let y := if x.resume.valid && hits x.resume then { x with resume := Resume.empty } else x
    let z := if y.inside.any hits then { y with inside := none, due := none } else y
    if x = z then s else s.setCtx n c z
/-- The open output tiles of a tag on an array, closed, and the fold in progress dropped with them (R139). -/
def State.closeTiles (s : State) (n tag k : Nat) : State :=
  let a := Sp.get (fun _ => ArrSt.reset) s.arr (4 * n + k)
  { s with arr := Sp.set (fun _ => ArrSt.reset) s.arr (4 * n + k) { a with tiles := a.tiles.filter (fun t => t.tag != tag) } }
/-- The softmax of a work tag, cleared (R233). -/
def State.dropSoftmax (s : State) (n tag : Nat) : State :=
  if Sp.get (fun _ => none) s.saTag n = some tag then
    { s with sa := Sp.erase s.sa (64 * n) 64, srow := Sp.set (fun _ => FV.pzero) s.srow n FV.pzero,
             saTag := Sp.set (fun _ => none) s.saTag n none }
  else s
/-- The engines' work under a work tag that fails or is cancelled, dropped (R139, R154, R163, R197, R233, R354, R411): open tiles,
kept and queued MVMULs, GUPDs and the pre-activations on their way, the send slot, the softmax, an instruction in progress. -/
def State.cancelEngines (s : State) (n tag : Nat) : State :=
  let js := (Sp.get (fun _ => []) s.jobs n).filter (fun j => j.tag != tag)
  let gs := (Sp.get (fun _ => []) s.gateQ n).filter (fun g => g.tag != tag)
  let ps := (Sp.get (fun _ => []) s.gatePend n).filter (fun p => p.1 != tag)
  let s1 := { s with jobs := Sp.set (fun _ => []) s.jobs n js, gateQ := Sp.set (fun _ => []) s.gateQ n gs,
                     gatePend := Sp.set (fun _ => []) s.gatePend n ps }
  let s2 := [0, 1, 2, 3].foldl (fun s k => s.closeTiles n tag k) s1
  let s3 := match Sp.get (fun _ => none) s2.slots n with
    | some x => if x.tag = tag then { s2 with slots := Sp.set (fun _ => none) s2.slots n none } else s2
    | none => s2
  [0, 1, 2, 3].foldl (fun s c => s.dropResume n c tag) (s3.dropSoftmax n tag)
/-- Do the engines still hold work of a tag (R409)? -/
def State.engHolds (s : State) (n tag : Nat) : Bool :=
  (Sp.get (fun _ => []) s.jobs n).any (fun j => j.tag == tag) || (Sp.get (fun _ => []) s.gateQ n).any (fun g => g.tag == tag)
/-- Work of a tag on a folio withdrawn from its engines and from the movers (R381, R411). -/
def State.cancelWork (s : State) (n tag : Nat) : State := (s.cancelEngines n tag).cancelMoves tag

/-- Is an entry the step of stream i? -/
def Entry.isStep (e : Entry) (i : Nat) : Bool := e.step && e.stream == i

/-- A folio tag that ends FAILED, its work withdrawn (R381, R422). -/
def State.failTag (s : State) (n lf k : Nat) : State := (s.cancelWork n (folioTag lf k)).tagDone n lf k 2
/-- The folio tags of a context's entry that are in use end FAILED, their work withdrawn (R381, R422). -/
def State.failTags (s : State) (n c : Nat) : State :=
  match s.logical n with
  | none => s
  | some lf => (s.ownTags n c (s.ctx n c).owner).foldl (fun s k => if (s.tag lf k).st == .done then s else s.failTag n lf k) s

/-- The folio tags of stream i's step go back to FREE without a record, but for those that ended FAILED, their work withdrawn, so that
the next attempt issues the same bundles (R413, R421; DEDUCED, log entry 14). -/
def State.freeTags (s : State) (n i : Nat) : State :=
  match s.logical n with
  | none => s
  | some lf => (s.ownTags n 0 (some i)).foldl (fun s k =>
      let r := s.tag lf k
      if r.st == .done && r.status == 2 then s
      else
        let s1 := (((s.cancelWork n (folioTag lf k)).setTag lf k TagRec.reset).dropHeld n (folioTag lf k))
        let x := s1.ctx n r.ctx
        s1.setCtx n r.ctx { x with doneQ := x.doneQ.filter (fun q => bits q.toNat 12 0 != folioTag lf k) }) s

/-- Stream i's step is withdrawn from context c of folio n (R421): its queued entries are removed, and a running one ends. A halted
context stays halted. -/
def State.abortEntry (s : State) (n c i : Nat) : State :=
  let x := s.ctx n c
  let s1 := if x.queue.any (fun e => e.isStep i) then s.setCtx n c { x with queue := x.queue.filter (fun e => !e.isStep i) } else s
  match x.entry with
  | some e =>
    if e.isStep i then
      (if x.st == .halted then s1.setCtx n c { s1.ctx n c with entry := none, inside := none, due := none } else s1.endEntry n c)
    else s1
  | none => s1
/-- Stream i's step is withdrawn from folio n: the work of its step tag and of the folio tags it opened, whether its entry still runs
or has ended (R139, R154, R163, R197, R421), and the flags of the attempt (R75). -/
def State.abortFolio (s : State) (n i : Nat) : State :=
  let s1 := ((s.freeTags n i).cancelEngines n i).dropHeld n i
  [0, 1, 2, 3].foldl (fun s c => s.abortEntry n c i) s1
/-- The entries of stream i's step end on every folio, with its engines' work, its flags and its moves. -/
def State.abortEntries (s : State) (i : Nat) : State :=
  ((List.range 50).foldl (fun s n => s.abortFolio n i) s).cancelMoves i

/-- The gathering that runs stream i. -/
def State.strGath (s : State) (i : Nat) : Nat := s.clsGath (s.str i).cls

/-- Stream i's step leaves the machine: entries aborted, the plane freed, landing-zone granules freed (R347). -/
def State.dropStep (s : State) (i : Nat) : State :=
  match (s.str i).step with
  | none => s
  | some t =>
    let s1 := if t.dispatched then (s.abortEntries i).dropPlane i t else s
    let s2 := s1.freeGranules t.burst.zone t.burst.grans
    s2.setStr i { s2.str i with step := none }

/-- A completion record enters the FIFO, or is held while the FIFO is full, with BUSY at 1 (R286). -/
def State.complete (s : State) (i op code : Nat) : State :=
  s.withLine 0x1A0 <|
  let r : DoneRec := ⟨s.handle i, op, code⟩
  let s1 := s.setStr i { s.str i with cmd := none }
  if s1.doneFifo.length < 64 then { s1 with doneFifo := s1.doneFifo ++ [r] }
  else { s1.setBit STRM_CMD_STAT 31 true with doneHeld := s1.doneHeld ++ [r] }

/-- The command code a stream waits to complete, completed with a code. -/
def State.completeCmd (s : State) (i code : Nat) : State :=
  match (s.str i).cmd with
  | none => s
  | some op => s.complete i op code

/-- A burst appended to the backlog region with its header (R313): its granules are freed; one that does not fit gets
BACKLOG_FULL. -/
def State.appendBacklog (s : State) (i : Nat) (b : Burst) : State :=
  let x := s.str i
  let s0 := s.freeGranules b.zone b.grans
  let n := 32 + b.len
  if x.backlogUsed + n ≤ x.backlogLen then
    (s0.hbmWrite (x.backlog + x.backlogUsed) ((s.burstBytes b).take n)).setStr i
      { x with backlogUsed := x.backlogUsed + n, backlogged := x.backlogged + 1 }
  else (((s0.setStr i { x with cntDrop := sat16 (x.cntDrop + 1) }).status i 9 b.seq b.bid).cntStrm 5 1).cntStrm 6 1
/-- The held bursts of a stream that no longer steps are appended to its backlog in SEQ order (R313; for bursts accepted before the
pause DEDUCED, log entry 35). -/
def State.stowHeld (s : State) (i : Nat) : State :=
  let x := s.str i
  x.held.foldl (fun s b => s.appendBacklog i b) (s.setStr i { x with held := [] })
/-- END_ERASE: zeros over both slots and over the commit record (R290). -/
def State.eraseWheel (s : State) (i : Nat) : State :=
  let n := (s.str i).wsize * 256
  ((s.hbmErase (s.wheelAddr i false) n).hbmErase (s.wheelAddr i true) n).hbmErase (s.recordAddr i) 16
/-- The commit record of stream i (R293): the committed slot and CSEQ. -/
def State.writeRecord (s : State) (i : Nat) : State :=
  let x := s.str i
  (s.hbmWrite (s.recordAddr i) (toBytes 8 (if x.slot then 1 else 0) ++ toBytes 8 x.cseq)).setStr i
    { x with recordDue := false }
/-- A stream that ends becomes FREE, its wheel erased where the command asked for it (R283, R290). -/
def State.freeStream (s : State) (i : Nat) : State :=
  let s0 := if (s.str i).recordDue then s.writeRecord i else s
  let s1 := if (s.str i).erase then s0.eraseWheel i else s0
  let s2 := s1.completeCmd i 0
  s2.setStr i (s2.str i).freed

/-- A step that has not begun (R24, R27). -/
def Step.fresh (b : Burst) : Step :=
  { burst := b, dispatched := false, mask := 0, ended := 0, attempt := 0, failed := false, uncounted := false, readFails := [],
    final := none, overrun := b.spent, released := false, rchecks := [], failedAfter := false, mirrorAck := false, rerun := false,
    replayed := false, covered := 0, lastSeq := b.seq, result := [], cold := false, badRead := none, lost := false }
/-- The burst at offset `off` of stream i's backlog, as its header says (R304, R313). -/
def State.backlogBurst (s : State) (i off : Nat) : Burst :=
  let h := fun (o n : Nat) => s.hbmLoad ((s.str i).backlog + off + o) n
  { seq := h 0x08 4, bid := h 0x0C 2, typ := h 0x00 1, fmt := h 0x01 1, len := h 0x10 4, elems := h 0x14 4, crc := h 0x18 4,
    next := 0, got := 0, timer := 0, zone := 0, grans := [], acc := true, spent := false }
/-- The next `m` bursts of the backlog from offset `off`, with the offset after them. -/
def State.backlogTake (s : State) (i : Nat) : (m off : Nat) → List Burst × Nat
  | 0, off => ([], off)
  | m + 1, off =>
    let b := s.backlogBurst i off
    let r := s.backlogTake i m (off + 32 + b.len)
    (b :: r.1, r.2)
/-- The replay from the next backlog input on waits for its dispatch. -/
def State.startReplay (s : State) (i : Nat) : State :=
  let x := s.str i
  s.setStr i { x with st := .replay, step := some { Step.fresh (s.backlogBurst i x.backlogRead) with replayed := true } }
/-- A replayed input ended its step without result and without a failure (R256, R310): the replay goes on behind it, as live steps would
(DEDUCED, log entry 139). -/
def State.skipInput (s : State) (i : Nat) : State :=
  let x := s.str i
  let off := (s.backlogTake i 1 x.backlogRead).2
  if x.backlogged ≤ 1 then
    (s.setStr i { x with st := .active, backlogged := 0, backlogUsed := 0, backlogRead := 0 }).completeCmd i 0
  else (s.setStr i { x with backlogged := x.backlogged - 1, backlogRead := off }).startReplay i
/-- The state of a stream whose step in flight has ended (R283): PAUSING becomes PAUSED, ENDING becomes FREE, a failed step
pauses the stream with FAULT, and the command that waits for it completes. -/
def State.stepOver (s : State) (i : Nat) (failed : Bool) : State :=
  let x := s.str i
  match x.st with
  | .pausing => ((s.setStr i { x with st := .paused, fault := x.fault || failed }).completeCmd i 0).stowHeld i
  | .ending => s.freeStream i
  | .active => if failed then (s.setStr i { x with st := .paused, fault := true }).stowHeld i else s
  | .replay => if failed then (s.setStr i { x with st := .paused, fault := true }).completeCmd i 0 else s.skipInput i
  | _ => s

/-- A step ends without result (R295, R29, R256, R310): its status message, with `logs` the entry of the fault log where one is
named, the counter of R327, and the stream paused with FAULT when the step failed or diverged. -/
def State.closeStep (s : State) (i code : Nat) (logs : Bool) : State :=
  match (s.str i).step with
  | none => s
  | some t =>
    let s1 := s.status i code t.burst.seq t.burst.bid
    let bad := code == 5 || code == 6
    let s2 := if bad && logs then s1.log (if code = 5 then 0x40 else 0x41) 0x40 2 (s.handle i) else s1
    let s3 := if bad then s2.cntStrm 4 1 else if code == 3 then s2.cntStrm 5 1 else s2
    (s3.dropStep i).stepOver i bad
/-- A step that ends with a check failed is logged under its own code. -/
def State.endStep (s : State) (i code : Nat) : State := s.closeStep i code true

/-- The step of the entry that a context runs has failed a check (R25). A failure through a detection that triggers a
retirement, or through the abort that a substitution imposes, is not counted (R558). -/
def State.failWork (s : State) (n c : Nat) (uncounted : Bool) : State :=
  match (s.ctx n c).entry with
  | none => s
  | some e =>
    if e.step then
      (let x := s.str e.stream
       match x.step with
       | some t => s.setStr e.stream { x with step := some { t with failed := true, uncounted := t.uncounted || uncounted } }
       | none => s)
    else s.failTags n c

/-- The step of stream i has failed an attempt (R25, R28). -/
def State.failStep (s : State) (i : Nat) (uncounted : Bool) : State :=
  let x := s.str i
  match x.step with
  | some t => s.setStr i { x with step := some { t with failed := true, uncounted := t.uncounted || uncounted } }
  | none => s
/-- The work that handed a contribution over fails (R475): its step, or the work of the context's doorbell entry. -/
def State.failGiver (s : State) (n : Nat) (x : Contrib) (uncounted : Bool) : State :=
  match x.owner with
  | some i => s.failStep i uncounted
  | none => s.failWork n x.ctx uncounted
/-- The work of a tag of folio n fails (R25): the step whose tag it is or that opened it, or the folio tag of a doorbell's entry. -/
def State.failTagWork (s : State) (tag n : Nat) (uncounted : Bool) : State :=
  if tag < 4096 then s.failStep tag uncounted
  else
    let lf := (tag - 4096) / 64
    let k := (tag - 4096) % 64
    match (s.tag lf k).owner with
    | some i => s.failStep i uncounted
    | none => if (s.tag lf k).st == .free || (s.tag lf k).st == .done then s else s.failTag n lf k

/-- The work tag a context works for, as the fault log's INFO gives it (R568). -/
def State.workTag (s : State) (n c : Nat) : Nat := (s.ctx n c).ctag.toNat

/-! ## Fencing and withdrawal -/

/-- Is the device a member of a charter in force (R500)? -/
def State.inCharter (s : State) : Bool := let t := s.fld CH_STAT 31 29; t == 2 || t == 3

/-- A notice of R517 about stream i. -/
def State.notice (s : State) (i kind : Nat) : State :=
  let x := s.str i
  s.send (msgHeader 0xC4 0 (s.handle i) x.wheelSeq 0 x.cseq 16 ++ toBytes 4 x.originHandle ++ toBytes 2 x.originSeat
    ++ toBytes 1 kind ++ toBytes 1 0 ++ toBytes 4 (s.reg CH_EPOCH) ++ toBytes 4 0)

/-- The stream indices that hold an entry of the table. -/
def State.strIdx (s : State) : List Nat := s.strm.map Prod.fst

/-- Bursts of stream i discarded, each with its one status message (R315); `code` is a DESIGN CHOICE where no rule names it (log entry
111). -/
def State.discard (s : State) (i code : Nat) (bs : List Burst) : State :=
  bs.foldl (fun s b => (s.freeGranules b.zone b.grans).status i code b.seq b.bid) s
/-- The step of stream i leaves the machine; one that has released nothing, and whose input is not in the backlog, gets a status. -/
def State.quitStep (s : State) (i code : Nat) : State :=
  let bs := match (s.str i).step with | some t => if t.released || t.replayed then [] else [t.burst] | none => []
  (bs.foldl (fun s b => s.status i code b.seq b.bid) s).dropStep i
/-- The curd and the held bursts of stream i discarded, counted in CNT_DROP (R506). -/
def State.dropBursts (s : State) (i : Nat) : State :=
  let x := s.str i
  let bs := x.curd.toList ++ x.held
  let s1 := s.discard i 0x0A bs
  (s1.setStr i { x with curd := none, held := [], cntDrop := sat16 (x.cntDrop + bs.length) }).cntStrm 6 bs.length

/-- Does the stream run, so that a lapse or a withdrawal stops it (R283, R506, R565)? -/
def StrmSt.live : StrmSt → Bool
  | .active | .pausing | .paused | .replay => true
  | _ => false

/-- A lapse of the hoop (R506): each live stream enters FENCED, its bursts are discarded, its step is neither released nor
committed, and the notice is sent. -/
def State.fence (s : State) : State :=
  s.strIdx.foldl (fun s i =>
    if (s.str i).st.live then
      (let s1 := (s.quitStep i 0x0A).dropBursts i
       ((s1.setStr i { s1.str i with st := .fenced }).completeCmd i 0).notice i 0)
    else s) s

/-- A device outside a charter that withdraws pauses its streams with FAULT (R565). -/
def State.pauseAll (s : State) : State :=
  s.strIdx.foldl (fun s i =>
    if (s.str i).st.live then
      (let s1 := s.quitStep i 5
       ((s1.setStr i { s1.str i with st := .paused, fault := true }).completeCmd i 0).stowHeld i)
    else s) s

/-- The device withdraws (R565). -/
def State.withdraw (s : State) : State :=
  if s.withdrawn then s
  else
    let s1 := s.log 0x5B 0x40 9 0
    let s2 := if s1.inCharter then s1.fence else s1.pauseAll
    s2.setBit FLT_STAT 29 true

/-! ## Event windows and retirement -/

/-- The counted events of the last second (R559). -/
def State.recent (s : State) : List FEvent := s.events.filter (fun e => decide (s.rclk ≤ e.time + oneSecond))

/-- The lowest-indexed spare that can take an index (R560): not retired, holding no index, not already substituting. -/
def State.freeSpare (s : State) : Option Nat :=
  (List.range 50).find? (fun n => !s.retired n && (s.logical n).isNone
    && s.substs.all (fun p => match p.2 with | some x => x.spare != n | none => true))

/-- The contexts of a folio stop: the steps they run or hold in their queues fail without being counted, their tags fail, and
no context holds work. -/
def State.isolate (s : State) (n : Nat) : State :=
  [0, 1, 2, 3].foldl (fun s c =>
    let s1 := (s.ctx n c).queue.foldl (fun s e => if e.step then s.failStep e.stream true else s) s
    let s2 := (s1.failWork n c true).failTags n c
    s2.setCtx n c Ctx.reset) s

/-- A refused or aborted entry recorded (R532): `who` the refuser's code, `target` the state as PM_REFUSE_LOG gives it. -/
def State.refuseEntry (s : State) (d target who : Nat) (abort : Bool) : State :=
  let s1 := if abort then s.bump PM_REFUSE_CNT 31 16 1 else s.bump PM_REFUSE_CNT 15 0 1
  s1.setReg PM_REFUSE_LOG (2 ^ 31 + target * 2 ^ 28 + who * 2 ^ 24 + d)
/-- The power sequence of a folio that is retired ends; an entry still in its E0 counts as refused (R563). -/
def State.dropPwr (s : State) (n : Nat) : State :=
  match Sp.get (fun _ => none) s.pwr n with
  | none => s
  | some x =>
    let s1 := { s with pwr := Sp.set (fun _ => none) s.pwr n none }
    if x.entering ∧ s.rclk < x.since + 2 then s1.refuseEntry n x.target 0 false else s1
/-- The words of a folio's pages that a transaction sets: mode, power and retention maps, enables and descriptors. -/
def folioSettings (n : Nat) : List Nat :=
  [FOLIO_CTRL n, FOLIO_FM_PWR n, FOLIO_FM_RET n]
    ++ (List.range 16).map (fun k => SEQ_DESC n (k / 4) (k % 4))
/-- The spare takes over the settings of the retired folio's pages (R595; that it does is DEDUCED, log entry 40); its enabled contexts
are idle. -/
def State.takeSettings (s : State) (n sp : Nat) : State :=
  let s1 := ((folioSettings n).zip (folioSettings sp)).foldl (fun s p => s.setReg p.2 (s.reg p.1)) s
  let s2 := s1.setReg (FOLIO_FM_STAT sp) (s1.reg (FOLIO_FM_PWR sp))
  [0, 1, 2, 3].foldl (fun s c =>
    (s.setBit (SEQ_CTX sp c) 31 (s.ctxEn n c)).setCtx sp c { Ctx.reset with st := if s.ctxEn n c then .idle else .off }) s2
/-- Has the gathering of a logical index a class with a stream that is not FREE (R563)? -/
def State.wanted (s : State) (k : Nat) : Bool := s.strIdx.any (fun i => (s.str i).st != .free && bit (s.gmask (s.strGath i)) k)
/-- The spare of a folio that was asleep and that nothing needs takes its index without waking (R563). -/
def State.takeAsleep (s : State) (n sp k : Nat) : State := (s.takeSettings n sp).setFld (SPN_LEAF k) 5 0 sp
/-- A folio is retired (R559, R560, R562): isolated, in F4, its index promised to the lowest spare, which takes it at once where the
folio slept and nothing needs it (R563), or left vacant when no spare remains, and then the device withdraws. -/
def State.retire (s : State) (n : Nat) : State :=
  if s.retired n then s
  else
    let s0 := ((s.isolate n).dropPwr n).setBit (FOLIO_RET (n / 32)) (n % 32) true
    let s1 := s0.setFolioState n 4
    match s.logical n with
    | none =>
      let sub := s.substs.find? (fun p => match p.2 with | some x => x.spare == n | none => false)
      let s2 := (s1.setFld SPARE_STAT 1 0 (s1.fld SPARE_STAT 1 0 - (if sub.isNone then 1 else 0))).log 0x58 n 4 0xFFFF
      (match sub with
       | none => s2
       | some (r, some x) =>
         (match s2.freeSpare with
          | some sp => ({ s2 with substs := Sp.set (fun _ => none) s2.substs r (some ⟨sp, x.logical⟩) }).setFld SPARE_STAT 1 0
              (s2.fld SPARE_STAT 1 0 - 1)
          | none => (({ s2 with substs := Sp.set (fun _ => none) s2.substs r none }).setBit (FOLIO_VAC (x.logical / 32)) (x.logical % 32) true).log 0x59 n 4 0 |>.withdraw)
       | some (_, none) => s2)
    | some k =>
      (match s1.freeSpare with
       | some sp =>
         let s2 := (s1.setFld SPARE_STAT 1 0 (s1.fld SPARE_STAT 1 0 - 1)).log 0x58 n 4 (k * 256 + sp)
         if 2 ≤ s.folioState n ∧ s.folioState n ≤ 4 ∧ !s.wanted k then s2.takeAsleep n sp k
         else { s2 with substs := Sp.set (fun _ => none) s2.substs n (some ⟨sp, k⟩) }
       | none =>
         (((s1.log 0x58 n 4 (k * 256 + 0xFF)).setBit (FOLIO_VAC (k / 32)) (k % 32) true).log 0x59 n 4 0).withdraw)

/-- An event of a folio counted in its window (R559): the folio is retired at `need` events that agree with it in code and,
where `same` says so, in the address; and for PARITY at 8 events of the folio. -/
def State.countEvent (s : State) (n code info need : Nat) (same : Bool) : State :=
  let e : FEvent := ⟨n, code, info, s.rclk⟩
  let s1 := { s with events := s.recent ++ [e] }
  let hits : List FEvent := s1.events.filter (fun x => x.unit == n && x.code == code && (!same || x.info == info))
  let all : List FEvent := s1.events.filter (fun x => x.unit == n && x.code == code)
  if s.retired n then s1
  else if decide (need ≤ hits.length) || (code == 0x10 && decide (8 ≤ all.length)) then s1.retire n else s1

/-- Would one more such event retire the folio (R558, R559)? -/
def State.triggers (s : State) (n code info need : Nat) (same : Bool) : Bool :=
  let hits := s.recent.filter (fun x => x.unit == n && x.code == code && (!same || x.info == info))
  let all := s.recent.filter (fun x => x.unit == n && x.code == code)
  !s.retired n && (decide (need ≤ hits.length + 1) || (code == 0x10 && decide (8 ≤ all.length + 1)))

/-- A counted fault of an engine or of a bound on the work of a context (R553, R559): the work fails before release, the event
is logged with ACTION rerun, or folio retired where it triggers one, and counted. -/
def State.engineFault (s : State) (n c code : Nat) (counts : Bool) : State :=
  let tag := s.workTag n c
  let trig := counts && s.triggers n code 0 2 false
  let s1 := (s.failWork n c trig).log code n (if trig then 4 else 1) tag
  if counts then s1.countEvent n code 0 2 false else s1

/-- A counted fault of an engine that works for a tag, after the bundle that started the work (R140, R153, R559). -/
def State.tagFault (s : State) (n tag code : Nat) : State :=
  let trig := s.triggers n code 0 2 false
  ((s.failTagWork tag n trig).log code n (if trig then 4 else 1) tag).countEvent n code 0 2 false

/-! ## Parity errors -/

/-- The valid signature entry that covers a vat address (R344). -/
def State.sigAt (s : State) (a : Nat) : Option Nat :=
  (List.range 1024).find? (fun h =>
    s.rbit (SIG h 3) 31 && decide (s.fld (SIG h 2) 17 0 * 256 ≤ a)
      && decide (a < s.fld (SIG h 2) 17 0 * 256 + s.fld (SIG h 1) 31 17 * 256))

/-- Is a folio memory address inside the golden map (R357)? -/
def State.inGolden (s : State) (n a : Nat) : Bool :=
  match s.logical n with
  | none => false
  | some k => s.scheds.any (fun x => x.golden.any (fun g =>
      g.folio.val == k && decide (g.block.toNat * 4096 ≤ a) && decide (a < (g.block.toNat + g.count) * 4096)))

/-- Is a word reloaded from a golden copy (R356)? -/
def State.isGolden (s : State) (n src a : Nat) : Bool :=
  if src = 0 then s.inGolden n a
  else if src = 2 ∨ src = 3 ∨ src = 5 then true
  else if src = 6 then (match s.sigAt a with | some h => s.fld (SIG h 3) 30 28 == 3 | none => false)
  else false

/-- A parity error written into FOLIO_PERR or VAT_PERR and its counter (R362 to R364). -/
def State.perr (s : State) (n src a : Nat) (scrub : Bool) : State :=
  if src = 6 then
    let s1 := if s.rbit VAT_PERR 31 then s else s.setReg VAT_PERR (2 ^ 31 + (if scrub then 2 ^ 30 else 0) + a / 8 * 8)
    if scrub then s1.bump VAT_PERR_CNT 31 16 1 else s1.bump VAT_PERR_CNT 15 0 1
  else
    let s1 := if s.rbit (FOLIO_PERR n) 31 then s
      else s.setReg (FOLIO_PERR n) (2 ^ 31 + src * 2 ^ 28 + (if scrub then 2 ^ 27 else 0) + a / 8 * 8)
    let s2 := if src = 3 ∧ ¬ scrub then s1.setBit (FOLIO_SFU_STORE n) 31 true else s1
    if scrub then s2.bump (FOLIO_PERR_CNT n) 31 16 1 else s2.bump (FOLIO_PERR_CNT n) 15 0 1

/-- A vat bank fails (R564): powered off, logged, and where a valid entry covers it the device withdraws. -/
def State.failBank (s : State) (b : Nat) : State :=
  let s1 := (((s.setBit (VAT_FAIL (b / 32)) (b % 32) true).setBit (VAT_STAT (b / 32)) (b % 32) false).setBit (VAT_PWR (b / 32)) (b % 32) false).log
    0x5A (0x50 + b) 5 b
  let covered := (List.range 1024).any (fun h =>
    s.rbit (SIG h 3) 31 && decide (s.fld (SIG h 2) 17 0 * 256 < (b + 1) * 0x80000)
      && decide (b * 0x80000 < s.fld (SIG h 2) 17 0 * 256 + s.fld (SIG h 1) 31 17 * 256))
  if covered then s1.withdraw else s1

/-- Would one more PARITY event at a vat address fail its bank (R564)? -/
def State.bankTriggers (s : State) (a : Nat) : Bool :=
  let b := a / 0x80000
  let all := s.recent.filter (fun x => x.unit == 0x50 + b && x.code == 0x10)
  !s.rbit (VAT_FAIL (b / 32)) (b % 32) && (decide (2 ≤ (all.filter (fun x => x.info == a)).length + 1) || decide (8 ≤ all.length + 1))

/-- A PARITY event of a vat bank counted (R564): two at one address or eight in the bank within a second fail it. -/
def State.countBank (s : State) (a : Nat) : State :=
  let b := a / 0x80000
  let s1 := { s with events := s.recent ++ [⟨0x50 + b, 0x10, a, s.rclk⟩] }
  let all : List FEvent := s1.events.filter (fun x => x.unit == 0x50 + b && x.code == 0x10)
  if s.rbit (VAT_FAIL (b / 32)) (b % 32) then s1
  else if decide (2 ≤ (all.filter (fun x => x.info == a)).length) || decide (8 ≤ all.length) then s1.failBank b else s1

/-- The KIND of the signature entry that covers a vat address; 0 where none does. -/
def State.kindAt (s : State) (a : Nat) : Nat := match s.sigAt a with | some h => s.fld (SIG h 3) 30 28 | none => 0
/-- ACTION of a PARITY entry of the vat (R568): bank failed where it triggers that, step failed for a burst landing zone, golden
reload, or rerun. -/
def State.vatAct (s : State) (a : Nat) (gold : Bool) : Nat :=
  if s.bankTriggers (a / 8 * 8) then 5 else if s.kindAt a == 1 then 2 else if gold then 3 else 1

/-- The copies of wheels in a buffer of the vat are invalid (R356, R358). -/
def State.coolBuf (s : State) (h : Nat) : State :=
  s.strIdx.foldl (fun s i => if (s.schedClass (s.str i).cls).bind (fun k => k.wheelBuf.map (fun v => v.toNat)) = some h then
    s.setStr i { s.str i with warm := false } else s) s
/-- The step of stream i reruns cold after an error in a golden block (R357). -/
def State.coldRerun (s : State) (i : Nat) : State :=
  match (s.str i).step with
  | some t => s.setStr i { s.str i with step := some { t with cold := true } }
  | none => s
/-- The step of stream i ends with BURST_CHECK after an error in its landing zone, or with STEP_DIVERGED once its result is released
(R356). -/
def State.burstBad (s : State) (i : Nat) : State :=
  match (s.str i).step with
  | some t => s.endStep i (if t.released then 6 else 3)
  | none => s
/-- A parity error found by a read of work, whose stream is `i` where it is a step's and whose failure is `fail` (R355, R356): the word
stays bad, the error is logged, and the work fails; a bad word of a burst landing zone ends the step; one of a wheel buffer makes the
copy invalid; one of a golden block makes the rerun cold (R357). -/
def State.parityAt (s : State) (n src a : Nat) (i : Option Nat) (fail : Bool → State → State) : State :=
  let s1 := (s.markBad n src a).perr n src a false
  let gold := s.isGolden n src a
  let info := src * 2 ^ 28 + a / 8 * 8
  let failed := fun (u : Bool) (t : State) => match i, gold with
    | some k, true => (fail u t).coldRerun k
    | _, _ => fail u t
  if src = 6 then
    let s2 := s1.log 0x10 (0x50 + a / 0x80000) (s.vatAct a gold) (a / 8 * 8)
    let s3 := match s.kindAt a, i with
      | 1, some k => s2.burstBad k
      | 2, _ => (match s.sigAt a with | some h => (failed false s2).coolBuf h | none => failed false s2)
      | _, _ => failed false s2
    s3.countBank (a / 8 * 8)
  else
    let trig := s.triggers n 0x10 info 2 true
    ((failed trig s1).log 0x10 n (if trig then 4 else if gold then 3 else 1) info).countEvent n 0x10 info 2 true
/-- A parity error found by a read of the work of a context. -/
def State.parityRead (s : State) (n c src a : Nat) : State := s.parityAt n src a (s.ctx n c).owner (fun u t => t.failWork n c u)
/-- The stream whose step a work tag of folio n works for. -/
def State.tagOwner (s : State) (tag : Nat) : Option Nat :=
  if tag < 4096 then (if (s.str tag).step.isSome then some tag else none) else (s.tag ((tag - 4096) / 64) ((tag - 4096) % 64)).owner
/-- A parity error found by a read for a work tag after the bundle that started the work. -/
def State.tagParity (s : State) (n tag src a : Nat) : State :=
  s.parityAt n src a (s.tagOwner tag) (fun u t => t.failTagWork tag n u)
/-- What the broadcast's check of stream i's step found, logged as the step is taken up again (R356). -/
def State.castLogged (s : State) (i : Nat) : State :=
  match (s.str i).step.bind (fun t => t.badRead) with
  | none => s
  | some a =>
    let s1 := ((s.markBad 0 6 a).perr 0 6 a false).log 0x10 (0x50 + a / 0x80000) (s.vatAct a false) (a / 8 * 8)
    let s2 := match (s1.str i).step with
      | some t => s1.setStr i { s1.str i with step := some { t with badRead := none } }
      | none => s1
    s2.countBank (a / 8 * 8)

/-! ## Traps and issue -/

/-- SEQ_TRAP and SEQ_CNT.TRAP after a trap (R422, R424): SEQ_TRAP keeps the first since its last clear. -/
def State.recordTrap (s : State) (n c code : Nat) : State :=
  s.withLine (0x041 + 4 * n) <|
  let s1 := if s.rbit (SEQ_TRAP n) 31 then s
    else s.setReg (SEQ_TRAP n) (2 ^ 31 + c * 2 ^ 29 + code * 2 ^ 21 + (s.ctx n c).pc.toNat)
  s1.bump (SEQ_CNT n) 15 0 1

/-- The work of a trapped context fails (R422): a step ends with STEP_FAILED and is not rerun; the folio tags of the entry end
FAILED; the fault is logged as SEQ_TRAP alone (DEDUCED, log entry 112). A doorbell's CTAG is 0 (R413), as is the step tag of stream 0,
whose step keeps its work where it is in flight (DESIGN CHOICE, log entry 126). -/
def State.failTrapped (s : State) (n c : Nat) : State :=
  let s1 := (s.log 0x19 n 2 0).failTags n c
  match (s.ctx n c).entry with
  | some e => if e.step then s1.closeStep e.stream 5 false else if (s.str 0).step.isNone then s1.cancelEngines n 0 else s1
  | none => s1

/-- A trap taken (R422) by the folio's mode: in normal service the work fails and the context takes its next entry; in
start-up, test and recovery the context halts with its work failed; in debug it halts and no work fails. -/
def State.takeTrap (s : State) (n c code : Nat) : State :=
  let s1 := s.recordTrap n c code
  if s.mode n = 0 then
    let step := match (s.ctx n c).entry with | some e => e.step | none => false
    let s2 := s1.failTrapped n c
    if step then s2 else s2.endEntry n c
  else
    let s2 := s1.setCtx n c { s1.ctx n c with st := .halted, wait := none }
    (if s.mode n = 4 then s2 else
      let s3 := s2.failTrapped n c
      s3.setCtx n c { s3.ctx n c with entry := none }).select n

/-- What one slot of a bundle does: the traps it may raise with their codes (R454), what it waits for at issue, and its effect. -/
structure SlotOp where
  traps : List (Bool × Nat)
  wait : Option WaitK
  run : State → State

/-- The lowest code among the rules a bundle breaks (R454). -/
def lowestTrap (ts : List (Bool × Nat)) : Option Nat :=
  ts.foldl (fun m t => if t.1 then (match m with | none => some t.2 | some k => some (min k t.2)) else m) none

/-- Both slots of a bundle (R428): traps of either, the first wait, the engine's effect and then the scalar slot's. Register
operands are read at issue from the state before either slot writes. -/
def SlotOp.both (e k : SlotOp) : SlotOp :=
  ⟨e.traps ++ k.traps, match e.wait with | some w => some w | none => k.wait, fun s => k.run (e.run s)⟩

/-- An instruction store lands (R406). -/
def State.storeBundle (s : State) (n : Nat) (p : IStore) : State := s.put 2 (131072 * n + 16 * p.index.toNat) (toBytes 16 p.bundle.toNat)
/-- Pending instruction stores after one more bundle of context c issues (R406): a store lands with the fourth bundle after it in its
context's issue order. -/
def State.landStores (s : State) (n c : Nat) : State :=
  let ps := (Sp.get (fun _ => []) s.istores n).map (fun p => if p.ctx = c then { p with left := p.left - 1 } else p)
  let due := ps.filter (fun p => p.left == 0)
  due.foldl (fun s p => s.storeBundle n p) { s with istores := Sp.set (fun _ => []) s.istores n (ps.filter (fun p => p.left != 0)) }

/-- A bundle issues: PC at the next bundle, no wait, pending stores counted (R401, R406), the trace fed (R624). -/
def State.advance (s : State) (n c : Nat) : State :=
  let x := s.ctx n c
  let t := (s.setCtx n c { x with pc := x.pc + 1, wait := none }).landStores n c
  { t with trace := s.traceIssue n c x.pc.toNat }

/-- The READY context above c that interrupts it (R400, R415); none while an instruction store is pending (R406). -/
def State.raised (s : State) (n c : Nat) : Option Nat :=
  if Sp.get (fun _ => []) s.istores n ≠ [] then none
  else [3, 2, 1].find? (fun k => decide (c < k) && (s.ctx n k).st == .ready)
/-- A debug halt that waits takes the context once no tile of it is due (R92, R416, R422). -/
def State.haltDue (s : State) (n c : Nat) : State :=
  let x := s.ctx n c
  if x.halting && x.due.isNone && x.st == .running then (s.setCtx n c { x with st := .halted, wait := none, halting := false }).select n else s

/-! Residue codes (R570). -/

def ARR_RESIDUE : Nat := 0x01
def MVP_RESIDUE : Nat := 0x02
def GATE_RESIDUE : Nat := 0x03
def SFU_RESIDUE : Nat := 0x04
def VEC_RESIDUE : Nat := 0x05
def SCAN_RESIDUE : Nat := 0x06
def RNG_RESIDUE : Nat := 0x07
def SPN_RESIDUE : Nat := 0x08

/-! ## What the memories' checks find of a run (R355, R356, R379) -/

/-- Does what a run leaves, outside the `len` bytes from `k` of memory m, depend on what those bytes held (a read of them; DEDUCED, log
entry 131)? -/
def State.dependsOn (s : State) (run : State → State) (m k len : Nat) : Bool :=
  let t := run s
  let u := run (s.setMem m ((s.mem m).write k (((s.mem m).bytes k len).map (fun b => ~~~b))))
  decide (u.setMem m ((u.mem m).write k ((t.mem m).bytes k len)) ≠ t)
/-- Does a run write a part of a word that stays bad, whose merged read finds it (R355)? -/
def State.mergesInto (s : State) (run : State → State) (w : Nat) : Bool :=
  let m := w / 2 ^ 32
  let k := 8 * (w % 2 ^ 32)
  let t := run s
  let u := run (s.setMem m ((s.mem m).write k (((s.mem m).bytes k 8).map (fun b => ~~~b))))
  t.isBad w && (((t.mem m).bytes k 8).zip ((u.mem m).bytes k 8)).any (fun p => p.1 == p.2)
/-- Does a run of context c's bundle read a word with bad parity, or write a part of one (R355)? The fetch reads the bundle. -/
def State.readsBad (s : State) (n c : Nat) (run : State → State) : Bool :=
  !s.bad.isEmpty && ((s.badIn 2 (131072 * n + 16 * (s.ctx n c).pc.toNat) 16).isSome
    || s.bad.any (fun p => s.dependsOn run (p.1 / 2 ^ 32) (8 * (p.1 % 2 ^ 32)) 8 || s.mergesInto run p.1))
/-- The slots of the context's fetch streams whose tiles have been issued and have not landed (R379): memory, key and length. -/
def State.unlanded (s : State) (n c : Nat) : List (Nat × Nat × Nat) :=
  (List.range 8).flatMap (fun k =>
    match Sp.get (fun _ => none) s.fetch ((4 * n + c) * 8 + k) with
    | none => []
    | some f =>
      if f.cancelled then []
      else ((List.range (f.issued - f.released)).filter (fun j => !f.landed.contains (f.released + j))).filterMap (fun j =>
        let off := (f.released + j) % f.depth * f.tileBytes
        match f.ring with
        | .fm a => some (0, n * 2 ^ 20 + a + off, f.tileBytes)
        | .vat h o => some (6, s.sigBase h + o + off, f.tileBytes)
        | _ => none))
/-- MOVE_LATE (R379). -/
def MOVE_LATE : Nat := 0x29
/-- What a run leaves; one that reads a slot whose tile has not landed reads what the slot holds, and its work fails (R379). -/
def State.timely (s : State) (n c : Nat) (run : State → State) : State :=
  if (s.unlanded n c).any (fun r => s.dependsOn run r.1 r.2.1 r.2.2) then (run s).engineFault n c MOVE_LATE false else run s
/-- What the checks of a bundle's run lead to (R25, R355, R356): with none failing, the run, which then reads no bad word; a parity
error fails the work, and nothing that the bundle would write is written (`drop`); one of a merged read fails it after the effect; so
does a mismatch of the engine (`resid`), or of its draws where it `draws` (R277). -/
def checked (a : Issue) (resid : Option Nat) (draws : Bool) (drop run : State → State) (s : State) : Res :=
  let n := a.folio.val
  let c := a.ctx.val
  match a.hw with
  | .ok => if s.readsBad n c run then notDue "the bundle reads a word with bad parity (R355)" else .next (s.timely n c run)
  | .parity src addr => .next ((drop s).parityRead n c src.val addr)
  | .merge src addr => .next ((run s).parityRead n c src.val addr)
  | .residue => match resid with
    | some code => .next ((run s).engineFault n c code true)
    | none => notDue "the unit has no residue check"
  | .rng => if draws then .next ((run s).engineFault n c RNG_RESIDUE true) else notDue "the bundle draws nothing"

/-- The issue of a bundle (R401, R422, R428, R644): the context must run, be inside no instruction and owe no RESUME (R419), and no
interrupt be raised, which takes the context at once (R416); the lowest trap is taken; a bundle that must wait leaves the PC; otherwise
it issues, under the checks of what it reads. -/
def issue (a : Issue) (op : State → SlotOp) (resid : Option Nat) (draws : Bool) (s : State) : Res :=
  let n := a.folio.val
  let c := a.ctx.val
  let x := s.ctx n c
  let o := op s
  if x.st ≠ .running then notDue "the context is not running"
  else if x.resume.valid then notDue "the context continues with RESUME (R419)"
  else if x.inside.isSome then notDue "the context stays inside an instruction (R644)"
  else if (s.raised n c).isSome then notDue "an interrupt takes the context first (R416)"
  else match lowestTrap o.traps with
    | some code => .next (s.takeTrap n c code)
    | none => match o.wait with
      | some w => .next (s.setCtx n c { x with wait := some w })
      | none => checked a resid draws (fun t => t.advance n c) (fun t => (op t).run (t.advance n c)) s
/-- The instruction that a context is inside of goes on (R644), unless a tile of it is due to run again or an interrupt takes the
context at its boundary (R92, R416). -/
def goOn (a : Issue) (resid : Option Nat) (draws : Bool) (run : State → State) (s : State) : Res :=
  let n := a.folio.val
  let c := a.ctx.val
  let x := s.ctx n c
  if x.st ≠ .running then notDue "the context is not running"
  else if x.due.isSome then notDue "a tile is due to run again (R92)"
  else if (s.raised n c).isSome then notDue "an interrupt takes the context first (R416)"
  else checked a resid draws (fun t => t.setCtx n c { x with inside := none }) run s

end Sys2Proof.Machine
end

