-- ==== Sys2Proof/Machine/Operands.lean ====
section
/-! DEFINITION. Operand forms: trap codes (R454), register and address operands (R431, R432), and the checks of memory ranges
made at issue (R334, R335, R346, R360, R365). -/

namespace Sys2Proof.Machine

/-! Trap codes of R454. -/

def OPC_RESERVED : Nat := 0x01
def FLD_RESERVED : Nat := 0x02
def SLOT_MIX : Nat := 0x03
def REG_RANGE : Nat := 0x04
def ADDR_FORM : Nat := 0x05
def FMT_RESERVED : Nat := 0x08
def FMT_MIX : Nat := 0x09
def FMT_COMPLEX : Nat := 0x0A
def FMT_STRICT : Nat := 0x0B
def FMT_ROUND : Nat := 0x0C
def SCALE_INVALID : Nat := 0x0D
def CLIP_ORDER : Nat := 0x0E
def SEQ_STACK : Nat := 0x10
def SEQ_ISTORE : Nat := 0x11
def SEQ_TAG : Nat := 0x12
def SEQ_RESUME : Nat := 0x13
def SEQ_CTX_TRAP : Nat := 0x14
def ASLOT_MODE : Nat := 0x18
def ASLOT_RANGE : Nat := 0x19
def ATILE_RANGE : Nat := 0x1A
def ATILE_STATE : Nat := 0x1B
def ARR_RBUD : Nat := 0x1C
def AFOLD_SHAPE : Nat := 0x1D
def ARR_HELD : Nat := 0x1E
def MV_LEN : Nat := 0x20
def MV_ROWS : Nat := 0x21
def MV_ALIGN : Nat := 0x22
def MV_DEST : Nat := 0x23
def MV_LOAD : Nat := 0x24
def GATE_CLASS : Nat := 0x28
def GATE_UNITS : Nat := 0x29
def GATE_PROG : Nat := 0x2A
def GATE_FULL : Nat := 0x2B
def SFN_FN : Nat := 0x30
def SFN_FMT : Nat := 0x31
def SFN_PROG : Nat := 0x32
def SFN_LANES : Nat := 0x33
def ROWSTAT_DEST : Nat := 0x34
def VEC_OP : Nat := 0x38
def VEC_FMT : Nat := 0x39
def VEC_REG : Nat := 0x3A
def VEC_ALIGN : Nat := 0x3B
def VEC_STRIDE : Nat := 0x3C
def VEC_FILE : Nat := 0x3D
def ZRD_SHAPE : Nat := 0x3E
def RNG_CTX : Nat := 0x40
def RNG_INDEX : Nat := 0x41
def RNG_FORM : Nat := 0x42
def SCAN_SHAPE : Nat := 0x48
def SCAN_MODE : Nat := 0x49
def SCAN_ALIGN : Nat := 0x4A
def SCONV_SHAPE : Nat := 0x4B
def FM_BOUND : Nat := 0x50
def FM_OFF : Nat := 0x51
def MEM_ALIGN : Nat := 0x52
def MEM_LEN : Nat := 0x53
def VAT_HANDLE : Nat := 0x54
def VAT_RANGE : Nat := 0x55
def VAT_RIGHT : Nat := 0x56
def LZ_KIND : Nat := 0x57
def LZ_CREDIT : Nat := 0x58
def XF_ALIGN : Nat := 0x60
def XF_LEN : Nat := 0x61
def XF_RANGE : Nat := 0x62
def XF_DEPTH : Nat := 0x63
def XF_DEST : Nat := 0x64
def XF_STREAM : Nat := 0x65
def LP_LEN : Nat := 0x66
def SPN_SHAPE : Nat := 0x68

/-! ## Address operands (R432) -/

/-- A folio memory or operand buffer operand: bits [19:0]; the others must be zero, but [47:32] where it takes a stride. -/
def addrOf (a : Nat) : Nat := bits a 19 0
def strideOf (a : Nat) : Nat := bits a 47 32
def badAddr (a : Nat) : Bool := a != addrOf a
def badStrided (a : Nat) : Bool := a != addrOf a + strideOf a * 2 ^ 32
/-- A vat operand: offset in [25:0], handle in [41:32]. -/
def vatOff (a : Nat) : Nat := bits a 25 0
def vatHandle (a : Nat) : Nat := bits a 41 32
def badVat (a : Nat) : Bool := a != vatOff a + vatHandle a * 2 ^ 32
/-- An HBM operand: bits [35:0]. -/
def hbmOf (a : Nat) : Nat := bits a 35 0
def badHbm (a : Nat) : Bool := a != hbmOf a

/-! ## Folio memory ranges (R334, R335, R360) -/

/-- The physical address of a context-relative address (R334). -/
def State.fmPhys (s : State) (n c r : Nat) : Nat := s.dFmbase n c * 4096 + r
/-- The key in the folio memories of a context-relative address. -/
def State.fmKey (s : State) (n c r : Nat) : Nat := n * 2 ^ 20 + s.fmPhys n c r
/-- Does a context-relative range pass the context's bound? -/
def State.fmOut (s : State) (n c : Nat) (lo hi : Int) : Bool := decide (lo < 0) || decide ((s.dFmsize n c * 4096 : Nat) ≤ hi)
/-- Does a context-relative range touch a segment that is not powered (R360)? -/
def State.fmDark (s : State) (n c : Nat) (lo hi : Int) : Bool :=
  let b : Int := (s.dFmbase n c * 4096 : Nat)
  (List.range 16).any (fun k =>
    !s.rbit (FOLIO_FM_STAT n) k && decide (b + lo < ((k + 1) * 65536 : Nat)) && decide (((k * 65536 : Nat) : Int) ≤ b + hi))
/-- The traps of a folio memory range from `lo` to `hi`, both included (R335, R365). -/
def State.fmTraps (s : State) (n c : Nat) (lo hi : Int) : List (Bool × Nat) :=
  [(s.fmOut n c lo hi, FM_BOUND), (s.fmDark n c lo hi, FM_OFF)]
/-- The traps of a range of `len` bytes from `lo`; none for an empty range. -/
def State.fmSpan (s : State) (n c lo len : Nat) : List (Bool × Nat) :=
  if len = 0 then [] else s.fmTraps n c lo ((lo + len : Nat) - 1 : Int)

/-- Reading and writing folio memory by context-relative address. -/
def State.fmBytes (s : State) (n c r len : Nat) : List Byte := s.fm.bytes (s.fmKey n c r) len
def State.fmLoad (s : State) (n c r len : Nat) : Nat := s.fm.load (s.fmKey n c r) len
def State.fmWrite (s : State) (n c r : Nat) (bs : List Byte) : State := s.put 0 (s.fmKey n c r) bs
def State.fmStore (s : State) (n c r len v : Nat) : State := s.put 0 (s.fmKey n c r) (toBytes len v)

/-! ## Operand buffers (R339) -/

def obKey (n arr a : Nat) : Nat := (4 * n + arr) * 65536 + a
/-- An operand buffer range that passes 64 KiB. -/
def obOut (a len : Nat) : Bool := decide (65536 < a + len)

/-! ## The vat (R344, R346) -/

def State.sigV (s : State) (h : Nat) : Bool := s.rbit (SIG h 3) 31
def State.sigKind (s : State) (h : Nat) : Nat := s.fld (SIG h 3) 30 28
def State.sigGath (s : State) (h : Nat) : Nat := s.fld (SIG h 3) 27 24
def State.sigOwner (s : State) (h : Nat) : Nat := s.fld (SIG h 3) 23 18
def State.sigRd (s : State) (h : Nat) : Bool := s.rbit (SIG h 3) 17
def State.sigWr (s : State) (h : Nat) : Bool := s.rbit (SIG h 3) 16
def State.sigGaddr (s : State) (h : Nat) : Nat := s.fld (SIG h 3) 15 0 * 256 + s.fld (SIG h 2) 31 24
def State.sigSize (s : State) (h : Nat) : Nat := s.fld (SIG h 1) 31 17 * 256
/-- Is a vat bank powered and initialised? -/
def State.bankOn (s : State) (b : Nat) : Bool := s.rbit (VAT_STAT (b / 32)) (b % 32)
/-- Does a vat range touch a bank that is not powered? -/
def State.vatDark (s : State) (a len : Nat) : Bool :=
  (List.range 80).any (fun b => !s.bankOn b && decide (a < (b + 1) * 0x80000) && decide (b * 0x80000 < a + len))
/-- The traps of a vat access of a folio (R346): the handle, the range, the right. -/
def State.vatTraps (s : State) (n h off len : Nat) (right : Bool) : List (Bool × Nat) :=
  [(!s.sigV h || some (s.sigGath h) != s.gathOfPhys n || s.vatDark (s.sigBase h + off) len, VAT_HANDLE),
   (decide (s.sigSize h < off + len), VAT_RANGE), (!right, VAT_RIGHT)]
def State.vatBytes (s : State) (h off len : Nat) : List Byte := s.vat.bytes (s.sigBase h + off) len
def State.vatWrite (s : State) (h off : Nat) (bs : List Byte) : State := s.put 6 (s.sigBase h + off) bs

/-! ## Work tags of an engine instruction (R438) -/

/-- The work tag an engine instruction names: CTAG for 0x40, else the folio tag. -/
def State.engTag (s : State) (n c : Nat) (e : Eng) : Nat :=
  if e.tag = 0x40 then (s.ctx n c).ctag.toNat
  else match s.logical n with
    | some lf => folioTag lf e.tag.toNat
    | none => 0
/-- Does folio tag k lie in the range of its context (R397)? -/
def State.tagInRange (s : State) (n c k : Nat) : Bool :=
  decide (s.dTaglo n c ≤ k) && decide (k < s.dTaglo n c + s.dTagn n c) && (s.logical n).isSome
/-- The state of folio tag k of the folio. -/
def State.tagSt (s : State) (n k : Nat) : TagSt :=
  match s.logical n with | some lf => (s.tag lf k).st | none => .free
/-- The tag of an engine instruction (R409, R430, R438): a reserved value, or a folio tag that is not open or not the context's. -/
def State.tagTraps (s : State) (n c : Nat) (e : Eng) : List (Bool × Nat) :=
  let k := e.tag.toNat
  [(decide (0x40 < k), FLD_RESERVED),
   (decide (k < 0x40) && !(s.tagInRange n c k && s.tagSt n k == .opened), SEQ_TAG)]

end Sys2Proof.Machine
end

