-- ==== Sys2Proof/Machine/Scalar.lean ====
section
/-! DEFINITION. The scalar slot (14_instruction_encoding.md R434 to R436): register and immediate arithmetic, loads and
stores, address registers, loop counters. Each operation is one slot of a bundle; its command issues it beside an empty engine
slot. -/

namespace Sys2Proof.Machine

/-- Sign extension of a k-bit number. -/
def sx (k x : Nat) : Int := if x % 2 ^ k < 2 ^ (k - 1) then ((x % 2 ^ k : Nat) : Int) else ((x % 2 ^ k : Nat) : Int) - ((2 ^ k : Nat) : Int)
/-- An integer modulo 2^64 and modulo 2^32. -/
def wrap64 (x : Int) : Nat := (x % (2 ^ 64 : Int)).toNat
def wrap32 (x : Int) : Nat := (x % (2 ^ 32 : Int)).toNat

/-! Fields of the layouts of R434. -/

def fRD (w : Nat) : Nat := bits w 25 21
def fRA (w : Nat) : Nat := bits w 20 16
def fRB (w : Nat) : Nat := bits w 15 11
def fIMM (w : Nat) : Nat := bits w 15 0
def fAB (w : Nat) : Nat := bits w 20 17
def fOFF (w : Nat) : Int := sx 17 (bits w 16 0)
def fTGT (w : Nat) : Nat := bits w 12 0
def fTAG (w : Nat) : Nat := bits w 25 19
def fLIM (w : Nat) : Nat := bits w 15 0

/-- NOP (R435). -/
def opNop (_n _c w : Nat) (_s : State) : SlotOp := ⟨[(w != 0, FLD_RESERVED)], none, id⟩

/-- A register operation of layout S-R: s(RD) = s(RA) op s(RB). -/
def opAlu (f : Word → Word → Word) (n c w : Nat) (s : State) : SlotOp :=
  ⟨[(bits w 10 0 != 0, FLD_RESERVED)], none, fun t =>
    t.setSr n c (fRD w) (f (BitVec.ofNat 32 (s.sr n c (fRA w))) (BitVec.ofNat 32 (s.sr n c (fRB w)))).toNat⟩
/-- An immediate operation of layout S-I: s(RD) = s(RA) op IMM. -/
def opImm (f : Word → Nat → Word) (n c w : Nat) (s : State) : SlotOp :=
  ⟨[], none, fun t => t.setSr n c (fRD w) (f (BitVec.ofNat 32 (s.sr n c (fRA w))) (fIMM w)).toNat⟩
/-- A shift by an immediate: IMM[15:5] is zero. -/
def opShImm (f : Word → Nat → Word) (n c w : Nat) (s : State) : SlotOp :=
  ⟨[(bits w 15 5 != 0, FLD_RESERVED)], none, (opImm f n c w s).run⟩

def opAdd := opAlu (fun x y => x + y)
def opSub := opAlu (fun x y => x - y)
def opAnd := opAlu (fun x y => x &&& y)
def opOr := opAlu (fun x y => x ||| y)
def opXor := opAlu (fun x y => x ^^^ y)
def opShl := opAlu (fun x y => x <<< (y.toNat % 32))
def opShr := opAlu (fun x y => x >>> (y.toNat % 32))
def opSra := opAlu (fun x y => x.sshiftRight (y.toNat % 32))
def opMul := opAlu (fun x y => x * y)
def opSlt := opAlu (fun x y => if x.slt y then 1 else 0)
def opSltu := opAlu (fun x y => if x.ult y then 1 else 0)
def opAddi := opImm (fun x k => x + BitVec.signExtend 32 (BitVec.ofNat 16 k))
def opAndi := opImm (fun x k => x &&& BitVec.ofNat 32 k)
def opOri := opImm (fun x k => x ||| BitVec.ofNat 32 k)
def opShli := opShImm (fun x k => x <<< (k % 32))
def opShri := opShImm (fun x k => x >>> (k % 32))
def opSrai := opShImm (fun x k => x.sshiftRight (k % 32))
/-- LUI: IMM × 2^16; RA is 0. -/
def opLui (n c w : Nat) (_s : State) : SlotOp :=
  ⟨[(fRA w != 0, FLD_RESERVED)], none, fun t => t.setSr n c (fRD w) (fIMM w * 2 ^ 16)⟩

/-- The context-relative address a(AB) + OFF of layout S-M. -/
def smAddr (n c w : Nat) (s : State) : Int := (addrOf (s.ar n c (fAB w)) : Int) + fOFF w
/-- The traps of a load or store of `k` bytes (R432, R436). -/
def smTraps (n c w k : Nat) (s : State) : List (Bool × Nat) :=
  let r := smAddr n c w s
  [(badAddr (s.ar n c (fAB w)), ADDR_FORM), (r % (k : Int) != 0, MEM_ALIGN)] ++ s.fmTraps n c r (r + k - 1)

def opLdw (n c w : Nat) (s : State) : SlotOp :=
  ⟨smTraps n c w 4 s, none, fun t => t.setSr n c (fRD w) (s.fmLoad n c (smAddr n c w s).toNat 4)⟩
def opStw (n c w : Nat) (s : State) : SlotOp :=
  ⟨smTraps n c w 4 s, none, fun t => t.fmStore n c (smAddr n c w s).toNat 4 (s.sr n c (fRD w))⟩
def opLdp (n c w : Nat) (s : State) : SlotOp :=
  ⟨(fRD w % 2 != 0, REG_RANGE) :: smTraps n c w 8 s, none, fun t =>
    let v := s.fmLoad n c (smAddr n c w s).toNat 8
    (t.setSr n c (fRD w) v).setSr n c (fRD w + 1) (v / 2 ^ 32)⟩
def opStp (n c w : Nat) (s : State) : SlotOp :=
  ⟨(fRD w % 2 != 0, REG_RANGE) :: smTraps n c w 8 s, none, fun t =>
    t.fmStore n c (smAddr n c w s).toNat 8 (s.srPair n c (fRD w))⟩
def opLda (n c w : Nat) (s : State) : SlotOp :=
  ⟨(bit w 25, FLD_RESERVED) :: smTraps n c w 8 s, none, fun t =>
    t.setAr n c (fRD w % 16) (s.fmLoad n c (smAddr n c w s).toNat 8)⟩
def opSta (n c w : Nat) (s : State) : SlotOp :=
  ⟨(bit w 25, FLD_RESERVED) :: smTraps n c w 8 s, none, fun t =>
    t.fmStore n c (smAddr n c w s).toNat 8 (s.ar n c (fRD w % 16))⟩

/-- AADD: modulo 2^64; RD[4] and RA[4] are 0. -/
def opAadd (n c w : Nat) (s : State) : SlotOp :=
  ⟨[(bit w 25 || bit w 20 || bits w 10 0 != 0, FLD_RESERVED)], none, fun t =>
    t.setAr n c (fRD w % 16) (wrap64 ((s.ar n c (fRA w % 16) : Int) + sx 32 (s.sr n c (fRB w))))⟩
/-- AADDI: bits RD[4] and RA[4] are not read and, unlike those of AADD, not asked to be 0 (R435). -/
def opAaddi (n c w : Nat) (s : State) : SlotOp :=
  ⟨[], none, fun t =>
    t.setAr n c (fRD w % 16) (wrap64 ((s.ar n c (fRA w % 16) : Int) + sx 16 (fIMM w)))⟩
def opAmov (n c w : Nat) (s : State) : SlotOp :=
  ⟨[(bit w 25 || fRB w != 0 || bits w 10 0 != 0, FLD_RESERVED), (fRA w % 2 != 0, REG_RANGE)], none, fun t =>
    t.setAr n c (fRD w % 16) (s.srPair n c (fRA w))⟩
def opSmov (n c w : Nat) (s : State) : SlotOp :=
  ⟨[(bit w 20 || fRB w != 0 || bits w 10 0 != 0, FLD_RESERVED), (fRD w % 2 != 0, REG_RANGE)], none, fun t =>
    let v := s.ar n c (fRA w % 16)
    (t.setSr n c (fRD w) v).setSr n c (fRD w + 1) (v / 2 ^ 32)⟩
def opLcset (n c w : Nat) (s : State) : SlotOp :=
  ⟨[(bits w 25 23 != 0 || fRB w != 0 || bits w 10 0 != 0, FLD_RESERVED)], none, fun t =>
    t.setLcr n c (fRD w % 4) (s.sr n c (fRA w))⟩

/-- A scalar operation as a bundle with ENOP in its engine slot. -/
def scalar (op : Nat → Nat → Nat → State → SlotOp) (a : Issue) (w : BitVec 26) (s : State) : Res :=
  issue a (op a.folio.val a.ctx.val w.toNat) none false s

def execNop (a : Issue) (w : BitVec 26) (s : State) : Res := scalar opNop a w s
def execAdd (a : Issue) (w : BitVec 26) (s : State) : Res := scalar opAdd a w s
def execSub (a : Issue) (w : BitVec 26) (s : State) : Res := scalar opSub a w s
def execAnd (a : Issue) (w : BitVec 26) (s : State) : Res := scalar opAnd a w s
def execOr (a : Issue) (w : BitVec 26) (s : State) : Res := scalar opOr a w s
def execXor (a : Issue) (w : BitVec 26) (s : State) : Res := scalar opXor a w s
def execShl (a : Issue) (w : BitVec 26) (s : State) : Res := scalar opShl a w s
def execShr (a : Issue) (w : BitVec 26) (s : State) : Res := scalar opShr a w s
def execSra (a : Issue) (w : BitVec 26) (s : State) : Res := scalar opSra a w s
def execMul (a : Issue) (w : BitVec 26) (s : State) : Res := scalar opMul a w s
def execSlt (a : Issue) (w : BitVec 26) (s : State) : Res := scalar opSlt a w s
def execSltu (a : Issue) (w : BitVec 26) (s : State) : Res := scalar opSltu a w s
def execAddi (a : Issue) (w : BitVec 26) (s : State) : Res := scalar opAddi a w s
def execAndi (a : Issue) (w : BitVec 26) (s : State) : Res := scalar opAndi a w s
def execOri (a : Issue) (w : BitVec 26) (s : State) : Res := scalar opOri a w s
def execLui (a : Issue) (w : BitVec 26) (s : State) : Res := scalar opLui a w s
def execShli (a : Issue) (w : BitVec 26) (s : State) : Res := scalar opShli a w s
def execShri (a : Issue) (w : BitVec 26) (s : State) : Res := scalar opShri a w s
def execSrai (a : Issue) (w : BitVec 26) (s : State) : Res := scalar opSrai a w s
def execLdw (a : Issue) (w : BitVec 26) (s : State) : Res := scalar opLdw a w s
def execStw (a : Issue) (w : BitVec 26) (s : State) : Res := scalar opStw a w s
def execLdp (a : Issue) (w : BitVec 26) (s : State) : Res := scalar opLdp a w s
def execStp (a : Issue) (w : BitVec 26) (s : State) : Res := scalar opStp a w s
def execLda (a : Issue) (w : BitVec 26) (s : State) : Res := scalar opLda a w s
def execSta (a : Issue) (w : BitVec 26) (s : State) : Res := scalar opSta a w s
def execAadd (a : Issue) (w : BitVec 26) (s : State) : Res := scalar opAadd a w s
def execAaddi (a : Issue) (w : BitVec 26) (s : State) : Res := scalar opAaddi a w s
def execAmov (a : Issue) (w : BitVec 26) (s : State) : Res := scalar opAmov a w s
def execSmov (a : Issue) (w : BitVec 26) (s : State) : Res := scalar opSmov a w s
def execLcset (a : Issue) (w : BitVec 26) (s : State) : Res := scalar opLcset a w s

end Sys2Proof.Machine
end

