-- ==== Sys2Proof/Machine/Control.lean ====
section
/-! DEFINITION. Control operations of the scalar slot (13_sequencer.md R405 to R414), tags (R409 to R411), and the companion
scalar slot of an engine bundle. RESUME is in Machine/Resume.lean. -/

namespace Sys2Proof.Machine

/-- The context continues at a bundle index. -/
def State.jump (s : State) (n c b : Nat) : State := s.setCtx n c { s.ctx n c with pc := BitVec.ofNat 13 b }

/-- Does the condition of BR hold (R405, R435)? -/
def brTaken (cond : Nat) (x y : Word) : Bool :=
  match cond with
  | 0 => x == y | 1 => x != y | 2 => x.slt y | 3 => !x.slt y | 4 => x.ult y | 5 => !x.ult y | _ => false

def opBr (n c w : Nat) (s : State) : SlotOp :=
  let cond := bits w 25 23
  ⟨[(decide (5 < cond), FLD_RESERVED)], none, fun t =>
    if brTaken cond (BitVec.ofNat 32 (s.sr n c (bits w 22 18))) (BitVec.ofNat 32 (s.sr n c (bits w 17 13)))
    then t.jump n c (fTGT w) else t⟩
def opJmp (n c w : Nat) (_s : State) : SlotOp :=
  ⟨[(bits w 25 13 != 0, FLD_RESERVED)], none, fun t => t.jump n c (fTGT w)⟩
def opCall (n c w : Nat) (s : State) : SlotOp :=
  ⟨[(bits w 25 13 != 0, FLD_RESERVED), (decide (8 ≤ (s.ctx n c).rstack.length), SEQ_STACK)], none, fun t =>
    let x := t.ctx n c
    t.setCtx n c { x with rstack := ((s.ctx n c).pc + 1) :: x.rstack, pc := BitVec.ofNat 13 (fTGT w) }⟩
def opRet (n c w : Nat) (s : State) : SlotOp :=
  ⟨[(w != 0, FLD_RESERVED), ((s.ctx n c).rstack.isEmpty, SEQ_STACK)], none, fun t =>
    let x := t.ctx n c
    match x.rstack with
    | b :: bs => t.setCtx n c { x with rstack := bs, pc := b }
    | [] => t⟩
/-- LOOP: the counter falls by one and the branch is taken while it is not zero; only the named counter is read. -/
def opLoop (n c w : Nat) (s : State) : SlotOp :=
  let k := bits w 24 23
  let v := wrap32 ((s.lcr n c k : Int) - 1)
  ⟨[(bit w 25 || bits w 22 13 != 0, FLD_RESERVED)], none, fun t =>
    let u := t.setLcr n c k v
    if v = 0 then u else u.jump n c (fTGT w)⟩

/-- Every pending instruction store of a folio lands (R407). -/
def State.landAll (s : State) (n : Nat) : State :=
  let ps := Sp.get (fun _ => []) s.istores n
  ps.foldl (fun s p => s.storeBundle n p) { s with istores := Sp.set (fun _ => []) s.istores n [] }
def opIfence (n _c w : Nat) (_s : State) : SlotOp := ⟨[(w != 0, FLD_RESERVED)], none, fun t => t.landAll n⟩

/-- ISTORE (R406): the bundle in s(RD) to s(RD + 3), lowest word first, is pending until the fourth bundle after it issues. -/
def opIstore (n c w : Nat) (s : State) : SlotOp :=
  let rd := fRD w
  let v := s.srPair n c rd + s.srPair n c (rd + 2) * 2 ^ 64
  ⟨[(fRA w != 0 || bits w 15 13 != 0, FLD_RESERVED), (s.mode n == 0 || rd % 4 != 0, SEQ_ISTORE)], none, fun t =>
    let ps := Sp.get (fun _ => []) t.istores n
    { t with istores := Sp.set (fun _ => []) t.istores n (ps ++ [⟨c, BitVec.ofNat 13 (bits w 12 0), BitVec.ofNat 128 v, 4⟩]) }⟩

/-- Is the context inside a step entry? -/
def State.inStep (s : State) (n c : Nat) : Bool := match (s.ctx n c).entry with | some e => e.step | none => false

/-- The folio of logical index k has ended stream i's step. -/
def State.markEnded (s : State) (i k : Nat) : State :=
  let x := s.str i
  match x.step with
  | some t => s.setStr i { x with step := some { t with ended := t.ended ||| 2 ^ k } }
  | none => s
/-- SDONE (R414): the step's work on this folio is done. -/
def opSdone (n c w : Nat) (s : State) : SlotOp :=
  ⟨[(w != 0, FLD_RESERVED), (!s.inStep n c, SEQ_CTX_TRAP)], none, fun t =>
    let u := match (t.ctx n c).entry, t.logical n with
      | some e, some k => t.markEnded e.stream k
      | _, _ => t
    u.endEntry n c⟩
/-- YIELD (R414): a doorbell entry ends. -/
def opYield (n c w : Nat) (s : State) : SlotOp :=
  ⟨[(w != 0, FLD_RESERVED), (s.inStep n c, SEQ_CTX_TRAP)], none, fun t => t.endEntry n c⟩

/-- Traps of the tag field of layout S-T: a folio tag of the context's range, in one of the accepted states (R409). -/
def tagOpTraps (n c w : Nat) (ok : TagSt → Bool) (s : State) : List (Bool × Nat) :=
  let k := fTAG w
  [(bits w 18 16 != 0, FLD_RESERVED), (!(decide (k < 64) && s.tagInRange n c k && ok (s.tagSt n k)), SEQ_TAG)]
/-- A change of a folio tag's state. -/
def State.setTagSt (s : State) (n c k : Nat) (st : TagSt) : State :=
  match s.logical n with
  | some lf => s.setTag lf k { s.tag lf k with st := st, ctx := c }
  | none => s
/-- TOPEN (R409): the tag belongs to the entry that opens it (R421, R422). -/
def opTopen (n c w : Nat) (s : State) : SlotOp :=
  ⟨(fLIM w != 0, FLD_RESERVED) :: tagOpTraps n c w (fun x => x == .free) s, none, fun t =>
    match t.logical n with
    | some lf => t.setTag lf (fTAG w) { TagRec.reset with st := .opened, ctx := c, owner := (t.ctx n c).owner }
    | none => t⟩
def opTclose (n c w : Nat) (s : State) : SlotOp :=
  ⟨(fLIM w != 0, FLD_RESERVED) :: tagOpTraps n c w (fun x => x == .opened) s, none, fun t => t.setTagSt n c (fTAG w) .closed⟩
/-- TCANCEL (R409, R411): an open or closed tag goes to CANCELLING and its moves are cancelled; one already cancelling, or
done, keeps its state. -/
def opTcancel (n c w : Nat) (s : State) : SlotOp :=
  ⟨(fLIM w != 0, FLD_RESERVED) :: tagOpTraps n c w (fun x => x != .free) s, none, fun t =>
    if t.tagSt n (fTAG w) == .opened || t.tagSt n (fTAG w) == .closed then
      match t.logical n with
      | some lf => (t.setTagSt n c (fTAG w) .cancelling).cancelWork n (folioTag lf (fTAG w))
      | none => t
    else t⟩
/-- The record of tag k leaves the completion queue and the tag is free (R410). -/
def State.takeRecord (s : State) (n c lf k : Nat) : State :=
  let x := s.ctx n c
  (s.setCtx n c { x with doneQ := x.doneQ.filter (fun r => bits r.toNat 12 0 != folioTag lf k) }).setTag lf k TagRec.reset
/-- TWAIT (R410, R412). -/
def opTwait (n c w : Nat) (s : State) : SlotOp :=
  ⟨(s.mode n == 0 && fLIM w == 0, FLD_RESERVED) :: tagOpTraps n c w (fun x => x != .free) s,
   if s.tagSt n (fTAG w) == .done then none else if fLIM w = 0 then some .tagFree else some .tag, fun t =>
    match t.logical n with
    | some lf => t.takeRecord n c lf (fTAG w)
    | none => t⟩
/-- TPOLL (R410): the oldest record, or all ones. -/
def opTpoll (n c w : Nat) (s : State) : SlotOp :=
  ⟨[(fRA w != 0 || fRB w != 0 || bits w 10 0 != 0, FLD_RESERVED)], none, fun t =>
    match (s.ctx n c).doneQ, t.logical n with
    | r :: _, some lf => (t.takeRecord n c lf (bits r.toNat 12 0 % 64)).setSr n c (fRD w) r.toNat
    | _, _ => t.setSr n c (fRD w) 0xFFFFFFFF⟩

/-! ## The companion scalar slot of an engine bundle (R427 to R430) -/

/-- A scalar slot with a reserved opcode. -/
def opReservedSop : SlotOp := ⟨[(true, OPC_RESERVED)], none, id⟩
/-- An operation that requires ENOP in the engine slot (R429); `mix` says that the slot holds something else. -/
def opMixed (mix : Bool) (o : SlotOp) : SlotOp := { o with traps := (mix, SLOT_MIX) :: o.traps }

/-- The scalar slot `sc` of a bundle; `mix` says that its engine slot does not hold ENOP. RESUME beside ENOP is met in
Machine/Resume.lean before this. -/
def scalarSlot (mix : Bool) (n c : Nat) (sc : BitVec 32) (s : State) : SlotOp :=
  let w := bits sc.toNat 25 0
  match bits sc.toNat 31 26 with
  | 0x00 => opNop n c w s
  | 0x01 => opAdd n c w s
  | 0x02 => opSub n c w s
  | 0x03 => opAnd n c w s
  | 0x04 => opOr n c w s
  | 0x05 => opXor n c w s
  | 0x06 => opShl n c w s
  | 0x07 => opShr n c w s
  | 0x08 => opSra n c w s
  | 0x09 => opMul n c w s
  | 0x0A => opSlt n c w s
  | 0x0B => opSltu n c w s
  | 0x10 => opAddi n c w s
  | 0x11 => opAndi n c w s
  | 0x12 => opOri n c w s
  | 0x13 => opLui n c w s
  | 0x14 => opShli n c w s
  | 0x15 => opShri n c w s
  | 0x16 => opSrai n c w s
  | 0x18 => opLdw n c w s
  | 0x19 => opStw n c w s
  | 0x1A => opLdp n c w s
  | 0x1B => opStp n c w s
  | 0x1C => opLda n c w s
  | 0x1D => opSta n c w s
  | 0x1E => opAadd n c w s
  | 0x1F => opAaddi n c w s
  | 0x20 => opAmov n c w s
  | 0x21 => opSmov n c w s
  | 0x22 => opLcset n c w s
  | 0x28 => opBr n c w s
  | 0x29 => opJmp n c w s
  | 0x2A => opCall n c w s
  | 0x2B => opRet n c w s
  | 0x2C => opLoop n c w s
  | 0x2D => opMixed mix (opIfence n c w s)
  | 0x2E => opMixed mix (opSdone n c w s)
  | 0x2F => opMixed mix (opYield n c w s)
  | 0x30 => opMixed mix ⟨[(w != 0, FLD_RESERVED)], none, id⟩
  | 0x31 => opMixed mix (opIstore n c w s)
  | 0x34 => opTopen n c w s
  | 0x35 => opTclose n c w s
  | 0x36 => opTcancel n c w s
  | 0x37 => opTwait n c w s
  | 0x38 => opTpoll n c w s
  | _ => opReservedSop

/-! ## Commands -/

def execBr (a : Issue) (w : BitVec 26) (s : State) : Res := scalar opBr a w s
def execJmp (a : Issue) (w : BitVec 26) (s : State) : Res := scalar opJmp a w s
def execCall (a : Issue) (w : BitVec 26) (s : State) : Res := scalar opCall a w s
def execRet (a : Issue) (w : BitVec 26) (s : State) : Res := scalar opRet a w s
def execLoop (a : Issue) (w : BitVec 26) (s : State) : Res := scalar opLoop a w s
def execIfence (a : Issue) (w : BitVec 26) (s : State) : Res := scalar opIfence a w s
def execIstore (a : Issue) (w : BitVec 26) (s : State) : Res := scalar opIstore a w s
def execSdone (a : Issue) (w : BitVec 26) (s : State) : Res := scalar opSdone a w s
def execYield (a : Issue) (w : BitVec 26) (s : State) : Res := scalar opYield a w s
def execTopen (a : Issue) (w : BitVec 26) (s : State) : Res := scalar opTopen a w s
def execTclose (a : Issue) (w : BitVec 26) (s : State) : Res := scalar opTclose a w s
def execTcancel (a : Issue) (w : BitVec 26) (s : State) : Res := scalar opTcancel a w s
def execTwait (a : Issue) (w : BitVec 26) (s : State) : Res := scalar opTwait a w s
def execTpoll (a : Issue) (w : BitVec 26) (s : State) : Res := scalar opTpoll a w s

end Sys2Proof.Machine
end

