-- ==== Sys2Proof/Machine/Flags.lean ====
section
/-! DEFINITION. Flag computations: the four sticky flags of an engine's results joined (R74), held against the work tag of
the instruction (R75), in the engine's field of FOLIO_NFLAGS (R76). -/

namespace Sys2Proof.Machine

/-- The flags of a list of results joined (R74). -/
def Fl.join (fs : List Fl) : Fl := fs.foldl Fl.or Fl.none

/-- The fields of FOLIO_NFLAGS (R76). -/
def fieldARR : Nat := 0
def fieldMVP : Nat := 1
def fieldGATE : Nat := 2
def fieldSFU : Nat := 3
def fieldVEC : Nat := 4
def fieldSCAN : Nat := 5

/-- The flags of an instruction's results held against its work tag (R75). -/
def State.holdFl (s : State) (n tag field : Nat) (f : Fl) : State :=
  if f.nat = 0 then s else s.hold n tag field f.nat

end Sys2Proof.Machine
end

