-- ==== Sys2Proof/Machine/MoveOps.lean ====
section
/-! DEFINITION. Operations on the stream movers and fetch streams that several families share (12_movement_and_hbm.md R366 to
R381). -/

namespace Sys2Proof.Machine

/-- The moves of a folio in its quire's mover (R368). -/
def State.folioMoves (s : State) (n : Nat) : List Move := (s.mover (n / 5)).filter (fun m => m.folio == n)
/-- A move enters the mover of its folio's quire (R366, R368). -/
def State.addMove (s : State) (n c tag : Nat) (src dst : MoveEnd) (len stripe : Nat) (owner : MoveOwner)
    (dests : List McRecv) : State :=
  let m : Move := { id := s.moveId, folio := n, ctx := c, tag := tag, src := src, dst := dst, len := len, stripe := stripe,
                    done := [], stale := none, retried := [], owner := owner, dests := dests, taken := false }
  { s.setMover (n / 5) (s.mover (n / 5) ++ [m]) with moveId := s.moveId + 1 }
/-- The bytes of granule g at a move's source. -/
def State.granRead (s : State) (m : Move) (g : Nat) : List Byte :=
  match m.src.granule m.stripe g with
  | .hbm a => s.hbmBytes a 256
  | .vat h o => s.vatBytes h o 256
  | .fm a => s.fm.bytes (m.folio * 2 ^ 20 + a) 256
  | .own bs => bs.take 256
/-- The bytes of granule g written at a move's destination, or at every destination of a multicast (R383). -/
def State.granLand (s : State) (m : Move) (g : Nat) (bs : List Byte) : State :=
  match m.dests with
  | [] =>
    (match m.dst.granule m.stripe g with
     | .hbm a => s.hbmWrite a bs
     | .vat h o => s.vatWrite h o bs
     | .fm a => s.put 0 (m.folio * 2 ^ 20 + a) bs
     | .own _ => s)
  | rs => rs.foldl (fun s r => s.put 0 (r.folio * 2 ^ 20 + r.dest + 256 * g) bs) s
/-- A state in which every write into HBM that the movers hold for a tag has landed. -/
def State.landed (s : State) (tag : Nat) : State :=
  (List.range 10).foldl (fun s q => (s.mover q).foldl (fun s m =>
    if m.tag == tag && m.writes && m.stale.isNone then
      ((List.range m.total).filter (fun g => !m.done.contains g)).foldl (fun s g => s.granLand m g (s.granRead m g)) s
    else s) s) s

/-- The descriptors of a folio that wait in its queue (R368): its moves with a granule not yet requested (DEDUCED, log entry 19). -/
def State.queuedMoves (s : State) (n : Nat) : List Move :=
  (s.folioMoves n).filter (fun m => m.owner != .own && m.stale.isNone && decide (m.done.length + (s.creditedOf m.id).length < m.total))
/-- Has the folio's queue of 32 descriptors a place? -/
def State.queueRoom (s : State) (n : Nat) : Bool := decide ((s.drive.queuedMoves n).length < 32)

/-- A context's fetch stream (R377). -/
def State.fetchSt (s : State) (n c k : Nat) : Option Fetch := Sp.get (fun _ => none) s.fetch ((4 * n + c) * 8 + k)
def State.setFetch (s : State) (n c k : Nat) (f : Option Fetch) : State :=
  { s with fetch := Sp.set (fun _ => none) s.fetch ((4 * n + c) * 8 + k) f }
/-- A fetch stream that is open (R380). -/
def State.openFetch (s : State) (n c k : Nat) : Option Fetch := (s.fetchSt n c k).bind (fun f => if f.cancelled then none else some f)
/-- The next tile of a fetch stream is issued as a move, where its slot is released and the folio's queue has a place (R368, R378). -/
def State.issueTile (s : State) (n c k : Nat) : State :=
  match s.openFetch n c k with
  | none => s
  | some f =>
    if f.issued < f.tiles ∧ f.issued < f.released + f.depth ∧ s.queueRoom n then
      (s.addMove n c f.tag (.hbm (f.base + f.issued * f.stride)) (f.ring.plus (f.issued % f.depth * f.tileBytes)) f.tileBytes 1
        (.tile k f.issued f.opened) []).setFetch n c k (some { f with issued := f.issued + 1 })
    else s
/-- Every tile of a fetch stream that is due is issued. -/
def State.issueTiles (s : State) (n c k : Nat) : State :=
  match s.openFetch n c k with
  | none => s
  | some f => (List.range (min f.tiles (f.released + f.depth) - f.issued)).foldl (fun s _ => s.issueTile n c k) s
/-- The oldest unreleased tile of a fetch stream is released (R378, R380); a release of a cancelled stream is ignored (R381). -/
def State.relOne (s : State) (n c k : Nat) : State :=
  match s.openFetch n c k with
  | none => s
  | some f =>
    let r := f.released + 1
    if r = f.tiles then s.setFetch n c k none
    else (s.setFetch n c k (some { f with released := r })).issueTiles n c k
/-- Releases of `count` tiles. -/
def State.relTiles (s : State) (n c k : Nat) : Nat → State
  | 0 => s
  | m + 1 => (s.relOne n c k).relTiles n c k m
/-- The tiles that waited for a place in the queues of a quire's folios, issued. -/
def State.issueWaiting (s : State) (q : Nat) : State :=
  (List.range 5).foldl (fun s j => (List.range 4).foldl (fun s c => (List.range 8).foldl (fun s k =>
    if (s.openFetch (5 * q + j) c k).isSome then s.issueTiles (5 * q + j) c k else s) s) s) s

end Sys2Proof.Machine
end

