-- ==== Sys2Proof/Machine/Rng.lean ====
section
/-! DEFINITION. The culture generator's sequence (09_random_numbers.md R262 to R264, R270, R274): every draw is a function of
seed, key and index. -/

namespace Sys2Proof.Machine

/-- The multiplier of R262. -/
def rngA : BitVec 64 := 0x9e6c63d0676a9a95
/-- The key in both halves (R262). -/
def rngX0 (seed : BitVec 64) (key : BitVec 32) : BitVec 64 := seed ^^^ (key.setWidth 64 * 0x0000000100000001)
/-- The odd increment (R262). -/
def rngC (seed : BitVec 64) (key : BitVec 32) : BitVec 64 :=
  let x := rngX0 seed key
  ((x ^^^ (x >>> 32)) <<< 1) ||| 1
/-- One step of the state (R262). -/
def rngStep (c st : BitVec 64) : BitVec 64 := rngA * st + c
/-- The output function (R263). -/
def rngOut (st : BitVec 64) : BitVec 32 :=
  let hi : BitVec 32 := (st >>> 32).setWidth 32
  (hi ^^^ (hi >>> 11)).rotateRight (st >>> 59).toNat
/-- The rounds of jump (R264): am, cm, ar, cr after the rounds that `n` needs, `fuel` at most. -/
def rngRounds : (fuel n : Nat) → (am cm ar cr : BitVec 64) → BitVec 64 × BitVec 64
  | 0, _, _, _, ar, cr => (ar, cr)
  | k + 1, n, am, cm, ar, cr =>
    if n = 0 then (ar, cr)
    else
      let ar' := if n % 2 = 1 then ar * am else ar
      let cr' := if n % 2 = 1 then cr * am + cm else cr
      rngRounds k (n / 2) (am * am) ((am + 1) * cm) ar' cr'
/-- The state advanced by n steps, n below 2^64 (R264). -/
def rngJump (c st : BitVec 64) (n : Nat) : BitVec 64 :=
  let r := rngRounds 64 n rngA c 1 0
  r.1 * st + r.2
/-- The draw of an index (R264). Indices are taken modulo 2^48, as the wheel's cursor wraps (R268; DEDUCED, log entry 15). -/
def draw (seed : BitVec 64) (key : BitVec 32) (i : Nat) : BitVec 32 :=
  rngOut (rngJump (rngC seed key) (rngX0 seed key) (i % 2 ^ 48))

/-- The generator context of a sequencer context (R266). -/
def State.gen (s : State) (n c : Nat) : GenCtx := Sp.get (fun _ => GenCtx.reset) s.gens (4 * n + c)
def State.setGen (s : State) (n c : Nat) (g : GenCtx) : State :=
  { s with gens := Sp.set (fun _ => GenCtx.reset) s.gens (4 * n + c) g }
/-- The 16-bit value r of stochastic rounding at an index (R274). -/
def State.srBits (s : State) (n c i : Nat) : Nat := let g := s.gen n c; (draw g.seed g.key i).toNat / 65536

end Sys2Proof.Machine
end

