-- ==== Sys2Proof/Machine/Engine.lean ====
section
/-! DEFINITION. The engine slot's common fields (14_instruction_encoding.md R437 to R440): header, arithmetic control group,
format and rounding checks (R78), and the issue of an engine bundle with its companion scalar slot. -/

namespace Sys2Proof

/-- Bits [hi:lo] of the operand field. -/
def Eng.op (e : Eng) (hi lo : Nat) : Nat := bits e.ops.toNat hi lo
def Eng.opb (e : Eng) (k : Nat) : Bool := bit e.ops.toNat k
/-- Fields of the arithmetic control group (R440). -/
def Eng.fmt (e : Eng) : Nat := bits e.ac.toNat 15 12
def Eng.strict (e : Eng) : Bool := bit e.ac.toNat 11
def Eng.rnd (e : Eng) : Nat := bits e.ac.toNat 10 8
def Eng.sat (e : Eng) : Bool := bit e.ac.toNat 7
def Eng.cplx (e : Eng) : Bool := bit e.ac.toNat 6
def Eng.rbud (e : Eng) : Nat := bits e.ac.toNat 5 2
def Eng.rowstat (e : Eng) : Nat := bits e.ac.toNat 1 0
/-- Does the instruction round stochastically? -/
def Eng.stoch (e : Eng) : Bool := e.rnd == 4

namespace Machine

/-- The rounding of a code of R61. -/
def Rnd.ofCode (k : Nat) : Rnd :=
  match k with | 1 => .tz | 2 => .up | 3 => .dn | 4 => .stoch | _ => .ne

/-- The format that a code names, FP32 where it names none (a trap stops that first). -/
def fmtOf (level code : Nat) : Fmt := (Fmt.ofCode level code).getD .fp32

/-- Which fields of the arithmetic control group an instruction uses (R440). -/
structure AcUse where
  fmt : Bool := false
  strict : Bool := false
  rnd : Bool := false
  sat : Bool := false
  cplx : Bool := false
  rbud : Bool := false
  rowstat : Bool := false
  deriving DecidableEq, Repr

/-- The traps of unused fields of the arithmetic control group (R440). -/
def acTraps (u : AcUse) (e : Eng) : List (Bool × Nat) :=
  [((!u.fmt && e.fmt != 0) || (!u.sat && e.sat) || (!u.cplx && e.cplx) || (!u.rbud && e.rbud != 0)
      || (!u.rowstat && e.rowstat != 0), FLD_RESERVED),
   (!u.strict && e.strict, FMT_STRICT), (!u.rnd && e.rnd != 0, FMT_ROUND)]

/-- A format code that is reserved at the accepted level (R43, R78). -/
def fmtTrap (s : State) (code : Nat) : Bool × Nat := ((Fmt.ofCode s.level code).isNone, FMT_RESERVED)
/-- A rounding not permitted in its mode (R61): in fast mode nearest-even, and stochastic where the instruction permits it. -/
def rndTrap (e : Eng) (stoch : Bool) : Bool × Nat :=
  (if e.strict then decide (3 < e.rnd) else e.rnd != 0 && !(stoch && e.stoch), FMT_ROUND)
/-- A strict bit with a format that has no strict form (R59). -/
def strictTrap (s : State) (e : Eng) : Bool × Nat :=
  (e.strict && match Fmt.ofCode s.level e.fmt with | some f => !f.isIeee | none => false, FMT_STRICT)
/-- A complex bit with a format that has no complex form (R56). -/
def cplxTrap (s : State) (e : Eng) : Bool × Nat :=
  (e.cplx && match Fmt.ofCode s.level e.fmt with | some f => !f.isIeee | none => false, FMT_COMPLEX)
/-- An index base field that is not zero although the rounding is not stochastic, or that names an odd pair end (R269, R431). -/
def ibTrap (e : Eng) (ib : Nat) : Bool × Nat := (!e.stoch && ib != 0, FLD_RESERVED)
/-- The stochastic-rounding index base of the pair s(2 IB), s(2 IB + 1), bits [47:0] (R269). -/
def State.ibBase (s : State) (n c ib : Nat) : Nat := s.srPair n c (2 * ib) % 2 ^ 48

/-- The header traps of every engine instruction: its level (R430), REL and RSTRM (R437, R439), its tag (R438). -/
def engTraps (lvl n c : Nat) (e : Eng) (s : State) : List (Bool × Nat) :=
  [(decide (s.level < lvl), OPC_RESERVED), (!e.rel && e.rstrm != 0, FLD_RESERVED),
   (e.rel && (s.fetchSt n c e.rstrm.toNat).isNone, XF_STREAM)] ++ s.tagTraps n c e

/-- The release of REL after the instruction's reads (R439). -/
def State.relEng (s : State) (n c : Nat) (e : Eng) : State := if e.rel then s.relOne n c e.rstrm.toNat else s

/-- An engine instruction's slot: header and control-group traps first, then its own; its effect, then the release. -/
def engSlot (lvl : Nat) (u : AcUse) (n c : Nat) (e : Eng) (s : State) (ts : List (Bool × Nat)) (w : Option WaitK)
    (run : State → State) : SlotOp :=
  ⟨engTraps lvl n c e s ++ acTraps u e ++ ts, w, fun t => (run t).relEng n c e⟩

/-- The slot of an engine instruction that makes its release itself, after reads that outlast its issue. -/
def engSlotKeep (lvl : Nat) (u : AcUse) (n c : Nat) (e : Eng) (s : State) (ts : List (Bool × Nat)) (w : Option WaitK)
    (run : State → State) : SlotOp :=
  ⟨engTraps lvl n c e s ++ acTraps u e ++ ts, w, run⟩

/-- An engine bundle issues with its companion scalar slot. -/
def engine (op : Nat → Nat → Eng → State → SlotOp) (resid : Option Nat) (a : Issue) (e : Eng) (s : State) : Res :=
  let n := a.folio.val
  let c := a.ctx.val
  issue a (fun s => (op n c e s).both (scalarSlot true n c e.sc s)) resid e.stoch s

/-! ## Resumable instructions (R644, R416 to R419) -/

/-- A resumable instruction: its slot, its KIND in a resume record, and its work in units that end at boundaries (R137, R195, R257,
R352). `part lo hi` does units lo to hi − 1 and gives the next unit, which is below hi only where a tile is due to run again; with the
total reached and no tile due, `finish` ends the instruction. `again` is the next attempt of a tile that is due, `close` what follows
an attempt (R96). -/
structure Long where
  traps : List (Bool × Nat)
  wait : Option WaitK
  kind : Nat
  total : State → Nat
  part : Nat → Nat → State → Nat × State
  finish : State → State := id
  again : DotTile → DotTile := id
  close : DotTile → State → State := fun _ t => t

/-- The 128-bit bundle of an engine instruction and its scalar slot (R427, R437). -/
def bundleOf (opc : Nat) (e : Eng) : Nat :=
  e.sc.toNat * 2 ^ 96 + opc * 2 ^ 88 + e.tag.toNat * 2 ^ 81 + (if e.rel then 2 ^ 80 else 0) + e.rstrm.toNat * 2 ^ 77
    + e.ac.toNat * 2 ^ 61 + e.ops.toNat
/-- The carry file and the lane states of a sewing unit, as a resume record keeps them (R195). -/
def State.sewSave (s : State) (n : Nat) : List Word :=
  (List.range 512).map (fun k => Sp.get (fun _ => 0) s.carryf (512 * n + k))
    ++ (List.range 512).map (fun k => Sp.get (fun _ => 0) s.sew (512 * n + k))
/-- SEQ_IRQ_MAX after an interrupt that took `fclk` fclk from its raise (R424); a level-2 register (R8). -/
def State.irqMax (s : State) (n fclk : Nat) : State :=
  if s.level < 2 then s else s.setFld (SEQ_IRQ_MAX n) 8 0 (max (s.fld (SEQ_IRQ_MAX n) 8 0) (fclk % 512))
/-- The resume record of a context that leaves the sequencer: that of the instruction it is inside of, if there is one (R195, R418). -/
def State.ctxRecord (s : State) (n : Nat) (x : Ctx) : Resume :=
  match x.inside with
  | some r => if r.kind = 2 then { r with valid := true, save := s.sewSave n } else { r with valid := true }
  | none => x.resume
/-- The context is suspended at a point of R416, inside the instruction `x.inside` if there is one, whose resume record then holds
it, and the interrupting context k starts (R415, R418). -/
def State.suspend (s : State) (n c k : Nat) : State :=
  let x := s.ctx n c
  (s.setCtx n c { x with st := .suspended, wait := none, resume := s.ctxRecord n x, inside := none }).startEntry n k
/-- The context's registers, as the resume record keeps them. -/
def State.sregs (s : State) (n c : Nat) : List Word := (List.range 32).map (fun r => BitVec.ofNat 32 (s.sr n c r))
def State.aregs (s : State) (n c : Nat) : List Addr := (List.range 16).map (fun r => BitVec.ofNat 64 (s.ar n c r))
/-- The units of a resumable instruction from `lo` to the next unit p: the context stays inside it, or it ends. -/
def Long.after (o : Long) (n c : Nat) (r : Resume) (total : Nat) (x : Nat × State) : State :=
  if (x.2.ctx n c).due.isSome || decide (x.1 < total) then x.2.setCtx n c { x.2.ctx n c with inside := some { r with pos := x.1 } }
  else o.finish (x.2.setCtx n c { x.2.ctx n c with inside := none })
/-- The run of a resumable instruction from unit `r.pos`: through `cut` units, to its end with `cut` 0; at most to a tile that is due
to run again (R92, R644). A debug halt that waits takes the context at the boundary (R422). -/
def longRun (n c cut : Nat) (o : Long) (r : Resume) (t : State) : State :=
  let total := o.total t
  let hi := if cut = 0 then total else min (r.pos + cut) total
  (o.after n c r total (o.part r.pos hi t)).haltDue n c
/-- The record of a resumable instruction as it issues, at its first unit. -/
def State.longRec (s : State) (n c kind : Nat) (bundle : Nat) : Resume :=
  { bundle := BitVec.ofNat 128 bundle, pc := (s.ctx n c).pc, kind := BitVec.ofNat 8 kind, valid := false, pos := 0,
    sregs := s.sregs n c, aregs := s.aregs n c, save := [] }
/-- A context with the register operands that an instruction read at its issue (R428). -/
def State.withRegs (s : State) (n c : Nat) (ss : List Word) (as : List Addr) : State :=
  { s with sreg := Sp.setMany (fun _ => 0) s.sreg ((4 * n + c) * 32) ss, areg := Sp.setMany (fun _ => 0) s.areg ((4 * n + c) * 16) as }
/-- A bundle with a resumable instruction issues, or, while the context stays inside it, goes on to a later boundary (R644). The scalar
slot acts at the issue. -/
def longEngine (opc : Nat) (op : Nat → Nat → Eng → State → Long) (resid : Option Nat) (a : Issue) (e : Eng) (s : State) : Res :=
  let n := a.folio.val
  let c := a.ctx.val
  let b := BitVec.ofNat 128 (bundleOf opc e)
  match (s.ctx n c).inside with
  | some r =>
    if r.bundle = b then goOn a resid e.stoch (fun t => longRun n c a.cut (op n c e (t.withRegs n c r.sregs r.aregs)) r t) s
    else notDue "the context stays inside another instruction (R644)"
  | none =>
    issue a (fun s =>
      let o := op n c e s
      let k := scalarSlot true n c e.sc s
      ⟨o.traps ++ k.traps, match o.wait with | some w => some w | none => k.wait,
        fun t => longRun n c a.cut o (s.longRec n c o.kind b.toNat) (k.run t)⟩) resid e.stoch s

/-- The work tag's flags of an engine instruction (R75). -/
def State.holdEng (s : State) (n c : Nat) (e : Eng) (field : Nat) (f : Fl) : State := s.holdFl n (s.engTag n c e) field f

end Machine

end Sys2Proof
end

