-- ==== Sys2Proof/Machine/SpineOps.lean ====
section
/-! DEFINITION. What the loaded schedules say of a gathering, and the contributions that wait for a collective (15_spine.md R457,
R463, R464). -/

namespace Sys2Proof.Machine

/-- A shared tag that the schedule does not give to the issuing folio's gathering (R453). -/
def State.stagBad (s : State) (n stag : Nat) : Bool :=
  match s.gathOfPhys n with
  | some g => !(s.collSeq g).any (fun x => x.stag.toNat == stag)
  | none => true
/-- A contribution handed over. -/
def State.contribute (s : State) (n : Nat) (x : Contrib) : State := s.setContrib n (s.contrib n ++ [x])
/-- Operation numbers of contributions: the low bits of the collective's opcode, 7 for SXRED. -/
def opSXRED : Nat := 7

end Sys2Proof.Machine
end

