-- ==== Sys2Proof/Machine/Bursts.lean ====
section
/-! DEFINITION. Where a burst lies in its landing zone (11_on_die_memory.md R347): the bytes of its granules in list order. -/

namespace Sys2Proof.Machine

/-- The burst of the step that a context works for. -/
def State.ctxBurst (s : State) (n c : Nat) : Option Burst :=
  match (s.ctx n c).entry with
  | some e => if e.step then ((s.str e.stream).step).map Step.burst else none
  | none => none
/-- The bytes of a granule list written from byte offset `off` of the list. -/
def State.granWrite (s : State) (zone : Nat) (gs : List Nat) (off : Nat) (bs : List Byte) : State :=
  ((List.range gs.length).zip gs).foldl (fun s p =>
    let lo := max off (256 * p.1)
    let hi := min (off + bs.length) (256 * p.1 + 256)
    if lo < hi then s.put 6 (s.sigBase zone + 256 * p.2 + lo % 256) ((bs.drop (lo - off)).take (hi - lo)) else s) s

end Sys2Proof.Machine
end

