-- ==== Sys2Proof/Machine/Stats.lean ====
section
/-! DEFINITION. Row statistics (07_special_functions.md R225 to R230, R645) and the argmax order (08_vector_engine.md R251,
R252): record updates, combines, the lane tree of R230 and the folio tree of 15_spine.md R458. -/

namespace Sys2Proof.Machine

/-- Elements of a list by position, zero past its end. -/
def nth (l : List Nat) (i : Nat) : Nat := l.getD i 0

/-- The value of an FP32 code as fast-mode arithmetic reads it (R58). -/
def fp32 (w : Nat) : FV := Fmt.fp32.read false w
/-- The code of an FP32 NaN. -/
def nan32 : Nat := 0x7FC00000
def maxCount : Nat := 2 ^ 32 - 1

/-- d × p / q for exact non-negative integers p and q above 0. -/
def FV.scale (v : FV) (p q : Nat) : FV :=
  match v with
  | .fin n m => .fin n (m * ((p : Rat) / (q : Rat)))
  | x => x

/-- VSSQ's update of a record by x (R228, R645). -/
def ssqUpdate (r : StatRec) (x : FV) : StatRec × Fl :=
  if r.n = maxCount then (⟨maxCount, nan32, 0⟩, Fl.invalid)
  else
    let (p, i1) := mulFV x x
    let (t, i2) := sumFV .ne [fp32 r.a, p]
    let (w, f) := fused (t, i1 || i2)
    (⟨r.n + 1, w, 0⟩, f)

/-- VMV's update of a record by x, the online form (R228, R645). -/
def mvUpdate (r : StatRec) (x : FV) : StatRec × Fl :=
  if r.n = maxCount then (⟨maxCount, nan32, nan32⟩, Fl.invalid)
  else
    let n := r.n + 1
    let (d, f1) := fused (sumFV .ne [x, (fp32 r.a).flip])
    let (mean, f2) := fused (sumFV .ne [fp32 r.a, (fp32 d).scale 1 n])
    let (e, i1) := sumFV .ne [x, (fp32 mean).flip]
    let (p, i2) := mulFV (fp32 d) e
    let (t, i3) := sumFV .ne [fp32 r.b, p]
    let (m2, f3) := fused (t, i1 || i2 || i3)
    (⟨n, mean, m2⟩, (f1.or f2).or f3)

/-- combine_ssq (R229). -/
def combineSsq (a b : StatRec) : StatRec × Fl :=
  if a.n = 0 then (b, {})
  else if b.n = 0 then (a, {})
  else if maxCount < a.n + b.n then (⟨maxCount, nan32, 0⟩, Fl.invalid)
  else let (w, f) := fused (sumFV .ne [fp32 a.a, fp32 b.a]); (⟨a.n + b.n, w, 0⟩, f)

/-- combine_mv (R229). -/
def combineMv (a b : StatRec) : StatRec × Fl :=
  if a.n = 0 then (b, {})
  else if b.n = 0 then (a, {})
  else if maxCount < a.n + b.n then (⟨maxCount, nan32, nan32⟩, Fl.invalid)
  else
    let n := a.n + b.n
    let (d, f1) := fused (sumFV .ne [fp32 b.a, (fp32 a.a).flip])
    let (mean, f2) := fused (sumFV .ne [fp32 a.a, (fp32 d).scale b.n n])
    let (q, i1) := mulFV (fp32 d) (fp32 d)
    let (t, i2) := sumFV .ne [fp32 a.b, fp32 b.b, q.scale (a.n * b.n) n]
    let (m2, f3) := fused (t, i1 || i2)
    (⟨n, mean, m2⟩, (f1.or f2).or f3)

/-! The arithmetic of R231 that finishes a normalisation from a combined record. No instruction does it whole: its reciprocal square root is
SFN's and its last line VFMA's. -/

/-- var = fused(m2 / n), or ms = fused(ss / n); a record with n = 0 gives the canonical NaN with NV (R231). -/
def StatRec.spread (ssq : Bool) (r : StatRec) : Nat × Fl :=
  fused (divFV (fp32 (if ssq then r.a else r.b)) (.fin false (r.n : Rat)))
/-- y = fused((x − mean) × r × gamma + beta), or fused(x × r × gamma) for the mean square (R231), on FP32 codes: the exact value is
rounded once. -/
def normalise (ssq : Bool) (mean x r gamma beta : Nat) : Nat × Fl :=
  let (d, i1) := if ssq then (fp32 x, false) else sumFV .ne [fp32 x, (fp32 mean).flip]
  let (p, i2) := mulFV d (fp32 r)
  let (q, i3) := mulFV p (fp32 gamma)
  let (t, i4) := if ssq then (q, false) else sumFV .ne [q, fp32 beta]
  fused (t, i1 || i2 || i3 || i4)

/-- better(x, i, r) of R251 on FP32 codes. Scores compare in fast mode, a subnormal as zero (R58). -/
def better (x i : Nat) (r : ArgRec) : Bool :=
  let v := fp32 x
  let w := fp32 r.value
  if v.isNan then !w.isNan || decide (i < r.index)
  else if w.isNan then false
  else if ltTotal w v then true
  else !ltTotal v w && decide (i < r.index)

/-- The argmax combine: the left record is kept unless the right is better (R251, R460). -/
def combineArg (a b : ArgRec) : ArgRec := if better b.value b.index a then b else a

/-- One level of the lane tree: neighbours combined, the lower lane as operand a (R230). -/
def pairUp {α : Type} (f : α → α → α) : List α → List α
  | a :: b :: l => f a b :: pairUp f l
  | l => l
/-- The lane tree of R230 over a list of 2^k entries, k levels. -/
def laneTree {α : Type} (f : α → α → α) : Nat → List α → List α
  | 0, l => l
  | k + 1, l => laneTree f k (pairUp f l)

/-- The largest power of two strictly below n, for n above 1. -/
def powBelow (n : Nat) : Nat := 2 ^ Nat.log2 (n - 1)
/-- The folio tree of R458 over contributions in ascending logical index. -/
def folioTree {α : Type} (f : α → α → α) (d : α) : (fuel : Nat) → List α → α
  | 0, l => l.headD d
  | k + 1, l =>
    match l with
    | [] => d
    | [x] => x
    | l => let h := powBelow l.length; f (folioTree f d k (l.take h)) (folioTree f d k (l.drop h))

/-- The bytes of a statistics record: 8 B (n, ss) or 12 B (n, mean, m2) (R230). -/
def StatRec.bytes (r : StatRec) (ssq : Bool) : List Byte :=
  toBytes 4 r.n ++ toBytes 4 r.a ++ (if ssq then [] else toBytes 4 r.b)
/-- The record that bytes spell. -/
def StatRec.ofBytes (ssq : Bool) (bs : List Byte) : StatRec :=
  ⟨Machine.ofBytes (bs.take 4), Machine.ofBytes ((bs.drop 4).take 4), if ssq then 0 else Machine.ofBytes ((bs.drop 8).take 4)⟩
/-- The 8 bytes of an argmax record (R251). -/
def ArgRec.bytes (r : ArgRec) : List Byte := toBytes 4 r.value ++ toBytes 4 r.index
def ArgRec.ofBytes (bs : List Byte) : ArgRec := ⟨Machine.ofBytes (bs.take 4), Machine.ofBytes ((bs.drop 4).take 4)⟩

end Sys2Proof.Machine
end

