-- ==== Sys2Proof/Machine/Vector.lean ====
section
/-! DEFINITION. The vector engine's element-wise, conversion, permute and pack instructions (08_vector_engine.md R236 to R246,
14_instruction_encoding.md R447). -/

namespace Sys2Proof.Machine

/-! ## Registers, masks and the window -/

/-- Lane j of vector register v of folio n. -/
def State.lane (s : State) (n v j : Nat) : Nat := (Sp.get (fun _ => 0) s.vreg ((32 * n + v) * 64 + j)).toNat
/-- The 64 lanes of a vector register. -/
def State.lanes (s : State) (n v : Nat) : List Nat := (List.range 64).map (s.lane n v)
/-- Lanes of a vector register written; `none` keeps a lane. -/
def State.setLanes (s : State) (n v : Nat) (f : Nat → Option Nat) : State :=
  { s with vreg := (List.range 64).foldl (fun m j =>
      match f j with
      | some x => Sp.set (fun _ => 0) m ((32 * n + v) * 64 + j) (BitVec.ofNat 32 x)
      | none => m) s.vreg }
/-- Mask register k; vm0 reads as all ones (R236). -/
def State.vm (s : State) (n k : Nat) : Nat :=
  if k = 0 then 2 ^ 64 - 1 else (Sp.get (fun _ => 0) s.vmask (4 * n + k)).toNat
/-- A mask register written; vm0 ignores writes (R236). -/
def State.setVm (s : State) (n k v : Nat) : State :=
  if k = 0 then s else { s with vmask := Sp.set (fun _ => 0) s.vmask (4 * n + k) (BitVec.ofNat 64 v) }

/-- Is a vector register outside the context's window (R239)? -/
def State.vregBad (s : State) (n c v : Nat) : Bool :=
  decide (v < s.dVbase n c * 4) || decide ((s.dVbase n c + s.dVcnt n c) * 4 ≤ v)
/-- Is a mask register outside the window? vm0 is in every window. -/
def State.vmaskBad (s : State) (n c k : Nat) : Bool := k != 0 && !bit (s.dVm n c) (k - 1)
/-- Is a statistics file (0, 1) or an argmax file (2, 3) outside the window? -/
def State.vfileBad (s : State) (n c k : Nat) : Bool := !bit (s.dVf n c) k
/-- VEC_REG over the registers, masks and files that an instruction names. -/
def State.vecReg (s : State) (n c : Nat) (vs ms fs : List Nat) : Bool × Nat :=
  (vs.any (s.vregBad n c) || ms.any (s.vmaskBad n c) || fs.any (s.vfileBad n c), VEC_REG)

/-! ## Fields of R447 -/

def vVD (e : Eng) : Nat := e.op 60 56
def vVA (e : Eng) : Nat := e.op 55 51
def vVB (e : Eng) : Nat := e.op 50 46
def vVC (e : Eng) : Nat := e.op 45 41
def vMASK (e : Eng) : Nat := e.op 40 39
def vSUB (e : Eng) : Nat := e.op 38 35
def vIMM (e : Eng) : Nat := e.op 34 29
def vSFMT (e : Eng) : Nat := e.op 28 25
def vCMK (e : Eng) : Nat := e.op 24 23
def vIB (e : Eng) : Nat := e.op 20 17
def vSINT (e : Eng) : Bool := e.opb 16
def vDINT (e : Eng) : Bool := e.opb 15

/-- The fields an instruction uses (R447). -/
structure VUse where
  vd : Bool := true
  va : Bool := true
  vb : Bool := false
  vc : Bool := false
  sub : Bool := false
  imm : Bool := false
  sfmt : Bool := false
  cmk : Bool := false
  wh : Bool := false
  ib : Bool := false
  sint : Bool := false
  dint : Bool := false

/-- A non-zero field that the instruction does not use, or a non-zero reserved bit (R430, R447). -/
def vFields (u : VUse) (e : Eng) : Bool × Nat :=
  ((!u.vd && vVD e != 0) || (!u.va && vVA e != 0) || (!u.vb && vVB e != 0) || (!u.vc && vVC e != 0)
    || (!u.sub && vSUB e != 0) || (!u.imm && vIMM e != 0) || (!u.sfmt && vSFMT e != 0) || (!u.cmk && vCMK e != 0)
    || (!u.wh && e.op 22 21 != 0) || (!u.ib && vIB e != 0) || (!u.sint && vSINT e) || (!u.dint && vDINT e)
    || e.op 14 0 != 0, FLD_RESERVED)
/-- The registers of the fields used, against the window. -/
def State.vRegs (s : State) (n c : Nat) (u : VUse) (e : Eng) : Bool × Nat :=
  s.vecReg n c ((if u.vd then [vVD e] else []) ++ (if u.va then [vVA e] else []) ++ (if u.vb then [vVB e] else [])
    ++ (if u.vc then [vVC e] else [])) ([vMASK e] ++ (if u.cmk then [vCMK e] else [])) []

/-- The three formats of the floating-point instructions (R240). -/
def vecFmt (code : Nat) : Bool := code == 0 || code == 1 || code == 2
/-- An element of a register in form W or L16. -/
def elem (f : Fmt) (x : Nat) : Nat := x % 2 ^ f.bits

/-! ## Floating point (R240, R243) -/

def vfpUse : AcUse := { fmt := true, strict := true, rnd := true, sat := true }
/-- The format and rounding traps of a floating-point element-wise instruction. -/
def vfpTraps (s : State) (e : Eng) : List (Bool × Nat) :=
  [fmtTrap s e.fmt, strictTrap s e, rndTrap e false, (!vecFmt e.fmt, VEC_FMT)]
/-- The conversion of an instruction's result. -/
def cvtOf (e : Eng) (r : Nat) : Cvt := { rnd := Rnd.ofCode e.rnd, strict := e.strict, sat := e.sat, r := r }

/-- A floating-point instruction: each lane's operands, its exact result and one rounding. -/
def opFp (u : VUse) (g : Rnd → FV → FV → FV → FV × Bool) (n c : Nat) (e : Eng) (s : State) : SlotOp :=
  let f := fmtOf s.level e.fmt
  let rd := fun v j => f.read e.strict (elem f (s.lane n v j))
  let m := s.vm n (vMASK e)
  let res := (List.range 64).map (fun j => fuse f (cvtOf e 0) (g (Rnd.ofCode e.rnd) (rd (vVA e) j) (rd (vVB e) j) (rd (vVC e) j)))
  engSlot 1 vfpUse n c e s (vFields u e :: s.vRegs n c u e :: vfpTraps s e) none (fun t =>
    (t.setLanes n (vVD e) (fun j => if bit m j then (res[j]?).map Prod.fst else none)).holdEng n c e fieldVEC
      (Fl.join ((List.range 64).map (fun j => if bit m j then ((res[j]?).map Prod.snd).getD {} else {}))))

def u2 : VUse := { vb := true }
def opVadd := opFp u2 (fun r x y _ => sumFV r [x, y])
def opVsub := opFp u2 (fun r x y _ => sumFV r [x, y.flip])
def opVmul := opFp u2 (fun _ x y _ => mulFV x y)
def opVfma := opFp { vb := true, vc := true } (fun r x y z => fmaFV r x y z)
def opVmax := opFp u2 (fun _ x y _ => maxFV x y)
def opVmin := opFp u2 (fun _ x y _ => minFV x y)

/-- A floating-point instruction that moves bits: no rounding and no flag. -/
def opBits (u : VUse) (g : Fmt → Nat → Nat → Nat → Nat) (n c : Nat) (e : Eng) (s : State) : SlotOp :=
  let f := fmtOf s.level e.fmt
  let m := s.vm n (vMASK e)
  let res := (List.range 64).map (fun j => g f j (elem f (s.lane n (vVA e) j)) (elem f (s.lane n (vVB e) j)))
  engSlot 1 vfpUse n c e s ((u.cmk && vCMK e == 0, VEC_REG) :: vFields u e :: s.vRegs n c u e :: vfpTraps s e) none (fun t =>
    t.setLanes n (vVD e) (fun j => if bit m j then res[j]? else none))
def opVabs := opBits {} (fun f _ x _ => x % 2 ^ (f.bits - 1))
def opVneg := opBits {} (fun f _ x _ => x ^^^ 2 ^ (f.bits - 1))
def opVsel (n c : Nat) (e : Eng) (s : State) : SlotOp :=
  opBits { vb := true, cmk := true } (fun _ j x y => if bit (s.vm n (vCMK e)) j then x else y) n c e s

/-- VCMP: masked-off lanes write 0. -/
def opVcmp (n c : Nat) (e : Eng) (s : State) : SlotOp :=
  let u : VUse := { vd := false, vb := true, sub := true, cmk := true }
  let f := fmtOf s.level e.fmt
  let rd := fun v j => f.read e.strict (elem f (s.lane n v j))
  let m := s.vm n (vMASK e)
  let res := (List.range 64).map (fun j => if bit m j then cmpFV (vSUB e) (rd (vVA e) j) (rd (vVB e) j) else (false, false))
  engSlot 1 vfpUse n c e s ((vCMK e == 0, VEC_REG) :: (decide (6 < vSUB e), VEC_OP) :: vFields u e :: s.vRegs n c u e :: vfpTraps s e)
    none (fun t =>
      (t.setVm n (vCMK e) ((res.zip (List.range 64)).foldl (fun a p => if p.1.1 then a + 2 ^ p.2 else a) 0)).holdEng n c e fieldVEC
        { nv := res.any Prod.snd })

/-! ## Integers and moves (R241, R244, R245) -/

/-- An instruction on raw lanes: no flag. -/
def opLanes (u : VUse) (extra : List (Bool × Nat)) (g : Nat → Nat) (n c : Nat) (e : Eng) (s : State) : SlotOp :=
  let m := s.vm n (vMASK e)
  let res := (List.range 64).map g
  engSlot 1 {} n c e s (extra ++ [vFields u e, s.vRegs n c u e]) none (fun t =>
    t.setLanes n (vVD e) (fun j => if bit m j then res[j]? else none))
/-- A two-operand integer instruction. -/
def opInt (g : Word → Word → Word) (n c : Nat) (e : Eng) (s : State) : SlotOp :=
  opLanes u2 [] (fun j => (g (BitVec.ofNat 32 (s.lane n (vVA e) j)) (BitVec.ofNat 32 (s.lane n (vVB e) j))).toNat) n c e s
def opViadd := opInt (fun x y => x + y)
def opVisub := opInt (fun x y => x - y)
def opVimul := opInt (fun x y => x * y)
def opVand := opInt (fun x y => x &&& y)
def opVor := opInt (fun x y => x ||| y)
def opVxor := opInt (fun x y => x ^^^ y)
def opVshl := opInt (fun x y => x <<< (y.toNat % 32))
def opVshrl := opInt (fun x y => x >>> (y.toNat % 32))
def opVshra := opInt (fun x y => x.sshiftRight (y.toNat % 32))
def opVimax := opInt (fun x y => if x.slt y then y else x)
def opVimin := opInt (fun x y => if y.slt x then y else x)
/-- The signed conditions of VICMP. -/
def icmp (cond : Nat) (x y : Word) : Bool :=
  match cond with
  | 0 => x == y | 1 => x != y | 2 => x.slt y | 3 => !y.slt x | 4 => y.slt x | _ => !x.slt y
/-- VICMP; a masked-off lane keeps its bit (R238). -/
def opVicmp (n c : Nat) (e : Eng) (s : State) : SlotOp :=
  let u : VUse := { vd := false, vb := true, sub := true, cmk := true }
  let m := s.vm n (vMASK e)
  let res := (List.range 64).foldl (fun a j =>
    if (if bit m j then icmp (vSUB e) (BitVec.ofNat 32 (s.lane n (vVA e) j)) (BitVec.ofNat 32 (s.lane n (vVB e) j))
        else bit (s.vm n (vCMK e)) j) then a + 2 ^ j else a) 0
  engSlot 1 {} n c e s [(vCMK e == 0, VEC_REG), (decide (5 < vSUB e), VEC_OP), vFields u e, s.vRegs n c u e] none
    (fun t => t.setVm n (vCMK e) res)
def opViota (n c : Nat) (e : Eng) (s : State) : SlotOp := opLanes { va := false } [] id n c e s
def opVmov (n c : Nat) (e : Eng) (s : State) : SlotOp := opLanes {} [] (s.lane n (vVA e)) n c e s
def opVperm (n c : Nat) (e : Eng) (s : State) : SlotOp :=
  opLanes { vc := true } [] (fun j => s.lane n (vVA e) (s.lane n (vVC e) j % 64)) n c e s
def opVperm2 (n c : Nat) (e : Eng) (s : State) : SlotOp :=
  opLanes { vb := true, vc := true } [] (fun j =>
    let t := s.lane n (vVC e) j % 128
    if t < 64 then s.lane n (vVA e) t else s.lane n (vVB e) (t - 64)) n c e s
/-- The patterns of R245. -/
def shuf (p r : Nat) (a b : Nat → Nat) (j : Nat) : Nat :=
  match p with
  | 0 => a (63 - j)
  | 1 => a ((j + r) % 64)
  | 2 => if j % 2 = 0 then a (j / 2) else b (j / 2)
  | 3 => if j % 2 = 0 then a (32 + j / 2) else b (32 + j / 2)
  | 4 => if j < 32 then a (2 * j) else b (2 * (j - 32))
  | 5 => if j < 32 then a (2 * j + 1) else b (2 * (j - 32) + 1)
  | 6 => a ((j ^^^ r) % 64)
  | _ => a r
def opVshuf (n c : Nat) (e : Eng) (s : State) : SlotOp :=
  let p := vSUB e
  opLanes { vb := decide (2 ≤ p) && decide (p ≤ 5), sub := true, imm := p == 1 || p == 6 || p == 7 } [(decide (7 < p), VEC_OP)]
    (shuf p (vIMM e) (s.lane n (vVA e)) (s.lane n (vVB e))) n c e s

/-! ## Conversions (R242, R246) -/

/-- A conversion to INT32 (R242). -/
def encInt32 (c : Cvt) (v : FV) : Nat × Fl :=
  match v with
  | .nan _ => (0, Fl.invalid)
  | .inf true => (2 ^ 31, Fl.invalid)
  | .inf false => (2 ^ 31 - 1, Fl.invalid)
  | .fin neg q =>
    let (k, ix) := roundNat c.rnd neg q c.r
    if neg then (if k > 2 ^ 31 then (2 ^ 31, Fl.invalid) else ((2 ^ 32 - k) % 2 ^ 32, { nx := ix }))
    else if k ≥ 2 ^ 31 then (2 ^ 31 - 1, Fl.invalid) else (k, { nx := ix })
/-- The value of an INT32 lane. -/
def decInt32 (x : Nat) : FV := FV.ofRat ((sx 32 x : Int) : Rat)
/-- One element converted (R242): the source a format or INT32, the destination a format or INT32. -/
def cvtElem (src dst : Option Fmt) (c : Cvt) (x : Nat) : Nat × Fl :=
  let v := match src with | some f => f.read c.strict (elem f x) | none => decInt32 x
  match dst with
  | some f => f.encode c v
  | none => encInt32 c v
/-- The formats of VCVT and VPACK: FP32, BF16, FP16, INT8. -/
def cvtFmt (code : Nat) : Bool := vecFmt code || code == 4

def opVcvt (n c : Nat) (e : Eng) (s : State) : SlotOp :=
  let u : VUse := { sfmt := true, ib := true, sint := true, dint := true }
  let src := if vSINT e then none else some (fmtOf s.level (vSFMT e))
  let dst := if vDINT e then none else some (fmtOf s.level e.fmt)
  let m := s.vm n (vMASK e)
  let base := s.ibBase n c (vIB e)
  let res := (List.range 64).map (fun j =>
    cvtElem src dst (cvtOf e (if e.stoch then s.srBits n c (base + j) else 0)) (s.lane n (vVA e) j))
  engSlot 1 vfpUse n c e s
    [vFields u e, ibTrap e (vIB e), s.vRegs n c u e, fmtTrap s e.fmt, fmtTrap s (vSFMT e), rndTrap e true,
     ((vSINT e && vSFMT e != 0) || (vDINT e && e.fmt != 0) || !cvtFmt e.fmt || !cvtFmt (vSFMT e), VEC_FMT),
     (e.strict && (vSINT e || vDINT e || !vecFmt e.fmt || !vecFmt (vSFMT e)), FMT_STRICT)] none (fun t =>
    (t.setLanes n (vVD e) (fun j => if bit m j then (res[j]?).map Prod.fst else none)).holdEng n c e fieldVEC
      (Fl.join ((List.range 64).map (fun j => if bit m j then ((res[j]?).map Prod.snd).getD {} else {}))))

/-- Element i of a P16 or P8 register of `w` bits per element (R237). -/
def packed (w : Nat) (l : Nat → Nat) (i : Nat) : Nat := let k := 32 / w; (l (i / k) / 2 ^ (w * (i % k))) % 2 ^ w
/-- Lane j of the P16 or P8 register with the given 128 elements; lanes past them are zero (R237). -/
def packLane (w : Nat) (x : Nat → Nat) (j : Nat) : Nat :=
  let k := 32 / w
  (List.range k).foldl (fun a i => if k * j + i < 128 then a + x (k * j + i) % 2 ^ w * 2 ^ (w * i) else a) 0

/-- VPACK (R246): source element i is lane i of va, or lane i − 64 of vb. -/
def opVpack (n c : Nat) (e : Eng) (s : State) : SlotOp :=
  let u : VUse := { vb := true, sfmt := true, ib := true, sint := true }
  let src := if vSINT e then none else some (fmtOf s.level (vSFMT e))
  let f := fmtOf s.level e.fmt
  let m := s.vm n (vMASK e)
  let base := s.ibBase n c (vIB e)
  let w := f.bits
  let res := (List.range 128).map (fun i =>
    if bit m (i % 64) then
      cvtElem src (some f) (cvtOf e (if e.stoch then s.srBits n c (base + i) else 0)) (s.lane n (if i < 64 then vVA e else vVB e) (i % 64))
    else (packed w (s.lane n (vVD e)) i, {}))
  let ok := if e.fmt = 4 then vSINT e || vSFMT e == 0 else (e.fmt == 1 || e.fmt == 2) && !vSINT e && (vSFMT e == 0 || vSFMT e == e.fmt)
  engSlot 1 { vfpUse with strict := false } n c e s
    [vFields u e, ibTrap e (vIB e), s.vRegs n c u e, fmtTrap s e.fmt, fmtTrap s (vSFMT e), rndTrap e true,
     (!ok || (vSINT e && vSFMT e != 0), VEC_FMT)] none (fun t =>
    (t.setLanes n (vVD e) (fun j => some (packLane w (fun i => ((res[i]?).map Prod.fst).getD 0) j))).holdEng n c e fieldVEC
      (Fl.join (res.map Prod.snd)))

/-- An element widened exactly to FP32 (R246): a NaN becomes the canonical one (R47), with NV when it signals. -/
def widen (f : Fmt) (x : Nat) : Nat × Fl := Fmt.fp32.encode { strict := true } (f.decode x)
/-- VUNPACK (R246). -/
def opVunpack (n c : Nat) (e : Eng) (s : State) : SlotOp :=
  let u : VUse := { wh := true }
  let f := fmtOf s.level e.fmt
  let m := s.vm n (vMASK e)
  let res := (List.range 64).map (fun j =>
    let x := packed f.bits (s.lane n (vVA e)) (64 * e.op 21 21 + j)
    if e.opb 22 then widen f x else (x, {}))
  engSlot 1 { vfpUse with strict := false } n c e s
    [vFields u e, s.vRegs n c u e, fmtTrap s e.fmt, rndTrap e false, (!(e.fmt == 1 || e.fmt == 2 || e.fmt == 4), VEC_FMT)] none (fun t =>
    (t.setLanes n (vVD e) (fun j => if bit m j then (res[j]?).map Prod.fst else none)).holdEng n c e fieldVEC
      (Fl.join ((List.range 64).map (fun j => if bit m j then ((res[j]?).map Prod.snd).getD {} else {}))))

/-! ## Commands -/

def execVadd (a : Issue) (e : Eng) (s : State) : Res := engine opVadd (some VEC_RESIDUE) a e s
def execVsub (a : Issue) (e : Eng) (s : State) : Res := engine opVsub (some VEC_RESIDUE) a e s
def execVmul (a : Issue) (e : Eng) (s : State) : Res := engine opVmul (some VEC_RESIDUE) a e s
def execVfma (a : Issue) (e : Eng) (s : State) : Res := engine opVfma (some VEC_RESIDUE) a e s
def execVmax (a : Issue) (e : Eng) (s : State) : Res := engine opVmax (some VEC_RESIDUE) a e s
def execVmin (a : Issue) (e : Eng) (s : State) : Res := engine opVmin (some VEC_RESIDUE) a e s
def execVabs (a : Issue) (e : Eng) (s : State) : Res := engine opVabs (some VEC_RESIDUE) a e s
def execVneg (a : Issue) (e : Eng) (s : State) : Res := engine opVneg (some VEC_RESIDUE) a e s
def execVcmp (a : Issue) (e : Eng) (s : State) : Res := engine opVcmp (some VEC_RESIDUE) a e s
def execVsel (a : Issue) (e : Eng) (s : State) : Res := engine opVsel (some VEC_RESIDUE) a e s
def execVcvt (a : Issue) (e : Eng) (s : State) : Res := engine opVcvt (some VEC_RESIDUE) a e s
def execVpack (a : Issue) (e : Eng) (s : State) : Res := engine opVpack (some VEC_RESIDUE) a e s
def execVunpack (a : Issue) (e : Eng) (s : State) : Res := engine opVunpack (some VEC_RESIDUE) a e s
def execViadd (a : Issue) (e : Eng) (s : State) : Res := engine opViadd (some VEC_RESIDUE) a e s
def execVisub (a : Issue) (e : Eng) (s : State) : Res := engine opVisub (some VEC_RESIDUE) a e s
def execVimul (a : Issue) (e : Eng) (s : State) : Res := engine opVimul (some VEC_RESIDUE) a e s
def execVand (a : Issue) (e : Eng) (s : State) : Res := engine opVand (some VEC_RESIDUE) a e s
def execVor (a : Issue) (e : Eng) (s : State) : Res := engine opVor (some VEC_RESIDUE) a e s
def execVxor (a : Issue) (e : Eng) (s : State) : Res := engine opVxor (some VEC_RESIDUE) a e s
def execVshl (a : Issue) (e : Eng) (s : State) : Res := engine opVshl (some VEC_RESIDUE) a e s
def execVshrl (a : Issue) (e : Eng) (s : State) : Res := engine opVshrl (some VEC_RESIDUE) a e s
def execVshra (a : Issue) (e : Eng) (s : State) : Res := engine opVshra (some VEC_RESIDUE) a e s
def execVimax (a : Issue) (e : Eng) (s : State) : Res := engine opVimax (some VEC_RESIDUE) a e s
def execVimin (a : Issue) (e : Eng) (s : State) : Res := engine opVimin (some VEC_RESIDUE) a e s
def execVicmp (a : Issue) (e : Eng) (s : State) : Res := engine opVicmp (some VEC_RESIDUE) a e s
def execViota (a : Issue) (e : Eng) (s : State) : Res := engine opViota (some VEC_RESIDUE) a e s
def execVmov (a : Issue) (e : Eng) (s : State) : Res := engine opVmov (some VEC_RESIDUE) a e s
def execVperm (a : Issue) (e : Eng) (s : State) : Res := engine opVperm (some VEC_RESIDUE) a e s
def execVperm2 (a : Issue) (e : Eng) (s : State) : Res := engine opVperm2 (some VEC_RESIDUE) a e s
def execVshuf (a : Issue) (e : Eng) (s : State) : Res := engine opVshuf (some VEC_RESIDUE) a e s

end Sys2Proof.Machine
end

