-- ==== Sys2Proof/Machine/VecMem.lean ====
section
/-! DEFINITION. Vector loads and stores, statistics and argmax files, and zero-run decoding (08_vector_engine.md R247 to R257,
R645, 14_instruction_encoding.md R448). -/

namespace Sys2Proof.Machine

/-! ## Loads and stores -/

/-- The bytes per lane of a form: W, L16, L8, P16, P8; the packed forms move whole 4-byte lanes. -/
def formLane (f : Nat) : Nat := match f with | 1 => 2 | 2 => 1 | _ => 4
/-- The alignment of a form: its element size. -/
def formAlign (f : Nat) : Nat := match f with | 0 => 4 | 1 => 2 | 3 => 2 | _ => 1
/-- The lanes that a form accesses under a mask (R237, R238). -/
def formLanes (f m : Nat) : List Nat := (List.range (if f = 4 then 32 else 64)).filter (fun j => bit m j)
/-- The context-relative address of lane j. -/
def vlAddr (f r : Nat) (stride : Int) (j : Nat) : Int := (r : Int) + (j : Int) * stride * (formLane f : Nat)
/-- The traps that VLD and VST share (R247, R432, R448). -/
def vlTraps (n c : Nat) (e : Eng) (s : State) : List (Bool × Nat) :=
  let f := e.op 46 44
  let a := s.ar n c (e.op 55 52)
  let st := sx 32 (s.sr n c (e.op 51 47))
  let ls := formLanes f (s.vm n (e.op 43 42))
  let lo := ls.foldl (fun m j => min m (vlAddr f (addrOf a) st j)) (vlAddr f (addrOf a) st (ls.headD 0))
  let hi := ls.foldl (fun m j => max m (vlAddr f (addrOf a) st j)) (vlAddr f (addrOf a) st (ls.headD 0)) + (formLane f : Nat) - 1
  [(e.op 41 0 != 0, FLD_RESERVED), (badAddr a, ADDR_FORM), (decide (4 < f), VEC_FMT), s.vecReg n c [e.op 60 56] [e.op 43 42] [],
   (addrOf a % formAlign f != 0, VEC_ALIGN), ((f == 3 || f == 4) && st != 1, VEC_STRIDE)]
    ++ (if ls.isEmpty then [] else s.fmTraps n c lo hi)

/-- VLD (R247): the lanes of the mask read their elements; in form P8 lanes 32 to 63 of the mask are written as zero (R237). -/
def opVld (n c : Nat) (e : Eng) (s : State) : SlotOp :=
  let f := e.op 46 44
  let r := addrOf (s.ar n c (e.op 55 52))
  let st := sx 32 (s.sr n c (e.op 51 47))
  let m := s.vm n (e.op 43 42)
  engSlot 1 {} n c e s (vlTraps n c e s) none (fun t =>
    t.setLanes n (e.op 60 56) (fun j =>
      if !bit m j then none
      else if f = 4 ∧ 32 ≤ j then some 0
      else some (t.fmLoad n c (vlAddr f r st j).toNat (formLane f))))
/-- VST (R248): the store data are read at issue. -/
def opVst (n c : Nat) (e : Eng) (s : State) : SlotOp :=
  let f := e.op 46 44
  let r := addrOf (s.ar n c (e.op 55 52))
  let st := sx 32 (s.sr n c (e.op 51 47))
  let ls := formLanes f (s.vm n (e.op 43 42))
  engSlot 1 {} n c e s ((st == 0, VEC_STRIDE) :: vlTraps n c e s) none (fun t =>
    ls.foldl (fun t j => t.fmStore n c (vlAddr f r st j).toNat (formLane f) (s.lane n (e.op 60 56) j)) t)

/-! ## Statistics files (R250) -/

def State.sfRec (s : State) (n k j : Nat) : StatRec := Sp.get (fun _ => StatRec.empty) s.sf ((2 * n + k) * 64 + j)
def State.setSf (s : State) (n k j : Nat) (r : StatRec) : State :=
  { s with sf := Sp.set (fun _ => StatRec.empty) s.sf ((2 * n + k) * 64 + j) r }
def State.sfK (s : State) (n k : Nat) : Nat := Sp.get (fun _ => 0) s.sfKind (2 * n + k)
def State.setSfK (s : State) (n k v : Nat) : State := { s with sfKind := Sp.set (fun _ => 0) s.sfKind (2 * n + k) v }
def State.amRec (s : State) (n k j : Nat) : ArgRec := Sp.get (fun _ => ArgRec.reset) s.am ((2 * n + k) * 64 + j)
def State.setAm (s : State) (n k j : Nat) (r : ArgRec) : State :=
  { s with am := Sp.set (fun _ => ArgRec.reset) s.am ((2 * n + k) * 64 + j) r }

/-- VSSQ and VMV: `kind` 1 or 2, the update of one record. -/
def opStat (kind : Nat) (upd : StatRec → FV → StatRec × Fl) (n c : Nat) (e : Eng) (s : State) : SlotOp :=
  let f := fmtOf s.level e.fmt
  let k := e.op 55 55
  let m := s.vm n (e.op 54 53)
  let ls := (List.range 64).filter (fun j => bit m j)
  let res := ls.map (fun j => (j, upd (s.sfRec n k j) (f.read false (elem f (s.lane n (e.op 60 56) j)))))
  engSlot 1 { fmt := true } n c e s
    [(e.op 52 0 != 0, FLD_RESERVED), fmtTrap s e.fmt, (!vecFmt e.fmt, VEC_FMT), s.vecReg n c [e.op 60 56] [e.op 54 53] [k],
     (s.sfK n k != 0 && s.sfK n k != kind, VEC_FILE)] none (fun t =>
    ((res.foldl (fun t p => t.setSf n k p.1 p.2.1) t).setSfK n k kind).holdEng n c e fieldVEC (Fl.join (res.map (fun p => p.2.2))))
def opVssq := opStat 1 ssqUpdate
def opVmv := opStat 2 mvUpdate
/-- VSCLR: every record of the file empty. -/
def opVsclr (n c : Nat) (e : Eng) (s : State) : SlotOp :=
  let k := e.op 55 55
  engSlot 1 {} n c e s [(e.op 60 56 != 0 || e.op 54 0 != 0, FLD_RESERVED), s.vecReg n c [] [] [k]] none (fun t =>
    ({ t with sf := Sp.erase t.sf ((2 * n + k) * 64) 64 }).setSfK n k 0)

/-- The FP32 code of a score (R251, R252): widened exactly, a NaN with its payload. -/
def scoreCode (f : Fmt) (x : Nat) : Nat :=
  match f with
  | .fp32 => x
  | .bf16 => x * 65536
  | f => if (f.decode x).isNan then x / 32768 * 2 ^ 31 + 0x7F800000 + x % 1024 * 8192 else (widen f x).1
/-- VAMAX (R251). -/
def opVamax (n c : Nat) (e : Eng) (s : State) : SlotOp :=
  let f := fmtOf s.level e.fmt
  let k := e.op 55 55
  let m := s.vm n (e.op 54 53)
  let b := s.sr n c (e.op 52 48)
  let ls := (List.range 64).filter (fun j => bit m j)
  let xs := ls.map (fun j => (j, scoreCode f (elem f (s.lane n (e.op 60 56) j)), (b + j) % 2 ^ 32))
  engSlot 1 { fmt := true } n c e s
    [(e.op 47 0 != 0, FLD_RESERVED), fmtTrap s e.fmt, (!vecFmt e.fmt, VEC_FMT), s.vecReg n c [e.op 60 56] [e.op 54 53] [2 + k]]
    none (fun t =>
      (xs.foldl (fun t p => if better p.2.1 p.2.2 (t.amRec n k p.1) then t.setAm n k p.1 ⟨p.2.1, p.2.2⟩ else t) t).holdEng n c e
        fieldVEC { nv := xs.any (fun p => (Fmt.fp32.decode p.2.1).isSNan) })
/-- VACLR. -/
def opVaclr (n c : Nat) (e : Eng) (s : State) : SlotOp :=
  let k := e.op 55 55
  engSlot 1 {} n c e s [(e.op 60 56 != 0 || e.op 54 0 != 0, FLD_RESERVED), s.vecReg n c [] [] [2 + k]] none (fun t =>
    (List.range 64).foldl (fun t j => t.setAm n k j ArgRec.empty) t)

/-! ## Reductions to folio memory or the send slot (R250, R251, R463) -/

/-- The send slot of a folio. -/
def State.slot (s : State) (n : Nat) : Option Slot := Sp.get (fun _ => none) s.slots n
/-- Is the send slot occupied, by what an engine wrote or by a contribution that waits (R463, R464)? -/
def State.slotBusy (s : State) (n : Nat) : Bool := (s.slot n).isSome || !(Sp.get (fun _ => []) s.contribs n).isEmpty
def State.setSlot (s : State) (n : Nat) (x : Option Slot) : State := { s with slots := Sp.set (fun _ => none) s.slots n x }

/-- A record of `bs` bytes written to folio memory at a(AREG), or handed to the send slot; an occupied slot holds the engine
(R463). -/
def opRecord (file : Nat) (len : Nat) (bs : State → List Byte × Fl) (n c : Nat) (e : Eng) (s : State) : SlotOp :=
  let a := s.ar n c (e.op 53 50)
  let dk := e.opb 54
  engSlot 1 {} n c e s
    ([(e.op 60 56 != 0 || e.op 49 0 != 0 || (dk && e.op 53 50 != 0), FLD_RESERVED), s.vecReg n c [] [] [file]]
      ++ (if dk then [] else (badAddr a, ADDR_FORM) :: s.fmSpan n c (addrOf a) len))
    (if dk && s.slotBusy n then some .sendSlot else none) (fun t =>
      let r := bs t
      (if dk then t.setSlot n (some { ctx := c, tag := s.engTag n c e, bytes := r.1 }) else t.fmWrite n c (addrOf a) r.1).holdEng n c e fieldVEC r.2)

/-- The lane records of a file and the flags so far. -/
def State.sfRecs (s : State) (n k : Nat) : List (StatRec × Fl) := (List.range 64).map (fun j => (s.sfRec n k j, {}))
/-- VSTRED (R230, R250); a file with no update since its clear gives the empty mean-and-variance record. -/
def opVstred (n c : Nat) (e : Eng) (s : State) : SlotOp :=
  let k := e.op 55 55
  let ssq := s.sfK n k == 1
  let comb := fun (x y : StatRec × Fl) =>
    let r := if ssq then combineSsq x.1 y.1 else combineMv x.1 y.1
    (r.1, (x.2.or y.2).or r.2)
  opRecord k (if ssq then 8 else 12) (fun t =>
    let r := (laneTree comb 6 (t.sfRecs n k)).headD (StatRec.empty, {})
    (r.1.bytes ssq, r.2)) n c e s
/-- VSTST: the 64 records, lane 0 first. -/
def opVstst (n c : Nat) (e : Eng) (s : State) : SlotOp :=
  let k := e.op 55 55
  let ssq := s.sfK n k == 1
  opRecord k (64 * (if ssq then 8 else 12)) (fun t => ((t.sfRecs n k).flatMap (fun r => r.1.bytes ssq), {})) n c e s
/-- VAMRED (R251). -/
def opVamred (n c : Nat) (e : Eng) (s : State) : SlotOp :=
  let k := e.op 55 55
  opRecord (2 + k) 8 (fun t =>
    (((laneTree combineArg 6 ((List.range 64).map (t.amRec n k))).headD ArgRec.empty).bytes, {})) n c e s

/-! ## Zero-run decoding (R255 to R257) -/

/-- A decoded group: its output bytes and the element count after it. -/
structure ZGroup where
  bytes : List Byte
  count : Nat
  deriving DecidableEq, Repr

/-- The groups of a zero-run code and whether the code is well formed (R255, R256): `es` bytes per element, E elements,
`done` of them decoded. -/
def zrdGroups (es E : Nat) : (fuel : Nat) → (done : Nat) → List Byte → List ZGroup × Bool
  | 0, _, _ => ([], false)
  | fuel + 1, done, code =>
    if done = E then ([], code.all (fun b => b == 0))
    else match code with
      | nb :: zb :: rest =>
        let z := zb.toNat
        let k := nb.toNat
        let lit := k * es
        let pad := if es = 1 then k % 2 else 0
        if (z = 0 ∧ k = 0) ∨ E < done + z + k ∨ rest.length < lit + pad then ([], false)
        else
          let (gs, ok) := zrdGroups es E fuel (done + z + k) (rest.drop (lit + pad))
          (⟨List.replicate (z * es) 0 ++ rest.take lit, done + z + k⟩ :: gs, ok)
      | _ => ([], false)
/-- The groups cut after each one that passes a multiple of 256 elements (R257). -/
def zrdUnits : (done : Nat) → List ZGroup → List (List ZGroup)
  | _, [] => [[]]
  | done, g :: gs =>
    match zrdUnits g.count gs with
    | [] => [[g]]
    | u :: us => if done / 256 < g.count / 256 then (if gs.isEmpty then [[g]] else [g] :: u :: us) else (g :: u) :: us

/-- The bytes of a zero-run code: in the payload of the step's burst where the handle is a burst landing zone, else at the
vat address. -/
def State.zrdCode (s : State) (n c : Nat) (a len : Nat) : List Byte :=
  let h := vatHandle a
  match s.sigKind h == 1, s.ctxBurst n c with
  | true, some b => (List.range len).map (fun i => (((s.burstBytes b).drop 32).drop (vatOff a)).getD i 0)
  | _, _ => s.vatBytes h (vatOff a) len
/-- The work of a context ends with ZRD_MALFORMED: a step with its status, other work by failing its tags (R256). -/
def State.zrdBad (s : State) (n c : Nat) : State :=
  match (s.ctx n c).entry with
  | some en => if en.step then s.endStep en.stream 4 else s.failTags n c
  | none => s

def zrdSize (fmt : Nat) : Nat := if fmt = 4 then 1 else 2
/-- VZRD. -/
def opVzrd (n c : Nat) (e : Eng) (s : State) : Long :=
  let a := s.ar n c (e.op 60 57)
  let d := s.ar n c (e.op 56 53)
  let E := s.sr n c (e.op 52 48)
  let B := s.sr n c (e.op 47 43)
  let es := zrdSize e.fmt
  let h := vatHandle a
  let right := if s.sigKind h = 1 then s.logical n == some (s.sigOwner h) else s.sigRd h
  let dec := fun (t : State) => if B % 2 = 1 then ([], false) else zrdGroups es E (B + 1) 0 (t.zrdCode n c a B)
  { traps := engTraps 1 n c e s ++ acTraps { fmt := true } e
      ++ [(e.op 42 0 != 0, FLD_RESERVED), fmtTrap s e.fmt, (badVat a || badAddr d, ADDR_FORM),
          (!(e.fmt == 1 || e.fmt == 2 || e.fmt == 4) || E == 0 || decide (2 ^ 24 < E) || B == 0, ZRD_SHAPE),
          (addrOf d % 4 != 0, VEC_ALIGN)]
      ++ s.vatTraps n h (vatOff a) B right ++ s.fmSpan n c (addrOf d) (E * es)
    wait := none
    kind := 3
    total := fun t => (zrdUnits 0 (dec t).1).length
    part := fun lo hi t =>
      let us := zrdUnits 0 (dec t).1
      let before := ((us.take lo).flatten.getLast?.map ZGroup.count).getD 0
      let out := ((us.drop lo).take (hi - lo)).flatten.flatMap ZGroup.bytes
      (hi, t.fmWrite n c (addrOf d + before * es) out)
    finish := fun t => if (dec t).2 then t.relEng n c e else (t.relEng n c e).zrdBad n c }

/-! ## Commands -/

def execVld (a : Issue) (e : Eng) (s : State) : Res := engine opVld (some VEC_RESIDUE) a e s
def execVst (a : Issue) (e : Eng) (s : State) : Res := engine opVst (some VEC_RESIDUE) a e s
def execVssq (a : Issue) (e : Eng) (s : State) : Res := engine opVssq (some VEC_RESIDUE) a e s
def execVmv (a : Issue) (e : Eng) (s : State) : Res := engine opVmv (some VEC_RESIDUE) a e s
def execVsclr (a : Issue) (e : Eng) (s : State) : Res := engine opVsclr (some VEC_RESIDUE) a e s
def execVstred (a : Issue) (e : Eng) (s : State) : Res := engine opVstred (some VEC_RESIDUE) a e s
def execVstst (a : Issue) (e : Eng) (s : State) : Res := engine opVstst (some VEC_RESIDUE) a e s
def execVamax (a : Issue) (e : Eng) (s : State) : Res := engine opVamax (some VEC_RESIDUE) a e s
def execVaclr (a : Issue) (e : Eng) (s : State) : Res := engine opVaclr (some VEC_RESIDUE) a e s
def execVamred (a : Issue) (e : Eng) (s : State) : Res := engine opVamred (some VEC_RESIDUE) a e s
def execVzrd (a : Issue) (e : Eng) (s : State) : Res := longEngine 0x6B opVzrd (some VEC_RESIDUE) a e s

end Sys2Proof.Machine
end

