-- ==== Sys2Proof/Machine/Special.lean ====
section
/-! DEFINITION. The special-function and softmax instructions (07_special_functions.md R204, R215, R221, 14_instruction_encoding.md
R446). -/

namespace Sys2Proof.Machine

/-- The function store of a folio as a byte source (R212). -/
def State.fstore (s : State) (n : Nat) : Bytes := fun o => s.fns.byte (4096 * n + o)
/-- The stochastic value of lane j of an instruction with index base IB. -/
def State.srLane (s : State) (n c : Nat) (e : Eng) (ib j : Nat) : Nat :=
  if e.stoch then s.srBits n c (s.ibBase n c ib + j) else 0

/-- SFN. -/
def opSfn (n c : Nat) (e : Eng) (s : State) : SlotOp :=
  let fn := e.op 48 39
  let compat := e.opb 27
  let N := e.op 34 28
  let fin := fmtOf s.level (e.op 38 35)
  let fout := fmtOf s.level e.fmt
  let m := s.vm n (e.op 50 49)
  let ib := e.op 26 23
  let res := (List.range 64).map (fun j =>
    if decide (j < N) && bit m j then
      some (fnEval s.level compat (s.fstore n) fn (fin.read false (elem fin (s.lane n (e.op 55 51) j))) fout (cvtOf e (s.srLane n c e ib j)))
    else none)
  engSlot 1 { fmt := true, rnd := true, sat := true } n c e s
    [(e.op 22 0 != 0 || (decide (s.level < 2) && compat), FLD_RESERVED), ibTrap e ib, fmtTrap s e.fmt, fmtTrap s (e.op 38 35),
     rndTrap { e with ac := e.ac &&& 0xF7FF } true, s.vecReg n c [e.op 60 56, e.op 55 51] [e.op 50 49] [],
     (fnBad s.level compat (s.fstore n) fn, SFN_FN), (!vecFmt e.fmt || !vecFmt (e.op 38 35) || fn == 9, SFN_FMT),
     (N == 0 || decide (64 < N), SFN_LANES)] none (fun t =>
    (t.setLanes n (e.op 60 56) (fun j => match res[j]? with | some (some r) => some r.1 | _ => none)).holdEng n c e fieldSFU
      (Fl.join (res.map (fun r => match r with | some x => x.2 | none => {}))))

/-- VALID and UTAB of FOLIO_SFU_STORE after a write of the function store (R235). -/
def State.storeStat (s : State) (n : Nat) : State :=
  let st := s.fstore n
  let valid := (List.range 15).foldl (fun a j => if bit (rdn st (32 * j + 6) 2) 15 then a + 2 ^ j else a) 0
  (s.setFld (FOLIO_SFU_STORE n) 14 0 valid).setBit (FOLIO_SFU_STORE n) 16 ((st 0x1E5) == 1 || (st 0x1E5) == 2)
/-- A lane sum and the row sum (R220). -/
def State.saOf (s : State) (n j : Nat) : FV := Sp.get (fun _ => FV.pzero) s.sa (64 * n + j)
def State.setSa (s : State) (n j : Nat) (v : FV) : State := { s with sa := Sp.set (fun _ => FV.pzero) s.sa (64 * n + j) v }
def State.srowOf (s : State) (n : Nat) : FV := Sp.get (fun _ => FV.pzero) s.srow n
def State.setSrow (s : State) (n : Nat) (v : FV) : State := { s with srow := Sp.set (fun _ => FV.pzero) s.srow n v }

/-- The softmax of a work tag holds the lane sums (R233). -/
def State.sxOwn (s : State) (n tag : Nat) : State := { s with saTag := Sp.set (fun _ => none) s.saTag n (some tag) }
/-- The lane sums and SROW cleared (R221, R233). -/
def State.sxClear (s : State) (n : Nat) : State := { s with sa := Sp.erase s.sa (64 * n) 64, saTag := Sp.set (fun _ => none) s.saTag n none }.setSrow n FV.pzero
/-- Does an SXRED's SROW still wait for its collective (R221)? -/
def State.srowWaits (s : State) (n : Nat) : Bool := (s.contrib n).any (fun x => x.op == opSXRED)

/-- SXCLR. -/
def opSxclr (n c : Nat) (e : Eng) (s : State) : SlotOp :=
  engSlot 2 {} n c e s [(e.op 60 0 != 0, FLD_RESERVED)] (if s.srowWaits n then some .sendSlot else none) (fun t => t.sxClear n)
/-- SXACC. -/
def opSxacc (n c : Nat) (e : Eng) (s : State) : SlotOp :=
  let N := e.op 53 47
  let f := fmtOf s.level e.fmt
  let m := s.vm n (e.op 55 54)
  let ls := (List.range 64).filter (fun j => decide (j < N) && bit m j)
  let res := ls.map (fun j =>
    let (x, f1) := expw (f.read false (elem f (s.lane n (e.op 60 56) j)))
    let (t, bad) := sumFV .ne [s.saOf n j, x]
    let (v, ix) := roundsum t
    (j, v, f1.or { nx := ix, nv := bad }))
  engSlot 2 { fmt := true } n c e s
    [(e.op 45 0 != 0, FLD_RESERVED), fmtTrap s e.fmt, (!vecFmt e.fmt, SFN_FMT), (e.opb 46, SFN_FN),
     s.vecReg n c [e.op 60 56] [e.op 55 54] [], (N == 0 || decide (64 < N), SFN_LANES)] none (fun t =>
    ((res.foldl (fun t p => t.setSa n p.1 p.2.1) t).sxOwn n (s.engTag n c e)).holdEng n c e fieldSFU (Fl.join (res.map (fun p => p.2.2))))
/-- One addition of the sum tree, with its flags. -/
def sumAdd (a b : FV × Fl) : FV × Fl :=
  let (t, bad) := sumFV .ne [a.1, b.1]
  let (v, ix) := roundsum t
  (v, (a.2.or b.2).or { nx := ix, nv := bad })
/-- The writes that the six levels of SXRED make to the lane sums: at level k, lane 2^k × i holds the sum of its neighbours. -/
def sxLevels : (k : Nat) → List (FV × Fl) → List (Nat × FV)
  | 0, _ => []
  | k + 1, l =>
    let l' := pairUp sumAdd l
    if k = 0 then [] else (l'.zip (List.range 32)).map (fun p => (p.2 * (64 / l'.length), p.1.1)) ++ sxLevels k l'
/-- SXRED (R221): levels 1 to 5 leave their sums in SA, level 6 in SROW; with COLL the folios' SROW are summed by the spine. -/
def opSxred (n c : Nat) (e : Eng) (s : State) : SlotOp :=
  let coll := e.opb 60
  let stag := e.op 59 50
  let l := (List.range 64).map (fun j => (s.saOf n j, ({} : Fl)))
  let r := (laneTree sumAdd 6 l).headD (FV.pzero, {})
  engSlot 2 {} n c e s
    [(e.op 49 0 != 0 || (!coll && stag != 0), FLD_RESERVED), (coll && (e.tag.toNat != 0x40 || s.stagBad n stag), SEQ_TAG)]
    (if coll && s.slotBusy n then some .sendSlot else none) (fun t =>
    let t1 := ((sxLevels 6 l).foldl (fun t p => t.setSa n p.1 p.2) t).setSrow n r.1
    let t2 := (t1.sxOwn n (s.engTag n c e)).holdEng n c e fieldSFU r.2
    if coll then
      t2.contribute n { op := opSXRED, fmt := 0, rop := 0, count := 1, stag := stag, scope := false, dest := 0, ctx := c,
                        bytes := toBytes 8 (sumCode r.1), field := fieldSFU, owner := (s.ctx n c).owner }
    else t2)
/-- SXDIV. -/
def opSxdiv (n c : Nat) (e : Eng) (s : State) : SlotOp :=
  let N := e.op 48 42
  let fin := fmtOf s.level (e.op 41 38)
  let fout := fmtOf s.level e.fmt
  let m := s.vm n (e.op 50 49)
  let ib := e.op 36 33
  let row := s.srowOf n
  let res := (List.range 64).map (fun j =>
    if decide (j < N) && bit m j then
      (let (x, f1) := expw (fin.read false (elem fin (s.lane n (e.op 55 51) j)))
       let (w, f2) := fuse fout (cvtOf e (s.srLane n c e ib j)) (divFV x row)
       some (w, f1.or f2))
    else none)
  engSlot 2 { fmt := true, rnd := true, sat := true } n c e s
    [(e.op 32 0 != 0, FLD_RESERVED), ibTrap e ib, fmtTrap s e.fmt, fmtTrap s (e.op 41 38),
     rndTrap { e with ac := e.ac &&& 0xF7FF } true, (e.opb 37, SFN_FN), s.vecReg n c [e.op 60 56, e.op 55 51] [e.op 50 49] [],
     (!vecFmt e.fmt || !vecFmt (e.op 41 38), SFN_FMT), (N == 0 || decide (64 < N), SFN_LANES)]
    (if s.srowWaits n then some .sendSlot else none) (fun t =>
    (t.setLanes n (e.op 60 56) (fun j => match res[j]? with | some (some r) => some r.1 | _ => none)).holdEng n c e fieldSFU
      (Fl.join (res.map (fun r => match r with | some x => x.2 | none => {}))))

def execSfn (a : Issue) (e : Eng) (s : State) : Res := engine opSfn (some SFU_RESIDUE) a e s
def execSxclr (a : Issue) (e : Eng) (s : State) : Res := engine opSxclr (some SFU_RESIDUE) a e s
def execSxacc (a : Issue) (e : Eng) (s : State) : Res := engine opSxacc (some SFU_RESIDUE) a e s
def execSxred (a : Issue) (e : Eng) (s : State) : Res := engine opSxred (some SFU_RESIDUE) a e s
def execSxdiv (a : Issue) (e : Eng) (s : State) : Res := engine opSxdiv (some SFU_RESIDUE) a e s

end Sys2Proof.Machine
end

