-- ==== Sys2Proof/Machine/Gate.lean ====
section
/-! DEFINITION. The gate pipeline (05_matvec_and_gates.md R158 to R168, R643; 14_instruction_encoding.md R445): cell classes, gate
programs, the pre-activations that the MVP and the arrays deliver, GUPD and GPLOAD. -/

namespace Sys2Proof.Machine

/-! ## Gate programs (R166 to R168) -/

/-- Fields of a micro-op (R166). -/
def mOP (w : Nat) : Nat := bits w 31 27
def mDST (w : Nat) : Nat := bits w 26 22
def mA (w : Nat) : Nat := bits w 21 17
def mB (w : Nat) : Nat := bits w 16 12
def mC (w : Nat) : Nat := bits w 11 7
def mD (w : Nat) : Nat := bits w 6 2
def mFN (w : Nat) : Nat := bits w 16 7

/-- The number of operands A to D that an operation reads. -/
def mReads (op : Nat) : Nat :=
  match op with
  | 1 => 1 | 2 => 2 | 3 => 2 | 4 => 2 | 5 => 3 | 6 => 4 | 7 => 3 | 8 => 2 | 9 => 2 | 10 => 1 | 11 => 1 | _ => 0
/-- The operands that a micro-op reads. -/
def mOperands (w : Nat) : List Nat := [mA w, mB w, mC w, mD w].take (mReads (mOP w))
/-- Does an operation write a temporary? -/
def mTemp (op : Nat) : Bool := decide (1 ≤ op) && decide (op ≤ 9)
/-- The function indices that a gate program may name (R168). -/
def gateFn (fn : Nat) : Bool :=
  decide (fn ≤ 8) || (decide (10 ≤ fn) && decide (fn ≤ 13)) || (decide (0x40 ≤ fn) && decide (fn ≤ 0x4E))
/-- A field that R166 marks — and that is not zero, or a DST outside its range. -/
def mBad (w : Nat) : Bool :=
  let op := mOP w
  decide (0x0B < op) || bits w 1 0 != 0
    || (if op = 1 then mD w != 0 || !gateFn (mFN w)
        else (decide (mReads op < 4) && mD w != 0) || (decide (mReads op < 3) && mC w != 0) || (decide (mReads op < 2) && mB w != 0))
    || (if mTemp op then decide (mDST w < 8) || decide (23 < mDST w) else if op = 10 then decide (3 < mDST w) else mDST w != 0)

/-- The micro-ops before END. -/
def progOps (ws : List Nat) : List Nat := ws.takeWhile (fun w => mOP w != 0)
/-- Does a micro-op read a temporary that no earlier one writes? `done` lists the temporaries written. -/
def progReads (done : List Nat) : List Nat → Bool
  | [] => false
  | w :: ws =>
    (mOperands w).any (fun o => decide (8 ≤ o) && decide (o ≤ 23) && !done.contains o)
      || progReads (if mTemp (mOP w) then mDST w :: done else done) ws
/-- GATE_PROG (R168), over the 32 words of a program. -/
def progBad (ws : List Nat) : Bool :=
  let ops := progOps ws
  !ws.any (fun w => mOP w == 0) || !ops.any (fun w => mOP w == 11) || ops.any mBad || progReads [] ops

/-- The counts of R167: pre-activations, state words in, state words out. -/
def progP (ws : List Nat) : Nat := max 1 (((progOps ws).flatMap mOperands).foldl (fun a o => if o < 4 then max a (o + 1) else a) 0)
def progIn (ws : List Nat) : Nat :=
  ((progOps ws).flatMap mOperands).foldl (fun a o => if 4 ≤ o ∧ o < 8 then max a (o - 3) else a) 0
def progOut (ws : List Nat) : Nat := (progOps ws).foldl (fun a w => if mOP w = 10 then max a (mDST w + 1) else a) 0

/-- The fclk after its issue at which an operation completes (R167). -/
def mLat (op : Nat) : Nat := match op with | 1 => 22 | 8 => 1 | 9 => 1 | 10 => 1 | 11 => 7 | _ => 4
/-- The last completion of micro-ops that issue in order, one per fclk from fclk `t` on, each once the temporaries it reads have been
written; `ready` lists the fclk at which each temporary is (R167). -/
def progLast (ready : List (Nat × Nat)) (t last : Nat) : List Nat → Nat
  | [] => last
  | w :: ws =>
    let at_ := (mOperands w).foldl (fun a o => max a (((ready.find? (fun p => p.1 == o)).map Prod.snd).getD 0)) t
    let fin := at_ + mLat (mOP w)
    progLast (if mTemp (mOP w) then (mDST w, fin) :: ready else ready) (at_ + 1) (max last fin) ws
/-- The status of a program's slot (R167, R643): its II and its chain latency, which its micro-ops fix; the first issues one fclk
after a0 (R165). -/
def progStatus (ws : List Nat) : Nat × Nat := ((progOps ws).length, progLast [] 1 0 (progOps ws) + 1)

/-- The program in a slot of the gate program store. -/
def State.gateProg (s : State) (n slot : Nat) : List Nat :=
  (List.range 32).map (fun i => s.gps.load (512 * n + 128 * slot + 4 * i) 4)
/-- A slot that no program fills holds no OUTX. -/
def progEmpty (ws : List Nat) : Bool := !(progOps ws).any (fun w => mOP w == 11)
/-- The slot status that GPLOAD reports, valid once the slot holds a program (R167, R643). -/
def State.slotStatus (s : State) (n slot : Nat) : Option (Nat × Nat) :=
  let ws := s.gateProg n slot
  if progEmpty ws then none else some (progStatus ws)

/-! ## One unit (R161, R166) -/

/-- What a unit's evaluation gives: the new state words, the exchanged value in BF16, the flags. -/
structure UnitOut where
  words : List (Option Nat)
  exch : Nat
  fl : Fl
  deriving DecidableEq, Repr

/-- An FP32 code as an exact operand. -/
def opnd (w : Nat) : FV × Bool := (fp32 w, false)
/-- 1 − x, exact. -/
def oneMinus (w : Nat) : FV × Bool := addV (.fin false 1, false) ((fp32 w).flip, false)
/-- The exchanged value: an FP32 word, read in fast mode (R58), rounded to BF16 (R73). -/
def exch16 (w : Nat) : Nat × Fl := Fmt.bf16.encode {} (Fmt.fp32.read false w)

/-- The state of a running program: temporaries, new state words, exchanged value, flags. -/
structure ProgSt where
  ts : List Nat
  qs : List (Option Nat)
  x : Nat
  fl : Fl
  deriving DecidableEq, Repr

/-- The value of an operand number. -/
def progVal (ps qs ks : List Nat) (st : ProgSt) (o : Nat) : Nat :=
  if o < 4 then nth ps o else if o < 8 then nth qs (o - 4) else if o < 24 then nth st.ts (o - 8) else nth ks (o - 24)
/-- One micro-op. -/
def progStep (fn : Nat → Nat → Nat × Fl) (ps qs ks : List Nat) (st : ProgSt) (w : Nat) : ProgSt :=
  let v := progVal ps qs ks st
  let put := fun (r : Nat × Fl) => { st with ts := st.ts.set (mDST w - 8) r.1, fl := st.fl.or r.2 }
  let a := opnd (v (mA w))
  let b := opnd (v (mB w))
  let c := opnd (v (mC w))
  let d := opnd (v (mD w))
  match mOP w with
  | 1 => put (fn (mFN w) (v (mA w)))
  | 2 => put (fused (addV a b))
  | 3 => put (fused (addV a (b.1.flip, false)))
  | 4 => put (fused (mulV a b))
  | 5 => put (fused (addV (mulV a b) c))
  | 6 => put (fused (addV (mulV a b) (mulV c d)))
  | 7 => put (fused (addV (mulV a b) (mulV (oneMinus (v (mA w))) c)))
  | 8 => put (fused (maxFV a.1 b.1))
  | 9 => put (fused (minFV a.1 b.1))
  | 10 => { st with qs := st.qs.set (mDST w) (some (v (mA w))) }
  | 11 => let r := exch16 (v (mA w)); { st with x := r.1, fl := st.fl.or r.2 }
  | _ => st

/-- The constants k0 to k3 (R166). -/
def gateConsts : List Nat := [0, 0x3F800000, 0x3F000000, 0xBF800000]

/-- The counts of a class (R160): pre-activations, state words in, state words out. -/
def classP (cls : Nat) (ws : List Nat) : Nat :=
  match cls with | 0 => 4 | 1 => 4 | 2 => 3 | 3 => 1 | 4 => 2 | _ => progP ws
def classIn (cls : Nat) (ws : List Nat) : Nat :=
  match cls with | 0 => 1 | 1 => 1 | 2 => 1 | 3 => 0 | 4 => 1 | _ => progIn ws
def classOut (cls : Nat) (ws : List Nat) : Nat :=
  match cls with | 0 => 2 | 1 => 1 | 2 => 2 | 3 => 1 | 4 => 1 | _ => progOut ws

/-- One unit of a class (R161): `fn` evaluates a function into FP32; ps the pre-activations, qs the old state words. -/
def unitEval (fn : Nat → Nat → Nat × Fl) (cls : Nat) (ws ks ps qs : List Nat) : UnitOut :=
  let sig := fn 0
  let tanh := fn 1
  let out := fun (h : Nat × Fl) (f : Fl) (rest : List Nat) =>
    let x := exch16 h.1
    (⟨some h.1 :: rest.map some, x.1, (f.or h.2).or x.2⟩ : UnitOut)
  match cls with
  | 0 =>
    let i := sig (nth ps 0)
    let f := sig (nth ps 1)
    let g := tanh (nth ps 2)
    let o := sig (nth ps 3)
    let c := fused (addV (mulV (opnd f.1) (opnd (nth qs 0))) (mulV (opnd i.1) (opnd g.1)))
    let t := tanh c.1
    out (fused (mulV (opnd o.1) (opnd t.1))) (Fl.join [i.2, f.2, g.2, o.2, c.2, t.2]) [c.1]
  | 1 =>
    let z := sig (nth ps 0)
    let r := sig (nth ps 1)
    let m := fused (addV (opnd (nth ps 2)) (mulV (opnd r.1) (opnd (nth ps 3))))
    let w := tanh m.1
    out (fused (addV (mulV (oneMinus z.1) (opnd w.1)) (mulV (opnd z.1) (opnd (nth qs 0))))) (Fl.join [z.2, r.2, m.2, w.2]) []
  | 2 =>
    let i := sig (nth ps 0)
    let g := tanh (nth ps 1)
    let o := sig (nth ps 2)
    let c := fused (addV (mulV (oneMinus i.1) (opnd (nth qs 0))) (mulV (opnd i.1) (opnd g.1)))
    let t := tanh c.1
    out (fused (mulV (opnd o.1) (opnd t.1))) (Fl.join [i.2, g.2, o.2, c.2, t.2]) [c.1]
  | 3 => out (tanh (nth ps 0)) {} []
  | 4 =>
    let a := sig (nth ps 0)
    out (fused (addV (mulV (opnd a.1) (opnd (nth qs 0))) (mulV (oneMinus a.1) (opnd (nth ps 1))))) a.2 []
  | _ =>
    let st := (progOps ws).foldl (fun st w => progStep fn ps qs (gateConsts ++ ks) st w)
      ⟨List.replicate 16 0, List.replicate 4 none, 0, {}⟩
    ⟨st.qs.take (progOut ws), st.x, st.fl⟩

/-! ## The queue of GUPDs (R158, R159) -/

def State.gates (s : State) (n : Nat) : List Gupd := Sp.get (fun _ => []) s.gateQ n
def State.setGates (s : State) (n : Nat) (l : List Gupd) : State := { s with gateQ := Sp.set (fun _ => []) s.gateQ n l }
/-- The program of a GUPD, read for class 0xF only. -/
def State.gupdProg (s : State) (n : Nat) (g : Gupd) : List Nat := if g.cls = 15 then s.gateProg n g.pslot else []
/-- The streamed rows of a GUPD: one for the MVP. -/
def Gupd.nrows (g : Gupd) : Nat := max 1 g.rows
/-- The pre-activations that a GUPD still expects. -/
def State.gateNeeds (s : State) (n : Nat) (g : Gupd) : Nat :=
  classP g.cls (s.gupdProg n g) * g.units * g.nrows - g.pre.length
/-- What all GUPDs of a folio still expect (MV_DEST of R155). -/
def State.gateRoom (s : State) (n : Nat) : Nat := ((s.gates n).map (s.gateNeeds n)).sum

/-- The gate state buffer's word k of unit u of a slice at `off` (R158). -/
def gsbKey (n off units k u : Nat) : Nat := 8192 * n + (4 * off + 4 * (k * units + u)) % 8192

/-- A complete GUPD (R161 to R164): every unit of every streamed row, its new words, and the exchanged values in ascending unit
order with the ROWSTAT record of R227 into the send slot. A state word below the highest that no STQ writes keeps its old
contents in the new slice (DEDUCED, log entry 124); values beyond the slot's 8 KiB are lost (R457; DESIGN CHOICE, log entry 125). -/
def State.runGupd (s : State) (n : Nat) (g : Gupd) : State :=
  let ws := s.gupdProg n g
  let P := classP g.cls ws
  let fn := fun (k w : Nat) => fnEval s.level g.compat (s.fstore n) k (fp32 w) .fp32 {}
  let outs := (List.range (g.nrows * g.units)).map (fun j =>
    let r := j / g.units
    let u := j % g.units
    let qs := (List.range (classIn g.cls ws)).map (fun k => s.gsb.load (gsbKey n (g.old + r * g.stride) g.units k u) 4)
    (r, u, unitEval fn g.cls ws g.ks ((g.pre.drop (j * P)).take P) qs))
  let s1 := outs.foldl (fun s o => ((List.range o.2.2.words.length).zip o.2.2.words).foldl (fun s p =>
    match p.2 with
    | some w => s.put 4 (gsbKey n (g.new + o.1 * g.stride) g.units p.1 o.2.1) (toBytes 4 w)
    | none => s) s) s
  let xs := outs.map (fun o => o.2.2.exch)
  let (rec, fr) := rowRecord g.rowstat false false (xs.map Fmt.bf16.decode)
  (s1.setSlot n (some { ctx := g.ctx, tag := g.tag, bytes := (packBytes 16 xs).take 8192,
                        record := if g.rowstat = 0 then [] else rec })).holdFl n g.tag fieldGATE
    ((Fl.join (outs.map (fun o => o.2.2.fl))).or (if g.rowstat = 0 then {} else fr))
/-- The oldest GUPD runs once its last pre-activation has come and the send slot is free for its exchanged values. -/
def State.gateRun (s : State) (n : Nat) : State :=
  match s.gates n with
  | g :: gs => if s.gateNeeds n g = 0 ∧ ¬ s.slotBusy n then (s.setGates n gs).runGupd n g else s
  | [] => s
/-- Pre-activations delivered to the oldest GUPDs that still expect some (R158). -/
def feedList (need : Gupd → Nat) : List Gupd → List Nat → List Gupd
  | [], _ => []
  | g :: gs, vs => { g with pre := g.pre ++ vs.take (need g) } :: feedList need gs (vs.drop (need g))
/-- The values that wait for a GUPD reach the GUPDs; those beyond what these expect wait on (R133). -/
def State.feedPend (s : State) (n : Nat) : State :=
  let vs := Sp.get (fun _ => []) s.gatePend n
  let k := s.gateRoom n
  let s1 := s.setGates n (feedList (s.gateNeeds n) (s.gates n) ((vs.take k).map Prod.snd))
  { s1 with gatePend := Sp.set (fun _ => []) s1.gatePend n (vs.drop k) }
/-- Pre-activations from the work of a tag arrive at the gate pipeline. -/
def State.feedGate (s : State) (n tag : Nat) (vs : List Nat) : State :=
  let q := Sp.get (fun _ => []) s.gatePend n ++ vs.map (fun v => (tag, v))
  ({ s with gatePend := Sp.set (fun _ => []) s.gatePend n q }.feedPend n).gateRun n

/-! ## GUPD and GPLOAD -/

/-- GUPD (R158, R445). -/
def opGupd (n c : Nat) (e : Eng) (s : State) : SlotOp :=
  let cls := e.op 60 57
  let rows := e.op 22 17
  let kb := e.op 5 2
  let g : Gupd := { cls := cls, units := e.op 56 47, pslot := e.op 46 45, old := e.op 44 34, new := e.op 33 23, rows := rows,
                    stride := e.op 16 6, ks := (List.range 4).map (fun i => s.sr n c (2 * kb + i)), compat := e.opb 1,
                    rowstat := e.rowstat, ctx := c, tag := s.engTag n c e, pre := [] }
  let ws := s.gupdProg n g
  let last := (g.nrows - 1) * g.stride
  let passes := fun off words => decide (8192 < 4 * (off + last + words * g.units)) && decide (0 < words)
  engSlot 1 { rowstat := true } n c e s
    [(e.opb 0 || (cls != 15 && (kb != 0 || e.op 46 45 != 0))
        || (decide (s.level < 2) && g.compat), FLD_RESERVED),
     (kb == 15, REG_RANGE),
     ((decide (4 < cls) && cls != 15) || (cls == 15 && progEmpty ws), GATE_CLASS),
     (g.units == 0 || decide (512 < g.units) || decide (32 < rows) || passes g.old (classIn cls ws) || passes g.new (classOut cls ws),
       GATE_UNITS),
     (decide (2 ≤ (s.gates n).length), GATE_FULL),
     (cls == 15 && (progOps ws).any (fun w => mOP w == 1 && fnBad s.level g.compat (s.fstore n) (mFN w)), SFN_FN)]
    none (fun t => ((t.setGates n (t.gates n ++ [g])).feedPend n).gateRun n)

/-- GPLOAD (R643, R168): it waits while an open or queued GUPD names its slot. -/
def opGpload (n c : Nat) (e : Eng) (s : State) : SlotOp :=
  let slot := e.op 60 59
  let a := s.ar n c (e.op 58 55)
  let data : List Byte := s.fmBytes n c (addrOf a) 128
  let ws := (List.range 32).map (fun i => ofBytes ((data.drop (4 * i)).take 4))
  engSlot 1 {} n c e s
    ([(e.op 54 0 != 0, FLD_RESERVED), (badAddr a, ADDR_FORM), (progBad ws, GATE_PROG), (addrOf a % 128 != 0, MEM_ALIGN)]
      ++ s.fmSpan n c (addrOf a) 128)
    (if (s.gates n).any (fun g => g.cls == 15 && g.pslot == slot) then some .inside else none)
    (fun t => t.put 5 (512 * n + 128 * slot) data)

/-- Does an open or queued GUPD name a user function that reads a range of the function store (R215)? Every SFN and softmax instruction
has ended with its issue. -/
def State.fnHeld (s : State) (n off len : Nat) : Bool :=
  (s.gates n).any (fun g => (progOps (s.gupdProg n g)).any (fun w => mOP w == 1 && fnReads (s.fstore n) (mFN w) off len))
/-- FNLOAD (R215). -/
def opFnload (n c : Nat) (e : Eng) (s : State) : SlotOp :=
  let a := s.ar n c (e.op 60 57)
  let off := e.op 56 50
  let len := e.op 49 42
  let data : List Byte := s.fmBytes n c (addrOf a) (32 * len)
  engSlot 2 {} n c e s
    ([(e.op 41 0 != 0, FLD_RESERVED), (badAddr a, ADDR_FORM), (len == 0 || decide (128 < off + len), MEM_LEN),
      (fnRangeBad (fun o => data.getD o 0) off len, SFN_PROG)] ++ s.fmSpan n c (addrOf a) (32 * len))
    (if s.fnHeld n off len then some .inside else none) (fun t =>
    (t.put 3 (4096 * n + 32 * off) data).storeStat n)

def execFnload (a : Issue) (e : Eng) (s : State) : Res := engine opFnload none a e s
def execGupd (a : Issue) (e : Eng) (s : State) : Res := engine opGupd (some GATE_RESIDUE) a e s
def execGpload (a : Issue) (e : Eng) (s : State) : Res := engine opGpload none a e s

end Sys2Proof.Machine
end

