-- ==== Sys2Proof/Machine/DotOps.lean ====
section
/-! DEFINITION. What the array and MVP instructions share: the scalar block (14_instruction_encoding.md R441), coarse scales
(02_number_formats.md R51, R53), operand planes (R48, R49), output rows and their destinations (R67, R225), and tiles with
their reruns (03_dot_product.md R96 to R98). -/

namespace Sys2Proof.Machine

/-! ## Fields and scalars -/

/-- Where results go: folio memory, the array's operand buffer, the gate pipeline. -/
def dkFM : Nat := 0
def dkOB : Nat := 1
def dkGATE : Nat := 2

/-- The fields that ASTREAM, AFOLD and MVMUL share (R443, R444). -/
structure DotFields where
  pb : Nat
  cs : Bool
  qn : Bool
  clip : Bool
  bias : Bool
  bbf : Bool
  breg : Nat
  ofmt : Nat
  ib : Nat
  dkind : Nat
  dst : Nat
  deriving DecidableEq, Repr

/-- An FP32 scale that breaks R51: not a positive normal value. -/
def scaleBad (w : Nat) : Bool := bit w 31 || bits w 30 23 == 0 || bits w 30 23 == 255
/-- M and K of C = M × 2^K (R53). -/
def scaleM (w : Nat) : Rat := mkRat (2 ^ 23 + bits w 22 0 : Nat) (2 ^ 23)
def scaleK (w : Nat) : Int := (bits w 30 23 : Int) - 127

/-- Register k of the scalar block. -/
def State.dotS (s : State) (n c : Nat) (d : DotFields) (k : Nat) : Nat := s.sr n c (2 * d.pb + k)
/-- K_a + K_b (R53). -/
def State.dotK (s : State) (n c : Nat) (d : DotFields) : Int :=
  if d.cs then scaleK (s.dotS n c d 2) + scaleK (s.dotS n c d 3) else 0
/-- The output format of the shared fields, which the gate pipeline takes as FP32 (R133, R155). -/
def State.dotFmt (s : State) (d : DotFields) : Fmt := if d.dkind = dkGATE then .fp32 else fmtOf s.level d.ofmt
/-- What the conversion stage applies, from the registers at issue (R67, R441). -/
def State.dotOut (s : State) (n c : Nat) (e : Eng) (d : DotFields) : OutCfg :=
  { ma := if d.cs then scaleM (s.dotS n c d 2) else 1
    mb := if d.cs then scaleM (s.dotS n c d 3) else 1
    q := if d.qn then Fmt.fp32.read e.strict (s.dotS n c d 4) else .fin false 1
    lo := if d.clip then Fmt.fp32.read e.strict (s.dotS n c d 5) else .inf true
    hi := if d.clip then Fmt.fp32.read e.strict (s.dotS n c d 6) else .inf false
    out := s.dotFmt d
    c := { rnd := Rnd.ofCode e.rnd, strict := e.strict, sat := e.sat }
    f64 := fmtOf s.level e.fmt == .fp64 }
/-- The traps of the shared fields (R51, R56, R59, R61, R68, R441). Strict mode and a complex operand bind the output format as they
bind the operands' (R56, R59). CLIP_ORDER compares the bounds as the registers hold them, subnormals not flushed (DEDUCED, log
entry 118). -/
def State.dotTraps (s : State) (n c : Nat) (e : Eng) (d : DotFields) (bad : Bool) : List (Bool × Nat) :=
  let w := s.dotS n c d
  let lo := Fmt.fp32.decode (w 5)
  let hi := Fmt.fp32.decode (w 6)
  [(bad, FLD_RESERVED), (decide (12 < d.pb), REG_RANGE), fmtTrap s e.fmt,
   fmtTrap s d.ofmt, cplxTrap s e, strictTrap s e, rndTrap e true,
   (e.cplx && !(s.dotFmt d).isIeee, FMT_COMPLEX), (e.strict && !(s.dotFmt d).isIeee, FMT_STRICT),
   (e.stoch && fmtOf s.level d.ofmt == .fp64, FMT_ROUND),
   ((d.cs && (scaleBad (w 2) || scaleBad (w 3))) || (d.qn && bits (w 4) 30 23 == 255), SCALE_INVALID),
   (d.clip && (lo.isNan || hi.isNan || ltNum hi lo), CLIP_ORDER),
   (e.rowstat != 0 && fmtOf s.level d.ofmt == .fp64, ROWSTAT_DEST)]
def dotUse : AcUse := { fmt := true, strict := true, rnd := true, sat := true, cplx := true, rbud := true, rowstat := true }

/-- The real parts of an element: 2 for a complex operand (R56). -/
def engParts (e : Eng) : Nat := if e.cplx then 2 else 1
/-- Accumulator slots of an output element (R89). -/
def slotsOf (f : Fmt) (strict cplx : Bool) (len : Nat) : Nat :=
  (if f == .fp64 then 2 else if !strict && decide (256 < len) then 2 else 1) * (if cplx then (if strict then 2 else 3) else 1)

/-! ## Operand planes -/

/-- Bytes of an operand buffer; an address past 64 KiB wraps (DESIGN CHOICE, log entry 21). -/
def State.obBytes (s : State) (n arr a len : Nat) : List Byte :=
  (List.range len).map (fun i => s.ob.byte (obKey n arr ((a + i) % 65536)))
def State.obWrite (s : State) (n arr a : Nat) (bs : List Byte) : State :=
  let k := 65536 - a % 65536
  (s.put 1 (obKey n arr (a % 65536)) (bs.take k)).put 1 (obKey n arr 0) (bs.drop k)
/-- Bytes of an operand: operand buffer or folio memory. -/
def State.opBytes (s : State) (n c arr : Nat) (fm : Bool) (a len : Nat) : List Byte :=
  if fm then s.fmBytes n c a len else s.obBytes n arr a len
/-- `count` elements from byte address a, expanded (R48, R54). -/
def State.elems (s : State) (n c arr : Nat) (fm : Bool) (f : Fmt) (a count : Nat) : List Nat :=
  (unpackBytes f.bits count (s.opBytes n c arr fm a ((f.bits * count + 7) / 8))).map f.expand
/-- The real and imaginary parts of interleaved elements. -/
def evens : List Nat → List Nat
  | a :: _ :: l => a :: evens l
  | l => l
def odds : List Nat → List Nat
  | _ :: b :: l => b :: odds l
  | _ => []
/-- The parts of `count` elements at an address: the elements, or the real and the imaginary parts of a complex operand. -/
def State.elemParts (s : State) (n c arr : Nat) (fm : Bool) (f : Fmt) (cplx : Bool) (a count : Nat) : List Nat × List Nat :=
  if cplx then (let l := s.elems n c arr fm f a (2 * count); (evens l, odds l)) else (s.elems n c arr fm f a count, [])
/-- The traps of a strided range of folio memory: `rows` rows of `len` bytes. -/
def State.fmRows (s : State) (n c a rows len : Nat) : List (Bool × Nat) :=
  s.fmSpan n c (addrOf a) (if len = 0 ∨ rows = 0 then 0 else (rows - 1) * strideOf a + len)

/-! ## Output rows -/

/-- An output row, or a column group of one (R225): its row and first column, and each element's rerun count and values. -/
structure OutRow where
  row : Nat
  col : Nat
  stat : Nat
  els : List (Nat × List (FV × Fl))
  deriving DecidableEq, Repr

/-- Bytes of `count` elements of a format. -/
def rowBytes (f : Fmt) (count : Nat) : Nat := (f.bits * count + 7) / 8
/-- The elements that an output row of `count` writes: whole blocks of an MX format (R71). -/
def outCount (f : Fmt) (count : Nat) : Nat := if f.isMx then (count + 31) / 32 * 32 else count
/-- An output row converted, encoded and written (R67 to R71, R225, R226): `s` gives the registers, t the memories. The scale
plane of an MX output and the row statistics lie at a(DST + 1) (DEDUCED, log entry 27). The draws of the two parts of a complex
element are those of consecutive elements of the row (DEDUCED, log entry 119). -/
def State.outRow (s : State) (n c : Nat) (e : Eng) (d : DotFields) (unit tag cols : Nat) (t : State) (r : OutRow) : State :=
  let o := s.dotOut n c e d
  let P := engParts e
  let xs := ((List.range r.els.length).zip r.els).flatMap (fun p =>
    ((List.range P).zip p.2.2).map (fun v => ((r.col + p.1) * P + v.1, p.2.1, v.2)))
  let biasAt := fun j =>
    if d.bias then
      (let a := addrOf (s.ar n c d.breg)
       some (if d.bbf then Fmt.bf16.read e.strict (t.fmLoad n c (a + 2 * j) 2) else Fmt.fp32.read e.strict (t.fmLoad n c (a + 4 * j) 4)))
    else none
  let ys := xs.map (fun x =>
    let (v, f) := o.stage x.2.1 (biasAt x.1) x.2.2.1
    (v, x.2.2.2.or f))
  let rs := xs.map (fun x => if e.stoch then s.srBits n c (s.ibBase n c d.ib + r.row * cols * P + x.1) else 0)
  let (es, scs, fe, vs) := encodeRow o.out o.c rs (ys.length + 1) (ys.map Prod.fst)
  let field := if unit = 4 then fieldMVP else fieldARR
  let t1 := t.holdFl n tag field ((Fl.join (ys.map Prod.snd)).or fe)
  let put := fun (t : State) (a : Nat) (bs : List Byte) => if d.dkind = dkOB then t.obWrite n unit a bs else t.fmWrite n c a bs
  let a := s.ar n c d.dst
  let b := s.ar n c (d.dst + 1)
  let t2 :=
    if d.dkind = dkGATE then t1.feedGate n tag es
    else
      let t2 := put t1 (addrOf a + r.row * strideOf a + rowBytes o.out (r.col * P)) (packBytes o.out.bits es)
      if o.out.isMx then put t2 (addrOf b + r.row * strideOf b + r.col * P / 32) (scs.map (BitVec.ofNat 8)) else t2
  if e.rowstat = 0 then t2
  else
    let (rec, fr) := rowRecord e.rowstat e.sat e.strict vs
    (t2.fmWrite n c (addrOf b + 8 * r.stat) rec).holdFl n tag field fr
/-- The traps of the destination, bias and statistics of `rows` output rows of `cols` elements and `stats` records. -/
def State.outTraps (s : State) (n c : Nat) (e : Eng) (d : DotFields) (rows cols stats : Nat) : List (Bool × Nat) :=
  let f := fmtOf s.level d.ofmt
  let a := s.ar n c d.dst
  let b := s.ar n c (d.dst + 1)
  let P := engParts e
  let mx := f.isMx && d.dkind != dkGATE
  [(d.dst % 2 != 0, REG_RANGE), ((d.dkind != dkGATE && badStrided a) || (mx && badStrided b) || (e.rowstat != 0 && badStrided b), ADDR_FORM),
   (d.bias && badAddr (s.ar n c d.breg), ADDR_FORM)]
    ++ (if d.dkind = dkFM then s.fmRows n c a rows (rowBytes f (outCount f (cols * P))) ++ (if mx then s.fmRows n c b rows ((cols * P + 31) / 32) else []) else [])
    ++ (if e.rowstat = 0 then [] else s.fmSpan n c (addrOf b) (8 * stats))
    ++ (if d.bias then s.fmSpan n c (addrOf (s.ar n c d.breg)) (cols * P * (if d.bbf then 2 else 4)) else [])

/-! ## Tiles and reruns (R96 to R98, R102) -/

def State.jobsOf (s : State) (n : Nat) : List DotJob := Sp.get (fun _ => []) s.jobs n
def State.setJobs (s : State) (n : Nat) (l : List DotJob) : State := { s with jobs := Sp.set (fun _ => []) s.jobs n l }
/-- A tile after an attempt: it is due to run again, its operands kept (R98), when an output without special terms has overflowed in
FP32 slots in fast mode with budget left (R96, R97). The three accumulators of a complex output are judged one by one, so an overflow
in one counts beside a special term in another (DEDUCED, log entry 120). -/
def mkTile (g : DotCfg) (budget idx : Nat) (ops : List (List CChunk)) (accs : List (List Acc)) : DotTile :=
  let o := accs.any (fun as => as.any Acc.over)
  let due := o && !g.strict && g.f != .fp64 && decide (g.n < budget)
  { idx := idx, n := g.n, due := due, sat := o && !g.strict, accs := accs, kept := if due then ops else [] }
/-- The elements of a tile as an output row takes them. -/
def DotTile.els (t : DotTile) (strict : Bool) : List (Nat × List (FV × Fl)) := t.accs.map (fun as => (t.n, accsValue strict as))

/-- How an instruction evaluates its tiles: the configuration at a rerun count, the budget, the chunks of each output of a tile, and
what it writes of tiles that have completed. -/
structure DotInstr where
  cfg : Nat → DotCfg
  cplx : Bool
  budget : Nat
  operands : (idx : Nat) → State → List (List CChunk)
  write : List DotTile → State → State

/-- One attempt of a tile over its operands. -/
def DotInstr.attempt (i : DotInstr) (idx k : Nat) (ops : List (List CChunk)) : DotTile :=
  mkTile (i.cfg k) i.budget idx ops (ops.map (accsRun (i.cfg k) i.cplx))
/-- The next attempt of a tile that is due, over the operands kept (R96, R98). -/
def DotInstr.again (i : DotInstr) (d : DotTile) : DotTile := i.attempt d.idx (d.n + 1) d.kept
/-- Completed tiles: the saturated ones counted (R102), then the results written. -/
def DotInstr.done (i : DotInstr) (n tag : Nat) (ts : List DotTile) (t : State) : State :=
  let k := (ts.filter (fun x => x.sat)).length
  i.write ts (if k = 0 then t else t.holdOvr n tag k 0)
/-- A tile of a resumable instruction after an attempt: due to run again before anything else of its context, or completed. -/
def DotInstr.settle (i : DotInstr) (n c tag : Nat) (d : DotTile) (t : State) : State :=
  if d.due then t.setCtx n c { t.ctx n c with due := some d }
  else i.done n tag [d] (t.setCtx n c { t.ctx n c with due := none })

/-- Units `lo` to `hi` − 1 of a resumable instruction one after the other, to the first after which a tile is due: the state and the
next unit. -/
def runUnits (n c : Nat) (unit : Nat → State → State) : (fuel lo : Nat) → State → Nat × State
  | 0, lo, t => (lo, t)
  | k + 1, lo, t =>
    let u := unit lo t
    if (u.ctx n c).due.isSome then (lo + 1, u) else runUnits n c unit k (lo + 1) u

end Sys2Proof.Machine
end

