-- ==== Sys2Proof/Machine/Arrays.lean ====
section
/-! DEFINITION. The matrix arrays (04_arrays.md R107 to R138, 14_instruction_encoding.md R443): ALOAD, ASTREAM in drain and
accumulate mode, AFOLD. -/

namespace Sys2Proof.Machine

def State.array (s : State) (n k : Nat) : ArrSt := Sp.get (fun _ => ArrSt.reset) s.arr (4 * n + k)
def State.setArray (s : State) (n k : Nat) (a : ArrSt) : State := { s with arr := Sp.set (fun _ => ArrSt.reset) s.arr (4 * n + k) a }

/-- Does the array hold open tiles or a suspended instruction of another context (R138)? -/
def State.arrHeld (s : State) (n c k : Nat) : Bool :=
  (s.array n k).tiles.any (fun t => t.ctx != c)
    || [0, 1, 2, 3].any (fun j => j != c && (s.ctx n j).resume.valid && (s.ctx n j).resume.kind == 1
        && bits (s.ctx n j).resume.bundle.toNat 60 59 == k)

/-! ## Weight tiles -/

/-- The number that a plane holds at a cell. -/
def plane (im : Bool) (re i : List Nat) (k : Nat) : Nat := nth (if im then i else re) k
/-- The code of the active weight of row r, column col in a format (R109): an FP64 weight fills both halves. -/
def ArrSt.code (a : ArrSt) (f : Fmt) (im : Bool) (r col : Nat) : Nat :=
  let k := 64 * r + col
  let w := plane im a.act.w a.act.wi k
  match f with
  | .fp64 => w + plane im a.shd.w a.shd.wi k * 2 ^ 16 + plane im a.act.x a.act.xi k * 2 ^ 32 + plane im a.shd.x a.shd.xi k * 2 ^ 48
  | .fp32 => w + plane im a.act.x a.act.xi k * 2 ^ 16
  | .bf16 | .fp16 => w
  | _ => w % 256
/-- The scale byte of a column; 0x7F for a tile that is not MX (R108). -/
def WTile.scale (w : WTile) (col : Nat) : Nat := w.sc.getD col 0x7F
/-- The chunk that column `col` forms of an input row's codes (R107). -/
def ArrSt.chunk (a : ArrSt) (f : Fmt) (xa col : Nat) (re im : List Nat) : CChunk :=
  let k := List.range re.length
  ⟨xa, a.act.scale col, (k.zip re).map (fun p => (p.2, a.code f false p.1 col)), (k.zip im).map (fun p => (p.2, a.code f true p.1 col))⟩

/-- A weight tile as a load reads it: the expanded codes of its cells, the imaginary parts beside, and its scale bytes. -/
structure TileData where
  f : Fmt
  code : Nat
  cplx : Bool
  re : List Nat
  im : List Nat
  sc : List Nat
  deriving DecidableEq, Repr
/-- A weight tile read from rows of an element plane: 16 rows of 64 elements, of which those at or beyond `rows` and `cols` are
masked (R124), and the scale bytes of its columns. -/
def State.readTile (s : State) (n c arr : Nat) (fm : Bool) (code : Nat) (cplx : Bool) (a stride sa rows cols : Nat) : TileData :=
  let f := fmtOf s.level code
  let rs := (List.range 16).map (fun r =>
    if r < rows then
      (let p := s.elemParts n c arr fm f cplx (a + r * stride) cols
       (p.1 ++ List.replicate (64 - cols) 0, p.2 ++ List.replicate (64 - cols) 0))
    else (List.replicate 64 0, List.replicate 64 0))
  { f := f, code := code, cplx := cplx, re := rs.flatMap Prod.fst, im := if cplx then rs.flatMap Prod.snd else [],
    sc := if f.isMx then (s.opBytes n c arr fm sa cols).map (fun b => b.toNat) else List.replicate 64 0x7F }
/-- The 16-bit words [16k + 15:16k] of codes. -/
def planeWords (k : Nat) (l : List Nat) : List Nat := l.map (fun v => v / 2 ^ (16 * k) % 2 ^ 16)
/-- A half with words [16k + 15:16k] of a tile's codes in W and, where `j` names them, words j in X (R109). Where `j` names none, X keeps
its contents (R125). -/
def WTile.put (h : WTile) (d : TileData) (k : Nat) (j : Option Nat) : WTile :=
  let h1 := { h with fmt := some d.code, cplx := d.cplx, w := planeWords k d.re, wi := planeWords k d.im, sc := d.sc }
  match j with
  | none => h1
  | some j => { h1 with x := planeWords j d.re, xi := planeWords j d.im }
/-- ALOAD of a tile (R125, R130): the shadow half, or for FP64 both. -/
def ArrSt.load (a : ArrSt) (d : TileData) : ArrSt :=
  match d.f with
  | .fp64 => { a with act := a.act.put d 0 (some 2), shd := a.shd.put d 1 (some 3) }
  | .fp32 => { a with shd := a.shd.put d 0 (some 1) }
  | _ => { a with shd := a.shd.put d 0 none }
/-- A swap (R126). -/
def ArrSt.swap (a : ArrSt) : ArrSt := { a with act := a.shd }

/-- ALOAD (R125, R130). -/
def opAload (n c : Nat) (e : Eng) (s : State) : SlotOp :=
  let k := e.op 60 59
  let fm := e.opb 58
  let r := e.op 57 54
  let a := s.ar n c r
  let b := s.ar n c (r + 1)
  let f := fmtOf s.level e.fmt
  let len := rowBytes f (64 * engParts e)
  let w := s.readTile n c k fm e.fmt e.cplx (addrOf a) (strideOf a) (addrOf b) 16 64
  engSlot 1 { fmt := true, cplx := true } n c e s
    ([(e.op 53 0 != 0, FLD_RESERVED), (r % 2 != 0, REG_RANGE), (badStrided a || (f.isMx && badStrided b), ADDR_FORM), fmtTrap s e.fmt,
      cplxTrap s e, (s.arrHeld n c k, ARR_HELD)]
      ++ (if fm then s.fmRows n c a 16 len ++ (if f.isMx then s.fmSpan n c (addrOf b) 64 else []) else []))
    none (fun t => t.setArray n k ((t.array n k).load w))

/-! ## ASTREAM -/

def asMODE (e : Eng) : Bool := e.opb 58
def asFIRST (e : Eng) : Bool := e.opb 57
def asLAST (e : Eng) : Bool := e.opb 56
def asSWAP (e : Eng) : Bool := e.opb 55
def asTSEL (e : Eng) : Nat := e.op 54 50
def asASLOT (e : Eng) : Nat := e.op 49 44
def asM (e : Eng) : Nat := e.op 43 38
def asN (e : Eng) : Nat := e.op 37 31
def asSRC (e : Eng) : Nat := e.op 30 27
def asFields (e : Eng) : DotFields :=
  { pb := e.op 20 17, cs := e.opb 16, qn := e.opb 15, clip := e.opb 14, bias := e.opb 13, bbf := e.opb 12, breg := e.op 11 8,
    ofmt := e.op 7 4, ib := e.op 3 0, dkind := e.op 22 21, dst := e.op 26 23 }
/-- The rows of the pass. -/
def asRows (s : State) (n c : Nat) (e : Eng) : Nat := if asMODE e then asM e else s.dotS n c (asFields e) 0
/-- The first slot of the instruction's tile (R118, R119). -/
def asSlot (s : State) (n c : Nat) (e : Eng) : Nat :=
  if s.mode n = 0 then asTSEL e * (asM e * slotsOf (fmtOf s.level e.fmt) e.strict e.cplx (s.dotS n c (asFields e) 1)) else asASLOT e
/-- The configuration of the dot products. -/
def asCfg (s : State) (n c : Nat) (e : Eng) (k : Nat) : DotCfg :=
  ⟨(fmtOf s.level e.fmt).expanded, e.strict, Rnd.ofCode e.rnd, s.dotS n c (asFields e) 1, s.dotK n c (asFields e), k⟩
/-- Input row i of chunk c0: scale code, real and imaginary codes of the terms below L (R80, R443). -/
def asRow (s : State) (n c : Nat) (e : Eng) (len c0 i : Nat) (t : State) : Nat × List Nat × List Nat :=
  let f := fmtOf s.level e.fmt
  let a := s.ar n c (asSRC e)
  let b := s.ar n c (asSRC e + 1)
  let p := t.elemParts n c (e.op 60 59) false f e.cplx (addrOf a + i * strideOf a) (min 16 (len - 16 * c0))
  (if f.isMx then ((t.obBytes n (e.op 60 59) (addrOf b + i * strideOf b) 1).map (fun x => x.toNat)).headD 127 else 127, p.1, p.2)
/-- The chunks that row i and the active tile form, one for each column. -/
def asChunks (s : State) (n c : Nat) (e : Eng) (c0 i : Nat) (t : State) : List CChunk :=
  let x := asRow s n c e (s.dotS n c (asFields e) 1) c0 i t
  (List.range (asN e)).map (fun col => (t.array n (e.op 60 59)).chunk (fmtOf s.level e.fmt) x.1 col x.2.1 x.2.2)
/-- The accumulators of row i after chunk c0. -/
def asAccs (s : State) (n c : Nat) (e : Eng) (c0 i : Nat) (t : State) (old : List (List Acc)) : List (List Acc) :=
  ((asChunks s n c e c0 i t).zip old).map (fun p => accsChunk (asCfg s n c e 0) e.cplx c0 p.1 p.2)

/-- Drain mode (R114, R136): every row is a tile. -/
def asDrain (n c : Nat) (e : Eng) (s : State) : DotInstr :=
  { cfg := asCfg s n c e
    cplx := e.cplx
    budget := e.rbud
    operands := fun i t => (asChunks s n c e 0 i t).map (fun x => [x])
    write := fun ts t => ts.foldl (fun t x =>
      s.outRow n c e (asFields e) (e.op 60 59) (s.engTag n c e) (asN e) t ⟨x.idx, 0, x.idx, x.els e.strict⟩) t }
/-- Row i of a pass in drain mode (R114). -/
def asDrainRow (n c : Nat) (e : Eng) (s : State) (i : Nat) (t : State) : State :=
  let d := asDrain n c e s
  d.settle n c (s.engTag n c e) (d.attempt i 0 (d.operands i t)) t

/-- The swap of the kettle stitch (R126, R127). -/
def State.swapArr (s : State) (n k : Nat) : State := s.setArray n k (s.array n k).swap
/-- An open tile of the array by its first slot. -/
def ArrSt.tileAt (a : ArrSt) (slot : Nat) : Option OpenTile := a.tiles.find? (fun t => t.slot == slot)
/-- FP32 code of a slot's exact value. -/
def slotCode (f : Fmt) (v : FV) : Nat := (f.encode { strict := true } v).1
/-- The slot words of one output's accumulators, the high part in the lower slot (R118; DEDUCED for FP64 and complex, log entry 28). -/
def slotWords (f : Fmt) (pair : Bool) (as : List Acc) : List Nat :=
  as.flatMap (fun a =>
    if f == .fp64 then (let w := slotCode .fp64 a.hi; [w / 2 ^ 32, w % 2 ^ 32])
    else if pair then [slotCode .fp32 a.hi, slotCode .fp32 a.lo] else [slotCode .fp32 a.hi])
/-- The slots of an output tile written into the accumulator file (R108). -/
def State.setSlots (s : State) (n arr slot cols : Nat) (f : Fmt) (pair : Bool) (accs : List (List Acc)) : State :=
  let ws := accs.map (slotWords f pair)
  let per := (ws.headD []).length
  { s with accf := ((List.range ws.length).zip ws).foldl (fun m p =>
      ((List.range per).zip p.2).foldl (fun m q =>
        Sp.set (fun _ => 0) m (((4 * n + arr) * 64 + p.1 % cols) * 32 + (slot + p.1 / cols * per + q.1) % 32) (BitVec.ofNat 32 q.2)) m) s.accf }

/-- Row i of a pass in accumulate mode (R115): the tile opens with the first row of a FIRST pass, takes one chunk in each, and its
outputs are converted with the last row of a LAST pass, which closes it. -/
def asAccumRow (n c : Nat) (e : Eng) (s : State) (i : Nat) (t : State) : State :=
  let k := e.op 60 59
  let slot := asSlot s n c e
  let a := t.array n k
  let g := asCfg s n c e 0
  let cols := asN e
  let last := i + 1 == asM e
  let fresh : OpenTile := { ctx := c, tag := s.engTag n c e, slot := slot, m := asM e, cols := cols, fmt := e.fmt, cplx := e.cplx, strict := e.strict,
                            len := g.len, chunks := 0, accs := List.replicate (asM e * cols) (accsZero e.strict e.cplx) }
  let x := if asFIRST e && i == 0 then fresh else (a.tileAt slot).getD fresh
  let accs := x.accs.take (i * cols) ++ asAccs s n c e x.chunks i t ((x.accs.drop (i * cols)).take cols) ++ x.accs.drop ((i + 1) * cols)
  let x' := { x with accs := accs, chunks := if last then x.chunks + 1 else x.chunks }
  let rest := a.tiles.filter (fun y => y.slot != slot)
  let t1 := (t.setArray n k { a with tiles := rest ++ [x'] }).setSlots n k slot cols g.slot g.pair accs
  if asLAST e && last then
    (let t2 := t1.setArray n k { a with tiles := rest }
     let sat := !e.strict && accs.any (fun as => as.any Acc.over)
     let t3 := if sat then t2.holdOvr n (s.engTag n c e) 1 0 else t2
     (List.range (asM e)).foldl (fun t i =>
       s.outRow n c e (asFields e) k (s.engTag n c e) cols t
         ⟨i, 0, i, ((accs.drop (i * cols)).take cols).map (fun as => (0, accsValue e.strict as))⟩) t3)
  else t1

/-- The traps of accumulate mode (R117 to R120). A length L of 0 raises ATILE_RANGE and a STRICT bit that differs from the open
tile's, or an explicit tile that overlaps an open one without sharing its first slot, raises ATILE_STATE (DEDUCED, log entry 121). -/
def asAccTraps (n c : Nat) (e : Eng) (s : State) : List (Bool × Nat) :=
  let k := e.op 60 59
  let len := s.dotS n c (asFields e) 1
  let ms := asM e * slotsOf (fmtOf s.level e.fmt) e.strict e.cplx len
  let normal := s.mode n == 0
  let slot := asSlot s n c e
  let a := s.array n k
  let differs := fun (t : OpenTile) => t.m * slotsOf (fmtOf s.level t.fmt) t.strict t.cplx t.len != ms || t.m != asM e || t.fmt != e.fmt
  let overlaps := fun (t : OpenTile) => decide (slot < t.slot + ms) && decide (t.slot < slot + ms)
  [(normal != (asASLOT e == 0x3F), ASLOT_MODE),
   (!normal && decide (32 < asASLOT e + ms) && asASLOT e != 0x3F, ASLOT_RANGE),
   (asM e == 0 || decide (32 < asM e) || len == 0 || decide (32 < ms) || (normal && decide (32 / ms ≤ asTSEL e)), ATILE_RANGE),
   (if asFIRST e then a.tiles.any (fun t => t.slot == slot || differs t || overlaps t)
    else match a.tileAt slot with
      | none => true
      | some t => differs t || t.cols != asN e || t.len != len || t.cplx != e.cplx || t.strict != e.strict, ATILE_STATE),
   (e.rbud != 0, ARR_RBUD)]

/-- ASTREAM. -/
def opAstream (n c : Nat) (e : Eng) (s : State) : Long :=
  let k := e.op 60 59
  let d := asFields e
  let f := fmtOf s.level e.fmt
  let a := s.array n k
  let w := if asSWAP e then a.shd else a.act
  let src := s.ar n c (asSRC e)
  let sca := s.ar n c (asSRC e + 1)
  let len := s.dotS n c d 1
  let rows := asRows s n c e
  let total := if asMODE e then asM e else rows
  let writes := !asMODE e || asLAST e
  { traps := engTraps 1 n c e s ++ acTraps dotUse e ++ s.dotTraps n c e d (d.dkind == 3 || (!e.stoch && d.ib != 0))
      ++ [(asSRC e % 2 != 0, REG_RANGE), (badStrided src || (f.isMx && badStrided sca), ADDR_FORM),
          (w.fmt != some e.fmt || w.cplx != e.cplx, FMT_MIX), (decide (31 < asASLOT e) && asASLOT e != 0x3F, ASLOT_RANGE),
          (asN e == 0 || decide (64 < asN e), ATILE_RANGE),
          (!asMODE e && (asM e != 0 || rows == 0 || len == 0 || decide (16 < len)), ATILE_RANGE),
          (asSWAP e && f == .fp64, ATILE_STATE), (s.arrHeld n c k, ARR_HELD)]
      ++ (if asMODE e then asAccTraps n c e s else [])
      ++ (if writes then s.outTraps n c e d rows (asN e) rows else [])
    wait := none
    kind := 1
    total := fun _ => total
    part := fun lo hi t => runUnits n c (fun i t =>
      let t0 := if asSWAP e && i == 0 then t.swapArr n k else t
      if asMODE e then asAccumRow n c e s i t0 else asDrainRow n c e s i t0) (hi - lo) lo t
    finish := fun t => t.relEng n c e
    again := (asDrain n c e s).again
    close := fun d t => (asDrain n c e s).settle n c (s.engTag n c e) d t }

/-! ## AFOLD (R122 to R124) -/

def afM (e : Eng) : Nat := e.op 58 50 + 1
def afN (e : Eng) : Nat := e.op 49 41 + 1
def afK (e : Eng) : Nat := e.op 40 32 + 1
def afFields (e : Eng) : DotFields :=
  { pb := e.op 17 14, cs := e.opb 13, qn := e.opb 12, clip := e.opb 11, bias := e.opb 10, bbf := e.opb 9, breg := e.op 8 5,
    ofmt := e.op 4 1, ib := e.op 17 14, dkind := e.op 19 18, dst := e.op 23 20 }
/-- Slots per output, and rows per output tile. -/
def afS (s : State) (e : Eng) : Nat := slotsOf (fmtOf s.level e.fmt) e.strict e.cplx (afK e)
def afRows (s : State) (e : Eng) : Nat := min (afM e) (32 / afS s e)
def afGroups (s : State) (e : Eng) : Nat := (afM e + afRows s e - 1) / afRows s e
/-- Columns of group g. -/
def afCols (e : Eng) (g : Nat) : Nat := min 64 (afN e - 64 * g)
/-- Weight tile (g, u) of the fold: rows of terms with the row stride of the element plane, and one row of scale bytes per block
of 32 terms (DEDUCED, log entry 29). -/
def afTile (s : State) (n c : Nat) (e : Eng) (g u : Nat) (t : State) : TileData :=
  let f := fmtOf s.level e.fmt
  let a := s.ar n c (e.op 27 24)
  let b := s.ar n c (e.op 27 24 + 1)
  t.readTile n c (e.op 60 59) (e.opb 0) e.fmt e.cplx (addrOf a + 16 * u * strideOf a + rowBytes f (64 * g * engParts e)) (strideOf a)
    (addrOf b + u / 2 * strideOf b + 64 * g) (afK e - 16 * u) (afCols e g)
/-- The configuration of the fold's dot products. -/
def afCfg (s : State) (n c : Nat) (e : Eng) (k : Nat) : DotCfg :=
  ⟨(fmtOf s.level e.fmt).expanded, e.strict, Rnd.ofCode e.rnd, afK e, s.dotK n c (afFields e), k⟩
/-- Weight tiles of an output tile, and rows of output tile idx = g × groups + h. -/
def afTilesK (e : Eng) : Nat := (afK e + 15) / 16
def afTileRows (s : State) (e : Eng) (idx : Nat) : Nat := min (afRows s e) (afM e - idx % afGroups s e * afRows s e)
/-- The chunks that row i of output tile idx and the active weight tile form at pass u, one for each column. -/
def afChunks (s : State) (n c : Nat) (e : Eng) (idx u i : Nat) (t : State) : List CChunk :=
  let f := fmtOf s.level e.fmt
  let r := idx % afGroups s e * afRows s e + i
  let a := s.ar n c (e.op 31 28)
  let b := s.ar n c (e.op 31 28 + 1)
  let p := t.elemParts n c (e.op 60 59) false f e.cplx (addrOf a + r * strideOf a + rowBytes f (16 * u * engParts e)) (min 16 (afK e - 16 * u))
  let xa := if f.isMx then ((t.obBytes n (e.op 60 59) (addrOf b + r * strideOf b + u / 2) 1).map (fun x => x.toNat)).headD 127 else 127
  (List.range (afCols e (idx / afGroups s e))).map (fun j => (t.array n (e.op 60 59)).chunk f xa j p.1 p.2)
/-- The fold as tiles (R123): a rerun repeats a tile's passes over the operands kept. -/
def afInstr (n c : Nat) (e : Eng) (s : State) : DotInstr :=
  { cfg := afCfg s n c e
    cplx := e.cplx
    budget := e.rbud
    operands := fun _ t => (t.array n (e.op 60 59)).kept
    write := fun ts t => ts.foldl (fun t x =>
      let g := x.idx / afGroups s e
      let cols := afCols e g
      let cfg := afCfg s n c e 0
      let t0 := (t.setSlots n (e.op 60 59) 0 cols cfg.slot cfg.pair x.accs)
      (List.range (x.accs.length / cols)).foldl (fun t i =>
        let r := x.idx % afGroups s e * afRows s e + i
        s.outRow n c e (afFields e) (e.op 60 59) (s.engTag n c e) (afN e) t
          ⟨r, 64 * g, g * afM e + r, ((x.els e.strict).drop (i * cols)).take cols⟩) t0) t }
/-- The rows of a plane of a tile replaced from row i on by `new`, `cols` outputs a row. -/
def putRow {α : Type} (l new : List α) (i cols : Nat) : List α := l.take (i * cols) ++ new ++ l.drop ((i + 1) * cols)
/-- Unit x of the fold (R122): one row of one pass. The first row of a pass loads its weight tile and swaps it in (R126; for FP64 all
registers are written, R130); the last row of the last pass ends the output tile. -/
def afUnit (n c : Nat) (e : Eng) (s : State) (x : Nat) (t : State) : State :=
  let k := e.op 60 59
  let per := afTilesK e * afM e
  let g := x / per
  let h := x % per / (afTilesK e * afRows s e)
  let idx := g * afGroups s e + h
  let rows := afTileRows s e idx
  let z := x % per - h * (afTilesK e * afRows s e)
  let u := z / rows
  let i := z % rows
  let cols := afCols e g
  let cfg := afCfg s n c e 0
  let a := t.array n k
  let a0 := if i = 0 then
      (let b := a.load (afTile s n c e g u t)
       if cfg.f == .fp64 then b else b.swap) else a
  let a1 := if u = 0 ∧ i = 0 then
      { a0 with fold := List.replicate (rows * cols) (accsZero e.strict e.cplx), kept := List.replicate (rows * cols) [] } else a0
  let t1 := t.setArray n k a1
  let chs := afChunks s n c e idx u i t1
  let accs := (chs.zip ((a1.fold.drop (i * cols)).take cols)).map (fun p => accsChunk cfg e.cplx u p.1 p.2)
  let kept := (((a1.kept.drop (i * cols)).take cols).zip chs).map (fun p => p.1 ++ [p.2])
  let a2 := { a1 with fold := putRow a1.fold accs i cols, kept := putRow a1.kept kept i cols }
  let t2 := (t1.setArray n k a2).setSlots n k 0 cols cfg.slot cfg.pair a2.fold
  if u + 1 = afTilesK e ∧ i + 1 = rows then
    (afInstr n c e s).settle n c (s.engTag n c e) (mkTile cfg e.rbud idx a2.kept a2.fold)
      (t2.setArray n k { a2 with fold := [], kept := [] })
  else t2

/-- AFOLD. A boundary follows each row of a pass (R137). -/
def opAfold (n c : Nat) (e : Eng) (s : State) : Long :=
  let k := e.op 60 59
  let d := afFields e
  let f := fmtOf s.level e.fmt
  let src := s.ar n c (e.op 31 28)
  let sca := s.ar n c (e.op 31 28 + 1)
  let wa := s.ar n c (e.op 27 24)
  let wb := s.ar n c (e.op 27 24 + 1)
  let fm := e.opb 0
  let groups := (afN e + 63) / 64
  { traps := engTraps 1 n c e s ++ acTraps dotUse e ++ s.dotTraps n c e d (d.dkind == 3)
      ++ [(e.op 31 28 % 2 != 0 || e.op 27 24 % 2 != 0, REG_RANGE),
          (badStrided src || badStrided wa || (f.isMx && (badStrided sca || badStrided wb)), ADDR_FORM),
          (decide (3 ≤ afS s e) && decide (10 < afM e), AFOLD_SHAPE), (!(s.array n k).tiles.isEmpty, ATILE_STATE),
          (s.arrHeld n c k, ARR_HELD)]
      ++ (if fm then s.fmRows n c wa (afK e) (rowBytes f (afN e * engParts e))
            ++ (if f.isMx then s.fmRows n c wb ((afK e + 31) / 32) (afN e) else []) else [])
      ++ s.outTraps n c e d (afM e) (afN e) (groups * afM e)
    wait := none
    kind := 1
    total := fun _ => groups * (afTilesK e * afM e)
    part := fun lo hi t => runUnits n c (afUnit n c e s) (hi - lo) lo t
    finish := fun t => t.relEng n c e
    again := (afInstr n c e s).again
    close := fun d t => (afInstr n c e s).settle n c (s.engTag n c e) d t }

def execAload (a : Issue) (e : Eng) (s : State) : Res := engine opAload (some ARR_RESIDUE) a e s
def execAstream (a : Issue) (e : Eng) (s : State) : Res := longEngine 0x11 opAstream (some ARR_RESIDUE) a e s
def execAfold (a : Issue) (e : Eng) (s : State) : Res := longEngine 0x12 opAfold (some ARR_RESIDUE) a e s

end Sys2Proof.Machine
end

