-- ==== Sys2Proof/Machine/Rings.lean ====
section
/-! DEFINITION. Message landing zones (11_on_die_memory.md R348, R349): sender rings, their credits and the granules at their
tail and head. -/

namespace Sys2Proof.Machine

/-- A ring of this device's zones by zone and number; a ring of a remote zone (R348, R384). -/
def ringKey (zone num : Nat) : Nat := zone * 1024 + num
def remoteKey (seat zone num : Nat) : Nat := 2 ^ 24 + (seat * 1024 + zone) * 1024 + num

/-- The rings that the loaded schedules divide the zones into. -/
def State.rings (s : State) : List Ring := s.scheds.flatMap (fun x => x.rings)
def State.ringAt (s : State) (zone num : Nat) : Option Ring :=
  s.rings.find? (fun r => r.zone.toNat == zone && r.num.toNat == num)
/-- The ring of a logical folio in a zone; the ring of a remote seat in a zone. -/
def State.folioRing (s : State) (zone lf : Nat) : Option Ring :=
  s.rings.find? (fun r => r.zone.toNat == zone && (match r.folio with | some f => f.val == lf | none => false))
def State.seatRing (s : State) (zone seat : Nat) : Option Ring :=
  s.rings.find? (fun r => r.zone.toNat == zone && r.folio.isNone && r.seat.toNat == seat)
/-- This device's ring in a zone of a remote seat. -/
def State.outRing (s : State) (seat zone : Nat) : Option RemoteRing :=
  (s.scheds.flatMap (fun x => x.remoteRings)).find? (fun r => r.seat.toNat == seat && r.zone.toNat == zone)

def State.credit (s : State) (key : Nat) : Nat := Sp.get (fun _ => 0) s.credits key
def State.setCredit (s : State) (key v : Nat) : State := { s with credits := Sp.set (fun _ => 0) s.credits key v }
def State.tailOf (s : State) (key : Nat) : Nat := Sp.get (fun _ => 0) s.ringTail key
def State.headOf (s : State) (key : Nat) : Nat := Sp.get (fun _ => 0) s.ringHead key

/-- Granules of a ring from a position, wrapping at the ring's end: their offsets in the zone. -/
def ringGrans (r : Ring) (pos n : Nat) : List Nat := (List.range n).map (fun i => (r.start + (pos + i) % r.size) * 256)
/-- Bytes written from the tail of a ring, granule after granule, and the tail moved on by `n` granules. -/
def State.ringPut (s : State) (r : Ring) (n : Nat) (bs : List Byte) : State :=
  let key := ringKey r.zone.toNat r.num.toNat
  let s1 := (List.range n).foldl (fun s i =>
    s.vatWrite r.zone.toNat ((ringGrans r (s.tailOf key) n).getD i 0) ((bs.drop (256 * i)).take 256)) s
  { s1 with ringTail := Sp.set (fun _ => 0) s1.ringTail key ((s.tailOf key + n) % r.size) }
/-- The granules at a ring's head freed, and their credits returned to the sender (R349): at once on this device, by a message
to a remote sender (R482). -/
def State.ringFree (s : State) (r : Ring) (n : Nat) : State :=
  let key := ringKey r.zone.toNat r.num.toNat
  let s1 := { s with ringHead := Sp.set (fun _ => 0) s.ringHead key ((s.headOf key + n) % r.size) }
  let s2 := s1.setCredit key (min r.size (s.credit key + n))
  if r.folio.isSome then s2 else s2.sendSeat tyMSG r.seat.toNat (msgCredit r.zone.toNat r.num.toNat n)

end Sys2Proof.Machine
end

