-- ==== Sys2Proof/Machine/Sewing.lean ====
section
/-! DEFINITION. The sewing unit (06_recurrence_and_scan.md R173 to R198, 14_instruction_encoding.md R450): SSCAN, SSUMM, SCONV, the
carry file and the carry inboxes. -/

namespace Sys2Proof.Machine

/-! ## Fields of SSCAN and SSUMM -/

def wMODE (e : Eng) : Bool := e.opb 60
def wPREC (e : Eng) : Bool := e.opb 59
def wE (e : Eng) : Nat := e.op 58 50
def wTREG (e : Eng) : Nat := e.op 49 45
def wCIN (e : Eng) : Nat := e.op 44 43
def wCINF (e : Eng) : Nat := e.op 42 41
def wCOUT (e : Eng) : Nat := e.op 40 39
def wCOUTF (e : Eng) : Nat := e.op 38 37
def wHOUT (e : Eng) : Nat := e.op 36 35
def wROUNDH (e : Eng) : Bool := e.opb 34
def wRO (e : Eng) : Bool := e.opb 33
def wABASE (e : Eng) : Nat := e.op 32 29
def wKEY (e : Eng) : Nat := e.op 28 13
def wPDEST (e : Eng) : Nat := e.op 12 8
def wIB (e : Eng) : Nat := e.op 7 4

/-- Address register k of the instruction's block. -/
def State.blockA (s : State) (n c : Nat) (e : Eng) (k : Nat) : Nat := s.ar n c (wABASE e + k)
/-- The scan input formats (R174). -/
def ifmtOk (e : Eng) : Bool := e.fmt == 0 || e.fmt == 1
def ifmt (e : Eng) : Fmt := if e.fmt = 1 then .bf16 else .fp32
/-- Bytes of a carry element: FP32, BF16, pair. -/
def carryBytes (f : Nat) : Nat := match f with | 0 => 4 | 1 => 2 | _ => 8
/-- Bytes of a state output: none, FP32, BF16, pair. -/
def houtBytes (h : Nat) : Nat := match h with | 0 => 0 | 1 => 4 | 2 => 2 | _ => 8
/-- One element of a plane as an exact value. -/
def State.elemAt (s : State) (n c a : Nat) (f : Fmt) (strict : Bool) (i : Nat) : FV :=
  f.read strict (s.fmLoad n c (a + f.bits / 8 * i) (f.bits / 8))
/-- fused of R175, in strict mode with subnormals kept. -/
def fusedS (strict : Bool) (v : FV × Bool) : Nat × Fl := fuse .fp32 { strict := strict } v
/-- An FP32 word as an exact operand. -/
def opndS (strict : Bool) (w : Nat) : FV × Bool := (Fmt.fp32.read strict w, false)
/-- widen(round_bf16(h)) (R175). -/
def round16 (w : Nat) : Nat × Fl := let r := Fmt.bf16.encode {} (Fmt.fp32.decode w); (r.1 * 65536, r.2)
/-- A state converted to BF16, stochastically where the instruction says so (R178). -/
def to16 (strict : Bool) (e : Eng) (r w : Nat) : Nat × Fl :=
  Fmt.bf16.encode { rnd := Rnd.ofCode e.rnd, strict := strict, r := r } (Fmt.fp32.decode w)

/-! ## Lanes and carries -/

/-- The state of lane e: its high and low parts. -/
def State.laneH (s : State) (n k : Nat) : Nat := (Sp.get (fun _ => 0) s.sew (512 * n + k)).toNat
def State.laneL (s : State) (n k : Nat) : Nat := (Sp.get (fun _ => 0) s.sew (512 * n + 256 + k)).toNat
def State.setLane (s : State) (n k h l : Nat) : State :=
  { s with sew := Sp.set (fun _ => 0) (Sp.set (fun _ => 0) s.sew (512 * n + k) (BitVec.ofNat 32 h)) (512 * n + 256 + k) (BitVec.ofNat 32 l) }
/-- The carry file (R182). -/
def State.fileH (s : State) (n k : Nat) : Nat := (Sp.get (fun _ => 0) s.carryf (512 * n + k)).toNat
def State.fileL (s : State) (n k : Nat) : Nat := (Sp.get (fun _ => 0) s.carryf (512 * n + 256 + k)).toNat
def State.setFile (s : State) (n k h l : Nat) : State :=
  { s with carryf := Sp.set (fun _ => 0) (Sp.set (fun _ => 0) s.carryf (512 * n + k) (BitVec.ofNat 32 h)) (512 * n + 256 + k) (BitVec.ofNat 32 l) }
def State.inboxOf (s : State) (n : Nat) : List Carry := Sp.get (fun _ => []) s.inbox n
def State.setInbox (s : State) (n : Nat) (l : List Carry) : State := { s with inbox := Sp.set (fun _ => []) s.inbox n l }
/-- The state of lane e as an exact value: hi + lo for the pair, else the FP32 state (R175, R176). -/
def State.laneV (s : State) (n : Nat) (pair : Bool) (k : Nat) : FV × Bool :=
  if pair then addV (fp32 (s.laneH n k), false) (fp32 (s.laneL n k), false) else (fp32 (s.laneH n k), false)
/-- A carry on its way to a logical folio of this device (R183). -/
def State.postCarry (s : State) (lf : Nat) (x : Carry) : State :=
  { s with carries := Sp.set (fun _ => []) s.carries lf (Sp.get (fun _ => []) s.carries lf ++ [x]) }
/-- The payload of a carry on a link (R482; the layout is a DESIGN CHOICE, log entry 16): kind 2, folio, key, work tag, then high
and low words. -/
def dataCarry (lf key tag : Nat) (vs : List (Nat × Nat)) : List Byte :=
  toBytes 1 2 ++ toBytes 1 lf ++ toBytes 2 key ++ toBytes 2 tag ++ vs.flatMap (fun v => toBytes 4 v.1 ++ toBytes 4 v.2)
/-- A carry pass (R183): to a folio of this device, or over the links. -/
def State.passCarry (s : State) (n dest key tag : Nat) (vs : List (Nat × Nat)) : State :=
  let seat := bits dest 25 16
  if seat = 0x3FF ∨ seat = s.seat then s.postCarry (bits dest 5 0) ⟨key, tag, 0x3FF, some n, vs⟩
  else { s with carrySent := s.carrySent.filter (fun p => p != (tag, seat)) ++ [(tag, seat)] }.sendSeat tyDATA seat
    (dataCarry (bits dest 5 0) key tag vs)
/-- Does the sewing unit of a folio stand frozen, its carry pass before a full inbox (R183)? -/
def State.sewFrozen (s : State) (n : Nat) : Bool :=
  s.carries.any (fun p => decide (4 ≤ (s.inboxOf (s.phys p.1)).length) && p.2.any (fun x => x.unit == some n))

/-- CARRY_PASS: the oldest carry sent to the folio enters its inbox, which holds 4 (R183). -/
def execCarryPass (n : Fin 50) (s : State) : Res :=
  match s.logical n.val with
  | none => notDue "the folio holds no logical index"
  | some lf =>
    match Sp.get (fun _ => []) s.carries lf with
    | [] => notDue "no carry is on its way to the folio"
    | x :: xs =>
      if 4 ≤ (s.inboxOf n.val).length then notDue "the carry inbox is full"
      else .next ({ s with carries := Sp.set (fun _ => []) s.carries lf xs }.setInbox n.val (s.inboxOf n.val ++ [x]))

/-! ## One step of a lane (R175 to R177, R186) -/

/-- What a lane multiplies and adds at a step: a and b as exact values, with the flags of forming them. -/
structure Coef where
  a : FV
  b : FV
  fl : Fl
  deriving DecidableEq, Repr

/-- The coefficients of element k at step t (R175, R177). -/
def scanCoef (n c : Nat) (e : Eng) (s : State) (t k : Nat) (m : State) : Coef :=
  let f := ifmt e
  let a := fun i => addrOf (s.blockA n c e i)
  if wMODE e then
    (let chs := wE e / 16
     let d := k / 16
     let delta := m.elemAt n c (a 0) f false (t * chs + d)
     let x := m.elemAt n c (a 1) f false (t * chs + d)
     let bm := m.elemAt n c (a 2) f false (16 * t + k % 16)
     let a2 := m.elemAt n c (a 4) .fp32 false k
     let u := fused (mulFV delta x)
     let g := fused (mulFV delta a2)
     let p := fnEval 2 false (fun _ => 0) 2 (fp32 g.1) .fp32 {}
     let b := fused (mulFV (fp32 u.1) bm)
     ⟨fp32 p.1, fp32 b.1, Fl.join [u.2, g.2, p.2, b.2]⟩)
  else ⟨m.elemAt n c (a 0) f e.strict (t * wE e + k), m.elemAt n c (a 1) f e.strict (t * wE e + k), {}⟩
/-- The state of a lane after a step (R175, R176). -/
def scanStep (e : Eng) (x : Coef) (hl : Nat × Nat) : (Nat × Nat) × Fl :=
  if wPREC e then
    (let h := addV (fp32 hl.1, false) (fp32 hl.2, false)
     let v := addV (mulV (x.a, false) h) (x.b, false)
     let hi := fused v
     let lo := fused (sumFV .ne [v.1, (fp32 hi.1).flip])
     ((hi.1, lo.1), Fl.join [x.fl, hi.2, lo.2]))
  else
    let h := fusedS e.strict (addV (mulV (x.a, false) (opndS e.strict hl.1)) (x.b, false))
    let r := if wROUNDH e then round16 h.1 else (h.1, {})
    ((r.1, 0), Fl.join [x.fl, h.2, r.2])
/-- The readout of channel d at step t (R177): one rounding of the exact sum, then IFMT's width. -/
def scanRead (n c : Nat) (e : Eng) (s : State) (t d : Nat) (m : State) : Nat × Fl :=
  let f := ifmt e
  let a := fun i => addrOf (s.blockA n c e i)
  let chs := wE e / 16
  let terms := (List.range 16).map (fun j =>
    mulV (m.elemAt n c (a 3) f false (16 * t + j), false) (m.laneV n (wPREC e) (16 * d + j)))
  let dx := mulV (m.elemAt n c (a 5) .fp32 false d, false) (m.elemAt n c (a 1) f false (t * chs + d), false)
  let all := terms ++ [dx]
  let sm := sumFV .ne (all.map Prod.fst)
  let y := fused (sm.1, sm.2 || all.any Prod.snd)
  if f == .bf16 then
    (let r := if e.stoch then s.srBits n c (s.ibBase n c (wIB e) + t * chs + d) else 0
     let z := to16 false e r y.1
     (z.1, y.2.or z.2))
  else y
/-- Step t of every lane, with its state outputs and readouts. -/
def scanAll (n c : Nat) (e : Eng) (s : State) (t : Nat) (m : State) : State :=
  let E := wE e
  let a := fun i => addrOf (s.blockA n c e i)
  let tag := s.engTag n c e
  let m1 := (List.range E).foldl (fun (m : State) k =>
    let (hl, f) := scanStep e (scanCoef n c e s t k m) (m.laneH n k, m.laneL n k)
    let m := (m.setLane n k hl.1 hl.2).holdFl n tag fieldSCAN f
    match wHOUT e with
    | 1 => m.fmStore n c (a 6 + 4 * (t * E + k)) 4 hl.1
    | 2 =>
      let r := if e.stoch then s.srBits n c (s.ibBase n c (wIB e) + t * E + k) else 0
      let z := to16 e.strict e r hl.1
      (m.fmStore n c (a 6 + 2 * (t * E + k)) 2 z.1).holdFl n tag fieldSCAN z.2
    | 3 => m.fmStore n c (a 6 + 8 * (t * E + k)) 8 (hl.1 + hl.2 * 2 ^ 32)
    | _ => m) m
  if wRO e then
    (List.range (E / 16)).foldl (fun (m : State) d =>
      let y := scanRead n c e s t d m
      let w := (ifmt e).bits / 8
      (m.fmStore n c (a 7 + w * (t * (E / 16) + d)) w y.1).holdFl n tag fieldSCAN y.2) m1
  else m1
/-- Step t of a summary: p in the high word of each lane, l in the low one (R186). -/
def summAll (n c : Nat) (e : Eng) (s : State) (t : Nat) (m : State) : State :=
  (List.range (wE e)).foldl (fun (m : State) k =>
    let x := scanCoef n c e s t k m
    let p := fusedS e.strict (mulV (x.a, false) (opndS e.strict (m.laneH n k)))
    let l := fusedS e.strict (addV (mulV (x.a, false) (opndS e.strict (m.laneL n k))) (x.b, false))
    (m.setLane n k p.1 l.1).holdFl n (s.engTag n c e) fieldSCAN (Fl.join [x.fl, p.2, l.2])) m
/-- `k` steps from step t on. -/
def stepsFrom (f : Nat → State → State) (t : Nat) : (k : Nat) → State → State
  | 0, m => m
  | k + 1, m => stepsFrom f (t + 1) k (f t m)

/-- The carry-in loaded into the lanes (R174, R175, R176). -/
def carryIn (n c : Nat) (e : Eng) (s : State) (m : State) : State :=
  let a := addrOf (s.blockA n c e 8)
  let set := fun (v : Nat → Nat × Nat) (m : State) => (List.range (wE e)).foldl (fun m k => m.setLane n k (v k).1 (v k).2) m
  let lo := fun x => if wPREC e then x else 0
  match wCIN e with
  | 0 => set (fun _ => (0, 0)) m
  | 1 => set (fun k => (m.fileH n k, lo (m.fileL n k))) m
  | 2 =>
    (match wCINF e with
     | 0 => set (fun k => (m.fmLoad n c (a + 4 * k) 4, 0)) m
     | 1 => set (fun k => (m.fmLoad n c (a + 2 * k) 2 * 65536, 0)) m
     | _ => set (fun k => (m.fmLoad n c (a + 8 * k) 4, m.fmLoad n c (a + 8 * k + 4) 4)) m)
  | _ =>
    match (m.inboxOf n).find? (fun x => x.key == wKEY e) with
    | some x => set (fun k => ((x.vals.getD k (0, 0)).1, lo (x.vals.getD k (0, 0)).2)) (m.setInbox n ((m.inboxOf n).erase x))
    | none => m
/-- The carry-out of the lanes (R174, R182, R183). -/
def carryOut (n c : Nat) (e : Eng) (s : State) (m : State) : State :=
  let a := addrOf (s.blockA n c e 9)
  let ks := List.range (wE e)
  match wCOUT e with
  | 0 => m
  | 1 => ks.foldl (fun m k => m.setFile n k (m.laneH n k) (m.laneL n k)) m
  | 2 =>
    ks.foldl (fun (m : State) k =>
      match wCOUTF e with
      | 0 => m.fmStore n c (a + 4 * k) 4 (m.laneH n k)
      | 1 => let r := Fmt.bf16.encode { strict := e.strict } (Fmt.fp32.decode (m.laneH n k))
             (m.fmStore n c (a + 2 * k) 2 r.1).holdFl n (s.engTag n c e) fieldSCAN r.2
      | _ => m.fmStore n c (a + 8 * k) 8 (m.laneH n k + m.laneL n k * 2 ^ 32)) m
  | _ => m.passCarry n (s.sr n c (wPDEST e)) (wKEY e) (s.engTag n c e) (ks.map (fun k => (m.laneH n k, m.laneL n k)))
/-- Where a summary goes (R186, R450): p then l to memory, or to the send slot for SPCARRY; the carry file takes p and l as the
two words of its elements (DEDUCED, log entry 31). -/
def summOut (n c : Nat) (e : Eng) (s : State) (m : State) : State :=
  let a := addrOf (s.blockA n c e 9)
  let E := wE e
  let ks := List.range E
  match wCOUT e with
  | 0 => m
  | 1 => ks.foldl (fun m k => m.setFile n k (m.laneH n k) (m.laneL n k)) m
  | 2 => ks.foldl (fun m k => (m.fmStore n c (a + 4 * k) 4 (m.laneH n k)).fmStore n c (a + 4 * (E + k)) 4 (m.laneL n k)) m
  | _ => m.setSlot n (some { ctx := c, tag := s.engTag n c e, key := wKEY e,
                             bytes := ks.flatMap (fun k => toBytes 4 (m.laneH n k)) ++ ks.flatMap (fun k => toBytes 4 (m.laneL n k)) })

/-! ## SSCAN and SSUMM -/

/-- A plane's traps: address form, 64-B alignment, range. -/
def State.planeTraps (s : State) (n c a len : Nat) : List (Bool × Nat) :=
  [(badAddr a, ADDR_FORM), (addrOf a % 64 != 0, SCAN_ALIGN)] ++ s.fmSpan n c (addrOf a) len
/-- The traps of an address that is no plane. -/
def State.carryTraps (s : State) (n c a len : Nat) : List (Bool × Nat) := (badAddr a, ADDR_FORM) :: s.fmSpan n c (addrOf a) len

/-- The traps common to SSCAN and SSUMM (R174, R177, R178, R198, R450). -/
def scanTraps (n c : Nat) (e : Eng) (s : State) (summ : Bool) : List (Bool × Nat) :=
  let E := wE e
  let T := s.sr n c (wTREG e)
  let w := (ifmt e).bits / 8
  let A := s.blockA n c e
  let sel := wMODE e
  [(e.op 3 0 != 0 || (wCIN e != 2 && wCINF e != 0) || wCINF e == 3 || (wCOUT e != 2 && wCOUTF e != 0) || wCOUTF e == 3
      || (wCIN e != 3 && wCOUT e != 3 && wKEY e != 0) || ((summ || wCOUT e != 3) && wPDEST e != 0)
      || ((summ || !e.stoch) && wIB e != 0) || (summ && (wCIN e != 0 || wCOUTF e != 0)), FLD_RESERVED),
   (decide (6 < wABASE e), REG_RANGE), fmtTrap s e.fmt, (!ifmtOk e, FMT_MIX),
   (e.strict && sel, FMT_STRICT), (e.rnd != 0 && !(e.stoch && !e.strict && !summ), FMT_ROUND),
   (E == 0 || decide (256 < E) || (sel && E % 16 != 0) || T == 0 || decide (2 ^ 24 < T), SCAN_SHAPE),
   ((wPREC e && (wROUNDH e || e.strict)) || (wRO e && !sel) || (summ && (wPREC e || wROUNDH e || wHOUT e != 0 || wRO e))
      || (!wPREC e && (wHOUT e == 3 || wCINF e == 2 || wCOUTF e == 2)), SCAN_MODE),
   (!summ && wCOUT e == 3 && (bits (s.sr n c (wPDEST e)) 31 26 != 0 || bits (s.sr n c (wPDEST e)) 15 6 != 0), ADDR_FORM)]
    ++ (if sel then
          s.planeTraps n c (A 0) (T * (E / 16) * w) ++ s.planeTraps n c (A 1) (T * (E / 16) * w) ++ s.planeTraps n c (A 2) (T * 16 * w)
            ++ s.planeTraps n c (A 4) (4 * E)
            ++ (if wRO e then s.planeTraps n c (A 3) (T * 16 * w) ++ s.planeTraps n c (A 5) (4 * (E / 16))
                  ++ s.planeTraps n c (A 7) (T * (E / 16) * w) else [])
        else s.planeTraps n c (A 0) (T * E * w) ++ s.planeTraps n c (A 1) (T * E * w))
    ++ (if wHOUT e != 0 then s.planeTraps n c (A 6) (T * E * houtBytes (wHOUT e)) else [])
    ++ (if wCIN e == 2 then s.carryTraps n c (A 8) (E * carryBytes (wCINF e)) else [])
    ++ (if wCOUT e == 2 then s.carryTraps n c (A 9) (E * (if summ then 8 else carryBytes (wCOUTF e))) else [])
def scanUse : AcUse := { fmt := true, strict := true, rnd := true }
/-- Steps of a unit: 64 in fast mode, 8 in strict mode (R195). -/
def scanUnit (e : Eng) : Nat := if e.strict then 8 else 64

def opSscan (n c : Nat) (e : Eng) (s : State) : Long :=
  let T := s.sr n c (wTREG e)
  let u := scanUnit e
  let total := (T + u - 1) / u
  { traps := engTraps 2 n c e s ++ acTraps scanUse e ++ scanTraps n c e s false
    wait := if s.sewFrozen n then some .carry
      else if wCIN e = 3 ∧ ¬ (s.inboxOf n).any (fun x => x.key == wKEY e) then some (.inbox (wKEY e)) else none
    kind := 2
    total := fun _ => total
    part := fun lo hi m =>
      let m0 := if lo = 0 then carryIn n c e s m else m
      (hi, stepsFrom (fun t m => scanAll n c e s t m) (u * lo) (min T (u * hi) - u * lo) m0)
    finish := fun m => (carryOut n c e s m).relEng n c e }
def opSsumm (n c : Nat) (e : Eng) (s : State) : Long :=
  let T := s.sr n c (wTREG e)
  let u := scanUnit e
  let total := (T + u - 1) / u
  { traps := engTraps 2 n c e s ++ acTraps scanUse e ++ scanTraps n c e s true
    wait := if s.sewFrozen n then some .carry else if wCOUT e = 3 ∧ s.slotBusy n then some .sendSlot else none
    kind := 2
    total := fun _ => total
    part := fun lo hi m =>
      let m0 := if lo = 0 then (List.range (wE e)).foldl (fun m k => m.setLane n k 0x3F800000 0) m else m
      (hi, stepsFrom (fun t m => summAll n c e s t m) (u * lo) (min T (u * hi) - u * lo) m0)
    finish := fun m => (summOut n c e s m).relEng n c e }

/-! ## SCONV (R191 to R193) -/

def vcC (e : Eng) : Nat := e.op 60 48
def vcK (e : Eng) : Nat := e.op 47 44
def vcPAD (e : Eng) : Nat := e.op 43 42
def vcTREG (e : Eng) : Nat := e.op 41 37
def vcABASE (e : Eng) : Nat := e.op 36 33
def vcHIST (e : Eng) : Bool := e.opb 32
def vcOFMT (e : Eng) : Nat := e.op 31 28
def State.convA (s : State) (n c : Nat) (e : Eng) (k : Nat) : Nat := s.ar n c (vcABASE e + k)
/-- The code of input x[t, d]; before t = 0 from the history, oldest first, or +0 (R192). -/
def convIn (n c : Nat) (e : Eng) (s : State) (t : Int) (d : Nat) (m : State) : Nat :=
  let w := (ifmt e).bits / 8
  if 0 ≤ t then m.fmLoad n c (addrOf (s.convA n c e 0) + w * (t.toNat * vcC e + d)) w
  else if vcPAD e = 0 ∧ 0 ≤ t + (vcK e - 1 : Nat) then
    m.fmLoad n c (addrOf (s.convA n c e 4) + w * ((t + (vcK e - 1 : Nat)).toNat * vcC e + d)) w
  else 0
/-- y[t, d] (R191). -/
def convOut (n c : Nat) (e : Eng) (s : State) (t d : Nat) (m : State) : Nat × Fl :=
  let f := ifmt e
  let terms := (List.range (vcK e)).map (fun j =>
    mulFV (m.elemAt n c (addrOf (s.convA n c e 1)) .fp32 e.strict (j * vcC e + d)) (f.read e.strict (convIn n c e s ((t : Int) - j) d m)))
  let sm := sumFV .ne (m.elemAt n c (addrOf (s.convA n c e 2)) .fp32 e.strict d :: terms.map Prod.fst)
  let y := fusedS e.strict (sm.1, sm.2 || terms.any Prod.snd)
  if vcOFMT e = 1 then (let z := Fmt.bf16.encode { strict := e.strict } (Fmt.fp32.decode y.1); (z.1, y.2.or z.2)) else y
/-- One unit: 64 steps of 256 channels. -/
def convUnit (n c : Nat) (e : Eng) (s : State) (u : Nat) (m : State) : State :=
  let groups := (vcC e + 255) / 256
  let T := s.sr n c (vcTREG e)
  let t0 := if vcPAD e = 2 then vcK e - 1 else 0
  let w := if vcOFMT e = 1 then 2 else 4
  let lo := 64 * (u / groups)
  (List.range (min 64 (T - lo))).foldl (fun (m : State) i =>
    (List.range (min 256 (vcC e - 256 * (u % groups)))).foldl (fun (m : State) j =>
      let t := lo + i
      let d := 256 * (u % groups) + j
      if t0 ≤ t then
        (let y := convOut n c e s t d m
         (m.fmStore n c (addrOf (s.convA n c e 3) + w * ((t - t0) * vcC e + d)) w y.1).holdFl n (s.engTag n c e) fieldSCAN y.2)
      else m) m) m
/-- The new history: the last K − 1 inputs, oldest first (R192). -/
def convHist (n c : Nat) (e : Eng) (s : State) (m : State) : State :=
  let T := s.sr n c (vcTREG e)
  let w := (ifmt e).bits / 8
  let vs := (List.range (vcK e - 1)).flatMap (fun i =>
    (List.range (vcC e)).map (fun d => convIn n c e s ((T : Int) - (vcK e - 1 : Nat) + i) d m))
  m.fmWrite n c (addrOf (s.convA n c e 5)) (vs.flatMap (fun v => toBytes w v))

def opSconv (n c : Nat) (e : Eng) (s : State) : Long :=
  let T := s.sr n c (vcTREG e)
  let C := vcC e
  let K := vcK e
  let w := (ifmt e).bits / 8
  let A := s.convA n c e
  let total := (T + 63) / 64 * ((C + 255) / 256)
  { traps := engTraps 2 n c e s ++ acTraps scanUse e
      ++ [(e.op 27 0 != 0, FLD_RESERVED), (decide (10 < vcABASE e), REG_RANGE), fmtTrap s e.fmt, fmtTrap s (vcOFMT e),
          (!ifmtOk e || decide (1 < vcOFMT e), FMT_MIX), (e.rnd != 0, FMT_ROUND), (T == 0 || decide (2 ^ 24 < T), SCAN_SHAPE),
          (K == 0 || decide (8 < K) || C == 0 || decide (4096 < C) || vcPAD e == 3 || (vcPAD e == 2 && decide (T < K)), SCONV_SHAPE)]
      ++ s.planeTraps n c (A 0) (T * C * w) ++ s.planeTraps n c (A 1) (4 * K * C) ++ s.planeTraps n c (A 2) (4 * C)
      ++ s.planeTraps n c (A 3) ((if vcPAD e = 2 then T + 1 - K else T) * C * (if vcOFMT e = 1 then 2 else 4))
      ++ (if vcPAD e = 0 then s.planeTraps n c (A 4) ((K - 1) * C * w) else [])
      ++ (if vcHIST e then s.planeTraps n c (A 5) ((K - 1) * C * w) else [])
    wait := if s.sewFrozen n then some .carry else none
    kind := 2
    total := fun _ => total
    part := fun lo hi m =>
      (hi, stepsFrom (fun u m => convUnit n c e s u m) lo (hi - lo) m)
    finish := fun m => (if vcHIST e then convHist n c e s m else m).relEng n c e }

/-- A sewing instruction issues or goes on; inside one, a frozen unit stands still (R183). -/
def sewing (opc : Nat) (op : Nat → Nat → Eng → State → Long) (a : Issue) (e : Eng) (s : State) : Res :=
  if (s.ctx a.folio.val a.ctx.val).inside.isSome ∧ s.sewFrozen a.folio.val then notDue "the sewing unit stands before a full inbox (R183)"
  else longEngine opc op (some SCAN_RESIDUE) a e s
def execSscan (a : Issue) (e : Eng) (s : State) : Res := sewing 0x70 opSscan a e s
def execSsumm (a : Issue) (e : Eng) (s : State) : Res := sewing 0x71 opSsumm a e s
def execSconv (a : Issue) (e : Eng) (s : State) : Res := sewing 0x72 opSconv a e s

end Sys2Proof.Machine
end

