-- ==== Sys2Proof/Machine/Spine.lean ====
section
/-! DEFINITION. The collectives of the spine (15_spine.md R456 to R477, 14_instruction_encoding.md R453, 06_recurrence_and_scan.md R186
to R188): the seven spine instructions, the combination of contributions in the fixed tree, completion and its failures. -/

namespace Sys2Proof.Machine

/-! ## Fields (R453) -/

def pSREG (e : Eng) : Nat := e.op 60 57
def pDREG (e : Eng) : Nat := e.op 56 53
def pSCNT (e : Eng) : Nat := e.op 52 48
def pSTAG (e : Eng) : Nat := e.op 47 38
def pSCOPE (e : Eng) : Bool := e.opb 37
def pROP (e : Eng) : Nat := e.op 36 34
/-- Operation numbers: the low bits of the opcode. -/
def opSPRED : Nat := 0
def opSPGATH : Nat := 1
def opSPBCAST : Nat := 2
def opSPSTAT : Nat := 3
def opSPARG : Nat := 4
def opSPBAR : Nat := 5
def opSPCARRY : Nat := 6

/-! ## Who takes part (R456, R458, R472) -/

/-- The logical folios of a plane in ascending order. -/
def State.party (s : State) (g : Nat) : List Nat := members (s.gmask g)
/-- The collective that a plane serves (R464); past the end of its sequence it starts again. -/
def State.current (s : State) (g : Nat) : Option Coll :=
  let q := s.collSeq g
  q[Sp.get (fun _ => 0) s.plane g % q.length]?
/-- The contribution of a folio to a shared tag, if it waits. -/
def State.given (s : State) (n stag : Nat) : Option Contrib := (s.contrib n).find? (fun x => x.stag == stag)
/-- The waiting contributions of a plane to a shared tag, with the physical folios, in ascending logical index. -/
def State.givers (s : State) (g stag : Nat) : List (Nat × Contrib) :=
  (s.party g).filterMap (fun k => (s.given (s.phys k) stag).map (fun x => (s.phys k, x)))
/-- Has every folio of the plane handed over its contribution? -/
def State.allGiven (s : State) (g stag : Nat) : Bool := (s.givers g stag).length == (s.party g).length
/-- The seats of a collective in ascending rank (R472); the rank of R494 is the seat number. -/
def seatOrder (x : Coll) : List Nat := (List.range 1024).filter (fun k => x.seats.any (fun b => b.toNat == k))
/-- The logical device index of this device in a collective. -/
def State.devIndex (s : State) (x : Coll) : Nat := ((seatOrder x).takeWhile (fun b => b != s.seat)).length
/-- Is a seat a member of the charter in force? -/
def State.member (s : State) (seat : Nat) : Bool := s.rbit (CH_SEAT_NOW seat) 31
/-- Is a folio the first of its collective: p_0 of its plane, and on logical device 0 for SCOPE 1? -/
def State.isFirst (s : State) (n stag : Nat) (scope : Bool) : Bool :=
  match s.gathOfPhys n with
  | none => false
  | some g =>
    (match (s.party g).head? with | some k => s.phys k == n | none => false)
      && (!scope || (match (s.collSeq g).find? (fun x => x.stag.toNat == stag) with
                     | some x => s.devIndex x == 0
                     | none => false))

/-! ## Combination (R458, R460, R461) -/

/-- A node's value: the flags so far, those of combining ROWSTAT records apart (R462), the bytes it passes up, the ROWSTAT record. -/
structure Part where
  fl : Fl
  rfl : Fl
  bytes : List Byte
  record : List Byte
  deriving DecidableEq, Repr

/-- The bytes cut into `n` entries of `k` bytes. -/
def entries (k n : Nat) (bs : List Byte) : List (List Byte) := (List.range n).map (fun i => (bs.drop (k * i)).take k)
/-- An FP64 code that holds a value of either accumulator format. -/
def code64 (v : FV) : Nat × Fl := Fmt.fp64.encode { strict := true } v
/-- A pair of SPRED sum: h and l as FP64 codes, and the mark sat (R461). -/
def Joined.bytes (a : Joined) : List Byte :=
  toBytes 8 (code64 a.h).1 ++ toBytes 8 (code64 a.l).1 ++ toBytes 1 (if a.sat then 1 else 0)
def joinedOf (bs : List Byte) : Joined :=
  { h := Fmt.fp64.decode (ofBytes (bs.take 8)), l := Fmt.fp64.decode (ofBytes ((bs.drop 8).take 8)), n := 0,
    sat := ofBytes (bs.drop 16) == 1, fl := {} }
/-- Entries combined one by one. -/
def zipParts (k n : Nat) (f : List Byte → List Byte → List Byte × Fl) (a b : List Byte) : List Byte × Fl :=
  let rs := (entries k n a).zip (entries k n b) |>.map (fun p => f p.1 p.2)
  (rs.flatMap Prod.fst, Fl.join (rs.map Prod.snd))
/-- compose of R187 on one lane: first, then. -/
def composeLane (p1 l1 p2 l2 : Nat) : (Nat × Nat) × Fl :=
  let p := fused (mulV (opnd p2) (opnd p1))
  let l := fused (addV (mulV (opnd p2) (opnd l1)) (opnd l2))
  ((p.1, l.1), p.2.or l.2)
/-- apply of R187 on one lane. -/
def applyLane (p l c : Nat) : Nat × Fl := fused (addV (mulV (opnd p) (opnd c)) (opnd l))
/-- The words of a byte list. -/
def wordsOf (n : Nat) (bs : List Byte) : List Nat := unpackBytes 32 n bs
/-- Two summaries of E lanes composed. -/
def composeBytes (E : Nat) (a b : List Byte) : List Byte × Fl :=
  let x := wordsOf (2 * E) a
  let y := wordsOf (2 * E) b
  let rs := (List.range E).map (fun k => composeLane (nth x k) (nth x (E + k)) (nth y k) (nth y (E + k)))
  (rs.flatMap (fun r => toBytes 4 r.1.1) ++ rs.flatMap (fun r => toBytes 4 r.1.2), Fl.join (rs.map Prod.snd))
/-- A summary applied to carries of E lanes. -/
def applyBytes (E : Nat) (sm c : List Byte) : List Byte × Fl :=
  let x := wordsOf (2 * E) sm
  let y := wordsOf E c
  let rs := (List.range E).map (fun k => applyLane (nth x k) (nth x (E + k)) (nth y k))
  (rs.flatMap (fun r => toBytes 4 r.1), Fl.join (rs.map Prod.snd))

/-- A contribution as a leaf of the tree; a leaf of SPRED sum is its element widened exactly, with rerun count 0 (R461). -/
def leafPart (x : Contrib) : Part :=
  if x.op = opSPRED ∧ x.rop = 0 then
    (let f := (Fmt.ofCode 1 x.fmt).getD .fp32
     let es := (unpackBytes f.bits x.count x.bytes).map f.decode
     ⟨Fl.join (es.map (fun v => (code64 v).2)), {}, es.flatMap (fun v => (Joined.leaf 0 v).bytes), x.record⟩)
  else ⟨{}, {}, x.bytes, x.record⟩
/-- Two ROWSTAT records combined (R227); a part without one passes the other. -/
def combineRecord (a b : List Byte) : List Byte × Fl :=
  if a.isEmpty then (b, {})
  else if b.isEmpty then (a, {})
  else
    let w := fun (r : List Byte) (k : Nat) => fp32 (ofBytes ((r.drop (4 * k)).take 4))
    let m := fused (maxFV (w a 0) (w b 0))
    let t := fused (sumFV .ne [w a 1, w b 1])
    (toBytes 4 m.1 ++ toBytes 4 t.1, m.2.or t.2)
/-- The bytes of two nodes combined, the left of lower logical indices (R458, R460). -/
def combineBytes (x : Contrib) (a b : List Byte) : List Byte × Fl :=
  let f := (Fmt.ofCode 1 x.fmt).getD .fp32
  let k := f.bits / 8
  if x.op = opSPRED then
    (if x.rop = 0 then
       zipParts 17 x.count (fun p q => let j := Joined.join (x.fmt == 3) none (joinedOf p) (joinedOf q); (j.bytes, j.fl)) a b
     else zipParts k x.count (fun p q =>
       let u := f.read false (ofBytes p)
       let v := f.read false (ofBytes q)
       let r := fuse f {} (if x.rop = 1 then maxFV u v else minFV u v)
       (toBytes k r.1, r.2)) a b)
  else if x.op = opSPGATH then (a ++ b, {})
  else if x.op = opSPBCAST then (a, {})
  else if x.op = opSPSTAT then
    (let ssq := x.rop = 1
     zipParts (if ssq then 8 else 12) x.count (fun p q =>
       let r := if ssq then combineSsq (.ofBytes ssq p) (.ofBytes ssq q) else combineMv (.ofBytes ssq p) (.ofBytes ssq q)
       (r.1.bytes ssq, r.2)) a b)
  else if x.op = opSPARG then zipParts 8 x.count (fun p q => ((combineArg (.ofBytes p) (.ofBytes q)).bytes, {})) a b
  else if x.op = opSPCARRY then composeBytes x.count a b
  else if x.op = opSXRED then
    (let r := sumAdd (sumValue (ofBytes a), {}) (sumValue (ofBytes b), {}); (toBytes 8 (sumCode r.1), r.2))
  else ([], {})
/-- Two nodes combined. -/
def combinePart (x : Contrib) (a b : Part) : Part :=
  let r := combineBytes x a.bytes b.bytes
  let c := combineRecord a.record b.record
  ⟨Fl.join [a.fl, b.fl, r.2], Fl.join [a.rfl, b.rfl, c.2], r.1, c.1⟩
def Part.empty : Part := ⟨{}, {}, [], []⟩
/-- Parts combined in the tree of R458. -/
def treeParts (x : Contrib) (ps : List Part) : Part := folioTree (combinePart x) Part.empty ps.length ps
/-- The conversion of R73 with rounding 0b000: the wide rounding of R67, or for FP64 a rounding to FP64, and then the encoding. -/
def convertOut (f : Fmt) (v : FV × Bool) : Nat × Fl :=
  let o : OutCfg := { ma := 1, mb := 1, q := .fin false 1, lo := .inf true, hi := .inf false, out := f, c := {}, f64 := f == .fp64 }
  let t := o.stage 0 none v.1
  let r := fuse f {} (t.1, v.2)
  (r.1, t.2.or r.2)
/-- The root's conversion (R461): h + l to the element format, OF where the pair is marked sat. -/
def rootPart (x : Contrib) (p : Part) : Part :=
  if x.op = opSPRED ∧ x.rop = 0 then
    (let f := (Fmt.ofCode 1 x.fmt).getD .fp32
     let rs := (entries 17 x.count p.bytes).map (fun b =>
       let j := joinedOf b
       let r := convertOut f (sumFV .ne [j.h, j.l])
       (toBytes (f.bits / 8) r.1, if j.sat then { r.2 with of := true } else r.2))
     ⟨p.fl.or (Fl.join (rs.map Prod.snd)), p.rfl, rs.flatMap Prod.fst, p.record⟩)
  else p

/-! ## The carries of SPCARRY (R187, R188) -/

/-- The carries into spans 1 to s − 1 of a device from the entry e0 (R187), with the flags: c[1] = e0, c[k + 1] from c[k]. -/
def carryChain (E : Nat) : (sums : List (List Byte)) → (c : List Byte) → List (List Byte) × Fl
  | [], c => ([c], {})
  | x :: xs, c =>
    let r := applyBytes E x c
    let t := carryChain E xs r.1
    (c :: t.1, r.2.or t.2)
/-- tree(s, e) of R188 over the sigmas of devices s to e − 1, 2^k of them. -/
def sigmaTree (E : Nat) (sig : Nat → List Byte) : (k s : Nat) → List Byte × Fl
  | 0, s => (sig s, {})
  | k + 1, s =>
    let a := sigmaTree E sig k s
    let b := sigmaTree E sig k (s + 2 ^ k)
    let r := composeBytes E a.1 b.1
    (r.1, Fl.join [a.2, b.2, r.2])
/-- entry(d) of R188: bits of d − 1 from bit `j` − 1 down. -/
def entryAcc (E : Nat) (sig : Nat → List Byte) (d1 : Nat) : (j s : Nat) → Option (List Byte × Fl) → Option (List Byte × Fl)
  | 0, _, acc => acc
  | j + 1, s, acc =>
    if bit d1 j then
      (let t := sigmaTree E sig j s
       let acc' := match acc with
         | none => t
         | some a => let r := composeBytes E a.1 t.1; (r.1, Fl.join [a.2, t.2, r.2])
       entryAcc E sig d1 j (s + 2 ^ j) (some acc'))
    else entryAcc E sig d1 j s acc
def entryOf (E : Nat) (sig : Nat → List Byte) (end0 : List Byte) (d : Nat) : List Byte × Fl :=
  match entryAcc E sig (d - 1) 10 1 none with
  | none => (end0, {})
  | some a => let r := applyBytes E a.1 end0; (r.1, a.2.or r.2)

/-! ## Between devices (R472, R474) -/

/-- This device's part of a collective: the tree of its plane; for SPCARRY device 0 gives its last carry end0, every other its
summary sigma, the summaries of its spans composed in order from the first (R188). -/
def State.devPart (s : State) (x : Coll) (ps : List (Nat × Contrib)) : Part :=
  match ps with
  | [] => Part.empty
  | p :: rest =>
    if p.2.op = opSPCARRY ∧ s.devIndex x = 0 then
      (let r := carryChain p.2.count (rest.map (fun q => q.2.bytes)) (p.2.bytes.take (4 * p.2.count))
       ⟨r.2, {}, r.1.getLastD [], []⟩)
    else if p.2.op = opSPCARRY then (rest.map (fun q => leafPart q.2)).foldl (combinePart p.2) (leafPart p.2)
    else treeParts p.2 (ps.map (fun q => leafPart q.2))
/-- A part on a link (R482; the layout is a DESIGN CHOICE, log entry 16): kind 1, flags, shared tag, size, bytes, record. -/
def dataPart (stag : Nat) (p : Part) : List Byte :=
  toBytes 1 1 ++ toBytes 1 (p.fl.nat + 16 * p.rfl.nat) ++ toBytes 2 stag ++ toBytes 4 p.bytes.length ++ p.bytes ++ p.record
/-- The part that such a payload spells, without its kind. -/
def partOf (bs : List Byte) : Part :=
  let f := ofBytes (bs.take 1)
  let k := ofBytes ((bs.drop 3).take 4)
  ⟨⟨bit f 3, bit f 2, bit f 1, bit f 0⟩, ⟨bit f 7, bit f 6, bit f 5, bit f 4⟩, (bs.drop 7).take k, bs.drop (7 + k)⟩
/-- The part of a seat for a shared tag that has come over the links. -/
def State.remotePart (s : State) (stag seat : Nat) : Option Part :=
  (s.remote.find? (fun r => r.1 == stag && r.2.1 == seat)).map (fun r => partOf r.2.2)
/-- The plane's current collective is complete on this device: a SCOPE 1 collective sends this device's part to the other seats. -/
def State.offer (s : State) (g : Nat) : State :=
  match s.current g with
  | none => s
  | some x =>
    let ps := s.givers g x.stag.toNat
    match ps with
    | [] => s
    | p :: _ =>
      if p.2.scope && s.allGiven g x.stag.toNat && (seatOrder x).all s.member then
        (let d := dataPart x.stag.toNat (s.devPart x ps)
         ((seatOrder x).filter (fun b => b != s.seat)).foldl (fun s b => s.sendSeat tyDATA b d) s)
      else s
/-- A contribution handed over by a spine instruction. -/
def State.handOver (s : State) (n : Nat) (x : Contrib) : State :=
  let s1 := s.contribute n x
  match s1.gathOfPhys n with
  | some g => if x.scope && (s1.current g).map (fun y => y.stag.toNat) == some x.stag then s1.offer g else s1
  | none => s1

/-! ## The instructions -/

/-- Is a message of a context on the light path still in a port of this device, its last flit not acknowledged over the link (R382;
DEDUCED, log entry 141)? -/
def State.ctxSends (s : State) (n c : Nat) : Bool :=
  s.lpSent.any (fun x => x.1 == n && x.2.1 == c && s.linkHolds x.2.2)
/-- Does a context have moves, multicasts, receives or light-path messages under way (R382)? -/
def State.ctxMoves (s : State) (n c : Nat) : Bool :=
  s.ctxSends n c || s.movers.any (fun q => q.2.any (fun m => (m.folio == n && m.ctx == c) || m.dests.any (fun r => r.folio == n && r.ctx == c)))
    || s.mleads.any (fun m => m.folio == n && m.ctx == c) || s.mrecvs.any (fun m => m.folio == n && m.ctx == c)
/-- The formats a collective accepts (R460). -/
def spFmtOk (op : Nat) (e : Eng) : Bool :=
  if op = opSPRED then decide (e.fmt ≤ 3) else if op = opSPGATH ∨ op = opSPBCAST then true else e.fmt == 0
def spRopOk (op : Nat) (e : Eng) : Bool :=
  if op = opSPRED then decide (pROP e ≤ 2) else if op = opSPSTAT then decide (pROP e ≤ 1) else pROP e == 0
/-- The bytes of `k` counted things in a contribution. -/
def spBytes (op : Nat) (f : Fmt) (rop k : Nat) (first : Bool) : Nat :=
  if op = opSPSTAT then (if rop = 1 then 8 else 12) * k
  else if op = opSPARG then 8 * k
  else if op = opSPCARRY then (if first then 4 else 8) * k
  else (f.bits * k + 7) / 8
/-- Bytes that the slot does not hold are left open: free values. -/
def State.padFree (s : State) (len : Nat) (bs : List Byte) : List Byte :=
  bs.take len ++ (List.range (len - bs.length)).map (fun i => BitVec.ofNat 8 (Config.freeValue (s.fresh + i)).toNat)
/-- A spine instruction (R453, R460, R463). A folio other than p_0 gives nothing to SPBCAST. -/
def opSpine (op : Nat) (n c : Nat) (e : Eng) (s : State) : SlotOp :=
  let bar := op == opSPBAR
  let first := s.isFirst n (pSTAG e) (pSCOPE e)
  let gives := !bar && !(op == opSPBCAST && !first)
  let fed := gives && ((match s.slot n with | some x => x.ctx == c | none => false) || (s.gates n).any (fun g => g.ctx == c))
  let own := match s.slot n with | some x => x.ctx == c | none => false
  let f := fmtOf s.level e.fmt
  let k := s.sr n c (pSCNT e)
  let a := s.ar n c (pSREG e)
  let d := s.ar n c (pDREG e)
  let len := if gives then spBytes op f (pROP e) k first else 0
  let parts := match s.gathOfPhys n with | some g => (s.party g).length | none => 0
  let out := if bar || op == opSPCARRY || !gives then 0 else if op = opSPGATH then len * parts else len
  engSlot 1 { fmt := true } n c e s
    ([(e.op 33 0 != 0 || (bar && e.op 60 48 != 0), FLD_RESERVED), fmtTrap s e.fmt,
      (e.tag != 0x40 || s.stagBad n (pSTAG e), SEQ_TAG),
      (!bar && ((gives && !fed && badAddr a) || badAddr d), ADDR_FORM),
      (!spRopOk op e || !spFmtOk op e || (gives && (k == 0 || decide (8192 < len))) || (fed && pSREG e != 0), SPN_SHAPE)]
      ++ (if gives && !fed && decide (len ≤ 8192) then s.fmSpan n c (addrOf a) len else [])
      ++ (if decide (out ≤ 8192 * 48) then s.fmSpan n c (addrOf d) out else []))
    (if !(s.contrib n).isEmpty || (s.slot n).isSome && !own || (s.gates n).any (fun g => g.ctx == c) then some .sendSlot
     else if bar && s.ctxMoves n c then some .inside else none)
    (fun t =>
      let x : Contrib := { op := op, fmt := e.fmt, rop := pROP e, count := if gives then k else 0, stag := pSTAG e, scope := pSCOPE e,
                           dest := addrOf d, ctx := c, bytes := [], field := if op = opSPCARRY then fieldSCAN else fieldVEC,
                           owner := (s.ctx n c).owner }
      match t.slot n with
      | some y =>
        if gives && y.ctx == c then
          (let bs := t.padFree len y.bytes
           ({ t with fresh := t.fresh + (bs.length - y.bytes.length) }.setSlot n none).handOver n
             { x with bytes := bs, record := y.record, key := y.key })
        else t.handOver n x
      | none =>
        t.handOver n (if gives then { x with bytes := t.fmBytes n c (addrOf a) len } else x))

def execSpred (a : Issue) (e : Eng) (s : State) : Res := engine (opSpine opSPRED) (some SPN_RESIDUE) a e s
def execSpgath (a : Issue) (e : Eng) (s : State) : Res := engine (opSpine opSPGATH) (some SPN_RESIDUE) a e s
def execSpbcast (a : Issue) (e : Eng) (s : State) : Res := engine (opSpine opSPBCAST) (some SPN_RESIDUE) a e s
def execSpstat (a : Issue) (e : Eng) (s : State) : Res := engine (opSpine opSPSTAT) (some SPN_RESIDUE) a e s
def execSparg (a : Issue) (e : Eng) (s : State) : Res := engine (opSpine opSPARG) (some SPN_RESIDUE) a e s
def execSpbar (a : Issue) (e : Eng) (s : State) : Res := engine (opSpine opSPBAR) (some SPN_RESIDUE) a e s
def execSpcarry (a : Issue) (e : Eng) (s : State) : Res := engine (opSpine opSPCARRY) (some SPN_RESIDUE) a e s

/-! ## Completion (R462, R464 to R468, R472 to R475) -/

/-- The contributions of a shared tag leave the send slots, the plane moves to its next collective (R464, R476), and engines that
the slots held go on. -/
def State.planeNext (s : State) (g stag : Nat) : State :=
  let s1 := (s.party g).foldl (fun s k =>
    (s.setContrib (s.phys k) ((s.contrib (s.phys k)).filter (fun x => x.stag != stag))).gateRun (s.phys k)) s
  let s2 := { s1 with plane := Sp.set (fun _ => 0) s1.plane g ((Sp.get (fun _ => 0) s1.plane g + 1) % max 1 (s1.collSeq g).length),
                      remote := s1.remote.filter (fun r => r.1 != stag) }
  s2.offer g
/-- A result written at a(DREG) of a folio, as far as its context's bound reaches (R334). -/
def State.deliver (s : State) (n : Nat) (x : Contrib) (bs : List Byte) : State :=
  s.fmWrite n x.ctx x.dest (bs.take (s.dFmsize n x.ctx * 4096 - x.dest))
/-- The collector (R466): the payload of a step's result, from the SPGATH that the schedule names for its class. -/
def State.collect (s : State) (x : Contrib) (p : Part) : State :=
  match x.owner with
  | none => s
  | some i =>
    match s.schedClass (s.str i).cls, (s.str i).step with
    | some k, some t =>
      if x.op = opSPGATH ∧ k.result.map (fun b => b.toNat) = some x.stag then
        s.setStr i { s.str i with step := some { t with result := (if t.replayed then t.result else []) ++ p.bytes ++ p.record } }
      else s
    | _, _ => s
/-- A collective fails on every folio that took part (R474, R475): logged, the work of each failed before release. -/
def State.collFail (s : State) (g stag code act : Nat) : State :=
  let ps := s.givers g stag
  let s1 := ps.foldl (fun s p => s.failGiver p.1 p.2 false) s
  (s1.log code 0x41 act (7168 + stag)).planeNext g stag
/-- Would one more SPN_RESIDUE event of a plane withdraw the device (R565)? -/
def State.planeTriggers (s : State) (g : Nat) : Bool :=
  !s.withdrawn && s.recent.any (fun x => x.unit == 0x41 && x.code == SPN_RESIDUE && x.info == g)
/-- An SPN_RESIDUE event counted for its plane; a second within a second withdraws the device (R565). -/
def State.countPlane (s : State) (g : Nat) : State :=
  let s1 := { s with events := s.recent ++ [⟨0x41, SPN_RESIDUE, g, s.rclk⟩] }
  if 2 ≤ (s1.events.filter (fun x => x.unit == 0x41 && x.code == SPN_RESIDUE && x.info == g)).length then s1.withdraw else s1
/-- The parts of every device of a SCOPE 1 collective, in ascending logical device index, when all have come. -/
def State.allParts (s : State) (x : Coll) (own : Part) : Option (List Part) :=
  (seatOrder x).mapM (fun b => if b = s.seat then some own else s.remotePart x.stag.toNat b)
/-- The carries of SPCARRY posted to the inboxes of the folios that take part (R183, R187, R188). -/
def State.carryOutAll (s : State) (x : Coll) (ps : List (Nat × Contrib)) (parts : List Part) : State × Fl :=
  match ps with
  | [] => (s, {})
  | p :: rest =>
    let E := p.2.count
    let d := if p.2.scope then s.devIndex x else 0
    let sums := (if d = 0 then rest else ps).map (fun q => q.2.bytes)
    let e0 := if d = 0 then (p.2.bytes.take (4 * E), ({} : Fl))
      else entryOf E (fun k => (parts.getD k Part.empty).bytes) ((parts.getD 0 Part.empty).bytes) d
    let r := carryChain E sums.dropLast e0.1
    let dst := if d = 0 then rest else ps
    let post := fun (s : State) (q : (Nat × Contrib) × List Byte) =>
      let ws := wordsOf E q.2
      match s.logical q.1.1 with
      | some lf => s.postCarry lf ⟨q.1.2.key, q.1.2.owner.getD 0, 0x3FF, none, ws.map (fun w => (w, 0))⟩
      | none => s
    ((dst.zip r.1).foldl post s, e0.2.or (if sums.isEmpty then {} else r.2))
/-- A collective's result reaches every folio that takes part; its flags merge as the shared tag completes (R462). -/
def State.collDeliver (s : State) (x : Coll) (ps : List (Nat × Contrib)) (parts : List Part) (p : Part) : State :=
  let stag := x.stag.toNat
  let (s0, fl) := match ps with
    | [] => (s, p.fl)
    | q :: _ => if q.2.op = opSPCARRY then (let r := s.carryOutAll x ps parts; (r.1, p.fl.or r.2)) else (s, p.fl)
  let s1 := ps.foldl (fun s q =>
    let n := q.1
    let c := q.2
    let s1 := if c.op = opSXRED then s.setSrow n (sumValue (ofBytes p.bytes))
      else if c.op = opSPBAR ∨ c.op = opSPCARRY then s
      else s.deliver n c p.bytes
    ((s1.holdFl n (7168 + stag) c.field fl).holdFl n (7168 + stag) fieldGATE p.rfl).mergeHeld n (7168 + stag)) s0
  match ps with
  | q :: _ => s1.collect q.2 p
  | [] => s1
/-- COLLECTIVE_COMPLETE: the plane's current collective completes once every contribution is in; a failed check of a beat or a
node is SPN_RESIDUE (R475), a seat outside the charter SPN_MEMBER (R474). -/
def execCollectiveComplete (g : Fin 16) (hw : Hw) (s : State) : Res :=
  match s.current g.val with
  | none => notDue "the plane has no collective"
  | some x =>
    let stag := x.stag.toNat
    let ps := s.givers g.val stag
    match ps with
    | [] => notDue "no contribution is in"
    | q :: _ =>
      if !s.allGiven g.val stag then notDue "a contribution of the plane is missing"
      else if q.2.scope && !(seatOrder x).all s.member then
        .next ((s.bump SPN_CNT 31 16 1).collFail g.val stag 0x2D 1)
      else if hw ≠ .ok then
        .next (((s.bump SPN_CNT 15 0 1).collFail g.val stag SPN_RESIDUE
          (if s.planeTriggers g.val then 9 else 1)).countPlane g.val)
      else
        let own := s.devPart x ps
        if q.2.scope then
          (match s.allParts x own with
           | none => notDue "the part of another device is missing"
           | some parts =>
             let p := if q.2.op = opSPCARRY then ⟨Fl.join (parts.map (fun y => y.fl)), {}, [], []⟩ else rootPart q.2 (treeParts q.2 parts)
             .next ((s.collDeliver x ps parts p).planeNext g.val stag))
        else
          let p := if q.2.op = opSPCARRY then Part.empty else rootPart q.2 own
          .next ((s.collDeliver x ps [] p).planeNext g.val stag)

/-- SPN_LATE (R471): the plane's collective has not completed within its count; the work that waits for it fails. -/
def execSpnLate (g : Fin 16) (s : State) : Res :=
  match s.current g.val with
  | none => notDue "the plane has no collective"
  | some x =>
    let stag := x.stag.toNat
    let ps := s.givers g.val stag
    if ps.isEmpty then notDue "no folio waits for the plane's collective"
    else
      let s1 := (s.bump SPN_CNT 31 16 1).log 0x2C 0x41 1 (7168 + stag)
      .next (ps.foldl (fun s p => s.failGiver p.1 p.2 false) s1)

/-- SPN_PLANE_STAT of plane g as it reads (R478). -/
def State.planeStat (s : State) (g : Nat) : Nat :=
  match s.current g with
  | none => 0
  | some x =>
    let cur := x.stag.toNat
    let busy := !(s.givers g cur).isEmpty
    let wait := ((s.party g).filter (fun k => (s.contrib (s.phys k)).any (fun y => y.stag != cur))).length
    (if busy then 2 ^ 31 + cur else 0) + wait * 2 ^ 16

end Sys2Proof.Machine
end

