-- ==== Sys2Proof/Machine/Cipher.lean ====
section
/-! DEFINITION. AES-256 in Galois/Counter Mode with a 96-bit nonce and a 128-bit tag, as the standard defines it, for the wheel
images of EXPORT and IMPORT (10_streams_and_wheels.md R318 to R323). The standard is named by the manual and lies outside it
(PRESUMED, log entry 36). -/

namespace Sys2Proof.Machine

/-- Doubling in the field of 256 elements. -/
def gf2 (x : Nat) : Nat := if x < 128 then 2 * x else (2 * x % 256) ^^^ 0x1B
/-- The product in the field of 256 elements, from the eight bits of the second factor. -/
def gfMul (x y : Nat) : Nat :=
  ((List.range 8).foldl (fun (a : Nat × Nat) k => (gf2 a.1, if bit y k then a.2 ^^^ a.1 else a.2)) (x, 0)).2
/-- The inverse as the 254th power; zero goes to zero. -/
def gfInv (x : Nat) : Nat :=
  let x2 := gfMul x x
  let x3 := gfMul x2 x
  let x6 := gfMul x3 x3
  let x12 := gfMul x6 x6
  let x15 := gfMul x12 x3
  let x30 := gfMul x15 x15
  let x60 := gfMul x30 x30
  let x120 := gfMul x60 x60
  let x126 := gfMul x120 x6
  let x127 := gfMul x126 x
  gfMul x127 x127
/-- A byte rotated left. -/
def rotl8 (x k : Nat) : Nat := (x * 2 ^ k + x / 2 ^ (8 - k)) % 256
/-- The substitution of AES. -/
def sbox (x : Nat) : Nat :=
  let b := gfInv x
  b ^^^ rotl8 b 1 ^^^ rotl8 b 2 ^^^ rotl8 b 3 ^^^ rotl8 b 4 ^^^ 0x63

/-- Exclusive or of byte lists. -/
def xorL (a b : List Nat) : List Nat := List.zipWith (fun x y => x ^^^ y) a b
/-- One word of the key schedule of AES-256: `ws` the words so far, newest first, `k` the number of the next. -/
def keyWord (ws : List (List Nat)) (k rcon : Nat) : List Nat :=
  let t := ws.headD []
  let old := ws.getD 7 []
  let t' := if k % 8 = 0 then xorL ((t.drop 1 ++ t.take 1).map sbox) [rcon, 0, 0, 0]
    else if k % 8 = 4 then t.map sbox else t
  xorL old t'
/-- The key schedule: sixty words, newest first. -/
def keyWords (ws : List (List Nat)) (k rcon : Nat) : Nat → List (List Nat)
  | 0 => ws
  | fuel + 1 => keyWords (keyWord ws k rcon :: ws) (k + 1) (if k % 8 = 0 then gf2 rcon else rcon) fuel
/-- The fifteen round keys of a 32-byte key. -/
def roundKeys (key : List Nat) : List (List Nat) :=
  let w0 := (List.range 8).map (fun i => (key.drop (4 * i)).take 4)
  let ws := (keyWords w0.reverse 8 1 52).reverse
  (List.range 15).map (fun r => ((ws.drop (4 * r)).take 4).flatten)

/-- Rows shifted and columns mixed; byte r + 4c stands at row r, column c. -/
def shiftRows (st : List Nat) : List Nat := (List.range 16).map (fun i => st.getD ((i + 4 * (i % 4)) % 16) 0)
def mixCol (a : List Nat) : List Nat :=
  (List.range 4).map (fun i =>
    gf2 (a.getD i 0) ^^^ (gf2 (a.getD ((i + 1) % 4) 0) ^^^ a.getD ((i + 1) % 4) 0) ^^^ a.getD ((i + 2) % 4) 0 ^^^ a.getD ((i + 3) % 4) 0)
def mixCols (st : List Nat) : List Nat := (List.range 4).flatMap (fun c => mixCol ((st.drop (4 * c)).take 4))
/-- The block cipher over 16 bytes. -/
def aesBlock (rk : List (List Nat)) (blk : List Nat) : List Nat :=
  let s0 := xorL blk (rk.headD [])
  let s1 := (List.range 13).foldl (fun st r => xorL (mixCols (shiftRows (st.map sbox))) (rk.getD (r + 1) [])) s0
  xorL (shiftRows (s1.map sbox)) (rk.getD 14 [])

/-- Bytes to a number and back, the first byte the most significant, as GCM numbers them. -/
def ofBe (bs : List Nat) : Nat := bs.foldl (fun a b => a * 256 + b) 0
def toBe (n v : Nat) : List Nat := (List.range n).map (fun i => v / 256 ^ (n - 1 - i) % 256)
/-- The product of GHASH: x taken from its most significant bit. -/
def ghMul (x y : Nat) : Nat :=
  ((List.range 128).foldl (fun (a : Nat × Nat) i =>
    ((if bit a.1 0 then (a.1 / 2) ^^^ (0xE1 * 2 ^ 120) else a.1 / 2), if bit x (127 - i) then a.2 ^^^ a.1 else a.2)) (y, 0)).2
/-- A byte list cut into blocks of 16, the last one filled with zeros. -/
def blocks16 : (fuel : Nat) → List Nat → List (List Nat)
  | 0, _ => []
  | fuel + 1, bs => if bs.isEmpty then [] else (bs.take 16 ++ List.replicate (16 - bs.length) 0) :: blocks16 fuel (bs.drop 16)
/-- GHASH over additional data and ciphertext. -/
def ghash (h : Nat) (aad ct : List Nat) : Nat :=
  let bl := blocks16 (aad.length + 1) aad ++ blocks16 (ct.length + 1) ct ++ [toBe 8 (8 * aad.length) ++ toBe 8 (8 * ct.length)]
  bl.foldl (fun a b => ghMul (a ^^^ ofBe b) h) 0
/-- Counter mode from block number `k` on. -/
def ctrMode (rk : List (List Nat)) (nonce : List Nat) (bs : List Nat) : List Nat :=
  let bl := blocks16 (bs.length + 1) bs
  (((List.range bl.length).flatMap (fun i => xorL (bl.getD i []) (aesBlock rk (nonce ++ toBe 4 (i + 2)))))).take bs.length
/-- The tag of AES-256-GCM. -/
def gcmTag (rk : List (List Nat)) (nonce aad ct : List Nat) : List Nat :=
  let h := ofBe (aesBlock rk (List.replicate 16 0))
  xorL (toBe 16 (ghash h aad ct)) (aesBlock rk (nonce ++ toBe 4 1))

/-- The key's bytes: the lowest word of KEY_LOAD first (R609). -/
def keyBytes (key : BitVec 256) : List Nat := (List.range 32).map (fun i => key.toNat / 256 ^ i % 256)
def natsOf (bs : List Byte) : List Nat := bs.map BitVec.toNat
def bytesOf (ns : List Nat) : List Byte := ns.map (BitVec.ofNat 8)
/-- Encryption of a plaintext under a key and nonce with additional data: ciphertext and tag. -/
def gcmSeal (key : BitVec 256) (nonce aad pt : List Byte) : List Byte :=
  let rk := roundKeys (keyBytes key)
  let ct := ctrMode rk (natsOf nonce) (natsOf pt)
  bytesOf (ct ++ gcmTag rk (natsOf nonce) (natsOf aad) ct)
/-- Decryption; none where the tag does not verify. -/
def gcmOpen (key : BitVec 256) (nonce aad ct tag : List Byte) : Option (List Byte) :=
  let rk := roundKeys (keyBytes key)
  if gcmTag rk (natsOf nonce) (natsOf aad) (natsOf ct) = natsOf tag then some (bytesOf (ctrMode rk (natsOf nonce) (natsOf ct))) else none

end Sys2Proof.Machine
end

