-- ==== Sys2Proof/Machine/Moves.lean ====
section
/-! DEFINITION. The move instructions (12_movement_and_hbm.md R366 to R384, 14_instruction_encoding.md R452). -/

namespace Sys2Proof.Machine

/-! ## Operands -/

/-- The end of the spare-free HBM range (R370). -/
def hbmTop : Nat := 0xF80000000
/-- The traps of an HBM range (R395). -/
def hbmTraps (a len : Nat) : List (Bool × Nat) :=
  [(badHbm a, ADDR_FORM), (hbmOf a % 256 != 0, XF_ALIGN), (decide (hbmTop < hbmOf a + len), XF_RANGE)]
/-- The traps of a folio memory end. -/
def State.fmEndTraps (s : State) (n c a len : Nat) : List (Bool × Nat) :=
  [(badAddr a, ADDR_FORM), (addrOf a % 128 != 0, XF_ALIGN)] ++ s.fmSpan n c (addrOf a) len
/-- The traps of a striped vat end: handle h + i takes every STRIPE-th granule (R367). -/
def State.vatEndTraps (s : State) (n a len stripe : Nat) (right : Nat → Bool) : List (Bool × Nat) :=
  let h := vatHandle a
  let k := min stripe 8
  [(badVat a, ADDR_FORM), (vatOff a % 128 != 0, XF_ALIGN), (decide (1023 < h + k - 1), VAT_HANDLE)]
    ++ (List.range k).flatMap (fun i =>
      s.vatTraps n ((h + i) % 1024) (vatOff a) (256 * ((len / 256 + k - 1 - i) / k)) (right ((h + i) % 1024)))
/-- The traps of one end of a move: kinds 0 HBM, 1 vat, 2 folio memory. -/
def State.endTraps (s : State) (n c kind a len stripe : Nat) (right : Nat → Bool) : List (Bool × Nat) :=
  match kind with
  | 0 => hbmTraps a len
  | 1 => s.vatEndTraps n a len stripe right
  | 2 => s.fmEndTraps n c a len
  | _ => [(true, FLD_RESERVED)]
/-- An end as the mover keeps it. -/
def State.endOf (s : State) (n c kind a : Nat) : MoveEnd :=
  match kind with
  | 0 => .hbm (hbmOf a)
  | 1 => .vat (vatHandle a) (vatOff a)
  | _ => .fm (s.fmPhys n c (addrOf a))
/-- The traps of a move's length (R395). -/
def moveLenTraps (len : Nat) : List (Bool × Nat) :=
  [(len % 256 != 0, XF_ALIGN), (len == 0 || decide (2 ^ 24 < len), XF_LEN)]
/-- A full queue holds the context at issue (R368). -/
def State.queueWait (s : State) (n : Nat) : Option WaitK := if s.queueRoom n then none else some .queue

/-! ## XFER, XSTREAM, XREL -/

/-- XFER; REL releases after the mover's last read (R439). -/
def opXfer (n c : Nat) (e : Eng) (s : State) : SlotOp :=
  let a := s.ar n c (e.op 60 57)
  let d := s.ar n c (e.op 54 51)
  let sk := e.op 56 55
  let dk := e.op 50 49
  let len := s.sr n c (e.op 48 44)
  let stripe := e.op 43 40
  engSlotKeep 1 {} n c e s
    ([(e.op 39 0 != 0, FLD_RESERVED), (sk != 0 && dk != 0 || stripe == 0 || decide (8 < stripe), XF_DEST)] ++ moveLenTraps len
      ++ s.endTraps n c sk a len stripe s.sigRd ++ s.endTraps n c dk d len stripe s.sigWr)
    (s.queueWait n) (fun t =>
      t.addMove n c (s.engTag n c e) (s.endOf n c sk a) (s.endOf n c dk d) len stripe
        (.xfer (if e.rel then some e.rstrm.toNat else none)) [])

def opXstream (n c : Nat) (e : Eng) (s : State) : SlotOp :=
  let k := e.op 60 58
  let a := s.ar n c (e.op 57 54)
  let r := s.ar n c (e.op 53 50)
  let vat := e.opb 49
  let B := s.sr n c (e.op 48 44)
  let N := s.sr n c (e.op 43 39)
  let str := s.sr n c (e.op 38 34)
  let D := e.op 33 30
  let span := (N - 1) * str + B
  let ringLen := D * B
  let passes := if vat then decide (s.sigSize (vatHandle r) < vatOff r + ringLen) else s.fmOut n c (addrOf r) ((addrOf r + ringLen : Nat) - 1 : Int)
  engSlot 1 {} n c e s
    ([(e.op 29 0 != 0, FLD_RESERVED), ((s.openFetch n c k).isSome, XF_STREAM), (B % 256 != 0 || str % 256 != 0, XF_ALIGN),
      (B == 0 || decide (65536 < B) || N == 0 || decide (2 ^ 24 < N), XF_LEN), (D == 0 || decide (8 < D) || passes, XF_DEPTH)]
      ++ hbmTraps a span ++ (if vat then s.vatEndTraps n r ringLen 1 s.sigWr else s.fmEndTraps n c r ringLen))
    (s.queueWait n) (fun t =>
      let f : Fetch := { tag := s.engTag n c e, base := hbmOf a, stride := str, tileBytes := B, tiles := N, depth := D,
                         ring := s.endOf n c (if vat then 1 else 2) r, issued := 0, released := 0, landed := [],
                         opened := t.moveId, cancelled := false }
      (t.setFetch n c k (some f)).issueTiles n c k)

def opXrel (n c : Nat) (e : Eng) (s : State) : SlotOp :=
  let k := e.op 60 58
  let count := e.op 57 49
  let past := match s.fetchSt n c k with | some f => !f.cancelled && decide (f.tiles < f.released + count) | none => true
  engSlot 1 {} n c e s
    [(e.op 48 0 != 0, FLD_RESERVED), (past || count == 0 || decide (256 < count), XF_STREAM)] none
    (fun t => t.relTiles n c k count)

/-! ## Multicast (R383) -/

/-- The receives that a waiting multicast needs, when every named folio has posted its own. -/
def State.mcReady (s : State) (m : McLead) : Option (List McRecv) :=
  (members m.mask).mapM (fun k => s.mrecvs.find? (fun r => r.folio == s.phys k && r.key == m.key && r.len == m.len))
/-- Multicasts whose receives are all posted start: one move of the leader's mover that lands in every destination. -/
def State.startMcasts (s : State) : State :=
  s.mleads.foldl (fun s m =>
    match s.mcReady m with
    | none => s
    | some rs =>
      let s1 := { s with mleads := s.mleads.erase m, mrecvs := rs.foldl (fun l r => l.erase r) s.mrecvs }
      s1.addMove m.folio m.ctx m.tag (.hbm m.src) (.fm 0) m.len 1 .mcast rs) s

def opXmcast (n c : Nat) (e : Eng) (s : State) : SlotOp :=
  let a := s.ar n c (e.op 60 57)
  let mask := s.srPair n c (e.op 56 52)
  let len := s.sr n c (e.op 51 47)
  let g := match s.gathOfPhys n with | some g => s.gmask g | none => 0
  engSlot 1 {} n c e s
    ([(e.op 30 0 != 0, FLD_RESERVED), (e.op 56 52 % 2 != 0, REG_RANGE), (decide (2 ^ 48 ≤ mask), ADDR_FORM),
      (mask == 0 || mask &&& g != mask, XF_DEST)] ++ moveLenTraps len ++ hbmTraps a len)
    (s.queueWait n) (fun t =>
      { t with mleads := t.mleads ++ [(⟨n, c, s.engTag n c e, e.op 46 31, len, hbmOf a, mask⟩ : McLead)] }.startMcasts)

def opXmrecv (n c : Nat) (e : Eng) (s : State) : SlotOp :=
  let d := s.ar n c (e.op 60 57)
  let len := s.sr n c (e.op 56 52)
  engSlot 1 {} n c e s ((e.op 35 0 != 0, FLD_RESERVED) :: (moveLenTraps len ++ s.fmEndTraps n c d len))
    (s.queueWait n) (fun t =>
      { t with mrecvs := t.mrecvs ++ [(⟨n, c, s.engTag n c e, e.op 51 36, len, s.fmPhys n c (addrOf d)⟩ : McRecv)] }.startMcasts)

/-! ## The light path (R384) -/

def opLpmsg (n c : Nat) (e : Eng) (s : State) : SlotOp :=
  let a := s.ar n c (e.op 60 57)
  let z := s.ar n c (e.op 56 53)
  let len := e.op 52 44
  let seat := e.op 43 34
  let h := vatHandle z
  let local' := seat == 0x3FF || seat == s.seat
  let ring := (s.logical n).bind (s.folioRing h)
  let out := s.outRing seat h
  let key := if local' then (match ring with | some r => ringKey h r.num.toNat | none => 0)
    else match out with | some r => remoteKey seat h r.num.toNat | none => 0
  let known := if local' then ring.isSome else out.isSome
  engSlot 1 {} n c e s
    ([(e.op 33 0 != 0, FLD_RESERVED), (badAddr a || badVat z, ADDR_FORM), (len == 0 || decide (256 < len), LP_LEN),
      (local' && s.sigKind h != 4, LZ_KIND), (!known, LZ_CREDIT)]
      ++ (if local' then s.vatTraps n h 0 (s.sigSize h) true else []) ++ s.fmSpan n c (addrOf a) len)
    (if s.credit key = 0 then some .credit else none) (fun t =>
      let bs := s.fmBytes n c (addrOf a) len
      let t1 := t.setCredit key (t.credit key - 1)
      if local' then (match ring with | some r => t1.ringPut r 1 bs | none => t1)
      else (match out with | some r => t1.sendLight n c seat (msgLight h r.num.toNat bs) | none => t1))

/-! ## Commands -/

def execXfer (a : Issue) (e : Eng) (s : State) : Res := engine opXfer none a e s
def execXstream (a : Issue) (e : Eng) (s : State) : Res := engine opXstream none a e s
def execXrel (a : Issue) (e : Eng) (s : State) : Res := engine opXrel none a e s
def execXmcast (a : Issue) (e : Eng) (s : State) : Res := engine opXmcast none a e s
def execXmrecv (a : Issue) (e : Eng) (s : State) : Res := engine opXmrecv none a e s
def execLpmsg (a : Issue) (e : Eng) (s : State) : Res := engine opLpmsg none a e s

end Sys2Proof.Machine
end

