-- ==== Sys2Proof/Machine/HbmEvents.lean ====
section
/-! DEFINITION. What the movers and the stacks report (12_movement_and_hbm.md R373 to R375, R381, R387 to R390): granules that
end, refresh windows, acknowledged cancellations, tags that complete, and retired pseudo-channels. -/

namespace Sys2Proof.Machine

def HBM_READ_FAIL : Nat := 0x30
def HBM_WRITE_FAIL : Nat := 0x31
def HBM_DATA_LOST : Nat := 0x32
def HBM_PC_RETIRED : Nat := 0x33
def HBM_SPARE_SPENT : Nat := 0x34
def HBM_TRAIN_FAIL : Nat := 0x35
def MOVE_WAIT_LATE : Nat := 0x2A
def HBM_LATE : Nat := 0x2B

/-! ## Pseudo-channels (R390) -/

/-- The granule address A >> 8 that stands for a pseudo-channel in the fault log: its first granule (DESIGN CHOICE, log entry 20). -/
def pcInfo (k p : Nat) : Nat := 4 * p + k
/-- A pseudo-channel is retired: refused where the stack has used its spare, and the device withdraws (R390, R565); else it
drains, or enters RETIRED at once after a failed tracking run. -/
def State.retirePc (s : State) (k p : Nat) (atOnce : Bool) : State :=
  if s.pcState k p ≠ 0 then s
  else if s.rbit HBM_STAT (4 + k) then (s.log HBM_SPARE_SPENT (0xA0 + k) 9 (pcInfo k p)).withdraw
  else ((s.setBit HBM_STAT (4 + k) true).setPcState k p (if atOnce then 2 else 1)).log HBM_PC_RETIRED (0xA0 + k) 6 (pcInfo k p)
/-- The granules of a draining pseudo-channel copied to its siblings (R390). -/
def State.drainCopy (s : State) (k p : Nat) : State :=
  { s with hbm := s.hbm.foldl (fun m e =>
      if usable e.1 && hbmStack e.1 == k && bits e.1 14 10 == p then Memory.setByte m (spareOf e.1) e.2 else m) s.hbm }
/-- PC_RETIRE_DONE: the copy pass of a stack ends and its map switches. -/
def execPcRetireDone (k : Fin 4) (s : State) : Res :=
  match (List.range 32).find? (fun p => s.pcState k.val p == 1) with
  | some p => .next ((s.drainCopy k.val p).setPcState k.val p 2)
  | none => notDue "no pseudo-channel of the stack drains"

/-! ## The check of a burst (R388) -/

/-- One bit, and one byte, into a CRC-16 register, the most significant bit first. -/
def crc16Shift (c : Nat) : Nat := if c < 2 ^ 15 then 2 * c else (2 * c % 2 ^ 16) ^^^ 0x8BB7
def crc16Byte (c : Nat) (b : Byte) : Nat := (List.range 8).foldl (fun c _ => crc16Shift c) (c ^^^ (b.toNat * 256))
/-- The check of the 32 bytes of the burst at an address. -/
def burstCheck (a : Nat) (bs : List Byte) : Nat := (bs ++ toBytes 4 (a / 32)).foldl crc16Byte 0

/-! ## Granules (R373, R389) -/

/-- The first error since the last clear, in HBM_ERR_LOG (R393). -/
def State.hbmErrLog (s : State) (a kind : Nat) : State :=
  let k := hbmStack a
  if s.rbit (HBM_ERR_LOG_HI k) 31 then s
  else (s.setReg (HBM_ERR_LOG_LO k) (bits a 31 5 * 32)).setReg (HBM_ERR_LOG_HI k) (2 ^ 31 + kind * 2 ^ 28 + bits a 35 32)
/-- Where granule g of a move lies in an on-die source: memory code and key. -/
def State.granSrc (s : State) (m : Move) (g : Nat) : Option (Nat × Nat) :=
  match m.src.granule m.stripe g with
  | .vat h o => some (6, s.sigBase h + o)
  | .fm a => some (0, m.folio * 2 ^ 20 + a)
  | _ => none
/-- The address of a byte of an on-die source, as FOLIO_PERR and VAT_PERR give it. -/
def srcAddr (k : Nat × Nat) (off : Nat) : Nat := if k.1 = 6 then k.2 + off else (k.2 + off) % 2 ^ 20
/-- A rising list with a number added. -/
def addRising (l : List Nat) (g : Nat) : List Nat := l.takeWhile (fun x => decide (x < g)) ++ g :: l.dropWhile (fun x => decide (x < g))
/-- The last granule of a move has landed: a tile of a fetch stream is marked so (R379); REL of an XFER releases its tile (R439). -/
def State.moveLanded (s : State) (m : Move) : State :=
  match m.owner with
  | .tile k j id =>
    (match s.openFetch m.folio m.ctx k with
     | some f => if f.opened = id then s.setFetch m.folio m.ctx k (some { f with landed := f.landed ++ [j] }) else s
     | none => s)
  | .xfer (some k) => s.relOne m.folio m.ctx k
  | _ => s
/-- Granule g of a move has ended, and its credit returns: a stale one is counted (R381), and the last one ends the move. A step's
cancellation is counted with its last stale granule. Tiles that waited for a place in the mover's queues are issued (R378). -/
def State.granEnd (s : State) (q : Nat) (m : Move) (g : Nat) : State :=
  let put := fun (s : State) (m' : Move) => s.setMover q ((s.mover q).map (fun x => if x.id == m.id then m' else x))
  let del := fun (s : State) => s.setMover q ((s.mover q).filter (fun x => x.id != m.id))
  let s0 := s.dequeue m.id g
  let s1 := match m.stale with
    | some gs =>
      let s1 := s0.bump (MOVER_CNT q) 31 16 1
      let rest := gs.erase g
      if rest.isEmpty then
        (let s2 := del s1
         if m.tag < 4096 ∧ (s2.mover q).all (fun x => x.tag != m.tag) then s2.bump (MOVER_CNT q) 15 0 1 else s2)
      else put s1 { m with stale := some rest }
    | none =>
      let done := addRising m.done g
      if done.length = m.total then (del s0).moveLanded m else put s0 { m with done := done }
  s1.issueWaiting q
/-- The second copy of the golden granule at an HBM address, where it lies in a golden copy of a loaded schedule or of a firmware image
for one (R357, R391, R574). -/
def State.secondCopy (s : State) (a : Nat) : Option Nat :=
  let covers := fun (g : Golden) => decide (g.hbm.toNat ≤ a) && decide (a < g.hbm.toNat + g.count * 4096)
  s.scheds.findSome? (fun x =>
    if x.golden.any covers || (s.image.toList ++ s.staged.toList).any (fun f => f.golden.any (fun m => m.1 == x.ident && covers m.2))
        || x.handles.any (fun h => s.sigV h.toNat && s.sigKind h.toNat == 3
            && decide (s.sigGaddr h.toNat * 4096 ≤ a) && decide (a < s.sigGaddr h.toNat * 4096 + s.sigSize h.toNat))
    then some (a + x.second * 256) else none)
/-- `n` bytes of a golden copy read from the second copy, from which the device agent rewrites the first (R391). -/
def State.rewriteGolden (s : State) (a n : Nat) : State :=
  match s.secondCopy a with
  | some b => s.hbmWrite a (s.hbmBytes b n)
  | none => s
/-- Data that two reads have not given (R389): a golden granule is read from its second copy; a stream with MIRROR waits for its
buddy's, and one without pauses with STEP_FAILED. -/
def State.dataLost (s : State) (tag folio a : Nat) : State :=
  let s1 := s.log HBM_DATA_LOST (0xA0 + hbmStack a) 2 (a / 256)
  if (s.secondCopy (a / 256 * 256)).isSome then (s1.rewriteGolden (a / 256 * 256) 256).failTagWork tag folio false
  else if (s1.str tag).mirror then
    (let s2 := s1.failStep tag false
     match (s2.str tag).step with
     | some t => s2.setStr tag { s2.str tag with step := some { t with lost := true } }
     | none => s2)
  else s1.endStep tag 5
/-- A read for the work of a tag that fails at a burst (R389): counted and logged, and the work fails; a second failure of the granule
within the step's attempts means that the data are lost; the eighth within a second retires the pseudo-channel. -/
def State.readFail (s : State) (tag folio a kind : Nat) : State :=
  let k := hbmStack a
  let gran := a / 256 * 256
  let s1 := (s.bump (HBM_ERR_CNT k) 15 0 1).hbmErrLog a kind
  let again := match (s1.str tag).step with
    | some t => decide (tag < 4096) && t.readFails.contains gran
    | none => false
  let s2 :=
    if again then s1.dataLost tag folio a
    else
      let s2 := (s1.log HBM_READ_FAIL (0xA0 + k) 1 (a / 256)).failTagWork tag folio false
      match (s2.str tag).step with
      | some t => if tag < 4096 then s2.setStr tag { s2.str tag with step := some { t with readFails := t.readFails ++ [gran] } }
                  else s2
      | none => s2
  let p := s.hbmPc a
  let s3 := { s2 with events := s2.recent ++ [⟨0xA0 + k, HBM_READ_FAIL, p, s.rclk⟩] }
  let hits : List FEvent := s3.events.filter (fun x => x.unit == 0xA0 + k && x.code == HBM_READ_FAIL && x.info == p)
  if 8 ≤ hits.length then s3.retirePc k p false else s3
/-- Has a step's result been released, so that every check of its reads has passed (R25)? -/
def State.isReleased (s : State) (tag : Nat) : Bool := decide (tag < 4096) && (s.str tag).step.any (fun t => t.released)
/-- A write whose check fails (R389): it is repeated once; the second time its work fails. -/
def State.writeFail (s : State) (q : Nat) (m : Move) (g a : Nat) : State :=
  let s1 := (s.bump (HBM_ERR_CNT (hbmStack a)) 15 0 1).hbmErrLog a 2
  if m.retried.contains g then
    ((s1.granEnd q m g).log HBM_WRITE_FAIL (0xA0 + hbmStack a) 1 (a / 256)).failTagWork m.tag m.folio false
  else
    let s2 := s1.log HBM_WRITE_FAIL (0xA0 + hbmStack a) 0 (a / 256)
    s2.setMover q ((s2.mover q).map (fun x => if x.id == m.id then { x with retried := x.retried ++ [g] } else x))

/-- HBM_GRANULE_DONE: the granule that its pseudo-channel serves next ends (R372); none in D1 and D2 (R392). -/
def execHbmGranuleDone (q : Fin 10) (id g : Nat) (o : GranOut) (s0 : State) : Res :=
  let s := s0.drive
  match (s.mover q.val).find? (fun m => m.id == id) with
  | none => notDue "the mover has no such move"
  | some m =>
    let a := m.hbmAddr g
    let land := (s.granLand m g (s.granRead m g))
    let d := s.fld PM_STATE 31 29
    let bad := (s.granSrc m g).bind (fun k => s.badIn k.1 k.2 256)
    if !s.served q.val id g then notDue "the granule is not the next of its pseudo-channel"
    else if d = 1 ∨ d = 2 then notDue "the stacks are in self-refresh (R392)"
    else match o with
      | .done => if bad.isSome then notDue "the source has bad parity (R355)" else .next (land.granEnd q.val m g)
      | .corrected =>
        if m.reads then .next ((land.bump (HBM_ERR_CNT (hbmStack a)) 31 16 1).granEnd q.val m g)
        else notDue "the granule is not a read"
      | .severity b =>
        if m.reads then .next ((s.granEnd q.val m g).readFail m.tag m.folio (a + 32 * b.val) 0) else notDue "the granule is not a read"
      | .crc b data check =>
        if !m.reads then notDue "the granule is not a read"
        else if data.length = 32 ∧ burstCheck (a + 32 * b.val) data = check.toNat then notDue "the burst agrees with its check (R388)"
        else .next ((s.granEnd q.val m g).readFail m.tag m.folio (a + 32 * b.val) 1)
      | .writeFail b =>
        (match m.dst with
         | .hbm w => .next (s.writeFail q.val m g (w + 256 * g + 32 * b.val))
         | _ => notDue "the granule is not a write")
      | .parity off =>
        (match s.granSrc m g with
         | none => notDue "the granule's source is not on the die"
         | some k =>
           if s.isReleased m.tag then notDue "the step's reads have passed their checks (R25)"
           else .next ((s.granEnd q.val m g).tagParity m.folio m.tag k.1 (srcAddr k off.toNat)))

/-- HBM_LATE (R375): a granule misses the bound of R373 plus refresh; the work that carries it fails. -/
def execHbmLate (q : Fin 10) (id g : Nat) (s0 : State) : Res :=
  let s := s0.drive
  match (s.mover q.val).find? (fun m => m.id == id) with
  | none => notDue "the mover has no such move"
  | some m =>
    if (s.creditedOf id).contains g then
      .next ((((s.hbmErrLog (m.hbmAddr g) 3).log HBM_LATE (0x42 + q.val) 1 m.tag)).failTagWork m.tag m.folio false)
    else notDue "the granule holds no credit"
/-- MOVE_WAIT_LATE (R383): a multicast leader waits beyond its count. -/
def execMoveWaitLate (n : Fin 50) (c : Fin 4) (s : State) : Res :=
  match s.mleads.find? (fun m => m.folio == n.val && m.ctx == c.val) with
  | some m => .next ((s.log MOVE_WAIT_LATE (0x42 + n.val / 5) 1 m.tag).failTagWork m.tag m.folio false)
  | none => notDue "no multicast of the context waits"

/-! ## Refresh windows (R374) -/

/-- REFRESH_WINDOW: counted; temperatures are read; a pseudo-channel whose tracking run fails is retired at once (R389, R390). -/
def execRefreshWindow (temps : BitVec 32) (failed : List (Fin 4 × Fin 32)) (s : State) : Res :=
  let d := s.fld PM_STATE 31 29
  if s.inReset then notDue "the device is in reset"
  else if d = 1 ∨ d = 2 then notDue "the stacks are in self-refresh"
  else
    let s1 := s.setReg HBM_REFWIN (s.reg HBM_REFWIN + 1)
    let s2 := (List.range 4).foldl (fun s k =>
      if s.rbit HBM_STAT k then s.setFld (HBM_TEMP k) 7 0 (bits temps.toNat (8 * k + 7) (8 * k)) else s) s1
    .next (failed.foldl (fun s f => (s.hbmErrLog (1024 * f.2.val + 256 * f.1.val) 4).retirePc f.1.val f.2.val true) s2)

/-! ## Tags (R381, R409) -/

/-- CANCEL_ACK: with no stale granule left, the tag enters DONE with status CANCELLED. -/
def execCancelAck (n : Fin 50) (k : BitVec 6) (s : State) : Res :=
  match s.logical n.val with
  | none => notDue "the folio holds no logical index"
  | some lf =>
    let tag := folioTag lf k.toNat
    if (s.tag lf k.toNat).st ≠ .cancelling then notDue "the tag is not being cancelled"
    else if s.moverHolds tag then notDue "a stale granule of the tag is still to land"
    else .next ((s.bump (MOVER_CNT (n.val / 5)) 15 0 1).tagDone n.val lf k.toNat 1)
/-- Does a suspended instruction of a context carry folio tag k? -/
def Ctx.holdsTag (x : Ctx) (k : Nat) : Bool := (x.resume.valid && bits x.resume.bundle.toNat 87 81 == k) || x.inside.any (fun r => bits r.bundle.toNat 87 81 == k)
/-- TAG_DONE: the last work issued under a closed tag has completed; a receive that ended with its leader makes the record CANCELLED
(R383). -/
def execTagDone (n : Fin 50) (k : BitVec 6) (s : State) : Res :=
  match s.logical n.val with
  | none => notDue "the folio holds no logical index"
  | some lf =>
    let r := s.tag lf k.toNat
    if r.st ≠ .closed then notDue "the tag is not closed"
    else if s.moverHolds (folioTag lf k.toNat) || s.engHolds n.val (folioTag lf k.toNat) || (s.ctx n.val r.ctx).holdsTag k.toNat then notDue "work of the tag is still to complete"
    else .next (s.tagDone n.val lf k.toNat r.status)

end Sys2Proof.Machine
end

