-- ==== Sys2Proof/Machine/Wheel.lean ====
section
/-! DEFINITION. The wheel in HBM, the check of a result and the mirror of a wheel (10_streams_and_wheels.md R291 to R297,
16_linueton_systems.md R510 to R513). -/

namespace Sys2Proof.Machine

/-- A wheel header (R291). -/
def wheelHeader (wsize handle key sched cseq cursor lastSeq epoch rcheck : Nat) : List Byte :=
  let b := toBytes 4 0x48574C32 ++ toBytes 2 wsize ++ toBytes 2 0 ++ toBytes 4 handle ++ toBytes 4 key ++ toBytes 8 sched
    ++ toBytes 8 cseq ++ toBytes 8 cursor ++ toBytes 4 lastSeq ++ toBytes 4 epoch ++ toBytes 8 rcheck ++ List.replicate 192 0
  b ++ toBytes 8 (crc64 b)
/-- Stream i's header with the values of R292. -/
def State.headerOf (s : State) (i cseq cursor lastSeq rcheck : Nat) : List Byte :=
  let x := s.str i
  wheelHeader x.wsize (s.handle i) x.key x.sched cseq cursor lastSeq (s.reg CH_EPOCH) rcheck
/-- Stream i's header written into a slot. -/
def State.writeHeader (s : State) (i : Nat) (slot : Bool) (cseq cursor lastSeq rcheck : Nat) : State :=
  s.hbmWrite (s.wheelAddr i slot) (s.headerOf i cseq cursor lastSeq rcheck)
/-- The bytes of a slot of stream i's wheel. -/
def State.slotBytes (s : State) (i : Nat) (slot : Bool) : List Byte := s.hbmBytes (s.wheelAddr i slot) ((s.str i).wsize * 256)

/-- A mirror message (R510). -/
def State.mirrorBytes (s : State) (i : Nat) (slot : Bool) (cseq : Nat) : List Byte :=
  let x := s.str i
  let h := toBytes 4 x.originHandle ++ toBytes 2 x.originSeat ++ toBytes 2 x.wsize ++ toBytes 4 (s.handle i) ++ toBytes 1 x.cls
    ++ toBytes 1 (if x.resident then 1 else 0) ++ toBytes 2 0 ++ toBytes 8 x.sched ++ toBytes 8 cseq
    ++ toBytes 4 (s.reg CH_EPOCH) ++ toBytes 4 0
  let img := s.slotBytes i slot
  h ++ toBytes 8 (crc64 (h ++ img)) ++ img
/-- A slot of stream i's wheel sent to its buddy, in parallel with the writes into HBM (R511); the time of CH_MIRROR.TO runs from here
(R512). -/
def State.sendMirror (s : State) (i : Nat) (slot : Bool) (cseq : Nat) : State :=
  let x := s.str i
  (s.setStr i { x with timer := s.rclk }).sendSeat tyMIRROR x.buddy ((s.landed i).mirrorBytes i slot cseq)
/-- The payloads of MACK and MREL (R510, R512; the order of their fields is a DESIGN CHOICE, log entry 16). -/
def mackBytes (seat handle cseq status : Nat) : List Byte :=
  toBytes 2 seat ++ toBytes 2 0 ++ toBytes 4 handle ++ toBytes 8 cseq ++ toBytes 1 status
def mrelBytes (seat handle : Nat) : List Byte := toBytes 2 seat ++ toBytes 2 0 ++ toBytes 4 handle

/-- Is the hoop running (R506, R508)? -/
def State.hoopRuns (s : State) : Bool := s.hoop.standing || decide (s.rclk < s.hoop.ends)

/-- A result message (R316) and its check (R297). -/
def resultMsg (handle seq bid cseq : Nat) (payload : List Byte) : List Byte :=
  msgHeader 0xC1 0 handle seq bid cseq payload.length ++ payload
def resultCheck (m : List Byte) : Nat := crc64 (((m.take 28).drop 4) ++ m.drop 32)

/-! ## The new wheel's header (R268, R292, R366) -/

/-- The draws of a step of the stream, as the schedule that its descriptor names records them for its class (R268, R284). -/
def State.draws (s : State) (i : Nat) : Nat :=
  let x := s.str i
  ((s.scheds.find? (fun y => y.ident.toNat == x.sched)).bind (fun y =>
    y.gaths.findSome? (fun g => g.classes.find? (fun k => k.cls.val == x.cls)))).elim 0 (fun k => k.draws.toNat)
def State.newCursor (s : State) (i m : Nat) : Nat := ((s.str i).cursor + m * s.draws i) % 2 ^ 48
/-- The inputs that a step commits: one, or those of a checkpoint (R201). -/
def Step.inputs (t : Step) : Nat := if t.replayed then t.covered else 1
/-- The header of stream i's new wheel, as a move of the home quire's mover into the slot that is not committed (R292, R366). -/
def State.sealHeader (s : State) (i : Nat) (t : Step) : State :=
  let x := s.str i
  let h := s.headerOf i (x.cseq + t.inputs) (s.newCursor i t.inputs) t.lastSeq (t.rchecks.getLastD 0)
  let q := (s.schedClass x.cls).elim 0 (fun k => k.home.val)
  s.addMove (5 * q) 0 i (.own h) (.hbm (s.wheelAddr i (!x.slot))) 256 1 .own []
/-- The new wheel's header written and, with MIRROR, the slot sent to the buddy (R511). -/
def State.sealWheel (s : State) (i : Nat) (t : Step) : State :=
  let s1 := s.sealHeader i t
  if (s.str i).mirror then s1.sendMirror i (!(s.str i).slot) ((s.str i).cseq + t.inputs) else s1

end Sys2Proof.Machine
end

