-- ==== Sys2Proof/Machine/Steps.lean ====
section
/-! DEFINITION. The life of a step: acceptance and tokens, dispatch, release, rerun, commit, and the checkpoints of a replay
(01_hexat_and_the_step.md R24 to R34, 06_recurrence_and_scan.md R200 to R202, 10_streams_and_wheels.md R291 to R302,
13_sequencer.md R413). -/

namespace Sys2Proof.Machine

/-! ## Acceptance and tokens (R24, R33, R300) -/

/-- The held bursts with the oldest one that is not yet accepted marked so. -/
def markAccepted (spent : Bool) : List Burst → List Burst
  | [] => []
  | b :: bs => if b.acc then b :: markAccepted spent bs else { b with acc := true, spent := spent } :: bs
/-- The step of the oldest burst of stream i that is not yet accepted is accepted at time `t`: it takes a token, or counts as an
overrun (R300), unless a substitution makes the gathering's steps wait (R561). -/
def State.acceptStep (s : State) (i t : Nat) : State :=
  let x := s.str i
  let spent := s.tokensOf x.cls == 0
  let x1 := { x with held := markAccepted spent x.held, stepped := true, lastAccept := t }
  if spent then
    (if s.substs.any (fun p => match p.2 with | some y => bit (s.gmask (s.strGath i)) y.logical | none => false) then s.setStr i x1
     else (s.setStr i { x1 with cntOverrun := sat16 (x.cntOverrun + 1) }).cntStrm 2 1)
  else (s.setStr i x1).setTokens x.cls (s.tokensOf x.cls - 1)
/-- The least time between two acceptances of a stream: 10 µs in rclk (R33). -/
def stepGap : Nat := 96
/-- Is a held burst of stream i not yet accepted? -/
def State.waiting (s : State) (i : Nat) : Bool := (s.str i).held.any (fun b => !b.acc)
/-- A burst that has landed for an ACTIVE stream is accepted at once, unless the stream's previous acceptance is less than 10 µs
past or an earlier burst still waits (R24, R33). -/
def State.tryAccept (s : State) (i : Nat) : State :=
  let x := s.str i
  if (x.held.filter (fun b => !b.acc)).length = 1 ∧ (x.stepped = false ∨ x.lastAccept + stepGap ≤ s.rclk) then s.acceptStep i s.rclk
  else s

/-- STEP_HOLD_EXPIRY (R33): 10 µs after the previous acceptance, the held burst's step is accepted. -/
def execStepHoldExpiry (i : BitVec 12) (s : State) : Res :=
  let x := s.str i.toNat
  if x.st ≠ .active then notDue "the stream is not ACTIVE"
  else if !s.waiting i.toNat then notDue "no held burst waits for its acceptance"
  else if s.rclk < x.lastAccept + stepGap then notDue "10 us have not passed since the previous acceptance"
  else .next (s.acceptStep i.toNat (x.lastAccept + stepGap))
/-- TOKEN_REFILL (R300). -/
def execTokenRefill (k : Fin 16) (s : State) : Res :=
  if !s.clsEn k.val then notDue "the class is not enabled"
  else .next (s.setTokens k.val (min (s.tokensOf k.val + 1) (s.clsDepth k.val)))

/-! ## Dispatch (R27, R413) -/

/-- The context of a folio that names a class (R397, R413). -/
def State.classCtx (s : State) (n k : Nat) : Option Nat := [0, 1, 2, 3].find? (fun c => s.ctxEn n c && bit (s.dClasses n c) k)
/-- The context that runs stream i's step on a folio: the class's, and for a replay on the reserved gathering of a real-time class the
next enabled one of lower number (R202; which one is DEDUCED, log entry 140). -/
def State.stepCtx (s : State) (n i : Nat) (t : Step) : Option Nat :=
  let k := (s.str i).cls
  (s.classCtx n k).map (fun c =>
    if t.replayed && s.clsRt k && s.gathRsv (s.strGath i) then ((List.range c).reverse.find? (fun d => s.ctxEn n d)).getD c else c)
/-- The logical folios of a gathering whose contexts name a class, as a mask. -/
def State.classMask (s : State) (g k : Nat) : Nat :=
  (members (s.gmask g)).foldl (fun m j => if (s.classCtx (s.phys j) k).isSome then m + 2 ^ j else m) 0
/-- May the gathering's folios start stream work: enabled, no vacant index (R562), no substitution (R560) or image switch (R575)
in progress, no transaction committing on it (R596), its folios in F0 or F1 and the device in D0? -/
def State.gathReady (s : State) (g : Nat) : Bool :=
  s.gathEn g && !s.withdrawn && s.fld PM_STATE 31 29 == 0 && !bit s.switching g
    && (members (s.gmask g)).all (fun j => !s.vacant j && decide (s.folioState (s.phys j) ≤ 1))
    && s.substs.all (fun p => match p.2 with | some x => !bit (s.gmask g) x.logical | none => true)
    && s.txns.all (fun p => !(p.2.st == 2 && bit p.2.gmask g))
/-- Does a step of stream j go before the accepted head of stream i: of the same class, accepted earlier, steps accepted with an
empty bucket after the others (R300)? -/
def State.goesBefore (s : State) (j i : Nat) : Bool :=
  let x := s.str j
  let y := s.str i
  match x.held.head?, y.held.head? with
  | some a, some b =>
    j != i && x.st == .active && x.cls == y.cls && x.step.isNone && a.acc
      && ((!a.spent && b.spent) || (a.spent == b.spent && decide (x.lastAccept < y.lastAccept)))
  | _, _ => false
/-- The step of stream i that a dispatch would place: its step in flight that is not dispatched, or a new one from the held burst
whose acceptance stands. -/
def State.toDispatch (s : State) (i : Nat) : Option Step :=
  let x := s.str i
  match x.step with
  | some t => if t.dispatched || t.failed || t.final.isSome then none else some t
  | none =>
    match x.held with
    | b :: _ => if x.st == .active && b.acc && s.strIdx.all (fun j => !s.goesBefore j i) then some (Step.fresh b) else none
    | [] => none
/-- The entry of a step (R413). -/
def State.stepEntry (s : State) (i : Nat) (t : Step) : Entry :=
  let x := s.str i
  { step := true, stream := i, handle := s.handle i, seq := t.burst.seq, cseq := x.cseq, cursor := x.cursor, len := t.burst.len,
    attempt := t.attempt, oldSlot := s.wheelAddr i x.slot, newSlot := s.wheelAddr i (!x.slot) }
/-- The step in flight of stream i that a dispatch takes up, still to be placed. -/
def State.takeUp (s : State) (i : Nat) (t : Step) : State :=
  let x := s.str i
  s.setStr i { x with held := if x.step.isSome then x.held else x.held.drop 1, step := some t }
/-- Stream i's step placed on every folio of the mask. -/
def State.placeStep (s : State) (i : Nat) (t : Step) : State :=
  let x := s.str i
  let m := s.classMask (s.strGath i) x.cls
  let e := s.stepEntry i t
  (members m).foldl (fun s k =>
    match s.stepCtx (s.phys k) i t with
    | some c => s.place (s.phys k) c e
    | none => s) (s.takeUp i { t with dispatched := true, mask := m, ended := 0 })
/-- Has every queue of the mask a place (R413)? -/
def State.queuesFree (s : State) (i : Nat) (t : Step) : Bool :=
  (members (s.classMask (s.strGath i) (s.str i).cls)).all (fun k =>
    match s.stepCtx (s.phys k) i t with
    | some c => decide ((s.ctx (s.phys k) c).queue.length < 16)
    | none => true)
/-- Does the cold fetch of stream i's wheel read the burst at an HBM address (R294)? -/
def State.fetches (s : State) (i a : Nat) : Bool :=
  let w := s.wheelAddr i (s.str i).slot
  (s.wheelHome i).isNone && decide (w ≤ a) && decide (a < w + (s.str i).wsize * 256)
/-- Stream i's step dispatched, with what the checks of its broadcast find: a word of the vat that the broadcast reads is bad (R356), or
the cold fetch of the wheel fails (R389). -/
def State.dispatchWith (s : State) (i : Nat) (t : Step) (bad : Option CastFail) : Res :=
  match bad with
  | none => .next (s.placeStep i t)
  | some (.word a) =>
    if (s.castBurst t ++ s.castWheel i).any (fun r => decide (r.1 ≤ a.toNat) && decide (a.toNat < r.1 + r.2)) then
      .next ((s.markBad 0 6 a.toNat).placeStep i t)
    else notDue "the broadcast does not read the word"
  | some (.burst a) =>
    if s.fetches i a.toNat then .next ((s.takeUp i t).readFail i 0 a.toNat 1) else notDue "no cold fetch reads the burst"
/-- STEP_DISPATCH. -/
def execStepDispatch (x : Dispatched) (s : State) : Res :=
  let k := x.strm.toNat
  match s.toDispatch k with
  | none => notDue "no accepted step of the stream waits for dispatch"
  | some t =>
    if !s.gathReady (s.strGath k) then notDue "the gathering takes no step now"
    else if !s.queuesFree k t then notDue "a dispatch queue is full"
    else s.dispatchWith k t x.fail

/-! ## Release (R25, R316, R506) -/

/-- Is a move of a tag one whose reads have all been made: a write into HBM with every granule requested? The acknowledgement of a
wheel write is awaited at the commit (R26), not at the release (R25). -/
def State.readsMade (s : State) (m : Move) : Bool :=
  m.writes && !m.reads && decide (m.total ≤ m.done.length + (s.creditedOf m.id).length)
/-- Do the movers hold work of stream i's step whose checks are still open? -/
def State.checksOpen (s : State) (i : Nat) : Bool :=
  let p := s.drive
  { p with movers := p.movers.map (fun (x : Nat × List Move) => (x.1, x.2.filter (fun m => !p.readsMade m))) }.moverHolds i
/-- Has the step ended on every folio it was dispatched to, with no failure and none of its work left in engines and collectives, and
no check of its reads open (R25)? -/
def State.stepDone (s : State) (i : Nat) (t : Step) : Bool :=
  t.dispatched && t.ended == t.mask && !t.failed && t.final.isNone && !s.checksOpen i
    && (members t.mask).all (fun k => !s.engHolds (s.phys k) i && !(s.contrib (s.phys k)).any (fun x => x.owner == some i))
/-- Has the collector what the schedule names for the class (R466)? -/
def State.resultReady (s : State) (i : Nat) (t : Step) : Bool :=
  match (s.schedClass (s.str i).cls).bind (fun k => k.result) with
  | some _ => !t.result.isEmpty
  | none => true
/-- May the device release a result now: its hoop runs (R506), neither core rail is out of its band or 1 µs back (R557), and it is not withdrawn (R565)? -/
def State.mayRelease (s : State) : Bool :=
  s.hoopRuns && !s.railsOut.contains .core && !s.railsOut.contains .sram && decide (s.quietUntil ≤ s.rclk) && !s.withdrawn
/-- The result message of stream i's step (R316): it carries the CSEQ the step commits with. -/
def State.stepMsg (s : State) (i : Nat) (t : Step) : List Byte :=
  resultMsg (s.handle i) t.burst.seq t.burst.bid ((s.str i).cseq + 1) t.result

/-- STEP_RELEASE. -/
def execStepRelease (i : BitVec 12) (s : State) : Res :=
  let k := i.toNat
  match (s.str k).step with
  | none => notDue "the stream has no step in flight"
  | some t =>
    if t.released || t.replayed then notDue "the step does not wait for its release"
    else if !s.stepDone k t then notDue "the step's work or a check is still open"
    else if !s.resultReady k t then notDue "the collector has no payload"
    else if !s.mayRelease then notDue "the device releases nothing now"
    else
      let m := s.stepMsg k t
      let t1 := { t with released := true, rchecks := [resultCheck m] }
      .next (((s.send m).setStr k { s.str k with step := some t1 }).sealWheel k t1)

/-! ## Reruns (R28, R29, R295, R558) -/

/-- The next attempt of stream i's step: everything of the last one is aborted, and the step waits for dispatch. -/
def State.nextAttempt (s : State) (i : Nat) (t : Step) : State :=
  let s1 := if t.dispatched then (s.abortEntries i).dropPlane i t else s
  let x := s1.str i
  let t1 := { t with
    dispatched := false, mask := 0, ended := 0, attempt := if t.uncounted then t.attempt else t.attempt + 1, failed := false,
    uncounted := false, failedAfter := false, mirrorAck := false, rerun := t.released, result := [] }
  (s1.setStr i { x with step := some t1, cntRerun := sat16 (x.cntRerun + 1) }).cntStrm 3 1

/-- STEP_RERUN (R28): a step that failed before release ends with its final code, or with STEP_FAILED after three counted
attempts, else it runs again; one whose wheel is lost waits for its buddy's mirror (R389). -/
def execStepRerun (i : BitVec 12) (s : State) : Res :=
  let k := i.toNat
  match (s.str k).step with
  | none => notDue "the stream has no step in flight"
  | some t =>
    if t.released || !(t.failed || t.final.isSome) then notDue "the step has not failed before release"
    else if t.lost then notDue "the wheel waits for its buddy's mirror"
    else
      let s1 := s.castLogged k
      match t.final with
      | some code => .next (s1.endStep k code)
      | none =>
        if 2 ≤ t.attempt ∧ !t.uncounted then .next (s1.endStep k 5)
        else .next (s1.nextAttempt k { t with badRead := none })
/-- The result messages of replayed steps over bursts, in step order (R201): the collector's payload in equal parts. -/
def State.replayMsgs (s : State) (i : Nat) (t : Step) (bs : List Burst) : List (List Byte) :=
  let part := t.result.length / bs.length
  (List.range bs.length).map (fun j =>
    let b := bs.getD j t.burst
    resultMsg (s.handle i) b.seq b.bid ((s.str i).cseq + j + 1) ((t.result.drop (j * part)).take part))
/-- The checks that R29 compares (R297): of the result, or of the results of a checkpoint. -/
def State.stepChecks (s : State) (i : Nat) (t : Step) : List Nat :=
  if t.replayed then (s.replayMsgs i t (s.backlogTake i t.covered (s.str i).backlogRead).1).map resultCheck
  else [resultCheck (s.stepMsg i t)]
/-- STEP_RERUN_AFTER_RELEASE (R29): a failure after release starts a rerun; when the rerun has passed its checks, equal checks
lead to the commit, and different ones end the step with STEP_DIVERGED. -/
def execStepRerunAfterRelease (i : BitVec 12) (s : State) : Res :=
  let k := i.toNat
  match (s.str k).step with
  | none => notDue "the stream has no step in flight"
  | some t =>
    if !t.released then notDue "the step has not been released"
    else if t.lost then notDue "the wheel waits for its buddy's mirror"
    else if t.final.isSome then .next ((s.castLogged k).endStep k 6)
    else if t.failed || t.failedAfter then
      (if 2 ≤ t.attempt ∧ !t.uncounted then .next ((s.castLogged k).endStep k 5) else .next ((s.castLogged k).nextAttempt k { t with badRead := none }))
    else if !t.rerun then notDue "the step has not failed after release"
    else if !(s.stepDone k t && s.resultReady k t) then notDue "the rerun's work or a check is still open"
    else if s.stepChecks k t ≠ t.rchecks then .next (s.endStep k 6)
    else
      let t1 := { t with rerun := false }
      .next ((s.setStr k { s.str k with step := some t1 }).sealWheel k t1)

/-! ## Commit (R26, R292 to R294) -/

/-- The vat copy of a resident stream replaced by its committed wheel (R294); a buffer holds one stream's copy. -/
def State.copyWheel (s : State) (i : Nat) : State :=
  let x := s.str i
  match x.resident, (s.schedClass x.cls).bind (fun k => k.wheelBuf) with
  | true, some h =>
    let s1 := (s.coolBuf h.toNat).put 6 (s.sigBase h.toNat) ((s.slotBytes i x.slot).take (s.sigSize h.toNat))
    s1.setStr i { s1.str i with warm := true }
  | _, _ => s
/-- The commit of a step of stream i: the new slot is the committed one, the flags that the step holds are merged (R75), the burst's
granules are freed (R347), and the commit record is due. -/
def State.commitWheel (s : State) (i : Nat) (t : Step) : State :=
  let cur := s.newCursor i t.inputs
  let s1 := (members t.mask).foldl (fun s k => s.mergeHeld (s.phys k) i) s
  let x := s1.str i
  let x1 := { x with
    slot := !x.slot, cseq := x.cseq + t.inputs, cursor := cur, wheelSeq := t.lastSeq, rcheck := t.rchecks.getLastD 0, step := none,
    recordDue := true }
  ((s1.setStr i x1).freeGranules t.burst.zone t.burst.grans).copyWheel i
/-- Is the new wheel in HBM and, where the stream has a buddy, acknowledged (R26)? -/
def State.wheelSafe (s : State) (i : Nat) (t : Step) : Bool :=
  s.stepDone i t && !s.moverHolds i && !t.failedAfter && !t.rerun && (!(s.str i).mirror || t.mirrorAck)
/-- STEP_COMMIT. -/
def execStepCommit (i : BitVec 12) (s : State) : Res :=
  let k := i.toNat
  match (s.str k).step with
  | none => notDue "the stream has no step in flight"
  | some t =>
    if !t.released || t.replayed then notDue "the step has not been released"
    else if !s.wheelSafe k t then notDue "the new wheel is not yet written and acknowledged"
    else .next ((s.commitWheel k t).stepOver k false)
/-- COMMIT_RECORD_WRITE (R293). -/
def execCommitRecordWrite (i : BitVec 12) (s : State) : Res :=
  if (s.str i.toNat).recordDue then .next (s.writeRecord i.toNat) else notDue "no commit record is due"

/-! ## Replay (R200 to R202) -/

/-- The wheel committed at a checkpoint; the replay goes on, or the stream is ACTIVE and RESUME_REPLAY completes (R283). -/
def State.commitReplay (s : State) (i : Nat) (t : Step) (off : Nat) : State :=
  let s1 := s.commitWheel i t
  let x := s1.str i
  let left := x.backlogged - t.covered
  if x.st = .ending then s1.freeStream i
  else if left = 0 then
    (s1.setStr i { x with st := .active, backlogged := 0, backlogUsed := 0, backlogRead := 0 }).completeCmd i 0
  else (s1.setStr i { x with backlogged := left, backlogRead := off }).startReplay i
/-- CHECKPOINT_COMMIT: the replayed work over the next `bursts` inputs has passed its checks. The first command of a count releases its
results; the second commits the wheel, once it is written and, with MIRROR, acknowledged (R26, R201). -/
def execCheckpointCommit (i : BitVec 12) (bursts : Nat) (s : State) : Res :=
  let k := i.toNat
  let x := s.str k
  match x.step with
  | none => notDue "the stream does not replay"
  | some t =>
    if !t.replayed then notDue "the stream does not replay"
    else if bursts = 0 ∨ x.backlogged < bursts then notDue "the checkpoint covers no such inputs"
    else if !(s.stepDone k t && s.resultReady k t) then notDue "the replay's work or a check is still open"
    else
      let p := s.backlogTake k bursts x.backlogRead
      if t.released then
        (if t.covered ≠ bursts then notDue "the checkpoint covers another count"
         else if !s.wheelSafe k t then notDue "the new wheel is not yet written and acknowledged"
         else .next (s.commitReplay k t p.2))
      else if !s.mayRelease then notDue "the device releases nothing now"
      else
        let ms := s.replayMsgs k t p.1
        let t1 := { t with released := true, rchecks := ms.map resultCheck, covered := bursts,
                           lastSeq := (p.1.getD (bursts - 1) t.burst).seq }
        .next (((ms.foldl (fun s m => s.send m) s).setStr k { x with step := some t1 }).sealWheel k t1)

end Sys2Proof.Machine
end

