-- ==== Sys2Proof/Machine/Inbound.lean ====
section
/-! DEFINITION. Inbound bursts, flit by flit: curds, whey, refusals, expiry, the wheel image of an IMPORT
(10_streams_and_wheels.md R304 to R313, R320 to R323). -/

namespace Sys2Proof.Machine

/-! ## Handles, whey, refusals -/

/-- Does a handle name a stream: the entry's generation, and not FREE (R281)? -/
def State.names (s : State) (h : Nat) : Bool := (s.str (h % 4096)).gen == h / 4096 && (s.str (h % 4096)).st != .free
/-- A flit discarded as whey (R308): counted for the stream, if its handle names one, and for the device. -/
def State.whey (s : State) (h : Nat) : State :=
  let i := h % 4096
  let s1 := if s.names h then s.setStr i { s.str i with cntWhey := sat16 ((s.str i).cntWhey + 1) } else s
  s1.cntStrm 0 1
/-- An IMPORT that ends with a code: the index goes back to FREE (R283, R323). -/
def State.importFails (s : State) (i code : Nat) : State :=
  let s1 := s.completeCmd i code
  s1.setStr i (s1.str i).freed
/-- A burst refused with a status (R305): LAST_SEQ advances, the refusal is counted. -/
def State.refuse (s : State) (i code seq bid : Nat) : State :=
  ((s.setStr i { s.str i with lastSeq := seq }).status i code seq bid).cntStrm 5 1
/-- The curd of stream i discarded: its granules are freed and its status sent (R306, R307). -/
def State.dropCurd (s : State) (i code : Nat) : State :=
  match (s.str i).curd with
  | none => s
  | some b =>
    let s1 := (s.freeGranules b.zone b.grans).setStr i { s.str i with curd := none }
    let s2 := s1.status i code b.seq b.bid
    if code = 1 then (s2.setStr i { s2.str i with cntIncomplete := sat16 ((s2.str i).cntIncomplete + 1) }).cntStrm 1 1
    else s2.cntStrm 5 1
/-- A curd that ends without a burst; for an image burst the IMPORT ends with IMPORT_INCOMPLETE (R287). -/
def State.loseCurd (s : State) (i code : Nat) : State :=
  let s1 := s.dropCurd i code
  if (s.str i).st = .importing then s1.importFails i 0x0D else s1

/-! ## Acceptance of a whole burst (R310, R313, R323) -/

/-- The codes R323 gives an image burst, in the order of its checks; the image's slot otherwise. -/
def State.openImage (s : State) (img : List Byte) : Nat × List Byte :=
  let f := fun (o n : Nat) => ofBytes ((img.drop o).take n)
  let plen := f 0x30 4
  let slot := f 0x08 1
  let wsize := (plen - 64) / 256
  if f 0 4 ≠ 0x57494D32 ∨ f 4 2 ≠ 2 ∨ plen < 64 + 256 ∨ 64 + 1024 * 256 < plen ∨ plen % 256 ≠ 64 ∨ img.length ≠ 80 + plen ∨ 7 < slot then
    (0x0B, [])
  else match Sp.get (fun _ => none) s.keys slot with
    | none => (0x08, [])
    | some k =>
      match gcmOpen k.key ((img.drop 0x0C).take 12) (img.take 64) ((img.drop 64).take plen) (img.drop (64 + plen)) with
      | none => (0x0A, [])
      | some pt =>
        if s.scheds.any (fun x => x.ident.toNat == f 0x20 8 && x.wsize.toNat == wsize) then (0, pt) else (0x0C, [])
/-- The image of an IMPORT accepted (R323): on success the wheel lies in slot 0 with the new HANDLE and HCHECK, and the stream keeps
what the image's wheel says. The image burst has no result and gets its one status (R315; the codes are a DESIGN CHOICE, log entry
111). -/
def State.takeImage (s : State) (i : Nat) (b : Burst) : State :=
  let img := s.burstPayload b
  let s0 := s.freeGranules b.zone b.grans
  let r := s.openImage img
  if r.1 ≠ 0 then ((s0.status i 2 b.seq b.bid).cntStrm 5 1).importFails i r.1
  else
    let f := fun (o n : Nat) => ofBytes ((r.2.drop o).take n)
    let x := s0.str i
    let h := fun (o n : Nat) => f (64 + o) n
    let x1 := { x with
      key := f 0 4, wsize := (r.2.length - 64) / 256, sched := f 0x10 8, slot := false, cseq := h 0x18 8,
      cursor := h 0x20 8 % 2 ^ 48, wheelSeq := h 0x28 4, lastSeq := max (h 0x28 4) b.seq, rcheck := h 0x30 8, image := true }
    let s1 := (s0.hbmWrite (s0.wheelAddr i false) (r.2.drop 64)).setStr i x1
    let s2 := s1.hbmWrite (s1.wheelAddr i false + 8) (toBytes 4 (s1.handle i))
    let s3 := s2.hbmWrite (s2.wheelAddr i false + 0xF8) (toBytes 8 (crc64 (s2.hbmBytes (s2.wheelAddr i false) 0xF8)))
    let s4 := s3.writeRecord i
    let s5 := s4.status i 0 b.seq b.bid
    if x.mirror then s5.sendMirror i false x1.cseq else s5
/-- A burst whose last flit has been taken and whose CRC agrees (R310): it is held for its step, joins the backlog, or is the image
of an IMPORT; in a state that lands no burst it is refused. -/
def State.landBurst (s : State) (i : Nat) (b : Burst) : State :=
  let x := s.str i
  match x.st with
  | .active => (s.setStr i { x with held := x.held ++ [b] }).tryAccept i
  | .pausing | .paused | .replay => s.appendBacklog i b
  | .importing => s.takeImage i b
  | _ => ((s.freeGranules b.zone b.grans).status i 7 b.seq b.bid).cntStrm 5 1
/-- The last flit of the curd taken: LEN and CRC checked (R310). -/
def State.closeCurd (s : State) (i : Nat) : State :=
  match (s.str i).curd with
  | none => s
  | some b =>
    if crc32c (s.burstPayload b) = b.crc then (s.setStr i { s.str i with curd := none }).landBurst i b
    else s.loseCurd i 3

/-! ## Flits (R305, R306, R309) -/

/-- The curd's hold time in rclk, rounded up (R307). -/
def State.holdTime (s : State) (i : Nat) : Nat := (s.clsHold (s.str i).cls * 96 + 9) / 10
/-- A flit taken into the curd of stream i (R306, R307): its payload lands behind what came before, the timer starts again, and the
last one closes the curd. Payload beyond LEN, or a LAST mark that disagrees with LEN, makes the curd malformed. -/
def State.takeFlit (s : State) (i : Nat) (b : Burst) (payload : List Byte) (last : Bool) : State :=
  let got := b.got + payload.length
  if b.len < got ∨ last ≠ (got == b.len) then s.loseCurd i 2
  else
    let s1 := s.granWrite b.zone b.grans (32 + b.got) payload
    let s2 := s1.setStr i { s1.str i with curd := some { b with next := b.next + 1, got := got, timer := s.holdTime i } }
    if last then s2.closeCurd i else s2
/-- Does the stream's state admit a burst of this type (R282, R322)? -/
def StrmSt.admits (st : StrmSt) (typ : Nat) : Bool :=
  match st with
  | .active | .pausing | .paused | .replay => true
  | .importing => typ == 0xB3
  | _ => false
/-- Are TYPE, FMT, the reserved fields, LEN and ELEMS of a header as R304 and R305 ask? A wheel image comes only while the
stream imports, with SEQ 1 (R322, R323). -/
def State.headerOk (s : State) (i : Nat) (h : List Byte) : Bool :=
  let f := fun (o n : Nat) => ofBytes ((h.drop o).take n)
  let fmt := Fmt.ofCode s.level (f 1 1)
  let typed := match f 0 1 with
    | 0xB1 => (match fmt with
      | some .bf16 => f 0x10 4 == 2 * f 0x14 4
      | some .fp32 => f 0x10 4 == 4 * f 0x14 4
      | some .int8 => f 0x10 4 == f 0x14 4
      | _ => false)
    | 0xB2 => (match fmt with | some .bf16 => true | some .fp16 => true | some .int8 => true | _ => false)
    | 0xB3 => (s.str i).st == .importing && f 1 1 == 0 && f 0x14 4 == 0 && f 8 4 == 1
    | _ => false
  typed && f 2 2 == 0 && f 0x0E 2 == 0 && f 0x1C 4 == 0 && decide (f 0x10 4 ≤ s.clsBurstMax (s.str i).cls * 4096)
/-- The granules of a zone that are free, in ascending order. -/
def State.freeGrans (s : State) (zone : Nat) : List Nat :=
  (List.range (s.sigSize zone / 256)).filter (fun g => !(Sp.get (fun _ => []) s.occupied zone).contains g)
/-- The bursts of stream i in its landing zone beside its curd (R311). -/
def State.heldCount (s : State) (i : Nat) : Nat :=
  let x := s.str i
  x.held.length + (match x.step with | some t => if t.replayed then 0 else 1 | none => 0)
/-- A flit 0 tested and taken (R305, R309); one of a wheel image is malformed in any state but IMPORTING (R323). -/
def State.flit0 (s : State) (fl : Flit) : State :=
  let f := fun (o n : Nat) => ofBytes ((fl.payload.drop o).take n)
  let i := fl.handle % 4096
  let x := s.str i
  let seq := f 8 4
  let bid := f 0x0C 2
  let len := f 0x10 4
  let refused := fun (code : Nat) =>
    let s1 := (s.refuse i code seq bid).whey fl.handle
    if x.st = .importing ∧ f 0 1 = 0xB3 then s1.importFails i 0x0D else s1
  if fl.payload.length < 32 ∨ !s.names fl.handle ∨ seq ≤ x.lastSeq then s.whey fl.handle
  else if f 0 1 = 0xB3 ∧ x.st ≠ .importing then refused 2
  else if x.st = .fenced then s.whey fl.handle
  else if !x.st.admits (f 0 1) then refused 7
  else if f 4 4 ≠ fl.handle ∨ bid ≠ fl.bid ∨ !s.headerOk i fl.payload then refused 2
  else match (s.schedClass x.cls).map (fun k => k.zone.toNat) with
    | none => refused 8
    | some zone =>
      let n := (len + 32 + 255) / 256
      let free := s.freeGrans zone
      if 2 ≤ s.heldCount i ∨ free.length < n then refused 8
      else
        let gs := free.take n
        let b : Burst := { seq := seq, bid := bid, typ := f 0 1, fmt := f 1 1, len := len, elems := f 0x14 4, crc := f 0x18 4,
                           next := 0, got := 0, timer := 0, zone := zone, grans := gs, acc := false, spent := false }
        let occ := (List.range (s.sigSize zone / 256)).filter
          (fun g => (Sp.get (fun _ => []) s.occupied zone).contains g || gs.contains g)
        let s1 := { s with occupied := Sp.set (fun _ => []) s.occupied zone occ }
        let s2 := if x.curd.isSome then s1.dropCurd i 1 else s1
        let s3 := s2.setStr i { s2.str i with lastSeq := seq, curd := some b }
        (s3.granWrite zone gs 0 (fl.payload.take 32)).takeFlit i b (fl.payload.drop 32) fl.last
/-- A later flit (R306, R308): the curd's next one is taken, one that breaks its order makes it malformed, any other is whey. A flit
at the edge of the curd's expiry is whey (R307). -/
def State.flitOn (s : State) (fl : Flit) : State :=
  let i := fl.handle % 4096
  if !s.names fl.handle then s.whey fl.handle
  else match (s.str i).curd with
    | none => s.whey fl.handle
    | some b =>
      if b.bid ≠ fl.bid ∨ b.timer = 0 then s.whey fl.handle
      else if fl.fidx ≠ b.next then s.loseCurd i 2
      else s.takeFlit i b fl.payload fl.last
/-- INBOUND_BURST_FLIT: the oldest flit that the D2D port has passed on leaves its buffer, and its credit is owed (R615). -/
def execInboundBurstFlit (s : State) : Res :=
  match s.burstIn with
  | [] => notDue "no burst flit has arrived"
  | fl :: rest =>
    let s1 := { s with burstIn := rest, d2dOwed := s.d2dOwed + 1 }
    .next (if fl.fidx = 0 then s1.flit0 fl else s1.flitOn fl)
/-- CURD_EXPIRY (R307): the curd's hold timer has reached zero. -/
def execCurdExpiry (i : BitVec 12) (s : State) : Res :=
  match (s.str i.toNat).curd with
  | none => notDue "the stream has no curd"
  | some b => if b.timer = 0 then .next (s.loseCurd i.toNat 1) else notDue "the curd's hold time has not passed"

end Sys2Proof.Machine
end

