-- ==== Sys2Proof/Machine/Window.lean ====
section
/-! DEFINITION. A write of one 32-bit word of the register window by a requester port (19_registers_and_transactions.md R580 to R594,
00_scope.md R19): hidden pages, reserved bits, access codes, the seal, staging in a transaction, leases, domains that are off. -/

namespace Sys2Proof.Machine

/-- The code of a port in TXN_SLOTk.PORT (R602). -/
def portCode : Port → Nat
  | .d2d => 0 | .i3c => 1 | .jtag => 2

/-- The fields of a word as the accepted level shows them (R8, R77). -/
def State.spec (s : State) (a : Nat) : RegSpec :=
  let r := regSpec a
  if !s.pageShown (a / 4096) || decide (s.level < r.lvl) then {}
  else if s.level < 2 ∧ isFolioPage (a / 4096) 2 ∧ (a % 4096 = 0x040 ∨ a % 4096 = 0x044) then
    { r with w1c := r.w1c &&& msk 19 0, rw := r.rw &&& msk 19 0 }
  else r
/-- Is the device sealed (R589)? -/
def State.sealed (s : State) : Bool := s.rbit DEV_SEAL 0
/-- Is the domain that a page belongs to on (R583, R525)? Pages 0x000 to 0x00C belong to the rind; the others are off until the
stage POWER of bring-up has ended (R631, R632). -/
def State.pageOn (s : State) (p : Nat) : Bool :=
  if p < 0x040 then true
  else if s.fld BOOT_STAT 31 28 < 4 ∨ 7 < s.fld BOOT_STAT 31 28 then false
  else if p < 0x108 then (let x := s.folioState ((p - 0x040) / 4); x == 0 || x == 1)
  else s.fld PM_STATE 31 29 == 0
/-- An error bit of a page set (R584): 31 WIDTH, 30 RSVD_WRITE, 29 TXN_DENIED, 28 LK_WRITE. -/
def State.pageErr (s : State) (p k : Nat) : State := s.withLine p (s.setBit (ERR_STATUS p) k true)

/-! ## Transactions as the window meets them (R592 to R594, R600) -/

def State.txn (s : State) (k : Nat) : Txn := Sp.get (fun _ => Txn.reset) s.txns k
def State.setTxn (s : State) (k : Nat) (t : Txn) : State := { s with txns := Sp.set (fun _ => Txn.reset) s.txns k t }
/-- TXN_SEL of a port (R593). -/
def State.selTag (s : State) (p : Port) : Nat := (Sp.get (fun _ => 0) s.portRegs (2 * portCode p + 1)).toNat
/-- The open transaction of a port with a tag. -/
def State.openTxn (s : State) (p : Port) (tag : Nat) : Option Nat :=
  (List.range 4).find? (fun k => (s.txn k).st == 1 && (s.txn k).port == portCode p && (s.txn k).tag == tag)
/-- A lease in rclk: TXN_LEASE.MS (R600). -/
def State.leaseLen (s : State) : Nat := s.fld TXN_LEASE 15 0 * 9600
/-- An access of a port restarts the lease of the transaction that its TXN_SEL names (R600). -/
def State.touch (s : State) (p : Port) : State :=
  match s.openTxn p (s.selTag p) with
  | some k => s.setTxn k { s.txn k with lease := (s.txn k).len }
  | none => s
/-- A staged word replaces an earlier one of the same transaction (R593). -/
def putStaged (l : List (Nat × Nat × Nat)) (a m v : Nat) : List (Nat × Nat × Nat) :=
  l.filter (fun x => x.1 != a) ++ [(a, m, v)]
/-- The TX bits of a word staged, or refused with TXN_DENIED (R593, R594). -/
def State.stage (s : State) (p : Port) (a m w : Nat) : State :=
  match s.openTxn p (s.selTag p) with
  | none => s.pageErr (a / 4096) 29
  | some k =>
    if (List.range 4).any (fun j => j != k && ((s.txn j).st == 1 || (s.txn j).st == 2) && (s.txn j).staged.any (fun x => x.1 == a)) then
      s.pageErr (a / 4096) 29
    else s.setTxn k { s.txn k with staged := putStaged (s.txn k).staged a m (w &&& m) }

/-! ## A write -/

/-- What a write does at once to a word that is shown: reserved bits, RW bits, TX bits; in a sealed device an LK field sets LK_WRITE
and nothing of it is written or staged (R19, R594). -/
def State.writeHead (s : State) (p : Port) (a w : Nat) : State :=
  let r := s.spec a
  let pgn := a / 4096
  let s1 := if w &&& (regAll - r.named) ≠ 0 then s.pageErr pgn 30 else s
  let s2 := if s.sealed ∧ r.lk ≠ 0 then s1.pageErr pgn 28 else s1
  let rwm := if s.sealed then r.rw - (r.rw &&& r.lk) else r.rw
  let v := s2.reg a
  let s3 := if rwm = 0 then s2 else s2.setReg a (v - (v &&& rwm) + (w &&& rwm))
  let txm := if s.sealed then r.tx - (r.tx &&& r.lk) else r.tx
  if txm = 0 then s3 else s3.stage p a txm w
/-- The W1C bits of a write cleared. -/
def State.writeClear (s : State) (a w : Nat) : State :=
  let m := w &&& (s.spec a).w1c
  if m = 0 then s else s.setReg a (s.reg a - (s.reg a &&& m))
/-- A word written by a port: `eff` is what its W1S, WO and special fields do. In a domain that is off, the W1C, W1S and WO bits
are held until its exit (R583). The JTAG port reaches the window only while DEV_SEAL.DBG_EN is 1 (R580). -/
def State.hostWrite (s : State) (p : Port) (a w : Nat) (eff : State → State) : State :=
  let s0 := s.touch p
  let pgn := a / 4096
  if p = .jtag ∧ !s.rbit DEV_SEAL 1 then s
  else if !s0.pageShown pgn then s0
  else
    s0.withLine pgn <|
    let s1 := s0.writeHead p a w
    let r := s0.spec a
    if s0.pageOn pgn then eff (s1.writeClear a w)
    else if w &&& (r.w1c ||| r.w1s ||| r.wo) ≠ 0 then { s1 with heldWrites := s1.heldWrites ++ [(portCode p, a, w)] }
    else s1

end Sys2Proof.Machine
end

