-- ==== Sys2Proof/Machine/Streams.lean ====
section
/-! DEFINITION. The stream commands of the host, what completes them, and the registers of the stream pages that act
(10_streams_and_wheels.md R283 to R290, R318 to R327). -/

namespace Sys2Proof.Machine

/-! ## The descriptor and the checks (R284, R287) -/

/-- A field of STRM_DESC. -/
def State.descN (s : State) (o n : Nat) : Nat :=
  (List.range n).foldl (fun v k => v + bits (s.reg (STRM_DESC ((o + k) / 4 * 4))) (8 * ((o + k) % 4) + 7) (8 * ((o + k) % 4)) * 256 ^ k) 0
/-- The first address of the spare region of HBM (R370). -/
def hbmSpare : Nat := 0xF80000000
/-- A non-zero reserved field, or an address not aligned to 256 B (R284). -/
def State.descForm (s : State) : Bool :=
  let d := s.descN
  decide (4 ≤ d 5 1) || (List.range 6).any (fun k => d (0x0A + k) 1 != 0) || (List.range 20).any (fun k => d (0x2C + k) 1 != 0)
    || d 0x18 8 % 256 != 0 || d 0x20 8 % 256 != 0
/-- Does the descriptor break R284, or ask for a mirror with no charter in force (R508)? A region that reaches the spare region
breaks it too (DEDUCED, log entry 37). `full` tells START from IMPORT, which reads CLASS, FLAGS and BUDDY. -/
def State.descBad (s : State) (full : Bool) : Bool :=
  let d := s.descN
  let mirror := bit (d 5 1) 1
  s.descForm || decide (15 < d 4 1) || (mirror && !s.inCharter) || (!mirror && d 8 2 != 0xFFFF) || d 0x28 4 % 4096 != 0
    || (if full then
          d 6 2 == 0 || decide (1024 < d 6 2) || decide (hbmSpare < d 0x18 8 + (d 6 2 - 1) * 256)
            || (d 0x28 4 != 0 && decide (hbmSpare < d 0x20 8 + d 0x28 4))
        else d 0x18 8 != 0)
/-- The schedule that SCHED names, where it is loaded and bound to the class's gathering. -/
def State.descSched (s : State) : Option Sched :=
  s.scheds.find? (fun x => x.ident.toNat == s.descN 0x10 8 && x.gaths.any (fun g => g.g.val == s.clsGath (s.descN 4 1)))
/-- Is there no vat space for a resident wheel of the class: the schedule names no buffer, or another stream holds it (R294)? -/
def State.noSpace (s : State) : Bool :=
  let c := s.descN 4 1
  bit (s.descN 5 1) 0 && ((match s.schedClass c with | some k => k.wheelBuf.isNone | none => true)
    || s.strIdx.any (fun j => (s.str j).st != .free && (s.str j).resident && (s.str j).cls == c))
/-- The class of the descriptor is not enabled. -/
def State.classOff (s : State) : Bool := decide (s.descN 4 1 < 16) && !s.clsEn (s.descN 4 1)
/-- The lowest code of the checks that fail, 0 when none does (the order is DEDUCED from the numbering of the table, log entry 38). -/
def lowestCode (cs : List (Bool × Nat)) : Nat :=
  cs.foldl (fun m c => if c.1 && (m == 0 || decide (c.2 < m)) then c.2 else m) 0
/-- The check of a command on a stream: its handle, its state, an earlier command not yet complete. -/
def State.strCode (s : State) (h : Nat) (ok : StrmSt → Bool) (ends : Bool) : Nat :=
  let x := s.str (h % 4096)
  if !s.names h then 2
  else lowestCode [(!ok x.st, 1), (x.cmd.isSome && !(ends && x.st == .importing), 3)]
/-- The next generation of an index (R281). -/
def nextGen (g : Nat) : Nat := if g = 0xFFFFF then 1 else g + 1

/-! ## The commands -/

/-- A new entry of the table under a new handle (R281), which STRM_CMD_HANDLE shows (R285). -/
def State.newStream (s : State) (i : Nat) (st : StrmSt) (op : Nat) : State :=
  let x := (s.str i).freed
  let gen := nextGen x.gen
  let mirror := bit (s.descN 5 1) 1
  let x1 := { x with
    gen := gen, st := st, cls := s.descN 4 1, resident := bit (s.descN 5 1) 0, mirror := mirror, buddy := s.descN 8 2,
    originSeat := s.seat, originHandle := gen * 4096 + i, cmd := some op, timer := s.rclk }
  (s.setStr i x1).setReg STRM_CMD_HANDLE (gen * 4096 + i)
/-- START (R288): the initial wheel in slot 0, from INIT or zeros. -/
def State.cmdStart (s : State) (h : Nat) : State × Nat :=
  let i := h % 4096
  let code := lowestCode [((s.str i).st != .free, 3), (s.classOff, 4), (s.descSched.isNone || s.noSpace, 5),
    ((match s.descSched with | some x => x.wsize.toNat != s.descN 6 2 | none => false), 6), (s.descBad true, 7)]
  if code ≠ 0 then (s, code)
  else
    let s1 := s.newStream i .starting 1
    let x : Strm := { s1.str i with
      key := s.descN 0 4, wsize := s.descN 6 2, sched := s.descN 0x10 8, init := s.descN 0x18 8, backlog := s.descN 0x20 8,
      backlogLen := s.descN 0x28 4 }
    let n := (x.wsize - 1) * 256
    let body := if x.init = 0 then List.replicate n 0 else s.hbmBytes x.init n
    let s2 := (s1.setStr i x).writeHeader i false 0 0 0 0
    let s3 := (s2.hbmWrite (s2.wheelAddr i false + 256) body).writeRecord i
    (if x.mirror then s3.sendMirror i false 0 else s3, 0)
/-- PAUSE (R289): a step in flight runs on; held bursts whose steps have not begun join the backlog. -/
def State.cmdPause (s : State) (h : Nat) : State × Nat :=
  let i := h % 4096
  let code := s.strCode h (fun st => st == .active) false
  if code ≠ 0 then (s, code)
  else
    let x := s.str i
    let s1 := s.setStr i { x with st := if x.step.isSome then .pausing else .paused, cmd := some 2 }
    (if x.step.isSome then s1 else (s1.completeCmd i 0).stowHeld i, 0)
/-- RESUME_REPLAY (R289). -/
def State.cmdReplay (s : State) (h : Nat) : State × Nat :=
  let i := h % 4096
  let code := s.strCode h (fun st => st == .paused) false
  if code ≠ 0 then (s, code)
  else
    let x : Strm := { s.str i with fault := false, cmd := some 3 }
    (if x.backlogged = 0 then (s.setStr i { x with st := .active }).completeCmd i 0 else (s.setStr i x).startReplay i, 0)
/-- RESUME_DROP (R289): the backlog is emptied and counted, and each of its bursts gets its status (R315). -/
def State.cmdDrop (s : State) (h : Nat) : State × Nat :=
  let i := h % 4096
  let code := s.strCode h (fun st => st == .paused) false
  if code ≠ 0 then (s, code)
  else
    let x := s.str i
    let s0 := s.discard i 0x0A (s.backlogTake i x.backlogged x.backlogRead).1
    let s1 := s0.setStr i { x with
      st := .active, fault := false, cntDrop := sat16 (x.cntDrop + x.backlogged), backlogged := 0, backlogUsed := 0,
      backlogRead := 0, cmd := some 4 }
    ((s1.cntStrm 6 x.backlogged).completeCmd i 0, 0)
/-- The bursts of stream i discarded at END, each with STEP_ENDED (R290, R314): its backlog, which CNT_DROP counts (R298), its held
bursts and its curd. -/
def State.endBursts (s : State) (i : Nat) : State :=
  let x := s.str i
  let skip := match x.step with | some t => if t.replayed then t.covered else 0 | none => 0
  let log := ((s.backlogTake i x.backlogged x.backlogRead).1).drop skip
  let bs := log ++ x.held ++ x.curd.toList
  let s1 := s.discard i 0x0A bs
  let y := s1.str i
  let d := sat16 (y.cntDrop + log.length)
  (s1.setStr i { y with curd := none, held := [], cntDrop := d, backlogged := 0, backlogUsed := 0, backlogRead := 0 }).cntStrm 6 log.length
/-- END and END_ERASE (R290). A replay in flight is aborted at its last checkpoint (DESIGN CHOICE, log entry 39). -/
def State.cmdEnd (s : State) (h op : Nat) : State × Nat :=
  let i := h % 4096
  let code := s.strCode h (fun _ => true) true
  if code ≠ 0 then (s, code)
  else
    let s1 := if (s.str i).st = .importing then s.completeCmd i 0x0D else s
    let s2 := s1.endBursts i
    let s3 := if (s2.str i).st = .replay then s2.dropStep i else s2
    let x := s3.str i
    let s4 := s3.setStr i { x with st := .ending, cmd := some op, erase := op == 6 }
    let s5 := if x.mirror then s4.sendSeat tyMREL x.buddy (mrelBytes x.originSeat x.originHandle) else s4
    (if x.step.isSome then s5 else s5.freeStream i, 0)
/-- The image of R320 and R321 of a stream under a key slot, with the nonce of R319. -/
def State.imageOf (s : State) (i slot : Nat) (k : KeySlot) : List Byte :=
  let x := s.str i
  let nonce := toBytes 4 Config.serial.toNat ++ toBytes 4 k.gen.toNat ++ toBytes 4 k.ctr
  let head := toBytes 4 0x57494D32 ++ toBytes 2 2 ++ toBytes 2 0 ++ toBytes 1 slot ++ toBytes 3 0 ++ nonce ++ toBytes 4 (s.handle i)
    ++ toBytes 4 (s.reg CH_EPOCH) ++ toBytes 8 x.sched ++ toBytes 8 x.cseq ++ toBytes 4 (64 + x.wsize * 256) ++ toBytes 12 0
  let flags := (if x.resident then 1 else 0) + (if x.mirror then 2 else 0)
  let desc := toBytes 4 x.key ++ toBytes 1 x.cls ++ toBytes 1 flags ++ toBytes 2 x.wsize ++ toBytes 2 x.buddy ++ toBytes 6 0
    ++ toBytes 8 x.sched ++ toBytes 40 0
  head ++ gcmSeal k.key nonce head (desc ++ s.slotBytes i x.slot)
/-- KEY_STAT (R328) follows the key slots. -/
def State.setKey (s : State) (k : Nat) (x : Option KeySlot) : State :=
  let s1 := { s with keys := Sp.set (fun _ => none) s.keys k x }
  (s1.setBit (pg 0x1A5 0x040) k x.isSome).setBit (pg 0x1A5 0x040) (8 + k) (match x with | some y => y.ctr == 0xFFFFFFFF | none => false)
/-- Why a key slot cannot serve an export: KEY_EMPTY or EXPORT_IV_SPENT; 0 where it can (R287, R322). -/
def State.keyCode (s : State) (slot : Nat) : Nat :=
  if 7 < slot then 8
  else match Sp.get (fun _ => none) s.keys slot with
    | none => 8
    | some k => if k.ctr = 0xFFFFFFFF then 9 else 0
/-- The committed wheel of stream i encrypted and sent (R319 to R322); the counter of the slot rises. -/
def State.exportNow (s : State) (i slot : Nat) : State :=
  match Sp.get (fun _ => none) s.keys slot with
  | none => s
  | some k =>
    let x := s.str i
    let img := s.imageOf i slot k
    ((s.send (msgHeader 0xC3 0 (s.handle i) 0 0 x.cseq img.length ++ img)).setKey slot (some { k with ctr := k.ctr + 1 })).setStr i
      { x with st := .exporting }
/-- EXPORT (R322). -/
def State.cmdExport (s : State) (h : Nat) : State × Nat :=
  let i := h % 4096
  let slot := s.descN 4 1
  let c1 := s.strCode h (fun st => st == .paused) false
  let code := lowestCode [(c1 != 0, c1), (s.descForm, 7), (s.keyCode slot != 0, s.keyCode slot)]
  if code ≠ 0 then (s, code)
  else
    let s1 := s.exportNow i slot
    (s1.setStr i { s1.str i with cmd := some 7 }, 0)
/-- IMPORT (R322). -/
def State.cmdImport (s : State) (h : Nat) : State × Nat :=
  let i := h % 4096
  let code := lowestCode [((s.str i).st != .free, 3), (s.classOff, 4), (s.noSpace, 5), (s.descBad false, 7)]
  if code ≠ 0 then (s, code) else (s.newStream i .importing 8, 0)
/-- What a command does, by its OP; EXPORT and IMPORT are reserved while level 1 is accepted (R318). -/
def State.runCommand (s : State) (op : Nat) : State × Nat :=
  let h := s.reg STRM_CMD_HANDLE
  match op with
  | 1 => s.cmdStart h
  | 2 => s.cmdPause h
  | 3 => s.cmdReplay h
  | 4 => s.cmdDrop h
  | 5 => s.cmdEnd h 5
  | 6 => s.cmdEnd h 6
  | 7 => if s.level < 2 then (s, 0x0F) else s.cmdExport h
  | 8 => if s.level < 2 then (s, 0x0F) else s.cmdImport h
  | _ => (s, 0x0F)
/-- What a write of STRM_CMD does (R285): while BUSY it is lost; else the command is accepted or refused with its code. Before READY no
command is accepted (R632). -/
def State.strmCmd (s : State) (op : Nat) : State :=
  if s.fld BOOT_STAT 31 28 ≠ 7 ∨ s.inWarm then s
  else if s.rbit STRM_CMD_STAT 31 then s.setBit STRM_CMD_STAT 30 true
  else
    let r := s.runCommand op
    r.1.setFld STRM_CMD_STAT 7 0 r.2
/-- A write of STRM_CMD. -/
def State.wrStrmCmd (s : State) (p : Port) (w : Nat) : State := s.hostWrite p STRM_CMD w (fun t => t.strmCmd (bits w 31 28))
/-- A command written with zeros in its reserved bits. -/
def strmCommand (p : Port) (op : Nat) (s : State) : Res := .next (s.wrStrmCmd p (op * 2 ^ 28))

def execStart (p : Port) (s : State) : Res := strmCommand p 1 s
def execPause (p : Port) (s : State) : Res := strmCommand p 2 s
def execResumeReplay (p : Port) (s : State) : Res := strmCommand p 3 s
def execResumeDrop (p : Port) (s : State) : Res := strmCommand p 4 s
def execEndStream (p : Port) (s : State) : Res := strmCommand p 5 s
def execEndErase (p : Port) (s : State) : Res := strmCommand p 6 s
def execExportWheel (p : Port) (s : State) : Res := strmCommand p 7 s
def execImportWheel (p : Port) (s : State) : Res := strmCommand p 8 s
/-- OP_RESERVED (R287): an OP that names a command runs it. -/
def execOpReserved (p : Port) (op : BitVec 4) (s : State) : Res := strmCommand p op.toNat s

/-! ## What completes a command (R283, R286, R323) -/

/-- WHEEL_IO (R389): a wheel write that failed its checks twice is logged. -/
def State.wheelIo (s : State) (i : Nat) : State := (s.log 0x42 0x40 0 (s.handle i)).importFails i 0x0E
/-- START_WHEEL_WRITTEN. -/
def execStartWheelWritten (i : BitVec 12) (ok : Bool) (s : State) : Res :=
  let k := i.toNat
  let x := s.str k
  if x.st ≠ .starting then notDue "the stream is not STARTING"
  else if !ok then .next (s.wheelIo k)
  else if x.mirror && !x.acked then notDue "the buddy has not acknowledged the wheel"
  else .next (((s.copyWheel k).setStr k { (s.copyWheel k).str k with st := .active }).completeCmd k 0)
/-- EXPORT_COMPLETE: the last flit of the image is handed to the D2D port. -/
def execExportComplete (i : BitVec 12) (s : State) : Res :=
  let k := i.toNat
  if (s.str k).st ≠ .exporting then notDue "the stream is not EXPORTING"
  else .next ((s.setStr k { s.str k with st := .exported }).completeCmd k 0)
/-- IMPORT_WHEEL_WRITTEN. -/
def execImportWheelWritten (i : BitVec 12) (ok : Bool) (s : State) : Res :=
  let k := i.toNat
  let x := s.str k
  if x.st ≠ .importing ∨ !x.image then notDue "no verified image of the stream is being written"
  else if !ok then .next (s.wheelIo k)
  else if x.mirror && !x.acked then notDue "the buddy has not acknowledged the wheel"
  else .next (((s.copyWheel k).setStr k { (s.copyWheel k).str k with st := .paused }).completeCmd k 0)
/-- 100 ms in rclk. -/
def importWait : Nat := 960000
/-- IMPORT_INCOMPLETE: no image burst accepted within 100 ms of the acceptance. -/
def execImportIncomplete (i : BitVec 12) (s : State) : Res :=
  let k := i.toNat
  let x := s.str k
  if x.st ≠ .importing ∨ x.image then notDue "no IMPORT waits for its image"
  else if s.rclk < x.timer + importWait then notDue "100 ms have not passed"
  else
    .next (if x.curd.isSome then s.loseCurd k 1 else s.importFails k 0x0D)

/-! ## Registers that act (R325 to R327) -/

/-- STRM_DONE_LO and STRM_DONE_HI as they read. -/
def State.doneView (s : State) : Nat × Nat :=
  match s.doneFifo with
  | [] => (0, 0)
  | r :: _ => (r.handle, 2 ^ 31 + r.op * 2 ^ 24 + r.code * 2 ^ 16)
/-- STRM_DONE_HI: a read removes the oldest record; a held completion takes the place, and BUSY falls with the last one. -/
def State.popDone (s : State) : State :=
  s.withLine 0x1A0 <|
  match s.doneHeld with
  | [] => { s with doneFifo := s.doneFifo.drop 1 }
  | r :: rest =>
    let s1 := { s with doneFifo := s.doneFifo.drop 1 ++ [r], doneHeld := rest }
    if rest.isEmpty then s1.setBit STRM_CMD_STAT 31 false else s1
def execStrmDoneHi (p : Port) (s : State) : Res :=
  if p = .jtag ∧ !s.rbit DEV_SEAL 1 then .next s
  else if s.pageOn 0x1A0 then .next (s.touch p).popDone
  else .next (s.touch p)
/-- STRM_VIEW_SEL (R326). -/
def execStrmViewSel (p : Port) (w : Word) (s : State) : Res := .next (s.hostWrite p STRM_VIEW_SEL w.toNat id)
/-- The per-stream counters of the selected entry cleared. -/
def State.viewClr (s : State) (w : Nat) : State :=
  if bit w 0 then
    let i := s.fld STRM_VIEW_SEL 11 0
    s.setStr i { s.str i with cntWhey := 0, cntIncomplete := 0, cntOverrun := 0, cntRerun := 0, cntDrop := 0 }
  else s
def State.wrViewClr (s : State) (p : Port) (w : Nat) : State := s.hostWrite p (pg 0x1A4 0x044) w (fun t => t.viewClr w)
/-- STRM_VIEW_CLR (R326). -/
def execStrmViewClr (p : Port) (w : Word) (s : State) : Res := .next (s.wrViewClr p w.toNat)
/-- The bytes of the selected stream-table entry as page 0x1A4 reads them. -/
def State.view (s : State) : List Byte :=
  let i := s.fld STRM_VIEW_SEL 11 0
  let x := s.str i
  let fl := (if x.slot then 1 else 0) + (if x.fault then 2 else 0) + (if x.resident then 4 else 0) + (if x.mirror then 8 else 0)
    + (if x.curd.isSome then 16 else 0)
  toBytes 4 (s.handle i) ++ toBytes 1 x.st.code ++ toBytes 1 x.cls ++ toBytes 2 fl ++ toBytes 8 x.cseq ++ toBytes 4 x.lastSeq
    ++ toBytes 2 x.cntWhey ++ toBytes 2 x.cntIncomplete ++ toBytes 2 x.cntOverrun ++ toBytes 2 x.cntRerun ++ toBytes 2 x.cntDrop
    ++ toBytes 2 (sat16 x.backlogged)

end Sys2Proof.Machine
end

