-- ==== Sys2Proof/Machine/CharterOps.lean ====
section
/-! DEFINITION. The charter: members and quorum, proposals and votes, what a commit does, renewal rounds, buddies, the merge of a
rejoin (16_linueton_systems.md R498 to R520). The payloads of the messages between members are a DESIGN CHOICE (log entry 16). -/

namespace Sys2Proof.Machine

/-! ## Members, weights and quorum (R498, R500) -/

/-- The members of the configured charter and of the charter in force. -/
def State.cfgMembers (s : State) : List Nat := (List.range 1024).filter (fun k => s.rbit (CH_SEAT k) 31)
def State.nowMembers (s : State) : List Nat := (List.range 1024).filter (fun k => s.rbit (CH_SEAT_NOW k) 31)
def State.cfgWeight (s : State) (k : Nat) : Nat := if s.rbit (CH_SEAT k) 31 then s.fld (CH_SEAT k) 19 16 else 0
def State.nowWeight (s : State) (k : Nat) : Nat := if s.rbit (CH_SEAT_NOW k) 31 then s.fld (CH_SEAT_NOW k) 19 16 else 0
def sumBy (w : Nat → Nat) (l : List Nat) : Nat := l.foldl (fun n k => n + w k) 0
/-- Quorum of a set under weights, their total and an anchor. -/
def quorum (w : Nat → Nat) (total anchor : Nat) (l : List Nat) : Bool :=
  decide (total < 2 * sumBy w l) || (2 * sumBy w l == total && l.contains anchor)
/-- Q under the configured charter. -/
def State.cfgQuorum (s : State) (l : List Nat) : Bool :=
  quorum s.cfgWeight (sumBy s.cfgWeight s.cfgMembers) (s.fld CH_ANCHOR 9 0) l
/-- Q under the charter in force. -/
def State.nowQuorum (s : State) (l : List Nat) : Bool := quorum s.nowWeight (s.fld CH_WEIGHT 15 0) (s.fld CH_STAT 9 0) l
/-- Is a charter in force or was one before the device was cut off: its epoch is above 0 (R521)? -/
def State.chartered (s : State) : Bool := s.reg CH_EPOCH != 0
/-- The seats that routes reach, the own one included. -/
def State.reached (s : State) : List Nat := (s.dists s.seat).map Prod.fst
/-- A seat has sent no RACK for two consecutive rounds (R507). -/
def State.silent (s : State) (k : Nat) : Bool := s.hoop.missed.any (fun m => m.1 == k && decide (2 ≤ m.2))
/-- R of R514: the members that the device can reach, itself included. -/
def State.reachSet (s : State) : List Nat :=
  let rs := s.reached
  s.nowMembers.filter (fun k => k == s.seat || (rs.contains k && !s.silent k))

/-! ## Messages -/

def seatBytes (l : List Nat) : List Byte := l.flatMap (fun k => toBytes 2 k)
def originBytes (l : List (Nat × Nat)) : List Byte := l.flatMap (fun o => toBytes 2 o.1 ++ toBytes 2 0 ++ toBytes 4 o.2)
def proposeBytes (p : Proposal) (digest : Nat) : List Byte :=
  toBytes 4 p.epoch ++ toBytes 1 (if p.forming then 1 else 0) ++ toBytes 1 0 ++ toBytes 2 p.members.length ++ toBytes 8 digest
    ++ seatBytes p.members
def voteBytes (epoch : Nat) (taken : List (Nat × Nat)) : List Byte :=
  toBytes 4 epoch ++ toBytes 4 taken.length ++ originBytes taken
def commitBytes (epoch anchor : Nat) (members joins : List Nat) (taken : List (Nat × Nat)) : List Byte :=
  toBytes 4 epoch ++ toBytes 2 anchor ++ toBytes 2 members.length ++ toBytes 2 joins.length ++ toBytes 2 taken.length
    ++ seatBytes members ++ seatBytes joins ++ originBytes taken
/-- `n` seats, or origins, that a message carries from an offset. -/
def seatsAt (bs : List Byte) (o n : Nat) : List Nat := (List.range n).map (fun i => ofBytes ((bs.drop (o + 2 * i)).take 2))
def originsAt (bs : List Byte) (o n : Nat) : List (Nat × Nat) :=
  (List.range n).map (fun i => (ofBytes ((bs.drop (o + 8 * i)).take 2), ofBytes ((bs.drop (o + 8 * i + 4)).take 4)))
/-- A message for every seat of a list but the own one. -/
def State.sendAll (s : State) (typ : Nat) (l : List Nat) (bs : List Byte) : State :=
  (l.filter (fun k => k != s.seat)).foldl (fun s k => s.sendSeat typ k bs) s
/-- The digest over the configured charter (R499). -/
def State.charterDigest (s : State) : Nat :=
  crc64 ([CH_DIM, CH_ANCHOR, CH_HOOP, CH_MIRROR].flatMap (fun a => toBytes 4 (s.reg a))
    ++ (List.range 1024).flatMap (fun k => toBytes 4 (s.reg (CH_SEAT k))))

/-! ## The hoop (R504, R505) -/

def State.hoopLen (s : State) : Nat := s.fld CH_HOOP 31 16 * 9600
/-- The length of one extension: 3/4 of LEN while the rind runs on the RC backup (R505). -/
def State.extension (s : State) : Nat := if s.rbit CLK_STAT 31 then s.hoopLen * 3 / 4 else s.hoopLen
/-- The hoop extended when the RACKs of the round and the device itself satisfy Q. -/
def State.tryExtend (s : State) : State :=
  if s.nowQuorum (s.seat :: s.hoop.racks) then
    { s with hoop := { s.hoop with ends := max s.hoop.ends (s.hoop.roundAt + s.extension) } }
  else s
/-- A renewal round starts (R504); a withdrawn device sends no RENEW (R565). -/
def State.startRound (s : State) : State :=
  let k := s.hoop.round + 1
  let s1 := { s with hoop := { s.hoop with round := k, roundAt := s.rclk, racks := [] } }
  if s.withdrawn then s1
  else (s1.sendAll tyRENEW (s1.nowMembers.filter (fun j => decide (0 < s1.nowWeight j)))
    (toBytes 4 (s1.reg CH_EPOCH) ++ toBytes 4 k)).tryExtend

/-! ## Buddies and mirrors (R511 to R513) -/

/-- The next member after a seat in ascending order, wrapping round and passing over the device itself (R513). -/
def State.nextMember (s : State) (k : Nat) : Option Nat :=
  let l := s.nowMembers.filter (fun j => j != s.seat)
  match l.find? (fun j => decide (k < j)) with
  | some j => some j
  | none => l.head?
/-- The mirror of stream i that its buddy is due: first one held back, then the committed wheel (R512, R513). -/
def State.fullMirror (s : State) (i : Nat) : State :=
  let x := s.str i
  let s1 := match x.step with
    | some t => if t.released && !t.mirrorAck && !t.rerun then s.sendMirror i (!x.slot) (x.cseq + t.inputs) else s
    | none => s
  s1.sendMirror i x.slot x.cseq
/-- The headers of new wheels that wait for their commit take the epoch in force (R291). -/
def State.resealAll (s : State) : State :=
  s.strIdx.foldl (fun s i =>
    match (s.str i).step with
    | some t => if t.released && !t.failed && !t.failedAfter && !t.rerun then s.sealHeader i t else s
    | none => s) s
/-- The buddies that a new charter leaves out are replaced; an owner sends a full mirror to a new buddy, and to a buddy that has
just joined (R513, R519). -/
def State.newBuddies (s : State) (joins : List Nat) : State :=
  s.strIdx.foldl (fun s i =>
    let x := s.str i
    if x.st == .free || !x.mirror then s
    else if s.member x.buddy then (if joins.contains x.buddy then s.fullMirror i else s)
    else match s.nextMember x.buddy with
      | none => s
      | some b => (s.setStr i { x with buddy := b }).fullMirror i) s

/-- A mirror-table entry; its slots and its record (R509). -/
def State.mirrorAt (s : State) (m : Nat) : Option Mirror := Sp.get (fun _ => none) s.mirrors m
def State.setMirror (s : State) (m : Nat) (x : Option Mirror) : State :=
  { s with mirrors := Sp.set (fun _ => none) s.mirrors m x }
def State.mirrorBase (s : State) : Nat := s.fld CH_MIRROR 5 0 * 2 ^ 30
def State.mirrorAddr (s : State) (m : Nat) (slot : Bool) : Nat := s.mirrorBase + m * 0x80000 + (if slot then 0x40000 else 0)
def State.mirrorRecord (s : State) (m : Nat) : Nat := s.mirrorBase + 0x80000000 + 16 * m
/-- The entry of an origin. -/
def State.mirrorOf (s : State) (seat handle : Nat) : Option Nat :=
  (s.mirrors.map Prod.fst).find? (fun m =>
    match s.mirrorAt m with | some x => x.originSeat == seat && x.originHandle == handle | none => false)
/-- The mirror message of an entry, as it goes back to a joiner that owns the stream (R519). -/
def State.entryBytes (s : State) (m : Nat) (x : Mirror) : List Byte :=
  let h := toBytes 4 x.originHandle ++ toBytes 2 x.originSeat ++ toBytes 2 x.wsize ++ toBytes 4 x.ownerHandle ++ toBytes 1 x.cls
    ++ toBytes 1 (if x.resident then 1 else 0) ++ toBytes 2 0 ++ toBytes 8 x.sched ++ toBytes 8 x.cseq
    ++ toBytes 4 (s.reg CH_EPOCH) ++ toBytes 4 0
  let img := s.hbmBytes (s.mirrorAddr m x.slot) (x.wsize * 256)
  h ++ toBytes 8 (crc64 (h ++ img)) ++ img
/-- The stream of this device with an origin. -/
def State.strOf (s : State) (seat handle : Nat) : Option Nat :=
  s.strIdx.find? (fun i => (s.str i).st != .free && (s.str i).originSeat == seat && (s.str i).originHandle == handle)
/-- The origins of the streams that this device has taken over. -/
def State.takenOrigins (s : State) : List (Nat × Nat) :=
  (s.strIdx.filter (fun i => (s.str i).st != .free && ((s.str i).originSeat != s.seat || (s.str i).originHandle != s.handle i)
    && (s.str i).mirror)).map (fun i => ((s.str i).originSeat, (s.str i).originHandle))

/-! ## Rejoin (R519, R520) -/

/-- The joiner's copy of a stream that a member continues: ENDed without erase, with notice GIVEN_UP. -/
def State.giveUp (s : State) (i : Nat) : State :=
  let s1 := ((s.notice i 2).quitStep i 0x0A).endBursts i
  (s1.setStr i { s1.str i with erase := false }).freeStream i
/-- A FENCED stream of the joiner: its bursts end as END ends them, and it is placed again at its index with a new generation,
PAUSED at its committed slot, with notice RESTORED. -/
def State.restore (s : State) (i : Nat) : State :=
  let s0 := s.endBursts i
  let x := s0.str i
  let s1 := s0.setStr i { x with gen := nextGen x.gen, st := .paused, fault := false, step := none, lastSeq := x.wheelSeq }
  (s1.writeHeader i x.slot x.cseq x.cursor x.wheelSeq x.rcheck).notice i 3
/-- What the commit that admits the device does with its own streams and mirror entries. -/
def State.mergeJoiner (s : State) (taken : List (Nat × Nat)) : State :=
  let s1 := s.strIdx.foldl (fun s i =>
    let x := s.str i
    if x.st == .free then s
    else if taken.contains (x.originSeat, x.originHandle) then s.giveUp i
    else if x.st == .fenced then s.restore i else s) s
  { s1 with mirrors := [], takeovers := [] }
/-- What the other members do for joiners: a taken stream is released at the joiner, a mirror of a joiner's stream goes back to
it, and its pending takeovers are cancelled. -/
def State.mergeMember (s : State) (joins : List Nat) : State :=
  let js := joins.filter (fun k => k != s.seat)
  let s1 := js.foldl (fun s k => s.takenOrigins.foldl (fun s o => s.sendSeat tyMREL k (mrelBytes o.1 o.2)) s) s
  s1.mirrors.foldl (fun s e =>
    match e.2 with
    | some x => if js.contains x.ownerSeat then s.sendSeat tyMIRROR x.ownerSeat (s.entryBytes e.1 x) else s
    | none => s) s1

/-! ## Commit (R502, R503, R508, R515) -/

/-- The seat table in force written. -/
def State.writeSeats (s : State) (l : List Nat) : State :=
  (List.range 1024).foldl (fun s k =>
    let v := if l.contains k then 2 ^ 31 + s.fld (CH_SEAT k) 19 16 * 2 ^ 16 else 0
    if s.reg (CH_SEAT_NOW k) = v then s else s.setReg (CH_SEAT_NOW k) v) s
/-- The takeovers that the new charter starts and cancels (R515, R519): an entry whose owner it leaves out is due at the commit
time + LEN + 2 ms. -/
def State.planTakeovers (s : State) : State :=
  let out := fun (m : Nat) => match s.mirrorAt m with | some x => !s.member x.ownerSeat | none => false
  let keep := s.takeovers.filter (fun t => out t.entry)
  let new := (s.mirrors.map Prod.fst).filter (fun m => out m && !keep.any (fun t => t.entry == m))
  { s with takeovers := keep ++ new.map (fun m => ⟨m, s.rclk + s.hoopLen + 19200, false⟩) }
/-- The SCOPE 1 collectives in progress whose seats the new charter leaves out fail (R474). -/
def State.failScopes (s : State) : State :=
  (List.range 16).foldl (fun s g =>
    match s.current g with
    | none => s
    | some x =>
      if (s.givers g x.stag.toNat).any (fun p => p.2.scope) && !(seatOrder x).all s.member then
        (s.bump SPN_CNT 31 16 1).collFail g x.stag.toNat 0x2D 1
      else s) s
/-- Every remote sender ring at its full credit count (R503). -/
def State.fullCredits (s : State) : State :=
  (s.scheds.flatMap (fun x => x.remoteRings)).foldl (fun s r => s.setCredit (remoteKey r.seat.toNat r.zone.toNat r.num.toNat) r.size) s
/-- A commit applied by a member (R503). -/
def State.applyCommit (s : State) (epoch anchor : Nat) (l joins : List Nat) (taken : List (Nat × Nat)) : State :=
  let s1 := s.writeSeats l
  let s2 := ((((s1.setReg CH_EPOCH epoch).setFld CH_STAT 31 29 2).setFld CH_STAT 9 0 anchor).setFld CH_WEIGHT 15 0
    (sumBy s1.nowWeight l)).bump CH_CNT 15 0 1
  let ends := if s.hoop.standing then s.rclk + s.extension else s.hoop.ends
  let s3 := { s2.setReg CH_CMD 0 with
    hoop := { s.hoop with standing := false, ends := ends, racks := [], refused := [], proposal := none, missed := [],
                          joiners := s.hoop.joiners.filter (fun k => !l.contains k) } }
  let s4 := s3.startRound.fullCredits.failScopes
  let s5 := if joins.contains s.seat then s4.mergeJoiner taken else s4.mergeMember joins
  s5.planTakeovers.resealAll.newBuddies joins
/-- The anchor of a new member set (R502). -/
def State.newAnchor (s : State) (forming : Bool) (l : List Nat) : Nat :=
  let old := if forming then s.fld CH_ANCHOR 9 0 else s.fld CH_STAT 9 0
  if l.contains old then old
  else
    let top := l.foldl (fun m k => max m (s.cfgWeight k)) 0
    (l.find? (fun k => s.cfgWeight k == top)).getD 0
/-- The proposer commits when its votes satisfy Q (R501): the voters, and the joiners of the proposal (R518), become the members. -/
def State.tryCommit (s : State) : State :=
  match s.hoop.proposal with
  | none => s
  | some p =>
    if !(if p.forming then s.cfgQuorum p.votes else s.nowQuorum p.votes) then s
    else
      let l := p.members.filter (fun k => p.votes.contains k || p.joins.contains k)
      let a := s.newAnchor p.forming l
      (s.sendAll tyCOMMIT l (commitBytes p.epoch a l p.joins p.taken)).applyCommit p.epoch a l p.joins p.taken

/-! ## Proposals (R499, R501, R514, R518) -/

/-- A vote of this device (R501): once for each epoch, and no RACK to the seats that the list leaves out. -/
def State.castVote (s : State) (epoch : Nat) (l : List Nat) : State :=
  let out := s.nowMembers.filter (fun k => !l.contains k)
  { s with hoop := { s.hoop with voted := epoch :: s.hoop.voted, refused := s.hoop.refused ++ out } }
/-- A proposal made: the next epoch that the device has not voted for. -/
def State.propose (s : State) (l joins : List Nat) (forming : Bool) : State :=
  let epoch := s.hoop.voted.foldl max (s.reg CH_EPOCH) + 1
  let p : Proposal := ⟨epoch, l, joins, [s.seat], s.takenOrigins, forming, s.rclk⟩
  let s1 := s.castVote epoch l
  let s2 := { s1 with hoop := { s1.hoop with proposal := some p } }
  (s2.sendAll tyPROPOSE (l.filter (fun k => !joins.contains k)) (proposeBytes p s.charterDigest)).tryCommit
/-- May the device propose now? -/
def State.mayPropose (s : State) : Bool := !s.withdrawn && s.hoop.proposal.isNone && decide (s.hoop.backoff ≤ s.rclk)
/-- Formation (R499): the member of lowest seat that reaches members with quorum proposes. -/
def State.tryForm (s : State) : State :=
  let rs := s.reached
  let l := s.cfgMembers.filter (fun k => k == s.seat || rs.contains k)
  if s.mayPropose && l.head? == some s.seat && s.cfgQuorum l then s.propose l [] true else s
/-- What a change of the routes or of R507 does under a charter (R514): REACH, a proposal of R and of the joiners that wait, or
the fence; a device that has quorum again under its own charter is in force again (DEDUCED, log entry 41). -/
def State.evalReach (s : State) : State :=
  let st := s.fld CH_STAT 31 29
  if !s.chartered then (if st = 1 then s.tryForm else s)
  else
    let l := s.reachSet
    let s1 := s.setFld CH_WEIGHT 31 16 (sumBy s.nowWeight l)
    if s1.nowQuorum l then
      let s2 := if st = 3 then s1.setFld CH_STAT 31 29 2 else s1
      let js := s2.hoop.joiners.filter (fun k => !l.contains k)
      if s2.mayPropose && l.head? == some s2.seat && (l != s2.nowMembers || !js.isEmpty) && s2.fld CH_STAT 31 29 == 2 then
        s2.propose ((List.range 1024).filter (fun k => l.contains k || js.contains k)) js false
      else s2
    else if st = 4 then s1
    else s1.setFld CH_STAT 31 29 3
/-- A device that meets an epoch above its own asks to join (R518). -/
def State.askJoin (s : State) : State :=
  let os := (s.strIdx.filter (fun i => (s.str i).st != .free)).map (fun i =>
    ((s.str i).originSeat, (s.str i).originHandle, (s.str i).cseq))
  let ms := s.mirrors.filterMap (fun e => e.2.map (fun x => (x.originSeat, x.originHandle, x.cseq)))
  let item := fun (o : Nat × Nat × Nat) => toBytes 2 o.1 ++ toBytes 2 0 ++ toBytes 4 o.2.1 ++ toBytes 8 o.2.2
  let bs := toBytes 2 s.seat ++ toBytes 2 0 ++ toBytes 4 (s.reg CH_EPOCH) ++ toBytes 2 os.length ++ toBytes 2 ms.length
    ++ os.flatMap item ++ ms.flatMap item
  let rs := s.reached
  (s.setFld CH_STAT 31 29 4).sendAll tyJOIN (s.cfgMembers.filter rs.contains) bs
/-- A message shows its sender's epoch (R481). -/
def State.seeEpoch (s : State) (epoch : Nat) : State :=
  if s.reg CH_EPOCH < epoch ∧ s.rbit (CH_SEAT s.seat) 31 then s.askJoin else s

end Sys2Proof.Machine
end

