-- ==== Sys2Proof/Machine/Links.lean ====
section
/-! DEFINITION. Linueton ports: flits that arrive, credits, retry, lanes, losses, training, routes, and the collective, carry and
light-path messages they bring (16_linueton_systems.md R481 to R497). What a change of the reachable members starts is in
Machine/CharterOps.lean. -/

namespace Sys2Proof.Machine

/-! ## The loss of a link (R490, R496) -/

/-- The LINK state of a port (LNK_STAT.STATE). -/
def State.linkState (s : State) (p : Nat) : Nat := s.fld (LNK_STAT p) 31 29
def State.setLinkState (s : State) (p v : Nat) : State := s.setFld (LNK_STAT p) 31 29 v
/-- A notice of a change of link `p`, flooded on every live port (R496). -/
def State.flood (s : State) (p : Nat) : State :=
  let k := Sp.get (fun _ => 0) s.lstateSeq s.seat + 1
  let s1 := { s with lstateSeq := Sp.set (fun _ => 0) s.lstateSeq s.seat k }
  let b := toBytes 2 s.seat ++ toBytes 1 p ++ toBytes 1 (s.linkState p) ++ toBytes 4 k
  (List.range 6).foldl (fun s q => if s.linkState q = 2 then s.sendPort tyLSTATE q b else s) s1
/-- INFO of a link event: the lane and the peer's seat (R568). -/
def State.linkInfo (s : State) (p lane : Nat) : Nat := lane + s.fld (LNK_STAT p) 23 14 * 65536
/-- The flits that wait at a port take their routes again; those without one are counted (R486). -/
def State.requeue (s : State) (p : Nat) : State :=
  let q := (s.link p).queue
  q.foldl (fun s f =>
    match (if flitN f 6 2 = 0xFFFF then none else s.route (flitN f 6 2)) with
    | some k => s.queueFlit k f
    | none => s.bump LNK_DEV_CNT 10 0 1) (s.setLink p { s.link p with queue := [] })
/-- A link is lost (R490): counted and logged, its unacknowledged flits discarded, the routes computed again. -/
def State.loseLink (s : State) (p : Nat) : State :=
  let n := (s.link p).retry.length
  let s1 := ((s.log 0x39 (0x48 + p) 0 (s.linkInfo p 0)).bump (LNK_CNT p) 15 0 1).bump LNK_DEV_CNT 10 0 n
  let s2 := (s1.setLinkState p 0).setLink p { LinkPort.reset with queue := (s.link p).queue }
  ((s2.requeue p).flood p).evalReach
/-! ## Receiving (R482 to R491) -/

/-- Flits acknowledged by the peer leave the retry buffer (R488). -/
def LinkPort.ackTo (x : LinkPort) (ack : Nat) : LinkPort :=
  if x.retry.any (fun r => r.1 == ack) then
    { x with retry := (x.retry.dropWhile (fun r => r.1 != ack)).drop 1, acked := ack, attempts := 0 }
  else { x with acked := ack }
/-- Credits that a control word returns (R483, R485): pool credits at hop code 0x1F, else reserved ones. -/
def LinkPort.creditBack (x : LinkPort) (vc hop : Nat) : Nat → LinkPort
  | 0 => x
  | k + 1 =>
    (if hop = 0x1F then { x with pool := min 512 (x.pool + 1) }
     else { x with resv := x.resv.erase (vc, hop + 1) }).creditBack vc hop k
/-- The flits after the last acknowledged one sent again in their order (R488). -/
def State.resend (s : State) (p : Nat) : State := (s.link p).retry.foldl (fun s r => s.emit p r.1 r.2) s
/-- An idle flit, which carries only a control word (R482). -/
def idleFlit : List Byte := List.replicate 256 0
/-- A control word for the peer where no flit has carried one since `s0`. -/
def State.answer (s0 s : State) (p : Nat) : State :=
  if s.linkOut.length = s0.linkOut.length ∧ s.fld (LNK_STAT p) 31 29 = 2 then s.emit p (s.link p).txSeq idleFlit else s

/-- A flit takes a buffer and leaves it again in one command, and its credit is owed to the peer (R485): a pool credit while the
peer holds one, else the reserved credit of the flit's class. -/
def State.owe (s : State) (p : Nat) (f : List Byte) : State :=
  let x := s.link p
  if 0 < x.rxPool then s.setLink p { x with owed := x.owed ++ [(0, 0x1F)], rxPool := x.rxPool - 1 }
  else s.setLink p { x with owed := x.owed ++ [(flitVc f, flitHop f - 1)] }
/-- A flit for this device joins its message (R481); the last one completes it. A flit out of order has no message to join. -/
def State.assemble (s : State) (p : Nat) (f : List Byte) : State :=
  let vc := flitVc f
  let src := flitN f 4 2
  let id := flitN f 0x0C 2
  let k := bits (flitN f 0x0E 2) 14 0
  let last := bit (flitN f 0x0E 2) 15
  let body := (f.drop 16).take (min 240 (flitN f 2 2))
  let same := fun (x : Partial) => x.vc == vc && x.src == src && x.msgid == id
  let old : Option Partial := if k = 0 then some ⟨vc, src, id, 0, []⟩ else s.partials.find? same
  let rest := s.partials.filter (fun x => !same x)
  match old with
  | none => s
  | some x =>
    if x.next ≠ k then s
    else if last then
      { s with partials := rest,
               linkIn := s.linkIn ++ [⟨flitN f 0 1, src, flitN f 8 4, p, x.bytes ++ body⟩] }
    else { s with partials := rest ++ [{ x with next := k + 1, bytes := x.bytes ++ body }] }
/-- A flit taken in order (R482, R486, R491): a reserved type is counted BAD; one for another device is forwarded one hop further;
one of VC0 to VC2 with another epoch is counted STALE. -/
def State.takeLinkFlit (s : State) (p : Nat) (f : List Byte) : State :=
  let typ := flitN f 0 1
  let dst := flitN f 6 2
  let s1 := s.owe p f
  if 0x0E ≤ typ then s1.bump LNK_DEV_CNT 31 22 1
  else if dst = 0xFFFF ∨ dst = s.seat then
    (if flitVc f ≠ 3 ∧ flitN f 8 4 ≠ s.reg CH_EPOCH then s1.bump LNK_DEV_CNT 21 11 1 else s1.assemble p f)
  else if typ = tyLANECTL then s1
  else
    match s.route dst with
    | some q => if 31 ≤ flitHop f then s1.bump LNK_DEV_CNT 10 0 1
      else s1.queueFlit q (f.take 1 ++ toBytes 1 (flitN f 1 1 + 1) ++ f.drop 2)
    | none => s1.bump LNK_DEV_CNT 10 0 1
/-- The control word of a flit that passed its check: acknowledgement, credits, and a NAK, which is counted and answered by the
resend; a NAK is the failure of one attempt of the oldest unacknowledged flit, and the 17th loses the link (R488, R490). It also says that
the peer discarded flits of this device, so a NAK of this device's own that is unanswered goes out again. -/
def State.takeControl (s : State) (p hi : Nat) : State :=
  let x := (s.link p).ackTo (bits hi 21 12)
  let x1 := x.creditBack (bits hi 10 9) (bits hi 8 4) (bits hi 3 1)
  if bit hi 11 then
    let s1 := (s.setLink p { x1 with attempts := x1.attempts + 1, nak := x1.nak || x1.lost }).bump (LNK_CNT p) 31 16 1
    if 16 ≤ x1.attempts then s1.loseLink p else s1.resend p
  else s.setLink p x1
/-- A flit in order is taken, and ends the wait for a resend; one that is out of order is discarded, and the first one ahead of its
turn asks for a resend, the later ones until that arrives are discarded with it (R488). An idle flit carries only its control word. -/
def State.takeFrame (s : State) (p hi : Nat) (f : List Byte) : State :=
  let x := s.link p
  let seq := bits hi 31 22
  if flitN f 0 1 = 0 then s
  else if seq = x.rxSeq then (s.setLink p { x with rxSeq := (x.rxSeq + 1) % 1024, lost := false }).takeLinkFlit p f
  else if (x.rxSeq + 1024 - seq) % 1024 ≤ 512 then s
  else s.setLink p { x with nak := x.nak || !x.lost, lost := true }
/-- LINK_FLIT (R488): 256 bytes and the control word; `fec` is the number of symbols the code corrected, 0xFFFF a codeword it could
not correct. -/
def execLinkFlit (l : Fin 6) (bytes : List Byte) (fec : BitVec 16) (s : State) : Res :=
  let p := l.val
  if s.fld (LNK_STAT p) 31 29 ≠ 2 then notDue "the link is not up"
  else
    let f := bytes.take 256
    let cw := bytes.drop 256
    let hi := ofBytes (cw.drop 4)
    if fec.toNat = 0xFFFF ∨ bytes.length ≠ 264 ∨ crc32c (f ++ cw.drop 4) ≠ ofBytes (cw.take 4) then
      .next (s.answer (s.setLink p { s.link p with nak := true, lost := true }) p)
    else
      let s0 := (s.bump (LNK_FEC p) 31 0 fec.toNat).takeControl p hi
      if s0.linkState p ≠ 2 then .next s0
      else
        let s1 := (s0.takeFrame p hi f).pump p 1024
        .next (if flitN f 0 1 = 0 then s1 else s.answer s1 p)

/-! ## Messages for this device (R482) -/

/-- The oldest message of a type that the links have brought, and the state without it. -/
def State.popMsg (s : State) (typ : Nat) : Option (LMsg × State) :=
  match s.linkIn.find? (fun m => m.typ == typ) with
  | none => none
  | some m => some (m, { s with linkIn := s.linkIn.erase m })
/-- A command that consumes the oldest message of a type. -/
def onMsg (typ : Nat) (s : State) (k : LMsg → State → State) : Res :=
  match s.popMsg typ with
  | none => notDue "no message of the type has arrived"
  | some r => .next (k r.1 r.2)
/-- DATA (R472, R183): another device's part of a SCOPE 1 collective, or a carry for an inbox. -/
def State.takeData (s : State) (m : LMsg) : State :=
  let b := m.payload
  let n := fun (o k : Nat) => ofBytes ((b.drop o).take k)
  match n 0 1 with
  | 1 => { s with remote := s.remote.filter (fun r => !(r.1 == n 2 2 && r.2.1 == m.src)) ++ [(n 2 2, m.src, b.drop 1)] }
  | 2 =>
    let ws := wordList 4 b.length (b.drop 6)
    let vs := (List.range (ws.length / 2)).map (fun i => (ws.getD (2 * i) 0, ws.getD (2 * i + 1) 0))
    s.postCarry (n 1 1) ⟨n 2 2, n 4 2, m.src, none, vs⟩
  | 3 => s.dropCarries (n 2 2) m.src (n 1 1 == 1)
  | _ => s
def execData (s : State) : Res := onMsg tyDATA s (fun m t => t.takeData m)
/-- MSG (R384, R348): a light-path message for a sender ring of this device, or a credit return of a remote ring. -/
def State.takeMsg (s : State) (m : LMsg) : State :=
  let b := m.payload
  let n := fun (o k : Nat) => ofBytes ((b.drop o).take k)
  match n 0 1 with
  | 0 => (match s.ringAt (n 2 2) (n 4 2) with
    | some r =>
      let key := ringKey r.zone.toNat r.num.toNat
      let k := (n 6 2 + 255) / 256
      (s.setCredit key (s.credit key - k)).ringPut r k ((b.drop 8).take (n 6 2))
    | none => s)
  | 1 => (match s.outRing m.src (n 2 2) with
    | some r => let k := remoteKey m.src (n 2 2) (n 4 2)
                s.setCredit k (min r.size (s.credit k + n 6 2))
    | none => s)
  | _ => s
def execMsg (s : State) : Res := onMsg tyMSG s (fun m t => t.takeMsg m)

/-! ## Lanes, losses, training (R489 to R496) -/

/-- LANECTL (R489): the peer has moved a lane's place in the working set. The identity of training comes with LINK_UP. -/
def execLanectl (l : Fin 6) (s : State) : Res :=
  match s.linkIn.find? (fun m => m.typ == tyLANECTL && m.port == l.val) with
  | none => notDue "no LANECTL has arrived on the port"
  | some m =>
    let s1 := { s with linkIn := s.linkIn.erase m }
    let lane := ofBytes ((m.payload.drop 1).take 1)
    if ofBytes (m.payload.take 1) = 1 ∧ lane < 4 then
      .next (((s1.setBit (LNK_STAT l.val) lane false).setBit (LNK_STAT l.val) 4 true).setLink l.val { s1.link l.val with spare := true })
    else .next s1
/-- LANE_FAIL (R489): the failed lane's place goes to lane 4, with LANECTL to the peer; a second failure loses the link. -/
def execLaneFail (l : Fin 6) (lane : Fin 5) (s : State) : Res :=
  let p := l.val
  if s.linkState p ≠ 2 then notDue "the link is not up"
  else if !s.rbit (LNK_STAT p) lane.val then notDue "the lane is not in the working set"
  else if (s.link p).spare then .next (s.loseLink p)
  else
    let s1 := (s.log 0x38 (0x48 + p) 7 (s.linkInfo p lane.val)).setLink p { s.link p with spare := true }
    .next (((s1.setBit (LNK_STAT p) lane.val false).setBit (LNK_STAT p) 4 true).sendPort tyLANECTL p (toBytes 1 1 ++ toBytes 1 lane.val))
/-- LNK_LOST (R490). -/
def execLnkLost (l : Fin 6) (s : State) : Res :=
  if s.linkState l.val ≠ 2 then notDue "the link is not up" else .next (s.loseLink l.val)
/-- LINK_RETRAIN (R490): a lost or miswired port attempts training again. -/
def execLinkRetrain (l : Fin 6) (s : State) : Res :=
  let st := s.linkState l.val
  if st = 0 ∨ st = 4 then .next (s.setLinkState l.val 1) else notDue "the port does not wait for another attempt"
/-- The working set of the usable lanes: lanes 0 to 3, or the four that are usable (R479, R490). -/
def workingSet (lanes : Nat) : Nat := if lanes % 16 = 15 then 15 else lanes
/-- LINK_UP (R495): training ends with the peer's seat and port; a peer that R494 does not expect makes the link miswired. -/
def execLinkUp (l : Fin 6) (seat : BitVec 10) (peer : BitVec 3) (lanes : BitVec 5) (s : State) : Res :=
  let p := l.val
  let good := ((List.range 5).filter (fun k => bit lanes.toNat k)).length
  if s.linkState p ≠ 1 then notDue "the port does not train"
  else if good < 4 then notDue "fewer than four lanes are usable"
  else
    let s1 := ((s.setFld (LNK_STAT p) 23 14 seat.toNat).setFld (LNK_STAT p) 13 11 peer.toNat).setFld (LNK_STAT p) 4 0 (workingSet lanes.toNat)
    if s.neighbour s.seat p = some seat.toNat ∧ peer.toNat = peerPort p then
      .next (((((s1.setLinkState p 2).setLink p { LinkPort.reset with spare := lanes.toNat % 16 ≠ 15 }).flood p).evalReach))
    else
      .next (((s1.setLinkState p 4).bump (LNK_CNT p) 15 0 1).log 0x3A (0x48 + p) 0 (s1.linkInfo p 0))
/-- LSTATE (R496): a notice with a higher number for its seat is applied and forwarded. -/
def State.takeLstate (s : State) (m : LMsg) : State :=
  let n := fun (o k : Nat) => ofBytes ((m.payload.drop o).take k)
  let seat := n 0 2
  let s0 := s.seeEpoch m.epoch
  if n 4 4 ≤ Sp.get (fun _ => 0) s.lstateSeq seat then s0
  else
    let s1 := { s0 with lstateSeq := Sp.set (fun _ => 0) s0.lstateSeq seat (n 4 4),
                        linkDown := Sp.set (fun _ => false) s0.linkDown (8 * seat + n 2 1) (n 3 1 != 2) }
    ((List.range 6).foldl (fun s q => if q ≠ m.port ∧ s.linkState q = 2 then s.sendPort tyLSTATE q m.payload else s) s1).evalReach
def execLstate (s : State) : Res := onMsg tyLSTATE s (fun m t => t.takeLstate m)

end Sys2Proof.Machine
end

