-- ==== Sys2Proof/Machine/Charter.lean ====
section
/-! DEFINITION. The commands of the charter: formation, proposals, votes, commits, renewal, lapse, rejoin, mirrors and takeovers
(16_linueton_systems.md R498 to R520). -/

namespace Sys2Proof.Machine

/-! ## Formation (R499) -/

/-- A port whose link must come up for formation sends the knock for up to 1 s: 10,000 repetitions (R492, R493). -/
def State.startKnocks (s : State) : State :=
  (List.range 6).foldl (fun s p =>
    match s.neighbour s.seat p with
    | some b => if s.linkState p ≠ 2 ∧ s.rbit (CH_SEAT b) 31 then s.setLink p { s.link p with knocks := 10000 } else s
    | none => s) s
/-- What a write of CH_CMD.FORM does (R499, R504): formation starts, and timer 3 goes to the hoop watchdog. Under a charter it does
nothing (DESIGN CHOICE, log entry 42). -/
def State.startForm (s : State) (w : Nat) : State :=
  if !bit w 0 ∨ s.chartered then s
  else
    let s1 := { (((s.setReg CH_CMD 1).setFld CH_STAT 31 29 1).setReg (OWN_TMR 3) 4).setFld (RIND_TMR 3) 31 28 4 with formed := true, hoop := { s.hoop with formAt := s.rclk } }
    s1.startKnocks.tryForm
def State.wrChCmd (s : State) (p : Port) (w : Nat) : State := s.hostWrite p CH_CMD w (fun t => t.startForm w)
def execForm (p : Port) (s : State) : Res := .next (s.wrChCmd p 1)
/-- FORMATION_RETRY (R499): 100 ms after FORM, and every 10 ms from then on. -/
def execFormationRetry (s : State) : Res :=
  if s.fld CH_STAT 31 29 ≠ 1 then notDue "no formation is under way"
  else if s.rclk < s.hoop.formAt + 960000 then notDue "the retry is not due"
  else
    let s1 := { s with hoop := { s.hoop with formAt := s.hoop.formAt + 96000 } }
    .next s1.tryForm

/-! ## Proposals and votes (R501) -/

/-- PROPOSE: a vote, once for each epoch, for a list that holds this device; at formation only for its own digest. -/
def State.takePropose (s : State) (m : LMsg) : State :=
  let n := fun (o k : Nat) => ofBytes ((m.payload.drop o).take k)
  let epoch := n 0 4
  let forming := n 4 1 == 1
  let l := seatsAt m.payload 16 (n 6 2)
  if epoch ≤ s.reg CH_EPOCH ∨ s.hoop.voted.contains epoch ∨ !l.contains s.seat ∨ s.withdrawn then s
  else if forming then
    (if s.fld CH_STAT 31 29 ≠ 1 then s
     else if n 8 8 ≠ s.charterDigest then s.log 0x3B 0x40 0 m.src
     else (s.castVote epoch l).sendSeat tyVOTE m.src (voteBytes epoch s.takenOrigins))
  else if !s.member s.seat then s
  else (s.castVote epoch l).sendSeat tyVOTE m.src (voteBytes epoch s.takenOrigins)
def execPropose (s : State) : Res := onMsg tyPROPOSE s (fun m t => t.takePropose m)
/-- The time a proposal has to commit: 200 µs in rclk (R501). -/
def proposalTime : Nat := 1920
/-- VOTE: a vote of a member for the proposal in progress; it commits on quorum. -/
def State.takeVote (s : State) (m : LMsg) : State :=
  match s.hoop.proposal with
  | none => s
  | some p =>
    let may := if p.forming then s.rbit (CH_SEAT m.src) 31 else s.member m.src
    if ofBytes (m.payload.take 4) ≠ p.epoch ∨ !p.members.contains m.src ∨ p.votes.contains m.src ∨ !may ∨ p.sent + proposalTime < s.rclk then s
    else
      let os := originsAt m.payload 8 (ofBytes ((m.payload.drop 4).take 4))
      let p1 := { p with votes := p.votes ++ [m.src], taken := p.taken ++ os }
      { s with hoop := { s.hoop with proposal := some p1 } }.tryCommit
def execVote (s : State) : Res := onMsg tyVOTE s (fun m t => t.takeVote m)
/-- COMMIT (R503): a charter of a higher epoch whose members include this device. -/
def State.takeCommit (s : State) (m : LMsg) : State :=
  let n := fun (o k : Nat) => ofBytes ((m.payload.drop o).take k)
  let a := n 6 2
  let j := n 8 2
  let l := seatsAt m.payload 12 a
  if n 0 4 ≤ s.reg CH_EPOCH ∨ !l.contains s.seat then s
  else s.applyCommit (n 0 4) (n 4 2) l (seatsAt m.payload (12 + 2 * a) j) (originsAt m.payload (12 + 2 * a + 2 * j) (n 10 2))
def execCommit (s : State) : Res := onMsg tyCOMMIT s (fun m t => t.takeCommit m)
/-- PROPOSAL_TIMEOUT (R501): the proposal is dropped; the next may come after 1 ms + (seat mod 16) × 50 µs. -/
def execProposalTimeout (s : State) : Res :=
  match s.hoop.proposal with
  | none => notDue "no proposal is in progress"
  | some p =>
    if s.rclk < p.sent + proposalTime then notDue "200 us have not passed"
    else .next { s with hoop := { s.hoop with proposal := none, backoff := s.rclk + 9600 + s.seat % 16 * 480 } }
/-- JOIN (R518): the joiner waits for the proposal of the member of lowest seat. -/
def State.takeJoin (s : State) (m : LMsg) : State :=
  if s.fld CH_STAT 31 29 ≠ 2 ∨ !s.rbit (CH_SEAT m.src) 31 ∨ s.hoop.joiners.contains m.src then s.evalReach
  else { s with hoop := { s.hoop with joiners := s.hoop.joiners ++ [m.src] } }.evalReach
def execJoin (s : State) : Res := onMsg tyJOIN s (fun m t => t.takeJoin m)

/-! ## Hoops (R504 to R507) -/

/-- The rounds that each member of weight 1 or more has left unanswered, with the round that ends counted (R507). -/
def State.countMissed (s : State) : List (Nat × Nat) :=
  if s.hoop.round = 0 then s.hoop.missed
  else (s.nowMembers.filter (fun k => k != s.seat && decide (0 < s.nowWeight k))).map (fun k =>
    (k, if s.hoop.racks.contains k then 0
        else 1 + (match s.hoop.missed.find? (fun m => m.1 == k) with | some m => m.2 | none => 0)))
/-- RENEWAL_ROUND (R504, R507). -/
def execRenewalRound (s : State) : Res :=
  if !s.chartered ∨ s.hoop.standing then notDue "no charter is in force"
  else if s.rclk < s.hoop.roundAt + s.fld CH_HOOP 15 8 * 9600 then notDue "RENEW ms have not passed"
  else .next (({ s with hoop := { s.hoop with missed := s.countMissed } }.startRound).evalReach)
/-- RENEW (R504): answered with RACK where the epoch agrees, unless a vote has left the sender out. -/
def State.takeRenew (s : State) (m : LMsg) : State :=
  let epoch := ofBytes (m.payload.take 4)
  if epoch = s.reg CH_EPOCH ∧ s.chartered ∧ !s.hoop.refused.contains m.src ∧ !s.withdrawn then s.sendSeat tyRACK m.src (m.payload.take 8)
  else s.seeEpoch epoch
def execRenew (s : State) : Res := onMsg tyRENEW s (fun m t => t.takeRenew m)
/-- RACK (R504): one of an older round or epoch is ignored. -/
def State.takeRack (s : State) (m : LMsg) : State :=
  let n := fun (o : Nat) => ofBytes ((m.payload.drop o).take 4)
  if n 0 ≠ s.reg CH_EPOCH ∨ n 4 ≠ s.hoop.round ∨ s.hoop.racks.contains m.src then s
  else { s with hoop := { s.hoop with racks := s.hoop.racks ++ [m.src] } }.tryExtend
def execRack (s : State) : Res := onMsg tyRACK s (fun m t => t.takeRack m)
/-- HOOP_LAPSE (R506). -/
def execHoopLapse (s : State) : Res := if s.hoopRuns then notDue "the hoop is running" else .next s.fence

/-! ## Mirrors (R509 to R513) -/

/-- A wheel in a slot of stream i taken as its committed wheel: KEY, CSEQ, CURSOR, LAST_SEQ and RCHECK come from its header, which
gets the stream's HANDLE and a new HCHECK (R323, R515). -/
def State.adoptWheel (s : State) (i : Nat) (slot : Bool) (img : List Byte) : State :=
  let f := fun (o n : Nat) => ofBytes ((img.drop o).take n)
  let x := s.str i
  let x1 := { x with
    warm := false, key := f 0x0C 4, wsize := img.length / 256, sched := f 0x10 8, slot := slot, cseq := f 0x18 8, cursor := f 0x20 8 % 2 ^ 48,
    wheelSeq := f 0x28 4, lastSeq := f 0x28 4, rcheck := f 0x30 8 }
  let s1 := (s.hbmWrite (s.wheelAddr i slot) img).setStr i x1
  (s1.writeHeader i slot x1.cseq x1.cursor x1.wheelSeq x1.rcheck).writeRecord i
/-- A mirror of a stream of this device that comes back: at a rejoin it is used where its CSEQ is higher (R519); a wheel whose data are
lost is recovered from it (R389). -/
def State.mirrorBack (s : State) (i cseq : Nat) (img : List Byte) : State :=
  let x := s.str i
  match x.step with
  | none => if x.st = .paused ∧ x.cseq < cseq then (s.adoptWheel i (!x.slot) img).notice i 3 else s
  | some t =>
    if t.lost ∧ x.cseq = cseq then
      (let s1 := s.adoptWheel i x.slot img
       s1.setStr i { s1.str i with step := some { t with lost := false } })
    else s
/-- MIRROR (R511): the image is written into the slot that does not hold the current mirror, with the record, and acknowledged;
`ok` says that both writes are. -/
def State.takeMirror (s : State) (m : LMsg) (ok : Bool) : State :=
  let b := m.payload
  let f := fun (o n : Nat) => ofBytes ((b.drop o).take n)
  let img := b.drop 48
  let oh := f 0 4
  let os := f 4 2
  let cseq := f 0x18 8
  let mack := fun (st : Nat) (t : State) => t.sendSeat tyMACK m.src (mackBytes os oh cseq st)
  let free := (List.range 4096).find? (fun k => (s.mirrorAt k).isNone)
  match s.strOf os oh with
  | some i => s.mirrorBack i cseq img
  | none =>
    if crc64 (b.take 0x28 ++ img) ≠ f 0x28 8 ∨ img.length ≠ f 6 2 * 256 then mack 1 s
    else match (match s.mirrorOf os oh with | some k => some k | none => free) with
      | none => mack 2 s
      | some k =>
        if !s.scheds.any (fun x => x.ident.toNat == f 0x10 8) then mack 3 s
        else
          let e : Mirror := ⟨os, oh, m.src, f 8 4, false, cseq, f 6 2, f 0x0C 1, f 0x0D 1 % 2 == 1, f 0x10 8⟩
          let slot := match s.mirrorAt k with | some x => !x.slot | none => false
          let old := match s.mirrorAt k with | some x => decide (cseq ≤ x.cseq) | none => false
          if old then
            mack 0 (s.setMirror k ((s.mirrorAt k).map (fun x => { x with ownerSeat := m.src, ownerHandle := f 8 4 })))
          else
            let s1 := s.hbmWrite (s.mirrorAddr k slot) img
            if ok then
              mack 0 ((s1.hbmWrite (s.mirrorRecord k) (toBytes 8 (if slot then 1 else 0) ++ toBytes 8 cseq)).setMirror k
                (some { e with slot := slot }))
            else s1
def execMirror (ok : Bool) (s : State) : Res := onMsg tyMIRROR s (fun m t => t.takeMirror m ok)
/-- MACK (R511, R512). -/
def State.takeMack (s : State) (m : LMsg) : State :=
  let f := fun (o n : Nat) => ofBytes ((m.payload.drop o).take n)
  let cseq := f 8 8
  match s.strOf (f 0 2) (f 4 4) with
  | none => s
  | some i =>
    let x := s.str i
    let waits := x.st == .starting || x.st == .importing
    if m.src ≠ x.buddy then s
    else match f 16 1, x.step with
      | 0, some t => if t.released && cseq == x.cseq + t.inputs then
          s.setStr i { x with step := some { t with mirrorAck := true } } else s
      | 0, none => if waits && cseq == x.cseq then s.setStr i { x with acked := true } else s
      | 1, some t => if t.released then s.setStr i { x with step := some { t with failedAfter := true } } else s
      | _, _ => if waits then s.wheelIo i else s
def execMack (s : State) : Res := onMsg tyMACK s (fun m t => t.takeMack m)
/-- MREL (R512): the entry of the origin is freed. At a joiner it names a stream that a member continues (R519; the use of this
type is a DESIGN CHOICE, log entry 43). -/
def State.takeMrel (s : State) (m : LMsg) : State :=
  let f := fun (o n : Nat) => ofBytes ((m.payload.drop o).take n)
  match s.mirrorOf (f 0 2) (f 4 4), s.strOf (f 0 2) (f 4 4) with
  | some k, _ => { s.setMirror k none with takeovers := s.takeovers.filter (fun t => t.entry != k) }
  | none, some i => s.giveUp i
  | none, none => s
def execMrel (s : State) : Res := onMsg tyMREL s (fun m t => t.takeMrel m)
/-- CH_MIRROR.TO in rclk, rounded up (R512). -/
def State.mirrorTime (s : State) : Nat := (s.fld CH_MIRROR 31 16 * 96 + 9) / 10
/-- MIRROR_TIMEOUT (R512): the step fails after release. -/
def execMirrorTimeout (i : BitVec 12) (s : State) : Res :=
  let k := i.toNat
  let x := s.str k
  match x.step with
  | none => notDue "no step waits for a mirror"
  | some t =>
    if !x.mirror ∨ !t.released ∨ t.mirrorAck ∨ t.failedAfter then notDue "no step waits for a mirror"
    else if t.lost then notDue "the wheel waits for its buddy's mirror"
    else if !(s.member x.buddy && s.reachable x.buddy) then notDue "the buddy is not reachable"
    else if s.rclk < x.timer + s.mirrorTime then notDue "CH_MIRROR.TO has not passed"
    else .next ((s.setStr k { x with step := some { t with failedAfter := true } }).log 0x43 0x40 1 (s.handle k))

/-! ## Takeover (R515) -/

/-- A stream taken over from mirror entry m at a FREE index. -/
def State.takeOver (s : State) (m i : Nat) (e : Mirror) : State :=
  let img := s.hbmBytes (s.mirrorAddr m e.slot) (e.wsize * 256)
  let x0 := (s.str i).freed
  let x := { x0 with
    gen := nextGen x0.gen, st := .paused, cls := e.cls, resident := e.resident, mirror := true, originSeat := e.originSeat,
    originHandle := e.originHandle, buddy := (s.nextMember s.seat).getD 0xFFFF }
  let s1 := ((s.setStr i x).adoptWheel i false img).setMirror m none
  let s2 := (s1.setStr i { s1.str i with sched := e.sched }).notice i 1
  (if x.buddy = 0xFFFF then s2 else s2.sendMirror i false (s2.str i).cseq).bump CH_CNT 31 16 1
/-- TAKEOVER: at its time, once an index is FREE. -/
def execTakeover (m : Nat) (s : State) : Res :=
  match s.takeovers.find? (fun t => t.entry == m), s.mirrorAt m with
  | some t, some e =>
    let rest := s.takeovers.filter (fun t => t.entry != m)
    if s.rclk < t.due then notDue "LEN + 2 ms have not passed since the commit"
    else match (List.range 4096).find? (fun i => (s.str i).st == .free) with
      | some i => .next ({ s with takeovers := rest }.takeOver m i e)
      | none =>
        if t.counted then notDue "no index is FREE"
        else .next ({ s with takeovers := rest ++ [{ t with counted := true }] }.bump CH_CNT 31 16 1)
  | _, _ => notDue "no takeover of the entry is planned"

end Sys2Proof.Machine
end

