-- ==== Sys2Proof/Machine/Clears.lean ====
section
/-! DEFINITION. Writes that clear counters, logs and flags, and the registers of the fault log and of array debugging that act (R102,
R142, R327, R362, R363, R393, R394, R424, R478, R521, R549, R571, R572, R630). -/

namespace Sys2Proof.Machine

/-- The words that bit 0 of a clear register sets to zero (R424 for SEQ_IRQ_MAX, R521 for LNK_FEC). -/
def clrTargets (a : Nat) : Option (List Nat) :=
  let p := a / 4096
  let o := a % 4096
  if isFolioPage p 0 ∧ o = 0x0D8 then some [pg p 0x0D4]
  else if isFolioPage p 1 ∧ o = 0x05C then some [pg p 0x054, pg p 0x058]
  else if isFolioPage p 2 ∧ o = 0x04C then some [pg p 0x048]
  else if p = 0x140 ∧ o = 0x068 then some [VAT_PERR_CNT]
  else if 0x151 ≤ p ∧ p ≤ 0x154 ∧ o = 0x04C then some [pg p 0x048]
  else if 0x160 ≤ p ∧ p ≤ 0x169 ∧ o = 0x048 then some [pg p 0x044]
  else if p = 0x170 ∧ o = 0x048 then some [LNK_DEV_CNT]
  else if 0x171 ≤ p ∧ p ≤ 0x176 ∧ o = 0x04C then some [pg p 0x044, pg p 0x048]
  else if p = 0x177 ∧ o = 0x08C then some [D2D_CNT, D2D_RETRAIN_CNT]
  else if p = 0x190 ∧ o = 0x084 then some [SPN_CNT]
  else if p = 0x1A1 ∧ o = 0x07C then some ((List.range 7).map STRM_CNT)
  else if p = 0x1B0 ∧ o = 0x064 then some [CH_CNT]
  else if p = 0x001 ∧ o = 0x060 then some [TXN_CNT]
  else if p = 0x008 ∧ o = 0x050 then some [FLT_CNT]
  else none
/-- What a clear register does with the word written. -/
def State.clrEff (s : State) (a w : Nat) : State :=
  match clrTargets a with
  | some ts => if bit w 0 && bit (s.spec a).wo 0 then ts.foldl (fun s t => s.setReg t 0) s else s
  | none => s
/-- A write of a clear register. -/
def State.wrClr (s : State) (p : Port) (a w : Nat) : State := s.hostWrite p a w (fun t => t.clrEff a w)

def execFolioOvrClr (p : Port) (n : Fin 50) (w : Word) (s : State) : Res := .next (s.wrClr p (pg (0x042 + 4 * n.val) 0x04C) w.toNat)
def execFolioPerrClr (p : Port) (n : Fin 50) (w : Word) (s : State) : Res := .next (s.wrClr p (pg (0x040 + 4 * n.val) 0x0D8) w.toNat)
def execVatPerrClr (p : Port) (w : Word) (s : State) : Res := .next (s.wrClr p (pg 0x140 0x068) w.toNat)
def execHbmErrClr (p : Port) (k : Fin 4) (w : Word) (s : State) : Res := .next (s.wrClr p (pg (0x151 + k.val) 0x04C) w.toNat)
def execMoverCntClr (p : Port) (q : Fin 10) (w : Word) (s : State) : Res := .next (s.wrClr p (pg (0x160 + q.val) 0x048) w.toNat)
def execSeqCntClr (p : Port) (n : Fin 50) (w : Word) (s : State) : Res := .next (s.wrClr p (pg (0x041 + 4 * n.val) 0x05C) w.toNat)
def execSpnCntClr (p : Port) (w : Word) (s : State) : Res := .next (s.wrClr p (pg 0x190 0x084) w.toNat)
def execLnkDevClr (p : Port) (w : Word) (s : State) : Res := .next (s.wrClr p (pg 0x170 0x048) w.toNat)
def execLnkCntClr (p : Port) (l : Fin 6) (w : Word) (s : State) : Res := .next (s.wrClr p (pg (0x171 + l.val) 0x04C) w.toNat)
def execChCntClr (p : Port) (w : Word) (s : State) : Res := .next (s.wrClr p (pg 0x1B0 0x064) w.toNat)
def execD2dCntClr (p : Port) (w : Word) (s : State) : Res := .next (s.wrClr p (pg 0x177 0x08C) w.toNat)
def execStrmCntClr (p : Port) (w : Word) (s : State) : Res := .next (s.wrClr p (pg 0x1A1 0x07C) w.toNat)
def execTxnCntClr (p : Port) (w : Word) (s : State) : Res := .next (s.wrClr p (pg 0x001 0x060) w.toNat)
def execFltClr (p : Port) (w : Word) (s : State) : Res := .next (s.wrClr p (pg 0x008 0x050) w.toNat)

/-- THERM_CLR (R549): the highest reading back to zero. -/
def State.thermClr (s : State) (w : Nat) : State := if bit w 0 then s.setFld THERM_STAT 23 16 0 else s
def execThermClr (p : Port) (w : Word) (s : State) : Res := .next (s.hostWrite p (pg 0x006 0x084) w.toNat (fun t => t.thermClr w.toNat))

/-! ## The fault log (R565, R571, R572) -/

/-- FLT_STAT: clearing FAULT releases FAULT_N unless the device is in TRIP; WITHDRAW withdraws it. -/
def State.fltStat (s : State) (w : Nat) : State :=
  let s1 := if bit w 31 ∧ s.fld PM_STATE 31 29 ≠ 7 then { s with faultLow := false } else s
  if bit w 29 then s1.withdraw else s1
def State.wrFltStat (s : State) (p : Port) (w : Nat) : State := s.hostWrite p FLT_STAT w (fun t => t.fltStat w)
def execFltStatFault (p : Port) (w : Word) (s : State) : Res := .next (s.wrFltStat p w.toNat)
def execWithdraw (p : Port) (w : Word) (s : State) : Res := .next (s.wrFltStat p w.toNat)
/-- FLT_INJECT (R572): an FLT_TEST entry while a folio is in test mode. -/
def State.fltInject (s : State) (w : Nat) : State :=
  if bit w 0 && (List.range 50).any (fun n => s.mode n == 2) then s.log 0xF0 0xB0 0 0 else s
def execFltInject (p : Port) (w : Word) (s : State) : Res := .next (s.hostWrite p (pg 0x008 0x054) w.toNat (fun t => t.fltInject w.toNat))

/-! ## Array debugging (R142) -/

/-- A word of the W or X plane of one half of an array (R109); none for a complex tile, whose layout no rule gives. -/
def WTile.cell (h : WTile) (ext : Bool) (r col : Nat) : Option Nat :=
  if h.cplx then none else some (nth (if ext then h.x else h.w) (64 * r + col))
/-- What ARR_DBG_SEL selects; none where the value is open. -/
def State.arrDbg (s : State) (n w : Nat) : Option Nat :=
  let k := bits w 21 20
  let col := bits w 19 14
  let r := bits w 13 10
  let a := s.array n k
  match bits w 2 0 with
  | 0 => some (Sp.get (fun _ => 0) s.accf (((4 * n + k) * 64 + col) * 32 + bits w 9 5)).toNat
  | 1 => a.act.cell false r col
  | 2 => a.shd.cell false r col
  | 3 => a.act.cell true r col
  | 4 => a.shd.cell true r col
  | 5 => some (a.act.scale col + 256 * a.shd.scale col)
  | _ => some 0
/-- Is an array idle (R141), or frozen by a debug halt? -/
def State.arrQuiet (s : State) (n k : Nat) : Bool :=
  let uses := fun (r : Resume) => r.kind == 1 && bits r.bundle.toNat 60 59 == k
  ((s.array n k).tiles.isEmpty && [0, 1, 2, 3].all (fun c =>
      !(s.ctx n c).inside.any uses && !((s.ctx n c).resume.valid && uses (s.ctx n c).resume)))
    || [0, 1, 2, 3].any (fun c => (s.ctx n c).st == .halted)
/-- ARR_DBG_SEL: the selected value appears in ARR_DBG_DATA, in debug mode and with the array quiet; an open one is a free value. -/
def State.arrDbgSel (s : State) (n w : Nat) : State :=
  if s.level < 2 then s
  else if s.mode n = 4 ∧ s.arrQuiet n (bits w 21 20) then
    (match s.arrDbg n w with
     | some v => (s.setBit (ARR_DBG_SEL n) 31 true).setReg (ARR_DBG_DATA n) v
     | none =>
       let v := (Config.freeValue s.fresh).toNat % 65536
       ({ s with fresh := s.fresh + 1 }.setBit (ARR_DBG_SEL n) 31 true).setReg (ARR_DBG_DATA n) v)
  else (s.setBit (ARR_DBG_SEL n) 31 false).setReg (ARR_DBG_DATA n) 0
def State.wrArrDbg (s : State) (p : Port) (n w : Nat) : State := s.hostWrite p (ARR_DBG_SEL n) w (fun t => t.arrDbgSel n w)
def execArrDbgSel (p : Port) (n : Fin 50) (w : Word) (s : State) : Res := .next (s.wrArrDbg p n.val w.toNat)

end Sys2Proof.Machine
end

