-- ==== Sys2Proof/Machine/Reload.lean ====
section
/-! DEFINITION. What the device loads into a folio and reloads: schedule and firmware images, golden blocks, scrub, memories that are
switched on, image switches (11_on_die_memory.md R356 to R360, 18_faults_and_availability.md R575,
R576). -/

namespace Sys2Proof.Machine

/-! ## Images and golden ranges -/

/-- The loaded schedule that places an image in logical folio k. -/
def State.schedOf (s : State) (k : Nat) : Option Sched := s.scheds.find? (fun x => x.images.any (fun m => m.folio.val == k))
/-- The firmware image in force for logical folio k: the staged one where its gathering's FW_SEL bit names it, else the base
image (R575, R576). -/
def State.fwOf (s : State) (k : Nat) : Option FwImage :=
  match s.gathOf k with
  | some g => if s.rbit FW_SEL g then s.staged else s.image
  | none => s.image
/-- The image of logical folio k: the firmware's for its schedule, else the schedule's own. -/
def State.imgOf (s : State) (k : Nat) : Option FolioImg :=
  match s.schedOf k with
  | none => none
  | some x =>
    match (s.fwOf k).bind (fun f => f.images.find? (fun m => m.1 == x.ident && m.2.folio.val == k)) with
    | some m => some m.2
    | none => x.images.find? (fun m => m.folio.val == k)
/-- The golden ranges of logical folio k, with the copies that the image in force names (R357, R575). -/
def State.goldens (s : State) (k : Nat) : List Golden :=
  s.scheds.flatMap (fun x =>
    let own := x.golden.filter (fun g => g.folio.val == k)
    match s.fwOf k with
    | some f => own.map (fun g => match f.golden.find? (fun m => m.1 == x.ident && m.2.folio == g.folio && m.2.block == g.block) with
        | some m => m.2 | none => g)
    | none => own)
/-- A memory of folio n erased and filled with an image's bytes. -/
def State.refill (s : State) (n m : Nat) (bs : List Byte) : State :=
  (s.wipe m (n * memSpan m) (memSpan m)).put m (n * memSpan m) (bs.take (memSpan m))
/-- Instruction memory, gate programs and function store of folio n loaded from an image (R329). -/
def State.loadImage (s : State) (n : Nat) (m : FolioImg) : State :=
  (((s.refill n 2 m.imem).refill n 5 m.gps).refill n 3 m.fns).storeStat n
/-- A golden range copied into folio n from its HBM copy. -/
def State.loadGolden (s : State) (n : Nat) (g : Golden) : State :=
  s.put 0 (n * 2 ^ 20 + g.block.toNat * 4096) (s.hbmBytes g.hbm.toNat (g.count * 4096))
/-- Folio n loaded with what logical folio k holds: image, small stores, golden ranges (R526, R560, R575). -/
def State.loadFolio (s : State) (n k : Nat) : State :=
  let s1 := match s.imgOf k with | some m => s.loadImage n m | none => s
  (s.goldens k).foldl (fun s g => s.loadGolden n g) s1

/-! ## Golden blocks and scrub (R356 to R358) -/

/-- The 4-KiB aligned block that holds a word, reloaded from its golden copy. -/
def State.reloadBlock (s : State) (b : Block) : State :=
  match b with
  | .folio n src addr =>
    (match s.logical n.val with
     | none => s
     | some k =>
       let blk := addr.toNat / 4096
       match src.val with
       | 0 =>
         (match (s.goldens k).find? (fun g => decide (g.block.toNat ≤ blk) && decide (blk < g.block.toNat + g.count)) with
          | some g => s.put 0 (n.val * 2 ^ 20 + blk * 4096) (s.hbmBytes (g.hbm.toNat + (blk - g.block.toNat) * 4096) 4096)
          | none => s)
       | 2 =>
         (match s.imgOf k with
          | some m => (s.wipe 2 (131072 * n.val + blk * 4096) 4096).put 2 (131072 * n.val + blk * 4096) ((m.imem.drop (blk * 4096)).take 4096)
          | none => s)
       | 3 => (match s.imgOf k with | some m => (s.refill n.val 3 m.fns).storeStat n.val | none => s)
       | 5 => (match s.imgOf k with | some m => s.refill n.val 5 m.gps | none => s)
       | _ => s)
  | .vat addr =>
    (match s.sigAt addr.toNat with
     | some h =>
       let lo := max (addr.toNat / 4096 * 4096) (s.sigBase h)
       let hi := min (addr.toNat / 4096 * 4096 + 4096) (s.sigBase h + s.sigSize h)
       s.put 6 lo (s.hbmBytes (s.sigGaddr h * 4096 + (lo - s.sigBase h)) (hi - lo))
     | none => s)
/-- Folio (0xFFFF for the vat), SRC and address of a block. -/
def blockPlace (b : Block) : Nat × Nat × Nat :=
  match b with
  | .folio n src addr => (n.val, src.val, addr.toNat)
  | .vat addr => (0xFFFF, 6, addr.toNat)
/-- The HBM address of the first copy of a golden block in folio memory or the vat; the images of instruction memory and the small stores
are the loader's. -/
def State.goldenAt (s : State) (b : Block) : Option (Nat × Nat) :=
  match b with
  | .folio n src addr =>
    if src.val = 0 then
      (s.logical n.val).bind (fun k =>
        ((s.goldens k).find? (fun g => decide (g.block.toNat ≤ addr.toNat / 4096) && decide (addr.toNat / 4096 < g.block.toNat + g.count))).map
          (fun g => (g.hbm.toNat + (addr.toNat / 4096 - g.block.toNat) * 4096, 4096)))
    else none
  | .vat addr =>
    (s.sigAt addr.toNat).map (fun h =>
      let lo := max (addr.toNat / 4096 * 4096) (s.sigBase h)
      let hi := min (addr.toNat / 4096 * 4096 + 4096) (s.sigBase h + s.sigSize h)
      (s.sigGaddr h * 4096 + (lo - s.sigBase h), hi - lo))
/-- A golden granule whose first copy has failed two reads (R389, R391): both failures are counted, and the data come from the second
copy, from which the first is rewritten. -/
def State.goldenFail (s : State) (f : BitVec 36 × Bool) : State :=
  let a := f.1.toNat
  let k := hbmStack a
  let s1 := (s.bump (HBM_ERR_CNT k) 15 0 2).hbmErrLog a (if f.2 then 1 else 0)
  ((s1.log HBM_READ_FAIL (0xA0 + k) 3 (a / 256)).log HBM_DATA_LOST (0xA0 + k) 3 (a / 256)).rewriteGolden (a / 256 * 256) 256
/-- GOLDEN_RELOAD: the reload of a golden block completes. -/
def execGoldenReload (x : GoldenRead) (s : State) : Res :=
  let b := x.block
  let p := blockPlace b
  if !s.isGolden p.1 p.2.1 p.2.2 then notDue "the block has no golden copy"
  else match x.fail, s.goldenAt b with
    | none, _ => .next (s.reloadBlock b)
    | some f, some r =>
      if r.1 ≤ f.1.toNat ∧ f.1.toNat < r.1 + r.2 then .next ((s.goldenFail f).reloadBlock b) else notDue "the burst is not of the block's copy"
    | some _, none => notDue "the block has no copy in HBM"
/-- Does scrub run over a word (R358): the folio in F0 or F1, or the device in D0, and the segment or bank on? -/
def State.scrubs (s : State) (b : Block) : Bool :=
  match b with
  | .folio n src addr =>
    !s.retired n.val && decide (s.folioState n.val ≤ 1) && !s.inReset
      && (src.val != 0 || s.rbit (FOLIO_FM_STAT n.val) (addr.toNat / 65536))
  | .vat addr => s.fld PM_STATE 31 29 == 0 && !s.inReset && decide (addr.toNat < 80 * 0x80000) && s.bankOn (addr.toNat / 0x80000)
/-- An error that scrub finds (R358): the word stays bad and is logged; a golden block is reloaded at once, a wheel buffer's copy is
invalid. -/
def State.scrubError (s : State) (b : Block) : State :=
  let p := blockPlace b
  let gold := s.isGolden p.1 p.2.1 p.2.2
  let unit := if p.2.1 = 6 then 0x50 + p.2.2 / 0x80000 else p.1
  let info := (if p.2.1 = 6 then 0 else p.2.1 * 2 ^ 28) + p.2.2 / 8 * 8
  let s1 := ((s.markBad p.1 p.2.1 p.2.2).perr p.1 p.2.1 p.2.2 true).log 0x11 unit (if gold then 3 else 0) info
  if gold then s1.reloadBlock b
  else match p.2.1, s.sigAt p.2.2 with
    | 6, some h => if s.sigKind h = 2 then s1.coolBuf h else s1
    | _, _ => s1
/-- A scrub read; one of a bad word finds it (R358); one that finds it in the fclk of a read that did is logged with the read
(R359); the last one of a pass over folio memory or the vat counts the pass (R362, R363). -/
def scrub (b : Block) (found : ScrubFind) (pass : Bool) (s : State) : Res :=
  let p := blockPlace b
  if !s.scrubs b then notDue "scrub does not run over the word"
  else if found = .clean ∧ s.isBad (wordKey p.1 p.2.1 p.2.2) = true then notDue "the word has bad parity"
  else if found = .joined ∧ s.isBad (wordKey p.1 p.2.1 p.2.2) = false then notDue "no read has found the word bad"
  else
    let s1 := if found = .faulty then s.scrubError b else s
    let a := match b with | .folio n _ _ => FOLIO_SCRUB n.val | .vat _ => VAT_SCRUB
    let counts := match b with | .folio _ src _ => src.val == 0 | .vat _ => true
    .next (if pass && counts then s1.setReg a ((s1.reg a + 1) % 65536) else s1)
def execScrubRead (b : Block) (found : ScrubFind) (pass : Bool) (s : State) : Res := scrub b found pass s
def execForcedScrubRead (b : Block) (found : ScrubFind) (pass : Bool) (s : State) : Res := scrub b found pass s

/-- PWRD_RISES (R360): a segment or bank that was switched on is zero-filled and its PWRD bit rises. -/
def execPwrdRises (u : PwrUnit) (s : State) : Res :=
  match u with
  | .seg n k =>
    if s.rbit (FOLIO_FM_PWR n.val) k.val && !s.rbit (FOLIO_FM_STAT n.val) k.val && !s.retired n.val then
      .next ((s.wipe 0 (n.val * 2 ^ 20 + k.val * 65536) 65536).setBit (FOLIO_FM_STAT n.val) k.val true)
    else notDue "the segment is not being switched on"
  | .bank b =>
    let i := b.val / 32
    let j := b.val % 32
    if s.rbit (VAT_PWR i) j && !s.rbit (VAT_STAT i) j && !s.rbit (VAT_FAIL i) j then
      .next ((s.wipe 6 (b.val * 0x80000) 0x80000).setBit (VAT_STAT i) j true)
    else notDue "the bank is not being switched on"

/-! ## Image switches (R575, R576) -/

/-- The folios of a gathering loaded from the images in force. -/
def State.loadGath (s : State) (g : Nat) : State := (members (s.gmask g)).foldl (fun s k => s.loadFolio (s.phys k) k) s
/-- FW_SWITCH_COMPLETE. -/
def execFwSwitchComplete (g : Fin 16) (s : State) : Res :=
  if !bit s.switching g.val then notDue "the gathering does not switch"
  else
    let s1 := { s with switching := s.switching - 2 ^ g.val }
    let s2 := (((s1.loadGath g.val).setBit FW_STAT g.val (s.rbit FW_SEL g.val)).setFld FW_STAT 19 16 g.val).setBit FW_STAT 30 (s1.switching != 0)
    .next s2
/-- FW_UPDATE_FAIL: a failure on a staged copy during a switch; the gathering goes back to the base image and its steps are rerun. -/
def execFwUpdateFail (g : Fin 16) (s : State) : Res :=
  if !(bit s.switching g.val && s.rbit FW_SEL g.val) then notDue "the gathering does not switch to the staged image"
  else
    let s1 := (s.setBit FW_SEL g.val false).log 0x61 0xB0 1 0
    .next (s1.strIdx.foldl (fun s i => if s.strGath i = g.val then s.failStep i false else s) s1)

end Sys2Proof.Machine
end

