-- ==== Sys2Proof/Machine/PowerOps.lean ====
section
/-! DEFINITION. Votes, the choice of a power state, entries and exits (17_power_and_clocks.md R524 to R543), and what a domain
loses when it is switched off. A domain is named by its code in PM_VOTE_STAT: 0 to 49 a folio, 0x40 the device, 0x48 + p a
port. -/

namespace Sys2Proof.Machine

/-! ## Votes (R529) -/

/-- Does the wake planner's vote stand: since its expiry neither a step of the class has been accepted nor a further PERIOD has
passed (R536)? -/
def State.planHolds (s : State) : Bool :=
  match s.planAt with
  | none => false
  | some t =>
    s.rbit PM_PLAN 31 && decide (s.rclk < t + s.fld PM_PLAN 23 0)
      && s.strIdx.all (fun i => (s.str i).cls != s.fld PM_PLAN 27 24 || !(s.str i).stepped || decide ((s.str i).lastAccept ≤ t))
/-- The stream scheduler's vote on a gathering. -/
def State.schedVote (s : State) (g : Nat) : Bool :=
  s.strIdx.any (fun i => (s.str i).st != .free && s.strGath i == g
    && ((s.str i).step.isSome || !(s.str i).held.isEmpty || (s.str i).curd.isSome))
    || (s.planHolds && s.clsGath (s.fld PM_PLAN 27 24) == g)
/-- Is a move in flight? -/
def State.movesBusy (s : State) : Bool := (List.range 10).any (fun q => !(Sp.get (fun _ => []) s.movers q).isEmpty)
def State.schedDev (s : State) : Bool := (List.range 16).any s.schedVote || s.movesBusy
/-- Is some folio in debug mode? -/
def State.debugging (s : State) : Bool := (List.range 50).any (fun n => s.mode n == 4)
/-- May link p sleep (R493)? -/
def State.mayNap (s : State) (p : Nat) : Bool :=
  (s.rbit LNK_CFG 15 && !(s.chartered && s.member s.seat)) || !(s.chartered && s.member (s.fld (LNK_STAT p) 23 14))
/-- The link agent's vote on its port and on the device. -/
def State.linkVote (s : State) (p : Nat) : Bool := s.linkState p == 2 && !s.mayNap p
/-- The votes on a gathering, on a port and on the device. -/
def State.gathVoted (s : State) (g : Nat) : Bool := s.schedVote g || s.rbit PM_VOTE_HOST g || s.rbit PM_VOTE_DBG g
def State.portVoted (s : State) (p : Nat) : Bool := s.linkVote p || s.rbit PM_VOTE_HOST (16 + p) || s.rbit PM_VOTE_DBG (16 + p)
def State.devVoted (s : State) : Bool :=
  s.schedDev || s.rbit PM_VOTE_HOST 31 || s.rbit PM_VOTE_DBG 31 || (List.range 6).any s.linkVote
/-- A vote on a gathering is a vote on each folio of its mask. -/
def State.folioVoted (s : State) (n : Nat) : Bool :=
  match s.logical n with
  | none => false
  | some k => (List.range 16).any (fun g => bit (s.gmask g) k && s.gathVoted g)

/-! ## Wake times and slack (R526, R527, R533, R537) -/

def State.exitDelay (s : State) (j : Nat) : Nat := s.fld (PM_EXIT_TBL j) 15 0
def State.entryTime (s : State) (k : Nat) : Nat := s.fld (PM_ENTRY_TBL k) 15 0
/-- The logical index that folio n holds, or that it is to take in a substitution (R560). -/
def State.indexOf (s : State) (n : Nat) : Option Nat :=
  match s.logical n with
  | some k => some k
  | none => s.substs.findSome? (fun p => p.2.bind (fun x => if x.spare = n then some x.logical else none))
/-- The segments of folio n that F3 does not retain and that hold golden blocks. -/
def State.goldenSegs (s : State) (n : Nat) : List Nat :=
  match s.logical n with
  | none => []
  | some k => (List.range 16).filter (fun j => s.rbit (FOLIO_FM_STAT n) j && !s.rbit (FOLIO_FM_RET n) j
      && (s.goldens k).any (fun g => decide (g.block.toNat < (j + 1) * 16) && decide (j * 16 < g.block.toNat + g.count)))
/-- The reload of R526 in rclk, rounded up: 2,000 + ceil(b / 128) fclk, one fclk being 6/1000 rclk. -/
def State.reloadTime (s : State) (n : Nat) : Nat :=
  match s.indexOf n with
  | none => 0
  | some k =>
    let img := match s.imgOf k with | some m => m.imem.length + m.gps.length + m.fns.length | none => 0
    let gold := (s.goldens k).foldl (fun b g => b + g.count * 4096) 0
    ((2000 + (img + gold + 127) / 128) * 6 + 999) / 1000
/-- The steps of a folio's exit from F2, F3 or F4; step 20 is the reload of R526, step 100 + j the golden reload of segment j. -/
def State.folioSteps (s : State) (n f : Nat) : List Nat :=
  match f with
  | 2 => [1, 2, 3, 4]
  | 3 => [2, 5, 6, 7, 1, 8] ++ (s.goldenSegs n).map (fun j => 100 + j)
  | _ => [10, 2, 6, 7, 1, 8, 20]
/-- The steps of the device's exit from D1 or D2. -/
def devSteps (d : Nat) : List Nat := if d = 1 then [11, 12, 13, 14, 15] else [16, 11, 17, 18, 14, 19, 8]
def State.stepTime (s : State) (n j : Nat) : Nat :=
  if j = 20 then s.reloadTime n else if 100 ≤ j then s.exitDelay 9 else s.exitDelay j
def State.exitTime (s : State) (n f : Nat) : Nat := sumBy (s.stepTime n) (s.folioSteps n f)
def State.devExit (s : State) (d : Nat) : Nat := sumBy s.exitDelay (devSteps d)
/-- The folios that hold a logical index. -/
def State.active (s : State) : List Nat := (List.range 50).filter (fun n => (s.logical n).isSome && !s.retired n)
/-- The enabled classes that a folio serves and that have a stream that is not FREE. -/
def State.servedClasses (s : State) (n : Nat) : List Nat :=
  match s.logical n with
  | none => []
  | some k => (List.range 16).filter (fun c => s.clsEn c && bit (s.gmask (s.clsGath c)) k
      && s.strIdx.any (fun i => (s.str i).st != .free && (s.str i).cls == c))
/-- Is a domain of a folio's gathering on the limp clock (R524)? -/
def State.limps (s : State) (n : Nat) : Bool :=
  s.rbit CLK_STAT 10 || (match s.gathOfPhys n with
    | some g => (members (s.gmask g)).any (fun k => s.rbit CLK_STAT (s.phys k / 5))
    | none => s.rbit CLK_STAT (n / 5))
/-- The folio's slack in units of 0.1 µs; none where it is unbounded. -/
def State.slack (s : State) (n : Nat) : Option Nat :=
  (s.servedClasses n).foldl (fun m c =>
    let v := match s.schedClass c with | some k => s.clsBudget c - k.lc | none => 0
    match m with | none => some v | some w => some (min v w)) none
/-- Does a wake time in rclk lie within the folio's slack? -/
def State.fits (s : State) (n wake : Nat) : Bool :=
  match s.slack n with
  | none => true
  | some v => decide (100 * wake ≤ 96 * v)

/-! ## The choice (R534) -/

def State.longest (s : State) (f : Nat) : Nat := s.active.foldl (fun m n => max m (s.exitTime n f)) 0
/-- F4, F3, F2 as PM_LIMIT.FMAX allows. -/
def State.depths (s : State) : List Nat := [4, 3, 2].filter (fun f => decide (f ≤ s.fld PM_LIMIT 29 27))
def State.candD2 (s : State) (n : Nat) : Bool :=
  decide (2 ≤ s.fld PM_LIMIT 31 30) && s.fits n (s.entryTime 4 + s.devExit 2) && !s.limps n
def State.candD1 (s : State) (n : Nat) : Option Nat :=
  if s.fld PM_LIMIT 31 30 = 0 ∨ s.limps n then none
  else s.depths.find? (fun f => s.fits n (s.entryTime 3 + s.devExit 1 + s.longest f))
def State.candD0 (s : State) (n : Nat) : Nat :=
  if s.limps n then 1
  else (s.depths.find? (fun f => s.fits n (s.entryTime (f - 2) + s.exitTime n f))).getD 1
/-- The state chosen for the device. -/
def State.devChoice (s : State) : Nat :=
  if s.devVoted then 0
  else if s.active.all s.candD2 then 2
  else if s.active.all (fun n => s.candD2 n || (s.candD1 n).isSome) then 1
  else 0
/-- The state chosen for a folio. -/
def State.folioChoice (s : State) (n : Nat) : Nat :=
  match s.devChoice with
  | 0 => s.candD0 n
  | 1 => (s.candD1 n).getD (s.depths.headD 1)
  | _ => s.depths.headD 1
/-- The wake time of a gathering's current choice, in rclk (R536). -/
def State.wakeTime (s : State) (g : Nat) : Nat :=
  (members (s.gmask g)).foldl (fun m k =>
    let n := s.phys k
    let f := s.folioChoice n
    let w := match s.devChoice with
      | 0 => if f < 2 then 0 else s.entryTime (f - 2) + s.exitTime n f
      | 1 => s.entryTime 3 + s.devExit 1 + s.exitTime n f
      | _ => s.entryTime 4 + s.devExit 2
    max m w) 0

/-! ## What a domain loses (R360, R526, R527) -/

/-- The registers of a folio's engines and contexts at their reset values; enabled contexts are idle (X8). -/
def State.loseLogic (s : State) (n : Nat) : State :=
  let s1 := { s with
    sreg := Sp.erase s.sreg (128 * n) 128, areg := Sp.erase s.areg (64 * n) 64, lc := Sp.erase s.lc (16 * n) 16,
    istores := Sp.erase s.istores n 1, vreg := Sp.erase s.vreg (2048 * n) 2048, vmask := Sp.erase s.vmask (4 * n) 4,
    sf := Sp.erase s.sf (128 * n) 128, sfKind := Sp.erase s.sfKind (2 * n) 2, am := Sp.erase s.am (128 * n) 128,
    sa := Sp.erase s.sa (64 * n) 64, srow := Sp.erase s.srow n 1, saTag := Sp.erase s.saTag n 1, arr := Sp.erase s.arr (4 * n) 4,
    accf := Sp.erase s.accf (8192 * n) 8192, latchEl := Sp.erase s.latchEl (16384 * n) 16384,
    latchSc := Sp.erase s.latchSc (512 * n) 512, latchFmt := Sp.erase s.latchFmt (2 * n) 2, jobs := Sp.erase s.jobs n 1,
    gateQ := Sp.erase s.gateQ n 1, gatePend := Sp.erase s.gatePend n 1, carryf := Sp.erase s.carryf (512 * n) 512,
    sew := Sp.erase s.sew (512 * n) 512, inbox := Sp.erase s.inbox n 1, gens := Sp.erase s.gens (4 * n) 4,
    slots := Sp.erase s.slots n 1, contribs := Sp.erase s.contribs n 1, casts := Sp.erase s.casts (4 * n) 4, fetch := Sp.erase s.fetch (32 * n) 32,
    heldFlags := Sp.erase s.heldFlags (8192 * n) 8192, heldOvr := Sp.erase s.heldOvr (8192 * n) 8192 }
  let s2 := match s.logical n with | some k => { s1 with tags := Sp.erase s1.tags (64 * k) 64 } | none => s1
  [0, 1, 2, 3].foldl (fun s c => s.setCtx n c { Ctx.reset with st := if s.ctxEn n c then .idle else .off }) s2
/-- The segments of folio memory that F3 does not retain, and the operand buffers. -/
def State.loseSegs (s : State) (n : Nat) : State :=
  (List.range 16).foldl (fun s k =>
    if s.rbit (FOLIO_FM_RET n) k then s else s.wipe 0 (n * 2 ^ 20 + k * 65536) 65536) (s.wipe 1 (262144 * n) 262144)
/-- Every memory of a folio. -/
def State.loseMems (s : State) (n : Nat) : State :=
  (List.range 6).foldl (fun s m => s.wipe m (n * memSpan m) (memSpan m)) s
/-- What a folio loses in F2, F3 or F4. -/
def State.sleepFolio (s : State) (n f : Nat) : State :=
  match f with
  | 2 => s
  | 3 => (s.loseLogic n).loseSegs n
  | _ => (s.loseLogic n).loseMems n
/-- The resident wheels whose buffers a test names are cold (R294). -/
def State.coolWheels (s : State) (lost : Nat → Bool) : State :=
  s.strIdx.foldl (fun s i =>
    let x := s.str i
    match x.resident, (s.schedClass x.cls).bind (fun k => k.wheelBuf) with
    | true, some h => if lost h.toNat then s.setStr i { x with warm := false } else s
    | _, _ => s) s
/-- Vat bank b is retained in D1. -/
def State.bankKept (s : State) (b : Nat) : Bool := s.rbit (VAT_RET (b / 32)) (b % 32)
/-- What the vat loses in D1 or D2. -/
def State.sleepVat (s : State) (d : Nat) : State :=
  if d = 1 then
    let bad := fun (h : Nat) => (List.range 80).any (fun b => !s.bankKept b && decide (s.sigBase h < (b + 1) * 0x80000)
      && decide (b * 0x80000 < s.sigBase h + s.sigSize h))
    ((List.range 80).foldl (fun s b => if s.bankKept b then s else s.wipe 6 (b * 0x80000) 0x80000) s).coolWheels bad
  else (s.wipe 6 0 (2 ^ 26)).coolWheels (fun _ => true)

/-! ## Sequences (R530 to R543) -/

def State.seqOf (s : State) (d : Nat) : Option PwrSeq := Sp.get (fun _ => none) s.pwr d
def State.setSeq (s : State) (d : Nat) (x : Option PwrSeq) : State := { s with pwr := Sp.set (fun _ => none) s.pwr d x }
/-- The device's state, PM_STATE.DSTATE, and its message on the sideband (R544, R616). -/
def State.devState (s : State) : Nat := s.fld PM_STATE 31 29
def State.setDevState (s : State) (d : Nat) : State := { s.setFld PM_STATE 31 29 d with sideband := s.sideband ++ [.state d] }
/-- A vote refused (R523, R542). -/
def State.voteFails (s : State) (d : Nat) : State := (s.setBit PM_VOTE_STAT 31 true).setFld PM_VOTE_STAT 7 0 d
/-- Is every vote on a domain refused: marked failed (R542), or the device held in D2 by REFCLK, a rail or bring-up (R523, R628,
R632)? -/
def State.domainFails (s : State) (d : Nat) : Bool :=
  Sp.get (fun _ => false) s.pwrFailed d || s.fld BOOT_STAT 31 28 != 7
    || (s.devState == 2 && (s.refLost || s.railsOut.any (fun r => match r with | .rind => false | .folioReg _ => false | _ => true)))
/-- A wake cause recorded; any cause other than a host vote drives WAKE_N low (R540). -/
def State.wakeCause (s : State) (causes : Nat) : State :=
  s.withLine 0x003 <|
  let s1 := s.setReg PM_WAKE_CAUSE (s.reg PM_WAKE_CAUSE ||| causes)
  if causes / 2 = 0 then s1 else { s1 with wakeLow := true }
/-- A wake of a sleeping domain: its exit starts (R528, R537). -/
def State.startExit (s : State) (d causes : Nat) : State :=
  if d = 0x40 then
    let js := devSteps s.devState
    ((s.setSeq d (some ⟨false, 0, s.devState, s.rclk, js, js.map s.exitDelay, false, false, causes⟩)).setDevState 4).wakeCause causes
  else
    let f := s.folioState d
    let js := s.folioSteps d f
    ((s.setSeq d (some ⟨false, 1, f, s.rclk, js, js.map (s.stepTime d), false, false, causes⟩)).setFolioState d 6).wakeCause causes
/-- A refused entry leaves the domain as it was (R530). -/
def State.undoEntry (s : State) (d : Nat) (x : PwrSeq) : State :=
  let s1 := s.setSeq d none
  if d = 0x40 then s1.setDevState x.old else s1.setFolioState d x.old
/-- The target of an entry as PM_REFUSE_LOG gives it. -/
def targetCode (d target : Nat) : Nat := if d = 0x40 then target + 4 else target
/-- A wake event for folio n (below 50) or the device (0x40) by a client (R530, R531, R540): in E0 it refuses the entry, after E0 it
is latched, and a sleeping domain starts its exit. A failed domain refuses the vote. -/
def State.wake (s : State) (d causes who : Nat) : State :=
  if s.domainFails d then s.voteFails d
  else match s.seqOf d with
    | some x =>
      if x.entering then
        (if s.rclk < x.since + 2 then (s.refuseEntry d (targetCode d x.target) who false).undoEntry d x
         else s.setSeq d (some { x with latched := true, causes := x.causes ||| causes }))
      else s
    | none =>
      if d = 0x40 then (if s.devState = 1 ∨ s.devState = 2 then s.startExit d causes else s)
      else if s.devState = 0 ∧ 2 ≤ s.folioState d ∧ s.folioState d ≤ 4 ∧ !s.retired d then s.startExit d causes
      else s
/-- A wake of every folio of a gathering. -/
def State.wakeGath (s : State) (g causes who : Nat) : State :=
  (members (s.gmask g)).foldl (fun s k => s.wake (s.phys k) causes who) s
/-- A wake of an asleep port: it trains (R493). -/
def State.wakePort (s : State) (p : Nat) : State := if s.linkState p = 3 then s.setLinkState p 1 else s

/-- What a device vote that stands wakes: PM_VOTE_HOST and PM_VOTE_DBG as they are (R529). -/
def State.applyVotes (s : State) (a cause who : Nat) : State :=
  let s1 := if s.rbit a 31 then s.wake 0x40 cause who else s
  let s2 := (List.range 16).foldl (fun s g => if s.rbit a g then s.wakeGath g cause who else s) s1
  (List.range 6).foldl (fun s p => if s.rbit a (16 + p) then s.wakePort p else s) s2
def State.wrVoteHost (s : State) (p : Port) (w : Nat) : State :=
  s.hostWrite p PM_VOTE_HOST w (fun t => t.applyVotes PM_VOTE_HOST 1 1)
/-- PM_VOTE_DBG: outside debug the write leaves the votes as they are. -/
def State.wrVoteDbg (s : State) (p : Port) (w : Nat) : State :=
  if s.debugging then s.hostWrite p PM_VOTE_DBG w (fun t => t.applyVotes PM_VOTE_DBG 1 8)
  else
    let m := (regSpec PM_VOTE_DBG).named
    s.hostWrite p PM_VOTE_DBG ((w - (w &&& m)) ||| (s.reg PM_VOTE_DBG &&& m)) id
/-- WAKE_N is released once every cause is cleared (R540). -/
def State.releaseWake (s : State) : State := if s.reg PM_WAKE_CAUSE = 0 then { s with wakeLow := false } else s
def State.wrWakeCause (s : State) (p : Port) (w : Nat) : State := s.hostWrite p PM_WAKE_CAUSE w (fun t => t.releaseWake)
/-- PM_REFUSE_LOG.VALID clears the register and PM_REFUSE_CNT. -/
def State.refuseClr (s : State) (w : Nat) : State := if bit w 31 then (s.setReg PM_REFUSE_LOG 0).setReg PM_REFUSE_CNT 0 else s
def State.wrRefuseLog (s : State) (p : Port) (w : Nat) : State := s.hostWrite p PM_REFUSE_LOG w (fun t => t.refuseClr w)

def execPmVoteHost (p : Port) (w : Word) (s : State) : Res := .next (s.wrVoteHost p w.toNat)
def execPmVoteDbg (p : Port) (w : Word) (s : State) : Res := .next (s.wrVoteDbg p w.toNat)
def execPmWakeCause (p : Port) (w : Word) (s : State) : Res := .next (s.wrWakeCause p w.toNat)
def execPmRefuseLog (p : Port) (w : Word) (s : State) : Res := .next (s.wrRefuseLog p w.toNat)

/-! ## Entries -/

/-- F1_ENTRY (R526): every context is IDLE or OFF and every engine idle. -/
def State.folioQuiet (s : State) (n : Nat) : Bool :=
  [0, 1, 2, 3].all (fun c => (s.ctx n c).st == .idle || (s.ctx n c).st == .off)
    && (Sp.get (fun _ => []) s.jobs n).isEmpty && (Sp.get (fun _ => []) s.gateQ n).isEmpty
    && [0, 1, 2, 3].all (fun k => (s.array n k).tiles.isEmpty)
def execF1Entry (n : Fin 50) (s : State) : Res :=
  if s.folioState n.val ≠ 0 then notDue "the folio is not in F0"
  else if !s.folioQuiet n.val then notDue "a context or an engine of the folio is not idle"
  else .next (s.setFolioState n.val 1)
/-- Is a work tag of the folio open (R530)? -/
def State.tagsOpen (s : State) (n : Nat) : Bool :=
  match s.logical n with
  | none => false
  | some k => (List.range 64).any (fun j => let r := s.tag k j; r.st == .opened || r.st == .closed || r.st == .cancelling)
/-- The refuser of a failed check of E0 (R530); an open work tag and a light-path message in flight count as the stream mover's part
(DESIGN CHOICE, log entry 44). -/
def State.entryCheck (s : State) (d : Nat) : Option Nat :=
  if d = 0x40 then
    (if s.movesBusy || s.lpSent.any (fun x => s.linkHolds x.2.2) then some 9
     else if s.strIdx.any (fun i => (s.str i).recordDue || (match (s.str i).step with | some t => t.released | none => false)) then some 0xA
     else none)
  else if s.tagsOpen d then some 9
  else none
/-- An entry of a folio or of the device starts with window E0; its checks and the regulator may abort it. -/
def State.beginEntry (s : State) (d target old : Nat) (regulatorOk : Bool) : State :=
  match (if regulatorOk then s.entryCheck d else some 0xB) with
  | some who => s.refuseEntry d (targetCode d target) who true
  | none =>
    let k := if d = 0x40 then target + 2 else target - 2
    let s1 := s.setSeq d (some ⟨true, target, old, s.rclk, [], [s.entryTime k], false, false, 0⟩)
    if d = 0x40 then s1.setDevState 3 else s1.setFolioState d 5
/-- POWER_ENTRY: the domain has held no vote for HOLDOFF rclk, and the choice is deeper than its state; a port without votes whose
link may sleep falls asleep. -/
def execPowerEntry (dom : BitVec 8) (regulatorOk : Bool) (s : State) : Res :=
  let d := dom.toNat
  if s.inReset || s.fld BOOT_STAT 31 28 != 7 then notDue "the device is not in service"
  else if d = 0x40 then
    (let t := s.devChoice
     if (s.seqOf d).isSome ∨ 2 ≤ s.devState ∨ t ≤ s.devState then notDue "the device is not due for a deeper state"
     else if s.devVoted then notDue "a vote holds the device"
     else if !s.active.all (fun n => decide (2 ≤ s.folioState n) && decide (s.folioState n ≤ 4)) then notDue "a folio is awake"
     else .next (s.beginEntry d t s.devState regulatorOk))
  else if d < 50 then
    (let t := s.folioChoice d
     let f := s.folioState d
     if (s.logical d).isNone ∨ s.retired d ∨ (s.seqOf d).isSome ∨ f = 0 ∨ 4 ≤ f ∨ s.devState ≠ 0 ∨ t ≤ f then
       notDue "the folio is not due for a deeper state"
     else if s.folioVoted d then notDue "a vote holds the folio"
     else if s.substs.any (fun p => match p.2 with
         | some x => s.gathOf x.logical == s.gathOfPhys d | none => false) then notDue "a substitution of the gathering runs (R561)"
     else if (s.gathOfPhys d).any (fun g => bit s.switching g) then notDue "the gathering switches its image (R575)"
     else .next (s.beginEntry d t f regulatorOk))
  else if 0x48 ≤ d ∧ d < 0x4E then
    (let p := d - 0x48
     if s.portVoted p ∨ !s.mayNap p ∨ (s.linkState p ≠ 0 ∧ s.linkState p ≠ 2) then notDue "the port may not sleep"
     else .next ((((s.setLinkState p 3).setLink p { LinkPort.reset with queue := (s.link p).queue }).requeue p).flood p).evalReach)
  else notDue "the code names no domain that sleeps by itself"
/-- ENTRY_COMPLETE (R530, R540): E0 and the entry delay have passed; a latched wake starts the exit. -/
def execEntryComplete (dom : BitVec 8) (s : State) : Res :=
  let d := dom.toNat
  match s.seqOf d with
  | none => notDue "no entry is in progress"
  | some x =>
    if !x.entering then notDue "no entry is in progress"
    else if s.rclk < x.since + 2 + x.delays.headD 0 then notDue "the entry delay has not passed"
    else
      let s1 := s.setSeq d none
      let s2 := if d = 0x40 then (s1.setDevState x.target).sleepVat x.target else (s1.setFolioState d x.target).sleepFolio d x.target
      let s3 := if d = 0x40 ∧ x.target = 2 then s2.active.foldl (fun s n => (s.setFolioState n 4).sleepFolio n 4) s2 else s2
      let s4 := if d = 0x40 then s3.setFld D2D_STAT 31 29 3 else s3
      .next (if x.latched then s4.startExit d x.causes else s4)

/-! ## What wakes -/

/-- The timers that the ownership table gives to the wake planner (R603). -/
def State.planTimer (s : State) : Bool := (List.range 5).any (fun k => s.fld (OWN_TMR (3 + k)) 7 0 == 5)
/-- The rclk of the planned class's last acceptance, plus one; 0 where no step of it has been accepted. -/
def State.planLast (s : State) : Nat :=
  s.strIdx.foldl (fun m i => if (s.str i).cls = s.fld PM_PLAN 27 24 ∧ (s.str i).stepped then max m ((s.str i).lastAccept + 1) else m) 0
/-- Does the planner's timer run: armed by an acceptance, and not expired since? -/
def State.planArmed (s : State) : Bool :=
  decide (2 ≤ s.level) && s.rbit PM_PLAN 31 && s.planTimer && decide (0 < s.planLast)
    && (match s.planAt with | some t => decide (t + 1 < s.planLast) | none => true)
/-- The rclk left on the planner's timer: PERIOD - W from the acceptance. -/
def State.planLeft (s : State) : Nat :=
  s.planLast + s.fld PM_PLAN 23 0 - (s.rclk + s.wakeTime (s.clsGath (s.fld PM_PLAN 27 24)) + 1)
/-- PLANNER_EXPIRY (R536). -/
def execPlannerExpiry (s : State) : Res :=
  let c := s.fld PM_PLAN 27 24
  if s.level < 2 ∨ !s.rbit PM_PLAN 31 ∨ !s.planTimer then notDue "the planner has no timer or is off"
  else if s.planLast = 0 then notDue "no step of the class has been accepted"
  else if !s.planArmed then notDue "the timer is not armed"
  else if s.planLeft ≠ 0 then notDue "PERIOD - W rclk have not passed"
  else
    let s1 := { s with planAt := some s.rclk }
    .next ((s1.wake 0x40 256 0).wakeGath (s.clsGath c) 256 0)
/-- Three consecutive bursts within their limits, with gaps within theirs between them (R492); each pair is a burst and the gap
after it. -/
def knockSeen (lo hi : Nat) : (run : Nat) → List (Nat × Nat) → Bool
  | _, [] => false
  | run, b :: rest =>
    let ok := decide (lo ≤ b.1) && decide (b.1 ≤ hi)
    let run1 := if ok then run + 1 else 0
    if run1 = 3 then true
    else knockSeen lo hi (if decide (lo ≤ b.2) && decide (b.2 ≤ hi) then run1 else 0) rest
/-- KNOCK (R492): a knock within its limits on an asleep port that may raise wake events. -/
def execKnock (l : Fin 6) (bursts : List (Nat × Nat)) (s : State) : Res :=
  let p := l.val
  if s.linkState p ≠ 3 then notDue "the port is not asleep"
  else if !(if s.rbit CLK_STAT 31 then knockSeen 6 10 0 bursts else knockSeen 8 12 0 bursts) then .next s
  else if !s.rbit LNK_CFG (16 + p) then .next s
  else
    let s1 := (s.wakeCause (2 ^ (2 + p))).wakePort p
    .next (s1.wake 0x40 (2 ^ (2 + p)) (2 + p))
/-- KNOCK_REPETITION (R492): an empty entry of the link's output stands for the wake pattern. -/
def execKnockRepetition (l : Fin 6) (s : State) : Res :=
  let p := l.val
  let x := s.link p
  if x.knocks = 0 ∨ s.linkState p = 2 then notDue "no knock is being sent"
  else .next { s.setLink p { x with knocks := x.knocks - 1 } with linkOut := s.linkOut ++ [(p, [])] }

/-! ## Clocks (R523, R541, R557) -/

/-- CLK_REF_LOSS. -/
def execClkRefLoss (s : State) : Res :=
  if s.refLost then notDue "REFCLK is lost already"
  else
    let s1 := ({ s with refLost := true }.setFld CLK_STAT 31 30 3).setBit CLK_STAT 29 true
    .next (s1.log 0x48 0xB1 0 0)
/-- REFCLK_RETURN. -/
def execRefclkReturn (s : State) : Res :=
  if !s.refLost then notDue "REFCLK is not lost"
  else .next (({ s with refLost := false }.setBit CLK_STAT 31 false).setBit CLK_STAT 29 false)
/-- The device placed in D2 with nothing kept but the rind and the stacks. -/
def State.fallD2 (s : State) (d : Nat) : State :=
  let s1 := ({ s with pwr := [] }.setDevState d).sleepVat 2
  (List.range 50).foldl (fun s n => if s.retired n then s else (s.setFolioState n 4).sleepFolio n 4) (s1.setFld D2D_STAT 31 29 3)
/-- REFCLK_LOSS_TIMEOUT (R523, R565): the device withdraws and enters D2. -/
def execRefclkLossTimeout (s : State) : Res :=
  if !s.refLost then notDue "REFCLK is not lost" else .next (s.withdraw.fallD2 2)
/-- The steps in flight on a gathering for which a test holds fail before release and are rerun. -/
def State.failWhere (s : State) (f : Nat → Bool) : State :=
  s.strIdx.foldl (fun s i =>
    match (s.str i).step with
    | some t => if t.dispatched && f (s.strGath i) then s.failStep i false else s
    | none => s) s
/-- The domains of a PLL on the limp clock: quire 0 to 9, or the fabric (10). -/
def State.limp (s : State) (u : Nat) : State :=
  (s.setBit CLK_STAT u true).log 0x4A (if u = 10 then 0xC8 else 0xB8 + u) 8 0
/-- CLK_PLL (R557): the domains move to the limp clock without a retry; their steps fail and are rerun. -/
def execClkPll (u : Fin 11) (s : State) : Res :=
  let k := u.val
  if s.devState ≠ 0 ∨ s.inReset then notDue "the device is not in D0"
  else if s.rbit CLK_STAT k then notDue "the domain runs on the limp clock"
  else
    let s1 := (s.log 0x49 (if k = 10 then 0xC8 else 0xB8 + k) 1 0).limp k
    .next (s1.failWhere (fun g => k == 10 || (members (s.gmask g)).any (fun j => s.phys j / 5 == k)))

/-! ## Supplies (R557, R628) -/

def railUnit : Rail → Nat
  | .core => 0xD0 | .sram => 0xD1 | .rind => 0xD2 | .vddq => 0xD3 | .serdes => 0xD4 | .folioReg n => n.val
/-- SUPPLY: a core rail stops releases and its steps are rerun; a folio regulator retires its folio; any other rail is logged. -/
def execSupply (r : Rail) (s : State) : Res :=
  if s.railsOut.contains r then notDue "the rail is out of its band already"
  else match r with
    | .folioReg n =>
      if s.retired n.val then notDue "the folio is retired"
      else .next ((s.log 0x4B n.val 4 0).retire n.val)
    | .core | .sram =>
      let s1 := { s with railsOut := s.railsOut ++ [r] }
      .next ((s1.log 0x4B (railUnit r) 1 0).failWhere (fun _ => true))
    | _ => .next ({ s with railsOut := s.railsOut ++ [r] }.log 0x4B (railUnit r) 0 0)
/-- SUPPLY_RETURN: 1 µs later, 10 rclk, releases go on. -/
def execSupplyReturn (r : Rail) (s : State) : Res :=
  if !s.railsOut.contains r then notDue "the rail is not out of its band"
  else
    let s1 := { s with railsOut := s.railsOut.filter (fun x => x != r) }
    .next (if r = .core ∨ r = .sram then { s1 with quietUntil := s.rclk + 10 } else s1)
/-- SUPPLY_EXCURSION_TIMEOUT: an excursion longer than 10 µs withdraws the device. -/
def execSupplyExcursionTimeout (r : Rail) (s : State) : Res :=
  if s.railsOut.contains r && (r == .core || r == .sram) then .next s.withdraw else notDue "no core rail is out of its band"

/-! ## Heat (R546 to R548) -/

/-- A reading of 8 bits in two's complement. -/
def degrees (x : Nat) : Int := if x < 128 then x else (x : Int) - 256
/-- Is every reading of THERM_S below a limit? -/
def State.cooler (s : State) (limit : Int) : Bool := (List.range 16).all (fun k => decide (degrees (s.fld (THERM_S k) 7 0) < limit))
/-- The readings of a sample, and THERM_N (R546). -/
def State.sample (s : State) (temps : BitVec 128) : State :=
  let t := fun (k : Nat) => bits temps.toNat (8 * k + 7) (8 * k)
  let s1 := (List.range 16).foldl (fun s k => s.setReg (THERM_S k) (2 ^ 31 + t k)) s
  let hbm := (List.range 4).map (fun k => degrees (s.fld (HBM_TEMP k) 7 0))
  let hot := (List.range 16).foldl (fun m k => if 105 ≤ degrees (t k) then m + 2 ^ k else m) 0
  let top := (List.range 16).foldl (fun (m : Nat) k => if degrees m < degrees (t k) then t k else m) (s.fld THERM_STAT 23 16)
  let on := hot ≠ 0 ∨ hbm.any (fun x => decide (100 ≤ x))
  let off := s1.cooler 100 ∧ hbm.all (fun x => decide (x < 95))
  let warn : Bool := if on then true else if off then false else s.rbit THERM_STAT 31
  let s2 := { ((s1.setFld THERM_STAT 15 0 hot).setFld THERM_STAT 23 16 top).setBit THERM_STAT 31 warn with
    thermLow := warn || s.devState == 7 }
  (if warn && (s.devState == 1 || s.devState == 2) && !s.rbit THERM_STAT 31 then s2.wake 0x40 512 0 else s2)
/-- THERM_TRIP (R547): logged before power is removed; nothing is released, streams are FENCED, and all but the rind goes off. -/
def execThermTrip (s : State) : Res :=
  if s.devState = 7 then notDue "the device is in TRIP"
  else
    let s1 := (s.log 0x50 0xB0 0 0).fence
    let s2 := { s1.fallD2 7 with hoop := { s1.hoop with standing := false, ends := 0 }, thermLow := true, faultLow := true }
    .next s2

end Sys2Proof.Machine
end

