-- ==== Sys2Proof/Machine/Txn.lean ====
section
/-! DEFINITION. Transactions: opening, selecting, committing, the checks and the effects of the press point, roll back, orphans
(19_registers_and_transactions.md R592 to R606 and the commit checks of the other chapters). -/

namespace Sys2Proof.Machine

/-! ## Opening, selecting, rolling back (R592, R593, R598, R602) -/

/-- A slot that holds an open transaction: OPEN or COMMITTING. -/
def Txn.live (t : Txn) : Bool := t.st == 1 || t.st == 2
def State.setPortReg (s : State) (k v : Nat) : State :=
  { s with portRegs := Sp.set (fun _ => 0) s.portRegs k (BitVec.ofNat 32 v) }
/-- TXN_BEGIN. -/
def State.txnBegin (s : State) (p : Port) (w : Nat) : State :=
  let tag := bits w 31 16
  let gm := bits w 15 0
  let ks := (List.range 4).filter (fun k => (s.txn k).live)
  let code :=
    if ks.length = 4 then 0x30
    else if ks.any (fun k => (s.txn k).gmask &&& gm != 0) then 0x31
    else if tag = 0 ∨ ks.any (fun k => (s.txn k).port == portCode p && (s.txn k).tag == tag) then 0x32
    else 0
  match (List.range 4).find? (fun k => !(s.txn k).live), code with
  | some k, 0 =>
    (s.setTxn k { Txn.reset with tag := tag, gmask := gm, st := 1, port := portCode p, lease := s.leaseLen, len := s.leaseLen,
                                 out := (s.txn k).out }).setPortReg (2 * portCode p) (2 ^ 31 + k * 256)
  | _, c => s.setPortReg (2 * portCode p) (2 ^ 31 + c)
/-- TXN_SEL: the port's own copy; the lease of the transaction it names starts again. -/
def State.txnSel (s : State) (p : Port) (w : Nat) : State := ((s.setReg TXN_SEL 0).setPortReg (2 * portCode p + 1) (bits w 15 0)).touch p
/-- The live transaction of a port with a tag. -/
def State.liveTxn (s : State) (p : Port) (tag : Nat) : Option Nat :=
  (List.range 4).find? (fun k => (s.txn k).live && (s.txn k).port == portCode p && (s.txn k).tag == tag)
/-- TXN_COMMIT: COMMITTING, whose lease does not run. No commit is taken before READY (R632). -/
def State.txnCommit (s : State) (p : Port) (w : Nat) : State :=
  match s.openTxn p (bits w 15 0) with
  | some k => if s.fld BOOT_STAT 31 28 = 7 then s.setTxn k { s.txn k with st := 2, lease := 0 } else s.pageErr 1 29
  | none => s.pageErr 1 29
/-- TXN_ROLLBACK. -/
def State.txnRollback (s : State) (p : Port) (w : Nat) : State :=
  match s.liveTxn p (bits w 15 0) with
  | some k => s.setTxn k { s.txn k with st := 5, staged := [], lease := 0 }
  | none => s.pageErr 1 29
/-- TXN_LEASE keeps its value where the one written is out of range. -/
def State.wrLease (s : State) (p : Port) (w : Nat) : State :=
  let old := s.reg TXN_LEASE
  s.hostWrite p TXN_LEASE w (fun t => if bits w 15 0 = 0 ∨ 1000 < bits w 15 0 then t.setReg TXN_LEASE old else t)
/-- An OPEN or COMMITTING transaction orphaned (R600): rolled back, counted and logged. -/
def State.orphan (s : State) (k : Nat) : State :=
  s.withLine 1 <|
  let s1 := s.setTxn k { s.txn k with st := 6, staged := [], lease := 0, out := 2 }
  ((s1.setBit TXN_SLOT_ACK k true).bump TXN_CNT 31 16 1).log 0x60 0xB0 0 0

def State.wrTxnBegin (s : State) (p : Port) (w : Nat) : State := s.hostWrite p TXN_BEGIN w (fun t => t.txnBegin p w)
def State.wrTxnSel (s : State) (p : Port) (w : Nat) : State := s.hostWrite p TXN_SEL w (fun t => t.txnSel p w)
def State.wrTxnCommit (s : State) (p : Port) (w : Nat) : State := s.hostWrite p TXN_COMMIT w (fun t => t.txnCommit p w)
def State.wrTxnRollback (s : State) (p : Port) (w : Nat) : State := s.hostWrite p TXN_ROLLBACK w (fun t => t.txnRollback p w)
def execTxnBegin (p : Port) (w : Word) (s : State) : Res := .next (s.wrTxnBegin p w.toNat)
def execTxnSel (p : Port) (w : Word) (s : State) : Res := .next (s.wrTxnSel p w.toNat)
def execTxnCommit (p : Port) (w : Word) (s : State) : Res := .next (s.wrTxnCommit p w.toNat)
def execTxnRollback (p : Port) (w : Word) (s : State) : Res := .next (s.wrTxnRollback p w.toNat)
/-- TXN_ORPHANED (R600): the lease of an OPEN transaction has run out. -/
def execTxnOrphaned (k : Fin 4) (s : State) : Res :=
  if (s.txn k.val).st ≠ 1 then notDue "the slot holds no OPEN transaction"
  else if (s.txn k.val).lease ≠ 0 then notDue "the lease still runs"
  else .next (s.orphan k.val)

/-! ## The checks of a commit. `s` is the state in force, `t` the state with the staged writes applied. -/

/-- The staged writes applied to the registers. -/
def State.applyStaged (s : State) (l : List (Nat × Nat × Nat)) : State :=
  l.foldl (fun s x => s.setReg x.1 (s.reg x.1 - (s.reg x.1 &&& x.2.1) + x.2.2)) s
/-- A failing check: its code, the resource and its owner. -/
abbrev Check := Nat × Nat × Nat
def chk (code : Nat) (b : Bool) : List Check := if b then [(code, 0, 0)] else []

/-- The logical folios that a staged word affects, as a mask (R595). -/
def scopeOf (s t : State) (a : Nat) : Nat :=
  let p := a / 4096
  let o := a % 4096
  if 0x040 ≤ p ∧ p < 0x108 then (match s.logical ((p - 0x040) / 4) with | some k => 2 ^ k | none => 0)
  else if p = 0x1A2 then (let k := (o - 0x040) / 16; s.gmask (s.clsGath k) ||| t.gmask (t.clsGath k))
  else if p = 0x1A3 then (let g := (o - 0x040) / 8; s.gmask g ||| t.gmask g)
  else if 0x141 ≤ p ∧ p ≤ 0x148 then
    (let h := (p - 0x141) * 128 + (o - 0x100) / 16
     let g := fun (s : State) => s.fld (SIG h 3) 27 24
     s.gmask (g s) ||| s.gmask (g t) ||| t.gmask (g s) ||| t.gmask (g t))
  else if a = FW_SEL then
    (List.range 16).foldl (fun m g => if s.rbit FW_SEL g != t.rbit FW_SEL g then m ||| s.gmask g ||| t.gmask g else m) 0
  else 0
/-- TXN_SCOPE (R595). -/
def checkScope (s t : State) (x : Txn) : List Check :=
  let m := x.staged.foldl (fun m w => m ||| scopeOf s t w.1) 0
  chk 1 ((List.range 16).any (fun g => !bit x.gmask g
    && ((s.gathEn g && m &&& s.gmask g != 0) || (t.gathEn g && m &&& t.gmask g != 0))))

/-- The features that a bump may carry, a timer may belong to and a landing zone may have (R604). -/
def placeOk (res f : Nat) : Bool :=
  if res < 8 then
    f == 0 || f == 7 || (decide (0x0A ≤ f) && decide (f ≤ 0x0C)) || (f == 8 && (res == 3 || res == 7)) || (f == 9 && res != 3 && res != 7)
  else if res < 16 then
    (let k := res - 8
     f == 0 || (f == k + 1 && decide (k ≤ 3)) || (f == 5 && decide (3 ≤ k)) || (f == 6 && decide (4 ≤ k)))
  else f == 0 || (decide (0x10 ≤ f) && decide (f ≤ 0x20))
/-- The resource that a word of the ownership table assigns (R603). -/
def resOf (a : Nat) : Option Nat :=
  let o := a % 4096
  if a / 4096 ≠ 1 then none
  else if 0x100 ≤ o ∧ o < 0x120 then some ((o - 0x100) / 4)
  else if 0x120 ≤ o ∧ o < 0x140 then some (8 + (o - 0x120) / 4)
  else if 0x140 ≤ o ∧ o < 0x240 then some (0x40 + (o - 0x140) / 4)
  else none
/-- The owner of a resource; a landing-zone record that is not valid is free. -/
def State.ownerOf (s : State) (res : Nat) : Nat :=
  if res < 8 then s.fld (OWN_SB res) 7 0
  else if res < 16 then s.fld (OWN_TMR (res - 8)) 7 0
  else if s.rbit (OWN_LZ (res - 0x40)) 31 then s.fld (OWN_LZ (res - 0x40)) 7 0 else 0
/-- A safety feature takes a resource from one that is not (R605). -/
def safety (f : Nat) : Bool := f == 4 || f == 7
/-- CONFLICT of one staged assignment (R605). -/
def conflictAt (s t : State) (res : Nat) : Bool :=
  let old := s.ownerOf res
  let new := t.ownerOf res
  if old = new then false
  else if 1 ≤ old ∧ old ≤ 3 then true
  else if res = 11 ∧ old = 4 ∧ s.fld CH_STAT 31 29 ≠ 0 then true
  else old != 0 && new != 0 && !(safety new && !safety old)
/-- The valid landing-zone records by handle. -/
def State.zoneRecs (s : State) : List (Nat × Nat) :=
  ((List.range 64).filter (fun k => s.rbit (OWN_LZ k) 31)).map (fun k => (k, s.fld (OWN_LZ k) 25 16))
/-- CONFLICT, OWN_PLACE and OWN_MISSING (R604 to R606). -/
def checkOwners (s t : State) (x : Txn) : List Check :=
  let rs := x.staged.filterMap (fun w => resOf w.1)
  let feature := fun (r : Nat) => if r < 8 then t.fld (OWN_SB r) 7 0 else if r < 16 then t.fld (OWN_TMR (r - 8)) 7 0 else t.fld (OWN_LZ (r - 0x40)) 7 0
  let zs := t.zoneRecs
  let dup := zs.filter (fun z => zs.any (fun y => y.1 != z.1 && y.2 == z.2))
  let kinds := fun (h : Nat) => t.rbit (SIG h 3) 31 && (t.sigKind h == 1 || t.sigKind h == 4)
  let gone := (s.zoneRecs.filter (fun z => !t.rbit (OWN_LZ z.1) 31 && kinds z.2)).map (fun z => z.1)
  (rs.filter (conflictAt s t)).map (fun r => (2, r, s.ownerOf r))
    ++ dup.map (fun z => (2, 0x40 + z.1, s.ownerOf (0x40 + z.1)))
    ++ (rs.filter (fun r => !placeOk r (feature r))).map (fun r => (3, r, 0))
    ++ gone.map (fun k => (4, 0x40 + k, 0))
    ++ (if (List.range 1024).any (fun h => kinds h && !zs.any (fun z => z.2 == h)) then [(4, 0xFF, 0)] else [])
    ++ (if t.rbit PM_PLAN 31 && !t.planTimer then [(4, 0xFF, 0)] else [])
/-- DBG_LOCKED and MODE_RANGE (R584). -/
def checkModes (s t : State) (x : Txn) : List Check :=
  let ns := (List.range 50).filter (fun n => x.staged.any (fun w => w.1 == FOLIO_CTRL n))
  chk 5 (ns.any (fun n => t.mode n == 4) && !s.rbit DEV_SEAL 1) ++ chk 6 (ns.any (fun n => decide (5 ≤ t.mode n)))

/-- Does a transaction write a word of class k, or of gathering g? -/
def Txn.classes (x : Txn) : List Nat := (List.range 16).filter (fun k => x.staged.any (fun w => decide (CLASS_TBL k 0 ≤ w.1) && decide (w.1 ≤ CLASS_TBL k 3)))
def Txn.gaths (x : Txn) : List Nat := (List.range 16).filter (fun g => x.staged.any (fun w => w.1 == GATH_TBL g 0 || w.1 == GATH_TBL g 1))
/-- Is a stream that is not FREE of a class that a test names? -/
def State.strWith (s : State) (f : Nat → Bool) : Bool := s.strIdx.any (fun i => (s.str i).st != .free && f (s.str i).cls)
/-- CLASS_RT, BUDGET_LOW, CLASS_BUSY, CLASS_RANGE (R301). -/
def checkClasses (s t : State) (x : Txn) : List Check :=
  let ks := x.classes
  let rt := (List.range 16).filter (fun k => t.clsEn k && (ks.contains k || x.gaths.contains (t.clsGath k)))
  let range := fun (k : Nat) =>
    t.clsBudget k == 0 || decide (t.clsHold k < 10) || decide (10000 < t.clsHold k) || t.clsTokenInt k == 0 || t.clsDepth k == 0
      || decide (16 < t.clsDepth k) || t.clsBurstMax k == 0 || decide (1024 < t.clsBurstMax k) || decide (15 < t.clsGath k)
      || t.fld (CLASS_TBL k 2) 31 26 != 0
  chk 0x10 (rt.any (fun k => t.clsRt k != t.gathRsv (t.clsGath k)))
    ++ chk 0x11 (ks.any (fun k => t.clsEn k && t.clsRt k && (match t.schedClass k with | some c => decide (t.clsBudget k < c.lc) | none => false)))
    ++ chk 0x12 (ks.any (fun k => ((s.clsEn k && !t.clsEn k) || s.clsGath k != t.clsGath k) && s.strWith (fun c => c == k)))
    ++ chk 0x16 (ks.any range)
/-- GATH_OVERLAP and GATH_RESERVED (R302, R303). -/
def checkGaths (s t : State) (x : Txn) : List Check :=
  let en := (List.range 16).filter t.gathEn
  chk 0x13 (en.any (fun g => en.any (fun h => g != h && t.gmask g &&& t.gmask h != 0)))
    ++ chk 0x14 (x.gaths.any (fun g => s.gathRsv g && (s.gmask g != t.gmask g || s.gathRsv g != t.gathRsv g)
        && s.strWith (fun c => s.clsGath c == g)))
/-- Do two ranges of addresses meet? -/
def meet (a n b m : Nat) : Bool := decide (a < b + m) && decide (b < a + n)
/-- The sizes of the wheel range (R325) and of the mirror region (R509). -/
def wheelSpan : Nat := 0x80050000
def mirrorSpan : Nat := 0x80010000
/-- The HBM regions that the loaded schedules record. -/
def State.regions (s : State) : List (Nat × Nat) := s.scheds.flatMap (fun y => y.regions.map (fun r => (r.1.toNat, r.2)))
/-- WHEEL_BASE_BUSY and WHEEL_BASE_RANGE (R325). -/
def checkWheel (s t : State) (x : Txn) : List Check :=
  if x.staged.any (fun w => w.1 == WHEEL_BASE_LO || w.1 == WHEEL_BASE_HI) then
    chk 0x15 (s.wheelBase != t.wheelBase && s.strWith (fun _ => true))
      ++ chk 0x17 (decide (59 * 2 ^ 30 < t.wheelBase) || meet t.wheelBase wheelSpan t.mirrorBase mirrorSpan
          || s.regions.any (fun r => meet t.wheelBase wheelSpan r.1 r.2))
  else []

/-- Does a landing zone hold an occupied granule (R345): of a burst, or of a ring whose credits are not all back (R348)? -/
def State.zoneBusy (s : State) (h : Nat) : Bool :=
  !(Sp.get (fun _ => []) s.occupied h).isEmpty
    || s.rings.any (fun r => r.zone.toNat == h && decide (s.credit (ringKey h r.num.toNat) < r.size))
/-- Does a schedule name a signature entry (R345): in its list, as a ring's zone, or as a class's zone or wheel buffer? -/
def schedNames (x : Sched) (h : Nat) : Bool :=
  x.handles.any (fun v => v.toNat == h) || x.rings.any (fun r => r.zone.toNat == h)
    || x.gaths.any (fun g => g.classes.any (fun k => k.zone.toNat == h || k.wheelBuf.any (fun v => v.toNat == h)))
/-- A valid entry breaks R344 (SIG_PLACE); one whose golden copy touches the spare region does too (R370; the code is DEDUCED, log entry
37). -/
def sigBad (t : State) (h : Nat) : Bool :=
  let k := t.sigKind h
  let lz := k == 1 || k == 4
  let n := t.sigSize h
  n == 0 || decide (16384 * 256 < n) || decide (0x2800000 < t.sigBase h + n)
    || t.sigBase h / 0x400000 != (t.sigBase h + n - 1) / 0x400000 || decide (4 < k)
    || (if lz then decide (47 < t.sigOwner h) || !bit (t.gmask (t.sigGath h)) (t.sigOwner h) else t.sigOwner h != 0)
    || ((lz || k == 3) && t.rbit (SIG h 3) 16) || (k != 3 && t.fld (SIG h 2) 31 24 + t.fld (SIG h 3) 15 0 != 0)
    || (k == 3 && decide (hbmSpare < t.sigGaddr h * 4096 + n))
/-- The banks that an entry covers. -/
def State.sigBanks (s : State) (h : Nat) : List Nat :=
  (List.range 80).filter (fun b => meet (s.sigBase h) (s.sigSize h) (b * 0x80000) 0x80000)
/-- SIG_PLACE, SIG_OVERLAP, SIG_BUSY, VAT_BANK_OFF, FM_SEG_BUSY, VAT_BANK_BUSY (R345, R361). -/
def checkVat (s t : State) (x : Txn) : List Check :=
  let wr := (List.range 1024).filter (fun h => x.staged.any (fun w => decide (SIG h 0 ≤ w.1) && decide (w.1 ≤ SIG h 3)))
  let ok := (List.range 1024).filter (fun h => t.rbit (SIG h 3) 31)
  let changed := fun (h : Nat) => [1, 2, 3].any (fun k => s.reg (SIG h k) != t.reg (SIG h k))
  let off := fun (b : Nat) => !t.rbit (VAT_PWR (b / 32)) (b % 32)
  let cut := (List.range 80).filter (fun b => s.rbit (VAT_PWR (b / 32)) (b % 32) && off b)
  chk 0x18 (ok.any (sigBad t))
    ++ chk 0x19 (ok.any (fun h => ok.any (fun j => h != j && meet (t.sigBase h) (t.sigSize h) (t.sigBase j) (t.sigSize j))))
    ++ chk 0x1A (wr.any (fun h => s.rbit (SIG h 3) 31 && changed h
        && (s.zoneBusy h || s.scheds.any (fun y => schedNames y h))))
    ++ chk 0x1B (wr.any (fun h => t.rbit (SIG h 3) 31 && (t.sigBanks h).any off))
    ++ chk 0x1C ((List.range 50).any (fun n => match s.logical n with
        | none => false
        | some k => s.scheds.any (fun y => y.images.any (fun m => m.folio.val == k
            && (s.reg (FOLIO_FM_PWR n) - (s.reg (FOLIO_FM_PWR n) &&& t.reg (FOLIO_FM_PWR n))) &&& m.segs.toNat != 0))))
    ++ chk 0x1D (cut.any (fun b => ok.any (fun h => !wr.contains h && (t.sigBanks h).contains b)))
/-- Pairs of contexts. -/
def ctxPairs : List (Nat × Nat) := [(0, 1), (0, 2), (0, 3), (1, 2), (1, 3), (2, 3)]
/-- Do two ranges given by start and count meet, an empty one meeting none? -/
def overlap (a n b m : Nat) : Bool := decide (0 < n) && decide (0 < m) && meet a n b m
/-- SEQ_DESC (R398) on the folios whose descriptors a transaction writes. -/
def descClash (t : State) (n : Nat) : Bool :=
  ctxPairs.any (fun p =>
    overlap (t.dVbase n p.1) (t.dVcnt n p.1) (t.dVbase n p.2) (t.dVcnt n p.2)
      || t.dVm n p.1 &&& t.dVm n p.2 != 0 || t.dVf n p.1 &&& t.dVf n p.2 != 0
      || overlap (t.dTaglo n p.1) (t.dTagn n p.1) (t.dTaglo n p.2) (t.dTagn n p.2)
      || t.dClasses n p.1 &&& t.dClasses n p.2 != 0)
    || [0, 1, 2, 3].any (fun c => decide (256 < t.dFmbase n c + t.dFmsize n c) || decide (64 < t.dTaglo n c + t.dTagn n c)
        || decide (8 < t.dVbase n c + t.dVcnt n c) || (t.ctxEn n c && t.dWlim n c == 0 && t.mode n == 0))
def checkDesc (t : State) (x : Txn) : List Check :=
  chk 0x20 ((List.range 50).any (fun n =>
    x.staged.any (fun w => decide (SEQ_DESC n 0 0 ≤ w.1) && decide (w.1 ≤ SEQ_DESC n 3 3)) && descClash t n))
/-- A word of the configured charter (R498). -/
def charterWord (a : Nat) : Bool :=
  [CH_DIM, CH_ANCHOR, CH_HOOP, CH_MIRROR].contains a || a / 4096 == 0x1B1 || a / 4096 == 0x1B2
/-- The configured charter breaks R498 (CHARTER_CFG). -/
def charterBad (t : State) : Bool :=
  let ms := t.cfgMembers
  let a := t.fld CH_ANCHOR 9 0
  let len := t.fld CH_HOOP 31 16
  let ren := t.fld CH_HOOP 15 8
  let to' := t.fld CH_MIRROR 31 16
  ms.any (fun k => decide (t.seats ≤ k)) || sumBy t.cfgWeight ms == 0 || t.cfgWeight a == 0
    || decide (len < 4) || decide (200 < len) || ren == 0 || decide (len / 4 < ren) || decide (to' < 10) || decide (10000 < to')
    || meet t.wheelBase wheelSpan t.mirrorBase mirrorSpan || decide (hbmSpare < t.mirrorBase + mirrorSpan)
/-- Is the only change of a charter word to set MEMBER for a seat that is not a member in force? -/
def onlyJoins (s t : State) (a : Nat) : Bool :=
  if a / 4096 = 0x1B1 ∨ a / 4096 = 0x1B2 then
    s.reg a == t.reg a || (t.reg a == s.reg a + 2 ^ 31 && !s.member ((a / 4096 - 0x1B1) * 512 + (a % 4096 - 0x040) / 4))
  else s.reg a == t.reg a
/-- CHARTER_CFG and CHARTER_BUSY (R498, R521). -/
def checkCharter (s t : State) (x : Txn) : List Check :=
  let ws := (x.staged.map (fun w => w.1)).filter charterWord
  let force := s.fld CH_STAT 31 29 == 2
  chk 0x21 (!ws.isEmpty && charterBad t)
    ++ chk 0x22 (force && (ws.any (fun a => !onlyJoins s t a) || s.fld LNK_CFG 9 0 != t.fld LNK_CFG 9 0))
/-- FW_ONE_GATH, FW_NOT_STAGED, PM_RANGE (R551, R575). -/
def checkRest (s t : State) (x : Txn) : List Check :=
  let d := (List.range 16).filter (fun g => s.rbit FW_SEL g != t.rbit FW_SEL g)
  chk 0x23 (decide (1 < d.length)) ++ chk 0x24 (d.any (fun g => t.rbit FW_SEL g) && !s.rbit FW_STAT 31)
    ++ chk 0x25 ((x.staged.any (fun w => w.1 == PM_LIMIT) && (t.fld PM_LIMIT 31 30 == 3 || t.fld PM_LIMIT 29 27 == 0
          || decide (4 < t.fld PM_LIMIT 29 27) || t.fld PM_LIMIT 15 0 == 0))
        || (x.staged.any (fun w => w.1 == PM_PLAN) && t.rbit PM_PLAN 31 && t.fld PM_PLAN 23 0 == 0))
/-- The failing check of lowest code (R596); the first of them where a code fails twice. -/
def commitFails (s : State) (x : Txn) : Option Check :=
  let t := s.applyStaged x.staged
  let cs := checkScope s t x ++ checkOwners s t x ++ checkModes s t x ++ checkClasses s t x ++ checkGaths s t x ++ checkWheel s t x
    ++ checkVat s t x ++ checkDesc t x ++ checkCharter s t x ++ checkRest s t x
  cs.foldl (fun m c => match m with | none => some c | some b => if c.1 < b.1 then some c else some b) none

/-! ## The press point (R596, R597, R599) -/

/-- The classes that a commit enables start with a full bucket (R300). -/
def fillBuckets (s t : State) : State :=
  (List.range 16).foldl (fun t k => if !s.clsEn k && t.clsEn k then t.setTokens k (t.clsDepth k) else t) t
/-- Contexts whose EN changes (R399): an enabled one is idle, or ready with its queue; a disabled one that has started no entry is off,
whatever its queue holds. -/
def turnContexts (s t : State) : State :=
  (List.range 200).foldl (fun t k =>
    let n := k / 4
    let c := k % 4
    let x := t.ctx n c
    if s.ctxEn n c = t.ctxEn n c then t
    else if t.ctxEn n c ∧ x.st = .off then (t.setCtx n c { x with st := if x.queue = [] then .idle else .ready }).select n
    else if !t.ctxEn n c ∧ (x.st = .idle ∨ x.st = .ready ∨ (x.st = .halted ∧ x.entry = none)) then t.setCtx n c { x with st := .off }
    else t) t
/-- Segments and banks that a commit powers off lose PWRD and their contents (R360). -/
def cutPower (s t : State) : State :=
  let t1 := (List.range 50).foldl (fun t n =>
    if s.reg (FOLIO_FM_PWR n) = t.reg (FOLIO_FM_PWR n) then t
    else (List.range 16).foldl (fun t k =>
      if s.rbit (FOLIO_FM_PWR n) k && !t.rbit (FOLIO_FM_PWR n) k then
        (t.wipe 0 (n * 2 ^ 20 + k * 65536) 65536).setBit (FOLIO_FM_STAT n) k false
      else t) t) t
  (List.range 80).foldl (fun t b =>
    if s.rbit (VAT_PWR (b / 32)) (b % 32) && !t.rbit (VAT_PWR (b / 32)) (b % 32) then
      (t.wipe 6 (b * 0x80000) 0x80000).setBit (VAT_STAT (b / 32)) (b % 32) false
    else t) t1
/-- The gatherings whose FW_SEL bit changes start their switch (R575). -/
def startSwitches (s t : State) : State :=
  (List.range 16).foldl (fun t g =>
    if s.rbit FW_SEL g = t.rbit FW_SEL g then t
    else { t with switching := if bit t.switching g then t.switching else t.switching + 2 ^ g }.setBit FW_STAT 30 true) t
/-- RIND_TMRk.OWNER mirrors OWN_TMRk (R603). -/
def mirrorTimers (t : State) : State := (List.range 8).foldl (fun t k => t.setFld (RIND_TMR k) 31 28 (t.fld (OWN_TMR k) 7 0)) t
/-- The staged writes take effect. -/
def State.press (s : State) (x : Txn) : State :=
  mirrorTimers (startSwitches s (cutPower s (turnContexts s (fillBuckets s (s.applyStaged x.staged)))))
/-- Have the folios of GMASK's gatherings ended their entries in progress, and their substitutions (R596)? -/
def State.pressReady (s : State) (x : Txn) : Bool :=
  (List.range 16).all (fun g => !bit x.gmask g || (members (s.gmask g)).all (fun k =>
    (decide (2 ≤ s.folioState (s.phys k)) || [0, 1, 2, 3].all (fun c => (s.ctx (s.phys k) c).entry.isNone))
      && s.substs.all (fun p => match p.2 with | some y => y.logical != k | none => true)))
/-- PRESS_POINT. -/
def execPressPoint (k : Fin 4) (s : State) : Res :=
  let x := s.txn k.val
  if x.st ≠ 2 then notDue "the slot holds no COMMITTING transaction"
  else if !s.pressReady x then notDue "an entry or a substitution of the gatherings is still in progress"
  else match commitFails s x with
    | none => .next (s.withLine 1 (((s.press x).setTxn k.val { x with st := 3, code := 0, out := 1 }).setBit TXN_SLOT_ACK k.val true))
    | some c =>
      let s1 := s.setTxn k.val { x with st := 4, code := c.1, res := c.2.1, owner := c.2.2, out := 1 }
      .next (s.withLine 1 ((s1.setBit TXN_SLOT_ACK k.val true).bump TXN_CNT 15 0 1))

/-! ## The registers of page 0x001 as they read (R584, R602) -/

/-- The four words of TXN_SLOTk. -/
def State.slotWords (s : State) (k : Nat) : List Nat :=
  let x := s.txn k
  [x.tag * 65536 + x.gmask, x.st * 2 ^ 29 + x.port * 2 ^ 27 + min x.staged.length 0xFFFF,
   x.code * 2 ^ 24 + x.res * 65536 + x.owner * 256, if x.st = 1 then x.lease else 0]
/-- TXN_TAG of a page's header. -/
def State.pageTag (s : State) (p : Nat) : Nat :=
  match (List.range 4).find? (fun k => (s.txn k).st == 1 && (s.txn k).staged.any (fun w => w.1 / 4096 == p)) with
  | some k => (s.txn k).tag
  | none => 0

end Sys2Proof.Machine
end

