-- ==== Sys2Proof/Machine/Mailbox.lean ====
section
/-! DEFINITION. The mailbox: commands, chunks, and what each operation does (19_registers_and_transactions.md R607 to R610; R41, R211,
R318, R324, R390, R408, R559, R574, R575, R632, R641). The image of an inbound operation travels with its command. -/

namespace Sys2Proof.Machine

/-! ## Outcome codes (R610) -/

def MBX_OP : Nat := 0x01
def MBX_BAD_ARG : Nat := 0x02
def MBX_STATE : Nat := 0x03
def MBX_LATE : Nat := 0x04
def MBX_ORPHANED : Nat := 0x05
def FW_SIG : Nat := 0x06
def FW_INCOMPAT : Nat := 0x07
def FW_SEL_PARTIAL : Nat := 0x08
def SCHED_CAPS_MISMATCH : Nat := 0x09
def SCHED_TAG : Nat := 0x0A
def SCHED_SPACE : Nat := 0x0B
def SCHED_BUSY : Nat := 0x0C
def SCHED_CONFLICT : Nat := 0x0D
def KEY_SLOT : Nat := 0x0E
def MBX_NO_SPARE : Nat := 0x0F
def MBX_SPARE_SPENT : Nat := 0x10
def SELF_TEST_FAIL : Nat := 0x11
def SELF_TEST_BUSY : Nat := 0x12
def EXPORT_IV_SPENT : Nat := 0x13
def FW_NOT_STAGED : Nat := 0x14

/-! ## Chunks and ends (R607, R608) -/

/-- Argument register i. -/
def State.mbxArg (s : State) (i : Nat) : Nat := s.reg (MBX_ARG i)
/-- An operation ends with a code: BUSY falls, CODE holds the outcome, the arguments become zero. -/
def State.mbxEnd (s : State) (code : Nat) : State :=
  s.withLine 2 <|
  let s1 := (((s.setBit MBX_STAT 31 false).setBit MBX_STAT 29 false).setFld MBX_STAT 23 16 code)
  (List.range 12).foldl (fun s i => s.setReg (MBX_ARG i) 0) { s1 with mbx := none, mbxValid := true }
/-- CHUNK rises: the data window waits for the host. -/
def State.mbxReady (s : State) (m : MbxOp) : State :=
  s.withLine 2 ({ s with mbx := some { m with since := s.rclk } }.setBit MBX_STAT 29 true)
/-- The next outbound chunk of ROM_READ in the window, with LEN and LAST. -/
def State.romChunk (s : State) (m : MbxOp) (level : Nat) : State :=
  let size := romImage level
  let at' := 2048 * m.sent
  let n := min 2048 (size - at')
  let s1 := (List.range 512).foldl (fun s k =>
    if 4 * k < n then s.setReg (MBX_DATA (4 * k)) (ofBytes ((List.range 4).map (fun j => romByteAt level (at' + 4 * k + j)))) else s) s
  ((s1.setBit MBX_CHUNK 30 (decide (size ≤ at' + 2048))).setFld MBX_CHUNK 11 0 n).mbxReady m

/-! ## What each operation does -/

/-- The rind's delay tables written from an image (R539): steps X1 on, entries of F2 on. -/
def State.applyDelays (s : State) (f : FwImage) : State :=
  let s1 := ((List.range 19).zip f.exits).foldl (fun s p => s.setReg (PM_EXIT_TBL (p.1 + 1)) p.2.toNat) s
  ((List.range 5).zip f.entries).foldl (fun s p => s.setReg (PM_ENTRY_TBL p.1) p.2.toNat) s1
/-- Bytes that an image brings into HBM. -/
def State.bring (s : State) (data : List (BitVec 36 × List Byte)) : State :=
  data.foldl (fun s d => s.hbmWrite d.1.toNat d.2) s
/-- Does a golden copy, or its second copy `second` × 256 B above, touch the spare region (R370, R391; the codes that refuse it are
DEDUCED, log entry 37)? -/
def spareTouched (g : Golden) (second : Nat) : Bool := decide (hbmSpare < g.hbm.toNat + g.count * 4096 + second * 256)
/-- `second` of the loaded schedule of an identifier (R391). -/
def State.secondOf (s : State) (id : BitVec 64) : Nat := (s.scheds.find? (fun x => x.ident == id)).elim 0 (fun x => x.second)
/-- Does a firmware image keep what R574 asks of it, for the loaded schedules? -/
def State.fwFits (s : State) (f : FwImage) : Bool :=
  f.compat && f.golden.all (fun m => !spareTouched m.2 (s.secondOf m.1))
/-- FW_LOAD: a verified image is the base image; the wait of bring-up ends, and after READY the delay tables change at once. -/
def State.endFwLoad (s : State) (f : Option FwImage) : State × Nat :=
  let wait := s.fld BOOT_STAT 31 28 == 2
  match f with
  | some f =>
    if f.signed then
      (let s1 := { s.bring f.data with image := some f }.setFld FW_VER 15 0 f.version.toNat
       (if wait then s1.setFld BOOT_STAT 31 28 3 else if s.fld BOOT_STAT 31 28 = 7 then s1.applyDelays f else s1, 0))
    else (if wait then s.setFld BOOT_STAT 23 16 3 else s, FW_SIG)
  | none => (if wait then s.setFld BOOT_STAT 23 16 3 else s, FW_SIG)
/-- The second copies of an image's golden ranges, written from the first (R391, R574). -/
def State.writeTwice (s : State) (f : FwImage) : State :=
  f.golden.foldl (fun s m => s.hbmWrite (m.2.hbm.toNat + s.secondOf m.1 * 256) (s.hbmBytes m.2.hbm.toNat (m.2.count * 4096))) s
/-- FW_STAGE (R574): the golden copies go twice into the staging slot. -/
def State.endFwStage (s : State) (f : Option FwImage) : State × Nat :=
  match f with
  | some f =>
    if !f.signed then (s, FW_SIG)
    else if !s.fwFits f then (s, FW_INCOMPAT)
    else (({ (s.bring f.data).writeTwice f with staged := some f }.setBit FW_STAT 31 true).setFld FW_VER 31 16 f.version.toNat, 0)
  | none => (s, FW_SIG)
/-- FW_PROMOTE (R575): the staged image is the base, and its delay tables take effect. -/
def State.fwPromote (s : State) : State × Nat :=
  match s.rbit FW_STAT 31, s.staged with
  | true, some f =>
    if (List.range 16).all (fun g => !s.gathEn g || s.rbit FW_SEL g) then
      (({ s with image := some f }.setFld FW_VER 15 0 f.version.toNat).applyDelays f, 0)
    else (s, FW_SEL_PARTIAL)
  | _, _ => (s, FW_NOT_STAGED)
/-- The shared tags that a schedule names. -/
def schedTags (x : Sched) : List Nat := x.gaths.flatMap (fun g => g.seq.map (fun c => c.stag.toNat))
/-- The landing zones that a schedule names, with the feature that each belongs to (R604). -/
def schedZones (x : Sched) : List (Nat × Nat) :=
  x.gaths.flatMap (fun g => g.classes.map (fun k => (k.zone.toNat, 0x10 + k.cls.val))) ++ x.rings.map (fun r => (r.zone.toNat, 0x20))
/-- Why a schedule cannot be loaded (R41, R408, R606, R609); 0 where it can. An identifier that is loaded comes first. -/
def State.schedCode (s : State) (x : Sched) : Nat :=
  let regs := x.regions.map (fun r => (r.1.toNat, r.2))
  if s.scheds.any (fun y => y.ident == x.ident) then MBX_STATE
  else if x.caps.toNat ≠ capsLo + capsHi * 2 ^ 32 then SCHED_CAPS_MISMATCH
  else if (schedTags x).any (fun t => s.scheds.any (fun y => (schedTags y).contains t)) then SCHED_TAG
  else if !x.fits || x.golden.any (fun g => spareTouched g x.second) || regs.any (fun r => s.regions.any (fun q => meet r.1 r.2 q.1 q.2) || meet r.1 r.2 s.wheelBase wheelSpan
      || meet r.1 r.2 s.mirrorBase mirrorSpan) then SCHED_SPACE
  else if (schedZones x).any (fun z => s.zoneRecs.any (fun r => r.2 == z.1 && s.ownerOf (0x40 + r.1) != z.2 && s.ownerOf (0x40 + r.1) != 0)) then
    SCHED_CONFLICT
  else 0
/-- The rings of a schedule with full credits (R348, R384). -/
def State.fillRings (s : State) (x : Sched) : State :=
  let s1 := x.rings.foldl (fun s r => s.setCredit (ringKey r.zone.toNat r.num.toNat) r.size) s
  x.remoteRings.foldl (fun s r => s.setCredit (remoteKey r.seat.toNat r.zone.toNat r.num.toNat) r.size) s1
/-- SCHED_LOAD: the images placed in their folios, the rings filled, the identifier returned. -/
def State.endSchedLoad (s : State) (x : Option Sched) : State × Nat :=
  match x with
  | none => (s, SCHED_CAPS_MISMATCH)
  | some x =>
    let code := s.schedCode x
    if code ≠ 0 then (s, code)
    else
      let s1 := { s.bring x.data with scheds := s.scheds ++ [x] }.fillRings x
      let s2 := x.images.foldl (fun s m => if s.vacant m.folio.val then s else s.loadFolio (s.phys m.folio.val) m.folio.val) s1
      ((s2.setReg (MBX_RES 0) (x.ident.toNat % 2 ^ 32)).setReg (MBX_RES 1) (x.ident.toNat / 2 ^ 32), 0)
/-- SCHED_UNLOAD. -/
def State.schedUnload (s : State) : State × Nat :=
  let id := s.mbxArg 0 + s.mbxArg 1 * 2 ^ 32
  if s.scheds.all (fun x => x.ident.toNat != id) then (s, MBX_BAD_ARG)
  else if s.strIdx.any (fun i => (s.str i).st != .free && (s.str i).sched == id) then (s, SCHED_BUSY)
  else ({ s with scheds := s.scheds.filter (fun x => x.ident.toNat != id) }, 0)
/-- KEY_LOAD (R318): the key lowest word first, its generation, the export counter at 0. -/
def State.keyLoad (s : State) : State × Nat :=
  let slot := s.mbxArg 8
  if 7 < slot then (s, KEY_SLOT)
  else
    let key := (List.range 8).foldl (fun v i => v + s.mbxArg i * 2 ^ (32 * i)) 0
    (s.setKey slot (some ⟨BitVec.ofNat 256 key, BitVec.ofNat 32 (s.mbxArg 9), 0⟩), 0)
/-- KEY_CLEAR. -/
def State.keyClear (s : State) : State × Nat :=
  if 7 < s.mbxArg 8 then (s, KEY_SLOT) else (s.setKey (s.mbxArg 8) none, 0)
/-- BULK_EXPORT (R324): each PAUSED stream of the class, in the order of the table; RES1 holds the first handle that failed. -/
def State.bulkExport (s : State) (cls slot : Nat) : State :=
  let r : State × Nat × Nat := s.strIdx.foldl (fun (r : State × Nat × Nat) i =>
    if (r.1.str i).st = .paused ∧ (r.1.str i).cls = cls ∧ (r.1.str i).cmd = none then
      (if r.1.keyCode slot = 0 then (r.1.exportNow i slot, r.2.1 + 1, r.2.2)
       else (r.1, r.2.1, if r.2.2 = 0 then r.1.handle i else r.2.2))
    else r) (s, 0, 0)
  (((r.1.setFld MBX_STAT 15 0 r.2.1).setReg (MBX_RES 0) r.2.1).setReg (MBX_RES 1) r.2.2)
/-- The mask of SELF_TEST; may its folios be tested: in F4 and outside every enabled gathering? -/
def testMask (a0 a1 : Nat) : Nat := a0 + bits a1 17 0 * 2 ^ 32
def State.testOk (s : State) (m : Nat) : Bool :=
  (List.range 50).all (fun n => !bit m n || (s.folioState n == 4 && (s.gathOfPhys n).isNone))
/-- FOLIO_RETIRE: why it is refused; 0 where it may run. -/
def State.retireCode (s : State) (n : Nat) : Nat :=
  if 50 ≤ n then MBX_BAD_ARG else if s.retired n then MBX_BAD_ARG else if s.freeSpare.isNone then MBX_NO_SPARE else 0

/-! ## Commands (R607, R609) -/

/-- An operation taken: it runs from here on. -/
def State.mbxRun (s : State) (p : Port) (op : Nat) (fw : Option FwImage) (sched : Option Sched) : State × MbxOp :=
  let m : MbxOp := ⟨op, p, false, fw, sched, 0, s.rclk, s.mbxArg 0, s.mbxArg 1⟩
  ({ s with mbx := some m }.setBit MBX_STAT 31 true, m)
/-- An operation that ends in its own step. -/
def mbxDone (r : State × Nat) : State := r.1.mbxEnd r.2
/-- The operations, by OP; those before READY beside FW_LOAD end with MBX_STATE (R632; the code is a DESIGN CHOICE, log entry 48). -/
def State.mbxStart (s : State) (p : Port) (op : Nat) (fw : Option FwImage) (sched : Option Sched) : State :=
  let r := s.mbxRun p op fw sched
  if op = 0 ∨ 0x0D < op ∨ (s.level < 2 ∧ 6 ≤ op ∧ op ≤ 8) then s.mbxEnd MBX_OP
  else if op ≠ 1 ∧ s.fld BOOT_STAT 31 28 ≠ 7 then s.mbxEnd MBX_STATE
  else match op with
    | 1 => if s.scheds ≠ [] then s.mbxEnd MBX_STATE else r.1.mbxReady r.2
    | 2 => if s.reg FW_SEL ≠ 0 then s.mbxEnd MBX_STATE else r.1.mbxReady r.2
    | 3 => mbxDone s.fwPromote
    | 4 => r.1.mbxReady r.2
    | 5 => mbxDone s.schedUnload
    | 6 => mbxDone s.keyLoad
    | 7 => mbxDone s.keyClear
    | 8 => if s.keyCode (s.mbxArg 1) = 8 then s.mbxEnd KEY_SLOT else r.1.bulkExport (s.mbxArg 0) (s.mbxArg 1)
    | 9 =>
      if s.mbxArg 0 = 1 ∨ s.mbxArg 0 = 2 then
        (r.1.setReg (MBX_RES 0) (romImage (s.mbxArg 0))).romChunk r.2 (s.mbxArg 0)
      else s.mbxEnd MBX_BAD_ARG
    | 0x0A => r.1
    | 0x0B => if s.testOk (testMask (s.mbxArg 0) (s.mbxArg 1)) then r.1 else s.mbxEnd SELF_TEST_BUSY
    | 0x0C => if s.retireCode (s.mbxArg 0) = 0 then r.1.retire (s.mbxArg 0) else s.mbxEnd (s.retireCode (s.mbxArg 0))
    | _ =>
      let k := s.mbxArg 0
      let q := s.mbxArg 1
      if 4 ≤ k ∨ 32 ≤ q ∨ s.pcState k q ≠ 0 then s.mbxEnd MBX_BAD_ARG
      else if s.rbit HBM_STAT (4 + k) then s.mbxEnd MBX_SPARE_SPENT
      else r.1.retirePc k q false
/-- A write of MBX_CMD: refused while BUSY. -/
def State.mbxCmd (s : State) (p : Port) (op : Nat) (fw : Option FwImage) (sched : Option Sched) : State :=
  if s.rbit MBX_STAT 31 then s.setBit MBX_STAT 30 true
  else ({ s with mbxValid := false }.setFld MBX_STAT 15 0 0).mbxStart p op fw sched
def State.wrMbxCmd (s : State) (p : Port) (op : Nat) (fw : Option FwImage) (sched : Option Sched) : State :=
  s.hostWrite p MBX_CMD (op * 2 ^ 24) (fun t => t.mbxCmd p op fw sched)

def execFwLoad (p : Port) (img : FwImage) (s : State) : Res := .next (s.wrMbxCmd p 1 (some img) none)
def execFwStage (p : Port) (img : FwImage) (s : State) : Res := .next (s.wrMbxCmd p 2 (some img) none)
def execFwPromote (p : Port) (s : State) : Res := .next (s.wrMbxCmd p 3 none none)
def execSchedLoad (p : Port) (img : Sched) (s : State) : Res := .next (s.wrMbxCmd p 4 none (some img))
def execSchedUnload (p : Port) (s : State) : Res := .next (s.wrMbxCmd p 5 none none)
def execKeyLoad (p : Port) (s : State) : Res := .next (s.wrMbxCmd p 6 none none)
def execKeyClear (p : Port) (s : State) : Res := .next (s.wrMbxCmd p 7 none none)
def execBulkExport (p : Port) (s : State) : Res := .next (s.wrMbxCmd p 8 none none)
def execRomRead (p : Port) (s : State) : Res := .next (s.wrMbxCmd p 9 none none)
def execScrubAll (p : Port) (s : State) : Res := .next (s.wrMbxCmd p 0x0A none none)
def execSelfTest (p : Port) (s : State) : Res := .next (s.wrMbxCmd p 0x0B none none)
def execFolioRetire (p : Port) (s : State) : Res := .next (s.wrMbxCmd p 0x0C none none)
def execPcRetire (p : Port) (s : State) : Res := .next (s.wrMbxCmd p 0x0D none none)
/-- MBX_OP: a command whose OP is reserved or hidden; an OP that names an operation runs it. -/
def execMbxOp (p : Port) (op : BitVec 8) (s : State) : Res := .next (s.wrMbxCmd p op.toNat none none)

/-! ## Chunks, timeout, end -/

/-- Is an operation one that carries data in (FW_LOAD, FW_STAGE, SCHED_LOAD)? -/
def MbxOp.inbound (m : MbxOp) : Bool := m.op == 1 || m.op == 2 || m.op == 4
/-- MBX_CHUNK.GO: the window is handed over. -/
def State.mbxChunk (s : State) (w : Nat) : State :=
  match s.mbx with
  | none => s
  | some m =>
    if !bit w 31 || !s.rbit MBX_STAT 29 then s
    else
      let s1 := (s.setBit MBX_STAT 29 false).bump MBX_STAT 15 0 1
      let m1 := { m with sent := m.sent + 1 }
      if m.inbound then
        (if s.rbit MBX_CHUNK 30 then { s1 with mbx := some { m1 with lastChunk := true } } else s1.mbxReady m1)
      else if s.rbit MBX_CHUNK 30 then s1.mbxEnd 0
      else s1.romChunk m1 (m.a0)
def State.wrMbxChunk (s : State) (p : Port) (w : Nat) : State := s.hostWrite p MBX_CHUNK w (fun t => t.mbxChunk w)
def execMbxChunk (p : Port) (w : Word) (s : State) : Res := .next (s.wrMbxChunk p w.toNat)
/-- MBX_TIMEOUT: CHUNK has stayed 1 for 100 ms. -/
def execMbxTimeout (s : State) : Res :=
  match s.mbx with
  | none => notDue "no operation runs"
  | some m =>
    if !s.rbit MBX_STAT 29 then notDue "no chunk waits"
    else if s.rclk < m.since + 960000 then notDue "100 ms have not passed"
    else .next (s.mbxEnd MBX_LATE)
/-- MBX_OPERATION_END: a running operation ends; `found` is what a test or a scrub pass found. -/
def execMbxOperationEnd (found : BitVec 64) (s : State) : Res :=
  match s.mbx with
  | none => notDue "no operation runs"
  | some m =>
    if m.inbound ∧ !m.lastChunk then notDue "the last chunk has not come"
    else match m.op with
      | 1 => .next (mbxDone (s.endFwLoad m.fw))
      | 2 => .next (mbxDone (s.endFwStage m.fw))
      | 4 => .next (mbxDone (s.endSchedLoad m.sched))
      | 8 =>
        if s.strIdx.any (fun i => (s.str i).st == .exporting && (s.str i).cls == m.a0 && (s.str i).cmd.isNone) then
          notDue "an export still runs"
        else .next (s.mbxEnd (if s.reg (MBX_RES 1) = 0 then 0 else EXPORT_IV_SPENT))
      | 0x0A => .next ((s.setReg (MBX_RES 0) found.toNat).mbxEnd 0)
      | 0x0B =>
        let bad := found.toNat &&& (testMask m.a0 m.a1)
        let s1 := (List.range 50).foldl (fun s n => if bit (testMask m.a0 m.a1) n then s.loseMems n else s) s
        .next (((s1.setReg (MBX_RES 0) bad).setReg (MBX_RES 1) (bad / 2 ^ 32)).mbxEnd (if bad = 0 then 0 else SELF_TEST_FAIL))
      | 0x0C =>
        if (Sp.get (fun _ => none) s.substs (m.a0)).isSome then notDue "the substitution still runs" else .next (s.mbxEnd 0)
      | 0x0D => if s.pcState (m.a0) (m.a1) = 1 then notDue "the pseudo-channel still drains" else .next (s.mbxEnd 0)
      | _ => notDue "the operation ends with its last chunk"
/-- The operations that a reset of their port ends (R608). -/
def State.mbxOrphan (s : State) (p : Port) : State :=
  match s.mbx with
  | some m => if m.port = p ∧ (m.inbound ∨ m.op = 8 ∨ m.op = 9) then s.mbxEnd MBX_ORPHANED else s
  | none => s

end Sys2Proof.Machine
end

