-- ==== Sys2Proof/Machine/D2dPort.lean ====
section
/-! DEFINITION. The D2D port flit by flit, its retraining, the interface level, the seal, and the resets of the requester ports
(19_registers_and_transactions.md R589, R590, R600, 20_ports_and_electrical.md R612 to R620). -/

namespace Sys2Proof.Machine

/-! ## Flits that leave (R613 to R615) -/

/-- The state of the D2D port, D2D_STAT.STATE. -/
def State.d2dState (s : State) : Nat := s.fld D2D_STAT 31 29
/-- The fields of a flit without its trailer: KIND, FLAGS, FIDX, HANDLE, BID, LEN, payload padded to 296 bytes. -/
def d2dBody (kind flags fidx handle bid : Nat) (payload : List Byte) : List Byte :=
  toBytes 1 kind ++ toBytes 1 flags ++ toBytes 2 fidx ++ toBytes 4 handle ++ toBytes 2 bid ++ toBytes 2 payload.length ++ toBytes 4 0
    ++ payload ++ List.replicate (296 - payload.length) 0
/-- A flit sent with its trailer: SEQ, the last good flit received, a NAK that is due, the credits owed, and the CRC. -/
def State.d2dEmit (s : State) (seq : Nat) (body : List Byte) : State :=
  let cred := min s.d2dOwed 2047
  let hi := toBytes 4 (seq * 2 ^ 22 + (s.d2dRx + 1023) % 1024 * 2 ^ 12 + (if s.d2dNak then 2 ^ 11 else 0) + cred)
  { s with d2dOut := s.d2dOut ++ [body ++ toBytes 4 (crc32c (body ++ hi)) ++ hi], d2dOwed := s.d2dOwed - cred, d2dNak := false }
/-- Every flit that is not acknowledged, sent again in order (R614). -/
def State.d2dResendAll (s : State) : State := s.d2dRetry.foldl (fun s r => s.d2dEmit r.1 r.2) s
/-- The flit that the port sends in the fclk of one that arrives: the next flit of the oldest message that was handed over, while a
credit and a place in the retry buffer are held, else an idle flit. -/
def State.d2dSend (s : State) : State :=
  match s.outbox with
  | [] => s.d2dEmit s.d2dTx (d2dBody 0 0 0 0 0 [])
  | m :: rest =>
    if s.d2dCredits = 0 ∨ 512 ≤ s.d2dRetry.length then s.d2dEmit s.d2dTx (d2dBody 0 0 0 0 0 [])
    else
      let k := s.d2dPos
      let last := decide (m.length ≤ 296 * (k + 1))
      let f := fun (o n : Nat) => ofBytes ((m.drop o).take n)
      let body := d2dBody 2 (if last then 1 else 0) k (f 4 4) (f 0x0C 2) ((m.drop (296 * k)).take 296)
      let seq := s.d2dTx
      { s with
        outbox := if last then rest else m :: rest, d2dPos := if last then 0 else k + 1, d2dCredits := s.d2dCredits - 1,
        d2dTx := (s.d2dTx + 1) % 1024, d2dRetry := s.d2dRetry ++ [(seq, body)] }.d2dEmit seq body

/-! ## Flits that arrive (R613 to R615) -/

/-- A flit counted in D2D_CNT.BAD. -/
def State.d2dBad (s : State) : State := s.bump D2D_CNT 7 0 1
/-- The port starts to train again (R615). -/
def State.d2dTrain (s : State) : State := (s.setFld D2D_STAT 31 29 1).bump D2D_RETRAIN_CNT 15 0 1
/-- An attempt of the oldest unacknowledged flit has failed: counted, and every flit is sent again, or the port trains after the
16th failure (R614, R615). -/
def State.d2dFailed (s : State) : State :=
  let s1 := { s with d2dAttempts := s.d2dAttempts + 1 }.bump D2D_CNT 31 16 1
  if 15 ≤ s.d2dAttempts then s1.d2dTrain else s1.d2dResendAll
/-- The trailer of a good flit: acknowledgement, credits, and a NAK, which is a failed attempt and puts out again an own NAK that is
unanswered. -/
def State.d2dControl (s : State) (hi : Nat) : State :=
  let ack := bits hi 21 12
  let s1 := if s.d2dRetry.any (fun r => r.1 == ack) then
      { s with d2dRetry := (s.d2dRetry.dropWhile (fun r => r.1 != ack)).drop 1, d2dAttempts := 0 } else s
  let s2 := { s1 with d2dCredits := s1.d2dCredits + bits hi 10 0 }
  if bit hi 11 then { s2 with d2dNak := s2.d2dNak || s2.d2dLost }.d2dFailed else s2
/-- A flit taken in order: a burst flit passes to its burst while the receive buffer of 1,024 flits has room; one beyond the credits
is discarded and the port retrains; a reserved KIND or a bad LEN passes to no burst, and its place is free again at once. -/
def State.d2dTake (s : State) (f : List Byte) : State :=
  let n := fun (o k : Nat) => ofBytes ((f.drop o).take k)
  let s1 := { s with d2dRx := (s.d2dRx + 1) % 1024, d2dLost := false }
  let len := n 0x0A 2
  if n 0 1 ≠ 1 ∨ len = 0 ∨ 296 < len then { s1.d2dBad with d2dOwed := s1.d2dOwed + 1 }
  else if 1024 ≤ s1.burstIn.length then s1.d2dBad.d2dTrain
  else { s1 with burstIn := s1.burstIn ++ [⟨bit (n 1 1) 0, n 2 2, n 4 4, n 8 2, (f.drop 0x10).take len⟩] }
/-- A good flit by its SEQ: an idle flit carries only its trailer; the next one in order is taken; one seen before is dropped; one
ahead of its turn is discarded, and the first such flit before the resend arrives makes a NAK due that names the last good flit. -/
def State.d2dFrame (s : State) (hi : Nat) (f : List Byte) : State :=
  let seq := bits hi 31 22
  if ofBytes (f.take 1) = 0 then s
  else if seq = s.d2dRx then s.d2dTake f
  else if (s.d2dRx + 1024 - seq) % 1024 ≤ 512 then s
  else { s.d2dBad with d2dNak := s.d2dNak || !s.d2dLost, d2dLost := true }
/-- D2D_FLIT: the 320 bytes of a flit. -/
def execD2dFlit (bytes : List Byte) (s : State) : Res :=
  if s.d2dState ≠ 2 then notDue "the D2D port is not up"
  else
    let f := bytes.take 0x138
    let hi := (bytes.drop 0x13C).take 4
    if bytes.length ≠ 320 ∨ crc32c (f ++ hi) ≠ ofBytes ((bytes.drop 0x138).take 4) then
      .next { s.d2dBad with d2dNak := true, d2dLost := true }.d2dSend
    else
      let s1 := s.d2dControl (ofBytes hi)
      if s1.d2dState ≠ 2 then .next s1
      else
        let s2 := s1.d2dFrame (ofBytes hi) f
        .next (if s2.d2dState = 2 then s2.d2dSend else s2)
/-- D2D_RESEND: a flit has not been acknowledged within 2 µs. -/
def execD2dResend (s : State) : Res :=
  if s.d2dState ≠ 2 ∨ s.d2dRetry.isEmpty then notDue "no flit waits for its acknowledgement"
  else .next s.d2dFailed
/-- D2D_RETRAIN. -/
def execD2dRetrain (s : State) : Res :=
  if s.d2dState ≠ 2 then notDue "the D2D port is not up" else .next s.d2dTrain
/-- The modules that training brings up (R615): each one lost is logged, and each lane repaired; with none left the device withdraws. -/
def State.d2dModules (s : State) (up repaired : Nat) (lanes : List (Fin 4 × BitVec 7)) : State :=
  let now := s.fld D2D_STAT 3 0
  let left := now &&& up
  let s1 := (List.range 4).foldl (fun s m => if bit now m && !bit up m then s.log 0x39 (0xA8 + m) 0 0 else s) s
  let s2 := lanes.foldl (fun s l => s.log 0x38 (0xA8 + l.1.val) 7 l.2.toNat) s1
  let s3 := (s2.setFld D2D_STAT 3 0 left).setFld D2D_STAT 7 4 ((s.fld D2D_STAT 7 4 ||| repaired) &&& left)
  if left = 0 then (s3.setFld D2D_STAT 31 29 0).withdraw else s3.setFld D2D_STAT 31 29 2
/-- D2D_RETRAIN_COMPLETE: the flits in the retry buffer are sent again. -/
def execD2dRetrainComplete (up repaired : BitVec 4) (lanes : List (Fin 4 × BitVec 7)) (s : State) : Res :=
  if s.d2dState ≠ 1 then notDue "the D2D port does not train"
  else
    let s1 := { s with d2dAttempts := 0, d2dLost := false }.d2dModules up.toNat repaired.toNat lanes
    .next (if s1.d2dState = 2 then s1.d2dResendAll else s1)

/-! ## Interface level and seal (R589, R590) -/

/-- What a write of IFACE_LEVEL asks for. -/
def State.askLevel (s : State) (w : Nat) : State :=
  let req := bits w 3 0
  if req = 0 then s
  else if s.rbit IFACE_LEVEL 31 then s.setBit IFACE_LEVEL 30 true
  else { s with levelReq := some (min req 2) }.setBit IFACE_LEVEL 31 true
def State.wrLevel (s : State) (p : Port) (w : Nat) : State := s.hostWrite p IFACE_LEVEL w (fun t => t.askLevel w)
def execIfaceLevel (p : Port) (w : Word) (s : State) : Res := .next (s.wrLevel p w.toNat)
/-- Does a word belong to level 2: itself, or with its page (R8)? -/
def level2 (a : Nat) : Bool := decide (2 ≤ (regSpec a).lvl) || (pageInfo (a / 4096)).any (fun x => decide (2 ≤ x.2))
/-- Every level-2 field at its reset value (R590). -/
def State.dropLevel2 (s : State) : State :=
  let s1 := { s with regs := s.regs.filter (fun x => !level2 x.1), keys := [], staged := none }
  (List.range 50).foldl (fun s n =>
    (s.setFld (FOLIO_NFLAGS n) 23 20 0).setFld (FOLIO_NFLAG_IE n) 23 20 0) s1
/-- IFACE_LEVEL_DECISION: every stream FREE, no schedule, no transaction open or committing, the mailbox idle. -/
def execIfaceLevelDecision (s : State) : Res :=
  match s.levelReq with
  | none => notDue "no level request waits"
  | some l =>
    let s1 := { s with levelReq := none }.setBit IFACE_LEVEL 31 false
    if l = s.level then .next s1
    else if s.strIdx.all (fun i => (s.str i).st == .free) && s.scheds.isEmpty && (List.range 4).all (fun k => !(s.txn k).live)
        && s.mbx.isNone then
      .next ((if l < s.level then s1.dropLevel2 else s1).setFld IFACE_LEVEL 7 4 l)
    else .next (s1.setBit IFACE_LEVEL 30 true)
/-- DEV_SEAL: SEAL is set by a 1 and only a reset by PORST_N clears it; DBG_EN follows the seal in force before the write. -/
def State.wrSeal (s : State) (p : Port) (w : Nat) : State :=
  s.hostWrite p DEV_SEAL w (fun t => if bit w 0 then t.setBit DEV_SEAL 0 true else t)
def execDevSeal (p : Port) (w : Word) (s : State) : Res := .next (s.wrSeal p w.toNat)

/-! ## Resets of the ports (R600, R608, R620) -/

/-- The live transactions of a port that a reset names are orphaned. -/
def State.portReset (s : State) (p : Port) (named : Nat → Bool) : State :=
  (List.range 4).foldl (fun s k =>
    if (s.txn k).live && (s.txn k).port == portCode p && named (s.txn k).tag then s.orphan k else s) s
/-- RESET_REQ: a tag, or every tag of the sideband port, which then ends its mailbox operation. -/
def execResetReq (tag : BitVec 16) (s : State) : Res :=
  if tag.toNat = 0xFFFF then .next ((s.portReset .d2d (fun _ => true)).mbxOrphan .d2d)
  else .next (s.portReset .d2d (fun t => t == tag.toNat))
/-- I3C_TARGET_RESET. -/
def execI3cTargetReset (s : State) : Res := .next ((s.portReset .i3c (fun _ => true)).mbxOrphan .i3c)
/-- I3C_TRANSFER_TIMEOUT (R620): the transfer is abandoned and SDA released; no register is touched. -/
def execI3cTransferTimeout (s : State) : Res := .next s
/-- TEST_LOGIC_RESET. -/
def execTestLogicReset (s : State) : Res := .next ((s.portReset .jtag (fun _ => true)).mbxOrphan .jtag)

end Sys2Proof.Machine
end

