-- ==== Sys2Proof/Machine/Seq.lean ====
section
/-! DEFINITION. What happens to a sequencer beside its bundles (13_sequencer.md R412 to R424, 18_faults_and_availability.md R553, R559):
interrupts, doorbells, debug halts, lockstep mismatches, and the counted bounds of engines and waits that are missed. -/

namespace Sys2Proof.Machine

/-! ## Interrupts (R415, R416) -/

/-- INTERRUPT_TAKEN: the running context is taken between two bundles, while one waits at issue, or inside a resumable instruction at
the boundary it has reached, unless a tile of it is due to run again (R92); `fclk` is the time since the raise. -/
def execInterruptTaken (n : Fin 50) (fclk : BitVec 9) (s : State) : Res :=
  match s.running n.val with
  | none => notDue "no context runs"
  | some c =>
    match s.raised n.val c with
    | none => notDue "no interrupt is raised"
    | some k =>
      if (s.ctx n.val c).due.isSome then notDue "a tile is due to run again (R92)"
      else .next ((s.irqMax n.val fclk.toNat).suspend n.val c k)

/-! ## SEQ_CTXc (R413, R422, R424) -/

/-- DOOR: a doorbell entry; a full queue keeps DOOR at 1 until a place frees. -/
def State.ring (s : State) (n c : Nat) : State :=
  if !s.ctxEn n c then s
  else if 16 ≤ (s.ctx n c).queue.length then s.setBit (SEQ_CTX n c) 30 true
  else s.place n c doorEntry
/-- HALT: in debug mode a context that runs or is suspended is left HALTED at its place, a running one at a point of R416, which is not
while a tile of it is due to run again (R92); ignored elsewhere. -/
def State.haltCtx (s : State) (n c : Nat) : State :=
  let x := s.ctx n c
  if s.mode n = 4 ∧ x.st = .running then (s.setCtx n c { x with halting := true }).haltDue n c
  else if s.mode n = 4 ∧ x.st = .suspended then (s.setCtx n c { x with st := .halted, wait := none }).select n
  else s
/-- GO: in debug mode a halted context continues at its bundle, or by RESUME inside the instruction it was halted in; elsewhere it
takes its next entry. -/
def State.goCtx (s : State) (n c : Nat) : State :=
  let x := s.ctx n c
  if x.st ≠ .halted then s
  else if s.mode n = 4 ∧ x.entry.isSome then
    (s.setCtx n c { x with st := .suspended, resume := s.ctxRecord n x, inside := none }).select n
  else s.endEntry n c
/-- The W1S bits of a write of SEQ_CTXc. -/
def State.seqCtxBits (s : State) (n c w : Nat) : State :=
  let s1 := if bit w 28 then s.goCtx n c else s
  let s2 := if bit w 29 then s1.haltCtx n c else s1
  if bit w 30 then s2.ring n c else s2
/-- A write of SEQ_CTXc; its EN field is TX (R594). -/
def State.wrSeqCtx (s : State) (p : Port) (n c w : Nat) : State := s.hostWrite p (SEQ_CTX n c) w (fun t => t.seqCtxBits n c w)
/-- EN as it stands, in its place in the word. -/
def State.enWord (s : State) (n c : Nat) : Nat := if s.ctxEn n c then 2 ^ 31 else 0

def execDoor (p : Port) (n : Fin 50) (c : Fin 4) (s : State) : Res :=
  .next (s.wrSeqCtx p n.val c.val (s.enWord n.val c.val + 2 ^ 30))
def execHalt (p : Port) (n : Fin 50) (c : Fin 4) (s : State) : Res :=
  .next (s.wrSeqCtx p n.val c.val (s.enWord n.val c.val + 2 ^ 29))
def execGo (p : Port) (n : Fin 50) (c : Fin 4) (s : State) : Res :=
  .next (s.wrSeqCtx p n.val c.val (s.enWord n.val c.val + 2 ^ 28))

/-! ## Lockstep (R423, R559) -/

/-- The shared tags to which a folio has handed a contribution fail with the work of every folio that gave one (R423). -/
def State.failShared (s : State) (n : Nat) (uncounted : Bool) : State :=
  let tags := (s.contrib n).map (fun x => x.stag)
  let g := s.gathOfPhys n
  let s1 := (List.range 50).foldl (fun s m =>
    if s.gathOfPhys m == g then
      (s.contrib m).foldl (fun s x => if tags.contains x.stag then s.failGiver m x uncounted else s) s
    else s) s
  s1.setContrib n []
/-- SEQ_LOCKSTEP: every step, folio tag and shared tag with work on the folio fails, resume records are discarded, and every
context starts again from its descriptor and its queue. -/
def execSeqLockstep (n : Fin 50) (s : State) : Res :=
  let m := n.val
  if s.retired m then notDue "the folio is isolated"
  else
    let trig := s.triggers m 0x18 0 2 false
    let tag := match s.running m with | some c => s.workTag m c | none => 0
    let s1 := (s.bump (SEQ_CNT m) 31 16 1).failShared m trig
    let s2 := [0, 1, 2, 3].foldl (fun s c =>
      let s1 := ((s.failWork m c trig).failTags m c).cancelEngines m (s.workTag m c)
      let x := s1.ctx m c
      let st := if !s1.ctxEn m c then .off else if x.queue ≠ [] then .ready else .idle
      s1.setCtx m c { x with st := st, entry := none, wait := none, rstack := [], resume := Resume.empty, inside := none, due := none,
                             halting := false }) s1
    let s3 := s2.log 0x18 m (if trig then 4 else 1) tag
    .next ((s3.select m).countEvent m 0x18 0 2 false)

/-! ## Counted bounds that are missed (R135, R152, R181, R184, R249, R338, R343, R412) -/

/-- A bound missed by the work of a context, reported with its code. -/
def boundMissed (n : Fin 50) (c : Fin 4) (code : Nat) (counts : Bool) (s : State) : Res :=
  if (s.ctx n.val c.val).entry.isNone then notDue "the context has no work" else .next (s.engineFault n.val c.val code counts)
/-- A wait at issue that passes its limit. -/
def waitMissed (n : Fin 50) (c : Fin 4) (ks : WaitK → Bool) (code : Nat) (s : State) : Res :=
  match (s.ctx n.val c.val).wait with
  | some w => if ks w then .next (s.engineFault n.val c.val code false) else notDue "the context waits for something else"
  | none => notDue "the context does not wait"

def execArrStallOver (n : Fin 50) (c : Fin 4) (s : State) : Res := boundMissed n c 0x20 true s
def execMvpStallOver (n : Fin 50) (c : Fin 4) (s : State) : Res := boundMissed n c 0x21 true s
def execScanStallOver (n : Fin 50) (c : Fin 4) (s : State) : Res := boundMissed n c 0x22 true s
def execVecStallOver (n : Fin 50) (c : Fin 4) (s : State) : Res := boundMissed n c 0x23 true s
def execMemGrantLate (n : Fin 50) (c : Fin 4) (s : State) : Res := boundMissed n c 0x24 false s
def execVatGrantLate (n : Fin 50) (c : Fin 4) (s : State) : Res := boundMissed n c 0x25 false s
/-- LZ_CREDIT_LATE: WLIM 0 sets no limit (R412). -/
def execLzCreditLate (n : Fin 50) (c : Fin 4) (s : State) : Res :=
  if s.dWlim n.val c.val = 0 then notDue "the context's waits have no limit" else waitMissed n c (fun w => w == .credit) 0x26 s
/-- SEQ_WAIT_LATE: a TWAIT by its own limit, an MVLD by WLIM; LIM 0 and WLIM 0 set no limit (R412). -/
def execSeqWaitLate (n : Fin 50) (c : Fin 4) (s : State) : Res :=
  waitMissed n c (fun w => w == .tag || (w == .latch && s.dWlim n.val c.val != 0)) 0x27 s
def execScanCarryLate (n : Fin 50) (c : Fin 4) (s : State) : Res := waitMissed n c (fun w => match w with | .inbox _ => true | _ => false) 0x28 s

/-! ## The progress watchdog (R553, R559, R565) -/

/-- ENG_HANG: an engine's hang retires its folio; a mover's withdraws the device. -/
def execEngHang (u : HangUnit) (s : State) : Res :=
  match u with
  | .engine n c =>
    if (s.ctx n.val c.val).entry.isNone ∧ ¬ s.engHolds n.val (s.workTag n.val c.val) then notDue "the engines hold no work of the context"
    else
      let act := if s.retired n.val then 0 else 4
      .next (((s.failWork n.val c.val true).log 0x2E n.val act (s.workTag n.val c.val)).countEvent n.val 0x2E 0 1 false)
  | .mover q =>
    match s.mover q.val with
    | [] => notDue "the mover holds no work"
    | m :: ms =>
      let s1 := (m :: ms).foldl (fun s x => s.failTagWork x.tag x.folio true) s
      .next ((s1.log 0x2E (0x42 + q.val) 9 m.tag).withdraw)

end Sys2Proof.Machine
end

