-- ==== Sys2Proof/Machine/Registers.lean ====
section
/-! DEFINITION. The register window as a whole: what a write of any address does, how every register reads, the writes that wait for a
domain, and the commands that reach the window by address (19_registers_and_transactions.md R580 to R587, R594, R602,
20_ports_and_electrical.md R616, R625, 13_sequencer.md R424, R425). -/

namespace Sys2Proof.Machine

/-! ## Writes -/

/-- Registers whose VALID bit clears more than itself (R362, R363, R393, R424). -/
def State.validClr (s : State) (a w : Nat) : State :=
  if !bit w 31 then s
  else if isFolioPage (a / 4096) 1 ∧ a % 4096 = 0x050 ∨ isFolioPage (a / 4096) 0 ∧ a % 4096 = 0x0D0 ∨ a = VAT_PERR then s.setReg a 0
  else if 0x151 ≤ a / 4096 ∧ a / 4096 ≤ 0x154 ∧ a % 4096 = 0x054 then (s.setReg a 0).setReg (a - 4) 0
  else s
/-- What the fields of a word that act do when it is written, beside its RW, TX and W1C bits. -/
def regEff (p : Port) (a w : Nat) (s : State) : State :=
  let pn := a / 4096
  let o := a % 4096
  if a = IFACE_LEVEL then s.askLevel w
  else if a = DEV_SEAL then (if bit w 0 then s.setBit DEV_SEAL 0 true else s)
  else if a = TXN_BEGIN then s.txnBegin p w
  else if a = TXN_SEL then s.txnSel p w
  else if a = TXN_COMMIT then s.txnCommit p w
  else if a = TXN_ROLLBACK then s.txnRollback p w
  else if a = MBX_CMD then s.mbxCmd p (bits w 31 24) none none
  else if a = MBX_CHUNK then s.mbxChunk w
  else if pn = 0x002 ∧ 0x080 ≤ o ∧ o < 0x0B0 then s.setReg a w
  else if a = PM_VOTE_HOST then s.applyVotes PM_VOTE_HOST 1 1
  else if a = PM_WAKE_CAUSE then s.releaseWake
  else if a = PM_REFUSE_LOG then s.refuseClr w
  else if a = pg 0x006 0x084 then s.thermClr w
  else if a = FLT_STAT then s.fltStat w
  else if a = pg 0x008 0x054 then s.fltInject w
  else if a = STRM_CMD then s.strmCmd (bits w 31 28)
  else if a = pg 0x1A4 0x044 then s.viewClr w
  else if a = CH_CMD then s.startForm w
  else if isFolioPage pn 1 ∧ 0x040 ≤ o ∧ o < 0x050 then s.seqCtxBits ((pn - 0x041) / 4) ((o - 0x040) / 4) w
  else if isFolioPage pn 3 ∧ o = 0x080 then s.arrDbgSel ((pn - 0x043) / 4) w
  else (s.clrEff a w).validClr a w
/-- A write of one register word. -/
def State.writeWord (s : State) (p : Port) (a w : Nat) : State :=
  if a = PM_VOTE_DBG then s.wrVoteDbg p w
  else if a = TXN_LEASE then s.wrLease p w
  else s.hostWrite p a w (regEff p a w)
/-- An access of a width or alignment that R580 does not allow: the error bit of the page, where it is present. -/
def State.badAccess (s : State) (p : Port) (a : Nat) : State :=
  if p = .jtag ∧ !s.rbit DEV_SEAL 1 then s
  else if s.pageShown (a / 4096) then (s.touch p).pageErr (a / 4096) 31 else s.touch p
/-- A write access of a port: 32 bits, or 64 bits that cover two registers, the lower one first. A sideband access outside the
window is dropped and counted (R616). -/
def State.access (s : State) (p : Port) (a width data : Nat) : State :=
  if 0x200000 ≤ a then (if p = .d2d then s.bump D2D_CNT 15 8 1 else s)
  else if width = 32 ∧ a % 4 = 0 then s.writeWord p a (data % 2 ^ 32)
  else if width = 64 ∧ a % 8 = 0 then (s.writeWord p a (data % 2 ^ 32)).writeWord p (a + 4) (data / 2 ^ 32 % 2 ^ 32)
  else s.badAccess p a
/-- The port of a code of TXN_SLOTk.PORT. -/
def portOf : Nat → Port
  | 0 => .d2d | 1 => .i3c | _ => .jtag
/-- The writes held for the pages of a domain take effect after its exit, in their order (R583). -/
def State.release (s : State) (mine : Nat → Bool) : State :=
  let now := s.heldWrites.filter (fun h => mine (h.2.1 / 4096))
  let s1 := { s with heldWrites := s.heldWrites.filter (fun h => !mine (h.2.1 / 4096)) }
  now.foldl (fun s h => s.withLine (h.2.1 / 4096) (regEff (portOf h.1) h.2.1 h.2.2 (s.writeClear h.2.1 h.2.2))) s1

/-- REGISTER_WRITE. -/
def execRegisterWrite (p : Port) (addr : BitVec 32) (width : BitVec 8) (data : BitVec 64) (s : State) : Res :=
  .next (s.access p addr.toNat width.toNat data.toNat)
/-- TXN_STAGE (R594). -/
def execTxnStage (p : Port) (addr : BitVec 21) (w : Word) (s : State) : Res := .next (s.access p addr.toNat 32 w.toNat)

/-! ## Reads -/

/-- SEQ_CTXc as it reads (R424). -/
def State.ctxWord (s : State) (n c : Nat) : Nat :=
  let x := s.ctx n c
  (s.reg (SEQ_CTX n c) &&& (2 ^ 31 + 2 ^ 30)) + x.st.code * 2 ^ 21 + min x.queue.length 16 * 2 ^ 13 + x.pc.toNat
/-- The debug page of a folio (R425): resume records and s0 to s31 of a context that is halted or suspended, in debug mode. The
layout of POS is open; its words are none. -/
def State.dbgWord (s : State) (n o : Nat) : Option Nat :=
  let c := if o < 0x200 then (o - 0x100) / 64 else (o - 0x200) / 128
  let x := s.ctx n c
  if s.mode n ≠ 4 ∨ (x.st ≠ .halted ∧ x.st ≠ .suspended) then some 0
  else if 0x200 ≤ o then some (s.sr n c ((o - 0x200) % 128 / 4))
  else
    let k := (o - 0x100) % 64
    if k < 16 then some (bits x.resume.bundle.toNat (8 * k + 31) (8 * k))
    else if k = 16 then some (x.resume.pc.toNat + x.resume.kind.toNat * 2 ^ 16 + (if x.resume.valid then 2 ^ 24 else 0))
    else if x.resume.valid then none else some 0
/-- MOVER_STAT as it reads (R394). -/
def State.moverStat (s : State) (q : Nat) : Nat := min (s.drive.creditsHeld q) 256 * 256 + ((List.range 5).map (fun j => (s.drive.queuedMoves (5 * q + j)).length)).sum
/-- RIND_TMRk.COUNT (R549): the rclk left on the hoop watchdog's timer and on the wake planner's; the spec does not say what the
fixed features' and firmware's timers hold, so theirs is free. -/
def State.timerCount (s : State) (k : Nat) : Nat :=
  let f := s.fld (OWN_TMR k) 7 0
  if f = 0 then 0
  else if f = 4 then (if s.hoop.standing then 0 else min (s.hoop.ends - s.rclk) (2 ^ 28 - 1))
  else if f = 5 then (if s.planArmed && (List.range k).all (fun j => s.fld (OWN_TMR j) 7 0 != 5) then s.planLeft else 0)
  else (Config.freeValue s.fresh).toNat % 2 ^ 28
/-- The value of a word as a port reads it (R581, R582); none where it is open. -/
def State.readWord (s : State) (p : Port) (a : Nat) : Option Nat :=
  let pn := a / 4096
  let o := a % 4096
  if !s.pageShown pn ∨ s.level < (regSpec a).lvl then some 0
  else if o = 0x020 then some (s.intStatus pn)
  else if o = 0x028 then some (s.pageTag pn)
  else if pn = 0x000 ∧ 0x100 ≤ o ∧ o < 0x140 then
    some ((List.range 32).foldl (fun v j => if s.line ((o - 0x100) / 4 * 32 + j) then v + 2 ^ j else v) 0)
  else if a = pg 0x001 0x044 then some (Sp.get (fun _ => 0) s.portRegs (2 * portCode p)).toNat
  else if a = TXN_SEL then some (s.selTag p)
  else if pn = 0x001 ∧ 0x080 ≤ o ∧ o < 0x0C0 then some ((s.slotWords ((o - 0x080) / 16)).getD (o % 16 / 4) 0)
  else if isFolioPage pn 1 ∧ 0x040 ≤ o ∧ o < 0x050 then some (s.ctxWord ((pn - 0x041) / 4) ((o - 0x040) / 4))
  else if isFolioPage pn 3 ∧ 0x100 ≤ o ∧ o < 0x400 then s.dbgWord ((pn - 0x043) / 4) o
  else if 0x160 ≤ pn ∧ pn ≤ 0x169 ∧ o = 0x040 then some (s.moverStat (pn - 0x160))
  else if pn = 0x190 ∧ 0x040 ≤ o ∧ o < 0x080 then some (s.planeStat ((o - 0x040) / 4))
  else if pn = 0x007 ∧ 0x040 ≤ o ∧ o < 0x060 then some (s.reg a &&& 0xF0000000 ||| s.timerCount ((o - 0x040) / 4))
  else if a = STRM_DONE_LO then some s.doneView.1
  else if a = STRM_DONE_HI then some s.doneView.2
  else if pn = 0x1A4 ∧ 0x080 ≤ o ∧ o < 0x0A0 then some (ofBytes ((s.view.drop (o - 0x080)).take 4))
  else some (s.reg a &&& ((s.spec a).ro ||| (s.spec a).rw ||| (s.spec a).tx ||| (s.spec a).w1c ||| (s.spec a).w1s))
/-- A read of one word through JTAG: STRM_DONE_HI removes a record, and an open value is free. -/
def State.jtagRead (s : State) (a : Nat) : State :=
  let s0 := s.touch .jtag
  match s0.readWord .jtag a with
  | some v =>
    let s1 := { s0 with jtagData := BitVec.ofNat 64 v }
    if a = STRM_DONE_HI ∧ s.pageOn (a / 4096) then s1.popDone else if a / 4096 = 0x007 then { s1 with fresh := s.fresh + 1 } else s1
  | none => { s0 with jtagData := BitVec.ofNat 64 ((Config.freeValue s.fresh).toNat % 2 ^ 32), fresh := s.fresh + 1 }
/-- WINDOW (R625): refused while DBG_EN is 0; an access of 32 bits (DESIGN CHOICE, log entry 49). -/
def execWindow (w : BitVec 97) (s : State) : Res :=
  let a := bits w.toNat 95 64
  if !s.rbit DEV_SEAL 1 then .next { s with jtagData := BitVec.allOnes 64 }
  else if bit w.toNat 96 then .next (s.access .jtag a 32 (bits w.toNat 31 0))
  else if 0x200000 ≤ a then .next { s with jtagData := 0 }
  else if a % 4 ≠ 0 then .next { s.badAccess .jtag a with jtagData := 0 }
  else .next (s.jtagRead a)

end Sys2Proof.Machine
end

