-- ==== Sys2Proof/Machine/PowerSeq.lean ====
section
/-! DEFINITION. The steps of an exit, what each restores, the spare of a retired folio, and wake steps that fail
(17_power_and_clocks.md R528, R529, R537 to R543, 11_on_die_memory.md R360, 18_faults_and_availability.md R560,
19_registers_and_transactions.md R583). -/

namespace Sys2Proof.Machine

/-! ## Exits that are due (R528, R529, R534) -/

/-- The wake causes that hold a sleeping folio's votes (R549): a host vote, else the stream scheduler's. -/
def State.gathCauses (s : State) (n : Nat) : Nat :=
  match s.logical n with
  | none => 0
  | some k =>
    let gs := (List.range 16).filter (fun g => bit (s.gmask g) k)
    (if gs.any (fun g => s.rbit PM_VOTE_HOST g || s.rbit PM_VOTE_DBG g) then 1 else 0) + (if gs.any s.schedVote then 2 else 0)
/-- Does a stream command wait for the fabric (R529)? -/
def State.cmdHeld (s : State) : Bool := s.heldWrites.any (fun h => h.2.1 == STRM_CMD)
/-- The causes of an exit that is due for a sleeping domain that has none in progress; none where none is due. A spare wakes for its
substitution (R560). -/
def State.dueExit (s : State) (d : Nat) : Option Nat :=
  if (s.seqOf d).isSome then none
  else if d = 0x40 then
    (if s.devState ≠ 1 ∧ s.devState ≠ 2 then none
     else if s.devVoted ∨ s.cmdHeld then
       some ((if s.rbit PM_VOTE_HOST 31 || s.rbit PM_VOTE_DBG 31 || s.cmdHeld then 1 else 0) + (if s.schedDev then 2 else 0))
     else if s.devChoice < s.devState then some 0 else none)
  else if d < 50 then
    (if s.devState ≠ 0 ∨ s.folioState d < 2 ∨ 4 < s.folioState d ∨ (s.indexOf d).isNone ∨ s.retired d then none
     else if (s.logical d).isNone then some 0
     else if s.folioVoted d then some (s.gathCauses d)
     else if s.folioChoice d < s.folioState d then some 0 else none)
  else none

/-! ## What a step of an exit does -/

/-- The golden reload of segment j of folio n (X9). -/
def State.reloadSeg (s : State) (n j : Nat) : State :=
  match s.logical n with
  | none => s
  | some k =>
    (List.range 16).foldl (fun s b =>
      let blk := 16 * j + b
      match (s.goldens k).find? (fun g => decide (g.block.toNat ≤ blk) && decide (blk < g.block.toNat + g.count)) with
      | some g => s.put 0 (n * 2 ^ 20 + blk * 4096) (s.hbmBytes (g.hbm.toNat + (blk - g.block.toNat) * 4096) 4096)
      | none => s) s
/-- The golden buffers of the vat filled from HBM, and the wheels of resident streams (X19). -/
def State.reloadVat (s : State) : State :=
  let s1 := ((List.range 1024).filter (fun h => s.rbit (SIG h 3) 31 && s.sigKind h == 3)).foldl (fun s h =>
    s.put 6 (s.sigBase h) (s.hbmBytes (s.sigGaddr h * 4096) (s.sigSize h))) s
  s1.strIdx.foldl (fun s i => if (s.str i).st != .free && (s.str i).resident then s.copyWheel i else s) s1
/-- A step of the exit of domain d ends; step 20 is the reload of R526, step 100 + j the golden reload of segment j. -/
def State.exitEffect (s : State) (d j : Nat) : State :=
  if j = 19 then (s.active.foldl (fun s n => match s.logical n with | some k => s.loadFolio n k | none => s) s).reloadVat
  else if j = 20 then (match s.logical d with | some k => s.loadFolio d k | none => s)
  else if 100 ≤ j then s.reloadSeg d (j - 100)
  else s
/-- The pages of domain d: a folio's, or those of the fabric, and after D2 those of every folio. -/
def pagesOf (d old : Nat) (p : Nat) : Bool :=
  if d = 0x40 then decide (0x108 ≤ p) || (old == 2 && decide (0x040 ≤ p)) else decide (0x040 + 4 * d ≤ p) && decide (p < 0x044 + 4 * d)
/-- An exit ends: a folio in F1, the device in D0, after D2 with every active folio in F1; the held writes of its pages take effect. -/
def State.endExit (s : State) (d : Nat) (x : PwrSeq) : State :=
  let s1 := s.setSeq d none
  let s2 :=
    if d = 0x40 then
      (let s2 := if x.old = 2 then s1.active.foldl (fun s n => s.setFolioState n 1) s1 else s1
       (s2.setDevState 0).setFld D2D_STAT 31 29 (if s2.fld D2D_STAT 3 0 = 0 then 0 else 2))
    else s1.setFolioState d 1
  s2.release (pagesOf d x.old)
/-- The present step of an exit ends, and the next one starts. -/
def State.stepExit (s : State) (d : Nat) (x : PwrSeq) : State :=
  match x.steps with
  | [] => s.endExit d x
  | j :: rest =>
    let s1 := s.exitEffect d j
    if rest.isEmpty then s1.endExit d x
    else s1.setSeq d (some { x with steps := rest, delays := x.delays.drop 1, since := s.rclk, retried := false })
/-- Does a step end at a ready report? -/
def waitsReady (j : Nat) : Bool := 20 ≤ j || (exitStep j).2
/-- May the present step of a sequence end: at its ready report, or once its delay has passed (R537); not in the 16 rclk for which a
retry turns its switch off (R542)? -/
def State.stepDue (s : State) (x : PwrSeq) : Bool :=
  match x.steps with
  | [] => true
  | j :: _ => decide (x.since + (if waitsReady j then 0 else x.delays.headD 0) ≤ s.rclk)
/-- EXIT_STEP: a step of the domain's exit ends; where none is in progress, one that is due starts, and an asleep port that a vote
holds trains (R493). -/
def execExitStep (dom : BitVec 8) (s : State) : Res :=
  let d := dom.toNat
  match s.seqOf d with
  | some x =>
    if x.entering then notDue "the domain enters a state"
    else if x.steps.head? = some 20 ∧ (s.logical d).isNone then notDue "the spare's reload ends with SUBSTITUTION_DONE"
    else if !s.stepDue x then notDue "the delay of the step has not passed"
    else .next (s.stepExit d x)
  | none =>
    if 0x48 ≤ d ∧ d < 0x4E then
      (if s.linkState (d - 0x48) = 3 ∧ s.portVoted (d - 0x48) then .next (s.wakePort (d - 0x48)) else notDue "no vote holds the asleep port")
    else match s.dueExit d with
      | none => notDue "no exit of the domain is due"
      | some causes => if s.domainFails d then .next (s.voteFails d) else .next (s.startExit d causes)

/-! ## Substitution (R560) -/

/-- SUBSTITUTION_DONE: the spare's reload, the last step of its F4 exit, ends; the leaf map names the spare, which holds the retired
folio's index. -/
def execSubstitutionDone (n : Fin 50) (s : State) : Res :=
  match Sp.get (fun _ => none) s.substs n.val with
  | none => notDue "no substitution of the folio is in progress"
  | some x =>
    if !(s.seqOf x.spare).any (fun q => !q.entering && q.steps == [20]) then notDue "the spare's exit has not reached its reload"
    else
      let s1 := ({ s with substs := Sp.set (fun _ => none) s.substs n.val none }.setSeq x.spare none).takeSettings n.val x.spare
      let s2 := (s1.setFld (SPN_LEAF x.logical) 5 0 x.spare).loadFolio x.spare x.logical
      .next ((s2.setFolioState x.spare 1).release (pagesOf x.spare 4))

/-! ## Wake steps that fail (R541, R542) -/

/-- The domain whose exit a failing domain takes part in. -/
def State.exitFor (s : State) (d : Nat) : Nat :=
  match s.seqOf d with
  | some x => if d < 50 && !x.entering then d else 0x40
  | none => 0x40
/-- The domain is marked failed, and the vote on it refused (R542). -/
def State.markFailed (s : State) (d : Nat) : State :=
  { s with pwrFailed := Sp.set (fun _ => false) s.pwrFailed d true }.voteFails d
/-- The fabric fails: the device returns to D2, its hoop lapses and it withdraws. -/
def State.fabricFails (s : State) : State :=
  let s1 := (s.log 0x4C 0x40 9 0).withdraw
  (({ s1 with hoop := { s1.hoop with standing := false, ends := 0 } }.fence).fallD2 2).markFailed 0x40
/-- A folio fails in an exit: it is retired. -/
def State.folioFails (s : State) (n : Nat) : State :=
  (((s.log 0x4C n 4 0).retire n).setFolioState n 7).markFailed n
/-- What the second timeout of a step does to the failing domain d. -/
def State.wakeFails (s : State) (d : Nat) : State :=
  if d < 50 then s.folioFails d
  else if 0x48 ≤ d ∧ d < 0x4E then ((s.log 0x4C d 0 0).setLinkState (d - 0x48) 0).markFailed d
  else if 0x50 ≤ d ∧ d < 0xA0 then ((s.log 0x4C d 5 0).failBank (d - 0x50)).markFailed d
  else if 0xA0 ≤ d ∧ d < 0xA4 then (((s.log 0x4C d 9 0).log HBM_TRAIN_FAIL d 9 0).setBit HBM_STAT (d - 0xA0) false).withdraw
  else if 0xA8 ≤ d ∧ d < 0xAC then (s.log 0x4C d 0 0).d2dModules (15 - 2 ^ (d - 0xA8)) 0 []
  else s.fabricFails
/-- The PLL that a code names: quire 0 to 9, or the fabric's (10), where the present step is X11. -/
def pllOf (d j : Nat) : Option Nat :=
  if j ≠ 11 then none
  else if 0xB8 ≤ d ∧ d ≤ 0xC1 then some (d - 0xB8)
  else if d = 0xC8 ∨ d = 0x40 then some 10
  else none
/-- WAKE_FAIL: a step times out at four times its delay (R538); the first time it runs once more, the second time its domain fails, and for a PLL the limp clock
takes over and the step ends. A port that trains fails without a sequence. -/
def execWakeFail (dom : BitVec 8) (s : State) : Res :=
  let d := dom.toNat
  let q := s.exitFor d
  if 0x48 ≤ d ∧ d < 0x4E then
    (if s.linkState (d - 0x48) = 1 then .next (s.wakeFails d) else notDue "the port does not train")
  else match s.seqOf q with
    | none => notDue "no exit is in progress"
    | some x =>
      match x.steps with
      | [] => notDue "no step of an exit runs"
      | j :: _ =>
        if x.entering then notDue "no exit is in progress"
        else if !waitsReady j then notDue "the step ends at its delay"
        else if s.rclk < x.since + 4 * x.delays.headD 0 then notDue "four times the step's delay have not passed"
        else if !x.retried then .next (s.setSeq q (some { x with retried := true, since := s.rclk + (if j = 11 then 0 else 16) }))
        else match pllOf d j with
          | some u => .next ((s.limp u).stepExit q x)
          | none => .next ((s.setSeq q (some { x with retried := false, since := s.rclk })).wakeFails d)

end Sys2Proof.Machine
end

