-- ==== Sys2Proof/Machine/Bringup.lean ====
section
/-! DEFINITION. Resets and bring-up (21_bring_up.md R631 to R640, 17_power_and_clocks.md R548, 18_faults_and_availability.md R556,
20_ports_and_electrical.md R622). -/

namespace Sys2Proof.Machine

/-! ## Resets -/

/-- The stage of bring-up, BOOT_STAT.STAGE, and the code that goes with it. -/
def State.boot (s : State) : Nat := s.fld BOOT_STAT 31 28
def State.setStage (s : State) (k : Nat) : State := s.setFld BOOT_STAT 31 28 k
/-- HALTED with a code: the device stays in D2 (R631). -/
def State.halt (s : State) (code : Nat) : State := ((s.setStage 0xF).setFld BOOT_STAT 23 16 code).setDevState 2
/-- PORST_N: everything at its reset value. What waits outside the block stays. -/
def State.cold (s : State) : State := { State.reset with pending := s.pending, fresh := s.fresh, refLost := s.refLost, railsOut := s.railsOut }
/-- A reset is released: RIND begins on the RC backup. -/
def State.begin (s : State) : State := (s.setStage 0).setBit CLK_STAT 31 true
/-- The bits of a word outside the rind that a warm reset keeps: RW and TX fields, the leaf map, and the pseudo-channels retired with
the data they moved (R637; the last two DEDUCED, log entry 50). -/
def warmKept (a : Nat) : Nat :=
  let r := regSpec a
  if a / 4096 = 0x190 ∧ 0x0C0 ≤ a % 4096 ∧ a % 4096 < 0x180 then regAll
  else if 0x151 ≤ a / 4096 ∧ a / 4096 ≤ 0x154 ∧ a % 4096 < 0x048 then regAll
  else if a = HBM_STAT then 0xF0
  else r.rw ||| r.tx
/-- The registers after a warm reset: the rind's as they are, the others' kept bits beside reset values. -/
def warmRegs (m : Sp Word) : Sp Word :=
  (m.map (fun p => (p.1,
    if p.1 < 0x40000 then p.2
    else (p.2 &&& BitVec.ofNat 32 (warmKept p.1)) ||| (regReset p.1 &&& ~~~(BitVec.ofNat 32 (warmKept p.1)))))).filter
    (fun p => decide (p.2 ≠ regReset p.1))
/-- The save of R636: pending commit records, then the stream-table image; steps in flight are neither released nor committed. -/
def State.saveTable (s : State) : State :=
  let s1 := s.strIdx.foldl (fun s i => (if (s.str i).recordDue then s.writeRecord i else s).dropStep i) s
  { s1 with savedTable := s1.strm, saved := true }
/-- The folios that substitute take their indices at once (DEDUCED, log entry 50). -/
def State.settleLeaves (s : State) : State :=
  s.substs.foldl (fun s p => match p.2 with | some x => s.setFld (SPN_LEAF x.logical) 5 0 x.spare | none => s) s
/-- What a warm reset keeps (R637), and what it sets. -/
def State.warm (s : State) : State :=
  let s0 := (List.range 4).foldl (fun s k => if (s.txn k).live then s.orphan k else s) s
  let s1 := (if s0.rbit MBX_STAT 31 then s0.mbxEnd MBX_ORPHANED else s0).settleLeaves
  let s2 : State := { State.reset with
    pending := s1.pending, fresh := s1.fresh, rclk := s1.rclk, inReset := false, inWarm := true, formed := s1.formed,
    saved := s1.saved, savedTable := s1.savedTable, image := s1.image, staged := s1.staged, hbm := s1.hbm, scheds := s1.scheds,
    txns := s1.txns, portRegs := s1.portRegs, mbxValid := s1.mbxValid, levelReq := s1.levelReq, regs := warmRegs s1.regs,
    sideband := s1.sideband, refLost := s1.refLost, railsOut := s1.railsOut, quietUntil := s1.quietUntil, faultLow := s1.faultLow,
    wakeLow := s1.wakeLow, thermLow := s1.thermLow, jtagData := s1.jtagData, d2dOut := s1.d2dOut, linkOut := s1.linkOut,
    hoop := { Hoop.reset with standing := !s1.formed } }
  (s2.setReg BOOT_STAT (2 ^ 15)).setFld PM_STATE 31 29 0
/-- WARM_N taken: in READY or in service the save runs first; the save does not run before READY, in TRIP or when HALTED. -/
def State.warmAssert (s : State) (saved : Bool) : State :=
  let s1 := if s.boot = 7 ∧ s.devState ≠ 7 then (if saved then s.saveTable else { s with saved := false })
    else if s.boot = 7 then { s with saved := false } else s
  s1.warm
/-- Does the device wait in TRIP until its sensors have cooled (R548)? -/
def State.tooHot (s : State) : Bool := s.devState == 7 && !s.cooler 95

/-- PORST_N asserted. In TRIP it waits until every sensor reads below 95 °C. -/
def execPorstNAssertion (s : State) : Res :=
  if s.tooHot then .next { s with tripReset := 1 } else .next s.cold
/-- PORST_N released: a full bring-up starts. -/
def execPorstN (s : State) : Res :=
  if s.tripReset = 1 then .next { s with tripReset := 2 }
  else if !s.inReset then notDue "PORST_N is not asserted"
  else .next ({ s.cold with inReset := false }.begin)
/-- WARM_N asserted: no effect while PORST_N is low or in HALTED with FUSE_MISMATCH (R622, R639). -/
def execWarmN (saved : Bool) (s : State) : Res :=
  if s.inReset ∨ s.tripReset = 1 ∨ s.tripReset = 2 ∨ (s.boot = 0xF ∧ s.fld BOOT_STAT 23 16 = 2) then .next s
  else if s.tooHot then .next { s with tripReset := 3 }
  else .next (s.warmAssert saved)
/-- WARM_N released: the warm bring-up starts. -/
def execWarmNRelease (s : State) : Res :=
  if s.tripReset = 3 then .next { s with tripReset := 4 }
  else if !s.inWarm then notDue "no warm reset is under way"
  else .next ({ s with inWarm := false }.begin)
/-- A reset that waits in TRIP, taken once the device has cooled (R548). -/
def State.coolReset (s : State) : State :=
  if s.tripReset = 0 ∨ s.tooHot then s
  else match s.tripReset with
    | 1 => s.cold
    | 2 => { s.cold with inReset := false }.begin
    | 3 => { s with tripReset := 0 }.warmAssert false
    | _ => { { s with tripReset := 0 }.warmAssert false with inWarm := false }.begin
/-- THERMAL_SAMPLE. -/
def execThermalSample (temps : BitVec 128) (s : State) : Res :=
  if s.inReset then notDue "the device is in reset" else .next (s.sample temps).coolReset

/-! ## Stages (R631 to R634) -/

/-- Does a stage of bring-up run? -/
def State.inStage (s : State) (k : Nat) : Bool := s.boot == k && !s.inReset && !s.inWarm && s.devState != 7
/-- The last reset was WARM_N. -/
def State.isWarm (s : State) : Bool := s.rbit BOOT_STAT 15
/-- RIND: REFCLK is valid and rclk moves to it; a warm reset with a verified image goes on with POWER. -/
def execRind (s : State) : Res :=
  if !s.inStage 0 then notDue "bring-up is not in RIND"
  else if s.refLost then notDue "REFCLK is not valid"
  else
    let s1 := (s.setBit CLK_STAT 31 false).setFld BOOT_STAT 23 16 0
    .next (s1.setStage (if s.isWarm && s.image.isSome then 3 else 1))
/-- REF_WAIT: 10 ms without a valid REFCLK. -/
def execRefWait (s : State) : Res :=
  if !s.inStage 0 then notDue "bring-up is not in RIND" else .next ((s.setFld BOOT_STAT 23 16 1).log 0x48 0xB1 0 0)
/-- FUSE: fuses that disagree, or a blank key hash, halt the device. -/
def execFuse (agree : Bool) (s : State) : Res :=
  if !s.inStage 1 then notDue "bring-up is not in FUSE"
  else if agree then .next (s.setStage (if s.image.isSome then 3 else 2))
  else .next (s.halt 2)
/-- The lowest spare that passes: it holds no index, is not retired, and is not in the mask of failed folios. -/
def State.passingSpare (s : State) (failed : Nat) : Option Nat :=
  (List.range 50).find? (fun n => !s.retired n && (s.logical n).isNone && !bit failed n)
/-- A folio that fails in bring-up is retired (R634): its index passes to the lowest passing spare, or FOLIO_NO_SPARE is logged. -/
def State.bootRetire (s : State) (failed n : Nat) : State :=
  if s.retired n then s
  else
    let s1 := ((s.setBit (FOLIO_RET (n / 32)) (n % 32) true).setFolioState n 4)
    let spend := fun (s : State) => s.setFld SPARE_STAT 1 0 (s.fld SPARE_STAT 1 0 - 1)
    match s.logical n with
    | none => (spend s1).log 0x58 n 4 0xFFFF
    | some k =>
      match s1.passingSpare failed with
      | some sp => (spend (s1.setFld (SPN_LEAF k) 5 0 sp)).log 0x58 n 4 (k * 256 + sp)
      | none => ((s1.log 0x58 n 4 (k * 256 + 0xFF)).setBit (FOLIO_VAC (k / 32)) (k % 32) true).log 0x59 n 4 0
/-- Every folio of a mask retired, and the banks of a mask failed. -/
def State.bootFails (s : State) (failed banks : Nat) : State :=
  let s1 := ((List.range 50).filter (fun n => bit failed n)).foldl (fun s n => s.bootRetire failed n) s
  ((List.range 80).filter (fun b => bit banks b && !s.rbit (VAT_FAIL (b / 32)) (b % 32))).foldl (fun s b => s.failBank b) s1
/-- Is a logical index without a folio? -/
def State.short (s : State) : Bool := (List.range 48).any s.vacant
/-- Folios and banks as bring-up powers them: active folios in F1, spares in F4, memories zero, PWRD as the power maps ask. -/
def State.powerUp (s : State) : State :=
  let s1 := (List.range 50).foldl (fun s n =>
    ((s.setFolioState n (if (s.logical n).isSome && !s.retired n then 1 else 4)).setReg (FOLIO_FM_STAT n) (s.reg (FOLIO_FM_PWR n))).loseMems n) s
  let s2 := (List.range 3).foldl (fun s i => s.setReg (VAT_STAT i) (s.reg (VAT_PWR i) - (s.reg (VAT_PWR i) &&& s.reg (VAT_FAIL i)))) s1
  let s3 : State := s2.wipe 6 0 (2 ^ 26)
  (List.range 200).foldl (fun s k =>
    s.setCtx (k / 4) (k % 4) { Ctx.reset with st := if s.ctxEn (k / 4) (k % 4) then .idle else .off }) s3
/-- POWER: folios and banks that fail to power up, and whether the fabric fails. No rail but the rind's may be outside its band. -/
def execPower (failed : BitVec 50) (banks : BitVec 80) (fabric : Bool) (s : State) : Res :=
  if !s.inStage 3 then notDue "bring-up is not in POWER"
  else if s.railsOut.any (fun r => match r with | .rind => false | .folioReg _ => false | _ => true) then notDue "a rail is outside its band"
  else
    let s0 := match s.image with | some f => s.applyDelays f | none => s
    if fabric then .next ((s0.log 0x4C 0x40 0 0).halt 4)
    else
      let s1 := (s0.bootFails failed.toNat banks.toNat).powerUp
      if s1.short then .next (s1.halt 5) else .next ((s1.setStage 4).release (fun p => decide (0x040 ≤ p)))
/-- TEST: the folios and banks that fail self-test; afterwards every memory is zero. -/
def execTest (failed : BitVec 50) (banks : BitVec 80) (s : State) : Res :=
  if !s.inStage 4 then notDue "bring-up is not in TEST"
  else
    let n := ((List.range 50).filter (fun n => bit failed.toNat n)).length
    let s1 := ((s.setFld BOOT_STAT 7 0 n).bootFails failed.toNat banks.toNat).powerUp
    if s1.short then .next (s1.halt 5) else .next (s1.setStage 5)
/-- The committed slot of stream i and its CSEQ taken from the commit record in HBM, and where the entry's differ, what the slot's header
says of the wheel (R291, R293). -/
def State.fromRecord (s : State) (i : Nat) (x : Strm) : Strm :=
  let slot := bit (s.hbmLoad (s.recordAddr i) 1) 0
  let cseq := s.hbmLoad (s.recordAddr i + 8) 8
  let h := fun (o n : Nat) => s.hbmLoad (s.wheelAddr i slot + o) n
  if slot = x.slot ∧ cseq = x.cseq then x
  else { x with slot := slot, cseq := cseq, cursor := h 0x20 8 % 2 ^ 48, wheelSeq := h 0x28 4, rcheck := h 0x30 8 }
/-- The stream table read back after a warm reset (R637, R638), with the committed slots of the commit records; every index is FREE where
the table was not saved or fails its check. -/
def State.restoreTable (s : State) (good : Bool) : State :=
  if !s.saved || !good then { s with strm := [] }
  else
    let entry := fun (i : Nat) (x0 : Strm) =>
      let x := s.fromRecord i x0
      let y : Strm := { x with curd := none, held := [], step := none, cmd := none, warm := false, recordDue := false, acked := false, image := false }
      match x.st with
      | .active | .pausing | .paused | .replay | .exporting => { y with st := if s.formed then .fenced else .paused }
      | .starting | .importing | .ending => y.freed
      | _ => y
    { s with strm := (s.savedTable.map (fun (p : Nat × Strm) => (p.1, entry p.1 p.2))).filter (fun (p : Nat × Strm) => decide (p.2 ≠ Strm.reset)) }.setBit BOOT_STAT 14 true
/-- The loaded schedules placed again from their golden copies, with their rings full (R637). -/
def State.reloadScheds (s : State) : State :=
  let s1 := s.active.foldl (fun s n => match s.logical n with | some k => s.loadFolio n k | none => s) s
  s1.scheds.foldl (fun s x => s.fillRings x) s1
/-- The D2D port after training: sequence numbers at 0, the credits that the host die must at least hold (log entry 51). -/
def State.d2dUp (s : State) (o : TrainOut) : State :=
  { s.setFld D2D_STAT 3 0 15 with d2dRx := 0, d2dTx := 0, d2dRetry := [], d2dAttempts := 0, d2dCredits := 256, d2dNak := false, d2dLost := false }.d2dModules
    o.modules.toNat o.repaired.toNat o.lanes
/-- The stacks and pseudo-channels after training (R387): the stacks that fail. -/
def State.trainStacks (s : State) (o : TrainOut) : State × List Nat :=
  let second := fun (k : Nat) => decide (1 < (o.badPc.filter (fun p => p.1.val == k)).length)
    || (s.rbit HBM_STAT (4 + k) && o.badPc.any (fun p => p.1.val == k && s.pcState p.1.val p.2.val == 0))
  let bad := (List.range 4).filter (fun k => !bit o.hbms.toNat k || second k)
  let s1 := (List.range 4).foldl (fun s k =>
    if bad.contains k then s.log HBM_TRAIN_FAIL (0xA0 + k) 0 0 else s.setBit HBM_STAT k true) s
  (o.badPc.foldl (fun s p => if bad.contains p.1.val then s else s.retirePc p.1.val p.2.val true) s1, bad)
/-- TRAIN. -/
def execTrain (o : TrainOut) (s : State) : Res :=
  if !s.inStage 5 then notDue "bring-up is not in TRAIN"
  else
    let r := s.trainStacks o
    if r.2 ≠ [] then .next (r.1.halt 6)
    else if o.modules = 0 then .next (((List.range 4).foldl (fun s m => s.log 0x39 (0xA8 + m) 0 0) r.1).halt 7)
    else
      let s1 := r.1.d2dUp o
      let s2 := if s1.isWarm then s1.reloadScheds.restoreTable o.table else s1
      .next (((List.range 6).foldl (fun s p => if s.linkState p = 3 then s else s.setLinkState p 1) s2).startKnocks.setStage 6)
/-- LINK: the stage ends and the device is READY; ports that are not up wait for their retries, and a device that had formed before a
warm reset asks to join. -/
def execLink (s : State) : Res :=
  if !s.inStage 6 then notDue "bring-up is not in LINK"
  else
    let s1 := ((List.range 6).foldl (fun s p => if s.linkState p = 1 then s.setLinkState p 0 else s) s).setStage 7
    let s2 := s1.setDevState 0
    .next (if s2.isWarm && s2.formed then s2.askJoin else s2)

end Sys2Proof.Machine
end

