-- ==== Sys2Proof/Machine/MemOps.lean ====
section
/-! DEFINITION. The memory operations (11_on_die_memory.md R348, R349, R352 to R354, 14_instruction_encoding.md R451). A tile
boundary may follow each unit of an operation: how far it comes in 256 fclk depends on the grants (DEDUCED, log entry 17). -/

namespace Sys2Proof.Machine

/-- The span of units lo to hi − 1 of a copy of `len` bytes in units of `u`, from the low end, or from the high end when the
destination lies above the source, so that an overlap reads the whole source first (R353): offset and length. -/
def copySpan (down : Bool) (u len lo hi : Nat) : Nat × Nat :=
  if down then (len - u * hi, u * (hi - lo)) else (u * lo, u * (hi - lo))
/-- A pattern of 8 bytes repeated over `len` bytes. -/
def fillBytes (pat len : Nat) : List Byte := (List.replicate (len / 8) (toBytes 8 pat)).flatten

/-- Above every length register: an operation for which R352 states no limit of its own. -/
def noLimit : Nat := 2 ^ 32
/-- The common part of a memory operation (R352): its traps after the header's, its unit and limit, and its effect on a span of
bytes. The length register is SLEN. -/
def memOp (n c : Nat) (e : Eng) (s : State) (unit limit : Nat) (aligned down : Bool) (ts : List (Bool × Nat))
    (run : (off len : Nat) → State → State) : Long :=
  let len := s.sr n c (e.op 52 48)
  { traps := engTraps 1 n c e s ++ acTraps {} e
      ++ [(!aligned, MEM_ALIGN), (len == 0 || len % unit != 0 || decide (limit < len), MEM_LEN)] ++ ts
    wait := none
    kind := 4
    total := fun _ => len / unit
    part := fun lo hi t =>
      let sp := copySpan down unit len lo hi
      (hi, run sp.1 sp.2 t)
    finish := fun t => t.relEng n c e }

/-- The pattern register pair of FMFILL and VTFILL. -/
def patTraps (e : Eng) : List (Bool × Nat) :=
  [(e.op 56 53 != 0 || e.op 42 0 != 0, FLD_RESERVED), (e.op 47 43 % 2 != 0, REG_RANGE)]
/-- Reserved operand bits of the copies. -/
def copyTraps (e : Eng) : List (Bool × Nat) := [(e.op 47 0 != 0, FLD_RESERVED)]
/-- The array and address of an operand buffer operand: [17:16] and [15:0], as FOLIO_PERR gives them (DEDUCED, log entry 18). -/
def obArr (a : Nat) : Nat := bits a 17 16
def obOff (a : Nat) : Nat := bits a 15 0

def opFmfill (n c : Nat) (e : Eng) (s : State) : Long :=
  let d := s.ar n c (e.op 60 57)
  let len := s.sr n c (e.op 52 48)
  let pat := s.srPair n c (e.op 47 43)
  memOp n c e s 8 (2 ^ 20) (addrOf d % 8 == 0) false
    (patTraps e ++ (badAddr d, ADDR_FORM) :: s.fmSpan n c (addrOf d) len)
    (fun off k t => t.fmWrite n c (addrOf d + off) (fillBytes pat k))

def opFmcopy (n c : Nat) (e : Eng) (s : State) : Long :=
  let d := s.ar n c (e.op 60 57)
  let a := s.ar n c (e.op 56 53)
  let len := s.sr n c (e.op 52 48)
  memOp n c e s 8 (2 ^ 20) (addrOf d % 8 == 0 && addrOf a % 8 == 0) (decide (addrOf a < addrOf d))
    (copyTraps e ++ (badAddr d || badAddr a, ADDR_FORM) :: (s.fmSpan n c (addrOf d) len ++ s.fmSpan n c (addrOf a) len))
    (fun off k t => t.fmWrite n c (addrOf d + off) (t.fmBytes n c (addrOf a + off) k))

def opObld (n c : Nat) (e : Eng) (s : State) : Long :=
  let d := s.ar n c (e.op 60 57)
  let a := s.ar n c (e.op 56 53)
  let len := s.sr n c (e.op 52 48)
  memOp n c e s 64 65536 (obOff d % 64 == 0 && addrOf a % 64 == 0) false
    (copyTraps e ++ [(badAddr d || badAddr a, ADDR_FORM), (obOut (obOff d) len, MEM_LEN)] ++ s.fmSpan n c (addrOf a) len)
    (fun off k t => t.put 1 (obKey n (obArr d) (obOff d + off)) (t.fmBytes n c (addrOf a + off) k))

def opObst (n c : Nat) (e : Eng) (s : State) : Long :=
  let d := s.ar n c (e.op 60 57)
  let a := s.ar n c (e.op 56 53)
  let len := s.sr n c (e.op 52 48)
  memOp n c e s 64 65536 (addrOf d % 64 == 0 && obOff a % 64 == 0) false
    (copyTraps e ++ [(badAddr d || badAddr a, ADDR_FORM), (obOut (obOff a) len, MEM_LEN)] ++ s.fmSpan n c (addrOf d) len)
    (fun off k t => t.fmWrite n c (addrOf d + off) (t.ob.bytes (obKey n (obArr a) (obOff a + off)) k))

def opVtfill (n c : Nat) (e : Eng) (s : State) : Long :=
  let d := s.ar n c (e.op 60 57)
  let len := s.sr n c (e.op 52 48)
  let pat := s.srPair n c (e.op 47 43)
  let h := vatHandle d
  memOp n c e s 128 (s.sigSize h) (vatOff d % 128 == 0) false
    (patTraps e ++ (badVat d, ADDR_FORM) :: s.vatTraps n h (vatOff d) len (s.sigWr h))
    (fun off k t => t.vatWrite h (vatOff d + off) (fillBytes pat k))

def opVtcopy (n c : Nat) (e : Eng) (s : State) : Long :=
  let d := s.ar n c (e.op 60 57)
  let a := s.ar n c (e.op 56 53)
  let len := s.sr n c (e.op 52 48)
  let hd := vatHandle d
  let ha := vatHandle a
  memOp n c e s 128 noLimit (vatOff d % 128 == 0 && vatOff a % 128 == 0)
    (decide (s.sigBase ha + vatOff a < s.sigBase hd + vatOff d))
    (copyTraps e ++ (badVat d || badVat a, ADDR_FORM)
      :: (s.vatTraps n hd (vatOff d) len (s.sigWr hd) ++ s.vatTraps n ha (vatOff a) len (s.sigRd ha)))
    (fun off k t => t.vatWrite hd (vatOff d + off) (t.vatBytes ha (vatOff a + off) k))

def opVtld (n c : Nat) (e : Eng) (s : State) : Long :=
  let d := s.ar n c (e.op 60 57)
  let a := s.ar n c (e.op 56 53)
  let len := s.sr n c (e.op 52 48)
  let h := vatHandle a
  memOp n c e s 128 noLimit (addrOf d % 128 == 0 && vatOff a % 128 == 0) false
    (copyTraps e ++ (badAddr d || badVat a, ADDR_FORM)
      :: (s.vatTraps n h (vatOff a) len (s.sigRd h) ++ s.fmSpan n c (addrOf d) len))
    (fun off k t => t.fmWrite n c (addrOf d + off) (t.vatBytes h (vatOff a + off) k))

def opVtst (n c : Nat) (e : Eng) (s : State) : Long :=
  let d := s.ar n c (e.op 60 57)
  let a := s.ar n c (e.op 56 53)
  let len := s.sr n c (e.op 52 48)
  let h := vatHandle d
  memOp n c e s 128 noLimit (vatOff d % 128 == 0 && addrOf a % 128 == 0) false
    (copyTraps e ++ (badVat d || badAddr a, ADDR_FORM)
      :: (s.vatTraps n h (vatOff d) len (s.sigWr h) ++ s.fmSpan n c (addrOf a) len))
    (fun off k t => t.vatWrite h (vatOff d + off) (t.fmBytes n c (addrOf a + off) k))

/-! ## Landing zones -/

/-- The granule count NG: 0 or above 256 traps. -/
def ngBad (k : Nat) : Bool := k == 0 || decide (256 < k)

/-- LZPUT (R348): the granules of folio memory go to the tail of the folio's ring in the zone, under credits taken at issue. -/
def opLzput (n c : Nat) (e : Eng) (s : State) : Long :=
  let z := s.ar n c (e.op 60 57)
  let a := s.ar n c (e.op 56 53)
  let ng := e.op 52 44
  let h := vatHandle z
  let ring := (s.logical n).bind (s.folioRing h)
  let size := match ring with | some r => r.size | none => 0
  let key := match ring with | some r => ringKey h r.num.toNat | none => 0
  { traps := engTraps 1 n c e s ++ acTraps {} e
      ++ [(e.op 43 0 != 0, FLD_RESERVED), (z != h * 2 ^ 32 || badAddr a, ADDR_FORM), (addrOf a % 256 != 0, MEM_ALIGN),
          (ngBad ng, MEM_LEN), (s.sigKind h != 4, LZ_KIND), (decide (size < ng), LZ_CREDIT)]
      ++ s.vatTraps n h 0 (s.sigSize h) true ++ s.fmSpan n c (addrOf a) (256 * ng)
    wait := if s.credit key < ng then some .credit else none
    kind := 4
    total := fun _ => ng
    part := fun lo hi t =>
      let t0 := if lo = 0 then t.setCredit key (t.credit key - ng) else t
      (hi, match ring with
        | some r => t0.ringPut r (hi - lo) (t0.fmBytes n c (addrOf a + 256 * lo) (256 * (hi - lo)))
        | none => t0)
    finish := fun t => t.relEng n c e }

/-- LZCOPY (R349): the payload of the step's burst, or granules of a ring, go to the owner's folio memory; FREE frees the
granules at the ring's head. -/
def opLzcopy (n c : Nat) (e : Eng) (s : State) : Long :=
  let z := s.ar n c (e.op 60 57)
  let d := s.ar n c (e.op 56 53)
  let form := e.opb 52
  let free := e.opb 51
  let ng := e.op 50 42
  let pos := e.op 41 28
  let num := e.op 27 18
  let h := vatHandle z
  let ring := if form then s.ringAt h num else none
  let size := match ring with | some r => r.size | none => 0
  let burst := if form then none else s.ctxBurst n c
  let len := match burst with | some b => b.len | none => if form then 256 * ng else 0
  let units := if form then ng else (len + 7) / 8
  { traps := engTraps 1 n c e s ++ acTraps {} e
      ++ [(e.op 17 0 != 0 || (!form && (ng != 0 || pos != 0 || num != 0)), FLD_RESERVED), (badVat z || badAddr d, ADDR_FORM),
          (addrOf d % 8 != 0, MEM_ALIGN), (form && ngBad ng, MEM_LEN),
          ((if form then s.sigKind h != 4 else s.sigKind h != 1) || (free && s.sigKind h == 1), LZ_KIND),
          (form && (decide (size < ng) || decide (size ≤ pos)), VAT_RANGE)]
      ++ s.vatTraps n h 0 (s.sigSize h) (s.logical n == some (s.sigOwner h)) ++ s.fmSpan n c (addrOf d) len
    wait := none
    kind := 4
    total := fun _ => units
    part := fun lo hi t =>
      (hi, match ring, burst with
        | some r, _ => t.fmWrite n c (addrOf d + 256 * lo) ((ringGrans r (pos + lo) (hi - lo)).flatMap (fun o => t.vatBytes h o 256))
        | none, some b => t.fmWrite n c (addrOf d + 8 * lo) (((t.burstPayload b).drop (8 * lo)).take (8 * (hi - lo)))
        | none, none => t)
    finish := fun t => (match ring with | some r => if free then t.ringFree r ng else t | none => t).relEng n c e }

/-! ## Commands -/

def execFmfill (a : Issue) (e : Eng) (s : State) : Res := longEngine 0x90 opFmfill none a e s
def execFmcopy (a : Issue) (e : Eng) (s : State) : Res := longEngine 0x91 opFmcopy none a e s
def execObld (a : Issue) (e : Eng) (s : State) : Res := longEngine 0x92 opObld none a e s
def execObst (a : Issue) (e : Eng) (s : State) : Res := longEngine 0x93 opObst none a e s
def execVtfill (a : Issue) (e : Eng) (s : State) : Res := longEngine 0x94 opVtfill none a e s
def execVtcopy (a : Issue) (e : Eng) (s : State) : Res := longEngine 0x95 opVtcopy none a e s
def execVtld (a : Issue) (e : Eng) (s : State) : Res := longEngine 0x96 opVtld none a e s
def execVtst (a : Issue) (e : Eng) (s : State) : Res := longEngine 0x97 opVtst none a e s
def execLzput (a : Issue) (e : Eng) (s : State) : Res := longEngine 0x98 opLzput none a e s
def execLzcopy (a : Issue) (e : Eng) (s : State) : Res := longEngine 0x99 opLzcopy none a e s

end Sys2Proof.Machine
end

