-- ==== Sys2Proof/Machine/Mvp.lean ====
section
/-! DEFINITION. The matrix-vector path (05_matvec_and_gates.md R143 to R155, 14_instruction_encoding.md R444): MVLD, MVMUL, and the
overflow rerun of arrays and MVP (03_dot_product.md R96). -/

namespace Sys2Proof.Machine

/-! ## The input latches (R148 to R150) -/

/-- Element k of a latch, as an element code; an interleaved complex latch counts its parts. -/
def State.latchE (s : State) (n l k : Nat) : Nat := (Sp.get (fun _ => 0) s.latchEl ((2 * n + l) * 8192 + k)).toNat
/-- The scale byte of a block of a latch; 0x7F where nothing was loaded (R149, R150). -/
def State.latchS (s : State) (n l b : Nat) : Nat := (Sp.get (fun _ => 0x7F) s.latchSc ((2 * n + l) * 256 + b)).toNat
def State.setLatchE (s : State) (n l k : Nat) (vs : List Nat) : State :=
  { s with latchEl := Sp.setMany (fun _ => 0) s.latchEl ((2 * n + l) * 8192 + k) (vs.map (BitVec.ofNat 64)) }
def State.setLatchS (s : State) (n l b : Nat) (vs : List Nat) : State :=
  { s with latchSc := Sp.setMany (fun _ => 0x7F) s.latchSc ((2 * n + l) * 256 + b) (vs.map (BitVec.ofNat 8)) }
/-- The format of a latch's last load, with its complex bit; none since the reset (R150). -/
def State.latchF (s : State) (n l : Nat) : Option (Nat × Bool) := Sp.get (fun _ => none) s.latchFmt (2 * n + l)
/-- The largest L of R148. -/
def latchCap (f : Fmt) (cplx : Bool) : Nat :=
  (if f.bits ≤ 8 then 8192 else if f.bits = 16 then 4096 else if f.bits = 32 then 2048 else 1024) / (if cplx then 2 else 1)
/-- Does an MVMUL that a rerun keeps read the latch (R150)? -/
def State.latchUsed (s : State) (n l : Nat) : Bool := (s.jobsOf n).any (fun j => j.e.op 60 60 == l)

/-- `count` parts of a format in the spine's receive buffer from part `first`. -/
def State.spineParts (s : State) (n c : Nat) (src : Fmt) (first count : Nat) : List FV :=
  (unpackBytes src.bits count ((s.castOf n c).drop (rowBytes src first))).map (src.read false)

/-- MVLD. Element FIRST + i of the latch takes element FIRST + i of the spine's broadcast data (DEDUCED, log entry 123); SFMT names the
format of those elements as it does in memory (R149). The parts beyond COUNT of its last block of an MX format are +0 (R71; DEDUCED, log entry 26). -/
def opMvld (n c : Nat) (e : Eng) (s : State) : SlotOp :=
  let l := e.op 60 60
  let clr := e.opb 59
  let first := e.op 58 45
  let count := e.op 44 31
  let fm := e.opb 30
  let a := s.ar n c (e.op 29 26)
  let src := fmtOf s.level (e.op 25 22)
  let ib := e.op 21 18
  let f := fmtOf s.level e.fmt
  let P := engParts e
  let len := rowBytes src (count * P)
  let waits := s.latchUsed n l || (!fm && decide ((s.castOf n c).length < rowBytes src ((first + count) * P)))
  engSlot 1 { fmt := true, rnd := true, cplx := true } n c e s
    ([(e.op 17 0 != 0 || (!fm && e.op 29 26 != 0), FLD_RESERVED), ibTrap e ib, (fm && badAddr a, ADDR_FORM), fmtTrap s e.fmt,
      fmtTrap s (e.op 25 22), cplxTrap s e, rndTrap e true, (e.stoch && f == .fp64, FMT_ROUND),
      (count == 0 || first % 32 != 0 || decide (latchCap f e.cplx < first + count) || !(e.op 25 22 == 0 || e.op 25 22 == 1), MV_LOAD)]
      ++ (if fm then s.fmSpan n c (addrOf a) len else []))
    (if waits then some .latch else none) (fun t =>
      let t0 := if clr then { t with latchEl := Sp.erase t.latchEl ((2 * n + l) * 8192) 8192,
                                     latchSc := Sp.erase t.latchSc ((2 * n + l) * 256) 256 } else t
      let vs := if fm then (unpackBytes src.bits (count * P) (t.fmBytes n c (addrOf a) len)).map (src.read false)
        else t.spineParts n c src (first * P) (count * P)
      let ws := vs.map (fun v => (roundw v).1)
      let rs := (List.range (count * P)).map (fun i => if e.stoch then s.srBits n c (s.ibBase n c ib + first * P + i) else 0)
      let (es, scs, fl, _) := encodeRow f { rnd := Rnd.ofCode e.rnd } rs (count * P + 1) ws
      let t1 := t0.setLatchE n l (first * P) (es.map f.expand)
      let t2 := if f.isMx then t1.setLatchS n l (first / 32) scs else t1
      { t2 with latchFmt := Sp.set (fun _ => none) t2.latchFmt (2 * n + l) (some (e.fmt, e.cplx)) }.holdEng n c e fieldMVP fl)

/-! ## MVMUL -/

def mvN (e : Eng) : Nat := e.op 59 50
def mvFields (e : Eng) : DotFields :=
  { pb := e.op 39 36, cs := e.opb 35, qn := e.opb 34, clip := e.opb 33, bias := e.opb 32, bbf := e.opb 31, breg := e.op 30 27,
    ofmt := e.op 26 23, ib := e.op 22 19, dkind := if e.op 45 44 = 0 then dkGATE else dkFM, dst := e.op 43 40 }
def mvCfg (s : State) (n c : Nat) (e : Eng) (k : Nat) : DotCfg :=
  ⟨(fmtOf s.level e.fmt).expanded, e.strict, Rnd.ofCode e.rnd, s.dotS n c (mvFields e) 1, s.dotK n c (mvFields e), k⟩
/-- The bytes of a run's elements (R143), for a complex operand both parts (DEDUCED, log entry 30). -/
def mvRun (s : State) (e : Eng) : Nat := 32 * (fmtOf s.level e.fmt).bits * engParts e
/-- The record of run r of a weight row (R144). -/
def mvRecord (len row r : Nat) : Nat := (row / 4 * ((len + 255) / 256) + r) * 4 + row % 4
/-- The chunks that a weight row and the latch form. -/
def mvChunks (s : State) (n c : Nat) (e : Eng) (row : Nat) (t : State) : List CChunk :=
  let f := fmtOf s.level e.fmt
  let len := s.dotS n c (mvFields e) 1
  let l := e.op 60 60
  let a := addrOf (s.ar n c (e.op 49 46))
  let b := addrOf (s.ar n c (e.op 49 46 + 1))
  let P := engParts e
  (List.range ((len + 15) / 16)).map (fun u =>
    let rcd := mvRecord len row (u / 16)
    let cnt := min 16 (len - 16 * u)
    let w := t.elemParts n c 0 true f e.cplx (a + rcd * mvRun s e + rowBytes f (16 * (u % 16) * P)) cnt
    let x := (List.range (cnt * P)).map (fun i => t.latchE n l (16 * u * P + i))
    let xs := if e.cplx then (evens x, odds x) else (x, [])
    { xa := if f.isMx then t.latchS n l (u / 2) else 127
      xb := if f.isMx then (t.fm.byte (t.fmKey n c (b + 8 * rcd + u % 16 / 2))).toNat else 127
      re := xs.1.zip w.1
      im := xs.2.zip w.2 })
/-- MVMUL as tiles: each row is one (R147); its N results are one output row (R225). -/
def mvInstr (n c : Nat) (e : Eng) (s : State) : DotInstr :=
  { cfg := mvCfg s n c e
    cplx := e.cplx
    budget := e.rbud
    operands := fun i t => [mvChunks s n c e i t]
    write := fun ts t =>
      (s.outRow n c e (mvFields e) 4 (s.engTag n c e) (mvN e) t ⟨0, 0, 0, ts.flatMap (fun x => x.els e.strict)⟩).relEng n c e }
/-- The first attempts of all rows: the instruction completes, or the MVP keeps it for a rerun or behind the one it keeps (R151). -/
def mvStart (n c : Nat) (e : Eng) (s : State) (t : State) : State :=
  let i := mvInstr n c e s
  let ts := (List.range (mvN e)).map (fun k => i.attempt k 0 (i.operands k t))
  if ts.any (fun x => x.due) || t.jobsOf n ≠ [] then
    t.setJobs n (t.jobsOf n ++ [{ e := e, ctx := c, tag := s.engTag n c e, sregs := s.sregs n c, aregs := s.aregs n c,
                                  gen := s.gen n c, tiles := ts }])
  else i.done n (s.engTag n c e) ts t

/-- The class whose bucket must be full for the MVMUL of a context: of a replayed step of a real-time class on its reserved gathering, on
the first folio that runs it (R202; DEDUCED, log entry 140). -/
def State.tokenClass (s : State) (n c : Nat) : Option Nat :=
  (s.ctx n c).owner.bind (fun i =>
    let k := (s.str i).cls
    let first := match (s.str i).step with
      | some t => t.replayed && (members t.mask).head?.any (fun j => s.phys j == n)
      | none => false
    if first && s.clsRt k && s.gathRsv (s.strGath i) then some k else none)
def State.spendToken (s : State) (n c : Nat) : State :=
  match s.tokenClass n c with
  | some k => s.setTokens k (s.tokensOf k - 1)
  | none => s
/-- MVMUL. A complex row delivers two pre-activations to the gate pipeline, its real part first (DEDUCED, log entry 122). The release
of REL follows the last attempt's reads (R439). -/
def opMvmul (n c : Nat) (e : Eng) (s : State) : SlotOp :=
  let f := fmtOf s.level e.fmt
  let d := mvFields e
  let dest := e.op 45 44
  let a := s.ar n c (e.op 49 46)
  let b := s.ar n c (e.op 49 46 + 1)
  let len := s.dotS n c d 1
  let recs := mvRecord len (mvN e - 1) ((len + 255) / 256 - 1) + 1
  let gate := dest == 0
  engSlotKeep 1 dotUse n c e s
    (s.dotTraps n c e d (e.op 18 0 != 0 || decide (1 < dest) || (gate && (d.dst != 0 || d.ofmt != 0)) || (!e.stoch && d.ib != 0))
      ++ [(e.op 49 46 % 2 != 0, REG_RANGE), (badAddr a || (f.isMx && badAddr b), ADDR_FORM),
          (s.latchF n (e.op 60 60) != some (e.fmt, e.cplx), FMT_MIX),
          (len == 0 || decide (latchCap f e.cplx < len), MV_LEN), (mvN e == 0 || decide (512 < mvN e), MV_ROWS),
          (addrOf a % 1024 != 0 || (f.isMx && addrOf b % 32 != 0), MV_ALIGN),
          (gate && ((s.gates n).isEmpty || decide (s.gateRoom n < mvN e * engParts e)), MV_DEST),
          (gate && e.rowstat != 0, ROWSTAT_DEST)]
      ++ s.fmSpan n c (addrOf a) (recs * mvRun s e) ++ (if f.isMx then s.fmSpan n c (addrOf b) (8 * recs) else [])
      ++ s.outTraps n c e d 1 (mvN e) 1)
    (if 2 ≤ (s.jobsOf n).length then some .inside
     else if (s.tokenClass n c).any (fun k => decide (s.tokensOf k < s.clsDepth k)) then some .token else none)
    (fun t => mvStart n c e s (t.spendToken n c))

/-! ## Overflow rerun (R96, R98, R102) -/

/-- An MVMUL that is kept, over the registers and the generator context of its issue and its work tag. -/
def DotJob.instr (j : DotJob) (n : Nat) (s : State) : DotInstr :=
  let r := ((s.withRegs n j.ctx j.sregs j.aregs).setCtx n j.ctx { s.ctx n j.ctx with ctag := BitVec.ofNat 13 j.tag }).setGen n j.ctx j.gen
  mvInstr n j.ctx { j.e with tag := 0x40 } r
/-- The first tile of a list that is due to run again, run again. -/
def rerunFirst (i : DotInstr) : List DotTile → List DotTile
  | [] => []
  | x :: xs => if x.due then i.again x :: xs else x :: rerunFirst i xs
/-- The oldest MVMULs of which no row is due complete in issue order (R151). -/
def State.settleMvp (s : State) (n : Nat) : List DotJob → State
  | [] => s.setJobs n []
  | j :: js =>
    if j.tiles.any (fun x => x.due) then s.setJobs n (j :: js)
    else ((j.instr n s).done n j.tag j.tiles s).settleMvp n js

def execMvld (a : Issue) (e : Eng) (s : State) : Res := engine opMvld (some MVP_RESIDUE) a e s
def execMvmul (a : Issue) (e : Eng) (s : State) : Res := engine opMvmul (some MVP_RESIDUE) a e s

end Sys2Proof.Machine
end

