-- ==== Sys2Proof/Machine/Random.lean ====
section
/-! DEFINITION. The culture generator's instructions (09_random_numbers.md R266, R270, R271, R279, 14_instruction_encoding.md
R449). -/

namespace Sys2Proof.Machine

/-- RSET (R266): seed from a pair, low word first, and key; the run state is kept. -/
def opRset (n c : Nat) (e : Eng) (s : State) : SlotOp :=
  let seed := s.srPair n c (e.op 60 56)
  let key := s.sr n c (e.op 55 51)
  engSlot 1 {} n c e s [(e.op 50 0 != 0, FLD_RESERVED), (e.op 60 56 % 2 != 0, REG_RANGE)] none (fun t =>
    t.setGen n c { t.gen n c with seed := BitVec.ofNat 64 seed, key := BitVec.ofNat 32 key, set := true })
/-- RSTART (R271, R279). -/
def opRstart (n c : Nat) (e : Eng) (s : State) : SlotOp :=
  let base := s.srPair n c (e.op 60 56) % 2 ^ 48
  engSlot 1 {} n c e s
    [(e.op 55 0 != 0, FLD_RESERVED), (e.op 60 56 % 2 != 0, REG_RANGE), (!(s.gen n c).set, RNG_CTX),
     (decide (2 ^ 48 - 1 < base + 63 * 2 ^ 40 + 2 ^ 40 - 1), RNG_INDEX)] none (fun t =>
    t.setGen n c { t.gen n c with started := true, base := base, t := 0 })

/-- UNIT of a draw (R270). -/
def rngUnit (x : Nat) : Rat := ((x / 512 : Nat) : Rat) * pow2 (-23) + pow2 (-24)
/-- The level-2 LN program with FP32 output on an FP32 code (R270). -/
def rngLn (w : Nat) : Nat := (builtinEval 2 8 (Fmt.fp32.read false w) .fp32 {}).1
/-- The output of a form for a draw x (R270): U32, UNIT, GUMBEL. -/
def rngForm (form x : Nat) : Nat :=
  let u := (Fmt.fp32.encode {} (.fin false (rngUnit x))).1
  match form with
  | 1 => u
  | 2 => (rngLn ((rngLn u) ^^^ 2 ^ 31)) ^^^ 2 ^ 31
  | _ => x
/-- RGEN (R270, R271): the 64 draws; in run mode t advances by one, whatever the mask. -/
def opRgen (n c : Nat) (e : Eng) (s : State) : SlotOp :=
  let run := e.opb 55
  let form := e.op 54 53
  let bern := form == 3
  let g := s.gen n c
  let base := s.srPair n c (e.op 48 44) % 2 ^ 48
  let p := s.sr n c (e.op 43 39)
  let m := s.vm n (e.op 52 51)
  let idx := fun j => if run then g.base + j * 2 ^ 40 + g.t else base + j
  let xs := (List.range 64).map (fun j => (draw g.seed g.key (idx j)).toNat)
  engSlot 1 {} n c e s
    [(e.op 38 0 != 0 || (bern && e.op 60 56 != 0) || (run && e.op 48 44 != 0) || (!bern && (e.op 50 49 != 0 || e.op 43 39 != 0)),
        FLD_RESERVED),
     (!run && e.op 48 44 % 2 != 0, REG_RANGE), (bern && e.op 50 49 == 0, RNG_FORM),
     s.vecReg n c (if bern then [] else [e.op 60 56]) ([e.op 52 51] ++ if bern then [e.op 50 49] else []) [],
     (!g.set || (run && !g.started), RNG_CTX),
     (if run then decide (2 ^ 40 ≤ g.t) else decide (2 ^ 48 - 1 < base + 63), RNG_INDEX)] none (fun t =>
    let t1 := if bern then
        (let old := t.vm n (e.op 50 49)
         t.setVm n (e.op 50 49) ((List.range 64).foldl (fun a j =>
           if (if bit m j then decide (nth xs j < p) else bit old j) then a + 2 ^ j else a) 0))
      else t.setLanes n (e.op 60 56) (fun j => if bit m j then some (rngForm form (nth xs j)) else none)
    if run then t1.setGen n c { t1.gen n c with t := g.t + 1 } else t1)

def execRset (a : Issue) (e : Eng) (s : State) : Res := engine opRset (some RNG_RESIDUE) a e s
def execRstart (a : Issue) (e : Eng) (s : State) : Res := engine opRstart (some RNG_RESIDUE) a e s
def execRgen (a : Issue) (e : Eng) (s : State) : Res := engine opRgen (some RNG_RESIDUE) a e s

end Sys2Proof.Machine
end

