-- ==== Sys2Proof/Machine/Resume.lean ====
section
/-! DEFINITION. RESUME (13_sequencer.md R418, R419) and the empty engine slot ENOP (14_instruction_encoding.md R429, R437). -/

namespace Sys2Proof.Machine

/-- The resumable instruction of an opcode, with the code of its residue check (R418, R570). -/
def longOf (opc : Nat) : Option ((Nat → Nat → Eng → State → Long) × Option Nat) :=
  match opc with
  | 0x11 => some (opAstream, some ARR_RESIDUE)
  | 0x12 => some (opAfold, some ARR_RESIDUE)
  | 0x6B => some (opVzrd, some VEC_RESIDUE)
  | 0x70 => some (opSscan, some SCAN_RESIDUE)
  | 0x71 => some (opSsumm, some SCAN_RESIDUE)
  | 0x72 => some (opSconv, some SCAN_RESIDUE)
  | 0x90 => some (opFmfill, none)
  | 0x91 => some (opFmcopy, none)
  | 0x92 => some (opObld, none)
  | 0x93 => some (opObst, none)
  | 0x94 => some (opVtfill, none)
  | 0x95 => some (opVtcopy, none)
  | 0x96 => some (opVtld, none)
  | 0x97 => some (opVtst, none)
  | 0x98 => some (opLzput, none)
  | 0x99 => some (opLzcopy, none)
  | _ => none
/-- The opcode and the engine slot of a bundle (R427, R437). -/
def bundleOpc (b : Nat) : Nat := bits b 95 88
def bundleEng (b : Nat) : Eng :=
  { tag := BitVec.ofNat 7 (bits b 87 81), rel := bit b 80, rstrm := BitVec.ofNat 3 (bits b 79 77),
    ac := BitVec.ofNat 16 (bits b 76 61), ops := BitVec.ofNat 61 (bits b 60 0), sc := BitVec.ofNat 32 (bits b 127 96) }

/-- The carry file and the lanes of a sewing unit as a resume record kept them (R195). -/
def State.sewLoad (s : State) (n : Nat) (ws : List Word) : State :=
  { s with carryf := Sp.setMany (fun _ => 0) s.carryf (512 * n) (ws.take 512),
           sew := Sp.setMany (fun _ => 0) s.sew (512 * n) (ws.drop 512) }
/-- The suspended instruction of a context continues from its record with the register operands of its issue (R419, R428). -/
def State.resumeRun (s : State) (n c cut : Nat) : State :=
  let r := (s.ctx n c).resume
  let s1 := s.setCtx n c { s.ctx n c with resume := Resume.empty, wait := none }
  let s2 := if r.kind = 2 then s1.sewLoad n r.save else s1
  match longOf (bundleOpc r.bundle.toNat) with
  | none => s2
  | some o =>
    longRun n c cut (o.1 n c (bundleEng r.bundle.toNat) (s2.withRegs n c r.sregs r.aregs)) { r with valid := false, save := [] } s2
/-- RESUME: the traps; the instruction of a valid record continues; a failed check fails its work (R25, R356). -/
def resumeAt (a : Issue) (w : Nat) (s : State) : Res :=
  let n := a.folio.val
  let c := a.ctx.val
  let x := s.ctx n c
  if x.st ≠ .running then notDue "the context is not running"
  else if x.inside.isSome then notDue "the context stays inside an instruction (R644)"
  else if (s.raised n c).isSome then notDue "an interrupt takes the context first (R416)"
  else match lowestTrap [(w != 0, FLD_RESERVED), (!x.resume.valid, SEQ_RESUME)] with
    | some code => .next (s.takeTrap n c code)
    | none =>
      let b := x.resume.bundle.toNat
      checked a ((longOf (bundleOpc b)).bind Prod.snd) (bundleEng b).stoch (fun t => t.setCtx n c { x with resume := Resume.empty })
        (fun t => t.resumeRun n c a.cut) s

/-- RESUME (R419). -/
def execResume (a : Issue) (w : BitVec 26) (s : State) : Res := resumeAt a w.toNat s

/-- The engine opcodes that R442 lists, ENOP among them, as ranges. -/
def opcRanges : List (Nat × Nat) :=
  [(0x00, 0x00), (0x10, 0x12), (0x20, 0x21), (0x28, 0x29), (0x30, 0x31), (0x34, 0x37), (0x40, 0x4C), (0x50, 0x60), (0x61, 0x6B),
   (0x70, 0x72), (0x80, 0x82), (0x90, 0x99), (0xA0, 0xA5), (0xB0, 0xB6)]
def listedOpc (k : Nat) : Bool := opcRanges.any (fun p => decide (p.1 ≤ k) && decide (k ≤ p.2))
/-- ENOP (R437): every other bit of the engine slot is zero. A reserved opcode raises OPC_RESERVED (R430, R442, R455). -/
def opEnop (_n _c : Nat) (opc : Nat) (e : Eng) (_s : State) : SlotOp :=
  ⟨[(opc != 0, OPC_RESERVED), (opc == 0 && (e.tag != 0 || e.rel || e.rstrm != 0 || e.ac != 0 || e.ops != 0), FLD_RESERVED)], none, id⟩
/-- ENOP beside the scalar slot of its bundle; RESUME stands there alone (R429). An engine slot with a reserved opcode traps. -/
def execEnop (a : Issue) (x : BareSlot) (s : State) : Res :=
  let opc := x.opc
  let e := x.eng
  let n := a.folio.val
  let c := a.ctx.val
  if opc ≠ 0 ∧ listedOpc opc.toNat then notDue "the opcode is an instruction's (R442)"
  else if bits e.sc.toNat 31 26 = 0x30 ∧ lowestTrap (opEnop n c opc.toNat e s).traps = none then resumeAt a (bits e.sc.toNat 25 0) s
  else issue a (fun s => (opEnop n c opc.toNat e s).both (scalarSlot (opc != 0) n c e.sc s)) none false s

/-! ## Overflow rerun (R96, R98, R102) -/

/-- The running context of a folio with an array tile that is due to run again. -/
def State.dueCtx (s : State) (n : Nat) : Option (Nat × DotTile × Resume) :=
  (s.running n).bind (fun c => match (s.ctx n c).due, (s.ctx n c).inside with
    | some d, some r => some (c, d, r)
    | _, _ => none)
/-- The array tile that is due runs again, and its instruction stays at its boundary or ends there (R92, R96, R123, R136). -/
def State.rerunArray (s : State) (n c : Nat) (d : DotTile) (r : Resume) : State :=
  match longOf (bundleOpc r.bundle.toNat) with
  | none => s
  | some o =>
    let l := o.1 n c (bundleEng r.bundle.toNat) (s.withRegs n c r.sregs r.aregs)
    (l.after n c r (l.total s) (r.pos, l.close (l.again d) s)).haltDue n c
/-- The oldest MVMUL's first row that is due runs again; the MVMULs that no row keeps any longer complete (R147, R151). -/
def State.rerunMvp (s : State) (n : Nat) : State :=
  match s.jobsOf n with
  | [] => s
  | j :: js => s.settleMvp n ({ j with tiles := rerunFirst (j.instr n s) j.tiles } :: js)
/-- What the checks of a tile's attempt find (R25, R140, R153, R277, R356): a mismatch of the engine or of its draws, or a parity error
of what it reads, fails the work of the tag. -/
def State.rerunCheck (s : State) (n tag code : Nat) (draws : Bool) (hw : Hw) : Res :=
  match hw with
  | .ok => .next s
  | .residue => .next (s.tagFault n tag code)
  | .rng => if draws then .next (s.tagFault n tag RNG_RESIDUE) else notDue "the instruction draws nothing"
  | .parity src addr => .next (s.tagParity n tag src.val addr)
  | .merge src addr => .next (s.tagParity n tag src.val addr)
/-- OVERFLOW_RERUN: a tile of the arrays, or with `mvp` a row of the MVP, runs again with its count raised by one. -/
def execOverflowRerun (x : Rerun) (s : State) : Res :=
  let n := x.folio.val
  if x.mvp then
    match s.jobsOf n with
    | [] => notDue "no row of the MVP is due to run again"
    | j :: _ => ((s.holdOvr n j.tag 0 1).rerunMvp n).rerunCheck n j.tag MVP_RESIDUE j.e.stoch x.hw
  else
    match s.dueCtx n with
    | none => notDue "no tile of an array is due to run again"
    | some (c, d, r) =>
      let e := bundleEng r.bundle.toNat
      let tag := s.engTag n c e
      ((s.holdOvr n tag 0 1).rerunArray n c d r).rerunCheck n tag ARR_RESIDUE e.stoch x.hw

end Sys2Proof.Machine
end

