-- ==== Sys2Proof/Machine/Dispatch.lean ====
section
/-! DEFINITION. The dispatch of a command to its meaning: one arm per constructor. -/

namespace Sys2Proof.Machine

def exec (i : Instr) (s : State) : Host.Outcome State Fault Refusal :=
  match i with
  | .porstN => Sys2Proof.Machine.execPorstN s
  | .warmN saved => Sys2Proof.Machine.execWarmN saved s
  | .rind => Sys2Proof.Machine.execRind s
  | .refWait => Sys2Proof.Machine.execRefWait s
  | .fuse agree => Sys2Proof.Machine.execFuse agree s
  | .power failed banks fabric => Sys2Proof.Machine.execPower failed banks fabric s
  | .test failed banks => Sys2Proof.Machine.execTest failed banks s
  | .train o => Sys2Proof.Machine.execTrain o s
  | .link => Sys2Proof.Machine.execLink s
  | .nop a w => Sys2Proof.Machine.execNop a w s
  | .add a w => Sys2Proof.Machine.execAdd a w s
  | .sub a w => Sys2Proof.Machine.execSub a w s
  | .and a w => Sys2Proof.Machine.execAnd a w s
  | .or a w => Sys2Proof.Machine.execOr a w s
  | .xor a w => Sys2Proof.Machine.execXor a w s
  | .shl a w => Sys2Proof.Machine.execShl a w s
  | .shr a w => Sys2Proof.Machine.execShr a w s
  | .sra a w => Sys2Proof.Machine.execSra a w s
  | .mul a w => Sys2Proof.Machine.execMul a w s
  | .slt a w => Sys2Proof.Machine.execSlt a w s
  | .sltu a w => Sys2Proof.Machine.execSltu a w s
  | .addi a w => Sys2Proof.Machine.execAddi a w s
  | .andi a w => Sys2Proof.Machine.execAndi a w s
  | .ori a w => Sys2Proof.Machine.execOri a w s
  | .lui a w => Sys2Proof.Machine.execLui a w s
  | .shli a w => Sys2Proof.Machine.execShli a w s
  | .shri a w => Sys2Proof.Machine.execShri a w s
  | .srai a w => Sys2Proof.Machine.execSrai a w s
  | .ldw a w => Sys2Proof.Machine.execLdw a w s
  | .stw a w => Sys2Proof.Machine.execStw a w s
  | .ldp a w => Sys2Proof.Machine.execLdp a w s
  | .stp a w => Sys2Proof.Machine.execStp a w s
  | .lda a w => Sys2Proof.Machine.execLda a w s
  | .sta a w => Sys2Proof.Machine.execSta a w s
  | .aadd a w => Sys2Proof.Machine.execAadd a w s
  | .aaddi a w => Sys2Proof.Machine.execAaddi a w s
  | .amov a w => Sys2Proof.Machine.execAmov a w s
  | .smov a w => Sys2Proof.Machine.execSmov a w s
  | .lcset a w => Sys2Proof.Machine.execLcset a w s
  | .br a w => Sys2Proof.Machine.execBr a w s
  | .jmp a w => Sys2Proof.Machine.execJmp a w s
  | .call a w => Sys2Proof.Machine.execCall a w s
  | .ret a w => Sys2Proof.Machine.execRet a w s
  | .loop a w => Sys2Proof.Machine.execLoop a w s
  | .ifence a w => Sys2Proof.Machine.execIfence a w s
  | .istore a w => Sys2Proof.Machine.execIstore a w s
  | .sdone a w => Sys2Proof.Machine.execSdone a w s
  | .yield a w => Sys2Proof.Machine.execYield a w s
  | .resume a w => Sys2Proof.Machine.execResume a w s
  | .topen a w => Sys2Proof.Machine.execTopen a w s
  | .tclose a w => Sys2Proof.Machine.execTclose a w s
  | .tcancel a w => Sys2Proof.Machine.execTcancel a w s
  | .twait a w => Sys2Proof.Machine.execTwait a w s
  | .tpoll a w => Sys2Proof.Machine.execTpoll a w s
  | .enop a x => Sys2Proof.Machine.execEnop a x s
  | .aload a e => Sys2Proof.Machine.execAload a e s
  | .astream a e => Sys2Proof.Machine.execAstream a e s
  | .afold a e => Sys2Proof.Machine.execAfold a e s
  | .overflowRerun r => Sys2Proof.Machine.execOverflowRerun r s
  | .mvld a e => Sys2Proof.Machine.execMvld a e s
  | .mvmul a e => Sys2Proof.Machine.execMvmul a e s
  | .gupd a e => Sys2Proof.Machine.execGupd a e s
  | .gpload a e => Sys2Proof.Machine.execGpload a e s
  | .sfn a e => Sys2Proof.Machine.execSfn a e s
  | .fnload a e => Sys2Proof.Machine.execFnload a e s
  | .sxclr a e => Sys2Proof.Machine.execSxclr a e s
  | .sxacc a e => Sys2Proof.Machine.execSxacc a e s
  | .sxred a e => Sys2Proof.Machine.execSxred a e s
  | .sxdiv a e => Sys2Proof.Machine.execSxdiv a e s
  | .vadd a e => Sys2Proof.Machine.execVadd a e s
  | .vsub a e => Sys2Proof.Machine.execVsub a e s
  | .vmul a e => Sys2Proof.Machine.execVmul a e s
  | .vfma a e => Sys2Proof.Machine.execVfma a e s
  | .vmax a e => Sys2Proof.Machine.execVmax a e s
  | .vmin a e => Sys2Proof.Machine.execVmin a e s
  | .vabs a e => Sys2Proof.Machine.execVabs a e s
  | .vneg a e => Sys2Proof.Machine.execVneg a e s
  | .vcmp a e => Sys2Proof.Machine.execVcmp a e s
  | .vsel a e => Sys2Proof.Machine.execVsel a e s
  | .vcvt a e => Sys2Proof.Machine.execVcvt a e s
  | .vpack a e => Sys2Proof.Machine.execVpack a e s
  | .vunpack a e => Sys2Proof.Machine.execVunpack a e s
  | .viadd a e => Sys2Proof.Machine.execViadd a e s
  | .visub a e => Sys2Proof.Machine.execVisub a e s
  | .vimul a e => Sys2Proof.Machine.execVimul a e s
  | .vand a e => Sys2Proof.Machine.execVand a e s
  | .vor a e => Sys2Proof.Machine.execVor a e s
  | .vxor a e => Sys2Proof.Machine.execVxor a e s
  | .vshl a e => Sys2Proof.Machine.execVshl a e s
  | .vshrl a e => Sys2Proof.Machine.execVshrl a e s
  | .vshra a e => Sys2Proof.Machine.execVshra a e s
  | .vimax a e => Sys2Proof.Machine.execVimax a e s
  | .vimin a e => Sys2Proof.Machine.execVimin a e s
  | .vicmp a e => Sys2Proof.Machine.execVicmp a e s
  | .viota a e => Sys2Proof.Machine.execViota a e s
  | .vmov a e => Sys2Proof.Machine.execVmov a e s
  | .vperm a e => Sys2Proof.Machine.execVperm a e s
  | .vperm2 a e => Sys2Proof.Machine.execVperm2 a e s
  | .vshuf a e => Sys2Proof.Machine.execVshuf a e s
  | .vld a e => Sys2Proof.Machine.execVld a e s
  | .vst a e => Sys2Proof.Machine.execVst a e s
  | .vssq a e => Sys2Proof.Machine.execVssq a e s
  | .vmv a e => Sys2Proof.Machine.execVmv a e s
  | .vsclr a e => Sys2Proof.Machine.execVsclr a e s
  | .vstred a e => Sys2Proof.Machine.execVstred a e s
  | .vstst a e => Sys2Proof.Machine.execVstst a e s
  | .vamax a e => Sys2Proof.Machine.execVamax a e s
  | .vaclr a e => Sys2Proof.Machine.execVaclr a e s
  | .vamred a e => Sys2Proof.Machine.execVamred a e s
  | .vzrd a e => Sys2Proof.Machine.execVzrd a e s
  | .sscan a e => Sys2Proof.Machine.execSscan a e s
  | .ssumm a e => Sys2Proof.Machine.execSsumm a e s
  | .sconv a e => Sys2Proof.Machine.execSconv a e s
  | .carryPass n => Sys2Proof.Machine.execCarryPass n s
  | .rset a e => Sys2Proof.Machine.execRset a e s
  | .rstart a e => Sys2Proof.Machine.execRstart a e s
  | .rgen a e => Sys2Proof.Machine.execRgen a e s
  | .fmfill a e => Sys2Proof.Machine.execFmfill a e s
  | .fmcopy a e => Sys2Proof.Machine.execFmcopy a e s
  | .obld a e => Sys2Proof.Machine.execObld a e s
  | .obst a e => Sys2Proof.Machine.execObst a e s
  | .vtfill a e => Sys2Proof.Machine.execVtfill a e s
  | .vtcopy a e => Sys2Proof.Machine.execVtcopy a e s
  | .vtld a e => Sys2Proof.Machine.execVtld a e s
  | .vtst a e => Sys2Proof.Machine.execVtst a e s
  | .lzput a e => Sys2Proof.Machine.execLzput a e s
  | .lzcopy a e => Sys2Proof.Machine.execLzcopy a e s
  | .xfer a e => Sys2Proof.Machine.execXfer a e s
  | .xstream a e => Sys2Proof.Machine.execXstream a e s
  | .xrel a e => Sys2Proof.Machine.execXrel a e s
  | .xmcast a e => Sys2Proof.Machine.execXmcast a e s
  | .xmrecv a e => Sys2Proof.Machine.execXmrecv a e s
  | .lpmsg a e => Sys2Proof.Machine.execLpmsg a e s
  | .spred a e => Sys2Proof.Machine.execSpred a e s
  | .spgath a e => Sys2Proof.Machine.execSpgath a e s
  | .spbcast a e => Sys2Proof.Machine.execSpbcast a e s
  | .spstat a e => Sys2Proof.Machine.execSpstat a e s
  | .sparg a e => Sys2Proof.Machine.execSparg a e s
  | .spbar a e => Sys2Proof.Machine.execSpbar a e s
  | .spcarry a e => Sys2Proof.Machine.execSpcarry a e s
  | .collectiveComplete g hw => Sys2Proof.Machine.execCollectiveComplete g hw s
  | .inboundBurstFlit => Sys2Proof.Machine.execInboundBurstFlit s
  | .curdExpiry x => Sys2Proof.Machine.execCurdExpiry x s
  | .stepHoldExpiry x => Sys2Proof.Machine.execStepHoldExpiry x s
  | .tokenRefill k => Sys2Proof.Machine.execTokenRefill k s
  | .stepDispatch x => Sys2Proof.Machine.execStepDispatch x s
  | .interruptTaken n fclk => Sys2Proof.Machine.execInterruptTaken n fclk s
  | .stepRelease x => Sys2Proof.Machine.execStepRelease x s
  | .stepRerun x => Sys2Proof.Machine.execStepRerun x s
  | .stepRerunAfterRelease x => Sys2Proof.Machine.execStepRerunAfterRelease x s
  | .stepCommit x => Sys2Proof.Machine.execStepCommit x s
  | .commitRecordWrite x => Sys2Proof.Machine.execCommitRecordWrite x s
  | .checkpointCommit x bursts => Sys2Proof.Machine.execCheckpointCommit x bursts s
  | .start p => Sys2Proof.Machine.execStart p s
  | .startWheelWritten x ok => Sys2Proof.Machine.execStartWheelWritten x ok s
  | .pause p => Sys2Proof.Machine.execPause p s
  | .resumeReplay p => Sys2Proof.Machine.execResumeReplay p s
  | .resumeDrop p => Sys2Proof.Machine.execResumeDrop p s
  | .endStream p => Sys2Proof.Machine.execEndStream p s
  | .endErase p => Sys2Proof.Machine.execEndErase p s
  | .exportWheel p => Sys2Proof.Machine.execExportWheel p s
  | .exportComplete x => Sys2Proof.Machine.execExportComplete x s
  | .importWheel p => Sys2Proof.Machine.execImportWheel p s
  | .importWheelWritten x ok => Sys2Proof.Machine.execImportWheelWritten x ok s
  | .importIncomplete x => Sys2Proof.Machine.execImportIncomplete x s
  | .opReserved p op => Sys2Proof.Machine.execOpReserved p op s
  | .strmDoneHi p => Sys2Proof.Machine.execStrmDoneHi p s
  | .strmViewSel p w => Sys2Proof.Machine.execStrmViewSel p w s
  | .strmViewClr p w => Sys2Proof.Machine.execStrmViewClr p w s
  | .strmCntClr p w => Sys2Proof.Machine.execStrmCntClr p w s
  | .hbmGranuleDone q id g o => Sys2Proof.Machine.execHbmGranuleDone q id g o s
  | .refreshWindow temps failed => Sys2Proof.Machine.execRefreshWindow temps failed s
  | .cancelAck n k => Sys2Proof.Machine.execCancelAck n k s
  | .tagDone n k => Sys2Proof.Machine.execTagDone n k s
  | .pcRetireDone y => Sys2Proof.Machine.execPcRetireDone y s
  | .goldenReload x => Sys2Proof.Machine.execGoldenReload x s
  | .scrubRead b found pass => Sys2Proof.Machine.execScrubRead b found pass s
  | .forcedScrubRead b found pass => Sys2Proof.Machine.execForcedScrubRead b found pass s
  | .arrStallOver n c => Sys2Proof.Machine.execArrStallOver n c s
  | .mvpStallOver n c => Sys2Proof.Machine.execMvpStallOver n c s
  | .scanStallOver n c => Sys2Proof.Machine.execScanStallOver n c s
  | .vecStallOver n c => Sys2Proof.Machine.execVecStallOver n c s
  | .memGrantLate n c => Sys2Proof.Machine.execMemGrantLate n c s
  | .vatGrantLate n c => Sys2Proof.Machine.execVatGrantLate n c s
  | .lzCreditLate n c => Sys2Proof.Machine.execLzCreditLate n c s
  | .seqWaitLate n c => Sys2Proof.Machine.execSeqWaitLate n c s
  | .scanCarryLate n c => Sys2Proof.Machine.execScanCarryLate n c s
  | .moveWaitLate n c => Sys2Proof.Machine.execMoveWaitLate n c s
  | .hbmLate q id g => Sys2Proof.Machine.execHbmLate q id g s
  | .spnLate g => Sys2Proof.Machine.execSpnLate g s
  | .engHang u => Sys2Proof.Machine.execEngHang u s
  | .seqLockstep n => Sys2Proof.Machine.execSeqLockstep n s
  | .substitutionDone n => Sys2Proof.Machine.execSubstitutionDone n s
  | .d2dFlit bytes => Sys2Proof.Machine.execD2dFlit bytes s
  | .d2dResend => Sys2Proof.Machine.execD2dResend s
  | .d2dRetrain => Sys2Proof.Machine.execD2dRetrain s
  | .resetReq tag => Sys2Proof.Machine.execResetReq tag s
  | .linkFlit l bytes fec => Sys2Proof.Machine.execLinkFlit l bytes fec s
  | .data => Sys2Proof.Machine.execData s
  | .msg => Sys2Proof.Machine.execMsg s
  | .mirror ok => Sys2Proof.Machine.execMirror ok s
  | .mack => Sys2Proof.Machine.execMack s
  | .mrel => Sys2Proof.Machine.execMrel s
  | .mirrorTimeout x => Sys2Proof.Machine.execMirrorTimeout x s
  | .renew => Sys2Proof.Machine.execRenew s
  | .renewalRound => Sys2Proof.Machine.execRenewalRound s
  | .rack => Sys2Proof.Machine.execRack s
  | .hoopLapse => Sys2Proof.Machine.execHoopLapse s
  | .lstate => Sys2Proof.Machine.execLstate s
  | .propose => Sys2Proof.Machine.execPropose s
  | .vote => Sys2Proof.Machine.execVote s
  | .commit => Sys2Proof.Machine.execCommit s
  | .proposalTimeout => Sys2Proof.Machine.execProposalTimeout s
  | .join => Sys2Proof.Machine.execJoin s
  | .takeover m => Sys2Proof.Machine.execTakeover m s
  | .lanectl l => Sys2Proof.Machine.execLanectl l s
  | .laneFail l lane => Sys2Proof.Machine.execLaneFail l lane s
  | .lnkLost l => Sys2Proof.Machine.execLnkLost l s
  | .linkRetrain l => Sys2Proof.Machine.execLinkRetrain l s
  | .linkUp l seat peer lanes => Sys2Proof.Machine.execLinkUp l seat peer lanes s
  | .knock l bursts => Sys2Proof.Machine.execKnock l bursts s
  | .knockRepetition l => Sys2Proof.Machine.execKnockRepetition l s
  | .formationRetry => Sys2Proof.Machine.execFormationRetry s
  | .clkRefLoss => Sys2Proof.Machine.execClkRefLoss s
  | .refclkReturn => Sys2Proof.Machine.execRefclkReturn s
  | .refclkLossTimeout => Sys2Proof.Machine.execRefclkLossTimeout s
  | .clkPll u => Sys2Proof.Machine.execClkPll u s
  | .supply r => Sys2Proof.Machine.execSupply r s
  | .supplyExcursionTimeout r => Sys2Proof.Machine.execSupplyExcursionTimeout r s
  | .thermalSample temps => Sys2Proof.Machine.execThermalSample temps s
  | .thermTrip => Sys2Proof.Machine.execThermTrip s
  | .f1Entry n => Sys2Proof.Machine.execF1Entry n s
  | .powerEntry d regulatorOk => Sys2Proof.Machine.execPowerEntry d regulatorOk s
  | .entryComplete d => Sys2Proof.Machine.execEntryComplete d s
  | .exitStep d => Sys2Proof.Machine.execExitStep d s
  | .wakeFail d => Sys2Proof.Machine.execWakeFail d s
  | .plannerExpiry => Sys2Proof.Machine.execPlannerExpiry s
  | .pmVoteHost p w => Sys2Proof.Machine.execPmVoteHost p w s
  | .pmVoteDbg p w => Sys2Proof.Machine.execPmVoteDbg p w s
  | .pmWakeCause p w => Sys2Proof.Machine.execPmWakeCause p w s
  | .pmRefuseLog p w => Sys2Proof.Machine.execPmRefuseLog p w s
  | .txnBegin p w => Sys2Proof.Machine.execTxnBegin p w s
  | .txnSel p w => Sys2Proof.Machine.execTxnSel p w s
  | .txnStage p addr w => Sys2Proof.Machine.execTxnStage p addr w s
  | .txnCommit p w => Sys2Proof.Machine.execTxnCommit p w s
  | .pressPoint k => Sys2Proof.Machine.execPressPoint k s
  | .txnRollback p w => Sys2Proof.Machine.execTxnRollback p w s
  | .txnOrphaned k => Sys2Proof.Machine.execTxnOrphaned k s
  | .txnCntClr p w => Sys2Proof.Machine.execTxnCntClr p w s
  | .ifaceLevel p w => Sys2Proof.Machine.execIfaceLevel p w s
  | .ifaceLevelDecision => Sys2Proof.Machine.execIfaceLevelDecision s
  | .devSeal p w => Sys2Proof.Machine.execDevSeal p w s
  | .door p n c => Sys2Proof.Machine.execDoor p n c s
  | .halt p n c => Sys2Proof.Machine.execHalt p n c s
  | .go p n c => Sys2Proof.Machine.execGo p n c s
  | .form p => Sys2Proof.Machine.execForm p s
  | .arrDbgSel p n w => Sys2Proof.Machine.execArrDbgSel p n w s
  | .folioOvrClr p n w => Sys2Proof.Machine.execFolioOvrClr p n w s
  | .folioPerrClr p n w => Sys2Proof.Machine.execFolioPerrClr p n w s
  | .vatPerrClr p w => Sys2Proof.Machine.execVatPerrClr p w s
  | .hbmErrClr p y w => Sys2Proof.Machine.execHbmErrClr p y w s
  | .moverCntClr p q w => Sys2Proof.Machine.execMoverCntClr p q w s
  | .seqCntClr p n w => Sys2Proof.Machine.execSeqCntClr p n w s
  | .spnCntClr p w => Sys2Proof.Machine.execSpnCntClr p w s
  | .lnkDevClr p w => Sys2Proof.Machine.execLnkDevClr p w s
  | .lnkCntClr p l w => Sys2Proof.Machine.execLnkCntClr p l w s
  | .chCntClr p w => Sys2Proof.Machine.execChCntClr p w s
  | .thermClr p w => Sys2Proof.Machine.execThermClr p w s
  | .d2dCntClr p w => Sys2Proof.Machine.execD2dCntClr p w s
  | .fltClr p w => Sys2Proof.Machine.execFltClr p w s
  | .fltStatFault p w => Sys2Proof.Machine.execFltStatFault p w s
  | .withdraw p w => Sys2Proof.Machine.execWithdraw p w s
  | .fltInject p w => Sys2Proof.Machine.execFltInject p w s
  | .fwLoad p img => Sys2Proof.Machine.execFwLoad p img s
  | .fwStage p img => Sys2Proof.Machine.execFwStage p img s
  | .fwPromote p => Sys2Proof.Machine.execFwPromote p s
  | .schedLoad p img => Sys2Proof.Machine.execSchedLoad p img s
  | .schedUnload p => Sys2Proof.Machine.execSchedUnload p s
  | .keyLoad p => Sys2Proof.Machine.execKeyLoad p s
  | .keyClear p => Sys2Proof.Machine.execKeyClear p s
  | .bulkExport p => Sys2Proof.Machine.execBulkExport p s
  | .romRead p => Sys2Proof.Machine.execRomRead p s
  | .scrubAll p => Sys2Proof.Machine.execScrubAll p s
  | .selfTest p => Sys2Proof.Machine.execSelfTest p s
  | .folioRetire p => Sys2Proof.Machine.execFolioRetire p s
  | .pcRetire p => Sys2Proof.Machine.execPcRetire p s
  | .mbxOp p op => Sys2Proof.Machine.execMbxOp p op s
  | .mbxChunk p w => Sys2Proof.Machine.execMbxChunk p w s
  | .mbxTimeout => Sys2Proof.Machine.execMbxTimeout s
  | .mbxOperationEnd found => Sys2Proof.Machine.execMbxOperationEnd found s
  | .fwUpdateFail g => Sys2Proof.Machine.execFwUpdateFail g s
  | .i3cTargetReset => Sys2Proof.Machine.execI3cTargetReset s
  | .i3cTransferTimeout => Sys2Proof.Machine.execI3cTransferTimeout s
  | .testLogicReset => Sys2Proof.Machine.execTestLogicReset s
  | .window w => Sys2Proof.Machine.execWindow w s
  | .registerWrite p addr width data => Sys2Proof.Machine.execRegisterWrite p addr width data s
  | .porstNAssertion => Sys2Proof.Machine.execPorstNAssertion s
  | .warmNRelease => Sys2Proof.Machine.execWarmNRelease s
  | .supplyReturn r => Sys2Proof.Machine.execSupplyReturn r s
  | .d2dRetrainComplete up repaired lanes => Sys2Proof.Machine.execD2dRetrainComplete up repaired lanes s
  | .fwSwitchComplete g => Sys2Proof.Machine.execFwSwitchComplete g s
  | .pwrdRises u => Sys2Proof.Machine.execPwrdRises u s

end Sys2Proof.Machine
end

