-- ==== Sys2Proof/Machine/Tick.lean ====
section
/-! DEFINITION. One rclk that passes when no command waits (DESIGN CHOICE, log entry 2): the rclk count rises and the timers
that count in rclk fall. What follows when a timer reaches its end is a command of its own. -/

namespace Sys2Proof.Machine

/-- The lease timers of open transactions (R600) after one rclk. -/
def State.tickLeases (s : State) : State :=
  { s with txns := s.txns.map (fun p => (p.1, if p.2.st = 1 then { p.2 with lease := p.2.lease - 1 } else p.2)) }

/-- The hold timers of the curds (R307) after one rclk. -/
def State.tickCurds (s : State) : State :=
  { s with strm := s.strm.map (fun p => (p.1, { p.2 with curd := p.2.curd.map (fun b => { b with timer := b.timer - 1 }) })) }

/-- The engines of folio n go on with work that nothing holds any longer: MVMULs and GUPDs that stood behind withdrawn ones (R154,
R163). -/
def State.engGo (s : State) (n : Nat) : State := (s.settleMvp n (s.jobsOf n)).gateRun n
/-- The engines of the folios that hold such work. -/
def State.tickEngines (s : State) : State :=
  (List.range 50).foldl (fun s n => if s.jobsOf n = [] ∧ s.gates n = [] then s else s.engGo n) s

/-- One rclk. -/
def State.tick (s : State) : State := { s.tickEngines.tickLeases.tickCurds with rclk := s.rclk + 1, trace := s.traceTick }

end Sys2Proof.Machine
end

