-- ==== Sys2Proof/Safety.lean ====
section
/-! DEFINITION. What counts as a safe run, and the terms in which claims are made: when a bundle issues, and what a change leaves
as it was. -/

namespace Sys2Proof.Machine

/-- Every byte memory is in its canonical form. -/
def State.memWf (s : State) : Bool :=
  s.imem.wf && s.fm.wf && s.ob.wf && s.gsb.wf && s.gps.wf && s.fns.wf && s.vat.wf && s.hbm.wf

/-! ## Bundles that issue -/

/-- The context of a bundle runs, owes no RESUME (R419), is inside no instruction (R644), and no context above it is raised (R416). -/
def mayIssue (a : Issue) (s : State) : Prop :=
  (s.ctx a.folio.val a.ctx.val).st = .running ∧ (s.ctx a.folio.val a.ctx.val).resume.valid = false ∧
    (s.ctx a.folio.val a.ctx.val).inside = none ∧ s.raised a.folio.val a.ctx.val = none
/-- The checks of what a bundle reads have nothing to find (R25, R355, R379): the hardware's find nothing wrong, no on-die word has bad
parity, and no tile of the context's fetch streams is still to land. -/
def sound (a : Issue) (s : State) : Prop := a.hw = .ok ∧ s.bad = [] ∧ s.unlanded a.folio.val a.ctx.val = []
/-- A bundle may issue, and its checks find nothing. -/
def ready (a : Issue) (s : State) : Prop := mayIssue a s ∧ sound a s

/-- A slot that breaks no rule of R454 and waits for nothing (R401). -/
def SlotOp.clear (o : SlotOp) : Prop := lowestTrap o.traps = none ∧ o.wait = none
/-- A resumable instruction that breaks no rule and waits for nothing. -/
def Long.clear (o : Long) : Prop := lowestTrap o.traps = none ∧ o.wait = none

/-! ## What is left as it was -/

/-- Between `s` and `t` only the registers s(r), r in `rs`, of context c of folio n may differ. -/
def OnlyS (n c : Nat) (rs : List Nat) (s t : State) : Prop :=
  t = { s with sreg := t.sreg } ∧
    ∀ (m : Fin 50) (k : Fin 4) (r : Fin 32), ¬(m.val = n ∧ k.val = c ∧ r.val ∈ rs) → t.sr m.val k.val r.val = s.sr m.val k.val r.val
/-- Only the address register a(r) of context c of folio n may differ. -/
def OnlyA (n c r : Nat) (s t : State) : Prop :=
  t = { s with areg := t.areg } ∧
    ∀ (m : Fin 50) (k : Fin 4) (q : Fin 16), ¬(m.val = n ∧ k.val = c ∧ q.val = r) → t.ar m.val k.val q.val = s.ar m.val k.val q.val
/-- Only the loop counter lc(r) of context c of folio n may differ. -/
def OnlyLc (n c r : Nat) (s t : State) : Prop :=
  t = { s with lc := t.lc } ∧
    ∀ (m : Fin 50) (k : Fin 4) (q : Fin 4), ¬(m.val = n ∧ k.val = c ∧ q.val = r) → t.lcr m.val k.val q.val = s.lcr m.val k.val q.val
/-- Only context c of folio n may differ, and beside it nothing. -/
def OnlyCtx (n c : Nat) (s t : State) : Prop :=
  t = { s with ctxs := t.ctxs } ∧
    ∀ (m : Fin 50) (k : Fin 4), ¬(m.val = n ∧ k.val = c) → t.ctx m.val k.val = s.ctx m.val k.val
/-- A byte memory reads as before outside `len` bytes from `lo`. -/
def SameOutside (lo len : Nat) (m m' : Memory) : Prop := ∀ k, k < lo ∨ lo + len ≤ k → m'.byte k = m.byte k
/-- Only `len` bytes of the folio memories from key `lo` may differ; the words that they write whole have valid parity. -/
def OnlyFm (lo len : Nat) (s t : State) : Prop :=
  t = { s with fm := t.fm, bad := cured s.bad 0 lo len } ∧ SameOutside lo len s.fm t.fm

end Sys2Proof.Machine
end

