-- ==== Sys2Proof/Certificates/Slice0/Obligations.lean ====
section
/-! DEFINITION. The statements about the block, each `def Obligations.<Name> : Prop`; a docstring says which rules of spec/ a
statement formalises, or which log entry a clause of the model's own rests on. A bundle's effect is told against `s.advance n c`,
the state in which the bundle has issued (Obligations.NopOnlyAdvances says what that is). -/

open Sys2Proof Sys2Proof.Machine

namespace Sys2Proof.Claims

/-- The result of a command is a next state with the property `p`. -/
def Next (r : Res) (p : State → Prop) : Prop := ∃ t, r = .next t ∧ p t

/-- The word operands of a scalar slot: s(RA), s(RB). -/
def sa (a : Issue) (w : BitVec 26) (s : State) : Word := BitVec.ofNat 32 (s.sr a.folio.val a.ctx.val (fRA w.toNat))
def sb (a : Issue) (w : BitVec 26) (s : State) : Word := BitVec.ofNat 32 (s.sr a.folio.val a.ctx.val (fRB w.toNat))
/-- The bundle has issued, s(RD) holds `v`, and nothing else differs. -/
def SetsRD (a : Issue) (w : BitVec 26) (s : State) (v : Word) (r : Res) : Prop :=
  Next r (fun t => t.sr a.folio.val a.ctx.val (fRD w.toNat) = v.toNat ∧
    OnlyS a.folio.val a.ctx.val [fRD w.toNat] (s.advance a.folio.val a.ctx.val) t)
/-- A jump to bundle b of the context: its PC is b and nothing else differs from the issued bundle. -/
def JumpsTo (a : Issue) (s : State) (b : Nat) (t : State) : Prop :=
  (t.ctx a.folio.val a.ctx.val).pc = BitVec.ofNat 13 b ∧
    (t.ctx a.folio.val a.ctx.val) = { (s.ctx a.folio.val a.ctx.val) with pc := BitVec.ofNat 13 b, wait := none } ∧
    OnlyCtx a.folio.val a.ctx.val (s.advance a.folio.val a.ctx.val) t

/-- The traps of a scalar load or store of `k` bytes (R432, R436, R334, R335, R360): none arises. -/
def AccessOk (a : Issue) (w : BitVec 26) (k : Nat) (s : State) : Prop :=
  let n := a.folio.val
  let c := a.ctx.val
  let x := smAddr n c w.toNat s
  s.ar n c (fAB w.toNat) < 2 ^ 20 ∧ x % (k : Int) = 0 ∧ 0 ≤ x ∧ x + (k : Int) ≤ (s.dFmsize n c * 4096 : Nat) ∧
    s.fmDark n c x (x + k - 1) = false
/-- The folio-memory key of the access of a scalar load or store. -/
def accessKey (a : Issue) (w : BitVec 26) (s : State) : Nat :=
  s.fmKey a.folio.val a.ctx.val (smAddr a.folio.val a.ctx.val w.toNat s).toNat

end Sys2Proof.Claims

open Sys2Proof.Claims

/-! ## The queue, idling, reset, memories -/

/-- A step takes the command at the front of the queue and runs it on the state with the queue's rest; what the block adds around
the command is nothing. -/
def Obligations.StepRunsTheFrontCommand : Prop :=
  ∀ (c : Instr) (cs : List Instr) (s : State), step { s with pending := c :: cs } = exec c { s with pending := cs }

/-- On an empty queue one rclk passes (the model's choice, log entry 2): the count of R568 rises, the leases of open transactions
(R600) and the hold timers of curds (R307) fall by one, the trace stream advances (R624), the engines go on with the work they hold,
and where they hold none nothing else changes. -/
def Obligations.IdleStepPassesOneRclk : Prop :=
  ∀ s : State, s.pending = [] → Next (step s) (fun t =>
    let u := s.tickEngines
    t.rclk = s.rclk + 1 ∧ t = { u with rclk := t.rclk, txns := t.txns, strm := t.strm, trace := t.trace } ∧
    (∀ k, (Sp.get (fun _ => Txn.reset) t.txns k) =
      (let x := Sp.get (fun _ => Txn.reset) u.txns k; if x.st = 1 then { x with lease := x.lease - 1 } else x)) ∧
    (∀ i, t.str i = { u.str i with curd := (u.str i).curd.map (fun b => { b with timer := b.timer - 1 }) }) ∧
    ((s.traced = none ∨ s.traceBumps = []) → t.trace = s.trace) ∧
    ((∀ n : Fin 50, s.jobsOf n.val = [] ∧ s.gates n.val = []) → u = s))

/-- At reset every byte memory lists nothing, so that it is in its canonical form, and the queue is empty. -/
def Obligations.ResetMemoriesAreCanonical : Prop :=
  State.reset.memWf = true ∧ State.reset.pending = [] ∧ ∀ a, State.reset.fm.byte a = 0 ∧ State.reset.hbm.byte a = 0 ∧ State.reset.vat.byte a = 0

/-- Every step keeps every byte memory in its canonical form: equal contents are equal data. -/
def Obligations.EveryStepKeepsMemoriesCanonical : Prop :=
  ∀ s t : State, s.memWf = true → step s = .next t → t.memWf = true

/-! ## Scalar slot -/

/-- NOP issues and only advances (R401, R406, R435): PC at the next bundle and no wait; each pending instruction store of the context
is one bundle nearer to landing; a store whose fourth bundle this is lands, and no other memory, register or flag changes. A reserved
bit set traps with FLD_RESERVED instead. -/
def Obligations.NopOnlyAdvances : Prop :=
  ∀ (a : Issue) (s : State),
    let n := a.folio.val
    let c := a.ctx.val
    let t := s.advance n c
    let stores := fun (u : State) (m : Nat) => Sp.get (fun _ => []) u.istores m
    let counted := (stores s n).map (fun p => if p.ctx = c then { p with left := p.left - 1 } else p)
    (ready a s → exec (.nop a 0) s = .next t ∧
      t.ctx n c = { (s.ctx n c) with pc := (s.ctx n c).pc + 1, wait := none } ∧
      (∀ (m : Fin 50) (k : Fin 4), ¬(m.val = n ∧ k.val = c) → t.ctx m.val k.val = s.ctx m.val k.val) ∧
      stores t n = counted.filter (fun p => p.left != 0) ∧ (∀ m, m ≠ n → stores t m = stores s m) ∧
      t.imem = (counted.filter (fun p => p.left == 0)).foldl (fun m p => m.store (131072 * n + 16 * p.index.toNat) 16 p.bundle.toNat) s.imem ∧
      (s.traced ≠ some n ∨ s.traceBumps = [] → t.trace = s.trace) ∧
      t = { s with ctxs := t.ctxs, istores := t.istores, imem := t.imem, trace := t.trace }) ∧
    (∀ w : BitVec 26, w ≠ 0 → mayIssue a s → exec (.nop a w) s = .next (s.takeTrap n c 0x02))

/-- The register operations of layout S-R (R435): s(RD) = s(RA) op s(RB) modulo 2^32, shifts by s(RB)[4:0], comparisons giving 1
or 0; every other register, every memory and every flag as the issued bundle leaves them. Bits [10:0] of the slot are reserved. The immediate operations of layout S-I (R435): ADDI takes IMM sign-extended, ANDI and
ORI zero-extended, LUI places it in the upper half (RA zero), the shifts take IMM[4:0] (IMM[15:5] zero). -/
def Obligations.ScalarOperations : Prop :=
  ∀ (a : Issue) (w : BitVec 26) (s : State), ready a s →
  (bits w.toNat 10 0 = 0 →
    SetsRD a w s (sa a w s + sb a w s) (exec (.add a w) s) ∧
    SetsRD a w s (sa a w s - sb a w s) (exec (.sub a w) s) ∧
    SetsRD a w s (sa a w s &&& sb a w s) (exec (.and a w) s) ∧
    SetsRD a w s (sa a w s ||| sb a w s) (exec (.or a w) s) ∧
    SetsRD a w s (sa a w s ^^^ sb a w s) (exec (.xor a w) s) ∧
    SetsRD a w s (sa a w s <<< ((sb a w s).toNat % 32)) (exec (.shl a w) s) ∧
    SetsRD a w s (sa a w s >>> ((sb a w s).toNat % 32)) (exec (.shr a w) s) ∧
    SetsRD a w s ((sa a w s).sshiftRight ((sb a w s).toNat % 32)) (exec (.sra a w) s) ∧
    SetsRD a w s (sa a w s * sb a w s) (exec (.mul a w) s) ∧
    SetsRD a w s (if (sa a w s).toInt < (sb a w s).toInt then 1 else 0) (exec (.slt a w) s) ∧
    SetsRD a w s (if (sa a w s).toNat < (sb a w s).toNat then 1 else 0) (exec (.sltu a w) s)) ∧
    SetsRD a w s (sa a w s + BitVec.signExtend 32 (BitVec.ofNat 16 (fIMM w.toNat))) (exec (.addi a w) s) ∧
    SetsRD a w s (sa a w s &&& BitVec.ofNat 32 (fIMM w.toNat)) (exec (.andi a w) s) ∧
    SetsRD a w s (sa a w s ||| BitVec.ofNat 32 (fIMM w.toNat)) (exec (.ori a w) s) ∧
    (fRA w.toNat = 0 → SetsRD a w s (BitVec.ofNat 32 (fIMM w.toNat * 65536)) (exec (.lui a w) s)) ∧
    (fIMM w.toNat < 32 →
      SetsRD a w s (sa a w s <<< fIMM w.toNat) (exec (.shli a w) s) ∧
      SetsRD a w s (sa a w s >>> fIMM w.toNat) (exec (.shri a w) s) ∧
      SetsRD a w s ((sa a w s).sshiftRight (fIMM w.toNat)) (exec (.srai a w) s))

/-- The scalar loads (R436, R17): LDW, LDP and LDA read little-endian words at a(AB) + OFF, an address that is aligned, inside the
context's bound and in powered segments; the registers written are the destination's alone. -/
def Obligations.ScalarLoads : Prop :=
  ∀ (a : Issue) (w : BitVec 26) (s : State), ready a s →
    let n := a.folio.val
    let c := a.ctx.val
    let rd := fRD w.toNat
    (AccessOk a w 4 s → Next (exec (.ldw a w) s) (fun t =>
      t.sr n c rd = s.fm.load (accessKey a w s) 4 ∧ OnlyS n c [rd] (s.advance n c) t)) ∧
    (AccessOk a w 8 s → rd % 2 = 0 → Next (exec (.ldp a w) s) (fun t =>
      t.sr n c rd + t.sr n c (rd + 1) * 2 ^ 32 = s.fm.load (accessKey a w s) 8 ∧ OnlyS n c [rd, rd + 1] (s.advance n c) t)) ∧
    (AccessOk a w 8 s → rd < 16 → Next (exec (.lda a w) s) (fun t =>
      t.ar n c rd = s.fm.load (accessKey a w s) 8 ∧ OnlyA n c rd (s.advance n c) t))

/-- The scalar stores (R436, R17): STW, STP and STA write their register little-endian at a(AB) + OFF, and every other byte of the
folio memories, every register and every flag stays. -/
def Obligations.ScalarStores : Prop :=
  ∀ (a : Issue) (w : BitVec 26) (s : State), ready a s →
    let n := a.folio.val
    let c := a.ctx.val
    let rd := fRD w.toNat
    let k := accessKey a w s
    (AccessOk a w 4 s → Next (exec (.stw a w) s) (fun t =>
      t.fm.load k 4 = s.sr n c rd ∧ OnlyFm k 4 (s.advance n c) t)) ∧
    (AccessOk a w 8 s → rd % 2 = 0 → Next (exec (.stp a w) s) (fun t =>
      t.fm.load k 8 = s.sr n c rd + s.sr n c (rd + 1) * 2 ^ 32 ∧ OnlyFm k 8 (s.advance n c) t)) ∧
    (AccessOk a w 8 s → rd < 16 → Next (exec (.sta a w) s) (fun t =>
      t.fm.load k 8 = s.ar n c rd ∧ OnlyFm k 8 (s.advance n c) t))

/-- Address registers and loop counters (R435): AADD and AADDI add modulo 2^64 with sign extension, AMOV and SMOV copy between a
pair of scalar registers and an address register, LCSET sets a loop counter. -/
def Obligations.AddressRegisterOperations : Prop :=
  ∀ (a : Issue) (w : BitVec 26) (s : State), ready a s →
    let n := a.folio.val
    let c := a.ctx.val
    let rd := fRD w.toNat
    let ra := fRA w.toNat
    let rb := fRB w.toNat
    (rd < 16 → ra < 16 → bits w.toNat 10 0 = 0 → Next (exec (.aadd a w) s) (fun t =>
      BitVec.ofNat 64 (t.ar n c rd) = BitVec.ofNat 64 (s.ar n c ra) + BitVec.signExtend 64 (sb a w s) ∧
      OnlyA n c rd (s.advance n c) t)) ∧
    Next (exec (.aaddi a w) s) (fun t =>
      BitVec.ofNat 64 (t.ar n c (rd % 16)) = BitVec.ofNat 64 (s.ar n c (ra % 16)) + BitVec.signExtend 64 (BitVec.ofNat 16 (fIMM w.toNat)) ∧
      OnlyA n c (rd % 16) (s.advance n c) t) ∧
    (rd < 16 → ra % 2 = 0 → rb = 0 → bits w.toNat 10 0 = 0 → Next (exec (.amov a w) s) (fun t =>
      t.ar n c rd = s.sr n c ra + s.sr n c (ra + 1) * 2 ^ 32 ∧ OnlyA n c rd (s.advance n c) t)) ∧
    (rd % 2 = 0 → ra < 16 → rb = 0 → bits w.toNat 10 0 = 0 → Next (exec (.smov a w) s) (fun t =>
      t.sr n c rd + t.sr n c (rd + 1) * 2 ^ 32 = s.ar n c ra ∧ OnlyS n c [rd, rd + 1] (s.advance n c) t)) ∧
    (rd < 4 → rb = 0 → bits w.toNat 10 0 = 0 → Next (exec (.lcset a w) s) (fun t =>
      t.lcr n c rd = s.sr n c ra ∧ OnlyLc n c rd (s.advance n c) t))

/-! ## Control -/

/-- Branches (R405, R435): BR jumps to TGT when its condition holds and falls through when not; JMP always jumps; CALL pushes the next
bundle's index on a stack of at most eight and jumps; RET pops it; LOOP lowers its counter and jumps while the counter is not
zero. -/
def Obligations.BranchesAndCalls : Prop :=
  ∀ (a : Issue) (w : BitVec 26) (s : State), ready a s →
    let n := a.folio.val
    let c := a.ctx.val
    let x := s.ctx n c
    let cond := bits w.toNat 25 23
    let p := BitVec.ofNat 32 (s.sr n c (bits w.toNat 22 18))
    let q := BitVec.ofNat 32 (s.sr n c (bits w.toNat 17 13))
    let holds := (cond = 0 ∧ p = q) ∨ (cond = 1 ∧ p ≠ q) ∨ (cond = 2 ∧ p.toInt < q.toInt) ∨ (cond = 3 ∧ ¬ p.toInt < q.toInt)
      ∨ (cond = 4 ∧ p.toNat < q.toNat) ∨ (cond = 5 ∧ ¬ p.toNat < q.toNat)
    (cond ≤ 5 → Next (exec (.br a w) s) (fun t => (holds → JumpsTo a s (fTGT w.toNat) t) ∧ (¬ holds → t = s.advance n c))) ∧
    (bits w.toNat 25 13 = 0 → Next (exec (.jmp a w) s) (JumpsTo a s (fTGT w.toNat))) ∧
    (bits w.toNat 25 13 = 0 → x.rstack.length < 8 → Next (exec (.call a w) s) (fun t =>
      t.ctx n c = { x with rstack := (x.pc + 1) :: x.rstack, pc := BitVec.ofNat 13 (fTGT w.toNat), wait := none } ∧
      OnlyCtx n c (s.advance n c) t)) ∧
    (∀ b bs, x.rstack = b :: bs → Next (exec (.ret a 0) s) (fun t =>
      t.ctx n c = { x with rstack := bs, pc := b, wait := none } ∧ OnlyCtx n c (s.advance n c) t)) ∧
    (bit w.toNat 25 = false → bits w.toNat 22 13 = 0 → Next (exec (.loop a w) s) (fun t =>
      let k := bits w.toNat 24 23
      let v := BitVec.ofNat 32 (s.lcr n c k) - 1
      t.lcr n c k = v.toNat ∧
      (∀ j : Fin 4, j.val ≠ k → t.lcr n c j.val = s.lcr n c j.val) ∧
      t.ctx n c = { x with pc := if v = 0 then x.pc + 1 else BitVec.ofNat 13 (fTGT w.toNat), wait := none } ∧
      t = { s.advance n c with lc := t.lc, ctxs := t.ctxs }))

/-- ISTORE and IFENCE (R406, R407): outside normal service ISTORE makes the bundle in s(RD) to s(RD + 3), lowest word first, pending
with four more bundles of its context to issue before it lands; in normal service it traps with SEQ_ISTORE. IFENCE leaves no store of
the folio pending, and the bundles of the pending stores are then in instruction memory, where no other byte changes. -/
def Obligations.InstructionStores : Prop :=
  ∀ (a : Issue) (w : BitVec 26) (s : State), ready a s →
    let n := a.folio.val
    let c := a.ctx.val
    let rd := fRD w.toNat
    let i := s.advance n c
    let pending := Sp.get (fun _ => []) i.istores n
    (fRA w.toNat = 0 → bits w.toNat 15 13 = 0 → s.mode n = 0 → exec (.istore a w) s = .next (s.takeTrap n c 0x11)) ∧
    (fRA w.toNat = 0 → bits w.toNat 15 13 = 0 → s.mode n ≠ 0 → rd % 4 = 0 → Next (exec (.istore a w) s) (fun t =>
      Sp.get (fun _ => []) t.istores n = pending ++
        [⟨c, BitVec.ofNat 13 (bits w.toNat 12 0), BitVec.ofNat 128 (s.sr n c rd + s.sr n c (rd + 1) * 2 ^ 32
          + s.sr n c (rd + 2) * 2 ^ 64 + s.sr n c (rd + 3) * 2 ^ 96), 4⟩] ∧
      t = { i with istores := t.istores })) ∧
    Next (exec (.ifence a 0) s) (fun t =>
      Sp.get (fun _ => []) t.istores n = [] ∧
      (∀ x ps, pending = ps ++ [x] → t.imem.load (131072 * n + 16 * x.index.toNat) 16 = x.bundle.toNat) ∧
      (∀ k, (∀ x ∈ pending, k < 131072 * n + 16 * x.index.toNat ∨ 131072 * n + 16 * x.index.toNat + 16 ≤ k) →
        t.imem.byte k = i.imem.byte k) ∧ t = { i with istores := t.istores, imem := t.imem })

/-- SDONE and YIELD (R414): SDONE ends the entry of a step, marking the folio's logical index in the step as ended, YIELD ends a
doorbell's; the context, with no entry left in its queue and no other context to choose, becomes IDLE (OFF when it is not enabled),
with no entry, no wait and an empty return stack. SDONE outside a step entry and YIELD inside one trap with SEQ_CTX. -/
def Obligations.EntriesEndWithSdoneAndYield : Prop :=
  ∀ (a : Issue) (s : State) (e : Entry), ready a s →
    let n := a.folio.val
    let c := a.ctx.val
    (s.ctx n c).entry = some e → (s.ctx n c).queue = [] →
    (∀ k : Fin 4, k.val ≠ c → (s.ctx n k.val).st ≠ .ready ∧ (s.ctx n k.val).st ≠ .suspended) →
    (e.step = true → exec (.yield a 0) s = .next (s.takeTrap n c 0x14)) ∧
    (e.step = false → exec (.sdone a 0) s = .next (s.takeTrap n c 0x14)) ∧
    (e.step = true → ∀ (k : Nat) (x : Step), s.logical n = some k → (s.str e.stream).step = some x →
      Next (exec (.sdone a 0) s) (fun t =>
        (t.str e.stream).step = some { x with ended := x.ended ||| 2 ^ k } ∧
        (t.ctx n c).st = (if s.ctxEn n c then .idle else .off) ∧ (t.ctx n c).entry = none ∧ (t.ctx n c).wait = none ∧
        (t.ctx n c).rstack = [] ∧ t.castOf n c = [] ∧ t = { s.advance n c with ctxs := t.ctxs, strm := t.strm, casts := t.casts })) ∧
    (e.step = false → Next (exec (.yield a 0) s) (fun t =>
      (t.ctx n c).st = (if s.ctxEn n c then .idle else .off) ∧ (t.ctx n c).entry = none ∧ (t.ctx n c).wait = none ∧
      (t.ctx n c).rstack = [] ∧ t.castOf n c = [] ∧ t = { s.advance n c with ctxs := t.ctxs, casts := t.casts }))

/-- Folio tags (R409 to R411): TOPEN takes a FREE tag of the context's range to OPEN, TCLOSE an OPEN one to CLOSED, TCANCEL an OPEN
or CLOSED one to CANCELLING; TWAIT takes the record of a DONE tag, which becomes FREE, and waits in its place otherwise; TPOLL gives
the oldest record of the context, whose tag becomes FREE, or all ones. -/
def Obligations.FolioTagOperations : Prop :=
  ∀ (a : Issue) (w : BitVec 26) (s : State) (lf : Nat), ready a s →
    let n := a.folio.val
    let c := a.ctx.val
    let k := fTAG w.toNat
    let x := s.ctx n c
    s.logical n = some lf →
    (k < 64 → s.dTaglo n c ≤ k → k < s.dTaglo n c + s.dTagn n c → bits w.toNat 18 16 = 0 →
      (fLIM w.toNat = 0 → (s.tag lf k).st = .free → Next (exec (.topen a w) s) (fun t =>
        t.tag lf k = { st := .opened, ctx := c, status := 0, owner := x.owner } ∧ t = { s.advance n c with tags := t.tags })) ∧
      (fLIM w.toNat = 0 → (s.tag lf k).st = .opened → Next (exec (.tclose a w) s) (fun t =>
        t.tag lf k = { s.tag lf k with st := .closed, ctx := c } ∧ t = { s.advance n c with tags := t.tags })) ∧
      (fLIM w.toNat = 0 → ((s.tag lf k).st = .opened ∨ (s.tag lf k).st = .closed) → Next (exec (.tcancel a w) s) (fun t =>
        t.tag lf k = { s.tag lf k with st := .cancelling, ctx := c } ∧ t.sreg = s.sreg ∧ t.fm = s.fm ∧ t.vat = s.vat)) ∧
      ((s.mode n = 0 → fLIM w.toNat ≠ 0) → (s.tag lf k).st = .done → Next (exec (.twait a w) s) (fun t =>
        (t.tag lf k).st = .free ∧ (t.ctx n c).doneQ = x.doneQ.filter (fun r => bits r.toNat 12 0 != folioTag lf k) ∧
        t = { s.advance n c with ctxs := t.ctxs, tags := t.tags })) ∧
      ((s.mode n = 0 → fLIM w.toNat ≠ 0) → (s.tag lf k).st = .closed → Next (exec (.twait a w) s) (fun t =>
        t.ctx n c = { x with wait := some (if fLIM w.toNat = 0 then .tagFree else .tag) } ∧ OnlyCtx n c s t))) ∧
    (fRA w.toNat = 0 → fRB w.toNat = 0 → bits w.toNat 10 0 = 0 → Next (exec (.tpoll a w) s) (fun t =>
      (x.doneQ = [] → t.sr n c (fRD w.toNat) = 0xFFFFFFFF ∧ OnlyS n c [fRD w.toNat] (s.advance n c) t) ∧
      (∀ r rs, x.doneQ = r :: rs → t.sr n c (fRD w.toNat) = r.toNat ∧
        (t.tag lf (bits r.toNat 12 0 % 64)).st = .free ∧
        (t.ctx n c).doneQ = x.doneQ.filter (fun q => bits q.toNat 12 0 != folioTag lf (bits r.toNat 12 0 % 64)) ∧
        t = { s.advance n c with ctxs := t.ctxs, tags := t.tags, sreg := t.sreg })))

/-! ## Engine bundles -/

namespace Sys2Proof.Claims

/-- The engine slot of ENOP beside the scalar slot of an opcode and its operand bits (R427, R437). -/
def enopWith (opc : Nat) (w : BitVec 26) : Eng := ⟨0, false, 0, 0, 0, BitVec.ofNat 32 (opc * 2 ^ 26 + w.toNat)⟩
/-- The state in which an engine bundle has issued and its scalar slot has acted. -/
def issued (a : Issue) (e : Eng) (s : State) : State :=
  (scalarSlot true a.folio.val a.ctx.val e.sc s).run (s.advance a.folio.val a.ctx.val)
/-- A bundle of an engine instruction issues: both slots break no rule and wait for nothing. -/
def EngineIssues (op : Nat → Nat → Eng → State → SlotOp) (a : Issue) (e : Eng) (s : State) : Prop :=
  ready a s ∧ (op a.folio.val a.ctx.val e s).clear ∧ (scalarSlot true a.folio.val a.ctx.val e.sc s).clear
/-- A bundle of a resumable instruction issues and, in this command, comes to its end (R644): no tile of the context is due to run
again and no debug halt waits for it. -/
def LongIssues (op : Nat → Nat → Eng → State → Long) (a : Issue) (e : Eng) (s : State) : Prop :=
  ready a s ∧ (op a.folio.val a.ctx.val e s).clear ∧ (scalarSlot true a.folio.val a.ctx.val e.sc s).clear ∧ a.cut = 0 ∧
    (s.ctx a.folio.val a.ctx.val).due = none ∧ (s.ctx a.folio.val a.ctx.val).halting = false
/-- The bundle completes: from the issued bundle the instruction leads to a state with `post`, then the release of R439 and the
scalar slot act. -/
def Completes (r : Res) (a : Issue) (e : Eng) (s : State) (post : State → Prop) : Prop :=
  ∃ t, r = .next ((scalarSlot true a.folio.val a.ctx.val e.sc s).run (t.relEng a.folio.val a.ctx.val e)) ∧ post t
/-- The bundle completes, of an instruction whose reads outlast its issue, so that the release of R439 is not made here. -/
def CompletesKeep (r : Res) (a : Issue) (e : Eng) (s : State) (post : State → Prop) : Prop :=
  ∃ t, r = .next ((scalarSlot true a.folio.val a.ctx.val e.sc s).run t) ∧ post t
/-- Every context is as it was. -/
def SameCtxs (s t : State) : Prop := ∀ (m : Fin 50) (k : Fin 4), t.ctx m.val k.val = s.ctx m.val k.val
/-- A resumable bundle completes: the scalar slot acts as it issues, then the instruction leads to a state with `post` in which every
context is as the issued bundle left it, then the release of R439 acts. -/
def CompletesLong (r : Res) (a : Issue) (e : Eng) (s : State) (post : State → Prop) : Prop :=
  ∃ t, r = .next (t.relEng a.folio.val a.ctx.val e) ∧ post t ∧ SameCtxs (issued a e s) t
/-- `t` is `u` but for how the contexts are held. -/
def SameBut (u t : State) : Prop := t = { u with ctxs := t.ctxs }
/-- Only `len` bytes of the folio memories from key `lo` may differ. -/
def KeepsFm (lo len : Nat) (s t : State) : Prop := t = { s with fm := t.fm, ctxs := t.ctxs } ∧ SameOutside lo len s.fm t.fm
/-- Only `len` bytes of the vat from address `lo` may differ. -/
def KeepsVat (lo len : Nat) (s t : State) : Prop := t = { s with vat := t.vat, ctxs := t.ctxs } ∧ SameOutside lo len s.vat t.vat

end Sys2Proof.Claims

/-- A bundle with ENOP in its engine slot is its scalar slot (R427 to R429, R437): beside ENOP every scalar opcode acts as its command,
and the bundle issues and runs its scalar slot. A non-zero bit of the engine slot traps with FLD_RESERVED, a reserved engine opcode
with OPC_RESERVED (R430, R442). -/
def Obligations.EnopBundleIsItsScalarSlot : Prop :=
  ∀ (a : Issue) (s : State),
    let n := a.folio.val
    let c := a.ctx.val
    let empty := fun (e : Eng) => e.tag = 0 ∧ e.rel = false ∧ e.rstrm = 0 ∧ e.ac = 0 ∧ e.ops = 0
    (∀ e, ready a s → empty e → bits e.sc.toNat 31 26 ≠ 0x30 → (scalarSlot false n c e.sc s).clear →
      exec (.enop a ⟨0, e⟩) s = .next ((scalarSlot false n c e.sc s).run (s.advance n c))) ∧
    (∀ w : BitVec 26, ∀ p ∈ ([(0x00, .nop), (0x01, .add), (0x02, .sub), (0x03, .and), (0x04, .or), (0x05, .xor), (0x06, .shl),
        (0x07, .shr), (0x08, .sra), (0x09, .mul), (0x0A, .slt), (0x0B, .sltu), (0x10, .addi), (0x11, .andi), (0x12, .ori), (0x13, .lui),
        (0x14, .shli), (0x15, .shri), (0x16, .srai), (0x18, .ldw), (0x19, .stw), (0x1A, .ldp), (0x1B, .stp), (0x1C, .lda), (0x1D, .sta),
        (0x1E, .aadd), (0x1F, .aaddi), (0x20, .amov), (0x21, .smov), (0x22, .lcset), (0x28, .br), (0x29, .jmp), (0x2A, .call),
        (0x2B, .ret), (0x2C, .loop), (0x2D, .ifence), (0x2E, .sdone), (0x2F, .yield), (0x30, .resume), (0x31, .istore), (0x34, .topen),
        (0x35, .tclose), (0x36, .tcancel), (0x37, .twait), (0x38, .tpoll)] : List (Nat × (Issue → BitVec 26 → Instr))),
      exec (.enop a ⟨0, enopWith p.1 w⟩) s = exec (p.2 a w) s) ∧
    (∀ e, mayIssue a s → ¬ empty e → lowestTrap (scalarSlot false n c e.sc s).traps = none →
      exec (.enop a ⟨0, e⟩) s = .next (s.takeTrap n c 0x02)) ∧
    (∀ (opc : BitVec 8) e, mayIssue a s → listedOpc opc.toNat = false → exec (.enop a ⟨opc, e⟩) s = .next (s.takeTrap n c 0x01))

/-- The memory operations (R352, R353), each with the scalar slot of its bundle already acted: FMFILL and VTFILL write their pattern,
the copies write what their source held before, also where both ranges overlap, and every byte outside the destination stays. -/
def Obligations.MemoryOperations : Prop :=
  ∀ (a : Issue) (e : Eng) (s : State),
    let n := a.folio.val
    let c := a.ctx.val
    let d := s.ar n c (e.op 60 57)
    let x := s.ar n c (e.op 56 53)
    let len := s.sr n c (e.op 52 48)
    let i := issued a e s
    let fmD := i.fmKey n c (addrOf d)
    let fmX := i.fmKey n c (addrOf x)
    let vtD := i.sigBase (vatHandle d) + vatOff d
    let vtX := i.sigBase (vatHandle x) + vatOff x
    let obD := obKey n (obArr d) (obOff d)
    let obX := obKey n (obArr x) (obOff x)
    (LongIssues opFmfill a e s → CompletesLong (exec (.fmfill a e) s) a e s (fun t =>
      t.fm.bytes fmD len = fillBytes (s.srPair n c (e.op 47 43)) len ∧ KeepsFm fmD len i t)) ∧
    (LongIssues opFmcopy a e s → CompletesLong (exec (.fmcopy a e) s) a e s (fun t =>
      t.fm.bytes fmD len = i.fm.bytes fmX len ∧ KeepsFm fmD len i t)) ∧
    (LongIssues opObld a e s → CompletesLong (exec (.obld a e) s) a e s (fun t =>
      t.ob.bytes obD len = i.fm.bytes fmX len ∧ SameOutside obD len i.ob t.ob ∧ t = { i with ob := t.ob, ctxs := t.ctxs })) ∧
    (LongIssues opObst a e s → CompletesLong (exec (.obst a e) s) a e s (fun t =>
      t.fm.bytes fmD len = i.ob.bytes obX len ∧ KeepsFm fmD len i t)) ∧
    (LongIssues opVtfill a e s → CompletesLong (exec (.vtfill a e) s) a e s (fun t =>
      t.vat.bytes vtD len = fillBytes (s.srPair n c (e.op 47 43)) len ∧ KeepsVat vtD len i t)) ∧
    (LongIssues opVtcopy a e s → CompletesLong (exec (.vtcopy a e) s) a e s (fun t =>
      t.vat.bytes vtD len = i.vat.bytes vtX len ∧ KeepsVat vtD len i t)) ∧
    (LongIssues opVtld a e s → CompletesLong (exec (.vtld a e) s) a e s (fun t =>
      t.fm.bytes fmD len = i.vat.bytes vtX len ∧ KeepsFm fmD len i t)) ∧
    (LongIssues opVtst a e s → CompletesLong (exec (.vtst a e) s) a e s (fun t =>
      t.vat.bytes vtD len = i.fm.bytes fmX len ∧ KeepsVat vtD len i t))

/-! ## Vector engine -/

namespace Sys2Proof.Claims

/-- Vector register `v` of the bundle's folio holds `f j` in the lanes of the mask and keeps the others; no other register differs. -/
def LanesSet (a : Issue) (s : State) (v m : Nat) (f : Nat → Nat) (t : State) : Prop :=
  (∀ j : Fin 64, t.lane a.folio.val v j.val = if bit m j.val then f j.val else s.lane a.folio.val v j.val) ∧
  (∀ (k : Fin 50) (w : Fin 32) (j : Fin 64), ¬(k.val = a.folio.val ∧ w.val = v) → t.lane k.val w.val j.val = s.lane k.val w.val j.val)
/-- The flags `fl` are held against the instruction's work tag in the engine's field (R75), and no other tag's. -/
def HoldsFlags (a : Issue) (e : Eng) (s : State) (field : Nat) (fl : List Fl) (t : State) : Prop :=
  let key := 8192 * a.folio.val + s.engTag a.folio.val a.ctx.val e
  Sp.get (fun _ => 0) t.heldFlags key = Sp.get (fun _ => 0) s.heldFlags key ||| (Fl.join fl).nat * 2 ^ (4 * field) ∧
  ∀ k, k ≠ key → Sp.get (fun _ => 0) t.heldFlags k = Sp.get (fun _ => 0) s.heldFlags k
/-- The mask of the instruction, the lanes of its registers, its format and its rounding. -/
def vmask (a : Issue) (e : Eng) (s : State) : Nat := s.vm a.folio.val (vMASK e)
def va (a : Issue) (e : Eng) (s : State) (j : Nat) : Nat := s.lane a.folio.val (vVA e) j
def vb (a : Issue) (e : Eng) (s : State) (j : Nat) : Nat := s.lane a.folio.val (vVB e) j
def vc (a : Issue) (e : Eng) (s : State) (j : Nat) : Nat := s.lane a.folio.val (vVC e) j
def vfmt (e : Eng) (s : State) : Fmt := fmtOf s.level e.fmt
/-- A lane's value in the instruction's format. -/
def val (e : Eng) (s : State) (x : Nat) : FV := (vfmt e s).read e.strict (elem (vfmt e s) x)
/-- An integer vector instruction: s(VD) lane by lane, no flag, nothing else. -/
def IntResult (op : Nat → Nat → Eng → State → SlotOp) (mk : Issue → Eng → Instr) (a : Issue) (e : Eng) (s : State) (f : Nat → Nat) : Prop :=
  EngineIssues op a e s → Completes (exec (mk a e) s) a e s (fun t =>
    LanesSet a s (vVD e) (vmask a e s) f t ∧ t = { s.advance a.folio.val a.ctx.val with vreg := t.vreg })
/-- A floating-point vector instruction: each lane of the mask is one rounding of its exact result, and the flags of those lanes are
held. -/
def FpResult (op : Nat → Nat → Eng → State → SlotOp) (mk : Issue → Eng → Instr) (a : Issue) (e : Eng) (s : State) (f : Nat → FV × Bool) : Prop :=
  EngineIssues op a e s → Completes (exec (mk a e) s) a e s (fun t =>
    LanesSet a s (vVD e) (vmask a e s) (fun j => (fuse (vfmt e s) (cvtOf e 0) (f j)).1 % 2 ^ 32) t ∧
    HoldsFlags a e s fieldVEC ((List.range 64).map (fun j => if bit (vmask a e s) j then (fuse (vfmt e s) (cvtOf e 0) (f j)).2 else {})) t ∧
    t = { s.advance a.folio.val a.ctx.val with vreg := t.vreg, heldFlags := t.heldFlags })

end Sys2Proof.Claims

/-- Integer instructions and moves (R241, R244, R245): results modulo 2^32 in the lanes of the mask, no flag. -/
def Obligations.VectorIntegerOperations : Prop :=
  ∀ (a : Issue) (e : Eng) (s : State),
    let x := fun j => BitVec.ofNat 32 (va a e s j)
    let y := fun j => BitVec.ofNat 32 (vb a e s j)
    IntResult opViadd .viadd a e s (fun j => (x j + y j).toNat) ∧
    IntResult opVisub .visub a e s (fun j => (x j - y j).toNat) ∧
    IntResult opVimul .vimul a e s (fun j => (x j * y j).toNat) ∧
    IntResult opVand .vand a e s (fun j => (x j &&& y j).toNat) ∧
    IntResult opVor .vor a e s (fun j => (x j ||| y j).toNat) ∧
    IntResult opVxor .vxor a e s (fun j => (x j ^^^ y j).toNat) ∧
    IntResult opVshl .vshl a e s (fun j => (x j <<< ((y j).toNat % 32)).toNat) ∧
    IntResult opVshrl .vshrl a e s (fun j => (x j >>> ((y j).toNat % 32)).toNat) ∧
    IntResult opVshra .vshra a e s (fun j => ((x j).sshiftRight ((y j).toNat % 32)).toNat) ∧
    IntResult opVimax .vimax a e s (fun j => (if (x j).toInt < (y j).toInt then y j else x j).toNat) ∧
    IntResult opVimin .vimin a e s (fun j => (if (y j).toInt < (x j).toInt then y j else x j).toNat) ∧
    IntResult opViota .viota a e s id ∧
    IntResult opVmov .vmov a e s (va a e s) ∧
    IntResult opVperm .vperm a e s (fun j => va a e s (vc a e s j % 64)) ∧
    IntResult opVperm2 .vperm2 a e s (fun j => if vc a e s j % 128 < 64 then va a e s (vc a e s j % 128) else vb a e s (vc a e s j % 128 - 64)) ∧
    IntResult opVshuf .vshuf a e s (fun j => match vSUB e with
      | 0 => va a e s (63 - j)
      | 1 => va a e s ((j + vIMM e) % 64)
      | 2 => if j % 2 = 0 then va a e s (j / 2) else vb a e s (j / 2)
      | 3 => if j % 2 = 0 then va a e s (32 + j / 2) else vb a e s (32 + j / 2)
      | 4 => if j < 32 then va a e s (2 * j) else vb a e s (2 * (j - 32))
      | 5 => if j < 32 then va a e s (2 * j + 1) else vb a e s (2 * (j - 32) + 1)
      | 6 => va a e s ((j ^^^ vIMM e) % 64)
      | _ => va a e s (vIMM e))

/-- Floating-point arithmetic (R240): the exact sum, difference, product, fused product-sum, maximum or minimum of each lane, rounded
once to the instruction's format, with its flags held against the work tag (R75). VABS, VNEG and VSEL move bits (R240): the
sign cleared, the sign inverted, one of two registers by a mask; no flag. -/
def Obligations.VectorFloatingPointOperations : Prop :=
  ∀ (a : Issue) (e : Eng) (s : State),
    let x := fun j => val e s (va a e s j)
    let y := fun j => val e s (vb a e s j)
    let z := fun j => val e s (vc a e s j)
    let r := Rnd.ofCode e.rnd
    FpResult opVadd .vadd a e s (fun j => sumFV r [x j, y j]) ∧
    FpResult opVsub .vsub a e s (fun j => sumFV r [x j, (y j).flip]) ∧
    FpResult opVmul .vmul a e s (fun j => mulFV (x j) (y j)) ∧
    FpResult opVfma .vfma a e s (fun j => fmaFV r (x j) (y j) (z j)) ∧
    FpResult opVmax .vmax a e s (fun j => maxFV (x j) (y j)) ∧
    FpResult opVmin .vmin a e s (fun j => minFV (x j) (y j)) ∧
    IntResult opVabs .vabs a e s (fun j => va a e s j % 2 ^ (vfmt e s).bits % 2 ^ ((vfmt e s).bits - 1)) ∧
    IntResult opVneg .vneg a e s (fun j => va a e s j % 2 ^ (vfmt e s).bits ^^^ 2 ^ ((vfmt e s).bits - 1)) ∧
    IntResult opVsel .vsel a e s (fun j => (if bit (s.vm a.folio.val (vCMK e)) j then va a e s j else vb a e s j) % 2 ^ (vfmt e s).bits)

/-- VCMP and VICMP write a mask register (R238, R240, R241): bit j is the comparison where the instruction's mask is set; elsewhere VCMP
writes 0 and VICMP keeps the bit. VCMP holds NV where a comparison is invalid, VICMP no flag. -/
def Obligations.VectorCompares : Prop :=
  ∀ (a : Issue) (e : Eng) (s : State),
    let n := a.folio.val
    let others := fun (t : State) => ∀ (k : Fin 50) (q : Fin 4), ¬(k.val = n ∧ q.val = vCMK e) → t.vm k.val q.val = s.vm k.val q.val
    (EngineIssues opVcmp a e s → Completes (exec (.vcmp a e) s) a e s (fun t =>
      (∀ j : Fin 64, bit (t.vm n (vCMK e)) j.val =
        (bit (vmask a e s) j.val && (cmpFV (vSUB e) (val e s (va a e s j.val)) (val e s (vb a e s j.val))).1)) ∧ others t ∧
      HoldsFlags a e s fieldVEC [{ nv := (List.range 64).any (fun j =>
        bit (vmask a e s) j && (cmpFV (vSUB e) (val e s (va a e s j)) (val e s (vb a e s j))).2) }] t ∧
      t = { s.advance n a.ctx.val with vmask := t.vmask, heldFlags := t.heldFlags })) ∧
    (EngineIssues opVicmp a e s → Completes (exec (.vicmp a e) s) a e s (fun t =>
      (∀ j : Fin 64, bit (t.vm n (vCMK e)) j.val =
        if bit (vmask a e s) j.val then icmp (vSUB e) (BitVec.ofNat 32 (va a e s j.val)) (BitVec.ofNat 32 (vb a e s j.val))
        else bit (s.vm n (vCMK e)) j.val) ∧ others t ∧
      t = { s.advance n a.ctx.val with vmask := t.vmask }))

namespace Sys2Proof.Claims

/-- The source format of a conversion (none for INT32), its destination, and the conversion of element k at index base IB (R269). -/
def cvSrc (e : Eng) (s : State) : Option Fmt := if vSINT e then none else some (fmtOf s.level (vSFMT e))
def cvAt (a : Issue) (e : Eng) (s : State) (k : Nat) : Cvt :=
  cvtOf e (if e.stoch then s.srBits a.folio.val a.ctx.val (s.ibBase a.folio.val a.ctx.val (vIB e) + k) else 0)

end Sys2Proof.Claims

/-- Conversions (R242, R246, R269): VCVT converts each lane, VPACK packs 128 elements of two registers (a lane whose mask bit is 0 keeps its
element), VUNPACK unpacks half of a register, widening it exactly where asked. -/
def Obligations.VectorConversions : Prop :=
  ∀ (a : Issue) (e : Eng) (s : State),
    let n := a.folio.val
    let frame := fun (t : State) => t = { s.advance n a.ctx.val with vreg := t.vreg, heldFlags := t.heldFlags }
    (EngineIssues opVcvt a e s → Completes (exec (.vcvt a e) s) a e s (fun t =>
      let r := fun j => cvtElem (cvSrc e s) (if vDINT e then none else some (vfmt e s)) (cvAt a e s j) (va a e s j)
      LanesSet a s (vVD e) (vmask a e s) (fun j => (r j).1 % 2 ^ 32) t ∧
      HoldsFlags a e s fieldVEC ((List.range 64).map (fun j => if bit (vmask a e s) j then (r j).2 else {})) t ∧ frame t)) ∧
    (EngineIssues opVpack a e s → Completes (exec (.vpack a e) s) a e s (fun t =>
      let w := (vfmt e s).bits
      let r := fun k => cvtElem (cvSrc e s) (some (vfmt e s)) (cvAt a e s k) (if k < 64 then va a e s k else vb a e s (k - 64))
      (∀ k : Fin 128, packed w (t.lane n (vVD e)) k.val =
        if bit (vmask a e s) (k.val % 64) then (r k.val).1 % 2 ^ w else packed w (s.lane n (vVD e)) k.val) ∧
      (∀ (m : Fin 50) (v : Fin 32) (j : Fin 64), ¬(m.val = n ∧ v.val = vVD e) → t.lane m.val v.val j.val = s.lane m.val v.val j.val) ∧
      HoldsFlags a e s fieldVEC ((List.range 128).map (fun k => if bit (vmask a e s) (k % 64) then (r k).2 else {})) t ∧ frame t)) ∧
    (EngineIssues opVunpack a e s → Completes (exec (.vunpack a e) s) a e s (fun t =>
      let r := fun j =>
        let x := packed (vfmt e s).bits (va a e s) (64 * e.op 21 21 + j)
        if e.opb 22 then widen (vfmt e s) x else (x, {})
      LanesSet a s (vVD e) (vmask a e s) (fun j => (r j).1 % 2 ^ 32) t ∧
      HoldsFlags a e s fieldVEC ((List.range 64).map (fun j => if bit (vmask a e s) j then (r j).2 else {})) t ∧ frame t))

/-- Vector loads and stores (R247, R248): lane j is at address + j × stride × element size. VLD writes the lanes of its mask (in form P8
the lanes from 32 on with zero); VST stores the lanes of its mask and leaves every byte that no lane is stored to. -/
def Obligations.VectorLoadsAndStores : Prop :=
  ∀ (a : Issue) (e : Eng) (s : State),
    let n := a.folio.val
    let c := a.ctx.val
    let f := e.op 46 44
    let m := s.vm n (e.op 43 42)
    let at' := fun j => s.fmKey n c (vlAddr f (addrOf (s.ar n c (e.op 55 52))) (sx 32 (s.sr n c (e.op 51 47))) j).toNat
    (EngineIssues opVld a e s → Completes (exec (.vld a e) s) a e s (fun t =>
      LanesSet a s (e.op 60 56) m (fun j => if f = 4 ∧ 32 ≤ j then 0 else s.fm.load (at' j) (formLane f)) t ∧
      t = { s.advance n c with vreg := t.vreg })) ∧
    (EngineIssues opVst a e s → Completes (exec (.vst a e) s) a e s (fun t =>
      (∀ j ∈ formLanes f m, t.fm.load (at' j) (formLane f) = s.lane n (e.op 60 56) j % 256 ^ formLane f) ∧
      (∀ k, (∀ j ∈ formLanes f m, k < at' j ∨ at' j + formLane f ≤ k) → t.fm.byte k = s.fm.byte k) ∧
      t = { s.advance n c with fm := t.fm }))

/-- Statistics and argmax files (R228, R250, R251, R645): VSSQ, VMV and VAMAX update the records of the lanes of their mask and keep the
others, VSCLR and VACLR reset every record, and VSTRED, VSTST and VAMRED write their record to folio memory or to the send slot. -/
def Obligations.StatisticsAndArgmaxFiles : Prop :=
  ∀ (a : Issue) (e : Eng) (s : State),
    let n := a.folio.val
    let c := a.ctx.val
    let i := s.advance n c
    let k := e.op 55 55
    let m := s.vm n (e.op 54 53)
    let x := fun j => elem (vfmt e s) (s.lane n (e.op 60 56) j)
    let rec8 := fun (bs : List Byte) (t : State) =>
      if e.opb 54 then t.slot n = some { ctx := c, tag := s.engTag n c e, bytes := bs } ∧ t.fm = i.fm
      else t.fm.bytes (s.fmKey n c (addrOf (s.ar n c (e.op 53 50)))) bs.length = bs ∧
        SameOutside (s.fmKey n c (addrOf (s.ar n c (e.op 53 50)))) bs.length i.fm t.fm ∧ t.slots = i.slots
    let frame := fun (t : State) => t = { i with slots := t.slots, fm := t.fm, heldFlags := t.heldFlags }
    (EngineIssues opVssq a e s → Completes (exec (.vssq a e) s) a e s (fun t =>
      (∀ j : Fin 64, t.sfRec n k j.val = if bit m j.val then (ssqUpdate (s.sfRec n k j.val) ((vfmt e s).read false (x j.val))).1
        else s.sfRec n k j.val) ∧ t.sfK n k = 1 ∧ t = { i with sf := t.sf, sfKind := t.sfKind, heldFlags := t.heldFlags })) ∧
    (EngineIssues opVmv a e s → Completes (exec (.vmv a e) s) a e s (fun t =>
      (∀ j : Fin 64, t.sfRec n k j.val = if bit m j.val then (mvUpdate (s.sfRec n k j.val) ((vfmt e s).read false (x j.val))).1
        else s.sfRec n k j.val) ∧ t.sfK n k = 2 ∧ t = { i with sf := t.sf, sfKind := t.sfKind, heldFlags := t.heldFlags })) ∧
    (EngineIssues opVsclr a e s → Completes (exec (.vsclr a e) s) a e s (fun t =>
      (∀ j : Fin 64, t.sfRec n k j.val = ⟨0, 0, 0⟩) ∧ t.sfK n k = 0 ∧ t = { i with sf := t.sf, sfKind := t.sfKind })) ∧
    (EngineIssues opVamax a e s → Completes (exec (.vamax a e) s) a e s (fun t =>
      (∀ j : Fin 64, t.amRec n k j.val =
        (let v := scoreCode (vfmt e s) (x j.val)
         let ix := (s.sr n c (e.op 52 48) + j.val) % 2 ^ 32
         if bit m j.val && better v ix (s.amRec n k j.val) then ⟨v, ix⟩ else s.amRec n k j.val)) ∧
      t = { i with am := t.am, heldFlags := t.heldFlags })) ∧
    (EngineIssues opVaclr a e s → Completes (exec (.vaclr a e) s) a e s (fun t =>
      (∀ j : Fin 64, t.amRec n k j.val = ⟨0xFF800000, 0xFFFFFFFF⟩) ∧ t = { i with am := t.am })) ∧
    (EngineIssues opVstred a e s → Completes (exec (.vstred a e) s) a e s (fun t =>
      rec8 (((laneTree (fun (p q : StatRec × Fl) =>
          let r := if s.sfK n k == 1 then combineSsq p.1 q.1 else combineMv p.1 q.1
          (r.1, (p.2.or q.2).or r.2)) 6 (s.sfRecs n k)).headD (StatRec.empty, {})).1.bytes (s.sfK n k == 1)) t ∧ frame t)) ∧
    (EngineIssues opVstst a e s → Completes (exec (.vstst a e) s) a e s (fun t =>
      rec8 ((List.range 64).flatMap (fun j => (s.sfRec n k j).bytes (s.sfK n k == 1))) t ∧ frame t)) ∧
    (EngineIssues opVamred a e s → Completes (exec (.vamred a e) s) a e s (fun t =>
      rec8 ((laneTree combineArg 6 ((List.range 64).map (s.amRec n k))).headD ArgRec.empty).bytes t ∧ frame t))

/-! ## Culture generator -/

/-- jump(st, n) equals n applications of step to st (R264), for every index of 48 bits and every odd or even increment. -/
def Obligations.RngJumpIsRepeatedStep : Prop :=
  ∀ (c st : BitVec 64) (n : Nat), n < 2 ^ 48 → rngJump c st n = (fun x => 0x9e6c63d0676a9a95 * x + c)^[n] st

/-- RSET, RSTART and RGEN (R266, R270, R271): RSET writes seed and key and keeps the run state; RSTART places it at its base; RGEN draws
index base + j in lane j, in run mode base + j × 2^40 + t, and advances t by one whatever the mask. U32 writes the draw itself, BERN
compares it with its threshold into a mask register. -/
def Obligations.GeneratorInstructions : Prop :=
  ∀ (a : Issue) (e : Eng) (s : State),
    let n := a.folio.val
    let c := a.ctx.val
    let i := s.advance n c
    let g := s.gen n c
    let run := e.opb 55
    let base := s.srPair n c (e.op 48 44) % 2 ^ 48
    let x := fun j => (draw g.seed g.key (if run then g.base + j * 2 ^ 40 + g.t else base + j)).toNat
    let m := s.vm n (e.op 52 51)
    let stepped := fun (t : State) => t.gen n c = if run then { g with t := g.t + 1 } else g
    let others := fun (t : State) => ∀ (p : Fin 50) (q : Fin 4), ¬(p.val = n ∧ q.val = c) → t.gen p.val q.val = s.gen p.val q.val
    (EngineIssues opRset a e s → Completes (exec (.rset a e) s) a e s (fun t =>
      t.gen n c = { g with seed := BitVec.ofNat 64 (s.srPair n c (e.op 60 56)), key := BitVec.ofNat 32 (s.sr n c (e.op 55 51)), set := true } ∧
      others t ∧ t = { i with gens := t.gens })) ∧
    (EngineIssues opRstart a e s → Completes (exec (.rstart a e) s) a e s (fun t =>
      t.gen n c = { g with started := true, base := s.srPair n c (e.op 60 56) % 2 ^ 48, t := 0 } ∧
      others t ∧ t = { i with gens := t.gens })) ∧
    (EngineIssues opRgen a e s → Completes (exec (.rgen a e) s) a e s (fun t =>
      (e.op 54 53 ≠ 3 → LanesSet a s (e.op 60 56) m (fun j => rngForm (e.op 54 53) (x j) % 2 ^ 32) t ∧ t.vmask = i.vmask) ∧
      (e.op 54 53 = 0 → ∀ j : Fin 64, bit m j.val = true → t.lane n (e.op 60 56) j.val = x j.val) ∧
      (e.op 54 53 = 3 → (∀ j : Fin 64, bit (t.vm n (e.op 50 49)) j.val =
        if bit m j.val then decide (x j.val < s.sr n c (e.op 43 39)) else bit (s.vm n (e.op 50 49)) j.val) ∧ t.vreg = i.vreg) ∧
      stepped t ∧ others t ∧ t = { i with gens := t.gens, vreg := t.vreg, vmask := t.vmask }))

/-! ## Special functions, softmax, zero runs -/

/-- SFN and FNLOAD (R204, R208, R210, R212, R215, R235): SFN writes the function's value of each lane below N of its mask, by the
program or descriptor that its index names, and holds the flags of those lanes; a NaN gives the canonical NaN, and the sigmoid and
the hyperbolic tangent give the values of R208 at infinities. FNLOAD copies its entries from folio memory into the function store,
whose VALID and UTAB bits of FOLIO_SFU_STORE then say what the store holds, keeps its other bits, and changes no other register. -/
def Obligations.SpecialFunctionsAndFunctionStore : Prop :=
  ∀ (a : Issue) (e : Eng) (s : State),
    let n := a.folio.val
    let c := a.ctx.val
    let i := s.advance n c
    let fin := fmtOf s.level (e.op 38 35)
    let out := fmtOf s.level e.fmt
    let fn := e.op 48 39
    let m := s.vm n (e.op 50 49) % 2 ^ e.op 34 28
    let x := fun j => fin.read false (elem fin (s.lane n (e.op 55 51) j))
    let r := fun j => fnEval s.level (e.opb 27) (s.fstore n) fn (x j) out
      (cvtOf e (if e.stoch then s.srBits n c (s.ibBase n c (e.op 26 23) + j) else 0))
    (EngineIssues opSfn a e s → Completes (exec (.sfn a e) s) a e s (fun t =>
      LanesSet a s (e.op 60 56) m (fun j => (r j).1 % 2 ^ 32) t ∧
      HoldsFlags a e s fieldSFU ((List.range 64).map (fun j => if bit m j then (r j).2 else {})) t ∧
      (∀ j : Fin 64, bit m j.val = true → (x j.val).isNan = true → t.lane n (e.op 60 56) j.val = out.qnan) ∧
      (∀ j : Fin 64, bit m j.val = true → fn = 0 → x j.val = .inf true → t.lane n (e.op 60 56) j.val = 0) ∧
      (∀ (j : Fin 64) (neg : Bool), bit m j.val = true → fn = 1 → x j.val = .inf neg →
        out.decode (t.lane n (e.op 60 56) j.val) = .fin neg 1) ∧
      t = { i with vreg := t.vreg, heldFlags := t.heldFlags })) ∧
    (EngineIssues opFnload a e s → Completes (exec (.fnload a e) s) a e s (fun t =>
      let lo := 4096 * n + 32 * e.op 56 50
      let len := 32 * e.op 49 42
      t.fns.bytes lo len = s.fm.bytes (s.fmKey n c (addrOf (s.ar n c (e.op 60 57)))) len ∧ SameOutside lo len s.fns t.fns ∧
      (∀ j : Fin 15, t.rbit (FOLIO_SFU_STORE n) j.val = bit (t.fns.load (4096 * n + 32 * j.val + 6) 2) 15) ∧
      t.rbit (FOLIO_SFU_STORE n) 16 = (t.fns.byte (4096 * n + 0x1E5) == 1 || t.fns.byte (4096 * n + 0x1E5) == 2) ∧
      (∀ j, j = 15 ∨ 16 < j → t.rbit (FOLIO_SFU_STORE n) j = s.rbit (FOLIO_SFU_STORE n) j) ∧
      (∀ k, k ≠ FOLIO_SFU_STORE n → t.reg k = s.reg k) ∧ t = { i with fns := t.fns, regs := t.regs }))

/-- The softmax unit (R220, R221, R233): SXCLR clears the lane sums and SROW of its folio; SXACC adds the weight of each lane below N
of its mask to that lane's sum; SXRED leaves the sum of the 64 lanes, added in six levels of neighbours, in SROW, and the first five
levels' sums in the lane sums of R221, and with COLL also hands SROW to the spine; SXDIV divides each lane's weight by SROW. -/
def Obligations.SoftmaxUnit : Prop :=
  ∀ (a : Issue) (e : Eng) (s : State),
    let n := a.folio.val
    let c := a.ctx.val
    let i := s.advance n c
    let others := fun (t : State) => ∀ k : Fin 50, k.val ≠ n → t.srowOf k.val = s.srowOf k.val ∧
      ∀ j : Fin 64, t.saOf k.val j.val = s.saOf k.val j.val
    let frame := fun (t : State) => t = { i with sa := t.sa, srow := t.srow, saTag := t.saTag, heldFlags := t.heldFlags,
                                                 contribs := t.contribs }
    let owner := fun (x : Option Nat) (t : State) => Sp.get (fun _ => none) t.saTag n = x
    (EngineIssues opSxclr a e s → Completes (exec (.sxclr a e) s) a e s (fun t =>
      (∀ j : Fin 64, t.saOf n j.val = FV.pzero) ∧ t.srowOf n = FV.pzero ∧ owner none t ∧ others t ∧ frame t ∧ t.contribs = s.contribs)) ∧
    (EngineIssues opSxacc a e s → Completes (exec (.sxacc a e) s) a e s (fun t =>
      let m := s.vm n (e.op 55 54) % 2 ^ e.op 53 47
      let w := fun j => expw ((fmtOf s.level e.fmt).read false (elem (fmtOf s.level e.fmt) (s.lane n (e.op 60 56) j)))
      (∀ j : Fin 64, t.saOf n j.val =
        if bit m j.val then (roundsum (sumFV .ne [s.saOf n j.val, (w j.val).1]).1).1 else s.saOf n j.val) ∧
      t.srow = s.srow ∧ owner (some (s.engTag n c e)) t ∧ others t ∧ frame t ∧ t.contribs = s.contribs)) ∧
    (EngineIssues opSxred a e s → Completes (exec (.sxred a e) s) a e s (fun t =>
      let l := (List.range 64).map (fun j => (s.saOf n j, ({} : Fl)))
      let r := ((laneTree sumAdd 6 l).headD (FV.pzero, {})).1
      t.srowOf n = r ∧ others t ∧ owner (some (s.engTag n c e)) t ∧ frame t ∧
      (∀ j : Fin 64, t.saOf n j.val =
        (((sxLevels 6 l).filter (fun p => p.1 == j.val)).getLast?.map (fun p => p.2)).getD (s.saOf n j.val)) ∧
      (e.opb 60 = false → t.contribs = s.contribs) ∧
      (e.opb 60 = true → t.contrib n = s.contrib n ++
        [{ op := opSXRED, fmt := 0, rop := 0, count := 1, stag := e.op 59 50, scope := false, dest := 0, ctx := c,
           bytes := toBytes 8 (sumCode r), field := fieldSFU }]))) ∧
    (EngineIssues opSxdiv a e s → Completes (exec (.sxdiv a e) s) a e s (fun t =>
      let m := s.vm n (e.op 50 49) % 2 ^ e.op 48 42
      let fin := fmtOf s.level (e.op 41 38)
      let w := fun j => expw (fin.read false (elem fin (s.lane n (e.op 55 51) j)))
      let q := fun j => fuse (fmtOf s.level e.fmt) (cvtOf e (if e.stoch then s.srBits n c (s.ibBase n c (e.op 36 33) + j) else 0))
        (divFV (w j).1 (s.srowOf n))
      LanesSet a s (e.op 60 56) m (fun j => (q j).1 % 2 ^ 32) t ∧
      HoldsFlags a e s fieldSFU ((List.range 64).map (fun j => if bit m j then (w j).2.or (q j).2 else {})) t ∧
      t = { i with vreg := t.vreg, heldFlags := t.heldFlags }))

namespace Sys2Proof.Claims

/-- The zero-run code of a list of groups, each a number of zero elements and the bytes of its literals, with `es` bytes to an
element (R255): the header N, Z, the literals, and the pad byte of an odd number of INT8 literals. -/
def zeroRunCode (es : Nat) : List (Nat × List Byte) → List Byte
  | [] => []
  | g :: gs => [BitVec.ofNat 8 (g.2.length / es), BitVec.ofNat 8 g.1] ++ g.2
      ++ (if es = 1 ∧ g.2.length % 2 = 1 then [0] else []) ++ zeroRunCode es gs
/-- What the groups decode to. -/
def zeroRunBytes (es : Nat) (gs : List (Nat × List Byte)) : List Byte :=
  gs.flatMap (fun g => List.replicate (g.1 * es) 0 ++ g.2)
/-- A group that R255 allows: both counts below 256 and not both zero, whole elements. -/
def groupOk (es : Nat) (g : Nat × List Byte) : Prop :=
  g.1 < 256 ∧ g.2.length % es = 0 ∧ g.2.length / es < 256 ∧ (g.1 ≠ 0 ∨ g.2 ≠ [])

end Sys2Proof.Claims

/-- VZRD decodes (R255): the zero-run code of any groups that make E elements, followed by zero bytes up to its even length B, is
written as their zeros and literals, and every other byte of the folio memories stays. -/
def Obligations.ZeroRunCodesDecode : Prop :=
  ∀ (a : Issue) (e : Eng) (s : State) (gs : List (Nat × List Byte)) (p : Nat),
    let n := a.folio.val
    let c := a.ctx.val
    let es := if e.fmt = 4 then 1 else 2
    let E := s.sr n c (e.op 52 48)
    let B := s.sr n c (e.op 47 43)
    let i := issued a e s
    let d := i.fmKey n c (addrOf (s.ar n c (e.op 56 53)))
    LongIssues opVzrd a e s → i.zrdCode n c (s.ar n c (e.op 60 57)) B = zeroRunCode es gs ++ List.replicate p 0 → B % 2 = 0 →
    (∀ g ∈ gs, groupOk es g) → (zeroRunBytes es gs).length = E * es →
    CompletesLong (exec (.vzrd a e) s) a e s (fun t => t.fm.bytes d (E * es) = zeroRunBytes es gs ∧ KeepsFm d (E * es) i t)

/-! ## Landing zones, messages, moves -/

/-- LZPUT, LZCOPY and LPMSG (R348, R349, R384): LZPUT writes its granules at the tail of the folio's ring under credits taken; LZCOPY
copies ring granules from a position, or the payload of the step's burst, to folio memory, and FREE returns the credits of
the granules; LPMSG puts one message into a granule at the tail, or sends it to the seat of a remote zone. -/
def Obligations.LandingZoneOperations : Prop :=
  ∀ (a : Issue) (e : Eng) (s : State),
    let n := a.folio.val
    let c := a.ctx.val
    let i := issued a e s
    let z := vatHandle (s.ar n c (e.op 60 57))
    let gran := fun (r : Ring) (k : Nat) => i.sigBase r.zone.toNat + (r.start + k % r.size) * 256
    (∀ r, (s.logical n).bind (s.folioRing z) = some r → LongIssues opLzput a e s →
      CompletesLong (exec (.lzput a e) s) a e s (fun t =>
        let ng := e.op 52 44
        let key := ringKey z r.num.toNat
        t.credit key = i.credit key - ng ∧ t.tailOf key = (i.tailOf key + ng) % r.size ∧
        (∀ k, k < ng → t.vat.bytes (gran r (i.tailOf key + k)) 256 =
          i.fm.bytes (i.fmKey n c (addrOf (s.ar n c (e.op 56 53)) + 256 * k)) 256) ∧
        (∀ x, (∀ k, k < ng → x < gran r (i.tailOf key + k) ∨ gran r (i.tailOf key + k) + 256 ≤ x) → t.vat.byte x = i.vat.byte x) ∧
        t = { i with vat := t.vat, credits := t.credits, ringTail := t.ringTail, ctxs := t.ctxs })) ∧
    (e.opb 52 = true → ∀ r, s.ringAt z (e.op 27 18) = some r → LongIssues opLzcopy a e s →
      CompletesLong (exec (.lzcopy a e) s) a e s (fun t =>
        let ng := e.op 50 42
        let d := i.fmKey n c (addrOf (s.ar n c (e.op 56 53)))
        let key := ringKey z r.num.toNat
        t.fm.bytes d (256 * ng) = (List.range ng).flatMap (fun k => i.vat.bytes (gran r (e.op 41 28 + k)) 256) ∧
        SameOutside d (256 * ng) i.fm t.fm ∧
        (e.opb 51 = false → KeepsFm d (256 * ng) i t) ∧
        (e.opb 51 = true → t.headOf key = (i.headOf key + ng) % r.size ∧ t.credit key = min r.size (i.credit key + ng) ∧
          (∀ x, x ≠ key → t.headOf x = i.headOf x ∧ t.credit x = i.credit x) ∧
          let u := { i with fm := t.fm, ringHead := t.ringHead, credits := t.credits, ctxs := t.ctxs }
          t = if r.folio.isSome then u else u.sendSeat tyMSG r.seat.toNat (msgCredit z r.num.toNat ng)))) ∧
    (e.opb 52 = false → ∀ b, s.ctxBurst n c = some b → LongIssues opLzcopy a e s →
      CompletesLong (exec (.lzcopy a e) s) a e s (fun t =>
        let d := i.fmKey n c (addrOf (s.ar n c (e.op 56 53)))
        let p := i.burstPayload b
        t.fm.bytes d p.length = p ∧ KeepsFm d p.length i t)) ∧
    (EngineIssues opLpmsg a e s →
      let h := vatHandle (s.ar n c (e.op 56 53))
      let seat := e.op 43 34
      let len := e.op 52 44
      let bs := s.fm.bytes (s.fmKey n c (addrOf (s.ar n c (e.op 60 57)))) len
      Completes (exec (.lpmsg a e) s) a e s (fun t =>
        ((seat = 0x3FF ∨ seat = s.seat) → ∀ r, (s.logical n).bind (s.folioRing h) = some r →
          let key := ringKey h r.num.toNat
          t.credit key = s.credit key - 1 ∧ t.tailOf key = (s.tailOf key + 1) % r.size ∧
          t.vat.bytes (s.sigBase h + (r.start + s.tailOf key % r.size) * 256) len = bs ∧
          SameOutside (s.sigBase h + (r.start + s.tailOf key % r.size) * 256) len s.vat t.vat ∧
          t = { s.advance n c with vat := t.vat, credits := t.credits, ringTail := t.ringTail }) ∧
        (¬ (seat = 0x3FF ∨ seat = s.seat) → ∀ r, s.outRing seat h = some r →
          let key := remoteKey seat h r.num.toNat
          t = ((s.advance n c).setCredit key (s.credit key - 1)).sendLight n c seat (msgLight h r.num.toNat bs))))

/-- Moves and fetch streams (R366, R368, R377, R378, R380, R381): XFER enters one move in the mover of the folio's quire; XSTREAM opens
a fetch stream and issues its first tiles in order, as many as its ring is deep, each as a move to its own place in the ring; XREL
releases tiles, issues the tiles whose places are then free, and ends the stream with its last one. A tile whose place is free waits
only while the folio's queue of descriptors is full. A release of a cancelled stream is ignored. No memory changes as they issue. -/
def Obligations.MovesAndFetchStreams : Prop :=
  ∀ (a : Issue) (e : Eng) (s : State),
    let n := a.folio.val
    let c := a.ctx.val
    let q := n / 5
    let k := e.op 60 58
    let frame := fun (t : State) => (∀ p : Fin 10, p.val ≠ q → t.mover p.val = s.mover p.val) ∧
      (∀ j, j ≠ (4 * n + c) * 8 + k → Sp.get (fun _ => none) t.fetch j = Sp.get (fun _ => none) s.fetch j) ∧
      t = { s.advance n c with movers := t.movers, moveId := t.moveId, fetch := t.fetch }
    let move := fun (id tag : Nat) (src dst : MoveEnd) (len stripe : Nat) (o : MoveOwner) =>
      (⟨id, n, c, tag, src, dst, len, stripe, [], none, [], o, [], false⟩ : Move)
    let tiles := fun (f : Fetch) (lo hi : Nat) (t : State) =>
      t.moveId = s.moveId + (hi - lo) ∧ t.mover q = s.mover q ++ (List.range (hi - lo)).map (fun j =>
        move (s.moveId + j) f.tag (.hbm (f.base + (lo + j) * f.stride)) (f.ring.plus ((lo + j) % f.depth * f.tileBytes)) f.tileBytes 1
          (.tile k (lo + j) f.opened))
    (EngineIssues opXfer a e s → CompletesKeep (exec (.xfer a e) s) a e s (fun t =>
      t.mover q = s.mover q ++ [move s.moveId (s.engTag n c e) (s.endOf n c (e.op 56 55) (s.ar n c (e.op 60 57)))
        (s.endOf n c (e.op 50 49) (s.ar n c (e.op 54 51))) (s.sr n c (e.op 48 44)) (e.op 43 40)
        (.xfer (if e.rel then some e.rstrm.toNat else none))] ∧
      t.moveId = s.moveId + 1 ∧ t.fetch = s.fetch ∧ frame t)) ∧
    (EngineIssues opXstream a e s → Completes (exec (.xstream a e) s) a e s (fun t =>
      let f : Fetch := ⟨s.engTag n c e, hbmOf (s.ar n c (e.op 57 54)), s.sr n c (e.op 38 34), s.sr n c (e.op 48 44), s.sr n c (e.op 43 39),
        e.op 33 30, s.endOf n c (if e.opb 49 then 1 else 2) (s.ar n c (e.op 53 50)), 0, 0, [], s.moveId, false⟩
      frame t ∧ ∃ j, j ≤ min f.depth f.tiles ∧ t.fetchSt n c k = some { f with issued := j } ∧ tiles f 0 j t ∧
        (j < min f.depth f.tiles → t.queueRoom n = false))) ∧
    (∀ f, s.fetchSt n c k = some f → f.cancelled = false → EngineIssues opXrel a e s → Completes (exec (.xrel a e) s) a e s (fun t =>
      let r := f.released + e.op 57 49
      frame t ∧ ∃ j, f.issued ≤ j ∧ tiles f f.issued j t ∧
        (r = f.tiles → t.fetchSt n c k = none) ∧
        (r < f.tiles → t.fetchSt n c k = some { f with released := r, issued := j } ∧
          (j < min f.tiles (r + f.depth) → t.queueRoom n = false)))) ∧
    (∀ f, s.fetchSt n c k = some f → f.cancelled = true → EngineIssues opXrel a e s →
      Completes (exec (.xrel a e) s) a e s (fun t => t = s.advance n c))

/-- Multicast (R383): XMCAST waits, with nothing sent, until every folio that its mask names has posted an XMRECV of its key and
length; when the last has been posted, one move of the leader's mover takes all of those receives. An XMRECV posts its receive,
and starts the multicast that it was the last to wait for. -/
def Obligations.MulticastNeedsEveryReceive : Prop :=
  ∀ (a : Issue) (e : Eng) (s : State),
    let n := a.folio.val
    let c := a.ctx.val
    let i := s.advance n c
    let posted := fun (m : McLead) (k : Nat) (r : McRecv) (u : State) => r ∈ u.mrecvs ∧ r.folio = u.phys k ∧ r.key = m.key ∧ r.len = m.len
    let Starts := fun (m : McLead) (u t : State) => ∃ rs : List McRecv, rs.map McRecv.folio = (members m.mask).map u.phys ∧
      (∀ r ∈ rs, r ∈ u.mrecvs ∧ r.key = m.key ∧ r.len = m.len) ∧ t.mleads = [] ∧ t.mrecvs = rs.foldl (fun l r => l.erase r) u.mrecvs ∧
      t.mover (m.folio / 5) = s.mover (m.folio / 5) ++
        [⟨s.moveId, m.folio, m.ctx, m.tag, .hbm m.src, .fm 0, m.len, 1, [], none, [], .mcast, rs, false⟩] ∧
      (∀ q, q ≠ m.folio / 5 → t.mover q = s.mover q) ∧ t.moveId = s.moveId + 1 ∧
      t = { i with mleads := t.mleads, mrecvs := t.mrecvs, movers := t.movers, moveId := t.moveId }
    let Waits := fun (m : McLead) (u t : State) => t = { i with mleads := [m], mrecvs := u.mrecvs }
    let Acts := fun (m : McLead) (u t : State) => ((∀ k ∈ members m.mask, ∃ r, posted m k r u) → Starts m u t) ∧
      ((∃ k ∈ members m.mask, ∀ r, ¬ posted m k r u) → Waits m u t)
    (EngineIssues opXmcast a e s →
      let m : McLead := ⟨n, c, s.engTag n c e, e.op 46 31, s.sr n c (e.op 51 47), hbmOf (s.ar n c (e.op 60 57)), s.srPair n c (e.op 56 52)⟩
      Completes (exec (.xmcast a e) s) a e s (fun t =>
        t = { i with mleads := s.mleads ++ [m] }.startMcasts ∧ (s.mleads = [] → Acts m s t))) ∧
    (EngineIssues opXmrecv a e s →
      let r : McRecv := ⟨n, c, s.engTag n c e, e.op 51 36, s.sr n c (e.op 56 52), s.fmPhys n c (addrOf (s.ar n c (e.op 60 57)))⟩
      let u := { s with mrecvs := s.mrecvs ++ [r] }
      Completes (exec (.xmrecv a e) s) a e s (fun t =>
        t = { i with mrecvs := u.mrecvs }.startMcasts ∧ (s.mleads = [] → t = { i with mrecvs := u.mrecvs }) ∧
        (∀ m, s.mleads = [m] → Acts m u t)))

/-! ## Spine -/

namespace Sys2Proof.Claims

/-- A spine instruction hands its contribution over (R453, R460, R463, R464): the bytes of its count from the send slot where its
context's engine has filled it, else from folio memory; SPBAR, and SPBCAST on a folio other than p_0, hand over nothing but their
arrival. The contribution waits, and with SCOPE 0 nothing else changes. -/
def HandsOver (op : Nat) (mk : Issue → Eng → Instr) (a : Issue) (e : Eng) (s : State) : Prop :=
  let n := a.folio.val
  let c := a.ctx.val
  let i := s.advance n c
  let gives := op ≠ opSPBAR ∧ (op = opSPBCAST → s.isFirst n (pSTAG e) (pSCOPE e) = true)
  let len := spBytes op (fmtOf s.level e.fmt) (pROP e) (s.sr n c (pSCNT e)) (s.isFirst n (pSTAG e) (pSCOPE e))
  let x : Contrib := ⟨op, e.fmt, pROP e, s.sr n c (pSCNT e), pSTAG e, pSCOPE e, addrOf (s.ar n c (pDREG e)), c, [],
    if op = opSPCARRY then fieldSCAN else fieldVEC, [], 0, (s.ctx n c).owner⟩
  EngineIssues (opSpine op) a e s →
    (s.slot n = none → gives → Completes (exec (mk a e) s) a e s (fun t =>
      let y : Contrib := { x with bytes := s.fm.bytes (s.fmKey n c (addrOf (s.ar n c (pSREG e)))) len }
      t = i.handOver n y ∧ (pSCOPE e = false → t.contrib n = [y] ∧ t = { i with contribs := t.contribs }))) ∧
    (¬ gives → Completes (exec (mk a e) s) a e s (fun t =>
      t = i.handOver n { x with count := 0 } ∧
      (pSCOPE e = false → t.contrib n = [{ x with count := 0 }] ∧ t = { i with contribs := t.contribs }))) ∧
    (∀ z, s.slot n = some z → gives → Completes (exec (mk a e) s) a e s (fun t =>
      let y : Contrib := { x with bytes := i.padFree len z.bytes, record := z.record, key := z.key }
      t = ({ i with fresh := i.fresh + (len - z.bytes.length) }.setSlot n none).handOver n y ∧
      (pSCOPE e = false → len ≤ z.bytes.length → t.slot n = none ∧ t.contrib n = [{ y with bytes := z.bytes.take len }] ∧
        t = { i with contribs := t.contribs, slots := t.slots })))

end Sys2Proof.Claims

/-- The seven spine instructions hand their contributions over (R453, R463, R464). -/
def Obligations.SpineInstructionsHandOver : Prop :=
  ∀ (a : Issue) (e : Eng) (s : State),
    HandsOver opSPRED .spred a e s ∧ HandsOver opSPGATH .spgath a e s ∧ HandsOver opSPBCAST .spbcast a e s ∧
    HandsOver opSPSTAT .spstat a e s ∧ HandsOver opSPARG .sparg a e s ∧ HandsOver opSPBAR .spbar a e s ∧
    HandsOver opSPCARRY .spcarry a e s

/-- A collective of one device completes when every folio of its plane has handed over (R458, R460, R462, R464): the tree's result
reaches the destination of every folio, SXRED's its SROW, no contribution to its shared tag is left on the plane, and the plane
serves the next collective of its sequence. While a contribution is missing the collective does not complete. -/
def Obligations.CollectivesCompleteTogether : Prop :=
  ∀ (g : Fin 16) (hw : Hw) (s : State) (x : Coll) (q : Nat × Contrib) (ps : List (Nat × Contrib)),
    s.current g.val = some x → s.givers g.val x.stag.toNat = q :: ps →
    (s.allGiven g.val x.stag.toNat = false → ∃ w, exec (.collectiveComplete g hw) s = .fault w) ∧
    (s.allGiven g.val x.stag.toNat = true → hw = .ok → q.2.scope = false →
      Next (exec (.collectiveComplete g hw) s) (fun t =>
        let p := rootPart q.2 (treeParts q.2 ((q :: ps).map (fun y => leafPart y.2)))
        (q.2.op ∉ [opSXRED, opSPBAR, opSPCARRY] → (∀ y ∈ q :: ps, y.2.op = q.2.op) →
          t.fm = ((q :: ps).foldl (fun (m : State) y => m.deliver y.1 y.2 p.bytes) s).fm) ∧
        (q.2.op = opSXRED → (∀ y ∈ q :: ps, y.2.op = q.2.op) → t.fm = s.fm ∧
          ∀ y ∈ q :: ps, t.srowOf y.1 = sumValue (ofBytes p.bytes)) ∧
        (∀ k ∈ s.party g.val, ∀ y ∈ t.contrib (s.phys k), y.stag ≠ x.stag.toNat) ∧
        Sp.get (fun _ => 0) t.plane g.val = (Sp.get (fun _ => 0) s.plane g.val + 1) % max 1 (s.collSeq g.val).length ∧
        t.vat = s.vat ∧ t.hbm = s.hbm ∧ t.sreg = s.sreg))

/-! ## Dot products, arrays, matrix-vector path -/

/-- The window of R83 loses nothing for INT8, MXINT8 and E4M3, as which E3M2, E2M3 and E2M1 enter with their values kept (R54, R85): a
chunk of up to 16 finite terms sums to the exact sum of its products at its exponent offset, and no part is truncated. -/
def Obligations.EightBitChunksAreExact : Prop :=
  (∀ (f : Fmt) (sigma : Int) (ts : List (Nat × Nat)), f ∈ [Fmt.int8, .mxint8, .e4m3] → ts.length ≤ 16 →
    (∀ t ∈ ts, t.1 < 256 ∧ t.2 < 256 ∧ (∃ n q, f.decode t.1 = .fin n q) ∧ (∃ n q, f.decode t.2 = .fin n q)) →
    let v := chunkSum f sigma (ts.map (fun t => (f.sme t.1, f.sme t.2)))
    v.2 = false ∧ v.1.rat = (ts.map (fun t => (f.decode t.1).rat * (f.decode t.2).rat)).sum * pow2 sigma) ∧
  (∀ (f : Fmt) (w : Nat), f ∈ [Fmt.e3m2, .e2m3, .e2m1] → w < 2 ^ f.bits → Fmt.e4m3.decode (f.expand w) = f.decode w)

/-- ALOAD (R109, R125, R130) reads its weight tile into the shadow registers of its array, W alone for an 8- or 16-bit format, whose X
words stay; the active registers stay, but for FP64, which takes both halves at once. No other array and nothing else changes. For a
format of whole bytes the weight that the array then holds at row r and column j, once a swap has made it active, is the element j of
the row's bytes in the plane. -/
def Obligations.WeightTileLoads : Prop :=
  ∀ (a : Issue) (e : Eng) (s : State),
    let n := a.folio.val
    let c := a.ctx.val
    let k := e.op 60 59
    let f := fmtOf s.level e.fmt
    let x := s.ar n c (e.op 57 54)
    let w := s.readTile n c k (e.opb 58) e.fmt e.cplx (addrOf x) (strideOf x) (addrOf (s.ar n c (e.op 57 54 + 1))) 16 64
    let old := s.array n k
    EngineIssues opAload a e s → Completes (exec (.aload a e) s) a e s (fun t =>
      let new := t.array n k
      new = old.load w ∧ new.tiles = old.tiles ∧ (f ≠ .fp64 → new.act = old.act) ∧
      (f.bits ≤ 16 → new.shd.x = old.shd.x ∧ new.shd.xi = old.shd.xi) ∧
      (f.bits % 8 = 0 → f.narrow = false → e.cplx = false → ∀ (r : Fin 16) (j : Fin 64),
        (if f = .fp64 then new else new.swap).code f false r.val j.val =
          ofBytes (((s.opBytes n c k (e.opb 58) (addrOf x + r.val * strideOf x) (8 * f.bits)).drop (f.bits / 8 * j.val)).take (f.bits / 8))) ∧
      (∀ (m : Fin 50) (q : Fin 4), ¬(m.val = n ∧ q.val = k) → t.array m.val q.val = s.array m.val q.val) ∧
      t = { s.advance n c with arr := t.arr })

namespace Sys2Proof.Claims

/-- Rows 0 to k − 1 of a drain that completes each, in order (R114). -/
def drainRows (d : DotInstr) (n tag k : Nat) (t : State) : State :=
  (List.range k).foldl (fun t r => d.done n tag [d.attempt r 0 (d.operands r t)] t) t
/-- The ranges of the folio memories, as key and length, that an output row's conversion stores to (R48, R71, R225): `count` outputs from
column `col` of a row, their scale bytes, and the row's statistics. -/
def rowStores (n c : Nat) (e : Eng) (d : DotFields) (s : State) (row col count stat : Nat) : List (Nat × Nat) :=
  let o := s.dotFmt d
  let P := engParts e
  let a := s.ar n c d.dst
  let b := s.ar n c (d.dst + 1)
  (if d.dkind = dkFM then
    (s.fmKey n c (addrOf a + row * strideOf a + rowBytes o (col * P)), rowBytes o (outCount o (count * P))) ::
      (if o.isMx then [(s.fmKey n c (addrOf b + row * strideOf b + col * P / 32), (count * P + 31) / 32)] else []) else [])
  ++ (if e.rowstat = 0 then [] else [(s.fmKey n c (addrOf b + 8 * stat), 8)])
/-- Every byte of the folio memories outside the ranges is as it was. -/
def StoresOnly (l : List (Nat × Nat)) (s t : State) : Prop :=
  ∀ x, (∀ p ∈ l, x < p.1 ∨ p.1 + p.2 ≤ x) → t.fm.byte x = s.fm.byte x
/-- Context c stays inside a resumable instruction at unit `pos`, with a tile that is due to run again (R92, R644); beside that the
state is `u`. -/
def StaysDue (opc kind : Nat) (a : Issue) (e : Eng) (s : State) (pos : Nat) (x : DotTile) (u t : State) : Prop :=
  (t.ctx a.folio.val a.ctx.val).due = some x ∧
    (t.ctx a.folio.val a.ctx.val).inside =
      some { s.longRec a.folio.val a.ctx.val kind (BitVec.ofNat 128 (bundleOf opc e)).toNat with pos := pos } ∧ SameBut u t

end Sys2Proof.Claims

/-- ASTREAM (R92, R96, R114, R115, R126, R127): SWAP first makes the shadow tile active. In drain mode each row is a tile: while no
row is due to run again the rows complete in order, each converted and written before the next; at the first row that is due the
context stays inside the instruction. In accumulate mode the output tile of its first slot opens at FIRST, takes one chunk more, and
closes at LAST, whose rows are then converted and written; before LAST only the array and its accumulator file change. -/
def Obligations.ArrayStreams : Prop :=
  ∀ (a : Issue) (e : Eng) (s : State),
    let n := a.folio.val
    let c := a.ctx.val
    let k := e.op 60 59
    let i := issued a e s
    let t0 := if asSWAP e then i.swapArr n k else i
    let tag := s.engTag n c e
    let d := asDrain n c e s
    let rows := s.dotS n c (asFields e) 0
    let u := fun r => drainRows d n tag r t0
    let x := fun r => d.attempt r 0 (d.operands r (u r))
    let stores := fun m => (List.range m).flatMap (fun r => rowStores n c e (asFields e) s r 0 (asN e) r)
    let slot := asSlot s n c e
    LongIssues opAstream a e s →
      (asSWAP e = true → (t0.array n k).act = (i.array n k).shd) ∧
      (asMODE e = false → (∀ r < rows, (x r).due = false) → CompletesLong (exec (.astream a e) s) a e s (fun t =>
        SameBut (u rows) t ∧ t.array n k = t0.array n k ∧ t.vat = i.vat ∧ t.jobs = i.jobs ∧ StoresOnly (stores rows) i t)) ∧
      (asMODE e = false → ∀ r < rows, (∀ q < r, (x q).due = false) → (x r).due = true →
        Next (exec (.astream a e) s) (StaysDue 0x11 1 a e s (r + 1) (x r) (u r))) ∧
      (asMODE e = true → CompletesLong (exec (.astream a e) s) a e s (fun t =>
        SameBut ((List.range (asM e)).foldl (fun t r => asAccumRow n c e s r t) t0) t ∧
        (t.array n k).act = (t0.array n k).act ∧ (∀ r, r ≠ slot → (t.array n k).tileAt r = (t0.array n k).tileAt r) ∧
        (asLAST e = true → (t.array n k).tileAt slot = none ∧ t.vat = i.vat ∧ t.jobs = i.jobs ∧ StoresOnly (stores (asM e)) i t) ∧
        (asLAST e = false → (∃ x, (t.array n k).tileAt slot = some x ∧
            x.chunks = (if asFIRST e then 0 else (((t0.array n k).tileAt slot).map OpenTile.chunks).getD 0) + 1) ∧
          t = { i with arr := t.arr, accf := t.accf, ctxs := t.ctxs })))

/-- AFOLD (R92, R96, R122, R123, R126): it runs in units, one row of one pass of an output tile each. While no output tile is due to run
again its units follow one another, each output tile is converted and written with its last unit, and the array is left with the last
weight tile active and no open tile; at the first output tile that is due the context stays inside the instruction. -/
def Obligations.ArrayFolds : Prop :=
  ∀ (a : Issue) (e : Eng) (s : State),
    let n := a.folio.val
    let c := a.ctx.val
    let k := e.op 60 59
    let i := issued a e s
    let groups := (afN e + 63) / 64
    let total := groups * (afTilesK e * afM e)
    let v := fun j => (List.range j).foldl (fun t x => afUnit n c e s x t) i
    let stores := (List.range groups).flatMap (fun g => (List.range (afM e)).flatMap (fun r =>
      rowStores n c e (afFields e) s r (64 * g) (afCols e g) (g * afM e + r)))
    LongIssues opAfold a e s →
      ((∀ j ≤ total, ((v j).ctx n c).due = none) → CompletesLong (exec (.afold a e) s) a e s (fun t =>
        SameBut (v total) t ∧ (t.array n k).tiles = [] ∧ (t.array n k).act.fmt = some e.fmt ∧
        (fmtOf s.level e.fmt ≠ .fp64 → (t.array n k).act = (t.array n k).shd) ∧ (t.array n k).fold = [] ∧
        t.vat = i.vat ∧ t.jobs = i.jobs ∧ StoresOnly stores i t)) ∧
      (∀ j < total, ∀ x, (∀ q ≤ j, ((v q).ctx n c).due = none) → ((v (j + 1)).ctx n c).due = some x →
        Next (exec (.afold a e) s) (StaysDue 0x12 1 a e s (j + 1) x (v (j + 1))))

/-- OVERFLOW_RERUN (R92, R96, R98, R102, R147, R151): a row of the MVP, or the array tile that the running context is inside of, runs
again over the operands kept with its count raised by one, and the rerun is counted against the work tag. While a row of the oldest
MVMUL that is kept stays due, or the tile does, nothing else changes; when none does, the MVMUL completes with the results of its rows
and those behind it follow, or the tile is converted and written and its instruction goes on from its boundary or ends. Where nothing is
due there is nothing to rerun. A residue mismatch of the attempt fails the work of the tag (R140, R153). -/
def Obligations.OverflowRerunsRaiseTheCount : Prop :=
  ∀ (f : Fin 50) (s : State),
    let n := f.val
    let counted := fun (tag : Nat) (u : State) =>
      let o := Sp.get (fun _ => (0, 0)) s.heldOvr (8192 * n + tag)
      Sp.get (fun _ => (0, 0)) u.heldOvr (8192 * n + tag) = (o.1, o.2 + 1)
    (s.jobsOf n = [] → ∀ hw, ∃ w, exec (.overflowRerun ⟨f, true, hw⟩) s = .fault w) ∧
    (s.dueCtx n = none → ∀ hw, ∃ w, exec (.overflowRerun ⟨f, false, hw⟩) s = .fault w) ∧
    (∀ (j : DotJob) (js : List DotJob) (xs ys : List DotTile) (x : DotTile), s.jobsOf n = j :: js → j.tiles = xs ++ x :: ys → x.due = true →
      (∀ y ∈ xs, y.due = false) →
      let s1 := s.holdOvr n j.tag 0 1
      let y := (j.instr n s1).again x
      let ts := xs ++ y :: ys
      y.n = x.n + 1 ∧ y.idx = x.idx ∧ (y.due = true → y.kept = x.kept) ∧ counted j.tag s1 ∧
      (ts.any (fun z => z.due) = true →
        exec (.overflowRerun ⟨f, true, .ok⟩) s = .next (s1.setJobs n ({ j with tiles := ts } :: js))) ∧
      (ts.any (fun z => z.due) = false →
        exec (.overflowRerun ⟨f, true, .ok⟩) s = .next (((j.instr n s1).done n j.tag ts s1).settleMvp n js)) ∧
      (∀ u, exec (.overflowRerun ⟨f, true, .ok⟩) s = .next u →
        exec (.overflowRerun ⟨f, true, .residue⟩) s = .next (u.tagFault n j.tag MVP_RESIDUE))) ∧
    (∀ (c : Nat) (d : DotTile) (r : Resume) (o : DotInstr) (l : Long), s.dueCtx n = some (c, d, r) → (s.ctx n c).halting = false →
      let e := bundleEng r.bundle.toNat
      let tag := s.engTag n c e
      let s1 := s.holdOvr n tag 0 1
      let q := s1.withRegs n c r.sregs r.aregs
      let y := o.again d
      (bundleOpc r.bundle.toNat = 0x11 ∧ o = asDrain n c e q ∧ l = opAstream n c e q ∨
        bundleOpc r.bundle.toNat = 0x12 ∧ o = afInstr n c e q ∧ l = opAfold n c e q) →
      y.n = d.n + 1 ∧ y.idx = d.idx ∧ (y.due = true → y.kept = d.kept) ∧ counted tag s1 ∧
      (y.due = true → Next (exec (.overflowRerun ⟨f, false, .ok⟩) s) (fun t =>
        (t.ctx n c).due = some y ∧ (t.ctx n c).inside = some r ∧ SameBut s1 t)) ∧
      (y.due = false → Next (exec (.overflowRerun ⟨f, false, .ok⟩) s) (fun t =>
        let u := o.done n tag [y] s1
        (t.ctx n c).due = none ∧
        (r.pos < l.total s1 → (t.ctx n c).inside = some r ∧ SameBut u t) ∧
        (l.total s1 ≤ r.pos → (t.ctx n c).inside = none ∧ SameBut (u.relEng n c e) t))) ∧
      (∀ u, exec (.overflowRerun ⟨f, false, .ok⟩) s = .next u →
        exec (.overflowRerun ⟨f, false, .residue⟩) s = .next (u.tagFault n tag ARR_RESIDUE)))

/-- MVLD and MVMUL (R71, R147 to R151, R202): MVLD converts COUNT elements from folio memory or the spine's broadcast data and writes them to
its latch from element FIRST, an MX format in whole blocks with their scale bytes, records the format of the latch, and keeps the rest
of it, or with CLR clears it first. MVMUL, when no row is due to run again and no MVMUL waits before it, converts and writes one
result per weight row, else it is kept with its rows, its registers and its generator context, and writes nothing. -/
def Obligations.MatrixVectorPath : Prop :=
  ∀ (a : Issue) (e : Eng) (s : State),
    let n := a.folio.val
    let c := a.ctx.val
    let i := s.advance n c
    let l := e.op 60 60
    let f := fmtOf s.level e.fmt
    (EngineIssues opMvld a e s →
      let src := fmtOf s.level (e.op 25 22)
      let first := e.op 58 45
      let lo := first * engParts e
      let k := e.op 44 31 * engParts e
      let len := if f.isMx then (k + 31) / 32 * 32 else k
      let vs := if e.opb 30 then (unpackBytes src.bits k (s.fm.bytes (s.fmKey n c (addrOf (s.ar n c (e.op 29 26)))) (rowBytes src k))).map
          (src.read false)
        else (unpackBytes src.bits k ((s.castOf n c).drop (rowBytes src lo))).map (src.read false)
      let rs := (List.range k).map (fun j => if e.stoch then s.srBits n c (s.ibBase n c (e.op 21 18) + lo + j) else 0)
      let en := encodeRow f { rnd := Rnd.ofCode e.rnd } rs (k + 1) (vs.map (fun v => (roundw v).1))
      Completes (exec (.mvld a e) s) a e s (fun t =>
        t.latchF n l = some (e.fmt, e.cplx) ∧
        (∀ x < 8192, t.latchE n l x = if lo ≤ x ∧ x < lo + len then f.expand (en.1.getD (x - lo) 0) % 2 ^ 64
          else if e.opb 59 then 0 else s.latchE n l x) ∧
        (∀ b < 256, t.latchS n l b = if f.isMx ∧ first / 32 ≤ b ∧ b < first / 32 + len / 32 then en.2.1.getD (b - first / 32) 0 % 256
          else if e.opb 59 then 0x7F else s.latchS n l b) ∧
        (∀ (m : Fin 50) (q : Fin 2), ¬(m.val = n ∧ q.val = l) → t.latchF m.val q.val = s.latchF m.val q.val ∧
          (∀ x < 8192, t.latchE m.val q.val x = s.latchE m.val q.val x) ∧ (∀ b < 256, t.latchS m.val q.val b = s.latchS m.val q.val b)) ∧
        HoldsFlags a e s fieldMVP [en.2.2.1] t ∧
        t = { i with latchEl := t.latchEl, latchSc := t.latchSc, latchFmt := t.latchFmt, heldFlags := t.heldFlags })) ∧
    (EngineIssues opMvmul a e s →
      let tag := s.engTag n c e
      let u := i.spendToken n c
      let d := mvInstr n c e s
      let ts := (List.range (mvN e)).map (fun r => d.attempt r 0 (d.operands r u))
      let sat := (ts.filter (fun x => x.sat)).length
      let v := if sat = 0 then u else u.holdOvr n tag sat 0
      (s.tokenClass n c = none → u = i) ∧ (∀ k, s.tokenClass n c = some k → u = i.setTokens k (s.tokensOf k - 1)) ∧
      ((∀ x ∈ ts, x.due = false) → s.jobsOf n = [] → CompletesKeep (exec (.mvmul a e) s) a e s (fun t =>
        t = (s.outRow n c e (mvFields e) 4 tag (mvN e) v ⟨0, 0, 0, ts.flatMap (fun x => x.els e.strict)⟩).relEng n c e ∧
        t.jobs = s.jobs ∧ t.vat = s.vat ∧ t.latchEl = s.latchEl ∧
        StoresOnly (rowStores n c e (mvFields e) s 0 0 (mvN e) 0) s t)) ∧
      (((∃ x ∈ ts, x.due = true) ∨ s.jobsOf n ≠ []) → CompletesKeep (exec (.mvmul a e) s) a e s (fun t =>
        t.jobsOf n = s.jobsOf n ++ [⟨e, c, tag, s.sregs n c, s.aregs n c, s.gen n c, ts⟩] ∧
        (∀ m : Fin 50, m.val ≠ n → t.jobsOf m.val = s.jobsOf m.val) ∧ t = { u with jobs := t.jobs })))

/-! ## Gate pipeline -/

/-- GUPD and GPLOAD (R158, R160, R167, R168, R643): a GUPD enters the queue of its folio and expects P pre-activations for each unit and
streamed row, P as its class or, for class 0xF, its program says; those that waited for a GUPD reach it, and once it has them all it
runs. GPLOAD copies the 32 words of a valid program into its slot, whose status is then that of the program. -/
def Obligations.GateInstructions : Prop :=
  ∀ (a : Issue) (e : Eng) (s : State),
    let n := a.folio.val
    let c := a.ctx.val
    let i := s.advance n c
    let g : Gupd := ⟨e.op 60 57, e.op 56 47, e.op 46 45, e.op 44 34, e.op 33 23, e.op 22 17, e.op 16 6,
      (List.range 4).map (fun k => s.sr n c (2 * e.op 5 2 + k)), e.opb 1, e.rowstat, c, s.engTag n c e, []⟩
    (EngineIssues opGupd a e s → Completes (exec (.gupd a e) s) a e s (fun t =>
      t = ((i.setGates n (s.gates n ++ [g])).feedPend n).gateRun n ∧ s.gateNeeds n g ≠ 0 ∧
      (∀ p ∈ ([(0, 4), (1, 4), (2, 3), (3, 1), (4, 2), (15, progP (s.gateProg n g.pslot))] : List (Nat × Nat)), g.cls = p.1 →
        s.gateNeeds n g = p.2 * g.units * max 1 g.rows) ∧
      (Sp.get (fun _ => []) s.gatePend n = [] → (s.gates n).all (fun x => s.gateNeeds n x != 0) = true →
        t.gates n = s.gates n ++ [g] ∧ (∀ m : Fin 50, m.val ≠ n → t.gates m.val = s.gates m.val) ∧
        t = { i with gateQ := t.gateQ, gatePend := t.gatePend }))) ∧
    (EngineIssues opGpload a e s → Completes (exec (.gpload a e) s) a e s (fun t =>
      let slot := e.op 60 59
      let lo := 512 * n + 128 * slot
      let data := s.fm.bytes (s.fmKey n c (addrOf (s.ar n c (e.op 58 55)))) 128
      t.gps.bytes lo 128 = data ∧ SameOutside lo 128 s.gps t.gps ∧
      t.slotStatus n slot = some (progStatus ((List.range 32).map (fun j => ofBytes ((data.drop (4 * j)).take 4)))) ∧
      t = { i with gps := t.gps }))

/-- The four-gate class (R161, R163, R164): once its pre-activations are in and the send slot is free, each unit u of a one-row GUPD
leaves c' = fused(f × c + i × g) and h' = fused(o × tanh(c')) in the new slice, hands h' rounded to BF16 to the send slot in unit
order, and no word outside the new slice changes. -/
def Obligations.FourGateCellsCompute : Prop :=
  ∀ (n : Fin 50) (s : State) (g : Gupd) (gs : List Gupd),
    s.gates n.val = g :: gs → g.cls = 0 → g.rows ≤ 1 → 0 < g.units → g.units ≤ 512 → g.pre.length = 4 * g.units →
    s.slotBusy n.val = false →
    let t := s.gateRun n.val
    let fn := fun k w => fnEval s.level g.compat (s.fstore n.val) k (fp32 w) .fp32 {}
    let p := fun u k => g.pre.getD (4 * u + k) 0
    let c := fun u => s.gsb.load (gsbKey n.val g.old g.units 0 u) 4
    let c' := fun u => fused (addV (mulV (opnd (fn 0 (p u 1)).1) (opnd (c u))) (mulV (opnd (fn 0 (p u 0)).1) (opnd (fn 1 (p u 2)).1)))
    let h' := fun u => fused (mulV (opnd (fn 0 (p u 3)).1) (opnd (fn 1 (c' u).1).1))
    t.gates n.val = gs ∧
    (∀ u, u < g.units → t.gsb.load (gsbKey n.val g.new g.units 0 u) 4 = (h' u).1 % 2 ^ 32 ∧
      t.gsb.load (gsbKey n.val g.new g.units 1 u) 4 = (c' u).1 % 2 ^ 32) ∧
    (∀ x, (∀ u, u < g.units → ∀ k : Fin 2, x < gsbKey n.val g.new g.units k.val u ∨ gsbKey n.val g.new g.units k.val u + 4 ≤ x) →
      t.gsb.byte x = s.gsb.byte x) ∧
    (t.slot n.val).map Slot.bytes = some (packBytes 16 ((List.range g.units).map (fun u => (exch16 (h' u).1).1))) ∧
    t = { s with gateQ := t.gateQ, gsb := t.gsb, slots := t.slots, heldFlags := t.heldFlags, bad := t.bad }

/-! ## Sewing unit -/

namespace Sys2Proof.Claims

/-- The recurrence h[t + 1] = fused(a[t] × h[t] + b[t]) of R175 over T steps from h0, with the rounding of ROUNDH. -/
def recurrence (e : Eng) (A B : Nat → FV) (h0 T : Nat) : Nat :=
  (List.range T).foldl (fun h t =>
    let x := fusedS e.strict (addV (mulV (A t, false) (opndS e.strict h)) (B t, false))
    (if wROUNDH e then (round16 x.1).1 else x.1) % 2 ^ 32) h0

end Sys2Proof.Claims

/-- SSCAN and SSUMM (R174, R175, R182, R186): for every form the carry-in, T steps of every lane and the carry-out lead to the result. A
direct scan without pair from a zero or file carry leaves the recurrence of each lane's coefficients in the lane and, with carry-out
to the file, in the file, and writes no memory; an SSUMM to the send slot leaves each lane's product and its scan from zero. -/
def Obligations.ScansAndSummaries : Prop :=
  ∀ (a : Issue) (e : Eng) (s : State),
    let n := a.folio.val
    let c := a.ctx.val
    let i := issued a e s
    let T := s.sr n c (wTREG e)
    let E := wE e
    let A := fun k t => i.elemAt n c (addrOf (s.blockA n c e 0)) (ifmt e) e.strict (t * E + k)
    let B := fun k t => i.elemAt n c (addrOf (s.blockA n c e 1)) (ifmt e) e.strict (t * E + k)
    (LongIssues opSscan a e s → CompletesLong (exec (.sscan a e) s) a e s (fun t =>
      SameBut (carryOut n c e s (stepsFrom (fun k m => scanAll n c e s k m) 0 T (carryIn n c e s i))) t ∧
      (wMODE e = false → wPREC e = false → wHOUT e = 0 → wCIN e ≤ 1 → wCOUT e ≤ 1 →
        (∀ k, k < E → t.laneH n k = recurrence e (A k) (B k) (if wCIN e = 0 then 0 else i.fileH n k) T) ∧
        (wCOUT e = 1 → ∀ k, k < E → t.fileH n k = t.laneH n k) ∧ (wCOUT e = 0 → t.carryf = i.carryf) ∧
        t = { i with sew := t.sew, carryf := t.carryf, heldFlags := t.heldFlags, ctxs := t.ctxs }))) ∧
    (LongIssues opSsumm a e s → CompletesLong (exec (.ssumm a e) s) a e s (fun t =>
      SameBut (summOut n c e s (stepsFrom (fun k m => summAll n c e s k m) 0 T
        ((List.range E).foldl (fun m k => m.setLane n k 0x3F800000 0) i))) t ∧
      (wMODE e = false → ∀ k, k < E → t.laneH n k =
        (List.range T).foldl (fun p j => (fusedS e.strict (mulV (A k j, false) (opndS e.strict p))).1 % 2 ^ 32) 0x3F800000 ∧
        t.laneL n k =
        (List.range T).foldl (fun l j => (fusedS e.strict (addV (mulV (A k j, false) (opndS e.strict l)) (B k j, false))).1 % 2 ^ 32) 0) ∧
      (wCOUT e = 3 → (t.slot n).map Slot.bytes = some ((List.range E).flatMap (fun k => toBytes 4 (t.laneH n k))
          ++ (List.range E).flatMap (fun k => toBytes 4 (t.laneL n k))) ∧
        t = { i with sew := t.sew, heldFlags := t.heldFlags, slots := t.slots, ctxs := t.ctxs })))

/-- SCONV (R191, R192): each output y[t, d] is one rounding of the bias and the K products of its channel, as the sources read before
the instruction where the output plane lies apart from every source plane, and without HIST nothing outside the output plane
changes. -/
def Obligations.ConvolutionsCompute : Prop :=
  ∀ (a : Issue) (e : Eng) (s : State),
    let n := a.folio.val
    let c := a.ctx.val
    let i := issued a e s
    let T := s.sr n c (vcTREG e)
    let C := vcC e
    let t0 := if vcPAD e = 2 then vcK e - 1 else 0
    let w := if vcOFMT e = 1 then 2 else 4
    let wi := (ifmt e).bits / 8
    let y := i.fmKey n c (addrOf (s.convA n c e 3))
    let src := fun k => i.fmKey n c (addrOf (s.convA n c e k))
    let apart := fun (lo len : Nat) => lo + len ≤ y ∨ y + w * ((T - t0) * C) ≤ lo
    LongIssues opSconv a e s → vcHIST e = false →
    apart (src 0) (T * C * wi) → apart (src 1) (4 * vcK e * C) → apart (src 2) (4 * C) →
    (vcPAD e = 0 → apart (src 4) ((vcK e - 1) * C * wi)) →
    CompletesLong (exec (.sconv a e) s) a e s (fun t =>
      (∀ k d, t0 ≤ k → k < T → d < C → t.fm.load (y + w * ((k - t0) * C + d)) w = (convOut n c e s k d i).1 % 256 ^ w) ∧
      SameOutside y (w * ((T - t0) * C)) i.fm t.fm ∧ t = { i with fm := t.fm, heldFlags := t.heldFlags, ctxs := t.ctxs })

/-- SCONV with HIST (R192): the new history plane holds the last K − 1 inputs, oldest first, as they read once the outputs are written. -/
def Obligations.ConvolutionsKeepTheirHistory : Prop :=
  ∀ (a : Issue) (e : Eng) (s : State),
    let n := a.folio.val
    let c := a.ctx.val
    let i := issued a e s
    let T := s.sr n c (vcTREG e)
    let C := vcC e
    let K := vcK e
    let w := (ifmt e).bits / 8
    let h := i.fmKey n c (addrOf (s.convA n c e 5))
    let total := (T + 63) / 64 * ((C + 255) / 256)
    LongIssues opSconv a e s → vcHIST e = true →
    CompletesLong (exec (.sconv a e) s) a e s (fun t =>
      let m := stepsFrom (fun u m => convUnit n c e s u m) 0 total i
      (∀ k d, k < K - 1 → d < C → t.fm.load (h + w * (k * C + d)) w = convIn n c e s ((T : Int) - (K - 1 : Nat) + k) d m % 256 ^ w) ∧
      SameOutside h (w * ((K - 1) * C)) m.fm t.fm ∧ t = { i with fm := t.fm, heldFlags := t.heldFlags, ctxs := t.ctxs })

/-- CARRY_PASS (R183): the oldest carry on its way to a folio enters its inbox, which holds four. -/
def Obligations.CarriesEnterInboxesInOrder : Prop :=
  ∀ (n : Fin 50) (s : State) (lf : Nat), s.logical n.val = some lf →
    (∀ x xs, Sp.get (fun _ => []) s.carries lf = x :: xs → (s.inboxOf n.val).length < 4 → Next (exec (.carryPass n) s) (fun t =>
      t.inboxOf n.val = s.inboxOf n.val ++ [x] ∧ Sp.get (fun _ => []) t.carries lf = xs ∧
      (∀ k, k ≠ n.val → t.inboxOf k = s.inboxOf k) ∧ (∀ k, k ≠ lf → Sp.get (fun _ => []) t.carries k = Sp.get (fun _ => []) s.carries k) ∧
      t = { s with inbox := t.inbox, carries := t.carries })) ∧
    (4 ≤ (s.inboxOf n.val).length ∨ Sp.get (fun _ => []) s.carries lf = [] → ∃ w, exec (.carryPass n) s = .fault w)

/-! ## Interrupted instructions, traps, checks, the sequencer's events -/

/-- A suspended instruction continues exactly (R416, R418, R419, R644). The resume record holds the whole bundle; a memory operation done
up to a unit boundary and then from there on leaves the state that doing it whole leaves, also where a copy's ranges overlap; one that is
cut stays at such a boundary, where a raised interrupt takes its context and makes the record valid; RESUME runs the rest of the recorded
instruction with the registers as its issue read them, and without a valid record traps with SEQ_RESUME. -/
def Obligations.InterruptedInstructionsContinueExactly : Prop :=
  let memOps : List (Nat × (Nat → Nat → Eng → State → Long) × (Issue → Eng → Instr)) :=
    [(0x90, opFmfill, .fmfill), (0x91, opFmcopy, .fmcopy), (0x92, opObld, .obld), (0x93, opObst, .obst),
     (0x94, opVtfill, .vtfill), (0x95, opVtcopy, .vtcopy), (0x96, opVtld, .vtld), (0x97, opVtst, .vtst)]
  (∀ (opc : Nat) (e : Eng), opc < 256 →
    bundleOpc (BitVec.ofNat 128 (bundleOf opc e)).toNat = opc ∧ bundleEng (BitVec.ofNat 128 (bundleOf opc e)).toNat = e) ∧
  (∀ (n : Fin 50) (c : Fin 4) (e : Eng) (s t : State) (lo hi : Nat), ∀ p ∈ memOps,
    let l := p.2.1 n.val c.val e s
    l.clear → t.regs = s.regs → t.memWf = true → lo ≤ hi → hi < l.total t →
    l.part hi (l.total t) (l.part lo hi t).2 = l.part lo (l.total t) t) ∧
  (∀ (a : Issue) (e : Eng) (s : State), ∀ p ∈ memOps,
    let n := a.folio.val
    let c := a.ctx.val
    let i := issued a e s
    let l := p.2.1 n c e s
    ready a s → l.clear → (scalarSlot true n c e.sc s).clear → (s.ctx n c).due = none → (s.ctx n c).halting = false →
    a.cut ≠ 0 → a.cut < l.total i → Next (exec (p.2.2 a e) s) (fun t =>
      (t.ctx n c).st = .running ∧
      (t.ctx n c).inside = some { bundle := BitVec.ofNat 128 (bundleOf p.1 e), pc := (s.ctx n c).pc, kind := 4, valid := false, pos := a.cut,
                                  sregs := s.sregs n c, aregs := s.aregs n c, save := [] } ∧
      SameBut (l.part 0 a.cut i).2 t)) ∧
  (∀ (n : Fin 50) (c : Fin 4) (s : State) (k : Nat) (r : Resume) (fclk : BitVec 9), s.running n.val = some c.val →
    s.raised n.val c.val = some k → (s.ctx n.val k).queue ≠ [] → (s.ctx n.val c.val).inside = some r → (s.ctx n.val c.val).due = none →
    Next (exec (.interruptTaken n fclk) s) (fun t => (t.ctx n.val k).st = .running ∧ t.fm = s.fm ∧
      let rec' : Resume := { r with valid := true, save := if r.kind = 2 then s.sewSave n.val else r.save }
      t.ctx n.val c.val = { s.ctx n.val c.val with st := .suspended, wait := none, inside := none, resume := rec' })) ∧
  (∀ (a : Issue) (s : State),
    let n := a.folio.val
    let c := a.ctx.val
    let x := s.ctx n c
    let r := x.resume
    x.st = .running → x.inside = none → s.raised n c = none →
    (r.valid = false → exec (.resume a 0) s = .next (s.takeTrap n c 0x13)) ∧
    (∀ op chk, r.valid = true → sound a s → a.cut = 0 → longOf (bundleOpc r.bundle.toNat) = some (op, chk) →
      let u := s.setCtx n c { x with resume := Resume.empty, wait := none }
      let v := if r.kind = 2 then u.sewLoad n r.save else u
      let l := op n c (bundleEng r.bundle.toNat) (v.withRegs n c r.sregs r.aregs)
      exec (.resume a 0) s = .next
        ((l.after n c { r with valid := false, save := [] } (l.total v) (l.part r.pos (l.total v) v)).haltDue n c)))

/-- Traps, waits and failed checks (R401, R422, R424, R430, R454, R25, R355, R356). An instruction of level 2 traps with OPC_RESERVED while
level 1 is accepted; a scalar operation with a reserved bit set traps with FLD_RESERVED. In debug mode a trap halts the context at its
bundle, with its entry kept: SEQ_TRAP records the first one, SEQ_CNT counts each, and nothing else differs. An LZPUT without
credits waits with nothing done. A residue mismatch, or a parity error of a merged read, leaves the engine's result as it is; a parity
error of a word that a vector instruction reads leaves every vector register. -/
def Obligations.TrapsWaitsAndFailedChecks : Prop :=
  ∀ (a : Issue) (s : State),
    let n := a.folio.val
    let c := a.ctx.val
    let x := s.ctx n c
    mayIssue a s →
    (∀ e : Eng, s.level < 2 → ∀ mk ∈ [Instr.fnload, .sxclr, .sxacc, .sxred, .sxdiv, .sscan, .ssumm, .sconv],
      exec (mk a e) s = .next (s.takeTrap n c 0x01)) ∧
    (∀ w : BitVec 26, w ≠ 0 → exec (.nop a w) s = .next (s.takeTrap n c 0x02)) ∧
    (∀ code < 256, s.mode n = 4 → (∀ k : Fin 4, k.val ≠ c → (s.ctx n k.val).st ≠ .ready ∧ (s.ctx n k.val).st ≠ .suspended) →
      let t := s.takeTrap n c code
      t.ctx n c = { x with st := .halted, wait := none } ∧ OnlyCtx n c { s with regs := t.regs, sideband := t.sideband } t ∧
      t.reg (SEQ_TRAP n) = (if s.rbit (SEQ_TRAP n) 31 then s.reg (SEQ_TRAP n) else 2 ^ 31 + c * 2 ^ 29 + code * 2 ^ 21 + x.pc.toNat) ∧
      t.fld (SEQ_CNT n) 15 0 = min (s.fld (SEQ_CNT n) 15 0 + 1) 0xFFFF ∧
      t.fld (SEQ_CNT n) 31 16 = s.fld (SEQ_CNT n) 31 16 ∧
      ∀ k, k ≠ SEQ_TRAP n → k ≠ SEQ_CNT n → t.reg k = s.reg k) ∧
    (∀ (e : Eng) (w : WaitK), lowestTrap (opLzput n c e s).traps = none → (opLzput n c e s).wait = some w →
      lowestTrap (scalarSlot true n c e.sc s).traps = none →
      Next (exec (.lzput a e) s) (fun t => t.ctx n c = { x with wait := some w } ∧ OnlyCtx n c s t)) ∧
    (∀ e : Eng, (opVadd n c e s).clear → (scalarSlot true n c e.sc s).clear →
      (∀ u t, exec (.vadd { a with hw := .ok } e) s = .next u → exec (.vadd { a with hw := .residue } e) s = .next t → t.vreg = u.vreg) ∧
      (∀ src addr u t, exec (.vadd { a with hw := .ok } e) s = .next u → exec (.vadd { a with hw := .merge src addr } e) s = .next t →
        t.vreg = u.vreg) ∧
      (∀ src addr, Next (exec (.vadd { a with hw := .parity src addr } e) s) (fun t => t.vreg = s.vreg)))

namespace Sys2Proof.Claims

/-- A port reaches a register word whose page the accepted level shows and whose domain is on (R580, R582, R583). -/
def PortOpen (p : Port) (addr : Nat) (s : State) : Prop :=
  (p = .jtag → s.rbit DEV_SEAL 1 = true) ∧ s.pageShown (addr / 4096) = true ∧ s.pageOn (addr / 4096) = true
/-- The work of the context is a step in flight that has not failed yet, as the stream table holds it. -/
def WorksOn (n c i : Nat) (x : Step) (s : State) : Prop :=
  (∃ e, (s.ctx n c).entry = some e ∧ e.step = true ∧ e.stream = i) ∧ (s.str i).step = some x
/-- A counted bound is missed: the step fails before release, the event enters the window of R559, and nothing else differs but the
fault log and the interrupt messages. -/
def BoundFails (ev : Instr) (n c code : Nat) (counts : Bool) (s : State) : Prop :=
  ∀ i x, WorksOn n c i x s → (counts = true → s.triggers n code 0 2 false = false) → Next (exec ev s) (fun t =>
    (t.str i).step = some { x with failed := true } ∧ (∀ j, j ≠ i → t.str j = s.str j) ∧
    t.events = (if counts then s.recent ++ [⟨n, code, 0, s.rclk⟩] else s.events) ∧
    t = { s with strm := t.strm, regs := t.regs, sideband := t.sideband, events := t.events, faultLow := t.faultLow })

end Sys2Proof.Claims

/-- Interrupts, doorbells, debug and lockstep (R92, R400, R413, R415, R422 to R424, R644). An interrupt suspends the running context where
it stands, with the record of the instruction it is inside of, and starts the oldest entry of the raised one at its ENTRY bundle; none is
taken while a tile is due to run again. A doorbell appends an entry that no step owns; in debug mode HALT halts a running context and GO
lets a halted one run on; a lockstep mismatch counts and leaves no context with work. -/
def Obligations.SequencerEvents : Prop :=
  ∀ (n : Fin 50) (c : Fin 4) (s : State),
    let x := s.ctx n.val c.val
    let alone := ∀ k : Fin 4, k ≠ c → (s.ctx n.val k.val).st ≠ .ready ∧ (s.ctx n.val k.val).st ≠ .suspended ∧ (s.ctx n.val k.val).st ≠ .running
    let host := fun (t : State) => t = { s with ctxs := t.ctxs, regs := t.regs, txns := t.txns, sideband := t.sideband }
    (∀ (k : Nat) (fclk : BitVec 9) (e : Entry) (q : List Entry), s.running n.val = some c.val → s.raised n.val c.val = some k →
      (s.ctx n.val k).queue = e :: q →
      (x.due.isSome = true → ∃ w, exec (.interruptTaken n fclk) s = .fault w) ∧
      (x.due = none → Next (exec (.interruptTaken n fclk) s) (fun t =>
        t.ctx n.val c.val = { x with st := .suspended, wait := none, resume := s.ctxRecord n.val x, inside := none } ∧
        (t.ctx n.val k).st = .running ∧ (t.ctx n.val k).entry = some e ∧ (t.ctx n.val k).pc = BitVec.ofNat 13 (s.dEntry n.val k) ∧
        (t.ctx n.val k).ctag = BitVec.ofNat 13 (if e.step then e.stream else 0) ∧
        (e.step = false → ∀ r : Fin 32, t.sr n.val k r.val = 0) ∧
        (e.step = true → t.sr n.val k 0 = e.handle % 2 ^ 32 ∧ t.sr n.val k 6 = e.len % 2 ^ 32 ∧ t.sr n.val k 8 = 0 ∧
          t.ar n.val k 1 = e.newSlot % 2 ^ 64) ∧
        t.fm = s.fm ∧ t.vreg = s.vreg))) ∧
    (∀ p : Port, PortOpen p (SEQ_CTX n.val c.val) s → s.ctxEn n.val c.val = true → x.queue.length < 16 →
      (s.running n.val).isSome → Next (exec (.door p n c) s) (fun t =>
        (t.ctx n.val c.val).queue = x.queue ++ [⟨false, 0, 0, 0, 0, 0, 0, 0, 0, 0⟩] ∧
        (∀ (m : Fin 50) (k : Fin 4), ¬(m = n ∧ k = c) → t.ctx m.val k.val = s.ctx m.val k.val) ∧ host t)) ∧
    (∀ p : Port, PortOpen p (SEQ_CTX n.val c.val) s → s.mode n.val = 4 → alone →
      (x.st = .running → x.due = none → Next (exec (.halt p n c) s) (fun t =>
        t.ctx n.val c.val = { x with st := .halted, wait := none, halting := false } ∧ host t)) ∧
      (x.st = .running → x.due.isSome = true → Next (exec (.halt p n c) s) (fun t =>
        t.ctx n.val c.val = { x with halting := true } ∧ host t)) ∧
      (x.st = .halted → x.entry.isSome → Next (exec (.go p n c) s) (fun t =>
        t.ctx n.val c.val = { x with st := .running, resume := s.ctxRecord n.val x, inside := none } ∧ host t))) ∧
    (s.retired n.val = false → (∀ k : Fin 4, (s.ctx n.val k.val).queue = []) → Next (exec (.seqLockstep n) s) (fun t =>
      t.fld (SEQ_CNT n.val) 31 16 = min (s.fld (SEQ_CNT n.val) 31 16 + 1) 0xFFFF ∧
      ∀ k : Fin 4, (t.ctx n.val k.val).entry = none ∧ (t.ctx n.val k.val).rstack = [] ∧ (t.ctx n.val k.val).resume = Resume.empty ∧
        (t.ctx n.val k.val).inside = none))

/-- Counted bounds that are missed and hangs (R135, R152, R181, R184, R249, R338, R343, R412, R553, R559): each fails the step its
context works on; a hang retires the folio and removes it from service, a mover's withdraws the device. -/
def Obligations.MissedBoundsFailTheStep : Prop :=
  ∀ (n : Fin 50) (c : Fin 4) (s : State),
    let w := (s.ctx n.val c.val).wait
    BoundFails (.arrStallOver n c) n.val c.val 0x20 true s ∧ BoundFails (.mvpStallOver n c) n.val c.val 0x21 true s ∧
    BoundFails (.scanStallOver n c) n.val c.val 0x22 true s ∧ BoundFails (.vecStallOver n c) n.val c.val 0x23 true s ∧
    BoundFails (.memGrantLate n c) n.val c.val 0x24 false s ∧ BoundFails (.vatGrantLate n c) n.val c.val 0x25 false s ∧
    (w = some .credit → s.dWlim n.val c.val ≠ 0 → BoundFails (.lzCreditLate n c) n.val c.val 0x26 false s) ∧
    (w = some .tag ∨ (w = some .latch ∧ s.dWlim n.val c.val ≠ 0) → BoundFails (.seqWaitLate n c) n.val c.val 0x27 false s) ∧
    (∀ key, w = some (.inbox key) → BoundFails (.scanCarryLate n c) n.val c.val 0x28 false s) ∧
    ((s.ctx n.val c.val).entry.isSome → s.retired n.val = false → Next (exec (.engHang (.engine n c)) s) (fun t =>
      t.retired n.val = true ∧ t.folioState n.val = 4 ∧ ∀ k : Fin 4, (t.ctx n.val k.val).entry = none)) ∧
    (∀ (q : Fin 10) (m : Move) (ms : List Move), s.mover q.val = m :: ms → Next (exec (.engHang (.mover q)) s) (fun t =>
      t.withdrawn = true))

/-! ## Steps, bursts, streams -/

/-- The life of a step (R24 to R29, R33, R201, R292, R293, R297, R300, R413). A held burst's step is accepted 10 µs after the last
acceptance, with a token or as an overrun; a refill adds a token up to the depth; a dispatch places the step's entry on every folio that
serves it; a release sends the result once and sends the new wheel's header to its slot; a failed attempt runs again until three have been
counted, then the step ends with STEP_FAILED and its stream is paused; a commit makes the new slot the committed one; the commit record
then lies in HBM; a checkpoint of a replay sends the results of its inputs, and then commits the wheel with them counted. -/
def Obligations.StepsAreAcceptedReleasedAndCommitted : Prop :=
  ∀ (i : BitVec 12) (s : State),
    let k := i.toNat
    let x := s.str k
    let g := s.strGath k
    let others := fun (t : State) => ∀ j, j ≠ k → t.str j = s.str j
    let again := fun (y : Step) => { y with
      dispatched := false, mask := 0, ended := 0, attempt := if y.uncounted then y.attempt else y.attempt + 1, failed := false,
      uncounted := false, failedAfter := false, mirrorAck := false, rerun := y.released, result := [] }
    let quiet := fun (y : Step) => y.final = none ∧ y.lost = false ∧ y.badRead = none
    let safe := fun (y : Step) => s.stepDone k y = true ∧ s.moverHolds k = false ∧ y.failedAfter = false ∧ y.rerun = false ∧
      (x.mirror = true → y.mirrorAck = true)
    (∀ b bs, x.st = .active → x.held = b :: bs → b.acc = false → x.lastAccept + 96 ≤ s.rclk → s.substs = [] →
      Next (exec (.stepHoldExpiry i) s) (fun t =>
        let none' := s.tokensOf x.cls = 0
        t.str k = { x with held := { b with acc := true, spent := decide none' } :: bs, stepped := true, lastAccept := x.lastAccept + 96,
                           cntOverrun := if none' then min (x.cntOverrun + 1) 0xFFFF else x.cntOverrun } ∧
        others t ∧ t.tokensOf x.cls = s.tokensOf x.cls - 1 ∧ t = { s with strm := t.strm, tokens := t.tokens, regs := t.regs })) ∧
    (∀ c : Fin 16, s.clsEn c.val = true → Next (exec (.tokenRefill c) s) (fun t =>
      t.tokensOf c.val = min (s.tokensOf c.val + 1) (s.clsDepth c.val) ∧ (∀ j, j ≠ c.val → t.tokensOf j = s.tokensOf j) ∧
      t = { s with tokens := t.tokens })) ∧
    (∀ y, s.toDispatch k = some y → y.replayed = false → s.gathReady g = true → s.queuesFree k y = true → s.bad = [] →
      Next (exec (.stepDispatch ⟨i, none⟩) s) (fun t =>
        let m := s.classMask g x.cls
        (t.str k).step = some { y with dispatched := true, mask := m, ended := 0 } ∧
        (t.str k).held = (if x.step.isSome then x.held else x.held.drop 1) ∧ others t ∧
        (∀ j ∈ members m, ∀ c, s.classCtx (s.phys j) x.cls = some c →
          s.stepEntry k y ∈ (t.ctx (s.phys j) c).queue ∨ (t.ctx (s.phys j) c).entry = some (s.stepEntry k y)) ∧
        t.fm = s.fm ∧ t.hbm = s.hbm ∧ t.outbox = s.outbox)) ∧
    (∀ y, x.step = some y → y.released = false → y.replayed = false → s.stepDone k y = true → s.resultReady k y = true → s.mayRelease = true →
      Next (exec (.stepRelease i) s) (fun t =>
        let q := (s.schedClass x.cls).elim 0 (fun z => z.home.val)
        let check := resultCheck (s.stepMsg k y)
        t.outbox = s.outbox ++ [msgHeader 0xC1 0 (s.handle k) y.burst.seq y.burst.bid (x.cseq + 1) y.result.length ++ y.result] ∧
        (t.str k).step = some { y with released := true, rchecks := [check] } ∧ others t ∧
        t.mover q = s.mover q ++ [⟨s.moveId, 5 * q, 0, k, .own (s.headerOf k (x.cseq + 1) (s.newCursor k 1) y.lastSeq check),
          .hbm (s.wheelAddr k (!x.slot)), 256, 1, [], none, [], .own, [], false⟩] ∧ t.hbm = s.hbm ∧
        (x.mirror = false → t = { s with outbox := t.outbox, strm := t.strm, movers := t.movers, moveId := t.moveId }))) ∧
    (∀ y, x.step = some y → y.released = false → quiet y → y.failed = true →
      (y.attempt < 2 ∨ y.uncounted = true → Next (exec (.stepRerun i) s) (fun t =>
        t.str k = { x with step := some (again y), cntRerun := min (x.cntRerun + 1) 0xFFFF })) ∧
      (2 ≤ y.attempt → y.uncounted = false → x.st = .active → s.withdrawn = false → Next (exec (.stepRerun i) s) (fun t =>
        (t.str k).step = none ∧ (t.str k).st = .paused ∧ (t.str k).fault = true ∧ (t.str k).slot = x.slot ∧ (t.str k).cseq = x.cseq ∧
        ∃ l, t.outbox = s.outbox ++ msgHeader 0xC2 5 (s.handle k) y.burst.seq y.burst.bid x.cseq 0 :: l))) ∧
    (∀ y, x.step = some y → y.released = true → quiet y → y.failed = true ∨ y.failedAfter = true → y.attempt < 2 →
      Next (exec (.stepRerunAfterRelease i) s) (fun t =>
        t.str k = { x with step := some (again y), cntRerun := min (x.cntRerun + 1) 0xFFFF })) ∧
    (∀ y, x.step = some y → x.st = .active → y.released = true → y.replayed = false → safe y → Next (exec (.stepCommit i) s) (fun t =>
      (t.str k).slot = !x.slot ∧ (t.str k).cseq = x.cseq + 1 ∧ (t.str k).cursor = (x.cursor + s.draws k) % 2 ^ 48 ∧
      (t.str k).wheelSeq = y.lastSeq ∧ (t.str k).step = none ∧ (t.str k).recordDue = true ∧ (t.str k).st = .active ∧
      (∀ j, j ≠ k → t.str j = { s.str j with warm := (t.str j).warm }) ∧
      t.hbm = s.hbm ∧ ∀ j ∈ members y.mask, Sp.get (fun _ => 0) t.heldFlags (8192 * s.phys j + k) = 0)) ∧
    (x.recordDue = true → s.pcsActive = true → Next (exec (.commitRecordWrite i) s) (fun t =>
      t.hbm.load (s.recordAddr k) 8 = (if x.slot then 1 else 0) ∧ t.hbm.load (s.recordAddr k + 8) 8 = x.cseq % 2 ^ 64 ∧
      SameOutside (s.recordAddr k) 16 s.hbm t.hbm ∧ t.str k = { x with recordDue := false } ∧ others t ∧
      t = { s with hbm := t.hbm, strm := t.strm })) ∧
    (∀ y m, x.step = some y → x.st = .replay → y.replayed = true → 0 < m → m ≤ x.backlogged → s.resultReady k y = true →
      (y.released = false → s.stepDone k y = true → s.mayRelease = true → Next (exec (.checkpointCommit i m) s) (fun t =>
        (∃ l, t.outbox = s.outbox ++ l ∧ l.length = m) ∧ (t.str k).slot = x.slot ∧ (t.str k).cseq = x.cseq ∧ t.hbm = s.hbm ∧
        ∃ z, (t.str k).step = some z ∧ z.released = true ∧ z.covered = m ∧ z.rchecks.length = m)) ∧
      (y.released = true → y.covered = m → safe y → Next (exec (.checkpointCommit i m) s) (fun t =>
        (t.str k).slot = !x.slot ∧ (t.str k).cseq = x.cseq + m ∧ (t.str k).backlogged = x.backlogged - m ∧
        (t.str k).st = (if x.backlogged = m then .active else .replay) ∧ t.outbox = s.outbox)))

/-- Inbound bursts flit by flit (R305 to R308, R310): the next flit of a curd lands behind what came before and starts its timer again; a
flit whose handle names no open curd, or whose SEQ is not above LAST_SEQ, is whey; a curd whose hold time has passed is discarded
with BURST_INCOMPLETE and its granules are free. -/
def Obligations.BurstFlitsFillTheirCurd : Prop :=
  ∀ (s : State) (fl : Flit) (rest : List Flit),
    let i := fl.handle % 4096
    let x := s.str i
    let taken := fun (t : State) => t.burstIn = rest ∧ t.d2dOwed = s.d2dOwed + 1 ∧ ∀ j, j ≠ i → t.str j = s.str j
    let whey := fun (t : State) => t.str i = { x with cntWhey := min (x.cntWhey + 1) 0xFFFF } ∧ taken t ∧
      t = { s with burstIn := rest, d2dOwed := t.d2dOwed, strm := t.strm, regs := t.regs }
    (s.burstIn = fl :: rest → s.names fl.handle = true →
      (∀ b, fl.fidx ≠ 0 → x.curd = some b → b.bid = fl.bid → b.timer ≠ 0 → fl.fidx = b.next → fl.last = false →
        b.got + fl.payload.length < b.len → 32 + b.len ≤ 256 * b.grans.length → b.grans.Nodup →
        Next (exec .inboundBurstFlit s) (fun t =>
          t.str i = { x with curd := some { b with next := b.next + 1, got := b.got + fl.payload.length, timer := s.holdTime i } } ∧
          (((t.burstBytes b).drop (32 + b.got)).take fl.payload.length = fl.payload) ∧
          (t.burstBytes b).take (32 + b.got) = (s.burstBytes b).take (32 + b.got) ∧ taken t ∧
          t = { s with burstIn := rest, d2dOwed := t.d2dOwed, strm := t.strm, vat := t.vat, bad := t.bad })) ∧
      (fl.fidx ≠ 0 → x.curd = none → Next (exec .inboundBurstFlit s) whey) ∧
      (∀ b, fl.fidx ≠ 0 → x.curd = some b → b.bid ≠ fl.bid ∨ b.timer = 0 → Next (exec .inboundBurstFlit s) whey) ∧
      (fl.fidx = 0 → ofBytes ((fl.payload.drop 8).take 4) ≤ x.lastSeq → Next (exec .inboundBurstFlit s) whey)) ∧
    (∀ (k : BitVec 12) (b : Burst), (s.str k.toNat).curd = some b → b.timer = 0 → (s.str k.toNat).st ≠ .importing →
      Next (exec (.curdExpiry k) s) (fun t =>
        t.str k.toNat = { s.str k.toNat with curd := none, cntIncomplete := min ((s.str k.toNat).cntIncomplete + 1) 0xFFFF } ∧
        t.outbox = (if s.withdrawn then s.outbox
          else s.outbox ++ [msgHeader 0xC2 1 (s.handle k.toNat) b.seq b.bid (s.str k.toNat).cseq 0]) ∧
        Sp.get (fun _ => []) t.occupied b.zone = (Sp.get (fun _ => []) s.occupied b.zone).filter (fun q => !b.grans.contains q) ∧
        t = { s with strm := t.strm, outbox := t.outbox, occupied := t.occupied, regs := t.regs }))

namespace Sys2Proof.Claims

/-- The host may give a stream command: READY, no reset under way, no completion held for space (R285, R632). -/
def CommandsTaken (p : Port) (s : State) : Prop :=
  PortOpen p STRM_CMD s ∧ s.fld BOOT_STAT 31 28 = 7 ∧ s.inWarm = false ∧ s.rbit STRM_CMD_STAT 31 = false ∧ s.doneFifo.length < 64
/-- The command completes with a code: its record stands last in the FIFO of R286. -/
def Completed (s t : State) (handle op code : Nat) : Prop := t.doneFifo = s.doneFifo ++ [⟨handle, op, code⟩]

end Sys2Proof.Claims

/-- The stream commands (R283 to R290, R315, R318 to R325). An accepted command leaves code 0 and takes its stream to the state R283
gives, with its completion record where it is complete at once; RESUME_DROP sends a status for every burst that it drops; a reserved
OP leaves the streams as they are. -/
def Obligations.StreamCommandsMoveTheirStream : Prop :=
  ∀ (p : Port) (s : State), CommandsTaken p s →
    let h := s.reg STRM_CMD_HANDLE
    let i := h % 4096
    let x := s.str i
    let ok := fun (t : State) => t.fld STRM_CMD_STAT 7 0 = 0 ∧ ∀ j, j ≠ i → t.str j = s.str j
    let fresh := fun (t : State) (st : StrmSt) (op : Nat) => (t.str i).st = st ∧ (t.str i).cmd = some op ∧ (t.str i).cls = s.descN 4 1 ∧
      (t.str i).gen = (if x.gen = 0xFFFFF then 1 else x.gen + 1) ∧ t.reg STRM_CMD_HANDLE = (t.str i).gen * 4096 + i
    let noSlip := s.classOff = false ∧ s.noSpace = false ∧ x.gen ≤ 0xFFFFF
    (∀ sc, x.st = .free → noSlip → s.descSched = some sc → sc.wsize.toNat = s.descN 6 2 → s.descBad true = false →
      Next (exec (.start p) s) (fun t => ok t ∧ fresh t .starting 1 ∧ (t.str i).cseq = 0 ∧ (t.str i).wsize = s.descN 6 2)) ∧
    (s.level = 2 → x.st = .free → noSlip → s.descBad false = false → Next (exec (.importWheel p) s) (fun t => ok t ∧ fresh t .importing 8)) ∧
    (s.names h = true → x.cmd = none →
      (x.st = .active → x.step.isSome → Next (exec (.pause p) s) (fun t => ok t ∧ t.str i = { x with st := .pausing, cmd := some 2 })) ∧
      (x.st = .active → x.step = none → x.held = [] → Next (exec (.pause p) s) (fun t =>
        ok t ∧ t.str i = { x with st := .paused } ∧ Completed s t h 2 0)) ∧
      (x.st = .paused → x.backlogged = 0 → Next (exec (.resumeReplay p) s) (fun t =>
        ok t ∧ t.str i = { x with st := .active, fault := false } ∧ Completed s t h 3 0)) ∧
      (x.st = .paused → x.backlogged ≠ 0 → Next (exec (.resumeReplay p) s) (fun t =>
        ok t ∧ (t.str i).st = .replay ∧ (t.str i).cmd = some 3 ∧ t.doneFifo = s.doneFifo)) ∧
      (x.st = .paused → Next (exec (.resumeDrop p) s) (fun t =>
        ok t ∧ t.str i = { x with st := .active, fault := false, cntDrop := min (x.cntDrop + x.backlogged) 0xFFFF, backlogged := 0,
                                  backlogUsed := 0, backlogRead := 0 } ∧ Completed s t h 4 0 ∧
        (s.withdrawn = false → ∃ l, t.outbox = s.outbox ++ l ∧ l.length = x.backlogged ∧ ∀ m ∈ l, m.take 2 = [0xC2, 0x0A]))) ∧
      (x.st ≠ .importing → x.step.isSome → x.st ≠ .replay → x.mirror = false → Next (exec (.endStream p) s) (fun t =>
        ok t ∧ (t.str i).st = .ending ∧ (t.str i).cmd = some 5 ∧ (t.str i).held = [] ∧ (t.str i).curd = none ∧ (t.str i).backlogged = 0)) ∧
      (x.st = .paused → x.step = none → x.mirror = false → x.recordDue = false → Next (exec (.endStream p) s) (fun t =>
        ok t ∧ (t.str i).st = .free ∧ (t.str i).gen = x.gen ∧ Completed s t h 5 0 ∧ t.hbm = s.hbm)) ∧
      (x.st = .paused → x.step = none → x.mirror = false → Next (exec (.endErase p) s) (fun t =>
        ok t ∧ (t.str i).st = .free ∧ Completed s t h 6 0 ∧
        ∀ slot, t.hbmBytes (s.wheelAddr i slot) (x.wsize * 256) = List.replicate (x.wsize * 256) 0)) ∧
      (∀ key, s.level = 2 → x.st = .paused → s.descForm = false → s.descN 4 1 ≤ 7 → Sp.get (fun _ => none) s.keys (s.descN 4 1) = some key →
        key.ctr ≠ 0xFFFFFFFF → Next (exec (.exportWheel p) s) (fun t =>
          ok t ∧ t.str i = { x with st := .exporting, cmd := some 7 } ∧
          Sp.get (fun _ => none) t.keys (s.descN 4 1) = some { key with ctr := key.ctr + 1 } ∧
          (s.withdrawn = false → ∃ m, t.outbox = s.outbox ++ [m] ∧ m.take 1 = [0xC3])))) ∧
    (∀ op : BitVec 4, op.toNat = 0 ∨ 8 < op.toNat → Next (exec (.opReserved p op) s) (fun t =>
      t.fld STRM_CMD_STAT 7 0 = 0x0F ∧ t.strm = s.strm ∧ t.doneFifo = s.doneFifo ∧ t.outbox = s.outbox))

/-- What completes a command of a stream, and the registers that act (R283, R286, R287, R323, R326): a written initial wheel makes the
stream ACTIVE, a sent image EXPORTED, a written imported wheel PAUSED, an IMPORT without its image ends after 100 ms; reading
STRM_DONE_HI takes the oldest record, and STRM_VIEW_CLR clears the counters of the stream that STRM_VIEW_SEL names. -/
def Obligations.StreamCompletions : Prop :=
  ∀ (i : BitVec 12) (p : Port) (s : State),
    let k := i.toNat
    let x := s.str k
    let sel := s.fld STRM_VIEW_SEL 11 0
    (∀ op, s.doneFifo.length < 64 → x.cmd = some op →
      (x.st = .starting → x.mirror = false → Next (exec (.startWheelWritten i true) s) (fun t =>
        (t.str k).st = .active ∧ (t.str k).cmd = none ∧ Completed s t (s.handle k) op 0)) ∧
      (x.st = .exporting → Next (exec (.exportComplete i) s) (fun t =>
        t.str k = { x with st := .exported, cmd := none } ∧ Completed s t (s.handle k) op 0)) ∧
      (x.st = .importing → x.image = true → x.mirror = false → Next (exec (.importWheelWritten i true) s) (fun t =>
        (t.str k).st = .paused ∧ (t.str k).cmd = none ∧ Completed s t (s.handle k) op 0)) ∧
      (x.st = .importing → x.image = false → x.timer + 960000 ≤ s.rclk → Next (exec (.importIncomplete i) s) (fun t =>
        (t.str k).st = .free ∧ (t.str k).gen = x.gen ∧ Completed s t (s.handle k) op 0x0D))) ∧
    (PortOpen p STRM_DONE_HI s → s.doneHeld = [] → Next (exec (.strmDoneHi p) s) (fun t =>
      t.doneFifo = s.doneFifo.drop 1 ∧ t = { s with doneFifo := t.doneFifo, txns := t.txns, sideband := t.sideband })) ∧
    (∀ w : Word, w.toNat < 4096 → PortOpen p STRM_VIEW_SEL s → Next (exec (.strmViewSel p w) s) (fun t =>
      t.fld STRM_VIEW_SEL 11 0 = w.toNat ∧ (∀ a, a ≠ STRM_VIEW_SEL → t.reg a = s.reg a) ∧
      t = { s with regs := t.regs, txns := t.txns, sideband := t.sideband })) ∧
    (PortOpen p (pg 0x1A4 0x044) s → Next (exec (.strmViewClr p 1) s) (fun t =>
      t.str sel = { s.str sel with cntWhey := 0, cntIncomplete := 0, cntOverrun := 0, cntRerun := 0, cntDrop := 0 } ∧
      (∀ j, j ≠ sel → t.str j = s.str j) ∧ t = { s with strm := t.strm, txns := t.txns, sideband := t.sideband }))

/-! ## Movers, stacks, on-die memories -/

/-- Movers, stacks and the upkeep of memories (R357, R358, R359, R360, R373 to R375, R381, R383, R390, R410, R471). A granule lands 256
bytes where its move sends them and nothing else, and its credit returns; a late granule or multicast fails its step; a refresh window
counts; a retired pseudo-channel's bytes are at its siblings; a tag whose work is done, or cancelled, leaves its record; a golden block
is its copy again; a scrub read that finds an error counts it and leaves the word bad, and one that a read has found already changes
nothing; a segment or bank that is switched on reads zero. -/
def Obligations.GranulesLandAndMemoriesAreKept : Prop :=
  ∀ (s : State),
    let p := s.drive
    (∀ (q : Fin 10) (id g a d : Nat) (m : Move), (p.mover q.val).find? (fun x => x.id == id) = some m →
      p.served q.val id g = true → s.fld PM_STATE 31 29 ≠ 1 → s.fld PM_STATE 31 29 ≠ 2 → m.stale = none → m.dests = [] →
      m.owner = .xfer none → m.src = .hbm a → m.dst = .fm d → g ∉ m.done → Next (exec (.hbmGranuleDone q id g .done) s) (fun t =>
        t.fm.bytes (m.folio * 2 ^ 20 + d + 256 * g) 256 = s.hbmBytes (a + 256 * g) 256 ∧
        SameOutside (m.folio * 2 ^ 20 + d + 256 * g) 256 s.fm t.fm ∧ g ∉ t.creditedOf id ∧
        (∃ l, (∀ x ∈ l, ∃ k j o, x.owner = .tile k j o) ∧
          (m.done.length + 1 = m.total → t.mover q.val = (p.mover q.val).filter (fun x => x.id != m.id) ++ l) ∧
          (m.done.length + 1 ≠ m.total → ∃ e, (∀ j, j ∈ e ↔ j = g ∨ j ∈ m.done) ∧
            t.mover q.val = (p.mover q.val).map (fun x => if x.id == m.id then { m with done := e } else x) ++ l)) ∧
        (∀ j, j ≠ q.val → t.mover j = p.mover j) ∧
        t = { p with fm := t.fm, movers := t.movers, pcQueue := t.pcQueue, fetch := t.fetch, moveId := t.moveId, bad := t.bad })) ∧
    (∀ (q : Fin 10) (id g : Nat) (m : Move) (y : Step), (p.mover q.val).find? (fun x => x.id == id) = some m →
      (p.creditedOf id).contains g = true → m.tag < 4096 → (s.str m.tag).step = some y →
      Next (exec (.hbmLate q id g) s) (fun t => (t.str m.tag).step = some { y with failed := true } ∧ t.movers = p.movers ∧ t.fm = s.fm)) ∧
    (∀ (n : Fin 50) (c : Fin 4) (m : McLead) (y : Step), s.mleads.find? (fun x => x.folio == n.val && x.ctx == c.val) = some m →
      m.tag < 4096 → (s.str m.tag).step = some y → Next (exec (.moveWaitLate n c) s) (fun t =>
        (t.str m.tag).step = some { y with failed := true } ∧ t.mleads = s.mleads)) ∧
    (∀ (g : Fin 16) (x : Coll), s.current g.val = some x → s.givers g.val x.stag.toNat ≠ [] → Next (exec (.spnLate g) s) (fun t =>
      t.fld SPN_CNT 31 16 = min (s.fld SPN_CNT 31 16 + 1) 0xFFFF ∧
      (∀ p ∈ s.givers g.val x.stag.toNat, ∀ e y, (s.ctx p.1 p.2.ctx).entry = some e → e.step = true → (s.str e.stream).step = some y →
        (t.str e.stream).step = some { y with failed := true }))) ∧
    (∀ temps, s.inReset = false → s.fld PM_STATE 31 29 = 0 → Next (exec (.refreshWindow temps []) s) (fun t =>
      t.reg HBM_REFWIN = (s.reg HBM_REFWIN + 1) % 2 ^ 32 ∧
      (∀ k : Fin 4, s.rbit HBM_STAT k.val = true → t.fld (HBM_TEMP k.val) 7 0 = bits temps.toNat (8 * k.val + 7) (8 * k.val)) ∧
      t = { s with regs := t.regs })) ∧
    (∀ (n : Fin 50) (k : BitVec 6) (lf : Nat), s.logical n.val = some lf → s.moverHolds (folioTag lf k.toNat) = false →
      let r := s.tag lf k.toNat
      let ends := fun (status : Nat) (t : State) => t.tag lf k.toNat = { r with st := .done, status := status } ∧
        (t.ctx n.val r.ctx).doneQ = (s.ctx n.val r.ctx).doneQ ++ [BitVec.ofNat 32 (folioTag lf k.toNat + status * 2 ^ 13)] ∧
        Sp.get (fun _ => 0) t.heldFlags (8192 * n.val + folioTag lf k.toNat) = 0
      (r.st = .cancelling → Next (exec (.cancelAck n k) s) (ends 1)) ∧
      (r.st = .closed → s.engHolds n.val (folioTag lf k.toNat) = false → (s.ctx n.val r.ctx).holdsTag k.toNat = false →
        Next (exec (.tagDone n k) s) (ends r.status))) ∧
    (∀ (k : Fin 4) (p : Fin 32), s.pcState k.val p.val = 1 → (∀ j < p.val, s.pcState k.val j ≠ 1) → Next (exec (.pcRetireDone k) s) (fun t =>
      t.pcState k.val p.val = 2 ∧ (∀ j : Fin 32, j ≠ p → t.pcState k.val j.val = s.pcState k.val j.val) ∧
      (s.memWf = true → ∀ a, usable a = true → hbmStack a = k.val → bits a 14 10 = p.val → s.hbm.byte a ≠ 0 →
        t.hbm.byte (spareOf a) = s.hbm.byte a) ∧ t = { s with hbm := t.hbm, regs := t.regs })) ∧
    (∀ (n : Fin 50) (lf : Nat) (addr : BitVec 20) (gd : Golden), s.logical n.val = some lf → s.inGolden n.val addr.toNat = true →
      (s.goldens lf).find? (fun g => decide (g.block.toNat ≤ addr.toNat / 4096) && decide (addr.toNat / 4096 < g.block.toNat + g.count)) = some gd →
      let key := n.val * 2 ^ 20 + addr.toNat / 4096 * 4096
      Next (exec (.goldenReload ⟨.folio n 0 addr, none⟩) s) (fun t =>
        t.fm.bytes key 4096 = s.hbmBytes (gd.hbm.toNat + (addr.toNat / 4096 - gd.block.toNat) * 4096) 4096 ∧ OnlyFm key 4096 s t)) ∧
    (∀ (n : Fin 50) (addr : BitVec 20), s.scrubs (.folio n 0 addr) = true → ∀ mk ∈ [Instr.scrubRead, Instr.forcedScrubRead],
      let word := wordKey n.val 0 addr.toNat
      (s.isBad word = false → exec (mk (.folio n 0 addr) .clean false) s = .next s ∧
        Next (exec (mk (.folio n 0 addr) .clean true) s) (fun t => t.reg (FOLIO_SCRUB n.val) = (s.reg (FOLIO_SCRUB n.val) + 1) % 65536 ∧
          (∀ k, k ≠ FOLIO_SCRUB n.val → t.reg k = s.reg k) ∧ t = { s with regs := t.regs })) ∧
      (s.isBad word = true → exec (mk (.folio n 0 addr) .joined false) s = .next s) ∧
      (s.isGolden n.val 0 addr.toNat = false → Next (exec (mk (.folio n 0 addr) .faulty false) s) (fun t =>
        t.fld (FOLIO_PERR_CNT n.val) 31 16 = min (s.fld (FOLIO_PERR_CNT n.val) 31 16 + 1) 0xFFFF ∧ t.rbit (FOLIO_PERR n.val) 31 = true ∧
        t.isBad word = true ∧ t.fm = s.fm ∧ t.strm = s.strm))) ∧
    (∀ (n : Fin 50) (k : Fin 16), s.rbit (FOLIO_FM_PWR n.val) k.val = true → s.rbit (FOLIO_FM_STAT n.val) k.val = false →
      s.retired n.val = false → Next (exec (.pwrdRises (.seg n k)) s) (fun t =>
        (∀ j < 65536, t.fm.byte (n.val * 2 ^ 20 + k.val * 65536 + j) = 0) ∧ SameOutside (n.val * 2 ^ 20 + k.val * 65536) 65536 s.fm t.fm ∧
        t.rbit (FOLIO_FM_STAT n.val) k.val = true ∧
        t = { s with fm := t.fm, bad := t.bad, regs := t.regs })) ∧
    (∀ b : Fin 80, s.rbit (VAT_PWR (b.val / 32)) (b.val % 32) = true → s.rbit (VAT_STAT (b.val / 32)) (b.val % 32) = false →
      s.rbit (VAT_FAIL (b.val / 32)) (b.val % 32) = false → Next (exec (.pwrdRises (.bank b)) s) (fun t =>
        (∀ j < 0x80000, t.vat.byte (b.val * 0x80000 + j) = 0) ∧ SameOutside (b.val * 0x80000) 0x80000 s.vat t.vat ∧ t.bankOn b.val = true ∧
        t = { s with vat := t.vat, bad := t.bad, regs := t.regs }))

/-! ## Ports -/

/-- The D2D port, the interface level, the seal and the resets of the requester ports (R589, R590, R600, R613 to R615, R620). A flit whose
CRC fails is counted, passes nothing on and is answered with a NAK; a burst flit in order passes to its burst, unless its own NAK makes
the port train; a resend repeats every flit in the retry buffer, and after the 16th failed attempt the port trains; a reset of a port orphans that port's transactions and no other's. -/
def Obligations.D2dPortAndPortResets : Prop :=
  ∀ (s : State),
    let crcOk := fun (b : List Byte) => crc32c (b.take 0x138 ++ (b.drop 0x13C).take 4) = ofBytes ((b.drop 0x138).take 4)
    let n := fun (b : List Byte) (o k : Nat) => ofBytes (((b.take 0x138).drop o).take k)
    let orphans := fun (code : Nat) (named : Nat → Prop) (t : State) => ∀ k : Fin 4,
      ((s.txn k.val).live = true → (s.txn k.val).port = code → named (s.txn k.val).tag → (t.txn k.val).st = 6 ∧ (t.txn k.val).staged = []) ∧
      (¬((s.txn k.val).live = true ∧ (s.txn k.val).port = code ∧ named (s.txn k.val).tag) → t.txn k.val = s.txn k.val)
    (s.d2dState = 2 →
      (∀ b, b.length = 320 → ¬ crcOk b → Next (exec (.d2dFlit b) s) (fun t =>
        t.burstIn = s.burstIn ∧ t.d2dRx = s.d2dRx ∧ t.fld D2D_CNT 7 0 = min (s.fld D2D_CNT 7 0 + 1) 0xFF ∧
        ∃ f, t.d2dOut = s.d2dOut ++ [f] ∧ f.length = 320 ∧ bit (ofBytes (f.drop 0x13C)) 11 = true ∧ crcOk f)) ∧
      (∀ b, b.length = 320 → crcOk b → n b 0 1 = 1 → 0 < n b 0x0A 2 → n b 0x0A 2 ≤ 296 → s.burstIn.length < 1024 →
        bits (ofBytes (b.drop 0x13C)) 31 22 = s.d2dRx → bit (ofBytes (b.drop 0x13C)) 11 = false ∨ s.d2dAttempts < 15 → Next (exec (.d2dFlit b) s) (fun t =>
          t.d2dRx = (s.d2dRx + 1) % 1024 ∧
          t.burstIn = s.burstIn ++ [⟨bit (n b 1 1) 0, n b 2 2, n b 4 4, n b 8 2, ((b.take 0x138).drop 0x10).take (n b 0x0A 2)⟩])) ∧
      (s.d2dRetry ≠ [] → Next (exec .d2dResend s) (fun t =>
        (s.d2dAttempts < 15 → ∃ fs, t.d2dOut = s.d2dOut ++ fs ∧ fs.length = s.d2dRetry.length) ∧
        (15 ≤ s.d2dAttempts → t.d2dState = 1 ∧ t.d2dOut = s.d2dOut) ∧ t.fld D2D_CNT 31 16 = min (s.fld D2D_CNT 31 16 + 1) 0xFFFF ∧
        t = { s with d2dAttempts := s.d2dAttempts + 1, regs := t.regs, d2dOut := t.d2dOut, d2dOwed := t.d2dOwed, d2dNak := t.d2dNak })) ∧
      Next (exec .d2dRetrain s) (fun t => t.d2dState = 1 ∧ t.fld D2D_RETRAIN_CNT 15 0 = min (s.fld D2D_RETRAIN_CNT 15 0 + 1) 0xFFFF ∧
        t = { s with regs := t.regs })) ∧
    (∀ up rep lanes, s.d2dState = 1 → s.fld D2D_STAT 3 0 &&& up.toNat ≠ 0 → Next (exec (.d2dRetrainComplete up rep lanes) s) (fun t =>
      t.d2dState = 2 ∧ t.fld D2D_STAT 3 0 = s.fld D2D_STAT 3 0 &&& up.toNat ∧ t.d2dRetry = s.d2dRetry ∧
      ∃ fs, t.d2dOut = s.d2dOut ++ fs ∧ fs.length = s.d2dRetry.length)) ∧
    (∀ tag : BitVec 16, Next (exec (.resetReq tag) s) (orphans 0 (fun x => tag.toNat = 0xFFFF ∨ x = tag.toNat))) ∧
    Next (exec .i3cTargetReset s) (orphans 1 (fun _ => True)) ∧ Next (exec .testLogicReset s) (orphans 2 (fun _ => True)) ∧
    exec .i3cTransferTimeout s = .next s ∧
    (∀ (p : Port) (w : Word), PortOpen p IFACE_LEVEL s → bits w.toNat 3 0 ≠ 0 → Next (exec (.ifaceLevel p w) s) (fun t =>
      (s.rbit IFACE_LEVEL 31 = false → t.levelReq = some (min (bits w.toNat 3 0) 2) ∧ t.rbit IFACE_LEVEL 31 = true) ∧
      (s.rbit IFACE_LEVEL 31 = true → t.levelReq = s.levelReq ∧ t.rbit IFACE_LEVEL 30 = true) ∧ t.level = s.level)) ∧
    (∀ l, s.levelReq = some l → l < 16 →
      (s.strm = [] → s.scheds = [] → (∀ k : Fin 4, (s.txn k.val).live = false) → s.mbx = none → Next (exec .ifaceLevelDecision s) (fun t =>
        t.level = l ∧ t.levelReq = none)) ∧
      (l ≠ s.level → s.scheds ≠ [] → Next (exec .ifaceLevelDecision s) (fun t =>
        t.level = s.level ∧ t.levelReq = none ∧ t.rbit IFACE_LEVEL 30 = true ∧ t = { s with levelReq := none, regs := t.regs }))) ∧
    (∀ (p : Port) (w : Word), PortOpen p DEV_SEAL s → Next (exec (.devSeal p w) s) (fun t =>
      t.sealed = (s.sealed || bit w.toNat 0) ∧ t.rbit DEV_SEAL 1 = (if s.sealed then s.rbit DEV_SEAL 1 else bit w.toNat 1) ∧
      t = { s with regs := t.regs, txns := t.txns, sideband := t.sideband }))

/-- Linueton links (R348, R472, R481 to R496). A flit that cannot be corrected asks for a resend; a flit in order joins its message, unless its NAK is the one that loses the link;
collective parts and credits reach their place; a failing lane's place goes to the spare; training brings a link up where the seat
faces the peer that R494 expects, else the link is miswired; a knock wakes. -/
def Obligations.LinksCarryMessagesAndTrain : Prop :=
  ∀ (l : Fin 6) (s : State),
    let p := l.val
    let x := s.link p
    let byte := fun (m : LMsg) (o k : Nat) => ofBytes ((m.payload.drop o).take k)
    let next := fun (typ : Nat) (m : LMsg) => s.linkIn.find? (fun y => y.typ == typ) = some m
    (s.linkState p = 2 →
      (∀ b, x.owed = [] → Next (exec (.linkFlit l b 0xFFFF) s) (fun t =>
        (t.link p).rxSeq = x.rxSeq ∧ t.linkIn = s.linkIn ∧
        ∃ w, t.linkOut = s.linkOut ++ [(p, List.replicate 256 0 ++ w)] ∧ bit (ofBytes (w.drop 4)) 11 = true)) ∧
      (∀ b fec, b.length = 264 → fec ≠ 0xFFFF#16 →
        let f := b.take 256
        let hi := ofBytes (b.drop 260)
        crc32c (f ++ b.drop 260) = ofBytes ((b.drop 256).take 4) → bits hi 31 22 = x.rxSeq → 0 < flitN f 0 1 → flitN f 0 1 < 0x0E →
        flitN f 6 2 = 0xFFFF ∨ flitN f 6 2 = s.seat → flitVc f = 3 ∨ flitN f 8 4 = s.reg CH_EPOCH → flitN f 0x0E 2 = 2 ^ 15 →
        bit hi 11 = false ∨ x.attempts < 16 → Next (exec (.linkFlit l b fec) s) (fun t =>
          (t.link p).rxSeq = (x.rxSeq + 1) % 1024 ∧
          t.linkIn = s.linkIn ++ [⟨flitN f 0 1, flitN f 4 2, flitN f 8 4, p, (f.drop 16).take (min 240 (flitN f 2 2))⟩])) ∧
      (∀ lane : Fin 5, lane.val < 4 → s.rbit (LNK_STAT p) lane.val = true → x.spare = false → Next (exec (.laneFail l lane) s) (fun t =>
        t.rbit (LNK_STAT p) lane.val = false ∧ t.rbit (LNK_STAT p) 4 = true ∧ (t.link p).spare = true ∧ t.linkState p = 2)) ∧
      Next (exec (.lnkLost l) s) (fun t => t.linkState p = 0 ∧ t.fld (LNK_CNT p) 15 0 = min (s.fld (LNK_CNT p) 15 0 + 1) 0xFFFF)) ∧
    (∀ m, next 0x01 m → byte m 0 1 = 1 → Next (exec .data s) (fun t =>
      t.linkIn = s.linkIn.erase m ∧ (byte m 2 2, m.src, m.payload.drop 1) ∈ t.remote ∧ t = { s with linkIn := t.linkIn, remote := t.remote })) ∧
    (∀ m r, next 0x02 m → byte m 0 1 = 1 → s.outRing m.src (byte m 2 2) = some r → Next (exec .msg s) (fun t =>
      let k := remoteKey m.src (byte m 2 2) (byte m 4 2)
      t.credit k = min r.size (s.credit k + byte m 6 2) ∧ (∀ j, j ≠ k → t.credit j = s.credit j) ∧
      t = { s with linkIn := s.linkIn.erase m, credits := t.credits })) ∧
    (∀ m, next 0x07 m → m.epoch ≤ s.reg CH_EPOCH → Sp.get (fun _ => 0) s.lstateSeq (byte m 0 2) < byte m 4 4 →
      Next (exec .lstate s) (fun t => Sp.get (fun _ => 0) t.lstateSeq (byte m 0 2) = byte m 4 4 ∧
        Sp.get (fun _ => false) t.linkDown (8 * byte m 0 2 + byte m 2 1) = decide (byte m 3 1 ≠ 2))) ∧
    (∀ m, s.linkIn.find? (fun y => y.typ == 0x0D && y.port == p) = some m → byte m 0 1 = 1 → byte m 1 1 < 4 →
      Next (exec (.lanectl l) s) (fun t => t.rbit (LNK_STAT p) (byte m 1 1) = false ∧ t.rbit (LNK_STAT p) 4 = true ∧
        (t.link p).spare = true ∧ t = { s with linkIn := s.linkIn.erase m, regs := t.regs, links := t.links })) ∧
    (s.linkState p = 0 ∨ s.linkState p = 4 → Next (exec (.linkRetrain l) s) (fun t => t.linkState p = 1 ∧ t = { s with regs := t.regs })) ∧
    (∀ (seat : BitVec 10) (peer : BitVec 3) (lanes : BitVec 5), s.linkState p = 1 → lanes.toNat % 16 = 15 →
      (s.neighbour s.seat p = some seat.toNat → peer.toNat = peerPort p → Next (exec (.linkUp l seat peer lanes) s) (fun t =>
        t.linkState p = 2 ∧ t.fld (LNK_STAT p) 23 14 = seat.toNat ∧ t.fld (LNK_STAT p) 4 0 = 15)) ∧
      (¬(s.neighbour s.seat p = some seat.toNat ∧ peer.toNat = peerPort p) → Next (exec (.linkUp l seat peer lanes) s) (fun t =>
        t.linkState p = 4 ∧ t.fld (LNK_CNT p) 15 0 = min (s.fld (LNK_CNT p) 15 0 + 1) 0xFFFF ∧
        t = { s with regs := t.regs, sideband := t.sideband, faultLow := t.faultLow }))) ∧
    (∀ bursts, s.linkState p = 3 → (if s.rbit CLK_STAT 31 then knockSeen 6 10 0 bursts else knockSeen 8 12 0 bursts) = true →
      s.rbit LNK_CFG (16 + p) = true → Next (exec (.knock l bursts) s) (fun t =>
        t.linkState p = 1 ∧ t.rbit PM_WAKE_CAUSE (2 + p) = true ∧ t.wakeLow = true)) ∧
    (0 < x.knocks → s.linkState p ≠ 2 → Next (exec (.knockRepetition l) s) (fun t =>
      t.link p = { x with knocks := x.knocks - 1 } ∧ t.linkOut = s.linkOut ++ [(p, [])] ∧ t = { s with links := t.links, linkOut := t.linkOut }))

/-- The charter, the hoop and the mirrors (R499, R501, R503 to R507, R511, R512, R515, R518). A vote is given once for an epoch; a
charter of a higher epoch that names this device is in force; a renewal round asks every member again; a lapsed hoop leaves every
live stream FENCED with nothing held; a mirror is written, recorded and released; a takeover places the stream PAUSED. -/
def Obligations.CharterHoopAndMirrors : Prop :=
  ∀ (s : State),
    let next := fun (typ : Nat) (m : LMsg) => s.linkIn.find? (fun y => y.typ == typ) = some m
    let byte := fun (m : LMsg) (o k : Nat) => ofBytes ((m.payload.drop o).take k)
    let inForce := fun (epoch : Nat) (t : State) => t.reg CH_EPOCH = epoch % 2 ^ 32 ∧ t.fld CH_STAT 31 29 = 2 ∧ t.hoop.standing = false ∧
      t.hoop.proposal = none
    (∀ p, PortOpen p CH_CMD s → s.chartered = false → Next (exec (.form p) s) (fun t => t.formed = true ∧ t.reg (OWN_TMR 3) = 4)) ∧
    (s.fld CH_STAT 31 29 = 1 → s.hoop.formAt + 960000 ≤ s.rclk → Next (exec .formationRetry s) (fun t =>
      t.hoop.formAt = s.hoop.formAt + 96000)) ∧
    (∀ m, next 0x08 m → s.fld CH_STAT 31 29 = 1 → s.reg CH_EPOCH < byte m 0 4 → byte m 0 4 ∉ s.hoop.voted → byte m 4 1 = 1 →
      s.seat ∈ seatsAt m.payload 16 (byte m 6 2) → byte m 8 8 = s.charterDigest → s.withdrawn = false →
      Next (exec .propose s) (fun t => t.hoop.voted = byte m 0 4 :: s.hoop.voted ∧ t.reg CH_EPOCH = s.reg CH_EPOCH)) ∧
    (∀ m p, next 0x09 m → s.hoop.proposal = some p → byte m 0 4 = p.epoch → m.src ∈ p.members → m.src ∉ p.votes →
      (if p.forming then s.rbit (CH_SEAT m.src) 31 else s.member m.src) = true → s.rclk ≤ p.sent + 1920 →
      let q := fun (l : List Nat) => if p.forming then s.cfgQuorum l else s.nowQuorum l
      (q (p.votes ++ [m.src]) = false → Next (exec .vote s) (fun t =>
        t.hoop.proposal = some { p with votes := p.votes ++ [m.src], taken := p.taken ++ originsAt m.payload 8 (byte m 4 4) } ∧
        t.reg CH_EPOCH = s.reg CH_EPOCH)) ∧
      (q (p.votes ++ [m.src]) = true → Next (exec .vote s) (inForce p.epoch))) ∧
    (∀ m, next 0x0A m → s.reg CH_EPOCH < byte m 0 4 → s.seat ∈ seatsAt m.payload 12 (byte m 6 2) →
      Next (exec .commit s) (inForce (byte m 0 4))) ∧
    (∀ p, s.hoop.proposal = some p → p.sent + 1920 ≤ s.rclk → exec .proposalTimeout s =
      .next { s with hoop := { s.hoop with proposal := none, backoff := s.rclk + 9600 + s.seat % 16 * 480 } }) ∧
    (s.rclk < s.hoop.backoff →
      (∀ m, next 0x0B m → s.fld CH_STAT 31 29 = 2 → s.rbit (CH_SEAT m.src) 31 = true → m.src ∉ s.hoop.joiners →
        Next (exec .join s) (fun t => t.hoop.joiners = s.hoop.joiners ++ [m.src] ∧ t.linkIn = s.linkIn.erase m)) ∧
      (s.chartered = true → s.hoop.standing = false → s.hoop.roundAt + s.fld CH_HOOP 15 8 * 9600 ≤ s.rclk →
        Next (exec .renewalRound s) (fun t => t.hoop.round = s.hoop.round + 1 ∧ t.hoop.roundAt = s.rclk ∧ t.hoop.racks = [] ∧
          s.hoop.ends ≤ t.hoop.ends))) ∧
    (∀ m, next 0x05 m → byte m 0 4 = s.reg CH_EPOCH → s.chartered = true → m.src ∉ s.hoop.refused → s.withdrawn = false →
      Next (exec .renew s) (fun t => t.hoop = s.hoop ∧ t.linkIn = s.linkIn.erase m ∧
        Sp.get (fun _ => 0) t.linkMsgId 3 = (Sp.get (fun _ => 0) s.linkMsgId 3 + 1) % 65536)) ∧
    (∀ m, next 0x06 m → byte m 0 4 = s.reg CH_EPOCH → byte m 4 4 = s.hoop.round → m.src ∉ s.hoop.racks → Next (exec .rack s) (fun t =>
      t.hoop.racks = s.hoop.racks ++ [m.src] ∧
      t.hoop.ends = (if s.nowQuorum (s.seat :: (s.hoop.racks ++ [m.src])) then max s.hoop.ends (s.hoop.roundAt + s.extension) else s.hoop.ends) ∧
      t = { s with linkIn := s.linkIn.erase m, hoop := t.hoop })) ∧
    (s.hoopRuns = false → Next (exec .hoopLapse s) (fun t => ∀ i, (s.str i).st.live = true →
      (t.str i).st = .fenced ∧ (t.str i).step = none ∧ (t.str i).held = [] ∧ (t.str i).curd = none ∧ (t.str i).slot = (s.str i).slot)) ∧
    (∀ m k, next 0x03 m → s.strOf (byte m 4 2) (byte m 0 4) = none → s.mirrorOf (byte m 4 2) (byte m 0 4) = none →
      let img := m.payload.drop 48
      crc64 (m.payload.take 0x28 ++ img) = byte m 0x28 8 → img.length = byte m 6 2 * 256 → img.length ≤ 0x40000 →
      (List.range 4096).find? (fun k => (s.mirrorAt k).isNone) = some k → s.pcsActive = true → (∃ y ∈ s.scheds, y.ident.toNat = byte m 0x10 8) →
      Next (exec (.mirror true) s) (fun t =>
        t.hbm.bytes (s.mirrorAddr k false) img.length = img ∧
        t.mirrorAt k = some ⟨byte m 4 2, byte m 0 4, m.src, byte m 8 4, false, byte m 0x18 8, byte m 6 2, byte m 0x0C 1,
          byte m 0x0D 1 % 2 == 1, byte m 0x10 8⟩ ∧ ∀ j, j ≠ k → t.mirrorAt j = s.mirrorAt j)) ∧
    (∀ m i y, next 0x04 m → s.strOf (byte m 0 2) (byte m 4 4) = some i → m.src = (s.str i).buddy → byte m 16 1 = 0 →
      (s.str i).step = some y → y.released = true → y.replayed = false → byte m 8 8 = (s.str i).cseq + 1 → Next (exec .mack s) (fun t =>
        t.str i = { s.str i with step := some { y with mirrorAck := true } } ∧ t = { s with linkIn := s.linkIn.erase m, strm := t.strm })) ∧
    (∀ m k, next 0x0C m → s.mirrorOf (byte m 0 2) (byte m 4 4) = some k → Next (exec .mrel s) (fun t =>
      t.mirrorAt k = none ∧ (∀ j, j ≠ k → t.mirrorAt j = s.mirrorAt j) ∧
      t = { s with linkIn := s.linkIn.erase m, mirrors := t.mirrors, takeovers := t.takeovers })) ∧
    (∀ (i : BitVec 12) y, (s.str i.toNat).step = some y → (s.str i.toNat).mirror = true → y.released = true → y.mirrorAck = false →
      y.failedAfter = false → y.lost = false → s.member (s.str i.toNat).buddy = true → s.reachable (s.str i.toNat).buddy = true →
      (s.str i.toNat).timer + s.mirrorTime ≤ s.rclk → Next (exec (.mirrorTimeout i) s) (fun t =>
        t.str i.toNat = { s.str i.toNat with step := some { y with failedAfter := true } })) ∧
    (∀ k i w e, s.takeovers.find? (fun t => t.entry == k) = some w → s.mirrorAt k = some e → w.due ≤ s.rclk →
      (List.range 4096).find? (fun i => (s.str i).st == .free) = some i → Next (exec (.takeover k) s) (fun t =>
        (t.str i).st = .paused ∧ (t.str i).cls = e.cls ∧ (t.str i).originSeat = e.originSeat ∧ (t.str i).originHandle = e.originHandle ∧
        t.mirrorAt k = none ∧ t.fld CH_CNT 31 16 = min (s.fld CH_CNT 31 16 + 1) 0xFFFF))

/-! ## Power, clocks, heat -/

namespace Sys2Proof.Claims

/-- The newest entry of the fault log tells an event (R567, R569): its code, unit and action in word 2, its INFO in word 3; the log's
pointers named entries before it. -/
def Logged (code unit action info : Nat) (s t : State) : Prop :=
  s.reg FLT_HEAD < 256 →
    let i := (t.reg FLT_HEAD + 255) % 256
    t.fld (FLT_ENTRY i 2) 23 0 = code + unit * 256 + action * 65536 ∧ t.reg (FLT_ENTRY i 3) = info
/-- Every step that a context works on and for whose gathering a test holds fails before release; other streams are as they were. -/
def StepsFail (f : Nat → Bool) (s t : State) : Prop :=
  ∀ i, (∀ y, (s.str i).step = some y → y.dispatched = true → f (s.strGath i) = true →
      t.str i = { s.str i with step := some { y with failed := true } }) ∧
    ((∀ y, (s.str i).step = some y → y.dispatched = false ∨ f (s.strGath i) = false) → t.str i = s.str i)
/-- Folio n sleeps in F2, F3 or F4 while the device is in D0, and nothing keeps a vote on it from waking it. -/
def Asleep (n : Nat) (s : State) : Prop :=
  s.devState = 0 ∧ s.seqOf 0x40 = none ∧ n < 50 ∧ 2 ≤ s.folioState n ∧ s.folioState n ≤ 4 ∧ s.retired n = false ∧ s.seqOf n = none ∧
    s.domainFails n = false

end Sys2Proof.Claims

/-- Votes and power states (R526, R528 to R530, R533, R534, R536, R537, R541, R542): a vote that stands wakes the folios of its
gathering; an idle folio is in F1; an entry starts its window and ends in its state, or with the exit that a latched wake asked for;
an exit goes step by step and ends with the folio in F1 and the device in D0; a step that times out runs once more, and then its
domain fails. -/
def Obligations.VotesEntriesAndExits : Prop :=
  ∀ (n : Fin 50) (s : State),
    let d := BitVec.ofNat 8 n.val
    let wakes := fun (g : Nat) (t : State) => ∀ k ∈ members (s.gmask g), Asleep (s.phys k) s → t.folioState (s.phys k) = 6
    (∀ p w, PortOpen p PM_VOTE_HOST s → Next (exec (.pmVoteHost p w) s) (fun t =>
      (∀ k, k ≤ 21 ∨ k = 31 → t.rbit PM_VOTE_HOST k = bit w.toNat k) ∧ ∀ g < 16, bit w.toNat g = true → wakes g t)) ∧
    (∀ p w, PortOpen p PM_VOTE_DBG s → Next (exec (.pmVoteDbg p w) s) (fun t =>
      ∀ k, k ≤ 21 ∨ k = 31 → t.rbit PM_VOTE_DBG k = (if s.debugging then bit w.toNat k else s.rbit PM_VOTE_DBG k))) ∧
    (∀ p w, PortOpen p PM_WAKE_CAUSE s → Next (exec (.pmWakeCause p w) s) (fun t =>
      (∀ k < 10, t.rbit PM_WAKE_CAUSE k = (s.rbit PM_WAKE_CAUSE k && !bit w.toNat k)) ∧
      t.wakeLow = (s.wakeLow && decide (t.reg PM_WAKE_CAUSE ≠ 0)))) ∧
    (∀ p w, PortOpen p PM_REFUSE_LOG s → Next (exec (.pmRefuseLog p w) s) (fun t =>
      (t.reg PM_REFUSE_LOG, t.reg PM_REFUSE_CNT) =
        (if bit w.toNat 31 then (0, 0) else (s.reg PM_REFUSE_LOG, s.reg PM_REFUSE_CNT)))) ∧
    (s.folioState n.val = 0 → s.folioQuiet n.val = true → Next (exec (.f1Entry n) s) (fun t =>
      t.folioState n.val = 1 ∧ (∀ m : Fin 50, m ≠ n → t.folioState m.val = s.folioState m.val) ∧ t = { s with regs := t.regs })) ∧
    (s.inReset = false → s.boot = 7 → s.devState = 0 → (s.logical n.val).isSome → s.retired n.val = false → s.seqOf n.val = none →
      1 ≤ s.folioState n.val → s.folioState n.val < 4 → s.folioState n.val < s.folioChoice n.val → s.folioVoted n.val = false →
      s.substs = [] → (s.gathOfPhys n.val).any (fun g => bit s.switching g) = false →
      (s.tagsOpen n.val = false → Next (exec (.powerEntry d true) s) (fun t => t.folioState n.val = 5 ∧
        t.seqOf n.val = some ⟨true, s.folioChoice n.val, s.folioState n.val, s.rclk, [], [s.entryTime (s.folioChoice n.val - 2)], false, false, 0⟩ ∧
        t = { s with regs := t.regs, pwr := t.pwr })) ∧
      Next (exec (.powerEntry d false) s) (fun t => t.folioState n.val = s.folioState n.val ∧
        t.fld PM_REFUSE_CNT 31 16 = min (s.fld PM_REFUSE_CNT 31 16 + 1) 0xFFFF ∧ t = { s with regs := t.regs })) ∧
    (s.inReset = false → s.boot = 7 → s.seqOf 0x40 = none → s.devState < 2 → s.devState < s.devChoice → s.devVoted = false →
      (∀ m ∈ s.active, 2 ≤ s.folioState m ∧ s.folioState m ≤ 4) → s.entryCheck 0x40 = none →
      Next (exec (.powerEntry 0x40 true) s) (fun t => t.devState = 3 ∧ t.sideband = s.sideband ++ [.state 3] ∧
        t.seqOf 0x40 = some ⟨true, s.devChoice, s.devState, s.rclk, [], [s.entryTime (s.devChoice + 2)], false, false, 0⟩)) ∧
    (∀ l : Fin 6, s.inReset = false → s.boot = 7 → s.portVoted l.val = false → s.mayNap l.val = true →
      (s.linkState l.val = 0 ∨ s.linkState l.val = 2) →
      Next (exec (.powerEntry (BitVec.ofNat 8 (0x48 + l.val)) true) s) (fun t => t.linkState l.val = 3)) ∧
    (∀ x, s.seqOf n.val = some x → x.entering = true → 2 ≤ x.target → x.target ≤ 4 → x.since + 2 + x.delays.headD 0 ≤ s.rclk →
      Next (exec (.entryComplete d) s) (fun t => t.folioState n.val = (if x.latched then 6 else x.target) ∧
        (x.latched = false → t.seqOf n.val = none) ∧
        (x.target = 4 → ∀ a < 2 ^ 20, t.fm.byte (n.val * 2 ^ 20 + a) = 0) ∧ (x.target = 2 → t.fm = s.fm ∧ t.ob = s.ob))) ∧
    (∀ x, s.seqOf 0x40 = some x → x.entering = true → x.latched = false → 1 ≤ x.target → x.target ≤ 2 →
      x.since + 2 + x.delays.headD 0 ≤ s.rclk → Next (exec (.entryComplete 0x40) s) (fun t =>
        t.devState = x.target ∧ t.seqOf 0x40 = none ∧ (x.target = 2 → ∀ a < 2 ^ 26, t.vat.byte a = 0))) ∧
    (∀ x j js, s.seqOf n.val = some x → x.entering = false → x.steps = j :: js →
      (s.stepDue x = true → j ≠ 20 ∨ (s.logical n.val).isSome →
        (js ≠ [] → Next (exec (.exitStep d) s) (fun t =>
          t.seqOf n.val = some { x with steps := js, delays := x.delays.drop 1, since := s.rclk, retried := false } ∧
          t.folioState n.val = s.folioState n.val)) ∧
        (js = [] → s.heldWrites = [] → Next (exec (.exitStep d) s) (fun t => t.seqOf n.val = none ∧ t.folioState n.val = 1))) ∧
      (waitsReady j = true → x.since + 4 * x.delays.headD 0 ≤ s.rclk →
        (x.retried = false → Next (exec (.wakeFail d) s) (fun t =>
          t.seqOf n.val = some { x with retried := true, since := s.rclk + (if j = 11 then 0 else 16) } ∧ t = { s with pwr := t.pwr })) ∧
        (x.retried = true → Next (exec (.wakeFail d) s) (fun t => t.folioState n.val = 7 ∧ t.retired n.val = true)))) ∧
    (∀ x j, s.seqOf 0x40 = some x → x.entering = false → x.steps = [j] → j ≠ 20 → s.stepDue x = true → s.heldWrites = [] →
      Next (exec (.exitStep 0x40) s) (fun t =>
        t.devState = 0 ∧ t.seqOf 0x40 = none ∧ (x.old = 2 → ∀ m ∈ s.active, t.folioState m = 1))) ∧
    (Asleep n.val s → (s.logical n.val).isSome → s.folioVoted n.val = true → Next (exec (.exitStep d) s) (fun t =>
      t.folioState n.val = 6 ∧ ∃ x, t.seqOf n.val = some x ∧ x.entering = false ∧ x.steps = s.folioSteps n.val (s.folioState n.val))) ∧
    (2 ≤ s.level → s.rbit PM_PLAN 31 = true → s.planTimer = true → s.planLast ≠ 0 → (∀ a, s.planAt = some a → a + 1 < s.planLast) →
      let g := s.clsGath (s.fld PM_PLAN 27 24)
      s.planLast + s.fld PM_PLAN 23 0 ≤ s.rclk + s.wakeTime g + 1 →
      Next (exec .plannerExpiry s) (fun t => t.planAt = some s.rclk ∧ wakes g t))

/-- Clocks, supplies and heat (R523, R546, R547, R557, R565, R628): what each event sets, and which steps fail and are rerun. -/
def Obligations.ClocksSuppliesAndHeat : Prop :=
  ∀ (s : State),
    let fault := fun (t : State) => t = { s with refLost := t.refLost, regs := t.regs, sideband := t.sideband, faultLow := t.faultLow }
    (s.refLost = false → Next (exec .clkRefLoss s) (fun t =>
      t.refLost = true ∧ t.fld CLK_STAT 31 29 = 7 ∧ t.faultLow = true ∧ Logged 0x48 0xB1 0 0 s t ∧ fault t)) ∧
    (s.refLost = true → Next (exec .refclkReturn s) (fun t =>
      t.refLost = false ∧ t.rbit CLK_STAT 31 = false ∧ t.rbit CLK_STAT 29 = false ∧ t.rbit CLK_STAT 30 = s.rbit CLK_STAT 30 ∧
      (∀ k, k ≠ CLK_STAT → t.reg k = s.reg k) ∧ t = { s with refLost := false, regs := t.regs })) ∧
    (s.refLost = true → Next (exec .refclkLossTimeout s) (fun t =>
      t.withdrawn = true ∧ t.devState = 2 ∧ (∀ a < 2 ^ 26, t.vat.byte a = 0) ∧ ∀ n : Fin 50, t.retired n.val = false → t.folioState n.val = 4)) ∧
    (∀ u : Fin 11, s.devState = 0 → s.inReset = false → s.rbit CLK_STAT u.val = false → Next (exec (.clkPll u) s) (fun t =>
      t.rbit CLK_STAT u.val = true ∧
      StepsFail (fun g => u.val == 10 || (members (s.gmask g)).any (fun j => s.phys j / 5 == u.val)) s t)) ∧
    (∀ r : Rail, r ∉ s.railsOut →
      (∀ n, r = .folioReg n → s.retired n.val = false → Next (exec (.supply r) s) (fun t =>
        t.retired n.val = true ∧ t.folioState n.val = 4)) ∧
      (r = .core ∨ r = .sram → Next (exec (.supply r) s) (fun t => t.railsOut = s.railsOut ++ [r] ∧ StepsFail (fun _ => true) s t)) ∧
      (r = .rind ∨ r = .vddq ∨ r = .serdes → Next (exec (.supply r) s) (fun t =>
        t.railsOut = s.railsOut ++ [r] ∧ Logged 0x4B (railUnit r) 0 0 s t ∧ t.strm = s.strm))) ∧
    (∀ r : Rail, r ∈ s.railsOut →
      Next (exec (.supplyReturn r) s) (fun t => t.railsOut = s.railsOut.filter (fun x => x != r) ∧
        t.quietUntil = (if r = .core ∨ r = .sram then s.rclk + 10 else s.quietUntil) ∧
        t = { s with railsOut := t.railsOut, quietUntil := t.quietUntil }) ∧
      (r = .core ∨ r = .sram → Next (exec (.supplyExcursionTimeout r) s) (fun t => t.withdrawn = true))) ∧
    (∀ temps : BitVec 128,
      let now := fun (k : Nat) => bits temps.toNat (8 * k + 7) (8 * k)
      let hbm := fun (k : Nat) => degrees (s.fld (HBM_TEMP k) 7 0)
      s.inReset = false → s.tripReset = 0 → s.devState = 0 → Next (exec (.thermalSample temps) s) (fun t =>
        (∀ k : Fin 16, t.reg (THERM_S k.val) = 2 ^ 31 + now k.val ∧ t.rbit THERM_STAT k.val = decide (105 ≤ degrees (now k.val))) ∧
        ((∃ k : Fin 16, 105 ≤ degrees (now k.val)) → t.rbit THERM_STAT 31 = true ∧ t.thermLow = true) ∧
        ((∀ k : Fin 16, degrees (now k.val) < 100) → (∀ k : Fin 4, hbm k.val < 95) → t.rbit THERM_STAT 31 = false ∧ t.thermLow = false) ∧
        t = { s with regs := t.regs, thermLow := t.thermLow })) ∧
    (s.devState ≠ 7 → Next (exec .thermTrip s) (fun t =>
      t.devState = 7 ∧ t.thermLow = true ∧ t.faultLow = true ∧ (∀ a < 2 ^ 26, t.vat.byte a = 0) ∧ t.hoop.standing = false ∧ t.hoop.ends = 0 ∧
      ∀ i, (s.str i).st.live = true → (t.str i).st = .fenced))

/-! ## Transactions and the register window -/

namespace Sys2Proof.Claims

/-- A write of a clear register with bit 0 set makes its counters zero and leaves every other register but the page's errors. -/
def Clears (p : Port) (a : Nat) (ts : List Nat) (c : Instr) (s : State) : Prop :=
  PortOpen p a s → Next (exec c s) (fun t => (∀ x ∈ ts, t.reg x = 0) ∧
    (∀ x, x ∉ ts → x ≠ ERR_STATUS (a / 4096) → t.reg x = s.reg x) ∧ t = { s with regs := t.regs, txns := t.txns, sideband := t.sideband })

end Sys2Proof.Claims

/-- Transactions, the window and clears (R580, R583, R592 to R594, R596 to R600, R602, R625, R572): a slot opens for a tag that is free; a
TX write of its port is staged and takes no effect before the press point; a commit whose checks pass puts every staged value in
force, a failing one changes none; a lease that runs out rolls the transaction back; RW writes take effect at once; a clear register
zeroes its counters; JTAG reaches the window only while DBG_EN is 1. -/
def Obligations.TransactionsAndTheWindow : Prop :=
  ∀ (p : Port) (w : Word) (s : State),
    let v := w.toNat
    let tag := bits v 15 0
    let others := fun (k : Nat) (t : State) => ∀ j, j ≠ k → t.txn j = (s.touch p).txn j
    let live := fun (j : Nat) => (s.txn j).live = true
    (PortOpen p TXN_BEGIN s → ∀ k : Fin 4, (s.txn k.val).live = false → (∀ j < k.val, live j) →
      bits v 31 16 ≠ 0 → (∀ j < 4, live j → (s.txn j).gmask &&& tag = 0) →
      (∀ j < 4, live j → ¬((s.txn j).port = portCode p ∧ (s.txn j).tag = bits v 31 16)) → Next (exec (.txnBegin p w) s) (fun t =>
        t.txn k.val = { Txn.reset with tag := bits v 31 16, gmask := tag, st := 1, port := portCode p, lease := s.leaseLen,
                                       len := s.leaseLen, out := (s.txn k.val).out } ∧
        t.readWord p (pg 0x001 0x044) = some (2 ^ 31 + k.val * 256) ∧ others k.val t ∧
        t = { s with txns := t.txns, portRegs := t.portRegs, sideband := t.sideband })) ∧
    (PortOpen p TXN_BEGIN s → (∀ k : Fin 4, live k.val) → Next (exec (.txnBegin p w) s) (fun t =>
      t.readWord p (pg 0x001 0x044) = some (2 ^ 31 + 0x30) ∧ ∀ j, t.txn j = (s.touch p).txn j)) ∧
    (PortOpen p TXN_SEL s → Next (exec (.txnSel p w) s) (fun t => t.selTag p = tag ∧
      ∀ k, s.openTxn p tag = some k → (t.txn k).lease = (s.txn k).len)) ∧
    (∀ addr : BitVec 21, let a := addr.toNat
      let m := (s.spec a).tx
      PortOpen p a s → a % 4 = 0 → m ≠ 0 →
      (s.openTxn p (s.selTag p) = none → Next (exec (.txnStage p addr w) s) (fun t => t.rbit (ERR_STATUS (a / 4096)) 29 = true)) ∧
      (∀ k, s.openTxn p (s.selTag p) = some k →
        (∀ j < 4, j ≠ k → live j → ∀ x ∈ (s.txn j).staged, x.1 ≠ a) → Next (exec (.txnStage p addr w) s) (fun t =>
          (t.txn k).staged = putStaged (s.txn k).staged a m (v &&& m) ∧ ∀ j, j ≠ k → (t.txn j).staged = (s.txn j).staged))) ∧
    (∀ pn < 512, (p = .jtag → s.rbit DEV_SEAL 1 = true) → s.pageShown pn = true →
      Next (exec (.registerWrite p (BitVec.ofNat 32 (INT_ENABLE pn)) 32 (BitVec.ofNat 64 v)) s) (fun t =>
        t.reg (INT_ENABLE pn) = v ∧ ∀ k, k ≠ INT_ENABLE pn → t.reg k = s.reg k) ∧
      (∀ a : BitVec 32, a.toNat / 4096 = pn → a.toNat % 4 ≠ 0 → Next (exec (.registerWrite p a 32 (BitVec.ofNat 64 v)) s) (fun t =>
        t.rbit (ERR_STATUS pn) 31 = true ∧ ∀ k, k ≠ ERR_STATUS pn → t.reg k = s.reg k))) ∧
    (PortOpen p TXN_COMMIT s → ∀ k, s.openTxn p tag = some k → s.boot = 7 → Next (exec (.txnCommit p w) s) (fun t =>
      t.txn k = { s.txn k with st := 2, lease := 0 } ∧ others k t)) ∧
    (PortOpen p TXN_ROLLBACK s → ∀ k, s.liveTxn p tag = some k → Next (exec (.txnRollback p w) s) (fun t =>
      t.txn k = { s.txn k with st := 5, staged := [], lease := 0 } ∧ others k t ∧
      ∀ a, a ≠ ERR_STATUS 1 → t.reg a = s.reg a)) ∧
    (∀ k : Fin 4, let x := s.txn k.val
      (x.st = 1 → x.lease = 0 → Next (exec (.txnOrphaned k) s) (fun t =>
        t.txn k.val = { x with st := 6, staged := [], lease := 0, out := 2 } ∧ (∀ j, j ≠ k.val → t.txn j = s.txn j) ∧
        t.fld TXN_CNT 31 16 = min (s.fld TXN_CNT 31 16 + 1) 0xFFFF ∧ t.rbit TXN_SLOT_ACK k.val = true)) ∧
      (x.st = 2 → s.pressReady x = true →
        (∀ c, commitFails s x = some c → Next (exec (.pressPoint k) s) (fun t =>
          t.txn k.val = { x with st := 4, code := c.1, res := c.2.1, owner := c.2.2, out := 1 } ∧
          t.fld TXN_CNT 15 0 = min (s.fld TXN_CNT 15 0 + 1) 0xFFFF ∧
          (∀ a, a ≠ TXN_CNT → a ≠ TXN_SLOT_ACK → t.reg a = s.reg a) ∧
          t = { s with txns := t.txns, regs := t.regs, sideband := t.sideband })) ∧
        (commitFails s x = none → Next (exec (.pressPoint k) s) (fun t =>
          t.txn k.val = { x with st := 3, code := 0, out := 1 } ∧ (∀ j, j ≠ k.val → t.txn j = s.txn j) ∧
          ((x.staged.map (fun y => y.1)).Nodup → ∀ y ∈ x.staged, (regSpec y.1).tx = y.2.1 → y.2.2 &&& y.2.1 = y.2.2 →
            t.reg y.1 &&& y.2.1 = y.2.2))))) ∧
    (v % 2 = 1 →
      (∀ n : Fin 50,
        (2 ≤ s.level → Clears p (pg (0x042 + 4 * n.val) 0x04C) [FOLIO_OVR_CNT n.val] (.folioOvrClr p n w) s) ∧
        Clears p (pg (0x040 + 4 * n.val) 0x0D8) [FOLIO_PERR_CNT n.val] (.folioPerrClr p n w) s ∧
        Clears p (pg (0x041 + 4 * n.val) 0x05C) [SEQ_CNT n.val, SEQ_IRQ_MAX n.val] (.seqCntClr p n w) s) ∧
      Clears p (pg 0x140 0x068) [VAT_PERR_CNT] (.vatPerrClr p w) s ∧
      (∀ k : Fin 4, Clears p (pg (0x151 + k.val) 0x04C) [HBM_ERR_CNT k.val] (.hbmErrClr p k w) s) ∧
      (∀ q : Fin 10, Clears p (pg (0x160 + q.val) 0x048) [MOVER_CNT q.val] (.moverCntClr p q w) s) ∧
      Clears p (pg 0x190 0x084) [SPN_CNT] (.spnCntClr p w) s ∧
      Clears p (pg 0x170 0x048) [LNK_DEV_CNT] (.lnkDevClr p w) s ∧
      (∀ l : Fin 6, Clears p (pg (0x171 + l.val) 0x04C) [LNK_CNT l.val, LNK_FEC l.val] (.lnkCntClr p l w) s) ∧
      Clears p (pg 0x1B0 0x064) [CH_CNT] (.chCntClr p w) s ∧
      Clears p (pg 0x177 0x08C) [D2D_CNT, D2D_RETRAIN_CNT] (.d2dCntClr p w) s ∧
      Clears p (pg 0x1A1 0x07C) ((List.range 7).map STRM_CNT) (.strmCntClr p w) s ∧
      Clears p (pg 0x001 0x060) [TXN_CNT] (.txnCntClr p w) s ∧
      Clears p (pg 0x008 0x050) [FLT_CNT] (.fltClr p w) s ∧
      (PortOpen p (pg 0x006 0x084) s → Next (exec (.thermClr p w) s) (fun t => t.fld THERM_STAT 23 16 = 0 ∧
        t.fld THERM_STAT 15 0 = s.fld THERM_STAT 15 0 ∧ t.thermLow = s.thermLow)) ∧
      (PortOpen p (pg 0x008 0x054) s → (∃ n : Fin 50, s.mode n.val = 2) → Next (exec (.fltInject p w) s) (fun t =>
        t.faultLow = true ∧ t.rbit FLT_STAT 31 = true ∧ Logged 0xF0 0xB0 0 0 s t))) ∧
    (PortOpen p FLT_STAT s →
      (bit v 31 = true → bit v 29 = false → s.devState ≠ 7 → Next (exec (.fltStatFault p w) s) (fun t =>
        t.faultLow = false ∧ t.rbit FLT_STAT 31 = false ∧ t.withdrawn = s.withdrawn ∧ t.strm = s.strm)) ∧
      (bit v 29 = true → Next (exec (.withdraw p w) s) (fun t => t.withdrawn = true))) ∧
    (∀ n : Fin 50, PortOpen p (ARR_DBG_SEL n.val) s → 2 ≤ s.level →
      (s.mode n.val = 4 → s.arrQuiet n.val (bits v 21 20) = true → v % 8 = 0 → Next (exec (.arrDbgSel p n w) s) (fun t =>
        t.rbit (ARR_DBG_SEL n.val) 31 = true ∧ t.reg (ARR_DBG_DATA n.val) =
          (Sp.get (fun _ => 0) s.accf (((4 * n.val + bits v 21 20) * 64 + bits v 19 14) * 32 + bits v 9 5)).toNat)) ∧
      (s.mode n.val ≠ 4 → Next (exec (.arrDbgSel p n w) s) (fun t =>
        t.rbit (ARR_DBG_SEL n.val) 31 = false ∧ t.reg (ARR_DBG_DATA n.val) = 0))) ∧
    (∀ x : BitVec 97, let a := bits x.toNat 95 64
      (s.rbit DEV_SEAL 1 = false → exec (.window x) s = .next { s with jtagData := BitVec.allOnes 64 }) ∧
      (s.rbit DEV_SEAL 1 = true → bit x.toNat 96 = true →
        exec (.window x) s = exec (.registerWrite .jtag (BitVec.ofNat 32 a) 32 (BitVec.ofNat 64 (bits x.toNat 31 0))) s) ∧
      (s.rbit DEV_SEAL 1 = true → bit x.toNat 96 = false → a < 0x200000 → a % 4 = 0 → a ≠ STRM_DONE_HI →
        ∀ y, (s.touch .jtag).readWord .jtag a = some y →
          exec (.window x) s = .next { s.touch .jtag with jtagData := BitVec.ofNat 64 y }))

/-! ## Mailbox, sparing, firmware; resets and bring-up -/

/-- The mailbox (R559, R560, R574 to R576, R607 to R610): a command refused while BUSY; an operation that carries data waits for its
chunks and takes effect at its end; one that is immediate takes effect and ends at once; a chunk that does not come ends it; a
substitution gives the spare its index; a gathering that has switched runs the image that FW_SEL names. -/
def Obligations.MailboxSparingAndFirmware : Prop :=
  ∀ (p : Port) (s : State),
    let takes := PortOpen p MBX_CMD s ∧ s.rbit MBX_STAT 31 = false
    let ready := takes ∧ s.boot = 7
    let arg := fun (i : Nat) => s.reg (MBX_ARG i)
    let ends := fun (code : Nat) (t : State) => t.rbit MBX_STAT 31 = false ∧ t.rbit MBX_STAT 29 = false ∧
      t.fld MBX_STAT 23 16 = code ∧ t.mbx = none ∧ ∀ i < 12, t.reg (MBX_ARG i) = 0
    let runs := fun (op : Nat) (t : State) => t.rbit MBX_STAT 31 = true ∧ ∃ m, t.mbx = some m ∧ m.op = op ∧ m.port = p ∧ m.lastChunk = false
    let waits := fun (op : Nat) (fw : Option FwImage) (sc : Option Sched) (t : State) => runs op t ∧ t.rbit MBX_STAT 29 = true ∧
      ∃ m, t.mbx = some m ∧ m.fw = fw ∧ m.sched = sc
    (∀ op : BitVec 8, PortOpen p MBX_CMD s → s.rbit MBX_STAT 31 = true → Next (exec (.mbxOp p op) s) (fun t =>
      t.rbit MBX_STAT 30 = true ∧ t.mbx = s.mbx)) ∧
    (∀ op : BitVec 8, takes → (op.toNat = 0 ∨ 0x0D < op.toNat ∨ (s.level < 2 ∧ 6 ≤ op.toNat ∧ op.toNat ≤ 8)) →
      Next (exec (.mbxOp p op) s) (ends 0x01)) ∧
    (∀ f, takes → s.scheds = [] → Next (exec (.fwLoad p f) s) (waits 1 (some f) none)) ∧
    (∀ f, ready → s.reg FW_SEL = 0 → Next (exec (.fwStage p f) s) (waits 2 (some f) none)) ∧
    (∀ x, ready → Next (exec (.schedLoad p x) s) (waits 4 none (some x))) ∧
    (∀ f, ready → s.rbit FW_STAT 31 = true → s.staged = some f → (∀ g < 16, s.gathEn g = true → s.rbit FW_SEL g = true) →
      Next (exec (.fwPromote p) s) (fun t => ends 0 t ∧ t.image = some f ∧ t.fld FW_VER 15 0 = f.version.toNat)) ∧
    (∀ y ∈ s.scheds, ready → y.ident.toNat = arg 0 + arg 1 * 2 ^ 32 →
      (∀ i, (s.str i).st ≠ .free → (s.str i).sched ≠ y.ident.toNat) → Next (exec (.schedUnload p) s) (fun t =>
        ends 0 t ∧ t.scheds = s.scheds.filter (fun x => x.ident.toNat != y.ident.toNat))) ∧
    (ready → 2 ≤ s.level → arg 8 ≤ 7 →
      Next (exec (.keyLoad p) s) (fun t => ends 0 t ∧ t.rbit (pg 0x1A5 0x040) (arg 8) = true ∧
        ∃ k, Sp.get (fun _ => none) t.keys (arg 8) = some k ∧ (∀ i < 8, bits k.key.toNat (32 * i + 31) (32 * i) = arg i) ∧
          k.gen.toNat = arg 9 ∧ k.ctr = 0) ∧
      Next (exec (.keyClear p) s) (fun t => ends 0 t ∧ t.rbit (pg 0x1A5 0x040) (arg 8) = false ∧
        Sp.get (fun _ => none) t.keys (arg 8) = none)) ∧
    (ready → 2 ≤ s.level → s.keyCode (arg 1) ≠ 8 → (∀ i, (s.str i).st = .paused → (s.str i).cls ≠ arg 0) →
      Next (exec (.bulkExport p) s) (fun t => runs 8 t ∧ t.reg (MBX_RES 0) = 0 ∧ t.reg (MBX_RES 1) = 0 ∧ t.strm = s.strm)) ∧
    (ready → (arg 0 = 1 ∨ arg 0 = 2) → Next (exec (.romRead p) s) (fun t =>
      runs 9 t ∧ t.rbit MBX_STAT 29 = true ∧ t.reg (MBX_DATA 0) = (if arg 0 = 2 then 0x2B61 else 0x1A04))) ∧
    (ready → Next (exec (.scrubAll p) s) (runs 0x0A)) ∧
    (ready → s.testOk (testMask (arg 0) (arg 1)) = true → Next (exec (.selfTest p) s) (runs 0x0B)) ∧
    (ready → arg 0 < 50 → s.retired (arg 0) = false → s.freeSpare.isSome → Next (exec (.folioRetire p) s) (fun t =>
      t.rbit MBX_STAT 31 = true ∧ t.retired (arg 0) = true ∧ t.folioState (arg 0) = 4)) ∧
    (ready → arg 0 < 4 → arg 1 < 32 → s.pcState (arg 0) (arg 1) = 0 → s.rbit HBM_STAT (4 + arg 0) = false →
      Next (exec (.pcRetire p) s) (fun t => runs 0x0D t ∧ t.pcState (arg 0) (arg 1) = 1 ∧ t.rbit HBM_STAT (4 + arg 0) = true)) ∧
    (∀ (w : Word) (m : MbxOp), PortOpen p MBX_CHUNK s → s.mbx = some m → m.inbound = true → s.rbit MBX_STAT 29 = true →
      bit w.toNat 31 = true → Next (exec (.mbxChunk p w) s) (fun t => t.rbit MBX_STAT 29 = !bit w.toNat 30 ∧
        t.fld MBX_STAT 15 0 = min (s.fld MBX_STAT 15 0 + 1) 0xFFFF ∧
        ∃ u, t.mbx = some u ∧ u.sent = m.sent + 1 ∧ u.op = m.op ∧ u.lastChunk = (m.lastChunk || bit w.toNat 30))) ∧
    (∀ m, s.mbx = some m →
      (s.rbit MBX_STAT 29 = true → m.since + 960000 ≤ s.rclk → Next (exec .mbxTimeout s) (ends 0x04)) ∧
      (∀ found, m.lastChunk = true →
        (∀ f, m.op = 1 → m.fw = some f → Next (exec (.mbxOperationEnd found) s) (fun t =>
          if f.signed then ends 0 t ∧ t.image = some f ∧ t.fld FW_VER 15 0 = f.version.toNat else ends 0x06 t ∧ t.image = s.image)) ∧
        (∀ f, m.op = 2 → m.fw = some f → f.signed = true → Next (exec (.mbxOperationEnd found) s) (fun t =>
          if s.fwFits f then ends 0 t ∧ t.staged = some f ∧ t.rbit FW_STAT 31 = true else ends 0x07 t ∧ t.staged = s.staged)) ∧
        (∀ x, m.op = 4 → m.sched = some x → Next (exec (.mbxOperationEnd found) s) (fun t => ends (s.schedCode x) t ∧
          t.scheds = (if s.schedCode x = 0 then s.scheds ++ [x] else s.scheds)))) ∧
      (∀ found : BitVec 64, m.op = 0x0A → Next (exec (.mbxOperationEnd found) s) (fun t =>
        ends 0 t ∧ t.reg (MBX_RES 0) = found.toNat % 2 ^ 32))) ∧
    (∀ (n : Fin 50) (x : Subst) (q : PwrSeq), Sp.get (fun _ => none) s.substs n.val = some x → x.spare < 50 → x.logical < 48 →
      s.seqOf x.spare = some q → q.entering = false → q.steps = [20] → s.heldWrites = [] →
      Next (exec (.substitutionDone n) s) (fun t => t.phys x.logical = x.spare ∧ t.folioState x.spare = 1 ∧
        t.seqOf x.spare = none ∧ Sp.get (fun _ => none) t.substs n.val = none)) ∧
    (∀ g : Fin 16, bit s.switching g.val = true →
      Next (exec (.fwSwitchComplete g) s) (fun t => t.rbit FW_STAT g.val = s.rbit FW_SEL g.val ∧ t.fld FW_STAT 19 16 = g.val ∧
        t.switching = s.switching - 2 ^ g.val ∧ t.rbit FW_STAT 30 = decide (t.switching ≠ 0)) ∧
      (s.rbit FW_SEL g.val = true → Next (exec (.fwUpdateFail g) s) (fun t => t.rbit FW_SEL g.val = false ∧
        ∀ i y, s.strGath i = g.val → (s.str i).step = some y → (t.str i).step = some { y with failed := true })))

/-- Resets and bring-up (R548, R622, R631 to R640): PORST_N puts everything at its reset value, WARM_N keeps HBM, images and schedules;
each stage of bring-up ends in the next one or in HALTED with its code, and after LINK the device is in READY and D0. -/
def Obligations.ResetsAndBringUp : Prop :=
  ∀ (s : State),
    let halted := fun (code : Nat) (t : State) => t.boot = 0xF ∧ t.fld BOOT_STAT 23 16 = code ∧ t.devState = 2
    (s.tooHot = false → Next (exec .porstNAssertion s) (fun t => t.inReset = true ∧ t.regs = [] ∧ t.fm = [] ∧ t.vat = [] ∧ t.hbm = [] ∧
      t.strm = [] ∧ t.reg 0x040 = 0x7A310006 ∧ t.boot = 0 ∧ t.pending = s.pending)) ∧
    (s.tripReset ≠ 1 → s.inReset = true → Next (exec .porstN s) (fun t =>
      t.inReset = false ∧ t.boot = 0 ∧ t.rbit CLK_STAT 31 = true ∧ t.strm = [] ∧ t.pending = s.pending)) ∧
    (∀ saved, s.inReset = true → exec (.warmN saved) s = .next s) ∧
    (∀ saved, s.inReset = false → s.tripReset = 0 → ¬(s.boot = 0xF ∧ s.fld BOOT_STAT 23 16 = 2) → s.tooHot = false → Next (exec (.warmN saved) s) (fun t =>
      t.inWarm = true ∧ t.boot = 0 ∧ t.rbit BOOT_STAT 15 = true ∧ t.strm = [] ∧ t.fm = [] ∧ t.image = s.image ∧ t.staged = s.staged ∧
      t.scheds = s.scheds ∧ (saved = false → t.hbm = s.hbm) ∧ (saved = true → s.boot = 7 → s.devState ≠ 7 → t.saved = true) ∧
      (Sp.wf regReset s.regs = true → s.reg FLT_HEAD < 256 → s.substs = [] → saved = false → ∀ a, 0x40000 ≤ a → (regSpec a).tx = regAll →
        t.reg a = s.reg a))) ∧
    (s.tripReset ≠ 3 → s.inWarm = true → Next (exec .warmNRelease s) (fun t =>
      t.inWarm = false ∧ t.boot = 0 ∧ t.rbit CLK_STAT 31 = true ∧ t.hbm = s.hbm)) ∧
    (s.inStage 0 = true →
      (s.refLost = false → Next (exec .rind s) (fun t => t.boot = (if s.isWarm && s.image.isSome then 3 else 1) ∧
        t.rbit CLK_STAT 31 = false ∧ t.fld BOOT_STAT 23 16 = 0 ∧ t = { s with regs := t.regs })) ∧
      Next (exec .refWait s) (fun t => t.boot = 0 ∧ t.fld BOOT_STAT 23 16 = 1 ∧ t.faultLow = true ∧ Logged 0x48 0xB1 0 0 s t)) ∧
    (s.inStage 1 = true →
      Next (exec (.fuse true) s) (fun t => t.boot = (if s.image.isSome then 3 else 2) ∧ t = { s with regs := t.regs }) ∧
      Next (exec (.fuse false) s) (halted 2)) ∧
    (∀ failed banks, s.inStage 3 = true → (∀ r ∈ s.railsOut, r = .rind ∨ ∃ n, r = .folioReg n) →
      Next (exec (.power failed banks true) s) (halted 4) ∧
      (s.short = false → s.heldWrites = [] → Next (exec (.power 0 0 false) s) (fun t => t.boot = 4 ∧ (∀ a < 2 ^ 26, t.vat.byte a = 0) ∧
        ∀ n : Fin 50, t.folioState n.val = (if (s.logical n.val).isSome && !s.retired n.val then 1 else 4) ∧
          t.reg (FOLIO_FM_STAT n.val) = s.reg (FOLIO_FM_PWR n.val) ∧ ∀ a < 2 ^ 20, t.fm.byte (n.val * 2 ^ 20 + a) = 0))) ∧
    (∀ failed banks, s.inStage 4 = true → Next (exec (.test failed banks) s) (fun t =>
      t.fld BOOT_STAT 7 0 = ((List.range 50).filter (fun n => bit failed.toNat n)).length ∧
      (t.boot = 5 ∨ halted 5 t) ∧ ∀ a < 2 ^ 26, t.vat.byte a = 0) ∧
      (s.short = false → Next (exec (.test 0 0) s) (fun t => t.boot = 5))) ∧
    (∀ o : TrainOut, s.inStage 5 = true →
      ((∃ k : Fin 4, bit o.hbms.toNat k.val = false) → Next (exec (.train o) s) (halted 6)) ∧
      (o.hbms = 15 → o.badPc = [] → o.modules = 0 → Next (exec (.train o) s) (halted 7)) ∧
      (o.hbms = 15 → o.badPc = [] → o.modules ≠ 0 → Next (exec (.train o) s) (fun t => t.boot = 6 ∧
        (∀ k : Fin 4, t.rbit HBM_STAT k.val = true) ∧ t.fld D2D_STAT 3 0 = o.modules.toNat ∧ t.d2dRx = 0 ∧ t.d2dTx = 0 ∧
        ∀ p : Fin 6, t.linkState p.val = (if s.linkState p.val = 3 then 3 else 1)))) ∧
    (s.inStage 6 = true → Next (exec .link s) (fun t => t.boot = 7 ∧ t.devState = 0 ∧
      (∀ p : Fin 6, t.linkState p.val = (if s.linkState p.val = 1 then 0 else s.linkState p.val)) ∧ t.strm = s.strm))
end

