-- ==== Sys2Proof/Laws/Memory.lean ====
section
/-! SUPPORT. Laws of the sparse maps and byte memories: reads after writes, and the canonical form that every operation keeps. -/

namespace Sys2Proof.Machine

section
variable {α : Type} (d : Nat → α)

@[simp] theorem Sp.get_nil (k : Nat) : Sp.get d [] k = d k := rfl

theorem Sp.get_del_ne (m : Sp α) {k j : Nat} (h : j ≠ k) : Sp.get d (Sp.del m k) j = Sp.get d m j := by
  induction m with
  | nil => rfl
  | cons p m ih =>
    obtain ⟨a, v⟩ := p
    simp only [Sp.del, List.filter_cons] at ih ⊢
    split
    · simp only [Sp.get, ih]
    · next e =>
      have : a ≠ j := by intro h2; subst h2; simp [h] at e
      simp only [Sp.get, this, if_false, ih]
theorem Sp.get_del_same (m : Sp α) (k : Nat) : Sp.get d (Sp.del m k) k = d k := by
  induction m with
  | nil => rfl
  | cons p m ih =>
    obtain ⟨a, v⟩ := p
    simp only [Sp.del, List.filter_cons] at ih ⊢
    split
    · next e =>
      have : a ≠ k := by simpa using e
      simp only [Sp.get, this, if_false, ih]
    · exact ih

theorem Sp.get_put_same (m : Sp α) (k : Nat) (w : α) : Sp.get d (Sp.put m k w) k = w := by
  induction m with
  | nil => simp [Sp.put, Sp.get]
  | cons p m ih =>
    obtain ⟨a, v⟩ := p
    simp only [Sp.put]
    split
    · next e => simp [Sp.get, e]
    · split
      · simp [Sp.get]
      · next e _ => simp [Sp.get, e, ih]

theorem Sp.get_put_ne (m : Sp α) {k j : Nat} (w : α) (h : j ≠ k) : Sp.get d (Sp.put m k w) j = Sp.get d m j := by
  induction m with
  | nil => simp [Sp.put, Sp.get, h.symm]
  | cons p m ih =>
    obtain ⟨a, v⟩ := p
    simp only [Sp.put]
    split
    · next e => subst e; simp [Sp.get, h.symm]
    · split
      · simp [Sp.get, h.symm]
      · simp only [Sp.get, ih]

variable [DecidableEq α]

/-- Every key of a canonical map from a bound is at least that bound. -/
theorem Sp.wfFrom_get_below {lo : Nat} {m : Sp α} (hm : Sp.wfFrom d lo m = true) {k : Nat} (h : k < lo) : Sp.get d m k = d k := by
  induction m generalizing lo with
  | nil => rfl
  | cons p m ih =>
    obtain ⟨a, v⟩ := p
    simp only [Sp.wfFrom, Bool.and_eq_true, decide_eq_true_eq] at hm
    obtain ⟨⟨h1, _⟩, h3⟩ := hm
    have : a ≠ k := by omega
    simp only [Sp.get, this, if_false]
    exact ih h3 (by omega)

theorem Sp.wfFrom_mono {lo lo' : Nat} {m : Sp α} (hm : Sp.wfFrom d lo m = true) (h : lo' ≤ lo) : Sp.wfFrom d lo' m = true := by
  cases m with
  | nil => rfl
  | cons p m =>
    obtain ⟨a, v⟩ := p
    simp only [Sp.wfFrom, Bool.and_eq_true, decide_eq_true_eq] at hm ⊢
    exact ⟨⟨by omega, hm.1.2⟩, hm.2⟩

theorem Sp.wfFrom_filter {lo : Nat} {m : Sp α} (hm : Sp.wfFrom d lo m = true) (p : Nat × α → Bool) :
    Sp.wfFrom d lo (m.filter p) = true := by
  induction m generalizing lo with
  | nil => rfl
  | cons q m ih =>
    obtain ⟨a, v⟩ := q
    simp only [Sp.wfFrom, Bool.and_eq_true, decide_eq_true_eq] at hm
    obtain ⟨⟨h1, h2⟩, h3⟩ := hm
    simp only [List.filter_cons]
    split
    · simp [Sp.wfFrom, h1, h2, ih h3]
    · exact Sp.wfFrom_mono d (ih h3) (by omega)
theorem Sp.wfFrom_del {lo : Nat} {m : Sp α} (hm : Sp.wfFrom d lo m = true) (k : Nat) : Sp.wfFrom d lo (Sp.del m k) = true :=
  Sp.wfFrom_filter d hm _

theorem Sp.wfFrom_put {lo : Nat} {m : Sp α} (hm : Sp.wfFrom d lo m = true) {k : Nat} {w : α} (hk : lo ≤ k) (hw : w ≠ d k) :
    Sp.wfFrom d lo (Sp.put m k w) = true := by
  induction m generalizing lo with
  | nil => simp [Sp.put, Sp.wfFrom, hk, hw]
  | cons p m ih =>
    obtain ⟨a, v⟩ := p
    simp only [Sp.wfFrom, Bool.and_eq_true, decide_eq_true_eq] at hm
    obtain ⟨⟨h1, h2⟩, h3⟩ := hm
    simp only [Sp.put]
    split
    · next e => subst e; simp [Sp.wfFrom, h1, hw, h3]
    · split
      · next e => simp [Sp.wfFrom, hk, hw, h2, h3, e]
      · simp [Sp.wfFrom, h1, h2, ih h3 (show a + 1 ≤ k by omega)]

theorem Sp.wf_nil : Sp.wf d ([] : Sp α) = true := rfl
theorem Sp.wf_set {m : Sp α} (hm : Sp.wf d m = true) (k : Nat) (w : α) : Sp.wf d (Sp.set d m k w) = true := by
  unfold Sp.set Sp.wf at *
  split
  · exact Sp.wfFrom_del d hm k
  · next h => exact Sp.wfFrom_put d hm (Nat.zero_le k) h

theorem Sp.wf_setMany {m : Sp α} (hm : Sp.wf d m = true) (k : Nat) (vs : List α) : Sp.wf d (Sp.setMany d m k vs) = true := by
  induction vs generalizing m k with
  | nil => exact hm
  | cons v vs ih => exact ih (Sp.wf_set d hm k v) (k + 1)

theorem Sp.wf_erase {m : Sp α} (hm : Sp.wf d m = true) (lo n : Nat) : Sp.wf d (Sp.erase m lo n) = true :=
  Sp.wfFrom_filter d hm _

/-- A key that is read after a write to it holds the value written. -/
theorem Sp.get_set_same (m : Sp α) (k : Nat) (w : α) : Sp.get d (Sp.set d m k w) k = w := by
  unfold Sp.set
  split
  · next e => rw [Sp.get_del_same, e]
  · exact Sp.get_put_same d m k w
theorem Sp.get_set_ne (m : Sp α) {k j : Nat} (w : α) (h : j ≠ k) : Sp.get d (Sp.set d m k w) j = Sp.get d m j := by
  unfold Sp.set
  split
  · exact Sp.get_del_ne d m h
  · exact Sp.get_put_ne d m w h

theorem Sp.get_setMany_out {m : Sp α} (k : Nat) (vs : List α) {j : Nat} (h : j < k ∨ k + vs.length ≤ j) :
    Sp.get d (Sp.setMany d m k vs) j = Sp.get d m j := by
  induction vs generalizing m k with
  | nil => rfl
  | cons v vs ih =>
    simp only [List.length_cons] at h
    simp only [Sp.setMany]
    rw [ih (k + 1) (by omega), Sp.get_set_ne d m v (by omega)]
theorem Sp.get_setMany_in (m : Sp α) (k : Nat) (vs : List α) {i : Nat} (h : i < vs.length) :
    Sp.get d (Sp.setMany d m k vs) (k + i) = vs[i] := by
  induction vs generalizing m k i with
  | nil => simp at h
  | cons v vs ih =>
    simp only [Sp.setMany]
    cases i with
    | zero =>
      rw [Sp.get_setMany_out d (k + 1) vs (by omega)]
      simpa using Sp.get_set_same d m k v
    | succ i =>
      have := ih (Sp.set d m k v) (k + 1) (i := i) (by simpa using h)
      simpa [Nat.add_assoc, Nat.add_comm 1 i] using this

end

theorem Sp.get_erase_out {α : Type} (d : Nat → α) (m : Sp α) (lo n : Nat) {k : Nat} (h : k < lo ∨ lo + n ≤ k) :
    Sp.get d (Sp.erase m lo n) k = Sp.get d m k := by
  induction m with
  | nil => rfl
  | cons p m ih =>
    obtain ⟨a, v⟩ := p
    simp only [Sp.erase, List.filter_cons] at ih ⊢
    split
    · simp only [Sp.get, ih]
    · next e =>
      simp only [Bool.or_eq_true, decide_eq_true_eq, not_or, not_lt, not_le] at e
      have : a ≠ k := by omega
      simp only [Sp.get, this, if_false, ih]
theorem Sp.get_erase_in {α : Type} (d : Nat → α) (m : Sp α) (lo n : Nat) {k : Nat} (h : lo ≤ k ∧ k < lo + n) :
    Sp.get d (Sp.erase m lo n) k = d k := by
  induction m with
  | nil => rfl
  | cons p m ih =>
    obtain ⟨a, v⟩ := p
    simp only [Sp.erase, List.filter_cons] at ih ⊢
    split
    · next e =>
      simp only [Bool.or_eq_true, decide_eq_true_eq] at e
      have : a ≠ k := by omega
      simp only [Sp.get, this, if_false, ih]
    · exact ih

/-! ## Byte memories -/

theorem Memory.wf_write {m : Memory} (hm : m.wf = true) (a : Nat) (bs : List (BitVec 8)) : (m.write a bs).wf = true :=
  Sp.wf_setMany _ hm a bs
theorem Memory.wf_store {m : Memory} (hm : m.wf = true) (a n v : Nat) : (m.store a n v).wf = true := Memory.wf_write hm a _
theorem Memory.wf_setByte {m : Memory} (hm : m.wf = true) (a : Nat) (b : BitVec 8) : (m.setByte a b).wf = true := Sp.wf_set _ hm a b
theorem Memory.wf_erase {m : Memory} (hm : m.wf = true) (a n : Nat) : Memory.wf (Sp.erase m a n) = true := Sp.wf_erase _ hm a n

theorem toBytes_length (n v : Nat) : (toBytes n v).length = n := by
  induction n generalizing v with
  | zero => rfl
  | succ n ih => simp [toBytes, ih]

/-- A write leaves every byte outside its range as it was. -/
theorem Memory.byte_write_out (m : Memory) (a : Nat) (bs : List (BitVec 8)) {k : Nat} (h : k < a ∨ a + bs.length ≤ k) :
    (m.write a bs).byte k = m.byte k := Sp.get_setMany_out _ a bs h
/-- A byte of the range of a write holds the byte written. -/
theorem Memory.byte_write_in (m : Memory) (a : Nat) (bs : List (BitVec 8)) {i : Nat} (h : i < bs.length) :
    (m.write a bs).byte (a + i) = bs[i] := Sp.get_setMany_in _ m a bs h
theorem Memory.byte_store_out (m : Memory) (a n v : Nat) {k : Nat} (h : k < a ∨ a + n ≤ k) : (m.store a n v).byte k = m.byte k :=
  Memory.byte_write_out m a _ (by rw [toBytes_length]; exact h)

theorem Memory.bytes_length (m : Memory) (a n : Nat) : (m.bytes a n).length = n := by
  induction n generalizing a with
  | zero => rfl
  | succ n ih => simp [Memory.bytes, ih]
/-- Reading a range that has been written gives the bytes written. -/
theorem Memory.bytes_write (m : Memory) (a : Nat) (bs : List (BitVec 8)) : (m.write a bs).bytes a bs.length = bs := by
  induction bs generalizing m a with
  | nil => rfl
  | cons b bs ih =>
    have h1 : (m.write a (b :: bs)).byte a = b := by
      exact Memory.byte_write_in m a (b :: bs) (i := 0) (by simp)
    have h2 := ih (m.setByte a b) (a + 1)
    simp only [List.length_cons, Memory.bytes, h1]
    exact congrArg (b :: ·) h2

theorem ofBytes_toBytes (n v : Nat) : ofBytes (toBytes n v) = v % 256 ^ n := by
  induction n generalizing v with
  | zero => simp [toBytes, ofBytes, Nat.mod_one]
  | succ n ih =>
    simp only [toBytes, ofBytes, ih, BitVec.toNat_ofNat]
    have e : (256 : Nat) ^ (n + 1) = 256 * 256 ^ n := by rw [Nat.pow_succ, Nat.mul_comm]
    rw [e, Nat.mod_mul]
/-- A value read after it has been stored is the value, in the width of the store. -/
theorem Memory.load_store (m : Memory) (a n v : Nat) : (m.store a n v).load a n = v % 256 ^ n := by
  have h := Memory.bytes_write m a (toBytes n v)
  rw [toBytes_length] at h
  rw [Memory.load, Memory.store, h, ofBytes_toBytes]

end Sys2Proof.Machine
end

