-- ==== Sys2Proof/Laws/State.lean ====
section
/-! SUPPORT. What each update of one field of State leaves of every other field: one lemma per field per update, by rfl. -/

namespace Sys2Proof.Machine

variable (s : State)

/-! ## State.setReg changes regs -/

@[simp] theorem State.setReg_pending (a v : Nat) : (s.setReg a v).pending = s.pending := rfl
@[simp] theorem State.setReg_portRegs (a v : Nat) : (s.setReg a v).portRegs = s.portRegs := rfl
@[simp] theorem State.setReg_rclk (a v : Nat) : (s.setReg a v).rclk = s.rclk := rfl
@[simp] theorem State.setReg_inReset (a v : Nat) : (s.setReg a v).inReset = s.inReset := rfl
@[simp] theorem State.setReg_inWarm (a v : Nat) : (s.setReg a v).inWarm = s.inWarm := rfl
@[simp] theorem State.setReg_tripReset (a v : Nat) : (s.setReg a v).tripReset = s.tripReset := rfl
@[simp] theorem State.setReg_formed (a v : Nat) : (s.setReg a v).formed = s.formed := rfl
@[simp] theorem State.setReg_saved (a v : Nat) : (s.setReg a v).saved = s.saved := rfl
@[simp] theorem State.setReg_savedTable (a v : Nat) : (s.setReg a v).savedTable = s.savedTable := rfl
@[simp] theorem State.setReg_image (a v : Nat) : (s.setReg a v).image = s.image := rfl
@[simp] theorem State.setReg_staged (a v : Nat) : (s.setReg a v).staged = s.staged := rfl
@[simp] theorem State.setReg_sreg (a v : Nat) : (s.setReg a v).sreg = s.sreg := rfl
@[simp] theorem State.setReg_areg (a v : Nat) : (s.setReg a v).areg = s.areg := rfl
@[simp] theorem State.setReg_lc (a v : Nat) : (s.setReg a v).lc = s.lc := rfl
@[simp] theorem State.setReg_ctxs (a v : Nat) : (s.setReg a v).ctxs = s.ctxs := rfl
@[simp] theorem State.setReg_istores (a v : Nat) : (s.setReg a v).istores = s.istores := rfl
@[simp] theorem State.setReg_tags (a v : Nat) : (s.setReg a v).tags = s.tags := rfl
@[simp] theorem State.setReg_heldFlags (a v : Nat) : (s.setReg a v).heldFlags = s.heldFlags := rfl
@[simp] theorem State.setReg_heldOvr (a v : Nat) : (s.setReg a v).heldOvr = s.heldOvr := rfl
@[simp] theorem State.setReg_imem (a v : Nat) : (s.setReg a v).imem = s.imem := rfl
@[simp] theorem State.setReg_fm (a v : Nat) : (s.setReg a v).fm = s.fm := rfl
@[simp] theorem State.setReg_ob (a v : Nat) : (s.setReg a v).ob = s.ob := rfl
@[simp] theorem State.setReg_gsb (a v : Nat) : (s.setReg a v).gsb = s.gsb := rfl
@[simp] theorem State.setReg_gps (a v : Nat) : (s.setReg a v).gps = s.gps := rfl
@[simp] theorem State.setReg_fns (a v : Nat) : (s.setReg a v).fns = s.fns := rfl
@[simp] theorem State.setReg_vat (a v : Nat) : (s.setReg a v).vat = s.vat := rfl
@[simp] theorem State.setReg_hbm (a v : Nat) : (s.setReg a v).hbm = s.hbm := rfl
@[simp] theorem State.setReg_bad (a v : Nat) : (s.setReg a v).bad = s.bad := rfl
@[simp] theorem State.setReg_casts (a v : Nat) : (s.setReg a v).casts = s.casts := rfl
@[simp] theorem State.setReg_vreg (a v : Nat) : (s.setReg a v).vreg = s.vreg := rfl
@[simp] theorem State.setReg_vmask (a v : Nat) : (s.setReg a v).vmask = s.vmask := rfl
@[simp] theorem State.setReg_sf (a v : Nat) : (s.setReg a v).sf = s.sf := rfl
@[simp] theorem State.setReg_sfKind (a v : Nat) : (s.setReg a v).sfKind = s.sfKind := rfl
@[simp] theorem State.setReg_am (a v : Nat) : (s.setReg a v).am = s.am := rfl
@[simp] theorem State.setReg_sa (a v : Nat) : (s.setReg a v).sa = s.sa := rfl
@[simp] theorem State.setReg_srow (a v : Nat) : (s.setReg a v).srow = s.srow := rfl
@[simp] theorem State.setReg_saTag (a v : Nat) : (s.setReg a v).saTag = s.saTag := rfl
@[simp] theorem State.setReg_arr (a v : Nat) : (s.setReg a v).arr = s.arr := rfl
@[simp] theorem State.setReg_accf (a v : Nat) : (s.setReg a v).accf = s.accf := rfl
@[simp] theorem State.setReg_latchEl (a v : Nat) : (s.setReg a v).latchEl = s.latchEl := rfl
@[simp] theorem State.setReg_latchSc (a v : Nat) : (s.setReg a v).latchSc = s.latchSc := rfl
@[simp] theorem State.setReg_latchFmt (a v : Nat) : (s.setReg a v).latchFmt = s.latchFmt := rfl
@[simp] theorem State.setReg_jobs (a v : Nat) : (s.setReg a v).jobs = s.jobs := rfl
@[simp] theorem State.setReg_gateQ (a v : Nat) : (s.setReg a v).gateQ = s.gateQ := rfl
@[simp] theorem State.setReg_gatePend (a v : Nat) : (s.setReg a v).gatePend = s.gatePend := rfl
@[simp] theorem State.setReg_carryf (a v : Nat) : (s.setReg a v).carryf = s.carryf := rfl
@[simp] theorem State.setReg_sew (a v : Nat) : (s.setReg a v).sew = s.sew := rfl
@[simp] theorem State.setReg_inbox (a v : Nat) : (s.setReg a v).inbox = s.inbox := rfl
@[simp] theorem State.setReg_carries (a v : Nat) : (s.setReg a v).carries = s.carries := rfl
@[simp] theorem State.setReg_carrySent (a v : Nat) : (s.setReg a v).carrySent = s.carrySent := rfl
@[simp] theorem State.setReg_gens (a v : Nat) : (s.setReg a v).gens = s.gens := rfl
@[simp] theorem State.setReg_slots (a v : Nat) : (s.setReg a v).slots = s.slots := rfl
@[simp] theorem State.setReg_contribs (a v : Nat) : (s.setReg a v).contribs = s.contribs := rfl
@[simp] theorem State.setReg_plane (a v : Nat) : (s.setReg a v).plane = s.plane := rfl
@[simp] theorem State.setReg_remote (a v : Nat) : (s.setReg a v).remote = s.remote := rfl
@[simp] theorem State.setReg_movers (a v : Nat) : (s.setReg a v).movers = s.movers := rfl
@[simp] theorem State.setReg_moveId (a v : Nat) : (s.setReg a v).moveId = s.moveId := rfl
@[simp] theorem State.setReg_turns (a v : Nat) : (s.setReg a v).turns = s.turns := rfl
@[simp] theorem State.setReg_pcQueue (a v : Nat) : (s.setReg a v).pcQueue = s.pcQueue := rfl
@[simp] theorem State.setReg_fetch (a v : Nat) : (s.setReg a v).fetch = s.fetch := rfl
@[simp] theorem State.setReg_mleads (a v : Nat) : (s.setReg a v).mleads = s.mleads := rfl
@[simp] theorem State.setReg_mrecvs (a v : Nat) : (s.setReg a v).mrecvs = s.mrecvs := rfl
@[simp] theorem State.setReg_credits (a v : Nat) : (s.setReg a v).credits = s.credits := rfl
@[simp] theorem State.setReg_ringTail (a v : Nat) : (s.setReg a v).ringTail = s.ringTail := rfl
@[simp] theorem State.setReg_ringHead (a v : Nat) : (s.setReg a v).ringHead = s.ringHead := rfl
@[simp] theorem State.setReg_occupied (a v : Nat) : (s.setReg a v).occupied = s.occupied := rfl
@[simp] theorem State.setReg_strm (a v : Nat) : (s.setReg a v).strm = s.strm := rfl
@[simp] theorem State.setReg_tokens (a v : Nat) : (s.setReg a v).tokens = s.tokens := rfl
@[simp] theorem State.setReg_doneFifo (a v : Nat) : (s.setReg a v).doneFifo = s.doneFifo := rfl
@[simp] theorem State.setReg_doneHeld (a v : Nat) : (s.setReg a v).doneHeld = s.doneHeld := rfl
@[simp] theorem State.setReg_keys (a v : Nat) : (s.setReg a v).keys = s.keys := rfl
@[simp] theorem State.setReg_scheds (a v : Nat) : (s.setReg a v).scheds = s.scheds := rfl
@[simp] theorem State.setReg_txns (a v : Nat) : (s.setReg a v).txns = s.txns := rfl
@[simp] theorem State.setReg_mbx (a v : Nat) : (s.setReg a v).mbx = s.mbx := rfl
@[simp] theorem State.setReg_mbxValid (a v : Nat) : (s.setReg a v).mbxValid = s.mbxValid := rfl
@[simp] theorem State.setReg_heldWrites (a v : Nat) : (s.setReg a v).heldWrites = s.heldWrites := rfl
@[simp] theorem State.setReg_levelReq (a v : Nat) : (s.setReg a v).levelReq = s.levelReq := rfl
@[simp] theorem State.setReg_burstIn (a v : Nat) : (s.setReg a v).burstIn = s.burstIn := rfl
@[simp] theorem State.setReg_outbox (a v : Nat) : (s.setReg a v).outbox = s.outbox := rfl
@[simp] theorem State.setReg_sideband (a v : Nat) : (s.setReg a v).sideband = s.sideband := rfl
@[simp] theorem State.setReg_d2dRx (a v : Nat) : (s.setReg a v).d2dRx = s.d2dRx := rfl
@[simp] theorem State.setReg_d2dTx (a v : Nat) : (s.setReg a v).d2dTx = s.d2dTx := rfl
@[simp] theorem State.setReg_d2dRetry (a v : Nat) : (s.setReg a v).d2dRetry = s.d2dRetry := rfl
@[simp] theorem State.setReg_d2dAttempts (a v : Nat) : (s.setReg a v).d2dAttempts = s.d2dAttempts := rfl
@[simp] theorem State.setReg_d2dCredits (a v : Nat) : (s.setReg a v).d2dCredits = s.d2dCredits := rfl
@[simp] theorem State.setReg_d2dPos (a v : Nat) : (s.setReg a v).d2dPos = s.d2dPos := rfl
@[simp] theorem State.setReg_d2dOwed (a v : Nat) : (s.setReg a v).d2dOwed = s.d2dOwed := rfl
@[simp] theorem State.setReg_d2dNak (a v : Nat) : (s.setReg a v).d2dNak = s.d2dNak := rfl
@[simp] theorem State.setReg_d2dLost (a v : Nat) : (s.setReg a v).d2dLost = s.d2dLost := rfl
@[simp] theorem State.setReg_d2dOut (a v : Nat) : (s.setReg a v).d2dOut = s.d2dOut := rfl
@[simp] theorem State.setReg_jtagData (a v : Nat) : (s.setReg a v).jtagData = s.jtagData := rfl
@[simp] theorem State.setReg_links (a v : Nat) : (s.setReg a v).links = s.links := rfl
@[simp] theorem State.setReg_linkIn (a v : Nat) : (s.setReg a v).linkIn = s.linkIn := rfl
@[simp] theorem State.setReg_partials (a v : Nat) : (s.setReg a v).partials = s.partials := rfl
@[simp] theorem State.setReg_linkOut (a v : Nat) : (s.setReg a v).linkOut = s.linkOut := rfl
@[simp] theorem State.setReg_linkMsgId (a v : Nat) : (s.setReg a v).linkMsgId = s.linkMsgId := rfl
@[simp] theorem State.setReg_lpSent (a v : Nat) : (s.setReg a v).lpSent = s.lpSent := rfl
@[simp] theorem State.setReg_linkDown (a v : Nat) : (s.setReg a v).linkDown = s.linkDown := rfl
@[simp] theorem State.setReg_lstateSeq (a v : Nat) : (s.setReg a v).lstateSeq = s.lstateSeq := rfl
@[simp] theorem State.setReg_hoop (a v : Nat) : (s.setReg a v).hoop = s.hoop := rfl
@[simp] theorem State.setReg_mirrors (a v : Nat) : (s.setReg a v).mirrors = s.mirrors := rfl
@[simp] theorem State.setReg_takeovers (a v : Nat) : (s.setReg a v).takeovers = s.takeovers := rfl
@[simp] theorem State.setReg_pwr (a v : Nat) : (s.setReg a v).pwr = s.pwr := rfl
@[simp] theorem State.setReg_pwrFailed (a v : Nat) : (s.setReg a v).pwrFailed = s.pwrFailed := rfl
@[simp] theorem State.setReg_planAt (a v : Nat) : (s.setReg a v).planAt = s.planAt := rfl
@[simp] theorem State.setReg_refLost (a v : Nat) : (s.setReg a v).refLost = s.refLost := rfl
@[simp] theorem State.setReg_railsOut (a v : Nat) : (s.setReg a v).railsOut = s.railsOut := rfl
@[simp] theorem State.setReg_quietUntil (a v : Nat) : (s.setReg a v).quietUntil = s.quietUntil := rfl
@[simp] theorem State.setReg_substs (a v : Nat) : (s.setReg a v).substs = s.substs := rfl
@[simp] theorem State.setReg_switching (a v : Nat) : (s.setReg a v).switching = s.switching := rfl
@[simp] theorem State.setReg_events (a v : Nat) : (s.setReg a v).events = s.events := rfl
@[simp] theorem State.setReg_faultLow (a v : Nat) : (s.setReg a v).faultLow = s.faultLow := rfl
@[simp] theorem State.setReg_wakeLow (a v : Nat) : (s.setReg a v).wakeLow = s.wakeLow := rfl
@[simp] theorem State.setReg_thermLow (a v : Nat) : (s.setReg a v).thermLow = s.thermLow := rfl
@[simp] theorem State.setReg_trace (a v : Nat) : (s.setReg a v).trace = s.trace := rfl
@[simp] theorem State.setReg_fresh (a v : Nat) : (s.setReg a v).fresh = s.fresh := rfl

/-! ## State.setCtx changes ctxs -/

@[simp] theorem State.setCtx_pending (n c : Nat) (x : Ctx) : (s.setCtx n c x).pending = s.pending := rfl
@[simp] theorem State.setCtx_regs (n c : Nat) (x : Ctx) : (s.setCtx n c x).regs = s.regs := rfl
@[simp] theorem State.setCtx_portRegs (n c : Nat) (x : Ctx) : (s.setCtx n c x).portRegs = s.portRegs := rfl
@[simp] theorem State.setCtx_rclk (n c : Nat) (x : Ctx) : (s.setCtx n c x).rclk = s.rclk := rfl
@[simp] theorem State.setCtx_inReset (n c : Nat) (x : Ctx) : (s.setCtx n c x).inReset = s.inReset := rfl
@[simp] theorem State.setCtx_inWarm (n c : Nat) (x : Ctx) : (s.setCtx n c x).inWarm = s.inWarm := rfl
@[simp] theorem State.setCtx_tripReset (n c : Nat) (x : Ctx) : (s.setCtx n c x).tripReset = s.tripReset := rfl
@[simp] theorem State.setCtx_formed (n c : Nat) (x : Ctx) : (s.setCtx n c x).formed = s.formed := rfl
@[simp] theorem State.setCtx_saved (n c : Nat) (x : Ctx) : (s.setCtx n c x).saved = s.saved := rfl
@[simp] theorem State.setCtx_savedTable (n c : Nat) (x : Ctx) : (s.setCtx n c x).savedTable = s.savedTable := rfl
@[simp] theorem State.setCtx_image (n c : Nat) (x : Ctx) : (s.setCtx n c x).image = s.image := rfl
@[simp] theorem State.setCtx_staged (n c : Nat) (x : Ctx) : (s.setCtx n c x).staged = s.staged := rfl
@[simp] theorem State.setCtx_sreg (n c : Nat) (x : Ctx) : (s.setCtx n c x).sreg = s.sreg := rfl
@[simp] theorem State.setCtx_areg (n c : Nat) (x : Ctx) : (s.setCtx n c x).areg = s.areg := rfl
@[simp] theorem State.setCtx_lc (n c : Nat) (x : Ctx) : (s.setCtx n c x).lc = s.lc := rfl
@[simp] theorem State.setCtx_istores (n c : Nat) (x : Ctx) : (s.setCtx n c x).istores = s.istores := rfl
@[simp] theorem State.setCtx_tags (n c : Nat) (x : Ctx) : (s.setCtx n c x).tags = s.tags := rfl
@[simp] theorem State.setCtx_heldFlags (n c : Nat) (x : Ctx) : (s.setCtx n c x).heldFlags = s.heldFlags := rfl
@[simp] theorem State.setCtx_heldOvr (n c : Nat) (x : Ctx) : (s.setCtx n c x).heldOvr = s.heldOvr := rfl
@[simp] theorem State.setCtx_imem (n c : Nat) (x : Ctx) : (s.setCtx n c x).imem = s.imem := rfl
@[simp] theorem State.setCtx_fm (n c : Nat) (x : Ctx) : (s.setCtx n c x).fm = s.fm := rfl
@[simp] theorem State.setCtx_ob (n c : Nat) (x : Ctx) : (s.setCtx n c x).ob = s.ob := rfl
@[simp] theorem State.setCtx_gsb (n c : Nat) (x : Ctx) : (s.setCtx n c x).gsb = s.gsb := rfl
@[simp] theorem State.setCtx_gps (n c : Nat) (x : Ctx) : (s.setCtx n c x).gps = s.gps := rfl
@[simp] theorem State.setCtx_fns (n c : Nat) (x : Ctx) : (s.setCtx n c x).fns = s.fns := rfl
@[simp] theorem State.setCtx_vat (n c : Nat) (x : Ctx) : (s.setCtx n c x).vat = s.vat := rfl
@[simp] theorem State.setCtx_hbm (n c : Nat) (x : Ctx) : (s.setCtx n c x).hbm = s.hbm := rfl
@[simp] theorem State.setCtx_bad (n c : Nat) (x : Ctx) : (s.setCtx n c x).bad = s.bad := rfl
@[simp] theorem State.setCtx_casts (n c : Nat) (x : Ctx) : (s.setCtx n c x).casts = s.casts := rfl
@[simp] theorem State.setCtx_vreg (n c : Nat) (x : Ctx) : (s.setCtx n c x).vreg = s.vreg := rfl
@[simp] theorem State.setCtx_vmask (n c : Nat) (x : Ctx) : (s.setCtx n c x).vmask = s.vmask := rfl
@[simp] theorem State.setCtx_sf (n c : Nat) (x : Ctx) : (s.setCtx n c x).sf = s.sf := rfl
@[simp] theorem State.setCtx_sfKind (n c : Nat) (x : Ctx) : (s.setCtx n c x).sfKind = s.sfKind := rfl
@[simp] theorem State.setCtx_am (n c : Nat) (x : Ctx) : (s.setCtx n c x).am = s.am := rfl
@[simp] theorem State.setCtx_sa (n c : Nat) (x : Ctx) : (s.setCtx n c x).sa = s.sa := rfl
@[simp] theorem State.setCtx_srow (n c : Nat) (x : Ctx) : (s.setCtx n c x).srow = s.srow := rfl
@[simp] theorem State.setCtx_saTag (n c : Nat) (x : Ctx) : (s.setCtx n c x).saTag = s.saTag := rfl
@[simp] theorem State.setCtx_arr (n c : Nat) (x : Ctx) : (s.setCtx n c x).arr = s.arr := rfl
@[simp] theorem State.setCtx_accf (n c : Nat) (x : Ctx) : (s.setCtx n c x).accf = s.accf := rfl
@[simp] theorem State.setCtx_latchEl (n c : Nat) (x : Ctx) : (s.setCtx n c x).latchEl = s.latchEl := rfl
@[simp] theorem State.setCtx_latchSc (n c : Nat) (x : Ctx) : (s.setCtx n c x).latchSc = s.latchSc := rfl
@[simp] theorem State.setCtx_latchFmt (n c : Nat) (x : Ctx) : (s.setCtx n c x).latchFmt = s.latchFmt := rfl
@[simp] theorem State.setCtx_jobs (n c : Nat) (x : Ctx) : (s.setCtx n c x).jobs = s.jobs := rfl
@[simp] theorem State.setCtx_gateQ (n c : Nat) (x : Ctx) : (s.setCtx n c x).gateQ = s.gateQ := rfl
@[simp] theorem State.setCtx_gatePend (n c : Nat) (x : Ctx) : (s.setCtx n c x).gatePend = s.gatePend := rfl
@[simp] theorem State.setCtx_carryf (n c : Nat) (x : Ctx) : (s.setCtx n c x).carryf = s.carryf := rfl
@[simp] theorem State.setCtx_sew (n c : Nat) (x : Ctx) : (s.setCtx n c x).sew = s.sew := rfl
@[simp] theorem State.setCtx_inbox (n c : Nat) (x : Ctx) : (s.setCtx n c x).inbox = s.inbox := rfl
@[simp] theorem State.setCtx_carries (n c : Nat) (x : Ctx) : (s.setCtx n c x).carries = s.carries := rfl
@[simp] theorem State.setCtx_carrySent (n c : Nat) (x : Ctx) : (s.setCtx n c x).carrySent = s.carrySent := rfl
@[simp] theorem State.setCtx_gens (n c : Nat) (x : Ctx) : (s.setCtx n c x).gens = s.gens := rfl
@[simp] theorem State.setCtx_slots (n c : Nat) (x : Ctx) : (s.setCtx n c x).slots = s.slots := rfl
@[simp] theorem State.setCtx_contribs (n c : Nat) (x : Ctx) : (s.setCtx n c x).contribs = s.contribs := rfl
@[simp] theorem State.setCtx_plane (n c : Nat) (x : Ctx) : (s.setCtx n c x).plane = s.plane := rfl
@[simp] theorem State.setCtx_remote (n c : Nat) (x : Ctx) : (s.setCtx n c x).remote = s.remote := rfl
@[simp] theorem State.setCtx_movers (n c : Nat) (x : Ctx) : (s.setCtx n c x).movers = s.movers := rfl
@[simp] theorem State.setCtx_moveId (n c : Nat) (x : Ctx) : (s.setCtx n c x).moveId = s.moveId := rfl
@[simp] theorem State.setCtx_turns (n c : Nat) (x : Ctx) : (s.setCtx n c x).turns = s.turns := rfl
@[simp] theorem State.setCtx_pcQueue (n c : Nat) (x : Ctx) : (s.setCtx n c x).pcQueue = s.pcQueue := rfl
@[simp] theorem State.setCtx_fetch (n c : Nat) (x : Ctx) : (s.setCtx n c x).fetch = s.fetch := rfl
@[simp] theorem State.setCtx_mleads (n c : Nat) (x : Ctx) : (s.setCtx n c x).mleads = s.mleads := rfl
@[simp] theorem State.setCtx_mrecvs (n c : Nat) (x : Ctx) : (s.setCtx n c x).mrecvs = s.mrecvs := rfl
@[simp] theorem State.setCtx_credits (n c : Nat) (x : Ctx) : (s.setCtx n c x).credits = s.credits := rfl
@[simp] theorem State.setCtx_ringTail (n c : Nat) (x : Ctx) : (s.setCtx n c x).ringTail = s.ringTail := rfl
@[simp] theorem State.setCtx_ringHead (n c : Nat) (x : Ctx) : (s.setCtx n c x).ringHead = s.ringHead := rfl
@[simp] theorem State.setCtx_occupied (n c : Nat) (x : Ctx) : (s.setCtx n c x).occupied = s.occupied := rfl
@[simp] theorem State.setCtx_strm (n c : Nat) (x : Ctx) : (s.setCtx n c x).strm = s.strm := rfl
@[simp] theorem State.setCtx_tokens (n c : Nat) (x : Ctx) : (s.setCtx n c x).tokens = s.tokens := rfl
@[simp] theorem State.setCtx_doneFifo (n c : Nat) (x : Ctx) : (s.setCtx n c x).doneFifo = s.doneFifo := rfl
@[simp] theorem State.setCtx_doneHeld (n c : Nat) (x : Ctx) : (s.setCtx n c x).doneHeld = s.doneHeld := rfl
@[simp] theorem State.setCtx_keys (n c : Nat) (x : Ctx) : (s.setCtx n c x).keys = s.keys := rfl
@[simp] theorem State.setCtx_scheds (n c : Nat) (x : Ctx) : (s.setCtx n c x).scheds = s.scheds := rfl
@[simp] theorem State.setCtx_txns (n c : Nat) (x : Ctx) : (s.setCtx n c x).txns = s.txns := rfl
@[simp] theorem State.setCtx_mbx (n c : Nat) (x : Ctx) : (s.setCtx n c x).mbx = s.mbx := rfl
@[simp] theorem State.setCtx_mbxValid (n c : Nat) (x : Ctx) : (s.setCtx n c x).mbxValid = s.mbxValid := rfl
@[simp] theorem State.setCtx_heldWrites (n c : Nat) (x : Ctx) : (s.setCtx n c x).heldWrites = s.heldWrites := rfl
@[simp] theorem State.setCtx_levelReq (n c : Nat) (x : Ctx) : (s.setCtx n c x).levelReq = s.levelReq := rfl
@[simp] theorem State.setCtx_burstIn (n c : Nat) (x : Ctx) : (s.setCtx n c x).burstIn = s.burstIn := rfl
@[simp] theorem State.setCtx_outbox (n c : Nat) (x : Ctx) : (s.setCtx n c x).outbox = s.outbox := rfl
@[simp] theorem State.setCtx_sideband (n c : Nat) (x : Ctx) : (s.setCtx n c x).sideband = s.sideband := rfl
@[simp] theorem State.setCtx_d2dRx (n c : Nat) (x : Ctx) : (s.setCtx n c x).d2dRx = s.d2dRx := rfl
@[simp] theorem State.setCtx_d2dTx (n c : Nat) (x : Ctx) : (s.setCtx n c x).d2dTx = s.d2dTx := rfl
@[simp] theorem State.setCtx_d2dRetry (n c : Nat) (x : Ctx) : (s.setCtx n c x).d2dRetry = s.d2dRetry := rfl
@[simp] theorem State.setCtx_d2dAttempts (n c : Nat) (x : Ctx) : (s.setCtx n c x).d2dAttempts = s.d2dAttempts := rfl
@[simp] theorem State.setCtx_d2dCredits (n c : Nat) (x : Ctx) : (s.setCtx n c x).d2dCredits = s.d2dCredits := rfl
@[simp] theorem State.setCtx_d2dPos (n c : Nat) (x : Ctx) : (s.setCtx n c x).d2dPos = s.d2dPos := rfl
@[simp] theorem State.setCtx_d2dOwed (n c : Nat) (x : Ctx) : (s.setCtx n c x).d2dOwed = s.d2dOwed := rfl
@[simp] theorem State.setCtx_d2dNak (n c : Nat) (x : Ctx) : (s.setCtx n c x).d2dNak = s.d2dNak := rfl
@[simp] theorem State.setCtx_d2dLost (n c : Nat) (x : Ctx) : (s.setCtx n c x).d2dLost = s.d2dLost := rfl
@[simp] theorem State.setCtx_d2dOut (n c : Nat) (x : Ctx) : (s.setCtx n c x).d2dOut = s.d2dOut := rfl
@[simp] theorem State.setCtx_jtagData (n c : Nat) (x : Ctx) : (s.setCtx n c x).jtagData = s.jtagData := rfl
@[simp] theorem State.setCtx_links (n c : Nat) (x : Ctx) : (s.setCtx n c x).links = s.links := rfl
@[simp] theorem State.setCtx_linkIn (n c : Nat) (x : Ctx) : (s.setCtx n c x).linkIn = s.linkIn := rfl
@[simp] theorem State.setCtx_partials (n c : Nat) (x : Ctx) : (s.setCtx n c x).partials = s.partials := rfl
@[simp] theorem State.setCtx_linkOut (n c : Nat) (x : Ctx) : (s.setCtx n c x).linkOut = s.linkOut := rfl
@[simp] theorem State.setCtx_linkMsgId (n c : Nat) (x : Ctx) : (s.setCtx n c x).linkMsgId = s.linkMsgId := rfl
@[simp] theorem State.setCtx_lpSent (n c : Nat) (x : Ctx) : (s.setCtx n c x).lpSent = s.lpSent := rfl
@[simp] theorem State.setCtx_linkDown (n c : Nat) (x : Ctx) : (s.setCtx n c x).linkDown = s.linkDown := rfl
@[simp] theorem State.setCtx_lstateSeq (n c : Nat) (x : Ctx) : (s.setCtx n c x).lstateSeq = s.lstateSeq := rfl
@[simp] theorem State.setCtx_hoop (n c : Nat) (x : Ctx) : (s.setCtx n c x).hoop = s.hoop := rfl
@[simp] theorem State.setCtx_mirrors (n c : Nat) (x : Ctx) : (s.setCtx n c x).mirrors = s.mirrors := rfl
@[simp] theorem State.setCtx_takeovers (n c : Nat) (x : Ctx) : (s.setCtx n c x).takeovers = s.takeovers := rfl
@[simp] theorem State.setCtx_pwr (n c : Nat) (x : Ctx) : (s.setCtx n c x).pwr = s.pwr := rfl
@[simp] theorem State.setCtx_pwrFailed (n c : Nat) (x : Ctx) : (s.setCtx n c x).pwrFailed = s.pwrFailed := rfl
@[simp] theorem State.setCtx_planAt (n c : Nat) (x : Ctx) : (s.setCtx n c x).planAt = s.planAt := rfl
@[simp] theorem State.setCtx_refLost (n c : Nat) (x : Ctx) : (s.setCtx n c x).refLost = s.refLost := rfl
@[simp] theorem State.setCtx_railsOut (n c : Nat) (x : Ctx) : (s.setCtx n c x).railsOut = s.railsOut := rfl
@[simp] theorem State.setCtx_quietUntil (n c : Nat) (x : Ctx) : (s.setCtx n c x).quietUntil = s.quietUntil := rfl
@[simp] theorem State.setCtx_substs (n c : Nat) (x : Ctx) : (s.setCtx n c x).substs = s.substs := rfl
@[simp] theorem State.setCtx_switching (n c : Nat) (x : Ctx) : (s.setCtx n c x).switching = s.switching := rfl
@[simp] theorem State.setCtx_events (n c : Nat) (x : Ctx) : (s.setCtx n c x).events = s.events := rfl
@[simp] theorem State.setCtx_faultLow (n c : Nat) (x : Ctx) : (s.setCtx n c x).faultLow = s.faultLow := rfl
@[simp] theorem State.setCtx_wakeLow (n c : Nat) (x : Ctx) : (s.setCtx n c x).wakeLow = s.wakeLow := rfl
@[simp] theorem State.setCtx_thermLow (n c : Nat) (x : Ctx) : (s.setCtx n c x).thermLow = s.thermLow := rfl
@[simp] theorem State.setCtx_trace (n c : Nat) (x : Ctx) : (s.setCtx n c x).trace = s.trace := rfl
@[simp] theorem State.setCtx_fresh (n c : Nat) (x : Ctx) : (s.setCtx n c x).fresh = s.fresh := rfl

/-! ## State.setSr changes sreg -/

@[simp] theorem State.setSr_pending (n c r v : Nat) : (s.setSr n c r v).pending = s.pending := rfl
@[simp] theorem State.setSr_regs (n c r v : Nat) : (s.setSr n c r v).regs = s.regs := rfl
@[simp] theorem State.setSr_portRegs (n c r v : Nat) : (s.setSr n c r v).portRegs = s.portRegs := rfl
@[simp] theorem State.setSr_rclk (n c r v : Nat) : (s.setSr n c r v).rclk = s.rclk := rfl
@[simp] theorem State.setSr_inReset (n c r v : Nat) : (s.setSr n c r v).inReset = s.inReset := rfl
@[simp] theorem State.setSr_inWarm (n c r v : Nat) : (s.setSr n c r v).inWarm = s.inWarm := rfl
@[simp] theorem State.setSr_tripReset (n c r v : Nat) : (s.setSr n c r v).tripReset = s.tripReset := rfl
@[simp] theorem State.setSr_formed (n c r v : Nat) : (s.setSr n c r v).formed = s.formed := rfl
@[simp] theorem State.setSr_saved (n c r v : Nat) : (s.setSr n c r v).saved = s.saved := rfl
@[simp] theorem State.setSr_savedTable (n c r v : Nat) : (s.setSr n c r v).savedTable = s.savedTable := rfl
@[simp] theorem State.setSr_image (n c r v : Nat) : (s.setSr n c r v).image = s.image := rfl
@[simp] theorem State.setSr_staged (n c r v : Nat) : (s.setSr n c r v).staged = s.staged := rfl
@[simp] theorem State.setSr_areg (n c r v : Nat) : (s.setSr n c r v).areg = s.areg := rfl
@[simp] theorem State.setSr_lc (n c r v : Nat) : (s.setSr n c r v).lc = s.lc := rfl
@[simp] theorem State.setSr_ctxs (n c r v : Nat) : (s.setSr n c r v).ctxs = s.ctxs := rfl
@[simp] theorem State.setSr_istores (n c r v : Nat) : (s.setSr n c r v).istores = s.istores := rfl
@[simp] theorem State.setSr_tags (n c r v : Nat) : (s.setSr n c r v).tags = s.tags := rfl
@[simp] theorem State.setSr_heldFlags (n c r v : Nat) : (s.setSr n c r v).heldFlags = s.heldFlags := rfl
@[simp] theorem State.setSr_heldOvr (n c r v : Nat) : (s.setSr n c r v).heldOvr = s.heldOvr := rfl
@[simp] theorem State.setSr_imem (n c r v : Nat) : (s.setSr n c r v).imem = s.imem := rfl
@[simp] theorem State.setSr_fm (n c r v : Nat) : (s.setSr n c r v).fm = s.fm := rfl
@[simp] theorem State.setSr_ob (n c r v : Nat) : (s.setSr n c r v).ob = s.ob := rfl
@[simp] theorem State.setSr_gsb (n c r v : Nat) : (s.setSr n c r v).gsb = s.gsb := rfl
@[simp] theorem State.setSr_gps (n c r v : Nat) : (s.setSr n c r v).gps = s.gps := rfl
@[simp] theorem State.setSr_fns (n c r v : Nat) : (s.setSr n c r v).fns = s.fns := rfl
@[simp] theorem State.setSr_vat (n c r v : Nat) : (s.setSr n c r v).vat = s.vat := rfl
@[simp] theorem State.setSr_hbm (n c r v : Nat) : (s.setSr n c r v).hbm = s.hbm := rfl
@[simp] theorem State.setSr_bad (n c r v : Nat) : (s.setSr n c r v).bad = s.bad := rfl
@[simp] theorem State.setSr_casts (n c r v : Nat) : (s.setSr n c r v).casts = s.casts := rfl
@[simp] theorem State.setSr_vreg (n c r v : Nat) : (s.setSr n c r v).vreg = s.vreg := rfl
@[simp] theorem State.setSr_vmask (n c r v : Nat) : (s.setSr n c r v).vmask = s.vmask := rfl
@[simp] theorem State.setSr_sf (n c r v : Nat) : (s.setSr n c r v).sf = s.sf := rfl
@[simp] theorem State.setSr_sfKind (n c r v : Nat) : (s.setSr n c r v).sfKind = s.sfKind := rfl
@[simp] theorem State.setSr_am (n c r v : Nat) : (s.setSr n c r v).am = s.am := rfl
@[simp] theorem State.setSr_sa (n c r v : Nat) : (s.setSr n c r v).sa = s.sa := rfl
@[simp] theorem State.setSr_srow (n c r v : Nat) : (s.setSr n c r v).srow = s.srow := rfl
@[simp] theorem State.setSr_saTag (n c r v : Nat) : (s.setSr n c r v).saTag = s.saTag := rfl
@[simp] theorem State.setSr_arr (n c r v : Nat) : (s.setSr n c r v).arr = s.arr := rfl
@[simp] theorem State.setSr_accf (n c r v : Nat) : (s.setSr n c r v).accf = s.accf := rfl
@[simp] theorem State.setSr_latchEl (n c r v : Nat) : (s.setSr n c r v).latchEl = s.latchEl := rfl
@[simp] theorem State.setSr_latchSc (n c r v : Nat) : (s.setSr n c r v).latchSc = s.latchSc := rfl
@[simp] theorem State.setSr_latchFmt (n c r v : Nat) : (s.setSr n c r v).latchFmt = s.latchFmt := rfl
@[simp] theorem State.setSr_jobs (n c r v : Nat) : (s.setSr n c r v).jobs = s.jobs := rfl
@[simp] theorem State.setSr_gateQ (n c r v : Nat) : (s.setSr n c r v).gateQ = s.gateQ := rfl
@[simp] theorem State.setSr_gatePend (n c r v : Nat) : (s.setSr n c r v).gatePend = s.gatePend := rfl
@[simp] theorem State.setSr_carryf (n c r v : Nat) : (s.setSr n c r v).carryf = s.carryf := rfl
@[simp] theorem State.setSr_sew (n c r v : Nat) : (s.setSr n c r v).sew = s.sew := rfl
@[simp] theorem State.setSr_inbox (n c r v : Nat) : (s.setSr n c r v).inbox = s.inbox := rfl
@[simp] theorem State.setSr_carries (n c r v : Nat) : (s.setSr n c r v).carries = s.carries := rfl
@[simp] theorem State.setSr_carrySent (n c r v : Nat) : (s.setSr n c r v).carrySent = s.carrySent := rfl
@[simp] theorem State.setSr_gens (n c r v : Nat) : (s.setSr n c r v).gens = s.gens := rfl
@[simp] theorem State.setSr_slots (n c r v : Nat) : (s.setSr n c r v).slots = s.slots := rfl
@[simp] theorem State.setSr_contribs (n c r v : Nat) : (s.setSr n c r v).contribs = s.contribs := rfl
@[simp] theorem State.setSr_plane (n c r v : Nat) : (s.setSr n c r v).plane = s.plane := rfl
@[simp] theorem State.setSr_remote (n c r v : Nat) : (s.setSr n c r v).remote = s.remote := rfl
@[simp] theorem State.setSr_movers (n c r v : Nat) : (s.setSr n c r v).movers = s.movers := rfl
@[simp] theorem State.setSr_moveId (n c r v : Nat) : (s.setSr n c r v).moveId = s.moveId := rfl
@[simp] theorem State.setSr_turns (n c r v : Nat) : (s.setSr n c r v).turns = s.turns := rfl
@[simp] theorem State.setSr_pcQueue (n c r v : Nat) : (s.setSr n c r v).pcQueue = s.pcQueue := rfl
@[simp] theorem State.setSr_fetch (n c r v : Nat) : (s.setSr n c r v).fetch = s.fetch := rfl
@[simp] theorem State.setSr_mleads (n c r v : Nat) : (s.setSr n c r v).mleads = s.mleads := rfl
@[simp] theorem State.setSr_mrecvs (n c r v : Nat) : (s.setSr n c r v).mrecvs = s.mrecvs := rfl
@[simp] theorem State.setSr_credits (n c r v : Nat) : (s.setSr n c r v).credits = s.credits := rfl
@[simp] theorem State.setSr_ringTail (n c r v : Nat) : (s.setSr n c r v).ringTail = s.ringTail := rfl
@[simp] theorem State.setSr_ringHead (n c r v : Nat) : (s.setSr n c r v).ringHead = s.ringHead := rfl
@[simp] theorem State.setSr_occupied (n c r v : Nat) : (s.setSr n c r v).occupied = s.occupied := rfl
@[simp] theorem State.setSr_strm (n c r v : Nat) : (s.setSr n c r v).strm = s.strm := rfl
@[simp] theorem State.setSr_tokens (n c r v : Nat) : (s.setSr n c r v).tokens = s.tokens := rfl
@[simp] theorem State.setSr_doneFifo (n c r v : Nat) : (s.setSr n c r v).doneFifo = s.doneFifo := rfl
@[simp] theorem State.setSr_doneHeld (n c r v : Nat) : (s.setSr n c r v).doneHeld = s.doneHeld := rfl
@[simp] theorem State.setSr_keys (n c r v : Nat) : (s.setSr n c r v).keys = s.keys := rfl
@[simp] theorem State.setSr_scheds (n c r v : Nat) : (s.setSr n c r v).scheds = s.scheds := rfl
@[simp] theorem State.setSr_txns (n c r v : Nat) : (s.setSr n c r v).txns = s.txns := rfl
@[simp] theorem State.setSr_mbx (n c r v : Nat) : (s.setSr n c r v).mbx = s.mbx := rfl
@[simp] theorem State.setSr_mbxValid (n c r v : Nat) : (s.setSr n c r v).mbxValid = s.mbxValid := rfl
@[simp] theorem State.setSr_heldWrites (n c r v : Nat) : (s.setSr n c r v).heldWrites = s.heldWrites := rfl
@[simp] theorem State.setSr_levelReq (n c r v : Nat) : (s.setSr n c r v).levelReq = s.levelReq := rfl
@[simp] theorem State.setSr_burstIn (n c r v : Nat) : (s.setSr n c r v).burstIn = s.burstIn := rfl
@[simp] theorem State.setSr_outbox (n c r v : Nat) : (s.setSr n c r v).outbox = s.outbox := rfl
@[simp] theorem State.setSr_sideband (n c r v : Nat) : (s.setSr n c r v).sideband = s.sideband := rfl
@[simp] theorem State.setSr_d2dRx (n c r v : Nat) : (s.setSr n c r v).d2dRx = s.d2dRx := rfl
@[simp] theorem State.setSr_d2dTx (n c r v : Nat) : (s.setSr n c r v).d2dTx = s.d2dTx := rfl
@[simp] theorem State.setSr_d2dRetry (n c r v : Nat) : (s.setSr n c r v).d2dRetry = s.d2dRetry := rfl
@[simp] theorem State.setSr_d2dAttempts (n c r v : Nat) : (s.setSr n c r v).d2dAttempts = s.d2dAttempts := rfl
@[simp] theorem State.setSr_d2dCredits (n c r v : Nat) : (s.setSr n c r v).d2dCredits = s.d2dCredits := rfl
@[simp] theorem State.setSr_d2dPos (n c r v : Nat) : (s.setSr n c r v).d2dPos = s.d2dPos := rfl
@[simp] theorem State.setSr_d2dOwed (n c r v : Nat) : (s.setSr n c r v).d2dOwed = s.d2dOwed := rfl
@[simp] theorem State.setSr_d2dNak (n c r v : Nat) : (s.setSr n c r v).d2dNak = s.d2dNak := rfl
@[simp] theorem State.setSr_d2dLost (n c r v : Nat) : (s.setSr n c r v).d2dLost = s.d2dLost := rfl
@[simp] theorem State.setSr_d2dOut (n c r v : Nat) : (s.setSr n c r v).d2dOut = s.d2dOut := rfl
@[simp] theorem State.setSr_jtagData (n c r v : Nat) : (s.setSr n c r v).jtagData = s.jtagData := rfl
@[simp] theorem State.setSr_links (n c r v : Nat) : (s.setSr n c r v).links = s.links := rfl
@[simp] theorem State.setSr_linkIn (n c r v : Nat) : (s.setSr n c r v).linkIn = s.linkIn := rfl
@[simp] theorem State.setSr_partials (n c r v : Nat) : (s.setSr n c r v).partials = s.partials := rfl
@[simp] theorem State.setSr_linkOut (n c r v : Nat) : (s.setSr n c r v).linkOut = s.linkOut := rfl
@[simp] theorem State.setSr_linkMsgId (n c r v : Nat) : (s.setSr n c r v).linkMsgId = s.linkMsgId := rfl
@[simp] theorem State.setSr_lpSent (n c r v : Nat) : (s.setSr n c r v).lpSent = s.lpSent := rfl
@[simp] theorem State.setSr_linkDown (n c r v : Nat) : (s.setSr n c r v).linkDown = s.linkDown := rfl
@[simp] theorem State.setSr_lstateSeq (n c r v : Nat) : (s.setSr n c r v).lstateSeq = s.lstateSeq := rfl
@[simp] theorem State.setSr_hoop (n c r v : Nat) : (s.setSr n c r v).hoop = s.hoop := rfl
@[simp] theorem State.setSr_mirrors (n c r v : Nat) : (s.setSr n c r v).mirrors = s.mirrors := rfl
@[simp] theorem State.setSr_takeovers (n c r v : Nat) : (s.setSr n c r v).takeovers = s.takeovers := rfl
@[simp] theorem State.setSr_pwr (n c r v : Nat) : (s.setSr n c r v).pwr = s.pwr := rfl
@[simp] theorem State.setSr_pwrFailed (n c r v : Nat) : (s.setSr n c r v).pwrFailed = s.pwrFailed := rfl
@[simp] theorem State.setSr_planAt (n c r v : Nat) : (s.setSr n c r v).planAt = s.planAt := rfl
@[simp] theorem State.setSr_refLost (n c r v : Nat) : (s.setSr n c r v).refLost = s.refLost := rfl
@[simp] theorem State.setSr_railsOut (n c r v : Nat) : (s.setSr n c r v).railsOut = s.railsOut := rfl
@[simp] theorem State.setSr_quietUntil (n c r v : Nat) : (s.setSr n c r v).quietUntil = s.quietUntil := rfl
@[simp] theorem State.setSr_substs (n c r v : Nat) : (s.setSr n c r v).substs = s.substs := rfl
@[simp] theorem State.setSr_switching (n c r v : Nat) : (s.setSr n c r v).switching = s.switching := rfl
@[simp] theorem State.setSr_events (n c r v : Nat) : (s.setSr n c r v).events = s.events := rfl
@[simp] theorem State.setSr_faultLow (n c r v : Nat) : (s.setSr n c r v).faultLow = s.faultLow := rfl
@[simp] theorem State.setSr_wakeLow (n c r v : Nat) : (s.setSr n c r v).wakeLow = s.wakeLow := rfl
@[simp] theorem State.setSr_thermLow (n c r v : Nat) : (s.setSr n c r v).thermLow = s.thermLow := rfl
@[simp] theorem State.setSr_trace (n c r v : Nat) : (s.setSr n c r v).trace = s.trace := rfl
@[simp] theorem State.setSr_fresh (n c r v : Nat) : (s.setSr n c r v).fresh = s.fresh := rfl

/-! ## State.setAr changes areg -/

@[simp] theorem State.setAr_pending (n c r v : Nat) : (s.setAr n c r v).pending = s.pending := rfl
@[simp] theorem State.setAr_regs (n c r v : Nat) : (s.setAr n c r v).regs = s.regs := rfl
@[simp] theorem State.setAr_portRegs (n c r v : Nat) : (s.setAr n c r v).portRegs = s.portRegs := rfl
@[simp] theorem State.setAr_rclk (n c r v : Nat) : (s.setAr n c r v).rclk = s.rclk := rfl
@[simp] theorem State.setAr_inReset (n c r v : Nat) : (s.setAr n c r v).inReset = s.inReset := rfl
@[simp] theorem State.setAr_inWarm (n c r v : Nat) : (s.setAr n c r v).inWarm = s.inWarm := rfl
@[simp] theorem State.setAr_tripReset (n c r v : Nat) : (s.setAr n c r v).tripReset = s.tripReset := rfl
@[simp] theorem State.setAr_formed (n c r v : Nat) : (s.setAr n c r v).formed = s.formed := rfl
@[simp] theorem State.setAr_saved (n c r v : Nat) : (s.setAr n c r v).saved = s.saved := rfl
@[simp] theorem State.setAr_savedTable (n c r v : Nat) : (s.setAr n c r v).savedTable = s.savedTable := rfl
@[simp] theorem State.setAr_image (n c r v : Nat) : (s.setAr n c r v).image = s.image := rfl
@[simp] theorem State.setAr_staged (n c r v : Nat) : (s.setAr n c r v).staged = s.staged := rfl
@[simp] theorem State.setAr_sreg (n c r v : Nat) : (s.setAr n c r v).sreg = s.sreg := rfl
@[simp] theorem State.setAr_lc (n c r v : Nat) : (s.setAr n c r v).lc = s.lc := rfl
@[simp] theorem State.setAr_ctxs (n c r v : Nat) : (s.setAr n c r v).ctxs = s.ctxs := rfl
@[simp] theorem State.setAr_istores (n c r v : Nat) : (s.setAr n c r v).istores = s.istores := rfl
@[simp] theorem State.setAr_tags (n c r v : Nat) : (s.setAr n c r v).tags = s.tags := rfl
@[simp] theorem State.setAr_heldFlags (n c r v : Nat) : (s.setAr n c r v).heldFlags = s.heldFlags := rfl
@[simp] theorem State.setAr_heldOvr (n c r v : Nat) : (s.setAr n c r v).heldOvr = s.heldOvr := rfl
@[simp] theorem State.setAr_imem (n c r v : Nat) : (s.setAr n c r v).imem = s.imem := rfl
@[simp] theorem State.setAr_fm (n c r v : Nat) : (s.setAr n c r v).fm = s.fm := rfl
@[simp] theorem State.setAr_ob (n c r v : Nat) : (s.setAr n c r v).ob = s.ob := rfl
@[simp] theorem State.setAr_gsb (n c r v : Nat) : (s.setAr n c r v).gsb = s.gsb := rfl
@[simp] theorem State.setAr_gps (n c r v : Nat) : (s.setAr n c r v).gps = s.gps := rfl
@[simp] theorem State.setAr_fns (n c r v : Nat) : (s.setAr n c r v).fns = s.fns := rfl
@[simp] theorem State.setAr_vat (n c r v : Nat) : (s.setAr n c r v).vat = s.vat := rfl
@[simp] theorem State.setAr_hbm (n c r v : Nat) : (s.setAr n c r v).hbm = s.hbm := rfl
@[simp] theorem State.setAr_bad (n c r v : Nat) : (s.setAr n c r v).bad = s.bad := rfl
@[simp] theorem State.setAr_casts (n c r v : Nat) : (s.setAr n c r v).casts = s.casts := rfl
@[simp] theorem State.setAr_vreg (n c r v : Nat) : (s.setAr n c r v).vreg = s.vreg := rfl
@[simp] theorem State.setAr_vmask (n c r v : Nat) : (s.setAr n c r v).vmask = s.vmask := rfl
@[simp] theorem State.setAr_sf (n c r v : Nat) : (s.setAr n c r v).sf = s.sf := rfl
@[simp] theorem State.setAr_sfKind (n c r v : Nat) : (s.setAr n c r v).sfKind = s.sfKind := rfl
@[simp] theorem State.setAr_am (n c r v : Nat) : (s.setAr n c r v).am = s.am := rfl
@[simp] theorem State.setAr_sa (n c r v : Nat) : (s.setAr n c r v).sa = s.sa := rfl
@[simp] theorem State.setAr_srow (n c r v : Nat) : (s.setAr n c r v).srow = s.srow := rfl
@[simp] theorem State.setAr_saTag (n c r v : Nat) : (s.setAr n c r v).saTag = s.saTag := rfl
@[simp] theorem State.setAr_arr (n c r v : Nat) : (s.setAr n c r v).arr = s.arr := rfl
@[simp] theorem State.setAr_accf (n c r v : Nat) : (s.setAr n c r v).accf = s.accf := rfl
@[simp] theorem State.setAr_latchEl (n c r v : Nat) : (s.setAr n c r v).latchEl = s.latchEl := rfl
@[simp] theorem State.setAr_latchSc (n c r v : Nat) : (s.setAr n c r v).latchSc = s.latchSc := rfl
@[simp] theorem State.setAr_latchFmt (n c r v : Nat) : (s.setAr n c r v).latchFmt = s.latchFmt := rfl
@[simp] theorem State.setAr_jobs (n c r v : Nat) : (s.setAr n c r v).jobs = s.jobs := rfl
@[simp] theorem State.setAr_gateQ (n c r v : Nat) : (s.setAr n c r v).gateQ = s.gateQ := rfl
@[simp] theorem State.setAr_gatePend (n c r v : Nat) : (s.setAr n c r v).gatePend = s.gatePend := rfl
@[simp] theorem State.setAr_carryf (n c r v : Nat) : (s.setAr n c r v).carryf = s.carryf := rfl
@[simp] theorem State.setAr_sew (n c r v : Nat) : (s.setAr n c r v).sew = s.sew := rfl
@[simp] theorem State.setAr_inbox (n c r v : Nat) : (s.setAr n c r v).inbox = s.inbox := rfl
@[simp] theorem State.setAr_carries (n c r v : Nat) : (s.setAr n c r v).carries = s.carries := rfl
@[simp] theorem State.setAr_carrySent (n c r v : Nat) : (s.setAr n c r v).carrySent = s.carrySent := rfl
@[simp] theorem State.setAr_gens (n c r v : Nat) : (s.setAr n c r v).gens = s.gens := rfl
@[simp] theorem State.setAr_slots (n c r v : Nat) : (s.setAr n c r v).slots = s.slots := rfl
@[simp] theorem State.setAr_contribs (n c r v : Nat) : (s.setAr n c r v).contribs = s.contribs := rfl
@[simp] theorem State.setAr_plane (n c r v : Nat) : (s.setAr n c r v).plane = s.plane := rfl
@[simp] theorem State.setAr_remote (n c r v : Nat) : (s.setAr n c r v).remote = s.remote := rfl
@[simp] theorem State.setAr_movers (n c r v : Nat) : (s.setAr n c r v).movers = s.movers := rfl
@[simp] theorem State.setAr_moveId (n c r v : Nat) : (s.setAr n c r v).moveId = s.moveId := rfl
@[simp] theorem State.setAr_turns (n c r v : Nat) : (s.setAr n c r v).turns = s.turns := rfl
@[simp] theorem State.setAr_pcQueue (n c r v : Nat) : (s.setAr n c r v).pcQueue = s.pcQueue := rfl
@[simp] theorem State.setAr_fetch (n c r v : Nat) : (s.setAr n c r v).fetch = s.fetch := rfl
@[simp] theorem State.setAr_mleads (n c r v : Nat) : (s.setAr n c r v).mleads = s.mleads := rfl
@[simp] theorem State.setAr_mrecvs (n c r v : Nat) : (s.setAr n c r v).mrecvs = s.mrecvs := rfl
@[simp] theorem State.setAr_credits (n c r v : Nat) : (s.setAr n c r v).credits = s.credits := rfl
@[simp] theorem State.setAr_ringTail (n c r v : Nat) : (s.setAr n c r v).ringTail = s.ringTail := rfl
@[simp] theorem State.setAr_ringHead (n c r v : Nat) : (s.setAr n c r v).ringHead = s.ringHead := rfl
@[simp] theorem State.setAr_occupied (n c r v : Nat) : (s.setAr n c r v).occupied = s.occupied := rfl
@[simp] theorem State.setAr_strm (n c r v : Nat) : (s.setAr n c r v).strm = s.strm := rfl
@[simp] theorem State.setAr_tokens (n c r v : Nat) : (s.setAr n c r v).tokens = s.tokens := rfl
@[simp] theorem State.setAr_doneFifo (n c r v : Nat) : (s.setAr n c r v).doneFifo = s.doneFifo := rfl
@[simp] theorem State.setAr_doneHeld (n c r v : Nat) : (s.setAr n c r v).doneHeld = s.doneHeld := rfl
@[simp] theorem State.setAr_keys (n c r v : Nat) : (s.setAr n c r v).keys = s.keys := rfl
@[simp] theorem State.setAr_scheds (n c r v : Nat) : (s.setAr n c r v).scheds = s.scheds := rfl
@[simp] theorem State.setAr_txns (n c r v : Nat) : (s.setAr n c r v).txns = s.txns := rfl
@[simp] theorem State.setAr_mbx (n c r v : Nat) : (s.setAr n c r v).mbx = s.mbx := rfl
@[simp] theorem State.setAr_mbxValid (n c r v : Nat) : (s.setAr n c r v).mbxValid = s.mbxValid := rfl
@[simp] theorem State.setAr_heldWrites (n c r v : Nat) : (s.setAr n c r v).heldWrites = s.heldWrites := rfl
@[simp] theorem State.setAr_levelReq (n c r v : Nat) : (s.setAr n c r v).levelReq = s.levelReq := rfl
@[simp] theorem State.setAr_burstIn (n c r v : Nat) : (s.setAr n c r v).burstIn = s.burstIn := rfl
@[simp] theorem State.setAr_outbox (n c r v : Nat) : (s.setAr n c r v).outbox = s.outbox := rfl
@[simp] theorem State.setAr_sideband (n c r v : Nat) : (s.setAr n c r v).sideband = s.sideband := rfl
@[simp] theorem State.setAr_d2dRx (n c r v : Nat) : (s.setAr n c r v).d2dRx = s.d2dRx := rfl
@[simp] theorem State.setAr_d2dTx (n c r v : Nat) : (s.setAr n c r v).d2dTx = s.d2dTx := rfl
@[simp] theorem State.setAr_d2dRetry (n c r v : Nat) : (s.setAr n c r v).d2dRetry = s.d2dRetry := rfl
@[simp] theorem State.setAr_d2dAttempts (n c r v : Nat) : (s.setAr n c r v).d2dAttempts = s.d2dAttempts := rfl
@[simp] theorem State.setAr_d2dCredits (n c r v : Nat) : (s.setAr n c r v).d2dCredits = s.d2dCredits := rfl
@[simp] theorem State.setAr_d2dPos (n c r v : Nat) : (s.setAr n c r v).d2dPos = s.d2dPos := rfl
@[simp] theorem State.setAr_d2dOwed (n c r v : Nat) : (s.setAr n c r v).d2dOwed = s.d2dOwed := rfl
@[simp] theorem State.setAr_d2dNak (n c r v : Nat) : (s.setAr n c r v).d2dNak = s.d2dNak := rfl
@[simp] theorem State.setAr_d2dLost (n c r v : Nat) : (s.setAr n c r v).d2dLost = s.d2dLost := rfl
@[simp] theorem State.setAr_d2dOut (n c r v : Nat) : (s.setAr n c r v).d2dOut = s.d2dOut := rfl
@[simp] theorem State.setAr_jtagData (n c r v : Nat) : (s.setAr n c r v).jtagData = s.jtagData := rfl
@[simp] theorem State.setAr_links (n c r v : Nat) : (s.setAr n c r v).links = s.links := rfl
@[simp] theorem State.setAr_linkIn (n c r v : Nat) : (s.setAr n c r v).linkIn = s.linkIn := rfl
@[simp] theorem State.setAr_partials (n c r v : Nat) : (s.setAr n c r v).partials = s.partials := rfl
@[simp] theorem State.setAr_linkOut (n c r v : Nat) : (s.setAr n c r v).linkOut = s.linkOut := rfl
@[simp] theorem State.setAr_linkMsgId (n c r v : Nat) : (s.setAr n c r v).linkMsgId = s.linkMsgId := rfl
@[simp] theorem State.setAr_lpSent (n c r v : Nat) : (s.setAr n c r v).lpSent = s.lpSent := rfl
@[simp] theorem State.setAr_linkDown (n c r v : Nat) : (s.setAr n c r v).linkDown = s.linkDown := rfl
@[simp] theorem State.setAr_lstateSeq (n c r v : Nat) : (s.setAr n c r v).lstateSeq = s.lstateSeq := rfl
@[simp] theorem State.setAr_hoop (n c r v : Nat) : (s.setAr n c r v).hoop = s.hoop := rfl
@[simp] theorem State.setAr_mirrors (n c r v : Nat) : (s.setAr n c r v).mirrors = s.mirrors := rfl
@[simp] theorem State.setAr_takeovers (n c r v : Nat) : (s.setAr n c r v).takeovers = s.takeovers := rfl
@[simp] theorem State.setAr_pwr (n c r v : Nat) : (s.setAr n c r v).pwr = s.pwr := rfl
@[simp] theorem State.setAr_pwrFailed (n c r v : Nat) : (s.setAr n c r v).pwrFailed = s.pwrFailed := rfl
@[simp] theorem State.setAr_planAt (n c r v : Nat) : (s.setAr n c r v).planAt = s.planAt := rfl
@[simp] theorem State.setAr_refLost (n c r v : Nat) : (s.setAr n c r v).refLost = s.refLost := rfl
@[simp] theorem State.setAr_railsOut (n c r v : Nat) : (s.setAr n c r v).railsOut = s.railsOut := rfl
@[simp] theorem State.setAr_quietUntil (n c r v : Nat) : (s.setAr n c r v).quietUntil = s.quietUntil := rfl
@[simp] theorem State.setAr_substs (n c r v : Nat) : (s.setAr n c r v).substs = s.substs := rfl
@[simp] theorem State.setAr_switching (n c r v : Nat) : (s.setAr n c r v).switching = s.switching := rfl
@[simp] theorem State.setAr_events (n c r v : Nat) : (s.setAr n c r v).events = s.events := rfl
@[simp] theorem State.setAr_faultLow (n c r v : Nat) : (s.setAr n c r v).faultLow = s.faultLow := rfl
@[simp] theorem State.setAr_wakeLow (n c r v : Nat) : (s.setAr n c r v).wakeLow = s.wakeLow := rfl
@[simp] theorem State.setAr_thermLow (n c r v : Nat) : (s.setAr n c r v).thermLow = s.thermLow := rfl
@[simp] theorem State.setAr_trace (n c r v : Nat) : (s.setAr n c r v).trace = s.trace := rfl
@[simp] theorem State.setAr_fresh (n c r v : Nat) : (s.setAr n c r v).fresh = s.fresh := rfl

/-! ## State.setLcr changes lc -/

@[simp] theorem State.setLcr_pending (n c r v : Nat) : (s.setLcr n c r v).pending = s.pending := rfl
@[simp] theorem State.setLcr_regs (n c r v : Nat) : (s.setLcr n c r v).regs = s.regs := rfl
@[simp] theorem State.setLcr_portRegs (n c r v : Nat) : (s.setLcr n c r v).portRegs = s.portRegs := rfl
@[simp] theorem State.setLcr_rclk (n c r v : Nat) : (s.setLcr n c r v).rclk = s.rclk := rfl
@[simp] theorem State.setLcr_inReset (n c r v : Nat) : (s.setLcr n c r v).inReset = s.inReset := rfl
@[simp] theorem State.setLcr_inWarm (n c r v : Nat) : (s.setLcr n c r v).inWarm = s.inWarm := rfl
@[simp] theorem State.setLcr_tripReset (n c r v : Nat) : (s.setLcr n c r v).tripReset = s.tripReset := rfl
@[simp] theorem State.setLcr_formed (n c r v : Nat) : (s.setLcr n c r v).formed = s.formed := rfl
@[simp] theorem State.setLcr_saved (n c r v : Nat) : (s.setLcr n c r v).saved = s.saved := rfl
@[simp] theorem State.setLcr_savedTable (n c r v : Nat) : (s.setLcr n c r v).savedTable = s.savedTable := rfl
@[simp] theorem State.setLcr_image (n c r v : Nat) : (s.setLcr n c r v).image = s.image := rfl
@[simp] theorem State.setLcr_staged (n c r v : Nat) : (s.setLcr n c r v).staged = s.staged := rfl
@[simp] theorem State.setLcr_sreg (n c r v : Nat) : (s.setLcr n c r v).sreg = s.sreg := rfl
@[simp] theorem State.setLcr_areg (n c r v : Nat) : (s.setLcr n c r v).areg = s.areg := rfl
@[simp] theorem State.setLcr_ctxs (n c r v : Nat) : (s.setLcr n c r v).ctxs = s.ctxs := rfl
@[simp] theorem State.setLcr_istores (n c r v : Nat) : (s.setLcr n c r v).istores = s.istores := rfl
@[simp] theorem State.setLcr_tags (n c r v : Nat) : (s.setLcr n c r v).tags = s.tags := rfl
@[simp] theorem State.setLcr_heldFlags (n c r v : Nat) : (s.setLcr n c r v).heldFlags = s.heldFlags := rfl
@[simp] theorem State.setLcr_heldOvr (n c r v : Nat) : (s.setLcr n c r v).heldOvr = s.heldOvr := rfl
@[simp] theorem State.setLcr_imem (n c r v : Nat) : (s.setLcr n c r v).imem = s.imem := rfl
@[simp] theorem State.setLcr_fm (n c r v : Nat) : (s.setLcr n c r v).fm = s.fm := rfl
@[simp] theorem State.setLcr_ob (n c r v : Nat) : (s.setLcr n c r v).ob = s.ob := rfl
@[simp] theorem State.setLcr_gsb (n c r v : Nat) : (s.setLcr n c r v).gsb = s.gsb := rfl
@[simp] theorem State.setLcr_gps (n c r v : Nat) : (s.setLcr n c r v).gps = s.gps := rfl
@[simp] theorem State.setLcr_fns (n c r v : Nat) : (s.setLcr n c r v).fns = s.fns := rfl
@[simp] theorem State.setLcr_vat (n c r v : Nat) : (s.setLcr n c r v).vat = s.vat := rfl
@[simp] theorem State.setLcr_hbm (n c r v : Nat) : (s.setLcr n c r v).hbm = s.hbm := rfl
@[simp] theorem State.setLcr_bad (n c r v : Nat) : (s.setLcr n c r v).bad = s.bad := rfl
@[simp] theorem State.setLcr_casts (n c r v : Nat) : (s.setLcr n c r v).casts = s.casts := rfl
@[simp] theorem State.setLcr_vreg (n c r v : Nat) : (s.setLcr n c r v).vreg = s.vreg := rfl
@[simp] theorem State.setLcr_vmask (n c r v : Nat) : (s.setLcr n c r v).vmask = s.vmask := rfl
@[simp] theorem State.setLcr_sf (n c r v : Nat) : (s.setLcr n c r v).sf = s.sf := rfl
@[simp] theorem State.setLcr_sfKind (n c r v : Nat) : (s.setLcr n c r v).sfKind = s.sfKind := rfl
@[simp] theorem State.setLcr_am (n c r v : Nat) : (s.setLcr n c r v).am = s.am := rfl
@[simp] theorem State.setLcr_sa (n c r v : Nat) : (s.setLcr n c r v).sa = s.sa := rfl
@[simp] theorem State.setLcr_srow (n c r v : Nat) : (s.setLcr n c r v).srow = s.srow := rfl
@[simp] theorem State.setLcr_saTag (n c r v : Nat) : (s.setLcr n c r v).saTag = s.saTag := rfl
@[simp] theorem State.setLcr_arr (n c r v : Nat) : (s.setLcr n c r v).arr = s.arr := rfl
@[simp] theorem State.setLcr_accf (n c r v : Nat) : (s.setLcr n c r v).accf = s.accf := rfl
@[simp] theorem State.setLcr_latchEl (n c r v : Nat) : (s.setLcr n c r v).latchEl = s.latchEl := rfl
@[simp] theorem State.setLcr_latchSc (n c r v : Nat) : (s.setLcr n c r v).latchSc = s.latchSc := rfl
@[simp] theorem State.setLcr_latchFmt (n c r v : Nat) : (s.setLcr n c r v).latchFmt = s.latchFmt := rfl
@[simp] theorem State.setLcr_jobs (n c r v : Nat) : (s.setLcr n c r v).jobs = s.jobs := rfl
@[simp] theorem State.setLcr_gateQ (n c r v : Nat) : (s.setLcr n c r v).gateQ = s.gateQ := rfl
@[simp] theorem State.setLcr_gatePend (n c r v : Nat) : (s.setLcr n c r v).gatePend = s.gatePend := rfl
@[simp] theorem State.setLcr_carryf (n c r v : Nat) : (s.setLcr n c r v).carryf = s.carryf := rfl
@[simp] theorem State.setLcr_sew (n c r v : Nat) : (s.setLcr n c r v).sew = s.sew := rfl
@[simp] theorem State.setLcr_inbox (n c r v : Nat) : (s.setLcr n c r v).inbox = s.inbox := rfl
@[simp] theorem State.setLcr_carries (n c r v : Nat) : (s.setLcr n c r v).carries = s.carries := rfl
@[simp] theorem State.setLcr_carrySent (n c r v : Nat) : (s.setLcr n c r v).carrySent = s.carrySent := rfl
@[simp] theorem State.setLcr_gens (n c r v : Nat) : (s.setLcr n c r v).gens = s.gens := rfl
@[simp] theorem State.setLcr_slots (n c r v : Nat) : (s.setLcr n c r v).slots = s.slots := rfl
@[simp] theorem State.setLcr_contribs (n c r v : Nat) : (s.setLcr n c r v).contribs = s.contribs := rfl
@[simp] theorem State.setLcr_plane (n c r v : Nat) : (s.setLcr n c r v).plane = s.plane := rfl
@[simp] theorem State.setLcr_remote (n c r v : Nat) : (s.setLcr n c r v).remote = s.remote := rfl
@[simp] theorem State.setLcr_movers (n c r v : Nat) : (s.setLcr n c r v).movers = s.movers := rfl
@[simp] theorem State.setLcr_moveId (n c r v : Nat) : (s.setLcr n c r v).moveId = s.moveId := rfl
@[simp] theorem State.setLcr_turns (n c r v : Nat) : (s.setLcr n c r v).turns = s.turns := rfl
@[simp] theorem State.setLcr_pcQueue (n c r v : Nat) : (s.setLcr n c r v).pcQueue = s.pcQueue := rfl
@[simp] theorem State.setLcr_fetch (n c r v : Nat) : (s.setLcr n c r v).fetch = s.fetch := rfl
@[simp] theorem State.setLcr_mleads (n c r v : Nat) : (s.setLcr n c r v).mleads = s.mleads := rfl
@[simp] theorem State.setLcr_mrecvs (n c r v : Nat) : (s.setLcr n c r v).mrecvs = s.mrecvs := rfl
@[simp] theorem State.setLcr_credits (n c r v : Nat) : (s.setLcr n c r v).credits = s.credits := rfl
@[simp] theorem State.setLcr_ringTail (n c r v : Nat) : (s.setLcr n c r v).ringTail = s.ringTail := rfl
@[simp] theorem State.setLcr_ringHead (n c r v : Nat) : (s.setLcr n c r v).ringHead = s.ringHead := rfl
@[simp] theorem State.setLcr_occupied (n c r v : Nat) : (s.setLcr n c r v).occupied = s.occupied := rfl
@[simp] theorem State.setLcr_strm (n c r v : Nat) : (s.setLcr n c r v).strm = s.strm := rfl
@[simp] theorem State.setLcr_tokens (n c r v : Nat) : (s.setLcr n c r v).tokens = s.tokens := rfl
@[simp] theorem State.setLcr_doneFifo (n c r v : Nat) : (s.setLcr n c r v).doneFifo = s.doneFifo := rfl
@[simp] theorem State.setLcr_doneHeld (n c r v : Nat) : (s.setLcr n c r v).doneHeld = s.doneHeld := rfl
@[simp] theorem State.setLcr_keys (n c r v : Nat) : (s.setLcr n c r v).keys = s.keys := rfl
@[simp] theorem State.setLcr_scheds (n c r v : Nat) : (s.setLcr n c r v).scheds = s.scheds := rfl
@[simp] theorem State.setLcr_txns (n c r v : Nat) : (s.setLcr n c r v).txns = s.txns := rfl
@[simp] theorem State.setLcr_mbx (n c r v : Nat) : (s.setLcr n c r v).mbx = s.mbx := rfl
@[simp] theorem State.setLcr_mbxValid (n c r v : Nat) : (s.setLcr n c r v).mbxValid = s.mbxValid := rfl
@[simp] theorem State.setLcr_heldWrites (n c r v : Nat) : (s.setLcr n c r v).heldWrites = s.heldWrites := rfl
@[simp] theorem State.setLcr_levelReq (n c r v : Nat) : (s.setLcr n c r v).levelReq = s.levelReq := rfl
@[simp] theorem State.setLcr_burstIn (n c r v : Nat) : (s.setLcr n c r v).burstIn = s.burstIn := rfl
@[simp] theorem State.setLcr_outbox (n c r v : Nat) : (s.setLcr n c r v).outbox = s.outbox := rfl
@[simp] theorem State.setLcr_sideband (n c r v : Nat) : (s.setLcr n c r v).sideband = s.sideband := rfl
@[simp] theorem State.setLcr_d2dRx (n c r v : Nat) : (s.setLcr n c r v).d2dRx = s.d2dRx := rfl
@[simp] theorem State.setLcr_d2dTx (n c r v : Nat) : (s.setLcr n c r v).d2dTx = s.d2dTx := rfl
@[simp] theorem State.setLcr_d2dRetry (n c r v : Nat) : (s.setLcr n c r v).d2dRetry = s.d2dRetry := rfl
@[simp] theorem State.setLcr_d2dAttempts (n c r v : Nat) : (s.setLcr n c r v).d2dAttempts = s.d2dAttempts := rfl
@[simp] theorem State.setLcr_d2dCredits (n c r v : Nat) : (s.setLcr n c r v).d2dCredits = s.d2dCredits := rfl
@[simp] theorem State.setLcr_d2dPos (n c r v : Nat) : (s.setLcr n c r v).d2dPos = s.d2dPos := rfl
@[simp] theorem State.setLcr_d2dOwed (n c r v : Nat) : (s.setLcr n c r v).d2dOwed = s.d2dOwed := rfl
@[simp] theorem State.setLcr_d2dNak (n c r v : Nat) : (s.setLcr n c r v).d2dNak = s.d2dNak := rfl
@[simp] theorem State.setLcr_d2dLost (n c r v : Nat) : (s.setLcr n c r v).d2dLost = s.d2dLost := rfl
@[simp] theorem State.setLcr_d2dOut (n c r v : Nat) : (s.setLcr n c r v).d2dOut = s.d2dOut := rfl
@[simp] theorem State.setLcr_jtagData (n c r v : Nat) : (s.setLcr n c r v).jtagData = s.jtagData := rfl
@[simp] theorem State.setLcr_links (n c r v : Nat) : (s.setLcr n c r v).links = s.links := rfl
@[simp] theorem State.setLcr_linkIn (n c r v : Nat) : (s.setLcr n c r v).linkIn = s.linkIn := rfl
@[simp] theorem State.setLcr_partials (n c r v : Nat) : (s.setLcr n c r v).partials = s.partials := rfl
@[simp] theorem State.setLcr_linkOut (n c r v : Nat) : (s.setLcr n c r v).linkOut = s.linkOut := rfl
@[simp] theorem State.setLcr_linkMsgId (n c r v : Nat) : (s.setLcr n c r v).linkMsgId = s.linkMsgId := rfl
@[simp] theorem State.setLcr_lpSent (n c r v : Nat) : (s.setLcr n c r v).lpSent = s.lpSent := rfl
@[simp] theorem State.setLcr_linkDown (n c r v : Nat) : (s.setLcr n c r v).linkDown = s.linkDown := rfl
@[simp] theorem State.setLcr_lstateSeq (n c r v : Nat) : (s.setLcr n c r v).lstateSeq = s.lstateSeq := rfl
@[simp] theorem State.setLcr_hoop (n c r v : Nat) : (s.setLcr n c r v).hoop = s.hoop := rfl
@[simp] theorem State.setLcr_mirrors (n c r v : Nat) : (s.setLcr n c r v).mirrors = s.mirrors := rfl
@[simp] theorem State.setLcr_takeovers (n c r v : Nat) : (s.setLcr n c r v).takeovers = s.takeovers := rfl
@[simp] theorem State.setLcr_pwr (n c r v : Nat) : (s.setLcr n c r v).pwr = s.pwr := rfl
@[simp] theorem State.setLcr_pwrFailed (n c r v : Nat) : (s.setLcr n c r v).pwrFailed = s.pwrFailed := rfl
@[simp] theorem State.setLcr_planAt (n c r v : Nat) : (s.setLcr n c r v).planAt = s.planAt := rfl
@[simp] theorem State.setLcr_refLost (n c r v : Nat) : (s.setLcr n c r v).refLost = s.refLost := rfl
@[simp] theorem State.setLcr_railsOut (n c r v : Nat) : (s.setLcr n c r v).railsOut = s.railsOut := rfl
@[simp] theorem State.setLcr_quietUntil (n c r v : Nat) : (s.setLcr n c r v).quietUntil = s.quietUntil := rfl
@[simp] theorem State.setLcr_substs (n c r v : Nat) : (s.setLcr n c r v).substs = s.substs := rfl
@[simp] theorem State.setLcr_switching (n c r v : Nat) : (s.setLcr n c r v).switching = s.switching := rfl
@[simp] theorem State.setLcr_events (n c r v : Nat) : (s.setLcr n c r v).events = s.events := rfl
@[simp] theorem State.setLcr_faultLow (n c r v : Nat) : (s.setLcr n c r v).faultLow = s.faultLow := rfl
@[simp] theorem State.setLcr_wakeLow (n c r v : Nat) : (s.setLcr n c r v).wakeLow = s.wakeLow := rfl
@[simp] theorem State.setLcr_thermLow (n c r v : Nat) : (s.setLcr n c r v).thermLow = s.thermLow := rfl
@[simp] theorem State.setLcr_trace (n c r v : Nat) : (s.setLcr n c r v).trace = s.trace := rfl
@[simp] theorem State.setLcr_fresh (n c r v : Nat) : (s.setLcr n c r v).fresh = s.fresh := rfl

/-! ## State.setTag changes tags -/

@[simp] theorem State.setTag_pending (k j : Nat) (r : TagRec) : (s.setTag k j r).pending = s.pending := rfl
@[simp] theorem State.setTag_regs (k j : Nat) (r : TagRec) : (s.setTag k j r).regs = s.regs := rfl
@[simp] theorem State.setTag_portRegs (k j : Nat) (r : TagRec) : (s.setTag k j r).portRegs = s.portRegs := rfl
@[simp] theorem State.setTag_rclk (k j : Nat) (r : TagRec) : (s.setTag k j r).rclk = s.rclk := rfl
@[simp] theorem State.setTag_inReset (k j : Nat) (r : TagRec) : (s.setTag k j r).inReset = s.inReset := rfl
@[simp] theorem State.setTag_inWarm (k j : Nat) (r : TagRec) : (s.setTag k j r).inWarm = s.inWarm := rfl
@[simp] theorem State.setTag_tripReset (k j : Nat) (r : TagRec) : (s.setTag k j r).tripReset = s.tripReset := rfl
@[simp] theorem State.setTag_formed (k j : Nat) (r : TagRec) : (s.setTag k j r).formed = s.formed := rfl
@[simp] theorem State.setTag_saved (k j : Nat) (r : TagRec) : (s.setTag k j r).saved = s.saved := rfl
@[simp] theorem State.setTag_savedTable (k j : Nat) (r : TagRec) : (s.setTag k j r).savedTable = s.savedTable := rfl
@[simp] theorem State.setTag_image (k j : Nat) (r : TagRec) : (s.setTag k j r).image = s.image := rfl
@[simp] theorem State.setTag_staged (k j : Nat) (r : TagRec) : (s.setTag k j r).staged = s.staged := rfl
@[simp] theorem State.setTag_sreg (k j : Nat) (r : TagRec) : (s.setTag k j r).sreg = s.sreg := rfl
@[simp] theorem State.setTag_areg (k j : Nat) (r : TagRec) : (s.setTag k j r).areg = s.areg := rfl
@[simp] theorem State.setTag_lc (k j : Nat) (r : TagRec) : (s.setTag k j r).lc = s.lc := rfl
@[simp] theorem State.setTag_ctxs (k j : Nat) (r : TagRec) : (s.setTag k j r).ctxs = s.ctxs := rfl
@[simp] theorem State.setTag_istores (k j : Nat) (r : TagRec) : (s.setTag k j r).istores = s.istores := rfl
@[simp] theorem State.setTag_heldFlags (k j : Nat) (r : TagRec) : (s.setTag k j r).heldFlags = s.heldFlags := rfl
@[simp] theorem State.setTag_heldOvr (k j : Nat) (r : TagRec) : (s.setTag k j r).heldOvr = s.heldOvr := rfl
@[simp] theorem State.setTag_imem (k j : Nat) (r : TagRec) : (s.setTag k j r).imem = s.imem := rfl
@[simp] theorem State.setTag_fm (k j : Nat) (r : TagRec) : (s.setTag k j r).fm = s.fm := rfl
@[simp] theorem State.setTag_ob (k j : Nat) (r : TagRec) : (s.setTag k j r).ob = s.ob := rfl
@[simp] theorem State.setTag_gsb (k j : Nat) (r : TagRec) : (s.setTag k j r).gsb = s.gsb := rfl
@[simp] theorem State.setTag_gps (k j : Nat) (r : TagRec) : (s.setTag k j r).gps = s.gps := rfl
@[simp] theorem State.setTag_fns (k j : Nat) (r : TagRec) : (s.setTag k j r).fns = s.fns := rfl
@[simp] theorem State.setTag_vat (k j : Nat) (r : TagRec) : (s.setTag k j r).vat = s.vat := rfl
@[simp] theorem State.setTag_hbm (k j : Nat) (r : TagRec) : (s.setTag k j r).hbm = s.hbm := rfl
@[simp] theorem State.setTag_bad (k j : Nat) (r : TagRec) : (s.setTag k j r).bad = s.bad := rfl
@[simp] theorem State.setTag_casts (k j : Nat) (r : TagRec) : (s.setTag k j r).casts = s.casts := rfl
@[simp] theorem State.setTag_vreg (k j : Nat) (r : TagRec) : (s.setTag k j r).vreg = s.vreg := rfl
@[simp] theorem State.setTag_vmask (k j : Nat) (r : TagRec) : (s.setTag k j r).vmask = s.vmask := rfl
@[simp] theorem State.setTag_sf (k j : Nat) (r : TagRec) : (s.setTag k j r).sf = s.sf := rfl
@[simp] theorem State.setTag_sfKind (k j : Nat) (r : TagRec) : (s.setTag k j r).sfKind = s.sfKind := rfl
@[simp] theorem State.setTag_am (k j : Nat) (r : TagRec) : (s.setTag k j r).am = s.am := rfl
@[simp] theorem State.setTag_sa (k j : Nat) (r : TagRec) : (s.setTag k j r).sa = s.sa := rfl
@[simp] theorem State.setTag_srow (k j : Nat) (r : TagRec) : (s.setTag k j r).srow = s.srow := rfl
@[simp] theorem State.setTag_saTag (k j : Nat) (r : TagRec) : (s.setTag k j r).saTag = s.saTag := rfl
@[simp] theorem State.setTag_arr (k j : Nat) (r : TagRec) : (s.setTag k j r).arr = s.arr := rfl
@[simp] theorem State.setTag_accf (k j : Nat) (r : TagRec) : (s.setTag k j r).accf = s.accf := rfl
@[simp] theorem State.setTag_latchEl (k j : Nat) (r : TagRec) : (s.setTag k j r).latchEl = s.latchEl := rfl
@[simp] theorem State.setTag_latchSc (k j : Nat) (r : TagRec) : (s.setTag k j r).latchSc = s.latchSc := rfl
@[simp] theorem State.setTag_latchFmt (k j : Nat) (r : TagRec) : (s.setTag k j r).latchFmt = s.latchFmt := rfl
@[simp] theorem State.setTag_jobs (k j : Nat) (r : TagRec) : (s.setTag k j r).jobs = s.jobs := rfl
@[simp] theorem State.setTag_gateQ (k j : Nat) (r : TagRec) : (s.setTag k j r).gateQ = s.gateQ := rfl
@[simp] theorem State.setTag_gatePend (k j : Nat) (r : TagRec) : (s.setTag k j r).gatePend = s.gatePend := rfl
@[simp] theorem State.setTag_carryf (k j : Nat) (r : TagRec) : (s.setTag k j r).carryf = s.carryf := rfl
@[simp] theorem State.setTag_sew (k j : Nat) (r : TagRec) : (s.setTag k j r).sew = s.sew := rfl
@[simp] theorem State.setTag_inbox (k j : Nat) (r : TagRec) : (s.setTag k j r).inbox = s.inbox := rfl
@[simp] theorem State.setTag_carries (k j : Nat) (r : TagRec) : (s.setTag k j r).carries = s.carries := rfl
@[simp] theorem State.setTag_carrySent (k j : Nat) (r : TagRec) : (s.setTag k j r).carrySent = s.carrySent := rfl
@[simp] theorem State.setTag_gens (k j : Nat) (r : TagRec) : (s.setTag k j r).gens = s.gens := rfl
@[simp] theorem State.setTag_slots (k j : Nat) (r : TagRec) : (s.setTag k j r).slots = s.slots := rfl
@[simp] theorem State.setTag_contribs (k j : Nat) (r : TagRec) : (s.setTag k j r).contribs = s.contribs := rfl
@[simp] theorem State.setTag_plane (k j : Nat) (r : TagRec) : (s.setTag k j r).plane = s.plane := rfl
@[simp] theorem State.setTag_remote (k j : Nat) (r : TagRec) : (s.setTag k j r).remote = s.remote := rfl
@[simp] theorem State.setTag_movers (k j : Nat) (r : TagRec) : (s.setTag k j r).movers = s.movers := rfl
@[simp] theorem State.setTag_moveId (k j : Nat) (r : TagRec) : (s.setTag k j r).moveId = s.moveId := rfl
@[simp] theorem State.setTag_turns (k j : Nat) (r : TagRec) : (s.setTag k j r).turns = s.turns := rfl
@[simp] theorem State.setTag_pcQueue (k j : Nat) (r : TagRec) : (s.setTag k j r).pcQueue = s.pcQueue := rfl
@[simp] theorem State.setTag_fetch (k j : Nat) (r : TagRec) : (s.setTag k j r).fetch = s.fetch := rfl
@[simp] theorem State.setTag_mleads (k j : Nat) (r : TagRec) : (s.setTag k j r).mleads = s.mleads := rfl
@[simp] theorem State.setTag_mrecvs (k j : Nat) (r : TagRec) : (s.setTag k j r).mrecvs = s.mrecvs := rfl
@[simp] theorem State.setTag_credits (k j : Nat) (r : TagRec) : (s.setTag k j r).credits = s.credits := rfl
@[simp] theorem State.setTag_ringTail (k j : Nat) (r : TagRec) : (s.setTag k j r).ringTail = s.ringTail := rfl
@[simp] theorem State.setTag_ringHead (k j : Nat) (r : TagRec) : (s.setTag k j r).ringHead = s.ringHead := rfl
@[simp] theorem State.setTag_occupied (k j : Nat) (r : TagRec) : (s.setTag k j r).occupied = s.occupied := rfl
@[simp] theorem State.setTag_strm (k j : Nat) (r : TagRec) : (s.setTag k j r).strm = s.strm := rfl
@[simp] theorem State.setTag_tokens (k j : Nat) (r : TagRec) : (s.setTag k j r).tokens = s.tokens := rfl
@[simp] theorem State.setTag_doneFifo (k j : Nat) (r : TagRec) : (s.setTag k j r).doneFifo = s.doneFifo := rfl
@[simp] theorem State.setTag_doneHeld (k j : Nat) (r : TagRec) : (s.setTag k j r).doneHeld = s.doneHeld := rfl
@[simp] theorem State.setTag_keys (k j : Nat) (r : TagRec) : (s.setTag k j r).keys = s.keys := rfl
@[simp] theorem State.setTag_scheds (k j : Nat) (r : TagRec) : (s.setTag k j r).scheds = s.scheds := rfl
@[simp] theorem State.setTag_txns (k j : Nat) (r : TagRec) : (s.setTag k j r).txns = s.txns := rfl
@[simp] theorem State.setTag_mbx (k j : Nat) (r : TagRec) : (s.setTag k j r).mbx = s.mbx := rfl
@[simp] theorem State.setTag_mbxValid (k j : Nat) (r : TagRec) : (s.setTag k j r).mbxValid = s.mbxValid := rfl
@[simp] theorem State.setTag_heldWrites (k j : Nat) (r : TagRec) : (s.setTag k j r).heldWrites = s.heldWrites := rfl
@[simp] theorem State.setTag_levelReq (k j : Nat) (r : TagRec) : (s.setTag k j r).levelReq = s.levelReq := rfl
@[simp] theorem State.setTag_burstIn (k j : Nat) (r : TagRec) : (s.setTag k j r).burstIn = s.burstIn := rfl
@[simp] theorem State.setTag_outbox (k j : Nat) (r : TagRec) : (s.setTag k j r).outbox = s.outbox := rfl
@[simp] theorem State.setTag_sideband (k j : Nat) (r : TagRec) : (s.setTag k j r).sideband = s.sideband := rfl
@[simp] theorem State.setTag_d2dRx (k j : Nat) (r : TagRec) : (s.setTag k j r).d2dRx = s.d2dRx := rfl
@[simp] theorem State.setTag_d2dTx (k j : Nat) (r : TagRec) : (s.setTag k j r).d2dTx = s.d2dTx := rfl
@[simp] theorem State.setTag_d2dRetry (k j : Nat) (r : TagRec) : (s.setTag k j r).d2dRetry = s.d2dRetry := rfl
@[simp] theorem State.setTag_d2dAttempts (k j : Nat) (r : TagRec) : (s.setTag k j r).d2dAttempts = s.d2dAttempts := rfl
@[simp] theorem State.setTag_d2dCredits (k j : Nat) (r : TagRec) : (s.setTag k j r).d2dCredits = s.d2dCredits := rfl
@[simp] theorem State.setTag_d2dPos (k j : Nat) (r : TagRec) : (s.setTag k j r).d2dPos = s.d2dPos := rfl
@[simp] theorem State.setTag_d2dOwed (k j : Nat) (r : TagRec) : (s.setTag k j r).d2dOwed = s.d2dOwed := rfl
@[simp] theorem State.setTag_d2dNak (k j : Nat) (r : TagRec) : (s.setTag k j r).d2dNak = s.d2dNak := rfl
@[simp] theorem State.setTag_d2dLost (k j : Nat) (r : TagRec) : (s.setTag k j r).d2dLost = s.d2dLost := rfl
@[simp] theorem State.setTag_d2dOut (k j : Nat) (r : TagRec) : (s.setTag k j r).d2dOut = s.d2dOut := rfl
@[simp] theorem State.setTag_jtagData (k j : Nat) (r : TagRec) : (s.setTag k j r).jtagData = s.jtagData := rfl
@[simp] theorem State.setTag_links (k j : Nat) (r : TagRec) : (s.setTag k j r).links = s.links := rfl
@[simp] theorem State.setTag_linkIn (k j : Nat) (r : TagRec) : (s.setTag k j r).linkIn = s.linkIn := rfl
@[simp] theorem State.setTag_partials (k j : Nat) (r : TagRec) : (s.setTag k j r).partials = s.partials := rfl
@[simp] theorem State.setTag_linkOut (k j : Nat) (r : TagRec) : (s.setTag k j r).linkOut = s.linkOut := rfl
@[simp] theorem State.setTag_linkMsgId (k j : Nat) (r : TagRec) : (s.setTag k j r).linkMsgId = s.linkMsgId := rfl
@[simp] theorem State.setTag_lpSent (k j : Nat) (r : TagRec) : (s.setTag k j r).lpSent = s.lpSent := rfl
@[simp] theorem State.setTag_linkDown (k j : Nat) (r : TagRec) : (s.setTag k j r).linkDown = s.linkDown := rfl
@[simp] theorem State.setTag_lstateSeq (k j : Nat) (r : TagRec) : (s.setTag k j r).lstateSeq = s.lstateSeq := rfl
@[simp] theorem State.setTag_hoop (k j : Nat) (r : TagRec) : (s.setTag k j r).hoop = s.hoop := rfl
@[simp] theorem State.setTag_mirrors (k j : Nat) (r : TagRec) : (s.setTag k j r).mirrors = s.mirrors := rfl
@[simp] theorem State.setTag_takeovers (k j : Nat) (r : TagRec) : (s.setTag k j r).takeovers = s.takeovers := rfl
@[simp] theorem State.setTag_pwr (k j : Nat) (r : TagRec) : (s.setTag k j r).pwr = s.pwr := rfl
@[simp] theorem State.setTag_pwrFailed (k j : Nat) (r : TagRec) : (s.setTag k j r).pwrFailed = s.pwrFailed := rfl
@[simp] theorem State.setTag_planAt (k j : Nat) (r : TagRec) : (s.setTag k j r).planAt = s.planAt := rfl
@[simp] theorem State.setTag_refLost (k j : Nat) (r : TagRec) : (s.setTag k j r).refLost = s.refLost := rfl
@[simp] theorem State.setTag_railsOut (k j : Nat) (r : TagRec) : (s.setTag k j r).railsOut = s.railsOut := rfl
@[simp] theorem State.setTag_quietUntil (k j : Nat) (r : TagRec) : (s.setTag k j r).quietUntil = s.quietUntil := rfl
@[simp] theorem State.setTag_substs (k j : Nat) (r : TagRec) : (s.setTag k j r).substs = s.substs := rfl
@[simp] theorem State.setTag_switching (k j : Nat) (r : TagRec) : (s.setTag k j r).switching = s.switching := rfl
@[simp] theorem State.setTag_events (k j : Nat) (r : TagRec) : (s.setTag k j r).events = s.events := rfl
@[simp] theorem State.setTag_faultLow (k j : Nat) (r : TagRec) : (s.setTag k j r).faultLow = s.faultLow := rfl
@[simp] theorem State.setTag_wakeLow (k j : Nat) (r : TagRec) : (s.setTag k j r).wakeLow = s.wakeLow := rfl
@[simp] theorem State.setTag_thermLow (k j : Nat) (r : TagRec) : (s.setTag k j r).thermLow = s.thermLow := rfl
@[simp] theorem State.setTag_trace (k j : Nat) (r : TagRec) : (s.setTag k j r).trace = s.trace := rfl
@[simp] theorem State.setTag_fresh (k j : Nat) (r : TagRec) : (s.setTag k j r).fresh = s.fresh := rfl

/-! ## State.setStr changes strm -/

@[simp] theorem State.setStr_pending (i : Nat) (x : Strm) : (s.setStr i x).pending = s.pending := rfl
@[simp] theorem State.setStr_regs (i : Nat) (x : Strm) : (s.setStr i x).regs = s.regs := rfl
@[simp] theorem State.setStr_portRegs (i : Nat) (x : Strm) : (s.setStr i x).portRegs = s.portRegs := rfl
@[simp] theorem State.setStr_rclk (i : Nat) (x : Strm) : (s.setStr i x).rclk = s.rclk := rfl
@[simp] theorem State.setStr_inReset (i : Nat) (x : Strm) : (s.setStr i x).inReset = s.inReset := rfl
@[simp] theorem State.setStr_inWarm (i : Nat) (x : Strm) : (s.setStr i x).inWarm = s.inWarm := rfl
@[simp] theorem State.setStr_tripReset (i : Nat) (x : Strm) : (s.setStr i x).tripReset = s.tripReset := rfl
@[simp] theorem State.setStr_formed (i : Nat) (x : Strm) : (s.setStr i x).formed = s.formed := rfl
@[simp] theorem State.setStr_saved (i : Nat) (x : Strm) : (s.setStr i x).saved = s.saved := rfl
@[simp] theorem State.setStr_savedTable (i : Nat) (x : Strm) : (s.setStr i x).savedTable = s.savedTable := rfl
@[simp] theorem State.setStr_image (i : Nat) (x : Strm) : (s.setStr i x).image = s.image := rfl
@[simp] theorem State.setStr_staged (i : Nat) (x : Strm) : (s.setStr i x).staged = s.staged := rfl
@[simp] theorem State.setStr_sreg (i : Nat) (x : Strm) : (s.setStr i x).sreg = s.sreg := rfl
@[simp] theorem State.setStr_areg (i : Nat) (x : Strm) : (s.setStr i x).areg = s.areg := rfl
@[simp] theorem State.setStr_lc (i : Nat) (x : Strm) : (s.setStr i x).lc = s.lc := rfl
@[simp] theorem State.setStr_ctxs (i : Nat) (x : Strm) : (s.setStr i x).ctxs = s.ctxs := rfl
@[simp] theorem State.setStr_istores (i : Nat) (x : Strm) : (s.setStr i x).istores = s.istores := rfl
@[simp] theorem State.setStr_tags (i : Nat) (x : Strm) : (s.setStr i x).tags = s.tags := rfl
@[simp] theorem State.setStr_heldFlags (i : Nat) (x : Strm) : (s.setStr i x).heldFlags = s.heldFlags := rfl
@[simp] theorem State.setStr_heldOvr (i : Nat) (x : Strm) : (s.setStr i x).heldOvr = s.heldOvr := rfl
@[simp] theorem State.setStr_imem (i : Nat) (x : Strm) : (s.setStr i x).imem = s.imem := rfl
@[simp] theorem State.setStr_fm (i : Nat) (x : Strm) : (s.setStr i x).fm = s.fm := rfl
@[simp] theorem State.setStr_ob (i : Nat) (x : Strm) : (s.setStr i x).ob = s.ob := rfl
@[simp] theorem State.setStr_gsb (i : Nat) (x : Strm) : (s.setStr i x).gsb = s.gsb := rfl
@[simp] theorem State.setStr_gps (i : Nat) (x : Strm) : (s.setStr i x).gps = s.gps := rfl
@[simp] theorem State.setStr_fns (i : Nat) (x : Strm) : (s.setStr i x).fns = s.fns := rfl
@[simp] theorem State.setStr_vat (i : Nat) (x : Strm) : (s.setStr i x).vat = s.vat := rfl
@[simp] theorem State.setStr_hbm (i : Nat) (x : Strm) : (s.setStr i x).hbm = s.hbm := rfl
@[simp] theorem State.setStr_bad (i : Nat) (x : Strm) : (s.setStr i x).bad = s.bad := rfl
@[simp] theorem State.setStr_casts (i : Nat) (x : Strm) : (s.setStr i x).casts = s.casts := rfl
@[simp] theorem State.setStr_vreg (i : Nat) (x : Strm) : (s.setStr i x).vreg = s.vreg := rfl
@[simp] theorem State.setStr_vmask (i : Nat) (x : Strm) : (s.setStr i x).vmask = s.vmask := rfl
@[simp] theorem State.setStr_sf (i : Nat) (x : Strm) : (s.setStr i x).sf = s.sf := rfl
@[simp] theorem State.setStr_sfKind (i : Nat) (x : Strm) : (s.setStr i x).sfKind = s.sfKind := rfl
@[simp] theorem State.setStr_am (i : Nat) (x : Strm) : (s.setStr i x).am = s.am := rfl
@[simp] theorem State.setStr_sa (i : Nat) (x : Strm) : (s.setStr i x).sa = s.sa := rfl
@[simp] theorem State.setStr_srow (i : Nat) (x : Strm) : (s.setStr i x).srow = s.srow := rfl
@[simp] theorem State.setStr_saTag (i : Nat) (x : Strm) : (s.setStr i x).saTag = s.saTag := rfl
@[simp] theorem State.setStr_arr (i : Nat) (x : Strm) : (s.setStr i x).arr = s.arr := rfl
@[simp] theorem State.setStr_accf (i : Nat) (x : Strm) : (s.setStr i x).accf = s.accf := rfl
@[simp] theorem State.setStr_latchEl (i : Nat) (x : Strm) : (s.setStr i x).latchEl = s.latchEl := rfl
@[simp] theorem State.setStr_latchSc (i : Nat) (x : Strm) : (s.setStr i x).latchSc = s.latchSc := rfl
@[simp] theorem State.setStr_latchFmt (i : Nat) (x : Strm) : (s.setStr i x).latchFmt = s.latchFmt := rfl
@[simp] theorem State.setStr_jobs (i : Nat) (x : Strm) : (s.setStr i x).jobs = s.jobs := rfl
@[simp] theorem State.setStr_gateQ (i : Nat) (x : Strm) : (s.setStr i x).gateQ = s.gateQ := rfl
@[simp] theorem State.setStr_gatePend (i : Nat) (x : Strm) : (s.setStr i x).gatePend = s.gatePend := rfl
@[simp] theorem State.setStr_carryf (i : Nat) (x : Strm) : (s.setStr i x).carryf = s.carryf := rfl
@[simp] theorem State.setStr_sew (i : Nat) (x : Strm) : (s.setStr i x).sew = s.sew := rfl
@[simp] theorem State.setStr_inbox (i : Nat) (x : Strm) : (s.setStr i x).inbox = s.inbox := rfl
@[simp] theorem State.setStr_carries (i : Nat) (x : Strm) : (s.setStr i x).carries = s.carries := rfl
@[simp] theorem State.setStr_carrySent (i : Nat) (x : Strm) : (s.setStr i x).carrySent = s.carrySent := rfl
@[simp] theorem State.setStr_gens (i : Nat) (x : Strm) : (s.setStr i x).gens = s.gens := rfl
@[simp] theorem State.setStr_slots (i : Nat) (x : Strm) : (s.setStr i x).slots = s.slots := rfl
@[simp] theorem State.setStr_contribs (i : Nat) (x : Strm) : (s.setStr i x).contribs = s.contribs := rfl
@[simp] theorem State.setStr_plane (i : Nat) (x : Strm) : (s.setStr i x).plane = s.plane := rfl
@[simp] theorem State.setStr_remote (i : Nat) (x : Strm) : (s.setStr i x).remote = s.remote := rfl
@[simp] theorem State.setStr_movers (i : Nat) (x : Strm) : (s.setStr i x).movers = s.movers := rfl
@[simp] theorem State.setStr_moveId (i : Nat) (x : Strm) : (s.setStr i x).moveId = s.moveId := rfl
@[simp] theorem State.setStr_turns (i : Nat) (x : Strm) : (s.setStr i x).turns = s.turns := rfl
@[simp] theorem State.setStr_pcQueue (i : Nat) (x : Strm) : (s.setStr i x).pcQueue = s.pcQueue := rfl
@[simp] theorem State.setStr_fetch (i : Nat) (x : Strm) : (s.setStr i x).fetch = s.fetch := rfl
@[simp] theorem State.setStr_mleads (i : Nat) (x : Strm) : (s.setStr i x).mleads = s.mleads := rfl
@[simp] theorem State.setStr_mrecvs (i : Nat) (x : Strm) : (s.setStr i x).mrecvs = s.mrecvs := rfl
@[simp] theorem State.setStr_credits (i : Nat) (x : Strm) : (s.setStr i x).credits = s.credits := rfl
@[simp] theorem State.setStr_ringTail (i : Nat) (x : Strm) : (s.setStr i x).ringTail = s.ringTail := rfl
@[simp] theorem State.setStr_ringHead (i : Nat) (x : Strm) : (s.setStr i x).ringHead = s.ringHead := rfl
@[simp] theorem State.setStr_occupied (i : Nat) (x : Strm) : (s.setStr i x).occupied = s.occupied := rfl
@[simp] theorem State.setStr_tokens (i : Nat) (x : Strm) : (s.setStr i x).tokens = s.tokens := rfl
@[simp] theorem State.setStr_doneFifo (i : Nat) (x : Strm) : (s.setStr i x).doneFifo = s.doneFifo := rfl
@[simp] theorem State.setStr_doneHeld (i : Nat) (x : Strm) : (s.setStr i x).doneHeld = s.doneHeld := rfl
@[simp] theorem State.setStr_keys (i : Nat) (x : Strm) : (s.setStr i x).keys = s.keys := rfl
@[simp] theorem State.setStr_scheds (i : Nat) (x : Strm) : (s.setStr i x).scheds = s.scheds := rfl
@[simp] theorem State.setStr_txns (i : Nat) (x : Strm) : (s.setStr i x).txns = s.txns := rfl
@[simp] theorem State.setStr_mbx (i : Nat) (x : Strm) : (s.setStr i x).mbx = s.mbx := rfl
@[simp] theorem State.setStr_mbxValid (i : Nat) (x : Strm) : (s.setStr i x).mbxValid = s.mbxValid := rfl
@[simp] theorem State.setStr_heldWrites (i : Nat) (x : Strm) : (s.setStr i x).heldWrites = s.heldWrites := rfl
@[simp] theorem State.setStr_levelReq (i : Nat) (x : Strm) : (s.setStr i x).levelReq = s.levelReq := rfl
@[simp] theorem State.setStr_burstIn (i : Nat) (x : Strm) : (s.setStr i x).burstIn = s.burstIn := rfl
@[simp] theorem State.setStr_outbox (i : Nat) (x : Strm) : (s.setStr i x).outbox = s.outbox := rfl
@[simp] theorem State.setStr_sideband (i : Nat) (x : Strm) : (s.setStr i x).sideband = s.sideband := rfl
@[simp] theorem State.setStr_d2dRx (i : Nat) (x : Strm) : (s.setStr i x).d2dRx = s.d2dRx := rfl
@[simp] theorem State.setStr_d2dTx (i : Nat) (x : Strm) : (s.setStr i x).d2dTx = s.d2dTx := rfl
@[simp] theorem State.setStr_d2dRetry (i : Nat) (x : Strm) : (s.setStr i x).d2dRetry = s.d2dRetry := rfl
@[simp] theorem State.setStr_d2dAttempts (i : Nat) (x : Strm) : (s.setStr i x).d2dAttempts = s.d2dAttempts := rfl
@[simp] theorem State.setStr_d2dCredits (i : Nat) (x : Strm) : (s.setStr i x).d2dCredits = s.d2dCredits := rfl
@[simp] theorem State.setStr_d2dPos (i : Nat) (x : Strm) : (s.setStr i x).d2dPos = s.d2dPos := rfl
@[simp] theorem State.setStr_d2dOwed (i : Nat) (x : Strm) : (s.setStr i x).d2dOwed = s.d2dOwed := rfl
@[simp] theorem State.setStr_d2dNak (i : Nat) (x : Strm) : (s.setStr i x).d2dNak = s.d2dNak := rfl
@[simp] theorem State.setStr_d2dLost (i : Nat) (x : Strm) : (s.setStr i x).d2dLost = s.d2dLost := rfl
@[simp] theorem State.setStr_d2dOut (i : Nat) (x : Strm) : (s.setStr i x).d2dOut = s.d2dOut := rfl
@[simp] theorem State.setStr_jtagData (i : Nat) (x : Strm) : (s.setStr i x).jtagData = s.jtagData := rfl
@[simp] theorem State.setStr_links (i : Nat) (x : Strm) : (s.setStr i x).links = s.links := rfl
@[simp] theorem State.setStr_linkIn (i : Nat) (x : Strm) : (s.setStr i x).linkIn = s.linkIn := rfl
@[simp] theorem State.setStr_partials (i : Nat) (x : Strm) : (s.setStr i x).partials = s.partials := rfl
@[simp] theorem State.setStr_linkOut (i : Nat) (x : Strm) : (s.setStr i x).linkOut = s.linkOut := rfl
@[simp] theorem State.setStr_linkMsgId (i : Nat) (x : Strm) : (s.setStr i x).linkMsgId = s.linkMsgId := rfl
@[simp] theorem State.setStr_lpSent (i : Nat) (x : Strm) : (s.setStr i x).lpSent = s.lpSent := rfl
@[simp] theorem State.setStr_linkDown (i : Nat) (x : Strm) : (s.setStr i x).linkDown = s.linkDown := rfl
@[simp] theorem State.setStr_lstateSeq (i : Nat) (x : Strm) : (s.setStr i x).lstateSeq = s.lstateSeq := rfl
@[simp] theorem State.setStr_hoop (i : Nat) (x : Strm) : (s.setStr i x).hoop = s.hoop := rfl
@[simp] theorem State.setStr_mirrors (i : Nat) (x : Strm) : (s.setStr i x).mirrors = s.mirrors := rfl
@[simp] theorem State.setStr_takeovers (i : Nat) (x : Strm) : (s.setStr i x).takeovers = s.takeovers := rfl
@[simp] theorem State.setStr_pwr (i : Nat) (x : Strm) : (s.setStr i x).pwr = s.pwr := rfl
@[simp] theorem State.setStr_pwrFailed (i : Nat) (x : Strm) : (s.setStr i x).pwrFailed = s.pwrFailed := rfl
@[simp] theorem State.setStr_planAt (i : Nat) (x : Strm) : (s.setStr i x).planAt = s.planAt := rfl
@[simp] theorem State.setStr_refLost (i : Nat) (x : Strm) : (s.setStr i x).refLost = s.refLost := rfl
@[simp] theorem State.setStr_railsOut (i : Nat) (x : Strm) : (s.setStr i x).railsOut = s.railsOut := rfl
@[simp] theorem State.setStr_quietUntil (i : Nat) (x : Strm) : (s.setStr i x).quietUntil = s.quietUntil := rfl
@[simp] theorem State.setStr_substs (i : Nat) (x : Strm) : (s.setStr i x).substs = s.substs := rfl
@[simp] theorem State.setStr_switching (i : Nat) (x : Strm) : (s.setStr i x).switching = s.switching := rfl
@[simp] theorem State.setStr_events (i : Nat) (x : Strm) : (s.setStr i x).events = s.events := rfl
@[simp] theorem State.setStr_faultLow (i : Nat) (x : Strm) : (s.setStr i x).faultLow = s.faultLow := rfl
@[simp] theorem State.setStr_wakeLow (i : Nat) (x : Strm) : (s.setStr i x).wakeLow = s.wakeLow := rfl
@[simp] theorem State.setStr_thermLow (i : Nat) (x : Strm) : (s.setStr i x).thermLow = s.thermLow := rfl
@[simp] theorem State.setStr_trace (i : Nat) (x : Strm) : (s.setStr i x).trace = s.trace := rfl
@[simp] theorem State.setStr_fresh (i : Nat) (x : Strm) : (s.setStr i x).fresh = s.fresh := rfl

/-! ## State.setLanes changes vreg -/

@[simp] theorem State.setLanes_pending (n v : Nat) (f : Nat → Option Nat) : (s.setLanes n v f).pending = s.pending := rfl
@[simp] theorem State.setLanes_regs (n v : Nat) (f : Nat → Option Nat) : (s.setLanes n v f).regs = s.regs := rfl
@[simp] theorem State.setLanes_portRegs (n v : Nat) (f : Nat → Option Nat) : (s.setLanes n v f).portRegs = s.portRegs := rfl
@[simp] theorem State.setLanes_rclk (n v : Nat) (f : Nat → Option Nat) : (s.setLanes n v f).rclk = s.rclk := rfl
@[simp] theorem State.setLanes_inReset (n v : Nat) (f : Nat → Option Nat) : (s.setLanes n v f).inReset = s.inReset := rfl
@[simp] theorem State.setLanes_inWarm (n v : Nat) (f : Nat → Option Nat) : (s.setLanes n v f).inWarm = s.inWarm := rfl
@[simp] theorem State.setLanes_tripReset (n v : Nat) (f : Nat → Option Nat) : (s.setLanes n v f).tripReset = s.tripReset := rfl
@[simp] theorem State.setLanes_formed (n v : Nat) (f : Nat → Option Nat) : (s.setLanes n v f).formed = s.formed := rfl
@[simp] theorem State.setLanes_saved (n v : Nat) (f : Nat → Option Nat) : (s.setLanes n v f).saved = s.saved := rfl
@[simp] theorem State.setLanes_savedTable (n v : Nat) (f : Nat → Option Nat) : (s.setLanes n v f).savedTable = s.savedTable := rfl
@[simp] theorem State.setLanes_image (n v : Nat) (f : Nat → Option Nat) : (s.setLanes n v f).image = s.image := rfl
@[simp] theorem State.setLanes_staged (n v : Nat) (f : Nat → Option Nat) : (s.setLanes n v f).staged = s.staged := rfl
@[simp] theorem State.setLanes_sreg (n v : Nat) (f : Nat → Option Nat) : (s.setLanes n v f).sreg = s.sreg := rfl
@[simp] theorem State.setLanes_areg (n v : Nat) (f : Nat → Option Nat) : (s.setLanes n v f).areg = s.areg := rfl
@[simp] theorem State.setLanes_lc (n v : Nat) (f : Nat → Option Nat) : (s.setLanes n v f).lc = s.lc := rfl
@[simp] theorem State.setLanes_ctxs (n v : Nat) (f : Nat → Option Nat) : (s.setLanes n v f).ctxs = s.ctxs := rfl
@[simp] theorem State.setLanes_istores (n v : Nat) (f : Nat → Option Nat) : (s.setLanes n v f).istores = s.istores := rfl
@[simp] theorem State.setLanes_tags (n v : Nat) (f : Nat → Option Nat) : (s.setLanes n v f).tags = s.tags := rfl
@[simp] theorem State.setLanes_heldFlags (n v : Nat) (f : Nat → Option Nat) : (s.setLanes n v f).heldFlags = s.heldFlags := rfl
@[simp] theorem State.setLanes_heldOvr (n v : Nat) (f : Nat → Option Nat) : (s.setLanes n v f).heldOvr = s.heldOvr := rfl
@[simp] theorem State.setLanes_imem (n v : Nat) (f : Nat → Option Nat) : (s.setLanes n v f).imem = s.imem := rfl
@[simp] theorem State.setLanes_fm (n v : Nat) (f : Nat → Option Nat) : (s.setLanes n v f).fm = s.fm := rfl
@[simp] theorem State.setLanes_ob (n v : Nat) (f : Nat → Option Nat) : (s.setLanes n v f).ob = s.ob := rfl
@[simp] theorem State.setLanes_gsb (n v : Nat) (f : Nat → Option Nat) : (s.setLanes n v f).gsb = s.gsb := rfl
@[simp] theorem State.setLanes_gps (n v : Nat) (f : Nat → Option Nat) : (s.setLanes n v f).gps = s.gps := rfl
@[simp] theorem State.setLanes_fns (n v : Nat) (f : Nat → Option Nat) : (s.setLanes n v f).fns = s.fns := rfl
@[simp] theorem State.setLanes_vat (n v : Nat) (f : Nat → Option Nat) : (s.setLanes n v f).vat = s.vat := rfl
@[simp] theorem State.setLanes_hbm (n v : Nat) (f : Nat → Option Nat) : (s.setLanes n v f).hbm = s.hbm := rfl
@[simp] theorem State.setLanes_bad (n v : Nat) (f : Nat → Option Nat) : (s.setLanes n v f).bad = s.bad := rfl
@[simp] theorem State.setLanes_casts (n v : Nat) (f : Nat → Option Nat) : (s.setLanes n v f).casts = s.casts := rfl
@[simp] theorem State.setLanes_vmask (n v : Nat) (f : Nat → Option Nat) : (s.setLanes n v f).vmask = s.vmask := rfl
@[simp] theorem State.setLanes_sf (n v : Nat) (f : Nat → Option Nat) : (s.setLanes n v f).sf = s.sf := rfl
@[simp] theorem State.setLanes_sfKind (n v : Nat) (f : Nat → Option Nat) : (s.setLanes n v f).sfKind = s.sfKind := rfl
@[simp] theorem State.setLanes_am (n v : Nat) (f : Nat → Option Nat) : (s.setLanes n v f).am = s.am := rfl
@[simp] theorem State.setLanes_sa (n v : Nat) (f : Nat → Option Nat) : (s.setLanes n v f).sa = s.sa := rfl
@[simp] theorem State.setLanes_srow (n v : Nat) (f : Nat → Option Nat) : (s.setLanes n v f).srow = s.srow := rfl
@[simp] theorem State.setLanes_saTag (n v : Nat) (f : Nat → Option Nat) : (s.setLanes n v f).saTag = s.saTag := rfl
@[simp] theorem State.setLanes_arr (n v : Nat) (f : Nat → Option Nat) : (s.setLanes n v f).arr = s.arr := rfl
@[simp] theorem State.setLanes_accf (n v : Nat) (f : Nat → Option Nat) : (s.setLanes n v f).accf = s.accf := rfl
@[simp] theorem State.setLanes_latchEl (n v : Nat) (f : Nat → Option Nat) : (s.setLanes n v f).latchEl = s.latchEl := rfl
@[simp] theorem State.setLanes_latchSc (n v : Nat) (f : Nat → Option Nat) : (s.setLanes n v f).latchSc = s.latchSc := rfl
@[simp] theorem State.setLanes_latchFmt (n v : Nat) (f : Nat → Option Nat) : (s.setLanes n v f).latchFmt = s.latchFmt := rfl
@[simp] theorem State.setLanes_jobs (n v : Nat) (f : Nat → Option Nat) : (s.setLanes n v f).jobs = s.jobs := rfl
@[simp] theorem State.setLanes_gateQ (n v : Nat) (f : Nat → Option Nat) : (s.setLanes n v f).gateQ = s.gateQ := rfl
@[simp] theorem State.setLanes_gatePend (n v : Nat) (f : Nat → Option Nat) : (s.setLanes n v f).gatePend = s.gatePend := rfl
@[simp] theorem State.setLanes_carryf (n v : Nat) (f : Nat → Option Nat) : (s.setLanes n v f).carryf = s.carryf := rfl
@[simp] theorem State.setLanes_sew (n v : Nat) (f : Nat → Option Nat) : (s.setLanes n v f).sew = s.sew := rfl
@[simp] theorem State.setLanes_inbox (n v : Nat) (f : Nat → Option Nat) : (s.setLanes n v f).inbox = s.inbox := rfl
@[simp] theorem State.setLanes_carries (n v : Nat) (f : Nat → Option Nat) : (s.setLanes n v f).carries = s.carries := rfl
@[simp] theorem State.setLanes_carrySent (n v : Nat) (f : Nat → Option Nat) : (s.setLanes n v f).carrySent = s.carrySent := rfl
@[simp] theorem State.setLanes_gens (n v : Nat) (f : Nat → Option Nat) : (s.setLanes n v f).gens = s.gens := rfl
@[simp] theorem State.setLanes_slots (n v : Nat) (f : Nat → Option Nat) : (s.setLanes n v f).slots = s.slots := rfl
@[simp] theorem State.setLanes_contribs (n v : Nat) (f : Nat → Option Nat) : (s.setLanes n v f).contribs = s.contribs := rfl
@[simp] theorem State.setLanes_plane (n v : Nat) (f : Nat → Option Nat) : (s.setLanes n v f).plane = s.plane := rfl
@[simp] theorem State.setLanes_remote (n v : Nat) (f : Nat → Option Nat) : (s.setLanes n v f).remote = s.remote := rfl
@[simp] theorem State.setLanes_movers (n v : Nat) (f : Nat → Option Nat) : (s.setLanes n v f).movers = s.movers := rfl
@[simp] theorem State.setLanes_moveId (n v : Nat) (f : Nat → Option Nat) : (s.setLanes n v f).moveId = s.moveId := rfl
@[simp] theorem State.setLanes_turns (n v : Nat) (f : Nat → Option Nat) : (s.setLanes n v f).turns = s.turns := rfl
@[simp] theorem State.setLanes_pcQueue (n v : Nat) (f : Nat → Option Nat) : (s.setLanes n v f).pcQueue = s.pcQueue := rfl
@[simp] theorem State.setLanes_fetch (n v : Nat) (f : Nat → Option Nat) : (s.setLanes n v f).fetch = s.fetch := rfl
@[simp] theorem State.setLanes_mleads (n v : Nat) (f : Nat → Option Nat) : (s.setLanes n v f).mleads = s.mleads := rfl
@[simp] theorem State.setLanes_mrecvs (n v : Nat) (f : Nat → Option Nat) : (s.setLanes n v f).mrecvs = s.mrecvs := rfl
@[simp] theorem State.setLanes_credits (n v : Nat) (f : Nat → Option Nat) : (s.setLanes n v f).credits = s.credits := rfl
@[simp] theorem State.setLanes_ringTail (n v : Nat) (f : Nat → Option Nat) : (s.setLanes n v f).ringTail = s.ringTail := rfl
@[simp] theorem State.setLanes_ringHead (n v : Nat) (f : Nat → Option Nat) : (s.setLanes n v f).ringHead = s.ringHead := rfl
@[simp] theorem State.setLanes_occupied (n v : Nat) (f : Nat → Option Nat) : (s.setLanes n v f).occupied = s.occupied := rfl
@[simp] theorem State.setLanes_strm (n v : Nat) (f : Nat → Option Nat) : (s.setLanes n v f).strm = s.strm := rfl
@[simp] theorem State.setLanes_tokens (n v : Nat) (f : Nat → Option Nat) : (s.setLanes n v f).tokens = s.tokens := rfl
@[simp] theorem State.setLanes_doneFifo (n v : Nat) (f : Nat → Option Nat) : (s.setLanes n v f).doneFifo = s.doneFifo := rfl
@[simp] theorem State.setLanes_doneHeld (n v : Nat) (f : Nat → Option Nat) : (s.setLanes n v f).doneHeld = s.doneHeld := rfl
@[simp] theorem State.setLanes_keys (n v : Nat) (f : Nat → Option Nat) : (s.setLanes n v f).keys = s.keys := rfl
@[simp] theorem State.setLanes_scheds (n v : Nat) (f : Nat → Option Nat) : (s.setLanes n v f).scheds = s.scheds := rfl
@[simp] theorem State.setLanes_txns (n v : Nat) (f : Nat → Option Nat) : (s.setLanes n v f).txns = s.txns := rfl
@[simp] theorem State.setLanes_mbx (n v : Nat) (f : Nat → Option Nat) : (s.setLanes n v f).mbx = s.mbx := rfl
@[simp] theorem State.setLanes_mbxValid (n v : Nat) (f : Nat → Option Nat) : (s.setLanes n v f).mbxValid = s.mbxValid := rfl
@[simp] theorem State.setLanes_heldWrites (n v : Nat) (f : Nat → Option Nat) : (s.setLanes n v f).heldWrites = s.heldWrites := rfl
@[simp] theorem State.setLanes_levelReq (n v : Nat) (f : Nat → Option Nat) : (s.setLanes n v f).levelReq = s.levelReq := rfl
@[simp] theorem State.setLanes_burstIn (n v : Nat) (f : Nat → Option Nat) : (s.setLanes n v f).burstIn = s.burstIn := rfl
@[simp] theorem State.setLanes_outbox (n v : Nat) (f : Nat → Option Nat) : (s.setLanes n v f).outbox = s.outbox := rfl
@[simp] theorem State.setLanes_sideband (n v : Nat) (f : Nat → Option Nat) : (s.setLanes n v f).sideband = s.sideband := rfl
@[simp] theorem State.setLanes_d2dRx (n v : Nat) (f : Nat → Option Nat) : (s.setLanes n v f).d2dRx = s.d2dRx := rfl
@[simp] theorem State.setLanes_d2dTx (n v : Nat) (f : Nat → Option Nat) : (s.setLanes n v f).d2dTx = s.d2dTx := rfl
@[simp] theorem State.setLanes_d2dRetry (n v : Nat) (f : Nat → Option Nat) : (s.setLanes n v f).d2dRetry = s.d2dRetry := rfl
@[simp] theorem State.setLanes_d2dAttempts (n v : Nat) (f : Nat → Option Nat) : (s.setLanes n v f).d2dAttempts = s.d2dAttempts := rfl
@[simp] theorem State.setLanes_d2dCredits (n v : Nat) (f : Nat → Option Nat) : (s.setLanes n v f).d2dCredits = s.d2dCredits := rfl
@[simp] theorem State.setLanes_d2dPos (n v : Nat) (f : Nat → Option Nat) : (s.setLanes n v f).d2dPos = s.d2dPos := rfl
@[simp] theorem State.setLanes_d2dOwed (n v : Nat) (f : Nat → Option Nat) : (s.setLanes n v f).d2dOwed = s.d2dOwed := rfl
@[simp] theorem State.setLanes_d2dNak (n v : Nat) (f : Nat → Option Nat) : (s.setLanes n v f).d2dNak = s.d2dNak := rfl
@[simp] theorem State.setLanes_d2dLost (n v : Nat) (f : Nat → Option Nat) : (s.setLanes n v f).d2dLost = s.d2dLost := rfl
@[simp] theorem State.setLanes_d2dOut (n v : Nat) (f : Nat → Option Nat) : (s.setLanes n v f).d2dOut = s.d2dOut := rfl
@[simp] theorem State.setLanes_jtagData (n v : Nat) (f : Nat → Option Nat) : (s.setLanes n v f).jtagData = s.jtagData := rfl
@[simp] theorem State.setLanes_links (n v : Nat) (f : Nat → Option Nat) : (s.setLanes n v f).links = s.links := rfl
@[simp] theorem State.setLanes_linkIn (n v : Nat) (f : Nat → Option Nat) : (s.setLanes n v f).linkIn = s.linkIn := rfl
@[simp] theorem State.setLanes_partials (n v : Nat) (f : Nat → Option Nat) : (s.setLanes n v f).partials = s.partials := rfl
@[simp] theorem State.setLanes_linkOut (n v : Nat) (f : Nat → Option Nat) : (s.setLanes n v f).linkOut = s.linkOut := rfl
@[simp] theorem State.setLanes_linkMsgId (n v : Nat) (f : Nat → Option Nat) : (s.setLanes n v f).linkMsgId = s.linkMsgId := rfl
@[simp] theorem State.setLanes_lpSent (n v : Nat) (f : Nat → Option Nat) : (s.setLanes n v f).lpSent = s.lpSent := rfl
@[simp] theorem State.setLanes_linkDown (n v : Nat) (f : Nat → Option Nat) : (s.setLanes n v f).linkDown = s.linkDown := rfl
@[simp] theorem State.setLanes_lstateSeq (n v : Nat) (f : Nat → Option Nat) : (s.setLanes n v f).lstateSeq = s.lstateSeq := rfl
@[simp] theorem State.setLanes_hoop (n v : Nat) (f : Nat → Option Nat) : (s.setLanes n v f).hoop = s.hoop := rfl
@[simp] theorem State.setLanes_mirrors (n v : Nat) (f : Nat → Option Nat) : (s.setLanes n v f).mirrors = s.mirrors := rfl
@[simp] theorem State.setLanes_takeovers (n v : Nat) (f : Nat → Option Nat) : (s.setLanes n v f).takeovers = s.takeovers := rfl
@[simp] theorem State.setLanes_pwr (n v : Nat) (f : Nat → Option Nat) : (s.setLanes n v f).pwr = s.pwr := rfl
@[simp] theorem State.setLanes_pwrFailed (n v : Nat) (f : Nat → Option Nat) : (s.setLanes n v f).pwrFailed = s.pwrFailed := rfl
@[simp] theorem State.setLanes_planAt (n v : Nat) (f : Nat → Option Nat) : (s.setLanes n v f).planAt = s.planAt := rfl
@[simp] theorem State.setLanes_refLost (n v : Nat) (f : Nat → Option Nat) : (s.setLanes n v f).refLost = s.refLost := rfl
@[simp] theorem State.setLanes_railsOut (n v : Nat) (f : Nat → Option Nat) : (s.setLanes n v f).railsOut = s.railsOut := rfl
@[simp] theorem State.setLanes_quietUntil (n v : Nat) (f : Nat → Option Nat) : (s.setLanes n v f).quietUntil = s.quietUntil := rfl
@[simp] theorem State.setLanes_substs (n v : Nat) (f : Nat → Option Nat) : (s.setLanes n v f).substs = s.substs := rfl
@[simp] theorem State.setLanes_switching (n v : Nat) (f : Nat → Option Nat) : (s.setLanes n v f).switching = s.switching := rfl
@[simp] theorem State.setLanes_events (n v : Nat) (f : Nat → Option Nat) : (s.setLanes n v f).events = s.events := rfl
@[simp] theorem State.setLanes_faultLow (n v : Nat) (f : Nat → Option Nat) : (s.setLanes n v f).faultLow = s.faultLow := rfl
@[simp] theorem State.setLanes_wakeLow (n v : Nat) (f : Nat → Option Nat) : (s.setLanes n v f).wakeLow = s.wakeLow := rfl
@[simp] theorem State.setLanes_thermLow (n v : Nat) (f : Nat → Option Nat) : (s.setLanes n v f).thermLow = s.thermLow := rfl
@[simp] theorem State.setLanes_trace (n v : Nat) (f : Nat → Option Nat) : (s.setLanes n v f).trace = s.trace := rfl
@[simp] theorem State.setLanes_fresh (n v : Nat) (f : Nat → Option Nat) : (s.setLanes n v f).fresh = s.fresh := rfl

/-! ## State.fmWrite changes fm and bad -/

@[simp] theorem State.fmWrite_pending (n c r : Nat) (bs : List Byte) : (s.fmWrite n c r bs).pending = s.pending := rfl
@[simp] theorem State.fmWrite_regs (n c r : Nat) (bs : List Byte) : (s.fmWrite n c r bs).regs = s.regs := rfl
@[simp] theorem State.fmWrite_portRegs (n c r : Nat) (bs : List Byte) : (s.fmWrite n c r bs).portRegs = s.portRegs := rfl
@[simp] theorem State.fmWrite_rclk (n c r : Nat) (bs : List Byte) : (s.fmWrite n c r bs).rclk = s.rclk := rfl
@[simp] theorem State.fmWrite_inReset (n c r : Nat) (bs : List Byte) : (s.fmWrite n c r bs).inReset = s.inReset := rfl
@[simp] theorem State.fmWrite_inWarm (n c r : Nat) (bs : List Byte) : (s.fmWrite n c r bs).inWarm = s.inWarm := rfl
@[simp] theorem State.fmWrite_tripReset (n c r : Nat) (bs : List Byte) : (s.fmWrite n c r bs).tripReset = s.tripReset := rfl
@[simp] theorem State.fmWrite_formed (n c r : Nat) (bs : List Byte) : (s.fmWrite n c r bs).formed = s.formed := rfl
@[simp] theorem State.fmWrite_saved (n c r : Nat) (bs : List Byte) : (s.fmWrite n c r bs).saved = s.saved := rfl
@[simp] theorem State.fmWrite_savedTable (n c r : Nat) (bs : List Byte) : (s.fmWrite n c r bs).savedTable = s.savedTable := rfl
@[simp] theorem State.fmWrite_image (n c r : Nat) (bs : List Byte) : (s.fmWrite n c r bs).image = s.image := rfl
@[simp] theorem State.fmWrite_staged (n c r : Nat) (bs : List Byte) : (s.fmWrite n c r bs).staged = s.staged := rfl
@[simp] theorem State.fmWrite_sreg (n c r : Nat) (bs : List Byte) : (s.fmWrite n c r bs).sreg = s.sreg := rfl
@[simp] theorem State.fmWrite_areg (n c r : Nat) (bs : List Byte) : (s.fmWrite n c r bs).areg = s.areg := rfl
@[simp] theorem State.fmWrite_lc (n c r : Nat) (bs : List Byte) : (s.fmWrite n c r bs).lc = s.lc := rfl
@[simp] theorem State.fmWrite_ctxs (n c r : Nat) (bs : List Byte) : (s.fmWrite n c r bs).ctxs = s.ctxs := rfl
@[simp] theorem State.fmWrite_istores (n c r : Nat) (bs : List Byte) : (s.fmWrite n c r bs).istores = s.istores := rfl
@[simp] theorem State.fmWrite_tags (n c r : Nat) (bs : List Byte) : (s.fmWrite n c r bs).tags = s.tags := rfl
@[simp] theorem State.fmWrite_heldFlags (n c r : Nat) (bs : List Byte) : (s.fmWrite n c r bs).heldFlags = s.heldFlags := rfl
@[simp] theorem State.fmWrite_heldOvr (n c r : Nat) (bs : List Byte) : (s.fmWrite n c r bs).heldOvr = s.heldOvr := rfl
@[simp] theorem State.fmWrite_imem (n c r : Nat) (bs : List Byte) : (s.fmWrite n c r bs).imem = s.imem := rfl
@[simp] theorem State.fmWrite_ob (n c r : Nat) (bs : List Byte) : (s.fmWrite n c r bs).ob = s.ob := rfl
@[simp] theorem State.fmWrite_gsb (n c r : Nat) (bs : List Byte) : (s.fmWrite n c r bs).gsb = s.gsb := rfl
@[simp] theorem State.fmWrite_gps (n c r : Nat) (bs : List Byte) : (s.fmWrite n c r bs).gps = s.gps := rfl
@[simp] theorem State.fmWrite_fns (n c r : Nat) (bs : List Byte) : (s.fmWrite n c r bs).fns = s.fns := rfl
@[simp] theorem State.fmWrite_vat (n c r : Nat) (bs : List Byte) : (s.fmWrite n c r bs).vat = s.vat := rfl
@[simp] theorem State.fmWrite_hbm (n c r : Nat) (bs : List Byte) : (s.fmWrite n c r bs).hbm = s.hbm := rfl
@[simp] theorem State.fmWrite_casts (n c r : Nat) (bs : List Byte) : (s.fmWrite n c r bs).casts = s.casts := rfl
@[simp] theorem State.fmWrite_vreg (n c r : Nat) (bs : List Byte) : (s.fmWrite n c r bs).vreg = s.vreg := rfl
@[simp] theorem State.fmWrite_vmask (n c r : Nat) (bs : List Byte) : (s.fmWrite n c r bs).vmask = s.vmask := rfl
@[simp] theorem State.fmWrite_sf (n c r : Nat) (bs : List Byte) : (s.fmWrite n c r bs).sf = s.sf := rfl
@[simp] theorem State.fmWrite_sfKind (n c r : Nat) (bs : List Byte) : (s.fmWrite n c r bs).sfKind = s.sfKind := rfl
@[simp] theorem State.fmWrite_am (n c r : Nat) (bs : List Byte) : (s.fmWrite n c r bs).am = s.am := rfl
@[simp] theorem State.fmWrite_sa (n c r : Nat) (bs : List Byte) : (s.fmWrite n c r bs).sa = s.sa := rfl
@[simp] theorem State.fmWrite_srow (n c r : Nat) (bs : List Byte) : (s.fmWrite n c r bs).srow = s.srow := rfl
@[simp] theorem State.fmWrite_saTag (n c r : Nat) (bs : List Byte) : (s.fmWrite n c r bs).saTag = s.saTag := rfl
@[simp] theorem State.fmWrite_arr (n c r : Nat) (bs : List Byte) : (s.fmWrite n c r bs).arr = s.arr := rfl
@[simp] theorem State.fmWrite_accf (n c r : Nat) (bs : List Byte) : (s.fmWrite n c r bs).accf = s.accf := rfl
@[simp] theorem State.fmWrite_latchEl (n c r : Nat) (bs : List Byte) : (s.fmWrite n c r bs).latchEl = s.latchEl := rfl
@[simp] theorem State.fmWrite_latchSc (n c r : Nat) (bs : List Byte) : (s.fmWrite n c r bs).latchSc = s.latchSc := rfl
@[simp] theorem State.fmWrite_latchFmt (n c r : Nat) (bs : List Byte) : (s.fmWrite n c r bs).latchFmt = s.latchFmt := rfl
@[simp] theorem State.fmWrite_jobs (n c r : Nat) (bs : List Byte) : (s.fmWrite n c r bs).jobs = s.jobs := rfl
@[simp] theorem State.fmWrite_gateQ (n c r : Nat) (bs : List Byte) : (s.fmWrite n c r bs).gateQ = s.gateQ := rfl
@[simp] theorem State.fmWrite_gatePend (n c r : Nat) (bs : List Byte) : (s.fmWrite n c r bs).gatePend = s.gatePend := rfl
@[simp] theorem State.fmWrite_carryf (n c r : Nat) (bs : List Byte) : (s.fmWrite n c r bs).carryf = s.carryf := rfl
@[simp] theorem State.fmWrite_sew (n c r : Nat) (bs : List Byte) : (s.fmWrite n c r bs).sew = s.sew := rfl
@[simp] theorem State.fmWrite_inbox (n c r : Nat) (bs : List Byte) : (s.fmWrite n c r bs).inbox = s.inbox := rfl
@[simp] theorem State.fmWrite_carries (n c r : Nat) (bs : List Byte) : (s.fmWrite n c r bs).carries = s.carries := rfl
@[simp] theorem State.fmWrite_carrySent (n c r : Nat) (bs : List Byte) : (s.fmWrite n c r bs).carrySent = s.carrySent := rfl
@[simp] theorem State.fmWrite_gens (n c r : Nat) (bs : List Byte) : (s.fmWrite n c r bs).gens = s.gens := rfl
@[simp] theorem State.fmWrite_slots (n c r : Nat) (bs : List Byte) : (s.fmWrite n c r bs).slots = s.slots := rfl
@[simp] theorem State.fmWrite_contribs (n c r : Nat) (bs : List Byte) : (s.fmWrite n c r bs).contribs = s.contribs := rfl
@[simp] theorem State.fmWrite_plane (n c r : Nat) (bs : List Byte) : (s.fmWrite n c r bs).plane = s.plane := rfl
@[simp] theorem State.fmWrite_remote (n c r : Nat) (bs : List Byte) : (s.fmWrite n c r bs).remote = s.remote := rfl
@[simp] theorem State.fmWrite_movers (n c r : Nat) (bs : List Byte) : (s.fmWrite n c r bs).movers = s.movers := rfl
@[simp] theorem State.fmWrite_moveId (n c r : Nat) (bs : List Byte) : (s.fmWrite n c r bs).moveId = s.moveId := rfl
@[simp] theorem State.fmWrite_turns (n c r : Nat) (bs : List Byte) : (s.fmWrite n c r bs).turns = s.turns := rfl
@[simp] theorem State.fmWrite_pcQueue (n c r : Nat) (bs : List Byte) : (s.fmWrite n c r bs).pcQueue = s.pcQueue := rfl
@[simp] theorem State.fmWrite_fetch (n c r : Nat) (bs : List Byte) : (s.fmWrite n c r bs).fetch = s.fetch := rfl
@[simp] theorem State.fmWrite_mleads (n c r : Nat) (bs : List Byte) : (s.fmWrite n c r bs).mleads = s.mleads := rfl
@[simp] theorem State.fmWrite_mrecvs (n c r : Nat) (bs : List Byte) : (s.fmWrite n c r bs).mrecvs = s.mrecvs := rfl
@[simp] theorem State.fmWrite_credits (n c r : Nat) (bs : List Byte) : (s.fmWrite n c r bs).credits = s.credits := rfl
@[simp] theorem State.fmWrite_ringTail (n c r : Nat) (bs : List Byte) : (s.fmWrite n c r bs).ringTail = s.ringTail := rfl
@[simp] theorem State.fmWrite_ringHead (n c r : Nat) (bs : List Byte) : (s.fmWrite n c r bs).ringHead = s.ringHead := rfl
@[simp] theorem State.fmWrite_occupied (n c r : Nat) (bs : List Byte) : (s.fmWrite n c r bs).occupied = s.occupied := rfl
@[simp] theorem State.fmWrite_strm (n c r : Nat) (bs : List Byte) : (s.fmWrite n c r bs).strm = s.strm := rfl
@[simp] theorem State.fmWrite_tokens (n c r : Nat) (bs : List Byte) : (s.fmWrite n c r bs).tokens = s.tokens := rfl
@[simp] theorem State.fmWrite_doneFifo (n c r : Nat) (bs : List Byte) : (s.fmWrite n c r bs).doneFifo = s.doneFifo := rfl
@[simp] theorem State.fmWrite_doneHeld (n c r : Nat) (bs : List Byte) : (s.fmWrite n c r bs).doneHeld = s.doneHeld := rfl
@[simp] theorem State.fmWrite_keys (n c r : Nat) (bs : List Byte) : (s.fmWrite n c r bs).keys = s.keys := rfl
@[simp] theorem State.fmWrite_scheds (n c r : Nat) (bs : List Byte) : (s.fmWrite n c r bs).scheds = s.scheds := rfl
@[simp] theorem State.fmWrite_txns (n c r : Nat) (bs : List Byte) : (s.fmWrite n c r bs).txns = s.txns := rfl
@[simp] theorem State.fmWrite_mbx (n c r : Nat) (bs : List Byte) : (s.fmWrite n c r bs).mbx = s.mbx := rfl
@[simp] theorem State.fmWrite_mbxValid (n c r : Nat) (bs : List Byte) : (s.fmWrite n c r bs).mbxValid = s.mbxValid := rfl
@[simp] theorem State.fmWrite_heldWrites (n c r : Nat) (bs : List Byte) : (s.fmWrite n c r bs).heldWrites = s.heldWrites := rfl
@[simp] theorem State.fmWrite_levelReq (n c r : Nat) (bs : List Byte) : (s.fmWrite n c r bs).levelReq = s.levelReq := rfl
@[simp] theorem State.fmWrite_burstIn (n c r : Nat) (bs : List Byte) : (s.fmWrite n c r bs).burstIn = s.burstIn := rfl
@[simp] theorem State.fmWrite_outbox (n c r : Nat) (bs : List Byte) : (s.fmWrite n c r bs).outbox = s.outbox := rfl
@[simp] theorem State.fmWrite_sideband (n c r : Nat) (bs : List Byte) : (s.fmWrite n c r bs).sideband = s.sideband := rfl
@[simp] theorem State.fmWrite_d2dRx (n c r : Nat) (bs : List Byte) : (s.fmWrite n c r bs).d2dRx = s.d2dRx := rfl
@[simp] theorem State.fmWrite_d2dTx (n c r : Nat) (bs : List Byte) : (s.fmWrite n c r bs).d2dTx = s.d2dTx := rfl
@[simp] theorem State.fmWrite_d2dRetry (n c r : Nat) (bs : List Byte) : (s.fmWrite n c r bs).d2dRetry = s.d2dRetry := rfl
@[simp] theorem State.fmWrite_d2dAttempts (n c r : Nat) (bs : List Byte) : (s.fmWrite n c r bs).d2dAttempts = s.d2dAttempts := rfl
@[simp] theorem State.fmWrite_d2dCredits (n c r : Nat) (bs : List Byte) : (s.fmWrite n c r bs).d2dCredits = s.d2dCredits := rfl
@[simp] theorem State.fmWrite_d2dPos (n c r : Nat) (bs : List Byte) : (s.fmWrite n c r bs).d2dPos = s.d2dPos := rfl
@[simp] theorem State.fmWrite_d2dOwed (n c r : Nat) (bs : List Byte) : (s.fmWrite n c r bs).d2dOwed = s.d2dOwed := rfl
@[simp] theorem State.fmWrite_d2dNak (n c r : Nat) (bs : List Byte) : (s.fmWrite n c r bs).d2dNak = s.d2dNak := rfl
@[simp] theorem State.fmWrite_d2dLost (n c r : Nat) (bs : List Byte) : (s.fmWrite n c r bs).d2dLost = s.d2dLost := rfl
@[simp] theorem State.fmWrite_d2dOut (n c r : Nat) (bs : List Byte) : (s.fmWrite n c r bs).d2dOut = s.d2dOut := rfl
@[simp] theorem State.fmWrite_jtagData (n c r : Nat) (bs : List Byte) : (s.fmWrite n c r bs).jtagData = s.jtagData := rfl
@[simp] theorem State.fmWrite_links (n c r : Nat) (bs : List Byte) : (s.fmWrite n c r bs).links = s.links := rfl
@[simp] theorem State.fmWrite_linkIn (n c r : Nat) (bs : List Byte) : (s.fmWrite n c r bs).linkIn = s.linkIn := rfl
@[simp] theorem State.fmWrite_partials (n c r : Nat) (bs : List Byte) : (s.fmWrite n c r bs).partials = s.partials := rfl
@[simp] theorem State.fmWrite_linkOut (n c r : Nat) (bs : List Byte) : (s.fmWrite n c r bs).linkOut = s.linkOut := rfl
@[simp] theorem State.fmWrite_linkMsgId (n c r : Nat) (bs : List Byte) : (s.fmWrite n c r bs).linkMsgId = s.linkMsgId := rfl
@[simp] theorem State.fmWrite_lpSent (n c r : Nat) (bs : List Byte) : (s.fmWrite n c r bs).lpSent = s.lpSent := rfl
@[simp] theorem State.fmWrite_linkDown (n c r : Nat) (bs : List Byte) : (s.fmWrite n c r bs).linkDown = s.linkDown := rfl
@[simp] theorem State.fmWrite_lstateSeq (n c r : Nat) (bs : List Byte) : (s.fmWrite n c r bs).lstateSeq = s.lstateSeq := rfl
@[simp] theorem State.fmWrite_hoop (n c r : Nat) (bs : List Byte) : (s.fmWrite n c r bs).hoop = s.hoop := rfl
@[simp] theorem State.fmWrite_mirrors (n c r : Nat) (bs : List Byte) : (s.fmWrite n c r bs).mirrors = s.mirrors := rfl
@[simp] theorem State.fmWrite_takeovers (n c r : Nat) (bs : List Byte) : (s.fmWrite n c r bs).takeovers = s.takeovers := rfl
@[simp] theorem State.fmWrite_pwr (n c r : Nat) (bs : List Byte) : (s.fmWrite n c r bs).pwr = s.pwr := rfl
@[simp] theorem State.fmWrite_pwrFailed (n c r : Nat) (bs : List Byte) : (s.fmWrite n c r bs).pwrFailed = s.pwrFailed := rfl
@[simp] theorem State.fmWrite_planAt (n c r : Nat) (bs : List Byte) : (s.fmWrite n c r bs).planAt = s.planAt := rfl
@[simp] theorem State.fmWrite_refLost (n c r : Nat) (bs : List Byte) : (s.fmWrite n c r bs).refLost = s.refLost := rfl
@[simp] theorem State.fmWrite_railsOut (n c r : Nat) (bs : List Byte) : (s.fmWrite n c r bs).railsOut = s.railsOut := rfl
@[simp] theorem State.fmWrite_quietUntil (n c r : Nat) (bs : List Byte) : (s.fmWrite n c r bs).quietUntil = s.quietUntil := rfl
@[simp] theorem State.fmWrite_substs (n c r : Nat) (bs : List Byte) : (s.fmWrite n c r bs).substs = s.substs := rfl
@[simp] theorem State.fmWrite_switching (n c r : Nat) (bs : List Byte) : (s.fmWrite n c r bs).switching = s.switching := rfl
@[simp] theorem State.fmWrite_events (n c r : Nat) (bs : List Byte) : (s.fmWrite n c r bs).events = s.events := rfl
@[simp] theorem State.fmWrite_faultLow (n c r : Nat) (bs : List Byte) : (s.fmWrite n c r bs).faultLow = s.faultLow := rfl
@[simp] theorem State.fmWrite_wakeLow (n c r : Nat) (bs : List Byte) : (s.fmWrite n c r bs).wakeLow = s.wakeLow := rfl
@[simp] theorem State.fmWrite_thermLow (n c r : Nat) (bs : List Byte) : (s.fmWrite n c r bs).thermLow = s.thermLow := rfl
@[simp] theorem State.fmWrite_trace (n c r : Nat) (bs : List Byte) : (s.fmWrite n c r bs).trace = s.trace := rfl
@[simp] theorem State.fmWrite_fresh (n c r : Nat) (bs : List Byte) : (s.fmWrite n c r bs).fresh = s.fresh := rfl

/-! ## State.fmStore changes fm and bad -/

@[simp] theorem State.fmStore_pending (n c r len v : Nat) : (s.fmStore n c r len v).pending = s.pending := rfl
@[simp] theorem State.fmStore_regs (n c r len v : Nat) : (s.fmStore n c r len v).regs = s.regs := rfl
@[simp] theorem State.fmStore_portRegs (n c r len v : Nat) : (s.fmStore n c r len v).portRegs = s.portRegs := rfl
@[simp] theorem State.fmStore_rclk (n c r len v : Nat) : (s.fmStore n c r len v).rclk = s.rclk := rfl
@[simp] theorem State.fmStore_inReset (n c r len v : Nat) : (s.fmStore n c r len v).inReset = s.inReset := rfl
@[simp] theorem State.fmStore_inWarm (n c r len v : Nat) : (s.fmStore n c r len v).inWarm = s.inWarm := rfl
@[simp] theorem State.fmStore_tripReset (n c r len v : Nat) : (s.fmStore n c r len v).tripReset = s.tripReset := rfl
@[simp] theorem State.fmStore_formed (n c r len v : Nat) : (s.fmStore n c r len v).formed = s.formed := rfl
@[simp] theorem State.fmStore_saved (n c r len v : Nat) : (s.fmStore n c r len v).saved = s.saved := rfl
@[simp] theorem State.fmStore_savedTable (n c r len v : Nat) : (s.fmStore n c r len v).savedTable = s.savedTable := rfl
@[simp] theorem State.fmStore_image (n c r len v : Nat) : (s.fmStore n c r len v).image = s.image := rfl
@[simp] theorem State.fmStore_staged (n c r len v : Nat) : (s.fmStore n c r len v).staged = s.staged := rfl
@[simp] theorem State.fmStore_sreg (n c r len v : Nat) : (s.fmStore n c r len v).sreg = s.sreg := rfl
@[simp] theorem State.fmStore_areg (n c r len v : Nat) : (s.fmStore n c r len v).areg = s.areg := rfl
@[simp] theorem State.fmStore_lc (n c r len v : Nat) : (s.fmStore n c r len v).lc = s.lc := rfl
@[simp] theorem State.fmStore_ctxs (n c r len v : Nat) : (s.fmStore n c r len v).ctxs = s.ctxs := rfl
@[simp] theorem State.fmStore_istores (n c r len v : Nat) : (s.fmStore n c r len v).istores = s.istores := rfl
@[simp] theorem State.fmStore_tags (n c r len v : Nat) : (s.fmStore n c r len v).tags = s.tags := rfl
@[simp] theorem State.fmStore_heldFlags (n c r len v : Nat) : (s.fmStore n c r len v).heldFlags = s.heldFlags := rfl
@[simp] theorem State.fmStore_heldOvr (n c r len v : Nat) : (s.fmStore n c r len v).heldOvr = s.heldOvr := rfl
@[simp] theorem State.fmStore_imem (n c r len v : Nat) : (s.fmStore n c r len v).imem = s.imem := rfl
@[simp] theorem State.fmStore_ob (n c r len v : Nat) : (s.fmStore n c r len v).ob = s.ob := rfl
@[simp] theorem State.fmStore_gsb (n c r len v : Nat) : (s.fmStore n c r len v).gsb = s.gsb := rfl
@[simp] theorem State.fmStore_gps (n c r len v : Nat) : (s.fmStore n c r len v).gps = s.gps := rfl
@[simp] theorem State.fmStore_fns (n c r len v : Nat) : (s.fmStore n c r len v).fns = s.fns := rfl
@[simp] theorem State.fmStore_vat (n c r len v : Nat) : (s.fmStore n c r len v).vat = s.vat := rfl
@[simp] theorem State.fmStore_hbm (n c r len v : Nat) : (s.fmStore n c r len v).hbm = s.hbm := rfl
@[simp] theorem State.fmStore_casts (n c r len v : Nat) : (s.fmStore n c r len v).casts = s.casts := rfl
@[simp] theorem State.fmStore_vreg (n c r len v : Nat) : (s.fmStore n c r len v).vreg = s.vreg := rfl
@[simp] theorem State.fmStore_vmask (n c r len v : Nat) : (s.fmStore n c r len v).vmask = s.vmask := rfl
@[simp] theorem State.fmStore_sf (n c r len v : Nat) : (s.fmStore n c r len v).sf = s.sf := rfl
@[simp] theorem State.fmStore_sfKind (n c r len v : Nat) : (s.fmStore n c r len v).sfKind = s.sfKind := rfl
@[simp] theorem State.fmStore_am (n c r len v : Nat) : (s.fmStore n c r len v).am = s.am := rfl
@[simp] theorem State.fmStore_sa (n c r len v : Nat) : (s.fmStore n c r len v).sa = s.sa := rfl
@[simp] theorem State.fmStore_srow (n c r len v : Nat) : (s.fmStore n c r len v).srow = s.srow := rfl
@[simp] theorem State.fmStore_saTag (n c r len v : Nat) : (s.fmStore n c r len v).saTag = s.saTag := rfl
@[simp] theorem State.fmStore_arr (n c r len v : Nat) : (s.fmStore n c r len v).arr = s.arr := rfl
@[simp] theorem State.fmStore_accf (n c r len v : Nat) : (s.fmStore n c r len v).accf = s.accf := rfl
@[simp] theorem State.fmStore_latchEl (n c r len v : Nat) : (s.fmStore n c r len v).latchEl = s.latchEl := rfl
@[simp] theorem State.fmStore_latchSc (n c r len v : Nat) : (s.fmStore n c r len v).latchSc = s.latchSc := rfl
@[simp] theorem State.fmStore_latchFmt (n c r len v : Nat) : (s.fmStore n c r len v).latchFmt = s.latchFmt := rfl
@[simp] theorem State.fmStore_jobs (n c r len v : Nat) : (s.fmStore n c r len v).jobs = s.jobs := rfl
@[simp] theorem State.fmStore_gateQ (n c r len v : Nat) : (s.fmStore n c r len v).gateQ = s.gateQ := rfl
@[simp] theorem State.fmStore_gatePend (n c r len v : Nat) : (s.fmStore n c r len v).gatePend = s.gatePend := rfl
@[simp] theorem State.fmStore_carryf (n c r len v : Nat) : (s.fmStore n c r len v).carryf = s.carryf := rfl
@[simp] theorem State.fmStore_sew (n c r len v : Nat) : (s.fmStore n c r len v).sew = s.sew := rfl
@[simp] theorem State.fmStore_inbox (n c r len v : Nat) : (s.fmStore n c r len v).inbox = s.inbox := rfl
@[simp] theorem State.fmStore_carries (n c r len v : Nat) : (s.fmStore n c r len v).carries = s.carries := rfl
@[simp] theorem State.fmStore_carrySent (n c r len v : Nat) : (s.fmStore n c r len v).carrySent = s.carrySent := rfl
@[simp] theorem State.fmStore_gens (n c r len v : Nat) : (s.fmStore n c r len v).gens = s.gens := rfl
@[simp] theorem State.fmStore_slots (n c r len v : Nat) : (s.fmStore n c r len v).slots = s.slots := rfl
@[simp] theorem State.fmStore_contribs (n c r len v : Nat) : (s.fmStore n c r len v).contribs = s.contribs := rfl
@[simp] theorem State.fmStore_plane (n c r len v : Nat) : (s.fmStore n c r len v).plane = s.plane := rfl
@[simp] theorem State.fmStore_remote (n c r len v : Nat) : (s.fmStore n c r len v).remote = s.remote := rfl
@[simp] theorem State.fmStore_movers (n c r len v : Nat) : (s.fmStore n c r len v).movers = s.movers := rfl
@[simp] theorem State.fmStore_moveId (n c r len v : Nat) : (s.fmStore n c r len v).moveId = s.moveId := rfl
@[simp] theorem State.fmStore_turns (n c r len v : Nat) : (s.fmStore n c r len v).turns = s.turns := rfl
@[simp] theorem State.fmStore_pcQueue (n c r len v : Nat) : (s.fmStore n c r len v).pcQueue = s.pcQueue := rfl
@[simp] theorem State.fmStore_fetch (n c r len v : Nat) : (s.fmStore n c r len v).fetch = s.fetch := rfl
@[simp] theorem State.fmStore_mleads (n c r len v : Nat) : (s.fmStore n c r len v).mleads = s.mleads := rfl
@[simp] theorem State.fmStore_mrecvs (n c r len v : Nat) : (s.fmStore n c r len v).mrecvs = s.mrecvs := rfl
@[simp] theorem State.fmStore_credits (n c r len v : Nat) : (s.fmStore n c r len v).credits = s.credits := rfl
@[simp] theorem State.fmStore_ringTail (n c r len v : Nat) : (s.fmStore n c r len v).ringTail = s.ringTail := rfl
@[simp] theorem State.fmStore_ringHead (n c r len v : Nat) : (s.fmStore n c r len v).ringHead = s.ringHead := rfl
@[simp] theorem State.fmStore_occupied (n c r len v : Nat) : (s.fmStore n c r len v).occupied = s.occupied := rfl
@[simp] theorem State.fmStore_strm (n c r len v : Nat) : (s.fmStore n c r len v).strm = s.strm := rfl
@[simp] theorem State.fmStore_tokens (n c r len v : Nat) : (s.fmStore n c r len v).tokens = s.tokens := rfl
@[simp] theorem State.fmStore_doneFifo (n c r len v : Nat) : (s.fmStore n c r len v).doneFifo = s.doneFifo := rfl
@[simp] theorem State.fmStore_doneHeld (n c r len v : Nat) : (s.fmStore n c r len v).doneHeld = s.doneHeld := rfl
@[simp] theorem State.fmStore_keys (n c r len v : Nat) : (s.fmStore n c r len v).keys = s.keys := rfl
@[simp] theorem State.fmStore_scheds (n c r len v : Nat) : (s.fmStore n c r len v).scheds = s.scheds := rfl
@[simp] theorem State.fmStore_txns (n c r len v : Nat) : (s.fmStore n c r len v).txns = s.txns := rfl
@[simp] theorem State.fmStore_mbx (n c r len v : Nat) : (s.fmStore n c r len v).mbx = s.mbx := rfl
@[simp] theorem State.fmStore_mbxValid (n c r len v : Nat) : (s.fmStore n c r len v).mbxValid = s.mbxValid := rfl
@[simp] theorem State.fmStore_heldWrites (n c r len v : Nat) : (s.fmStore n c r len v).heldWrites = s.heldWrites := rfl
@[simp] theorem State.fmStore_levelReq (n c r len v : Nat) : (s.fmStore n c r len v).levelReq = s.levelReq := rfl
@[simp] theorem State.fmStore_burstIn (n c r len v : Nat) : (s.fmStore n c r len v).burstIn = s.burstIn := rfl
@[simp] theorem State.fmStore_outbox (n c r len v : Nat) : (s.fmStore n c r len v).outbox = s.outbox := rfl
@[simp] theorem State.fmStore_sideband (n c r len v : Nat) : (s.fmStore n c r len v).sideband = s.sideband := rfl
@[simp] theorem State.fmStore_d2dRx (n c r len v : Nat) : (s.fmStore n c r len v).d2dRx = s.d2dRx := rfl
@[simp] theorem State.fmStore_d2dTx (n c r len v : Nat) : (s.fmStore n c r len v).d2dTx = s.d2dTx := rfl
@[simp] theorem State.fmStore_d2dRetry (n c r len v : Nat) : (s.fmStore n c r len v).d2dRetry = s.d2dRetry := rfl
@[simp] theorem State.fmStore_d2dAttempts (n c r len v : Nat) : (s.fmStore n c r len v).d2dAttempts = s.d2dAttempts := rfl
@[simp] theorem State.fmStore_d2dCredits (n c r len v : Nat) : (s.fmStore n c r len v).d2dCredits = s.d2dCredits := rfl
@[simp] theorem State.fmStore_d2dPos (n c r len v : Nat) : (s.fmStore n c r len v).d2dPos = s.d2dPos := rfl
@[simp] theorem State.fmStore_d2dOwed (n c r len v : Nat) : (s.fmStore n c r len v).d2dOwed = s.d2dOwed := rfl
@[simp] theorem State.fmStore_d2dNak (n c r len v : Nat) : (s.fmStore n c r len v).d2dNak = s.d2dNak := rfl
@[simp] theorem State.fmStore_d2dLost (n c r len v : Nat) : (s.fmStore n c r len v).d2dLost = s.d2dLost := rfl
@[simp] theorem State.fmStore_d2dOut (n c r len v : Nat) : (s.fmStore n c r len v).d2dOut = s.d2dOut := rfl
@[simp] theorem State.fmStore_jtagData (n c r len v : Nat) : (s.fmStore n c r len v).jtagData = s.jtagData := rfl
@[simp] theorem State.fmStore_links (n c r len v : Nat) : (s.fmStore n c r len v).links = s.links := rfl
@[simp] theorem State.fmStore_linkIn (n c r len v : Nat) : (s.fmStore n c r len v).linkIn = s.linkIn := rfl
@[simp] theorem State.fmStore_partials (n c r len v : Nat) : (s.fmStore n c r len v).partials = s.partials := rfl
@[simp] theorem State.fmStore_linkOut (n c r len v : Nat) : (s.fmStore n c r len v).linkOut = s.linkOut := rfl
@[simp] theorem State.fmStore_linkMsgId (n c r len v : Nat) : (s.fmStore n c r len v).linkMsgId = s.linkMsgId := rfl
@[simp] theorem State.fmStore_lpSent (n c r len v : Nat) : (s.fmStore n c r len v).lpSent = s.lpSent := rfl
@[simp] theorem State.fmStore_linkDown (n c r len v : Nat) : (s.fmStore n c r len v).linkDown = s.linkDown := rfl
@[simp] theorem State.fmStore_lstateSeq (n c r len v : Nat) : (s.fmStore n c r len v).lstateSeq = s.lstateSeq := rfl
@[simp] theorem State.fmStore_hoop (n c r len v : Nat) : (s.fmStore n c r len v).hoop = s.hoop := rfl
@[simp] theorem State.fmStore_mirrors (n c r len v : Nat) : (s.fmStore n c r len v).mirrors = s.mirrors := rfl
@[simp] theorem State.fmStore_takeovers (n c r len v : Nat) : (s.fmStore n c r len v).takeovers = s.takeovers := rfl
@[simp] theorem State.fmStore_pwr (n c r len v : Nat) : (s.fmStore n c r len v).pwr = s.pwr := rfl
@[simp] theorem State.fmStore_pwrFailed (n c r len v : Nat) : (s.fmStore n c r len v).pwrFailed = s.pwrFailed := rfl
@[simp] theorem State.fmStore_planAt (n c r len v : Nat) : (s.fmStore n c r len v).planAt = s.planAt := rfl
@[simp] theorem State.fmStore_refLost (n c r len v : Nat) : (s.fmStore n c r len v).refLost = s.refLost := rfl
@[simp] theorem State.fmStore_railsOut (n c r len v : Nat) : (s.fmStore n c r len v).railsOut = s.railsOut := rfl
@[simp] theorem State.fmStore_quietUntil (n c r len v : Nat) : (s.fmStore n c r len v).quietUntil = s.quietUntil := rfl
@[simp] theorem State.fmStore_substs (n c r len v : Nat) : (s.fmStore n c r len v).substs = s.substs := rfl
@[simp] theorem State.fmStore_switching (n c r len v : Nat) : (s.fmStore n c r len v).switching = s.switching := rfl
@[simp] theorem State.fmStore_events (n c r len v : Nat) : (s.fmStore n c r len v).events = s.events := rfl
@[simp] theorem State.fmStore_faultLow (n c r len v : Nat) : (s.fmStore n c r len v).faultLow = s.faultLow := rfl
@[simp] theorem State.fmStore_wakeLow (n c r len v : Nat) : (s.fmStore n c r len v).wakeLow = s.wakeLow := rfl
@[simp] theorem State.fmStore_thermLow (n c r len v : Nat) : (s.fmStore n c r len v).thermLow = s.thermLow := rfl
@[simp] theorem State.fmStore_trace (n c r len v : Nat) : (s.fmStore n c r len v).trace = s.trace := rfl
@[simp] theorem State.fmStore_fresh (n c r len v : Nat) : (s.fmStore n c r len v).fresh = s.fresh := rfl

end Sys2Proof.Machine
end

