-- ==== Sys2Proof/Laws/Registers.lean ====
section
/-! SUPPORT. Reads after writes of the registers of the window, of the contexts and of the vector engine. -/

namespace Sys2Proof.Machine

theorem State.reg_setReg_same (s : State) (a v : Nat) : (s.setReg a v).reg a = v % 2 ^ 32 := by
  simp [State.reg, State.setReg, Sp.get_set_same]
theorem State.reg_setReg_ne (s : State) {a b : Nat} (v : Nat) (h : b ≠ a) : (s.setReg a v).reg b = s.reg b := by
  simp [State.reg, State.setReg, Sp.get_set_ne _ _ _ h]
theorem State.reg_setFld_ne (s : State) {a b : Nat} (hi lo v : Nat) (h : b ≠ a) : (s.setFld a hi lo v).reg b = s.reg b :=
  State.reg_setReg_ne s _ h
theorem State.setFld_regs_only (s : State) (a hi lo v : Nat) : s.setFld a hi lo v = { s with regs := (s.setFld a hi lo v).regs } := rfl
theorem State.setBit_regs_only (s : State) (a k : Nat) (b : Bool) : s.setBit a k b = { s with regs := (s.setBit a k b).regs } := rfl
theorem State.bump_regs_only (s : State) (a hi lo k : Nat) : s.bump a hi lo k = { s with regs := (s.bump a hi lo k).regs } := rfl

theorem State.sr_setSr_same (s : State) (n c r v : Nat) : (s.setSr n c r v).sr n c r = v % 2 ^ 32 := by
  simp [State.sr, State.setSr, Sp.get_set_same]
theorem State.sr_setSr_ne (s : State) {n c r m k q : Nat} (v : Nat) (h : (4 * m + k) * 32 + q ≠ (4 * n + c) * 32 + r) :
    (s.setSr n c r v).sr m k q = s.sr m k q := by
  simp [State.sr, State.setSr, Sp.get_set_ne _ _ _ h]
theorem State.ar_setAr_same (s : State) (n c r v : Nat) : (s.setAr n c r v).ar n c r = v % 2 ^ 64 := by
  simp [State.ar, State.setAr, Sp.get_set_same]
theorem State.ar_setAr_ne (s : State) {n c r m k q : Nat} (v : Nat) (h : (4 * m + k) * 16 + q ≠ (4 * n + c) * 16 + r) :
    (s.setAr n c r v).ar m k q = s.ar m k q := by
  simp [State.ar, State.setAr, Sp.get_set_ne _ _ _ h]
theorem State.lcr_setLcr_same (s : State) (n c r v : Nat) : (s.setLcr n c r v).lcr n c r = v % 2 ^ 32 := by
  simp [State.lcr, State.setLcr, Sp.get_set_same]
theorem State.lcr_setLcr_ne (s : State) {n c r m k q : Nat} (v : Nat) (h : (4 * m + k) * 4 + q ≠ (4 * n + c) * 4 + r) :
    (s.setLcr n c r v).lcr m k q = s.lcr m k q := by
  simp [State.lcr, State.setLcr, Sp.get_set_ne _ _ _ h]
theorem State.ctx_setCtx_same (s : State) (n c : Nat) (x : Ctx) : (s.setCtx n c x).ctx n c = x := by
  simp [State.ctx, State.setCtx, Sp.get_set_same]
theorem State.ctx_setCtx_ne (s : State) {n c m k : Nat} (x : Ctx) (h : 4 * m + k ≠ 4 * n + c) : (s.setCtx n c x).ctx m k = s.ctx m k := by
  simp [State.ctx, State.setCtx, Sp.get_set_ne _ _ _ h]
theorem State.tag_setTag_same (s : State) (l k : Nat) (r : TagRec) : (s.setTag l k r).tag l k = r := by
  simp [State.tag, State.setTag, Sp.get_set_same]
theorem State.str_setStr_same (s : State) (i : Nat) (x : Strm) : (s.setStr i x).str i = x := by
  simp [State.str, State.setStr, Sp.get_set_same]
theorem State.str_setStr_ne (s : State) {i j : Nat} (x : Strm) (h : j ≠ i) : (s.setStr i x).str j = s.str j := by
  simp [State.str, State.setStr, Sp.get_set_ne _ _ _ h]
theorem State.gen_setGen_same (s : State) (n c : Nat) (g : GenCtx) : (s.setGen n c g).gen n c = g := by
  simp [State.gen, State.setGen, Sp.get_set_same]

/-! ## Lanes -/

/-- The fold of setLanes over a list of lanes. -/
theorem lanes_fold (f : Nat → Option Nat) (b : Nat) (js : List Nat) (hn : js.Nodup) (m : Sp Word) (k : Nat) :
    Sp.get (fun _ => 0) (js.foldl (fun m j => match f j with
      | some x => Sp.set (fun _ => 0) m (b + j) (BitVec.ofNat 32 x)
      | none => m) m) k
      = if b ≤ k ∧ (k - b) ∈ js then (match f (k - b) with | some x => BitVec.ofNat 32 x | none => Sp.get (fun _ => 0) m k)
        else Sp.get (fun _ => 0) m k := by
  induction js generalizing m with
  | nil => simp
  | cons j js ih =>
    have hj : j ∉ js := (List.nodup_cons.mp hn).1
    rw [List.foldl_cons, ih (List.nodup_cons.mp hn).2]
    by_cases hk : b ≤ k
    · by_cases e : k - b = j
      · have e' : k = b + j := by omega
        subst e'
        simp only [Nat.add_sub_cancel_left, List.mem_cons, true_or, and_true, hj, and_false, if_false]
        simp only [Nat.le_add_right, if_true]
        cases hf : f j with
        | none => rfl
        | some x => simp [Sp.get_set_same]
      · have hne : k ≠ b + j := by omega
        have hg : Sp.get (fun _ => (0 : Word)) (match f j with
            | some x => Sp.set (fun _ => 0) m (b + j) (BitVec.ofNat 32 x)
            | none => m) k = Sp.get (fun _ => 0) m k := by
          cases f j with
          | none => rfl
          | some x => exact Sp.get_set_ne _ _ _ hne
        simp only [List.mem_cons, e, false_or, hg]
    · have hne : k ≠ b + j := by omega
      simp only [hk, false_and, if_false]
      cases f j with
      | none => rfl
      | some x => exact Sp.get_set_ne _ _ _ hne

/-- A lane after lanes of a register have been written. -/
theorem State.lane_setLanes (s : State) (n v j : Nat) (f : Nat → Option Nat) (hj : j < 64) :
    (s.setLanes n v f).lane n v j = match f j with | some x => x % 2 ^ 32 | none => s.lane n v j := by
  have h := lanes_fold f ((32 * n + v) * 64) (List.range 64) List.nodup_range s.vreg ((32 * n + v) * 64 + j)
  simp only [Nat.le_add_right, Nat.add_sub_cancel_left, List.mem_range, hj, and_self, if_true] at h
  have e : Sp.get (fun _ => 0) (s.setLanes n v f).vreg ((32 * n + v) * 64 + j) = _ := h
  rw [State.lane, e]
  cases f j <;> simp [State.lane]
/-- A lane of another register is as before. -/
theorem State.lane_setLanes_ne (s : State) {n v m w j : Nat} (f : Nat → Option Nat) (hj : j < 64) (h : 32 * m + w ≠ 32 * n + v) :
    (s.setLanes n v f).lane m w j = s.lane m w j := by
  have e := lanes_fold f ((32 * n + v) * 64) (List.range 64) List.nodup_range s.vreg ((32 * m + w) * 64 + j)
  have hc : ¬((32 * n + v) * 64 ≤ (32 * m + w) * 64 + j ∧ (32 * m + w) * 64 + j - (32 * n + v) * 64 ∈ List.range 64) := by
    rw [List.mem_range]; omega
  rw [if_neg hc] at e
  have e' : Sp.get (fun _ => 0) (s.setLanes n v f).vreg ((32 * m + w) * 64 + j) = _ := e
  rw [State.lane, e', State.lane]

/-- vm0 reads as all ones whatever is written (R236). -/
theorem State.vm_zero (s : State) (n : Nat) : s.vm n 0 = 2 ^ 64 - 1 := rfl
theorem State.vm_setVm_same (s : State) (n k v : Nat) (h : k ≠ 0) : (s.setVm n k v).vm n k = v % 2 ^ 64 := by
  simp [State.vm, State.setVm, h, Sp.get_set_same]

end Sys2Proof.Machine
end

