-- ==== Sys2Proof/Laws/Issue.lean ====
section
/-! SUPPORT. What the issue of a bundle can do: the lowest trap, and the outcomes of `issue`, `scalar`, `engine` and
`longEngine`, said once. -/

namespace Sys2Proof.Machine

/-- One step of the search for the lowest trap. -/
def trapMin (m : Option Nat) (t : Bool × Nat) : Option Nat :=
  if t.1 then (match m with | none => some t.2 | some k => some (min k t.2)) else m

theorem lowestTrap_eq (ts : List (Bool × Nat)) : lowestTrap ts = ts.foldl trapMin none := rfl

theorem trapMin_fold_some (ts : List (Bool × Nat)) (k : Nat) : ∃ j, ts.foldl trapMin (some k) = some j ∧ j ≤ k ∧
    (∀ t ∈ ts, t.1 = true → j ≤ t.2) ∧ (j = k ∨ ∃ t ∈ ts, t.1 = true ∧ t.2 = j) := by
  induction ts generalizing k with
  | nil => exact ⟨k, rfl, le_refl k, by simp, .inl rfl⟩
  | cons t ts ih =>
    obtain ⟨b, x⟩ := t
    cases b with
    | false =>
      obtain ⟨j, h1, h2, h3, h4⟩ := ih k
      refine ⟨j, by simpa [trapMin] using h1, h2, ?_, ?_⟩
      · intro t ht htt
        rcases List.mem_cons.mp ht with e | e
        · subst e; simp at htt
        · exact h3 t e htt
      · rcases h4 with e | ⟨t, ht, h5⟩
        · exact .inl e
        · exact .inr ⟨t, List.mem_cons_of_mem _ ht, h5⟩
    | true =>
      obtain ⟨j, h1, h2, h3, h4⟩ := ih (min k x)
      refine ⟨j, by simpa [trapMin] using h1, by omega, ?_, ?_⟩
      · intro t ht htt
        rcases List.mem_cons.mp ht with e | e
        · subst e; show j ≤ x; omega
        · exact h3 t e htt
      · rcases h4 with e | ⟨t, ht, h5⟩
        · rcases Nat.le_total k x with h | h
          · exact .inl (by omega)
          · exact .inr ⟨(true, x), List.mem_cons_self, rfl, by simp only; omega⟩
        · exact .inr ⟨t, List.mem_cons_of_mem _ ht, h5⟩

/-- No trap arises exactly when every check passes. -/
theorem lowestTrap_none (ts : List (Bool × Nat)) : lowestTrap ts = none ↔ ∀ t ∈ ts, t.1 = false := by
  rw [lowestTrap_eq]
  induction ts with
  | nil => simp
  | cons t ts ih =>
    obtain ⟨b, x⟩ := t
    cases b with
    | false => simpa [trapMin] using ih
    | true =>
      obtain ⟨j, h1, _⟩ := trapMin_fold_some ts x
      simp [trapMin, h1]
/-- The trap taken is the lowest code among the rules broken (R454). -/
theorem lowestTrap_some (ts : List (Bool × Nat)) (k : Nat) (h : lowestTrap ts = some k) :
    (∃ t ∈ ts, t.1 = true ∧ t.2 = k) ∧ ∀ t ∈ ts, t.1 = true → k ≤ t.2 := by
  rw [lowestTrap_eq] at h
  induction ts with
  | nil => simp at h
  | cons t ts ih =>
    obtain ⟨b, x⟩ := t
    cases b with
    | false =>
      obtain ⟨⟨t, h1, h2⟩, h3⟩ := ih (by simpa [trapMin] using h)
      exact ⟨⟨t, List.mem_cons_of_mem _ h1, h2⟩, fun u hu hv => by
        rcases List.mem_cons.mp hu with e | e
        · subst e; simp at hv
        · exact h3 u e hv⟩
    | true =>
      obtain ⟨j, h1, h2, h3, h4⟩ := trapMin_fold_some ts x
      have e : j = k := by simpa [trapMin, h1] using h
      subst e
      refine ⟨?_, fun u hu hv => ?_⟩
      · rcases h4 with e | ⟨t, ht, h5⟩
        · exact ⟨(true, x), List.mem_cons_self, rfl, e.symm⟩
        · exact ⟨t, List.mem_cons_of_mem _ ht, h5⟩
      · rcases List.mem_cons.mp hu with e | e
        · subst e; exact h2
        · exact h3 u e hv

theorem lowestTrap_append_none (xs ys : List (Bool × Nat)) :
    lowestTrap (xs ++ ys) = none ↔ lowestTrap xs = none ∧ lowestTrap ys = none := by
  simp only [lowestTrap_none, List.mem_append]
  exact ⟨fun h => ⟨fun t ht => h t (.inl ht), fun t ht => h t (.inr ht)⟩,
    fun h t ht => ht.elim (h.1 t) (h.2 t)⟩
theorem lowestTrap_cons_none (b : Bool) (k : Nat) (ts : List (Bool × Nat)) :
    lowestTrap ((b, k) :: ts) = none ↔ b = false ∧ lowestTrap ts = none := by
  simp [lowestTrap_none]
@[simp] theorem lowestTrap_nil : lowestTrap [] = none := rfl

/-! ## The checks of a run -/

/-- A run that reads no bad word and no slot whose tile is to land is not late. -/
theorem timely_sound {s : State} {n c : Nat} (run : State → State) (h : s.unlanded n c = []) : s.timely n c run = run s := by
  simp [State.timely, h]
theorem readsBad_none {s : State} {n c : Nat} (run : State → State) (h : s.bad = []) : s.readsBad n c run = false := by
  simp [State.readsBad, h]
/-- With nothing for the checks to find, a run is done. -/
theorem checked_sound {a : Issue} {s : State} (r : Option Nat) (d : Bool) (drop run : State → State) (h : sound a s) :
    checked a r d drop run s = .next (run s) := by
  obtain ⟨h1, h2, h3⟩ := h
  simp [checked, h1, readsBad_none run h2, timely_sound run h3]
/-- Everything the checks of a run can lead to (R25, R355, R356, R379). -/
theorem checked_cases {a : Issue} {s t : State} {r : Option Nat} {d : Bool} {drop run : State → State}
    (h : checked a r d drop run s = .next t) :
    (a.hw = .ok ∧ s.readsBad a.folio.val a.ctx.val run = false ∧ t = s.timely a.folio.val a.ctx.val run) ∨
    (∃ src addr, a.hw = .parity src addr ∧ t = (drop s).parityRead a.folio.val a.ctx.val src.val addr) ∨
    (∃ src addr, a.hw = .merge src addr ∧ t = (run s).parityRead a.folio.val a.ctx.val src.val addr) ∨
    (a.hw = .residue ∧ ∃ code, r = some code ∧ t = (run s).engineFault a.folio.val a.ctx.val code true) ∨
    (a.hw = .rng ∧ d = true ∧ t = (run s).engineFault a.folio.val a.ctx.val RNG_RESIDUE true) := by
  unfold checked at h
  simp only [notDue] at h
  split at h
  · next e =>
    split at h
    · cases h
    · next g => exact .inl ⟨e, by simpa using g, by cases h; rfl⟩
  · next src addr e => exact .inr (.inl ⟨src, addr, e, by cases h; rfl⟩)
  · next src addr e => exact .inr (.inr (.inl ⟨src, addr, e, by cases h; rfl⟩))
  · next e =>
    split at h
    · next code => exact .inr (.inr (.inr (.inl ⟨e, code, rfl, by cases h; rfl⟩)))
    · cases h
  · next e =>
    split at h
    · next g => exact .inr (.inr (.inr (.inr ⟨e, g, by cases h; rfl⟩)))
    · cases h

/-! ## Issue -/

/-- A bundle that may issue and breaks no rule, and waits for nothing, comes to its checks. -/
theorem issue_checked {a : Issue} {op : State → SlotOp} {s : State} (r : Option Nat) (d : Bool) (h : mayIssue a s) (ho : (op s).clear) :
    issue a op r d s = checked a r d (fun t => t.advance a.folio.val a.ctx.val)
      (fun t => (op t).run (t.advance a.folio.val a.ctx.val)) s := by
  obtain ⟨h1, h2, h3, h4⟩ := h
  simp [issue, h1, h2, h3, h4, ho.1, ho.2]
/-- A bundle that is ready, breaks no rule and waits for nothing issues and runs. -/
theorem issue_runs {a : Issue} {op : State → SlotOp} {s : State} (r : Option Nat) (d : Bool) (h : ready a s) (ho : (op s).clear) :
    issue a op r d s = .next ((op s).run (s.advance a.folio.val a.ctx.val)) := by
  rw [issue_checked r d h.1 ho, checked_sound _ _ _ _ h.2]
/-- A bundle that breaks a rule takes the lowest trap (R422, R454). -/
theorem issue_traps {a : Issue} {op : State → SlotOp} {s : State} (r : Option Nat) (d : Bool) (h1 : mayIssue a s)
    {k : Nat} (h : lowestTrap (op s).traps = some k) : issue a op r d s = .next (s.takeTrap a.folio.val a.ctx.val k) := by
  obtain ⟨h1, h2, h3, h4⟩ := h1
  simp [issue, h1, h2, h3, h4, h]
/-- A bundle that must wait leaves everything but the wait (R401). -/
theorem issue_waits {a : Issue} {op : State → SlotOp} {s : State} (r : Option Nat) (d : Bool) (h1 : mayIssue a s)
    (h : lowestTrap (op s).traps = none) {w : WaitK} (hw : (op s).wait = some w) :
    issue a op r d s = .next (s.setCtx a.folio.val a.ctx.val { s.ctx a.folio.val a.ctx.val with wait := some w }) := by
  obtain ⟨h1, h2, h3, h4⟩ := h1
  simp [issue, h1, h2, h3, h4, h, hw]
/-- Everything the issue of a bundle can do: it traps, waits, or comes to its checks. -/
theorem issue_cases {a : Issue} {op : State → SlotOp} {r : Option Nat} {d : Bool} {s t : State} (h : issue a op r d s = .next t) :
    mayIssue a s ∧
    ((∃ k, lowestTrap (op s).traps = some k ∧ t = s.takeTrap a.folio.val a.ctx.val k) ∨
     (lowestTrap (op s).traps = none ∧ ∃ w, (op s).wait = some w ∧
        t = s.setCtx a.folio.val a.ctx.val { s.ctx a.folio.val a.ctx.val with wait := some w }) ∨
     ((op s).clear ∧ checked a r d (fun t => t.advance a.folio.val a.ctx.val)
        (fun t => (op t).run (t.advance a.folio.val a.ctx.val)) s = .next t)) := by
  by_cases hm : mayIssue a s
  · refine ⟨hm, ?_⟩
    rcases hk : lowestTrap (op s).traps with _ | k
    · rcases hw : (op s).wait with _ | w
      · rw [issue_checked r d hm ⟨hk, hw⟩] at h
        exact .inr (.inr ⟨⟨hk, hw⟩, h⟩)
      · rw [issue_waits r d hm hk hw] at h
        exact .inr (.inl ⟨rfl, w, rfl, by cases h; rfl⟩)
    · rw [issue_traps r d hm hk] at h
      exact .inl ⟨k, rfl, by cases h; rfl⟩
  · exfalso
    apply hm
    unfold issue at h
    simp only [notDue] at h
    split at h
    · cases h
    · next h1 =>
      split at h
      · cases h
      · next h2 =>
        split at h
        · cases h
        · next h3 =>
          split at h
          · cases h
          · next h4 => exact ⟨by simpa using h1, by simpa using h2, by simpa using h3, by simpa using h4⟩

/-- An engine's slot with a scalar slot beside it breaks no rule and waits for nothing when both do so. -/
theorem both_clear {e k : SlotOp} : (e.both k).clear ↔ e.clear ∧ k.clear := by
  simp only [SlotOp.clear, SlotOp.both, lowestTrap_append_none]
  cases e.wait <;> simp <;> tauto
/-- An engine bundle that issues runs its engine slot and then its scalar slot (R428). -/
theorem engine_runs {op : Nat → Nat → Eng → State → SlotOp} {a : Issue} {e : Eng} {s : State} (r : Option Nat) (h : ready a s)
    (h1 : (op a.folio.val a.ctx.val e s).clear) (h2 : (scalarSlot true a.folio.val a.ctx.val e.sc s).clear) :
    engine op r a e s = .next ((scalarSlot true a.folio.val a.ctx.val e.sc s).run
      ((op a.folio.val a.ctx.val e s).run (s.advance a.folio.val a.ctx.val))) :=
  issue_runs (op := fun s => (op a.folio.val a.ctx.val e s).both (scalarSlot true a.folio.val a.ctx.val e.sc s)) r e.stoch h
    (both_clear.mpr ⟨h1, h2⟩)
theorem scalar_runs {op : Nat → Nat → Nat → State → SlotOp} {a : Issue} {w : BitVec 26} {s : State} (h : ready a s)
    (h1 : (op a.folio.val a.ctx.val w.toNat s).clear) :
    scalar op a w s = .next ((op a.folio.val a.ctx.val w.toNat s).run (s.advance a.folio.val a.ctx.val)) := issue_runs none false h h1

/-- What has issued differs from what was there in the contexts, the instruction stores that land, and the trace alone. -/
theorem advance_only (s : State) (n c : Nat) :
    s.advance n c = { s with ctxs := (s.advance n c).ctxs, istores := (s.advance n c).istores, imem := (s.advance n c).imem,
                             bad := (s.advance n c).bad, trace := (s.advance n c).trace } := by
  have h : ∀ (ps : List IStore) (u : State), ps.foldl (fun s p => s.storeBundle n p) u
      = { u with imem := (ps.foldl (fun s p => s.storeBundle n p) u).imem, bad := (ps.foldl (fun s p => s.storeBundle n p) u).bad } := by
    intro ps
    induction ps with
    | nil => intro u; rfl
    | cons p ps ih => intro u; rw [List.foldl_cons, ih]; rfl
  simp only [State.advance, State.landStores]
  rw [h]
  rfl
@[simp] theorem advance_sreg (s : State) (n c : Nat) : (s.advance n c).sreg = s.sreg := by rw [advance_only]
@[simp] theorem advance_areg (s : State) (n c : Nat) : (s.advance n c).areg = s.areg := by rw [advance_only]
@[simp] theorem advance_lc (s : State) (n c : Nat) : (s.advance n c).lc = s.lc := by rw [advance_only]
@[simp] theorem advance_fm (s : State) (n c : Nat) : (s.advance n c).fm = s.fm := by rw [advance_only]
@[simp] theorem advance_vreg (s : State) (n c : Nat) : (s.advance n c).vreg = s.vreg := by rw [advance_only]
@[simp] theorem advance_vmask (s : State) (n c : Nat) : (s.advance n c).vmask = s.vmask := by rw [advance_only]
@[simp] theorem advance_regs (s : State) (n c : Nat) : (s.advance n c).regs = s.regs := by rw [advance_only]
theorem advance_ctxs (s : State) (n c : Nat) :
    (s.advance n c).ctxs = (s.setCtx n c { s.ctx n c with pc := (s.ctx n c).pc + 1, wait := none }).ctxs := by
  have h : ∀ (ps : List IStore) (u : State), (ps.foldl (fun s p => s.storeBundle n p) u).ctxs = u.ctxs := by
    intro ps
    induction ps with
    | nil => intro u; rfl
    | cons p ps ih => intro u; rw [List.foldl_cons, ih]; rfl
  simp only [State.advance, State.landStores]
  rw [h]
theorem advance_ctx (s : State) (n c m k : Nat) :
    (s.advance n c).ctx m k = (s.setCtx n c { s.ctx n c with pc := (s.ctx n c).pc + 1, wait := none }).ctx m k := by
  simp only [State.ctx, advance_ctxs]
theorem advance_ctx_same (s : State) (n c : Nat) : (s.advance n c).ctx n c = { s.ctx n c with pc := (s.ctx n c).pc + 1, wait := none } := by
  rw [advance_ctx, State.ctx_setCtx_same]
theorem advance_ctx_ne (s : State) {n c m k : Nat} (h : 4 * m + k ≠ 4 * n + c) : (s.advance n c).ctx m k = s.ctx m k := by
  rw [advance_ctx, State.ctx_setCtx_ne s _ h]

/-! ## Resumable instructions -/

/-- A resumable instruction that issues comes to its units, after the scalar slot of its bundle (R644). -/
theorem longEngine_runs {opc : Nat} {op : Nat → Nat → Eng → State → Long} {a : Issue} {e : Eng} {s : State} (r : Option Nat)
    (h : ready a s) (h1 : (op a.folio.val a.ctx.val e s).clear) (h2 : (scalarSlot true a.folio.val a.ctx.val e.sc s).clear) :
    longEngine opc op r a e s = .next (longRun a.folio.val a.ctx.val a.cut (op a.folio.val a.ctx.val e s)
      (s.longRec a.folio.val a.ctx.val (op a.folio.val a.ctx.val e s).kind (BitVec.ofNat 128 (bundleOf opc e)).toNat)
      ((scalarSlot true a.folio.val a.ctx.val e.sc s).run (s.advance a.folio.val a.ctx.val))) := by
  unfold longEngine
  simp only [h.1.2.2.1]
  rw [issue_runs r e.stoch h]
  exact ⟨(lowestTrap_append_none _ _).mpr ⟨h1.1, h2.1⟩, by simp [h1.2, h2.2]⟩
/-- A context inside a resumable instruction goes on with it (R644). -/
theorem goOn_runs {a : Issue} {s : State} (r : Option Nat) (d : Bool) (run : State → State)
    (h1 : (s.ctx a.folio.val a.ctx.val).st = .running) (h2 : (s.ctx a.folio.val a.ctx.val).due = none)
    (h3 : s.raised a.folio.val a.ctx.val = none) (h : sound a s) : goOn a r d run s = .next (run s) := by
  rw [← checked_sound r d (fun t => t.setCtx a.folio.val a.ctx.val { s.ctx a.folio.val a.ctx.val with inside := none }) run h]
  simp [goOn, h1, h2, h3]

end Sys2Proof.Machine
end

