-- ==== Sys2Proof/WellFormed.lean ====
section
/-! DEFINITION. Well-formed commands: the sizes that the operands of a command have where a type does not say so. A command
that is not well formed stands for nothing its sender can do. -/

namespace Sys2Proof

/-- Folio images fill at most their memories (R329): 128 KiB of instructions, 512 B of gate programs, 4 KiB of functions. -/
def FolioImg.wf (x : FolioImg) : Bool :=
  decide (x.imem.length ≤ 131072) && decide (x.gps.length ≤ 512) && decide (x.fns.length ≤ 4096)

/-- A schedule's folio images fit, its golden ranges lie in folio memory (R357), its rings have granules (R348) and its state
slices fit the gate state buffer (R166). -/
def Sched.wf (x : Sched) : Bool :=
  x.images.all FolioImg.wf && x.golden.all (fun g => decide (g.block.toNat + g.count ≤ 256))
    && x.rings.all (fun r => decide (0 < r.size)) && x.slices.all (fun l => decide (l.gsbOff + l.bytes ≤ 8192))

/-- A firmware image's folio images fit, and it lists 19 exit steps and 5 entry delays (R537, R549) or none. -/
def FwImage.wf (x : FwImage) : Bool :=
  x.images.all (fun p => p.2.wf) && (x.exits.length == 0 || x.exits.length == 19)
    && (x.entries.length == 0 || x.entries.length == 5)

/-- The well-formed commands: a D2D flit has 320 bytes (R613), a link flit and its control word 264 (R481), and an image
fits its memories. -/
def Instr.wf : Instr → Bool
  | .d2dFlit bytes => bytes.length == 320
  | .linkFlit _ bytes _ => bytes.length == 264
  | .schedLoad _ img => img.wf
  | .fwLoad _ img => img.wf
  | .fwStage _ img => img.wf
  | _ => true

end Sys2Proof
end

