-- ==== Sys2Proof/Tests/Slice0.lean ====
section
/-! SUPPORT. Tests: ill-formed commands that the check refuses, a witness for the hypotheses of every statement, and small runs of one
step whose results the spec's rules or a hand calculation give. -/

open Sys2Proof Sys2Proof.Machine Sys2Proof.Claims

namespace Sys2Proof.Tests

set_option Elab.async false

/-! ## Small states -/

/-- A state with register words set. -/
def put (l : List (Nat × Nat)) (s : State) : State := l.foldl (fun s p => s.setReg p.1 p.2) s
/-- A descriptor: the whole folio memory, every tag, register, mask and file; WLIM 16; ENTRY 5 and every class for an interrupt. -/
def descWords (n c : Nat) : List (Nat × Nat) :=
  let d := 0xFFFF * 2 ^ 112 + 5 * 2 ^ 99 + 256 * 2 ^ 79 + 64 * 2 ^ 59 + 8 * 2 ^ 52 + 7 * 2 ^ 49 + 15 * 2 ^ 45 + 16 * 2 ^ 29
  (List.range 4).map (fun w => (SEQ_DESC n c w, d / 2 ^ (32 * w) % 2 ^ 32))
/-- A signature-table entry: kind, base and size in granules, owner 0, gathering 0, both rights where the kind has them. -/
def sigWords (h kind base size : Nat) : List (Nat × Nat) :=
  [(SIG h 1, size * 2 ^ 17), (SIG h 2, base), (SIG h 3, 2 ^ 31 + kind * 2 ^ 28 + (if kind = 0 then 3 * 2 ^ 16 else 2 ^ 17))]
/-- A schedule: gathering 0 with shared tag 9, ring 0 of zone 1 for folio 0, ring 0 of zone 1 at seat 5. -/
def sch : Sched :=
  { ident := 1, caps := 0, wsize := 1, gaths := [⟨0, [⟨9, []⟩], [⟨0, 10, 3, none, false, 0, 2, none, 0, 0⟩]⟩], handles := [], regions := [],
    rings := [⟨0, 1, 0, 16, some 0, 0⟩], remoteRings := [⟨5, 1, 0, 4⟩], golden := [], second := 0, images := [], slices := [], data := [], fits := true }
/-- The device in service at level 2, folio 0 in the gathering of folios 0 and 1; vat handles 0 (general), 1 (message zone), 2 (burst
zone); context 0 of folio 0 runs. -/
def svc : State :=
  { put ([(IFACE_LEVEL, 0x20), (BOOT_STAT, 7 * 2 ^ 28), (GATH_TBL 0 0, 3), (GATH_TBL 0 1, 2 ^ 31), (SEQ_CTX 0 0, 2 ^ 31),
          (CLASS_TBL 0 0, 200 * 65536 + 500), (CLASS_TBL 0 1, 4 * 2 ^ 24 + 100), (CLASS_TBL 0 2, 2 ^ 24 + 1024)]
        ++ descWords 0 0 ++ sigWords 0 0 0 256 ++ sigWords 1 4 256 16 ++ sigWords 2 1 512 256) State.reset with
    inReset := false
    scheds := [sch]
    ctxs := [(0, { Ctx.reset with st := .running })]
    sreg := [(1, 256), (2, 64), (4, 16), (6, 64), (8, 1), (9, 16)]
    areg := [(1, 0x1000), (2, 0x2000), (3, 0x100000000), (4, 0x200000000), (5, 64), (6, 0x4000000000)] }
/-- The bundle of context 0 of folio 0, with no check failing. -/
def iss : Issue := ⟨0, 0, .ok, 0⟩
/-- An engine slot with the context's work tag: the arithmetic control group and operand fields, each a value at its low bit. -/
def eng (ac : Nat) (fs : List (Nat × Nat)) : Eng :=
  ⟨0x40, false, 0, BitVec.ofNat 16 ac, BitVec.ofNat 61 (fs.foldl (fun a p => a + p.1 * 2 ^ p.2) 0), 0⟩

/-- The conditions of `ready`, and what a bundle of each kind needs to issue, as values. -/
def readyB (a : Issue) (s : State) : Bool :=
  let x := s.ctx a.folio.val a.ctx.val
  decide ((x.st = .running ∧ x.resume.valid = false ∧ x.inside = none ∧ s.raised a.folio.val a.ctx.val = none)
    ∧ a.hw = .ok ∧ s.bad = [] ∧ s.unlanded a.folio.val a.ctx.val = [])
def clearB (traps : List (Bool × Nat)) (wait : Option WaitK) : Bool := decide (lowestTrap traps = none ∧ wait = none)
def issuesB (op : Nat → Nat → Eng → State → SlotOp) (a : Issue) (e : Eng) (s : State) : Bool :=
  let o := op a.folio.val a.ctx.val e s
  let k := scalarSlot true a.folio.val a.ctx.val e.sc s
  readyB a s && clearB o.traps o.wait && clearB k.traps k.wait
def longB (op : Nat → Nat → Eng → State → Long) (a : Issue) (e : Eng) (s : State) : Bool :=
  let o := op a.folio.val a.ctx.val e s
  let k := scalarSlot true a.folio.val a.ctx.val e.sc s
  readyB a s && clearB o.traps o.wait && clearB k.traps k.wait
    && decide (a.cut = 0 ∧ (s.ctx a.folio.val a.ctx.val).due = none ∧ (s.ctx a.folio.val a.ctx.val).halting = false)

theorem ready_of (a : Issue) (s : State) (h : readyB a s = true) : ready a s := by
  simpa only [readyB, ready, mayIssue, sound, decide_eq_true_eq] using h
theorem issues_of (op : Nat → Nat → Eng → State → SlotOp) (a : Issue) (e : Eng) (s : State) (h : issuesB op a e s = true) :
    EngineIssues op a e s := by
  simp only [issuesB, clearB, Bool.and_eq_true, decide_eq_true_eq] at h
  exact ⟨ready_of _ _ h.1.1, h.1.2, h.2⟩
theorem long_of (op : Nat → Nat → Eng → State → Long) (a : Issue) (e : Eng) (s : State) (h : longB op a e s = true) :
    LongIssues op a e s := by
  simp only [longB, clearB, Bool.and_eq_true, decide_eq_true_eq] at h
  exact ⟨ready_of _ _ h.1.1.1, h.1.1.2, h.1.2, h.2⟩
/-- Pairs of an instruction and an encoding that issue on a state. -/
theorem all_issue (l : List ((Nat → Nat → Eng → State → SlotOp) × Eng)) (s : State) (h : l.all (fun p => issuesB p.1 iss p.2 s) = true) :
    ∀ p ∈ l, EngineIssues p.1 iss p.2 s := fun p hp => issues_of _ _ _ _ (List.all_eq_true.mp h p hp)
theorem all_long (l : List ((Nat → Nat → Eng → State → Long) × Eng)) (s : State) (h : l.all (fun p => longB p.1 iss p.2 s) = true) :
    ∀ p ∈ l, LongIssues p.1 iss p.2 s := fun p hp => long_of _ _ _ _ (List.all_eq_true.mp h p hp)
/-- Folio 0 in normal service, and in debug mode. -/
def svc0 : State := svc.setReg (FOLIO_CTRL 0) 0
def svcD : State := svc.setReg (FOLIO_CTRL 0) 4
/-- Generators set and started, credits, an OPEN, a CLOSED and a DONE tag, a fetch stream and a cancelled one. -/
def fetch0 : Fetch := ⟨0, 0, 256, 256, 4, 2, .fm 0x1000, 2, 0, [0, 1], 0, false⟩
def svcG : State := { svc with
  gens := [(0, ⟨1, 2, true, true, 0, 0⟩)], credits := [(ringKey 1 0, 16), (remoteKey 5 1 0, 4)]
  tags := [(1, ⟨.opened, 0, 0, none⟩), (2, ⟨.closed, 0, 0, none⟩), (3, ⟨.done, 0, 0, none⟩)]
  ctxs := [(0, { Ctx.reset with st := .running, doneQ := [BitVec.ofNat 32 (folioTag 0 3)] })]
  fetch := [(0, some fetch0), (1, some { fetch0 with cancelled := true })] }
/-- A weight tile of E4M3 ones in array 0, the latch loaded as FP32. -/
def tileOf (fmt w : Nat) : WTile := { WTile.empty with fmt := some fmt, w := List.replicate 1024 w, sc := List.replicate 64 0x7F }
def ones : WTile := tileOf 6 0x38
def svcA : State := { svc with arr := [(0, { ArrSt.reset with act := ones, shd := ones })], latchFmt := [(0, some (0, false))] }
/-- Six planes of an SCONV in a(10) to a(15). -/
def svcC : State := { svc with areg := [(10, 0), (11, 0x1000), (12, 0x2000), (13, 0x3000), (14, 0x4000), (15, 0x5000)] }
/-- A gate program of one OUTX at 0x1000, and in slot 0. -/
def svcP : State := { svc with fm := svc.fm.write 0x1000 (toBytes 4 (11 * 2 ^ 27)), gps := svc.gps.write 0 (toBytes 4 (11 * 2 ^ 27)) }
def vf : List (Nat × Nat) := [(1, 56), (2, 51), (3, 46)]

theorem ready_svc : ready iss svc ∧ ready iss svc0 ∧ ready iss svcG := by
  refine ⟨ready_of _ _ ?_, ready_of _ _ ?_, ready_of _ _ ?_⟩ <;> decide +kernel

/-! ## Witnesses: scalar bundles -/

/-- Context 0 issues; with a bundle of its own and of another context pending, and with bits set that NOP reserves. -/
theorem witness_NopOnlyAdvances : ready iss svc ∧ mayIssue iss svc ∧ (3 : BitVec 26) ≠ 0 ∧ svc.traceBumps = [] ∧
    (let s : State := { svc with istores := [(0, [⟨0, 5, 7, 1⟩, ⟨1, 6, 8, 1⟩])] }
     ready iss s ∧ Sp.get (fun _ => []) (s.advance 0 0).istores 0 = [⟨1, 6, 8, 1⟩]) :=
  ⟨ready_svc.1, ready_svc.1.1, by decide, by decide +kernel, ready_of _ _ (by decide +kernel), by decide +kernel⟩
/-- Register words with zero in [10:0]; LUI's RA zero; a shift amount of 31. -/
theorem witness_ScalarOperations : ready iss svc ∧ bits (3 * 2 ^ 21 + 1 * 2 ^ 16 + 2 * 2 ^ 11) 10 0 = 0 ∧ fRA (3 * 2 ^ 21 + 0xFFFF) = 0 ∧
    fIMM (3 * 2 ^ 21 + 2 ^ 16 + 31) < 32 := ⟨ready_svc.1, by decide⟩
/-- The word and the pair at the last aligned address of the context's 1 MiB, and at its first. -/
theorem witness_ScalarLoads :
    (∀ p ∈ [(4, 0x3FFC), (8, 0x3FF8)], AccessOk iss (BitVec.ofNat 26 (2 * 2 ^ 21 + 12 * 2 ^ 17 + p.2)) p.1 { svc with areg := [(12, 0xFC000)] }) ∧
    (∀ k ∈ [4, 8], AccessOk iss (BitVec.ofNat 26 (2 * 2 ^ 21 + 12 * 2 ^ 17)) k svc) ∧
    ready iss svc ∧ fRD (2 * 2 ^ 21) % 2 = 0 ∧ fRD (15 * 2 ^ 21) < 16 := by
  unfold AccessOk
  exact ⟨by decide +kernel, by decide +kernel, ready_svc.1, by decide⟩
/-- The same accesses, and RD 14 for STP, RD 15 for STA. -/
theorem witness_ScalarStores :
    (∀ k ∈ [4, 8], ∀ rd ∈ [14, 15], AccessOk iss (BitVec.ofNat 26 (rd * 2 ^ 21 + 12 * 2 ^ 17)) k svc) ∧ ready iss svc ∧
    fRD (14 * 2 ^ 21 + 12 * 2 ^ 17) % 2 = 0 ∧ fRD (15 * 2 ^ 21 + 12 * 2 ^ 17) < 16 := by
  unfold AccessOk
  exact ⟨by decide +kernel, ready_svc.1, by decide⟩
theorem witness_AddressRegisterOperations : ready iss svc ∧
    (let w := 15 * 2 ^ 21 + 15 * 2 ^ 16 + 31 * 2 ^ 11
     fRD w < 16 ∧ fRA w < 16 ∧ bits w 10 0 = 0) ∧
    (let w := 15 * 2 ^ 21 + 30 * 2 ^ 16
     fRD w < 16 ∧ fRA w % 2 = 0 ∧ fRB w = 0 ∧ bits w 10 0 = 0) ∧
    (let w := 30 * 2 ^ 21 + 15 * 2 ^ 16
     fRD w % 2 = 0 ∧ fRA w < 16 ∧ fRB w = 0 ∧ bits w 10 0 = 0) ∧
    (let w := 3 * 2 ^ 21 + 31 * 2 ^ 16
     fRD w < 4 ∧ fRB w = 0 ∧ bits w 10 0 = 0) := ⟨ready_svc.1, by decide⟩
/-- Every condition up to 5, a return stack of 7 and of 1, and a LOOP word. -/
theorem witness_BranchesAndCalls : ready iss svc ∧ (∀ c ≤ 5, bits (c * 2 ^ 23 + 8191) 25 23 ≤ 5) ∧ bits 8191 25 13 = 0 ∧
    (let s := { svc with ctxs := [(0, { Ctx.reset with st := .running, rstack := [1, 2, 3, 4, 5, 6, 7] })] }
     ((s.ctx 0 0).rstack.length < 8 ∧ (s.ctx 0 0).rstack = 1 :: [2, 3, 4, 5, 6, 7]) ∧ ready iss s) ∧
    bit (3 * 2 ^ 23 + 8191) 25 = false ∧ bits (3 * 2 ^ 23 + 8191) 22 13 = 0 :=
  ⟨ready_svc.1, by decide, by decide, ⟨by decide +kernel, ready_of _ _ (by decide +kernel)⟩, by decide⟩
/-- ISTORE in normal service and outside it, IFENCE over a store that is pending as the bundle issues. -/
theorem witness_InstructionStores : ready iss svc0 ∧ svc0.mode 0 = 0 ∧ ready iss svc ∧ svc.mode 0 ≠ 0 ∧
    (let w := 28 * 2 ^ 21 + 8191
     fRA w = 0 ∧ bits w 15 13 = 0 ∧ fRD w % 4 = 0) ∧
    (let s : State := { svc with istores := [(0, [⟨0, 5, 7, 3⟩])] }
     ready iss s ∧ Sp.get (fun _ => []) (s.advance 0 0).istores 0 = [⟨0, 5, 7, 2⟩]) :=
  ⟨ready_svc.2.1, by decide +kernel, ready_svc.1, by decide +kernel, by decide, ready_of _ _ (by decide +kernel), by decide +kernel⟩
/-- An accepted burst of a step, and the step dispatched to folio 0. -/
def burst0 : Burst :=
  { bid := 1, seq := 1, typ := 0, fmt := 0, len := 64, elems := 16, crc := 0, next := 1, got := 0, timer := 9600, zone := 2, grans := [0], acc := true, spent := false }
def step0 : Step := { Step.fresh burst0 with dispatched := true, mask := 1 }
/-- A context in a step entry and in a doorbell's, with nothing else to do. -/
def entryOf (step : Bool) : Entry := ⟨step, 0, 0, 0, 0, 0, 0, 0, 0, 0⟩
def svcE (step : Bool) : State := { svc with
  ctxs := [(0, { Ctx.reset with st := .running, entry := some (entryOf step) })]
  strm := [(0, { Strm.reset with st := .active, step := some step0 })] }
theorem witness_EntriesEndWithSdoneAndYield : ∀ b, ready iss (svcE b) ∧ (((svcE b).ctx 0 0).entry = some (entryOf b) ∧
    ((svcE b).ctx 0 0).queue = [] ∧
    (∀ k : Fin 4, k.val ≠ 0 → ((svcE b).ctx 0 k.val).st ≠ .ready ∧ ((svcE b).ctx 0 k.val).st ≠ .suspended) ∧
    (svcE b).logical 0 = some 0 ∧ (((svcE b).str 0).step).isSome = true) := by
  intro b; cases b <;> exact ⟨ready_of _ _ (by decide +kernel), by decide +kernel⟩
/-- Tags 0 to 3 of the range are FREE, OPEN, CLOSED and DONE; LIM 0, and LIM 1 where normal service asks for one. -/
theorem witness_FolioTagOperations : ready iss svcG ∧ (svcG.logical 0 = some 0 ∧ svcG.dTaglo 0 0 = 0 ∧ svcG.dTagn 0 0 = 64 ∧
    (∀ k ∈ [0, 1, 2, 3, 63], fTAG (k * 2 ^ 19) = k ∧ bits (k * 2 ^ 19) 18 16 = 0 ∧ fLIM (k * 2 ^ 19) = 0 ∧ fLIM (k * 2 ^ 19 + 1) ≠ 0) ∧
    (svcG.tag 0 0).st = .free ∧ (svcG.tag 0 1).st = .opened ∧ (svcG.tag 0 2).st = .closed ∧ (svcG.tag 0 3).st = .done ∧
    (svcG.ctx 0 0).doneQ = [BitVec.ofNat 32 (folioTag 0 3)] ∧ (svc.ctx 0 0).doneQ = [] ∧
    (let w := 31 * 2 ^ 21
     fRA w = 0 ∧ fRB w = 0 ∧ bits w 10 0 = 0)) := ⟨ready_svc.2.2, by decide +kernel⟩
/-! ## Witnesses: engine bundles -/

theorem witness_MemoryOperations : ∀ p ∈ [(opFmfill, eng 0 [(1, 57), (1, 48), (2, 43)]), (opFmcopy, eng 0 [(1, 57), (2, 53), (1, 48)]),
      (opObld, eng 0 [(0, 57), (1, 53), (2, 48)]), (opObst, eng 0 [(1, 57), (0, 53), (2, 48)]), (opVtfill, eng 0 [(0, 57), (1, 48), (2, 43)]),
      (opVtcopy, eng 0 [(1, 57), (0, 53), (1, 48)]), (opVtld, eng 0 [(1, 57), (0, 53), (1, 48)]), (opVtst, eng 0 [(0, 57), (1, 53), (1, 48)])],
    LongIssues p.1 iss p.2 svc := all_long _ _ (by decide +kernel)
theorem witness_VectorIntegerOperations :
    ∀ p ∈ [opViadd, opVisub, opVimul, opVand, opVor, opVxor, opVshl, opVshrl, opVshra, opVimax, opVimin].map (fun op => (op, eng 0 vf))
      ++ [(opViota, eng 0 [(1, 56)]), (opVmov, eng 0 [(1, 56), (2, 51)]), (opVperm, eng 0 [(1, 56), (2, 51), (4, 41)]),
          (opVperm2, eng 0 (vf ++ [(4, 41)])), (opVshuf, eng 0 (vf ++ [(5, 35)]))],
    EngineIssues p.1 iss p.2 svc := all_issue _ _ (by decide +kernel)
theorem witness_VectorFloatingPointOperations :
    ∀ p ∈ [opVadd, opVsub, opVmul, opVmax, opVmin].map (fun op => (op, eng 0 vf))
      ++ [(opVfma, eng 0 (vf ++ [(4, 41)])), (opVabs, eng 0 [(1, 56), (2, 51)]), (opVneg, eng 0 [(1, 56), (2, 51)]), (opVsel, eng 0 (vf ++ [(1, 23)]))],
    EngineIssues p.1 iss p.2 svc := all_issue _ _ (by decide +kernel)
theorem witness_VectorCompares : ∀ p ∈ [(opVcmp, eng 0 [(2, 51), (3, 46), (2, 35), (1, 23)]), (opVicmp, eng 0 [(2, 51), (3, 46), (5, 35), (1, 23)])],
    EngineIssues p.1 iss p.2 svc := all_issue _ _ (by decide +kernel)
theorem witness_VectorConversions : ∀ p ∈ [(opVcvt, eng 0 [(1, 56), (2, 51), (1, 25)]), (opVpack, eng 0x1000 vf),
      (opVunpack, eng 0x1000 [(1, 56), (2, 51), (3, 21)])],
    EngineIssues p.1 iss p.2 svc := all_issue _ _ (by decide +kernel)
theorem witness_VectorLoadsAndStores : ∀ p ∈ [(opVld, eng 0 [(1, 56), (1, 52), (8, 47)]), (opVst, eng 0 [(1, 56), (1, 52), (8, 47)])],
    EngineIssues p.1 iss p.2 svc := all_issue _ _ (by decide +kernel)
theorem witness_StatisticsAndArgmaxFiles : ∀ p ∈ [(opVssq, eng 0 [(1, 56)]), (opVmv, eng 0 [(1, 56)]), (opVsclr, eng 0 []), (opVaclr, eng 0 []),
      (opVamax, eng 0 [(1, 56), (4, 48)]), (opVstred, eng 0 [(1, 50)]), (opVstst, eng 0 [(1, 50)]), (opVamred, eng 0 [(1, 54)])],
    EngineIssues p.1 iss p.2 svc := all_issue _ _ (by decide +kernel)
/-- RSET, RSTART, and every form of RGEN, by index and in run mode; a mask with lanes in it. -/
theorem witness_GeneratorInstructions : (∀ p ∈ [(opRset, eng 0 [(2, 56), (1, 51)]), (opRstart, eng 0 [(2, 56)]),
      (opRgen, eng 0 [(1, 56), (0, 53), (1, 51), (2, 44)]), (opRgen, eng 0 [(1, 56), (2, 53), (1, 51), (2, 44)]),
      (opRgen, eng 0 [(3, 53), (1, 51), (2, 49), (2, 44), (2, 39)]), (opRgen, eng 0 [(1, 55), (3, 53), (1, 51), (2, 49), (2, 39)]),
      (opRgen, eng 0 [(1, 56), (1, 55), (0, 53), (1, 51)])],
    EngineIssues p.1 iss p.2 svcG) ∧ bit (svcG.vm 0 0) 63 = true := ⟨all_issue _ _ (by decide +kernel), by decide +kernel⟩
theorem witness_RngJumpIsRepeatedStep : 2 ^ 48 - 1 < 2 ^ 48 := by decide
/-- N of 1 and 64 lanes; one entry of the function store. -/
theorem witness_SpecialFunctionsAndFunctionStore : ∀ p ∈ [(opSfn, eng 0 [(1, 56), (2, 51), (1, 28)]), (opSfn, eng 0 [(1, 56), (2, 51), (64, 28)]),
      (opFnload, eng 0 [(1, 57), (1, 42)]), (opFnload, eng 0 [(1, 57), (127, 50), (1, 42)])],
    EngineIssues p.1 iss p.2 svc := all_issue _ _ (by decide +kernel)
theorem witness_SoftmaxUnit : ∀ p ∈ [(opSxclr, eng 0 []), (opSxacc, eng 0 [(1, 56), (64, 47)]), (opSxred, eng 0 []),
      (opSxred, eng 0 [(1, 60), (9, 50)]), (opSxdiv, eng 0 [(1, 56), (2, 51), (64, 42)])],
    EngineIssues p.1 iss p.2 svc := all_issue _ _ (by decide +kernel)
/-- INT8 groups with an odd literal count, BF16 groups, each for 64 elements in 16 bytes of code. -/
def svcZ (bs : List Byte) : State := { svc with vat := svc.vat.write 0x1000 bs }
def gs8 : List (Nat × List Byte) := [(59, [1, 2, 3]), (0, [4, 5])]
def gs16 : List (Nat × List Byte) := [(62, [1, 2, 3, 4])]
theorem witness_ZeroRunCodesDecode :
    (let e := eng 0x4000 [(1, 57), (2, 53), (2, 48), (4, 43)]
     let s := svcZ (zeroRunCode 1 gs8)
     LongIssues opVzrd iss e s ∧ (issued iss e s).zrdCode 0 0 (s.ar 0 0 1) 16 = zeroRunCode 1 gs8 ++ List.replicate 6 0 ∧ s.sr 0 0 4 = 16) ∧
    (let e := eng 0x1000 [(1, 57), (2, 53), (2, 48), (4, 43)]
     let s := svcZ (zeroRunCode 2 gs16)
     LongIssues opVzrd iss e s ∧ (issued iss e s).zrdCode 0 0 (s.ar 0 0 1) 16 = zeroRunCode 2 gs16 ++ List.replicate 10 0 ∧ s.sr 0 0 4 = 16) ∧
    (∀ g ∈ gs8, groupOk 1 g) ∧ (∀ g ∈ gs16, groupOk 2 g) ∧ (zeroRunBytes 1 gs8).length = 64 * 1 ∧ (zeroRunBytes 2 gs16).length = 64 * 2 := by
  unfold groupOk
  exact ⟨⟨long_of _ _ _ _ (by decide +kernel), by decide +kernel, by decide +kernel⟩,
    ⟨long_of _ _ _ _ (by decide +kernel), by decide +kernel, by decide +kernel⟩, by decide +kernel, by decide +kernel, by decide +kernel, by decide +kernel⟩
/-- A full ring's credits and one message, both LZCOPY forms, LPMSG to this device and to seat 5. -/
def ring0 : Ring := ⟨0, 1, 0, 16, some 0, 0⟩
def svcB : State := { svcE true with scheds := [sch] }
theorem witness_LandingZoneOperations :
    (svcG.logical 0).bind (svcG.folioRing 1) = some ring0 ∧ svcG.ringAt 1 0 = some ring0 ∧ svcG.outRing 5 1 = some ⟨5, 1, 0, 4⟩ ∧
    (∀ p ∈ [(opLzput, eng 0 [(3, 57), (1, 53), (16, 44)]), (opLzcopy, eng 0 [(3, 57), (1, 53), (1, 52), (1, 51), (2, 42)]),
        (opLzcopy, eng 0 [(3, 57), (1, 53), (1, 52), (2, 42), (15, 28)])], LongIssues p.1 iss p.2 svcG) ∧
    (LongIssues opLzcopy iss (eng 0 [(4, 57), (1, 53)]) svcB ∧ svcB.ctxBurst 0 0 = some burst0) ∧
    (∀ p ∈ [(opLpmsg, eng 0 [(1, 57), (3, 53), (256, 44), (0x3FF, 34)]), (opLpmsg, eng 0 [(1, 57), (3, 53), (1, 44), (5, 34)])],
      EngineIssues p.1 iss p.2 svcG) ∧ 5 ≠ svcG.seat :=
  ⟨by decide +kernel, by decide +kernel, by decide +kernel, all_long _ _ (by decide +kernel), ⟨long_of _ _ _ _ (by decide +kernel), by decide +kernel⟩,
    all_issue _ _ (by decide +kernel), by decide +kernel⟩
/-- A release that leaves tiles, one of all four, one of a cancelled stream. -/
theorem witness_MovesAndFetchStreams :
    (∀ p ∈ [(opXfer, eng 0 [(7, 57), (0, 55), (1, 51), (2, 49), (1, 44), (1, 40)]),
        (opXstream, eng 0 [(2, 58), (7, 54), (1, 50), (1, 44), (4, 39), (1, 34), (2, 30)]),
        (opXrel, eng 0 [(1, 49)]), (opXrel, eng 0 [(4, 49)]), (opXrel, eng 0 [(1, 58), (1, 49)])], EngineIssues p.1 iss p.2 svcG) ∧
    svcG.fetchSt 0 0 0 = some fetch0 ∧ svcG.fetchSt 0 0 1 = some { fetch0 with cancelled := true } := ⟨all_issue _ _ (by decide +kernel), by decide +kernel⟩
/-- Nothing posted; a leader that waits for folio 0, with and without the receive that answers it. -/
def svcM : State := { svc with sreg := svc.sreg ++ [(10, 1)] }
def lead0 : McLead := ⟨0, 0, 0, 3, 256, 0, 1⟩
def recv0 : McRecv := ⟨0, 0, 0, 3, 256, 0x1000⟩
theorem witness_MulticastNeedsEveryReceive :
    EngineIssues opXmcast iss (eng 0 [(7, 57), (10, 52), (1, 47), (3, 31)]) svcM ∧ EngineIssues opXmrecv iss (eng 0 [(1, 57), (1, 52), (3, 36)]) svc ∧
    svc.mleads = [] ∧ svc.mcReady lead0 = none ∧ ({ svc with mrecvs := [recv0] } : State).mcReady lead0 = some [recv0] ∧
    EngineIssues opXmrecv iss (eng 0 [(1, 57), (1, 52), (3, 36)]) { svc with mleads := [lead0] } :=
  ⟨issues_of _ _ _ _ (by decide +kernel), issues_of _ _ _ _ (by decide +kernel), rfl, by decide +kernel, by decide +kernel,
    issues_of _ _ _ _ (by decide +kernel)⟩
/-! ## Witnesses: spine, arrays, gates, sewing unit -/

/-- The encoding of a spine instruction, and states whose send slot holds 64 bytes of the context, or whose contribution waits. -/
def spE : Eng := eng 0 [(1, 57), (2, 53), (4, 48), (9, 38)]
def svcS (k : Nat) : State := { svc with slots := [(0, some { ctx := 0, tag := 0, bytes := List.replicate k 1 })] }
def slotE (ac op : Nat) : Eng := eng ac [(2, 53), (4, 48), (9, 38), (op, 34)]
/-- Folio 1 runs too; it is not the first of the plane. -/
def svc1 : State := { put (descWords 1 0 ++ [(SEQ_CTX 1 0, 2 ^ 31)]) svc with
  ctxs := [(0, { Ctx.reset with st := .running }), (4, { Ctx.reset with st := .running })]
  sreg := svc.sreg ++ [(132, 16)], areg := svc.areg ++ [(65, 0x1000), (66, 0x2000)] }
theorem witness_SpineInstructionsHandOver :
    (∀ op ∈ [opSPRED, opSPGATH, opSPBCAST, opSPSTAT, opSPARG, opSPCARRY], EngineIssues (opSpine op) iss spE svc) ∧
    svc.slot 0 = none ∧ svc.isFirst 0 9 false = true ∧ EngineIssues (opSpine opSPBAR) iss (eng 0 [(9, 38)]) svc ∧
    (EngineIssues (opSpine opSPBCAST) ⟨1, 0, .ok, 0⟩ spE svc1 ∧ svc1.isFirst 1 9 false = false ∧ svc1.slot 1 = none) ∧
    (∀ p ∈ [(opSPRED, 64), (opSPGATH, 64), (opSPBCAST, 64), (opSPSTAT, 192), (opSPARG, 128), (opSPCARRY, 64)],
      EngineIssues (opSpine p.1) iss (slotE 0 0) (svcS p.2) ∧ spBytes p.1 .fp32 0 16 true = p.2) := by
  have h : ∀ op ∈ [opSPRED, opSPGATH, opSPBCAST, opSPSTAT, opSPARG, opSPCARRY], issuesB (opSpine op) iss spE svc = true := by decide +kernel
  have h' : ∀ p ∈ [(opSPRED, 64), (opSPGATH, 64), (opSPBCAST, 64), (opSPSTAT, 192), (opSPARG, 128), (opSPCARRY, 64)],
      issuesB (opSpine p.1) iss (slotE 0 0) (svcS p.2) = true ∧ spBytes p.1 .fp32 0 16 true = p.2 := by decide +kernel
  exact ⟨fun op ho => issues_of _ _ _ _ (h op ho), by decide +kernel, by decide +kernel, issues_of _ _ _ _ (by decide +kernel),
    ⟨issues_of _ _ _ _ (by decide +kernel), by decide +kernel, by decide +kernel⟩, fun p hp => ⟨issues_of _ _ _ _ (h' p hp).1, (h' p hp).2⟩⟩
/-- Contributions of both folios of the plane, of one of them, and of an SXRED. -/
def contrib (op : Nat) : Contrib :=
  { op := op, fmt := 0, rop := 0, count := 1, stag := 9, scope := false, dest := 0x2000, ctx := 0, bytes := List.replicate 8 0, field := 2 }
def svcK (op : Nat) (both : Bool) : State := { svc1 with contribs := (0, [contrib op]) :: (if both then [(1, [contrib op])] else []) }
theorem witness_CollectivesCompleteTogether :
    (∀ op ∈ [opSPRED, opSXRED, opSPBAR], (svcK op true).current 0 = some ⟨9, []⟩ ∧
      (svcK op true).givers 0 9 = [(0, contrib op), (1, contrib op)] ∧ (svcK op true).allGiven 0 9 = true) ∧
    (svcK opSPRED false).givers 0 9 = [(0, contrib opSPRED)] ∧ (svcK opSPRED false).allGiven 0 9 = false := by decide +kernel
/-- Sixteen products of the largest E4M3 value, and a code of every narrow format. -/
theorem witness_EightBitChunksAreExact : Fmt.e4m3 ∈ [Fmt.int8, .mxint8, .e4m3] ∧
    (List.replicate 16 (0x7E, 0x7E) : List (Nat × Nat)).length ≤ 16 ∧
    (∀ t ∈ (List.replicate 16 (0x7E, 0x7E) : List (Nat × Nat)), t.1 < 256 ∧ Fmt.e4m3.decode t.1 = .fin false 448) ∧ 0x3F < 2 ^ Fmt.e3m2.bits := by
  decide +kernel
/-- Weight tiles from the operand buffer and from folio memory. -/
theorem witness_WeightTileLoads : ∀ p ∈ [(opAload, eng 0x6000 [(10, 54)]), (opAload, eng 0x6000 [(1, 58), (10, 54)]), (opAload, eng 0x9000 [(10, 54)])],
    EngineIssues p.1 iss p.2 svc := all_issue _ _ (by decide +kernel)
/-- BF16 weights of 2^127 in array 0 and inputs of one BF16 value, whose products overflow FP32. -/
def big : WTile := tileOf 1 0x7F00
def svcO (v : Byte) : State := { svc with
  arr := [(0, { ArrSt.reset with act := big, shd := big })]
  ob := svc.ob.write 0 ((List.replicate 16 [(0 : Byte), v]).flatten) }
def drainE (swap : Nat) : Eng := eng (0x1000 + 4 * 15) [(swap, 55), (1, 31), (10, 27), (2, 23), (4, 17)]
def accE (first last swap : Nat) : Eng := eng 0x6000 [(1, 58), (first, 57), (last, 56), (swap, 55), (1, 38), (1, 31), (10, 27), (2, 23), (4, 17)]
/-- The first attempt of a drain's first row over the operands of a state. -/
def firstRow (swap : Nat) (s t : State) : DotTile := (asDrain 0 0 (drainE swap) s).attempt 0 0 ((asDrain 0 0 (drainE swap) s).operands 0 t)
/-- Drain mode without and with a row due, accumulate mode at FIRST with and without LAST. -/
theorem witness_ArrayStreams :
    (LongIssues opAstream iss (drainE 1) (svcO 0) ∧ (firstRow 1 (svcO 0) ((issued iss (drainE 1) (svcO 0)).swapArr 0 0)).due = false) ∧
    (LongIssues opAstream iss (drainE 0) (svcO 0x40) ∧ (firstRow 0 (svcO 0x40) (issued iss (drainE 0) (svcO 0x40))).due = true) ∧
    (svcO 0).dotS 0 0 (asFields (drainE 0)) 0 = 1 ∧
    (LongIssues opAstream iss (accE 1 0 1) svcA ∧ asMODE (accE 1 0 1) = true ∧ asLAST (accE 1 0 1) = false ∧ asSWAP (accE 1 0 1) = true) ∧
    (LongIssues opAstream iss (accE 1 1 0) svcA ∧ asLAST (accE 1 1 0) = true) := by
  refine ⟨⟨long_of _ _ _ _ ?_, ?_⟩, ⟨long_of _ _ _ _ ?_, ?_⟩, ?_, ⟨long_of _ _ _ _ ?_, ?_⟩, ⟨long_of _ _ _ _ ?_, ?_⟩⟩ <;> decide +kernel
/-- A fold of one output, and one whose output tile overflows: BF16 weights of 2^127 at 0x100 of the operand buffer. -/
def foldE (ac : Nat) : Eng := eng ac [(15, 32), (10, 28), (12, 24), (2, 20), (4, 14)]
def svcF : State := { svcO 0x40 with
  ob := (List.range 16).foldl (fun m i => m.write (0x100 + 2 * i) [0x00, 0x7F]) (svcO 0x40).ob
  areg := svc.areg ++ [(12, 0x200000100)] }
def foldAt (ac : Nat) (s : State) (j : Nat) : State := (List.range j).foldl (fun t x => afUnit 0 0 (foldE ac) s x t) (issued iss (foldE ac) s)
theorem witness_ArrayFolds :
    (LongIssues opAfold iss (foldE 0x6000) svcA ∧ (afN (foldE 0x6000) + 63) / 64 * (afTilesK (foldE 0x6000) * afM (foldE 0x6000)) = 1 ∧
      ∀ j ≤ 1, ((foldAt 0x6000 svcA j).ctx 0 0).due = none) ∧
    (LongIssues opAfold iss (foldE 0x103C) svcF ∧ ((foldAt 0x103C svcF 0).ctx 0 0).due = none ∧
      ((foldAt 0x103C svcF 1).ctx 0 0).due.isSome = true) := by
  refine ⟨⟨long_of _ _ _ _ ?_, ?_, ?_⟩, ⟨long_of _ _ _ _ ?_, ?_, ?_⟩⟩ <;> decide +kernel
/-- An MVMUL of one row: its weights 2^127, the latch's elements one BF16 value; not due, due once more, or twice. -/
def mulE (ac : Nat) : Eng := eng ac [(1, 50), (10, 46), (1, 44), (2, 40), (4, 36)]
def svcLat (v : Nat) : State := { svc with
  fm := svc.fm.write 0 ((List.replicate 16 [(0 : Byte), 0x7F]).flatten)
  latchEl := (List.range 16).map (fun k => (k, BitVec.ofNat 64 v)), latchFmt := [(0, some (1, false))] }
def mulRow (s t : State) : DotTile := (mvInstr 0 0 (mulE 0x103C) s).attempt 0 0 ((mvInstr 0 0 (mulE 0x103C) s).operands 0 t)
def job (v : Nat) : DotJob := ⟨mulE 0x103C, 0, 0, (svcLat v).sregs 0 0, (svcLat v).aregs 0 0, (svcLat v).gen 0 0, [mulRow (svcLat v) (svcLat v)]⟩
def svcJ (v : Nat) : State := { svcLat v with jobs := [(0, [job v])] }
/-- A context inside a drain whose first row is due once more. -/
def inDrain (v : Byte) : Resume :=
  ⟨BitVec.ofNat 128 (bundleOf 0x11 (drainE 0)), 0, 1, false, 1, (svcO v).sregs 0 0, (svcO v).aregs 0 0, []⟩
def svcDue (v : Byte) : State := { svcO v with
  ctxs := [(0, { Ctx.reset with st := .running, inside := some (inDrain v), due := some (firstRow 0 (svcO v) (svcO v)) })] }
theorem witness_OverflowRerunsRaiseTheCount :
    svc.jobsOf 0 = [] ∧ svc.dueCtx 0 = none ∧ (svcJ 0x4000).jobsOf 0 = job 0x4000 :: [] ∧
    (∀ v ∈ [0x4000, 0x4400], (job v).tiles = [] ++ mulRow (svcLat v) (svcLat v) :: [] ∧ (mulRow (svcLat v) (svcLat v)).due = true) ∧
    (((job 0x4000).instr 0 (svcJ 0x4000)).again (mulRow (svcLat 0x4000) (svcLat 0x4000))).due = false ∧
    (((job 0x4400).instr 0 (svcJ 0x4400)).again (mulRow (svcLat 0x4400) (svcLat 0x4400))).due = true ∧
    (∀ v ∈ [0x40, 0x44], (svcDue v).dueCtx 0 = some (0, firstRow 0 (svcO v) (svcO v), inDrain v) ∧ ((svcDue v).ctx 0 0).halting = false ∧
      bundleOpc (inDrain v).bundle.toNat = 0x11) ∧
    ((asDrain 0 0 (drainE 0) (svcO 0x40)).again (firstRow 0 (svcO 0x40) (svcO 0x40))).due = false ∧
    ((asDrain 0 0 (drainE 0) (svcO 0x44)).again (firstRow 0 (svcO 0x44) (svcO 0x44))).due = true := by
  decide +kernel
/-- MVLD from folio memory with CLR, in whole MX blocks, and from the broadcast data; MVMUL with no row due, with one, behind one that is
kept, and as a replayed step of a real-time class in a reserved gathering with a full bucket. -/
def svcT0 : State := { put [(CLASS_TBL 0 2, 3 * 2 ^ 24 + 1024), (GATH_TBL 0 1, 3 * 2 ^ 30)] (svcLat 0) with
  ctxs := [(0, { Ctx.reset with st := .running, entry := some (entryOf true) })]
  strm := [(0, { Strm.reset with st := .replay, step := some { step0 with replayed := true } })], tokens := [(0, 4)] }
theorem witness_MatrixVectorPath :
    (∀ e ∈ [eng 0 [(1, 59), (32, 31), (1, 30), (1, 26)], eng 0x9000 [(40, 31), (1, 30), (1, 26)]], EngineIssues opMvld iss e svc) ∧
    EngineIssues opMvld iss (eng 0 [(32, 31)]) { svcE true with casts := [(0, List.replicate 128 0)] } ∧
    (EngineIssues opMvmul iss (mulE 0x103C) (svcLat 0) ∧ (mulRow (svcLat 0) ((svcLat 0).advance 0 0)).due = false ∧ (svcLat 0).jobsOf 0 = [] ∧
      (svcLat 0).tokenClass 0 0 = none) ∧
    (EngineIssues opMvmul iss (mulE 0x103C) (svcLat 0x4000) ∧ (mulRow (svcLat 0x4000) ((svcLat 0x4000).advance 0 0)).due = true) ∧
    (EngineIssues opMvmul iss (mulE 0x103C) (svcJ 0x4000) ∧ (svcJ 0x4000).jobsOf 0 ≠ []) ∧
    (EngineIssues opMvmul iss (mulE 0x103C) svcT0 ∧ svcT0.tokenClass 0 0 = some 0) := by
  have mul (z : State) (h : issuesB opMvmul iss (mulE 0x103C) z = true) := issues_of _ _ _ _ h
  refine ⟨?_, issues_of _ _ _ _ ?_, ⟨mul _ ?_, ?_⟩, ⟨mul _ ?_, ?_⟩, ⟨mul _ ?_, ?_⟩, ⟨mul _ ?_, ?_⟩⟩
  · have h : ∀ e ∈ [eng 0 [(1, 59), (32, 31), (1, 30), (1, 26)], eng 0x9000 [(40, 31), (1, 30), (1, 26)]],
        issuesB opMvld iss e svc = true := by decide +kernel
    exact fun e he => issues_of _ _ _ _ (h e he)
  all_goals decide +kernel
/-- A GUPD of each class, of one unit, and of 512; a program at 0x1000 for slot 3. -/
theorem witness_GateInstructions :
    (∀ p ∈ [0, 1, 2, 3, 4, 15].map (fun k => (opGupd, eng 0 [(k, 57), (1, 47), (16, 23)]))
        ++ [(opGupd, eng 0 [(512, 47), (1024, 23)]), (opGpload, eng 0 [(3, 59), (1, 55)])], EngineIssues p.1 iss p.2 svcP) ∧
    (Sp.get (fun _ => []) svcP.gatePend 0 = [] ∧ (svcP.gates 0).all (fun x => svcP.gateNeeds 0 x != 0) = true) :=
  ⟨all_issue _ _ (by decide +kernel), by decide +kernel⟩
/-- A four-gate update of two units whose eight pre-activations are in. -/
def gupd2 : Gupd := ⟨0, 2, 0, 0, 16, 1, 0, [0, 0, 0, 0], false, 0, 0, 0, [0x3F800000, 0, 0x3F000000, 0, 0, 0x3F800000, 0, 0x40000000]⟩
theorem witness_FourGateCellsCompute :
    (let s : State := { svc with gateQ := [(0, [gupd2])] }
     s.gates 0 = gupd2 :: [] ∧ gupd2.cls = 0 ∧ gupd2.rows ≤ 1 ∧ 0 < gupd2.units ∧ gupd2.units ≤ 512 ∧ gupd2.pre.length = 4 * gupd2.units ∧
       s.slotBusy 0 = false) := by decide +kernel
/-- Direct scans of 16 and 256 lanes to the file, from zero and from the file; a summary to the send slot. -/
theorem witness_ScansAndSummaries :
    (∀ p ∈ [(opSscan, eng 0 [(16, 50), (8, 45), (1, 39)]), (opSscan, eng 0 [(256, 50), (8, 45), (1, 43)]), (opSsumm, eng 0 [(16, 50), (8, 45), (3, 39)])],
      LongIssues p.1 iss p.2 svc) ∧
    (let e := eng 0 [(16, 50), (8, 45), (1, 39)]
     wMODE e = false ∧ wPREC e = false ∧ wHOUT e = 0 ∧ wCIN e ≤ 1 ∧ wCOUT e ≤ 1) :=
  ⟨all_long _ _ (by decide +kernel), by decide⟩
/-- Two taps over four channels: padded with zeros, without padding, and from a history. -/
def convE (pad hist : Nat) : Eng := eng 0 [(4, 48), (2, 44), (pad, 42), (8, 37), (10, 33), (hist, 32)]
theorem witness_ConvolutionsCompute :
    (∀ p ∈ [(opSconv, convE 1 0), (opSconv, convE 0 0)], LongIssues p.1 iss p.2 svcC) ∧ vcHIST (convE 0 0) = false ∧
    (∀ k ∈ [0, 1, 2, 4], svcC.fmKey 0 0 (addrOf (svcC.convA 0 0 (convE 0 0) k)) + 4 * 2 * 4 ≤ svcC.fmKey 0 0 (addrOf (svcC.convA 0 0 (convE 0 0) 3)) ∨
      svcC.fmKey 0 0 (addrOf (svcC.convA 0 0 (convE 0 0) 3)) + 16 ≤ svcC.fmKey 0 0 (addrOf (svcC.convA 0 0 (convE 0 0) k))) :=
  ⟨all_long _ _ (by decide +kernel), by decide +kernel, by decide +kernel⟩
theorem witness_ConvolutionsKeepTheirHistory : LongIssues opSconv iss (convE 0 1) svcC ∧ vcHIST (convE 0 1) = true :=
  ⟨long_of _ _ _ _ (by decide +kernel), by decide⟩
/-- An inbox with room for its fourth carry, a full one, and a way with nothing on it. -/
def carry0 : Carry := ⟨3, 0, 0x3FF, none, [(0x3F800000, 0)]⟩
theorem witness_CarriesEnterInboxesInOrder :
    svc.logical 0 = some 0 ∧ Sp.get (fun _ => []) ({ svc with carries := [(0, [carry0])] } : State).carries 0 = carry0 :: [] ∧
    (({ svc with inbox := [(0, List.replicate 3 carry0)] } : State).inboxOf 0).length < 4 ∧
    4 ≤ (({ svc with inbox := [(0, List.replicate 4 carry0)] } : State).inboxOf 0).length ∧ Sp.get (fun _ => []) svc.carries 0 = [] := by
  decide +kernel
/-! ## Witnesses: interrupted instructions, the sequencer, steps -/

def copyE : Eng := eng 0 [(1, 57), (2, 53), (1, 48)]
theorem port_open (p : Port) (a : Nat) (s : State) (h : (decide (p = .jtag → s.rbit DEV_SEAL 1 = true) && s.pageShown (a / 4096)
    && s.pageOn (a / 4096)) = true) : PortOpen p a s := by
  simp only [Bool.and_eq_true, decide_eq_true_eq] at h
  exact ⟨h.1.1, h.1.2, h.2⟩
/-- A record at unit 1 of the copy, and context 0 of folio 0 inside of it while context 1 is raised, with and without a due tile. -/
def copyRec : Resume := { svc.longRec 0 0 4 (bundleOf 0x91 copyE) with pos := 1 }
def svcK1 (due : Option DotTile) : State := { svc with
  ctxs := [(0, { Ctx.reset with st := .running, inside := some copyRec, due := due }), (1, { Ctx.reset with st := .ready, queue := [entryOf false] })] }
def due0 : DotTile := ⟨0, 0, true, false, [], []⟩
/-- Every memory operation with units left, the copy's cut at its first boundary and its last, a record of a copy, and none. -/
theorem witness_InterruptedInstructionsContinueExactly :
    0x91 < 256 ∧
    (∀ p ∈ [(opFmfill, eng 0 [(1, 57), (1, 48), (2, 43)]), (opFmcopy, copyE)], LongIssues p.1 iss p.2 svc) ∧
    (svc.memWf = true ∧ 0 ≤ 31 ∧ 31 < (opFmcopy 0 0 copyE svc).total svc ∧
      (∀ k ∈ [1, 31], k ≠ 0 ∧ k < (opFmcopy 0 0 copyE svc).total (issued iss copyE svc))) ∧
    (let s := svcK1 none
     s.running 0 = some 0 ∧ s.raised 0 0 = some 1 ∧ (s.ctx 0 1).queue ≠ [] ∧ (s.ctx 0 0).inside = some copyRec ∧ (s.ctx 0 0).due = none) ∧
    (svc.ctx 0 0).resume.valid = false ∧
    (let s : State := { svc with ctxs := [(0, { Ctx.reset with st := .running, resume := { copyRec with valid := true } })] }
     ((s.ctx 0 0).st = .running ∧ (s.ctx 0 0).inside = none ∧ s.raised 0 0 = none ∧ (s.ctx 0 0).resume.valid = true ∧
       (longOf (bundleOpc (s.ctx 0 0).resume.bundle.toNat)).isSome = true) ∧ sound iss s) := by
  refine ⟨by decide, all_long _ _ ?_, ?_, ?_, ?_, ?_, ?_⟩ <;> (try unfold sound) <;> decide +kernel
/-- Level 1 accepted; debug mode with one context; an LZPUT without credits; the last trap code. -/
theorem witness_TrapsWaitsAndFailedChecks : mayIssue iss svc ∧ mayIssue iss svcD ∧
    ((svc.setReg IFACE_LEVEL 0x10).level = 1 ∧ (1 : BitVec 26) ≠ 0 ∧
      svcD.mode 0 = 4 ∧ (∀ k : Fin 4, k.val ≠ 0 → (svcD.ctx 0 k.val).st ≠ .ready ∧ (svcD.ctx 0 k.val).st ≠ .suspended) ∧
      (let e := eng 0 [(3, 57), (1, 53), (16, 44)]
       lowestTrap (opLzput 0 0 e svc).traps = none ∧ (opLzput 0 0 e svc).wait = some .credit ∧ lowestTrap (scalarSlot true 0 0 e.sc svc).traps = none)) ∧
    EngineIssues opVadd iss (eng 0 vf) svc :=
  ⟨ready_svc.1.1, (ready_of _ _ (by decide +kernel)).1, by decide +kernel, issues_of _ _ _ _ (by decide +kernel)⟩
/-- An interrupt that takes context 0, and one that a due tile holds off; a doorbell while it runs, with 15 entries queued; HALT, with and
without a due tile, and GO in debug mode; an idle folio. -/
theorem witness_SequencerEvents :
    (∀ d ∈ [none, some due0], (svcK1 d).running 0 = some 0 ∧ (svcK1 d).raised 0 0 = some 1 ∧ ((svcK1 d).ctx 0 1).queue = entryOf false :: [] ∧
      ((svcK1 d).ctx 0 0).due = d) ∧
    (∀ p, p ≠ Port.jtag → PortOpen p (SEQ_CTX 0 0) svc) ∧ PortOpen .d2d (SEQ_CTX 0 0) svcD ∧
    (svc.ctxEn 0 0 = true ∧
      (let s : State := { svc with ctxs := [(0, { Ctx.reset with st := .running, queue := List.replicate 15 (entryOf false) })] }
       (s.ctx 0 0).queue.length < 16 ∧ (s.running 0).isSome = true) ∧
      (∀ x ∈ [{ Ctx.reset with st := .running }, { Ctx.reset with st := .running, due := some due0 },
          { Ctx.reset with st := .halted, entry := some (entryOf false) }],
        let s : State := { svcD with ctxs := [(0, x)] }
        s.mode 0 = 4 ∧ s.ctx 0 0 = x ∧ (x.st = .running ∨ x.entry.isSome = true) ∧
          (∀ k : Fin 4, k ≠ 0 → (s.ctx 0 k.val).st = .off)) ∧
      svc.retired 0 = false ∧ (∀ k : Fin 4, (svc.ctx 0 k.val).queue = [])) := by
  refine ⟨by decide +kernel, ?_, port_open _ _ _ (by decide +kernel), by decide +kernel⟩
  intro p hp
  cases p
  case jtag => exact absurd rfl hp
  all_goals exact port_open _ _ _ (by decide +kernel)
/-- A context on a step, in each wait that a bound counts; a mover with a move. -/
def svcW (w : Option WaitK) : State := { svcB with ctxs := [(0, { Ctx.reset with st := .running, entry := some (entryOf true), wait := w })] }
def move0 : Move := ⟨7, 0, 0, 0, .hbm 0, .fm 0x1000, 512, 1, [], none, [], .xfer none, [], true⟩
theorem witness_MissedBoundsFailTheStep :
    (∀ w ∈ [none, some WaitK.credit, some .tag, some .latch, some (.inbox 3)],
      WorksOn 0 0 0 step0 (svcW w) ∧ ((svcW w).ctx 0 0).wait = w ∧ (∀ code ∈ [0x20, 0x21, 0x22, 0x23], (svcW w).triggers 0 code 0 2 false = false)) ∧
    (svc.dWlim 0 0 ≠ 0 ∧ ((svcW none).ctx 0 0).entry.isSome = true ∧ (svcW none).retired 0 = false ∧
      ({ svc with movers := [(0, [move0])] } : State).mover 0 = move0 :: []) := by
  refine ⟨fun w hw => ⟨⟨⟨entryOf true, ?_, rfl, rfl⟩, ?_⟩, ?_, ?_⟩, by decide +kernel⟩
  · rfl
  · rfl
  · rfl
  · revert w; decide +kernel
/-- A stream ACTIVE with the held burst of a step not yet accepted, to be dispatched, released, run again, committed, recorded. -/
def heldB : Burst := { burst0 with acc := false }
def svcT (x : Strm) : State := { svc with strm := [(0, { x with st := .active, gen := 1 })], rclk := 200 }
def done0 : Step := { step0 with ended := 1 }
theorem witness_StepsAreAcceptedReleasedAndCommitted :
    (let s := svcT { Strm.reset with held := [heldB] }
     (s.str 0).held = heldB :: [] ∧ heldB.acc = false ∧ (s.str 0).lastAccept + 96 ≤ s.rclk ∧ s.substs = [] ∧ (s.str 0).st = .active) ∧
    svc.clsEn 0 = true ∧
    (let s := svcT { Strm.reset with held := [burst0] }
     s.toDispatch 0 = some (Step.fresh burst0) ∧ (Step.fresh burst0).replayed = false ∧ s.gathReady 0 = true ∧
       s.queuesFree 0 (Step.fresh burst0) = true ∧ s.bad = [] ∧ s.classMask 0 0 = 1 ∧ s.classCtx 0 0 = some 0) ∧
    (let s := svcT { Strm.reset with step := some done0 }
     (s.str 0).step = some done0 ∧ done0.released = false ∧ done0.replayed = false ∧ s.stepDone 0 done0 = true ∧ s.resultReady 0 done0 = true ∧
       s.mayRelease = true ∧ (s.str 0).mirror = false) ∧
    (∀ k ∈ [0, 1, 2], let y := { step0 with failed := true, attempt := k }
     let s := svcT { Strm.reset with step := some y }
     (s.str 0).step = some y ∧ y.released = false ∧ y.final = none ∧ y.lost = false ∧ y.badRead = none ∧ (y.attempt < 2 ∨ 2 ≤ y.attempt) ∧
       y.uncounted = false ∧ (s.str 0).st = .active ∧ s.withdrawn = false) ∧
    (let y := { step0 with released := true, failedAfter := true }
     y.released = true ∧ y.failedAfter = true ∧ y.attempt < 2 ∧ y.final = none) ∧
    (∀ m ∈ [false, true], let y := { done0 with released := true, mirrorAck := m }
     let s := svcT { Strm.reset with step := some y, mirror := m }
     (s.str 0).step = some y ∧ s.stepDone 0 y = true ∧ s.moverHolds 0 = false ∧ y.failedAfter = false ∧ y.rerun = false ∧
       ((s.str 0).mirror = true → y.mirrorAck = true)) ∧
    (((svcT { Strm.reset with recordDue := true }).str 0).recordDue = true ∧ svc.pcsActive = true) ∧
    (∀ m ∈ [1, 2], ∀ r ∈ [false, true], let y := { done0 with replayed := true, released := r, covered := m }
     let s : State := { svc with strm := [(0, { Strm.reset with st := .replay, gen := 1, step := some y, backlogged := 2 })] }
     (s.str 0).step = some y ∧ (s.str 0).st = .replay ∧ 0 < m ∧ m ≤ (s.str 0).backlogged ∧ s.stepDone 0 y = true ∧
       s.resultReady 0 y = true ∧ s.mayRelease = true ∧ s.moverHolds 0 = false ∧ (s.str 0).mirror = false) := by
  and_intros <;> decide +kernel
/-- A flit in order, one with no curd, one of another burst, one after the hold time, one below LAST_SEQ. -/
def flit (fidx bid : Nat) : Flit := ⟨false, fidx, 4096, bid, List.replicate 32 0⟩
def svcU (c : Option Burst) (f : Flit) : State := { svc with
  burstIn := [f], strm := [(0, { Strm.reset with st := .active, gen := 1, curd := c, lastSeq := 5 })] }
theorem witness_BurstFlitsFillTheirCurd :
    (let s := svcU (some burst0) (flit 1 1)
     s.burstIn = flit 1 1 :: [] ∧ s.names 4096 = true ∧ (s.str 0).curd = some burst0 ∧ burst0.bid = 1 ∧ burst0.timer ≠ 0 ∧ (1 = burst0.next) ∧
       burst0.got + 32 < burst0.len ∧ 32 + burst0.len ≤ 256 * burst0.grans.length ∧ burst0.grans.Nodup) ∧
    ((svcU none (flit 1 1)).str 0).curd = none ∧ burst0.bid ≠ (flit 1 2).bid ∧ { burst0 with timer := 0 }.timer = 0 ∧
    ofBytes (((flit 0 1).payload.drop 8).take 4) ≤ ((svcU none (flit 0 1)).str 0).lastSeq ∧
    (let s := svcU (some { burst0 with timer := 0 }) (flit 1 1)
     (s.str 0).curd = some { burst0 with timer := 0 } ∧ (s.str 0).st ≠ .importing) := by decide +kernel
/-! ## Witnesses: stream commands, memories, ports, links, charter -/

/-- The stream registers of a command: its handle, and a descriptor of class 0 with a wheel of one granule and no mirror. -/
def cmdRegs : List (Nat × Nat) := [(STRM_CMD_HANDLE, 4096), (STRM_DESC 4, 0x00010000), (STRM_DESC 8, 0xFFFF), (STRM_DESC 0x10, 1),
  (STRM_DESC 0x20, 0x10000), (STRM_DESC 0x28, 0x1000)]
def svcX (x : Strm) : State := put cmdRegs { svc with strm := [(0, { x with gen := 1 })] }
theorem commands_taken (p : Port) (s : State) (h : (decide (p = .jtag → s.rbit DEV_SEAL 1 = true) && s.pageShown (STRM_CMD / 4096)
    && s.pageOn (STRM_CMD / 4096) && s.fld BOOT_STAT 31 28 == 7 && !s.inWarm && !s.rbit STRM_CMD_STAT 31 && decide (s.doneFifo.length < 64)) = true) :
    CommandsTaken p s := by
  simp only [Bool.and_eq_true, decide_eq_true_eq, beq_iff_eq, Bool.not_eq_true'] at h
  exact ⟨⟨h.1.1.1.1.1.1, h.1.1.1.1.1.2, h.1.1.1.1.2⟩, h.1.1.1.2, h.1.1.2, h.1.2, h.2⟩
def key0 : KeySlot := ⟨7, 1, 0xFFFFFFFE⟩
/-- A command's stream in every state its clauses name; the descriptor at its bounds; OP 0, 9 and 15 reserved. -/
theorem witness_StreamCommandsMoveTheirStream :
    (∀ x ∈ [Strm.reset, { Strm.reset with st := .active }, { Strm.reset with st := .paused }], ∀ p ∈ [Port.d2d, .i3c], CommandsTaken p (svcX x)) ∧
    (let s := svcX Strm.reset
     (s.str 0).st = .free ∧ s.classOff = false ∧ s.noSpace = false ∧ (s.str 0).gen ≤ 0xFFFFF ∧ s.descSched = some sch ∧
       sch.wsize.toNat = s.descN 6 2 ∧ s.descBad true = false ∧ s.level = 2 ∧ s.descBad false = false) ∧
    (∀ x ∈ [{ Strm.reset with st := .active, step := some step0 }, { Strm.reset with st := .active }, { Strm.reset with st := .paused },
        { Strm.reset with st := .paused, backlogged := 1 }], (svcX x).names ((svcX x).reg STRM_CMD_HANDLE) = true ∧ ((svcX x).str 0).cmd = none ∧
        ((svcX x).str 0).mirror = false ∧ ((svcX x).str 0).recordDue = false ∧ ((svcX x).str 0).held = []) ∧
    (let s : State := { svcX { Strm.reset with st := .paused } with keys := [(0, some key0)] }
     s.descN 4 1 ≤ 7 ∧ Sp.get (fun _ => none) s.keys (s.descN 4 1) = some key0 ∧ key0.ctr ≠ 0xFFFFFFFF ∧ s.descForm = false ∧ s.withdrawn = false) ∧
    (∀ op ∈ [(0 : BitVec 4), 9, 15], op.toNat = 0 ∨ 8 < op.toNat) := by
  refine ⟨?_, by decide +kernel, by decide +kernel, by decide +kernel, by decide⟩
  have h : ∀ x ∈ [Strm.reset, { Strm.reset with st := .active }, { Strm.reset with st := .paused }], ∀ p ∈ [Port.d2d, .i3c],
      (decide (p = .jtag → (svcX x).rbit DEV_SEAL 1 = true) && (svcX x).pageShown (STRM_CMD / 4096)
        && (svcX x).pageOn (STRM_CMD / 4096) && (svcX x).fld BOOT_STAT 31 28 == 7 && !(svcX x).inWarm && !(svcX x).rbit STRM_CMD_STAT 31
        && decide ((svcX x).doneFifo.length < 64)) = true := by decide +kernel
  exact fun x hx p hp => commands_taken _ _ (h x hx p hp)
theorem ports_open (p : Port) (l : List Nat) (s : State) (h : l.all (fun a => decide (p = .jtag → s.rbit DEV_SEAL 1 = true)
    && s.pageShown (a / 4096) && s.pageOn (a / 4096)) = true) : ∀ a ∈ l, PortOpen p a s :=
  fun a ha => port_open p a s (List.all_eq_true.mp h a ha)
theorem witness_StreamCompletions :
    svc.doneFifo.length < 64 ∧ svc.doneHeld = [] ∧
    (∀ x ∈ [{ Strm.reset with st := .starting, cmd := some 1 }, { Strm.reset with st := .exporting, cmd := some 7 },
        { Strm.reset with st := .importing, image := true, cmd := some 8 }, { Strm.reset with st := .importing, cmd := some 8 }],
      (x.cmd.isSome) ∧ x.mirror = false ∧ x.timer + 960000 ≤ ({ svc with rclk := 960000 } : State).rclk) ∧
    PortOpen .d2d STRM_DONE_HI svc ∧ PortOpen .i3c STRM_VIEW_SEL svc ∧ PortOpen .d2d (pg 0x1A4 0x044) svc ∧ (4095#32).toNat < 4096 :=
  ⟨by decide, rfl, by decide +kernel, ports_open .d2d [STRM_DONE_HI] svc (by decide +kernel) _ (by simp),
    ports_open .i3c [STRM_VIEW_SEL] svc (by decide +kernel) _ (by simp), ports_open .d2d [pg 0x1A4 0x044] svc (by decide +kernel) _ (by simp), by decide⟩
/-- Two granules of a move that their pseudo-channels serve, of which the last lands or one is to come; a waiting multicast; a collective
with a giver; tags CLOSED and CANCELLING; a golden block; a word that a read has found bad; a segment and a bank switched on and not yet
ready. -/
def gold : Golden := ⟨0, 0, 1, 0x100000⟩
def svcH (done : List Nat) : State := { put [(VAT_PWR 0, 1), (VAT_STAT 0, 0), (VAT_FAIL 0, 0), (FOLIO_FM_PWR 0, 0xFFFF), (FOLIO_FM_STAT 0, 0x7FFF), (HBM_PC_STATE 0 0, 4)] svc with
  scheds := [{ sch with golden := [gold] }]
  movers := [(0, [{ move0 with done := done }])]
  strm := [(0, { Strm.reset with st := .active, gen := 1, step := some step0 })]
  mleads := [⟨0, 0, 0, 3, 256, 0, 3⟩]
  tags := [(1, ⟨.cancelling, 0, 0, none⟩), (2, ⟨.closed, 0, 0, none⟩)] }
theorem witness_GranulesLandAndMemoriesAreKept :
    (∀ done ∈ [[], [0]], (((svcH done).drive.mover 0).find? (fun x => x.id == 7) = some { move0 with done := done } ∧
      (svcH done).drive.served 0 7 1 = true ∧ ((svcH done).drive.creditedOf 7).contains 1 = true ∧ 1 ∉ done) ∧
      (move0.stale = none ∧ move0.dests = [] ∧ move0.owner = .xfer none ∧ move0.tag < 4096 ∧ ((svcH done).str 0).step = some step0)) ∧
    (let s := svcH []
     (s.mleads.find? (fun x => x.folio == 0 && x.ctx == 0)).isSome = true ∧
     (svcK opSPRED false).givers 0 9 ≠ [] ∧ (svcK opSPRED false).current 0 = some ⟨9, []⟩ ∧ s.inReset = false ∧ s.fld PM_STATE 31 29 = 0 ∧
     (s.logical 0 = some 0 ∧ s.moverHolds (folioTag 0 1) = false ∧ (s.tag 0 1).st = .cancelling ∧ (s.tag 0 2).st = .closed ∧
       s.engHolds 0 (folioTag 0 2) = false ∧ (s.ctx 0 0).holdsTag 2 = false) ∧
     (s.pcState 0 1 = 1 ∧ s.pcState 0 0 ≠ 1 ∧ s.memWf = true) ∧
     (∀ a ∈ [0, 4095], s.inGolden 0 a = true ∧
       (s.goldens 0).find? (fun g => decide (g.block.toNat ≤ a / 4096) && decide (a / 4096 < g.block.toNat + g.count)) = some gold) ∧
     (s.scrubs (.folio 0 0 4096) = true ∧ s.isGolden 0 0 4096 = false ∧ s.isBad (wordKey 0 0 4096) = false ∧
       (s.markBad 0 0 4096).scrubs (.folio 0 0 4096) = true ∧ (s.markBad 0 0 4096).isBad (wordKey 0 0 4096) = true) ∧
     s.rbit (FOLIO_FM_PWR 0) 15 = true ∧ s.rbit (FOLIO_FM_STAT 0) 15 = false ∧ s.retired 0 = false ∧
     s.rbit (VAT_PWR 0) 0 = true ∧ s.rbit (VAT_STAT 0) 0 = false ∧ s.rbit (VAT_FAIL 0) 0 = false) := by
  and_intros <;> decide +kernel
/-- The CRC of the flit, 60 bytes at a time. -/
theorem crc_flit : crc32c (d2dBody 1 0 1 4096 1 (List.replicate 296 0) ++ toBytes 4 0) = 1396203145 := by
  have h : d2dBody 1 0 1 4096 1 (List.replicate 296 0) ++ toBytes 4 0 = [1, 0, 1, 0, 0, 16, 0, 0, 1, 0, 40, 1, 0, 0, 0, 0]
      ++ (List.replicate 60 0 ++ (List.replicate 60 0 ++ (List.replicate 60 0 ++ (List.replicate 60 0 ++ List.replicate 60 (0 : Byte))))) := by decide +kernel
  have h0 : List.foldl crc32Byte 0xFFFFFFFF [1, 0, 1, 0, 0, 16, 0, 0, 1, 0, 40, 1, 0, 0, 0, 0] = 3536559325 := by decide +kernel
  have h1 : (List.replicate 60 (0 : Byte)).foldl crc32Byte 3536559325 = 670883504 := by decide +kernel
  have h2 : (List.replicate 60 (0 : Byte)).foldl crc32Byte 670883504 = 410127593 := by decide +kernel
  have h3 : (List.replicate 60 (0 : Byte)).foldl crc32Byte 410127593 = 1464373005 := by decide +kernel
  have h4 : (List.replicate 60 (0 : Byte)).foldl crc32Byte 1464373005 = 3611863103 := by decide +kernel
  have h5 : (List.replicate 60 (0 : Byte)).foldl crc32Byte 3611863103 = 2898764150 := by decide +kernel
  rw [crc32c, h]
  simp only [List.foldl_append, h0, h1, h2, h3, h4, h5]
  decide
def flitBody : List Byte := d2dBody 1 0 1 4096 1 (List.replicate 296 0)
/-- The flit with a good CRC, and with one that is not. -/
def d2dBytes (ok : Bool) : List Byte := flitBody ++ toBytes 4 (if ok then 1396203145 else 7) ++ toBytes 4 0
theorem crc_d2dBytes : ∀ ok, (crc32c ((d2dBytes ok).take 0x138 ++ ((d2dBytes ok).drop 0x13C).take 4) = ofBytes (((d2dBytes ok).drop 0x138).take 4) ↔ ok = true) := by
  intro ok
  have h : (d2dBytes ok).take 0x138 ++ ((d2dBytes ok).drop 0x13C).take 4 = flitBody ++ toBytes 4 0 := by cases ok <;> decide +kernel
  have h' : ofBytes (((d2dBytes ok).drop 0x138).take 4) = if ok then 1396203145 else 7 := by cases ok <;> decide +kernel
  rw [h, h', flitBody, crc_flit]
  cases ok <;> decide
/-- A port with three modules, in service or training, with a flit that waits in the retry buffer. -/
def svcV (st : Nat) : State := { put [(D2D_STAT, st * 2 ^ 29 + 7)] svc with d2dRetry := [(0, d2dBody 1 0 1 4096 1 [])] }
theorem witness_D2dPortAndPortResets :
    ((svcV 2).d2dState = 2 ∧ (svcV 2).d2dRetry ≠ [] ∧ (svcV 2).d2dRx = 0 ∧ (svcV 2).burstIn.length < 1024 ∧
      (svcV 2).d2dAttempts < 15 ∧ 15 ≤ ({ svcV 2 with d2dAttempts := 15 } : State).d2dAttempts) ∧
    (∀ ok, (crc32c ((d2dBytes ok).take 0x138 ++ ((d2dBytes ok).drop 0x13C).take 4) = ofBytes (((d2dBytes ok).drop 0x138).take 4) ↔ ok = true)) ∧
    (∀ ok, (d2dBytes ok).length = 320) ∧
    (let b := d2dBytes true
     ofBytes (((b.take 0x138).drop 0).take 1) = 1 ∧ ofBytes (((b.take 0x138).drop 0x0A).take 2) = 296 ∧ bits (ofBytes (b.drop 0x13C)) 31 22 = 0 ∧
       bit (ofBytes (b.drop 0x13C)) 11 = false) ∧
    ((svcV 1).d2dState = 1 ∧ (svcV 1).fld D2D_STAT 3 0 &&& 4 ≠ 0) ∧
    (∀ a ∈ [IFACE_LEVEL, DEV_SEAL], PortOpen .i3c a svc) ∧ bits 1 3 0 ≠ 0 ∧
    (let s : State := { svc with levelReq := some 1, scheds := [], strm := [] }
     s.levelReq = some 1 ∧ (∀ k : Fin 4, (s.txn k.val).live = false) ∧ s.mbx = none) ∧
    (1 ≠ svc.level ∧ svc.scheds ≠ []) :=
  ⟨by decide +kernel, crc_d2dBytes, fun ok => by cases ok <;> decide +kernel, by decide +kernel,
    by decide +kernel, ports_open _ _ _ (by decide +kernel), by decide, by decide +kernel, by decide +kernel⟩
/-! ## Witnesses: links and charter -/

/-- A message that has arrived. -/
def msgOf (typ src epoch : Nat) (bs : List Byte) : LMsg := ⟨typ, src, epoch, 0, bs⟩
def svcN (m : LMsg) (s : State) : State := { s with linkIn := [m] }
/-- The flit of one DATA message of 240 zero bytes to any seat, on channel 3. -/
def flit0 : List Byte := [1, 0xC0, 240, 0, 7, 0, 0xFF, 0xFF, 0, 0, 0, 0, 0, 0, 0, 0x80] ++ List.replicate 240 0
def linkBytes : List Byte := flit0 ++ toBytes 4 422112737 ++ toBytes 4 0
theorem crc_linkBytes : crc32c (linkBytes.take 256 ++ linkBytes.drop 260) = ofBytes ((linkBytes.drop 256).take 4) := by
  have h : linkBytes.take 256 ++ linkBytes.drop 260 = [1, 0xC0, 240, 0, 7, 0, 0xFF, 0xFF, 0, 0, 0, 0, 0, 0, 0, 0x80]
      ++ (List.replicate 61 0 ++ (List.replicate 61 0 ++ (List.replicate 61 0 ++ List.replicate 61 (0 : Byte)))) := by decide +kernel
  have h' : ofBytes ((linkBytes.drop 256).take 4) = 422112737 := by decide +kernel
  have h0 : List.foldl crc32Byte 0xFFFFFFFF [1, 0xC0, 240, 0, 7, 0, 0xFF, 0xFF, 0, 0, 0, 0, 0, 0, 0, 0x80] = 3109783271 := by decide +kernel
  have h1 : (List.replicate 61 (0 : Byte)).foldl crc32Byte 3109783271 = 4002532669 := by decide +kernel
  have h2 : (List.replicate 61 (0 : Byte)).foldl crc32Byte 4002532669 = 3572380213 := by decide +kernel
  have h3 : (List.replicate 61 (0 : Byte)).foldl crc32Byte 3572380213 = 620336930 := by decide +kernel
  have h4 : (List.replicate 61 (0 : Byte)).foldl crc32Byte 620336930 = 3872854558 := by decide +kernel
  rw [crc32c, h, h']
  simp only [List.foldl_append, h0, h1, h2, h3, h4]
  decide
/-- Port 0 in a link state, in a ring of two seats; a peer of seat 1. -/
def svcL (st : Nat) : State := put [(CH_DIM, 64), (LNK_STAT 0, st * 2 ^ 29 + 15), (LNK_CFG, 2 ^ 16)] svc
theorem witness_LinksCarryMessagesAndTrain :
    (svcL 2).linkState 0 = 2 ∧ ((svcL 2).link 0).owed = [] ∧
    (linkBytes.length = 264 ∧ (0 : BitVec 16) ≠ 0xFFFF ∧ bits (ofBytes (linkBytes.drop 260)) 31 22 = ((svcL 2).link 0).rxSeq ∧
      0 < flitN flit0 0 1 ∧ flitN flit0 0 1 < 0x0E ∧ flitN flit0 6 2 = 0xFFFF ∧ flitVc flit0 = 3 ∧ flitN flit0 0x0E 2 = 2 ^ 15) ∧
    (linkBytes.take 256 = flit0 ∧ bit (ofBytes (linkBytes.drop 260)) 11 = false ∧ ((svcL 2).link 0).attempts < 16) ∧ crc32c (linkBytes.take 256 ++ linkBytes.drop 260) = ofBytes ((linkBytes.drop 256).take 4) ∧
    (∀ lane ∈ [0, 3], (svcL 2).rbit (LNK_STAT 0) lane = true) ∧ ((svcL 2).link 0).spare = false ∧
    (let m := msgOf 1 7 1 [1, 0, 9, 0, 0, 0]
     (svcN m svc).linkIn.find? (fun y => y.typ == 1) = some m ∧ ofBytes ((m.payload.drop 0).take 1) = 1) ∧
    (let m := msgOf 2 5 1 [1, 0, 1, 0, 0, 0, 1, 0]
     (svcN m svc).linkIn.find? (fun y => y.typ == 2) = some m ∧ (svcN m svc).outRing m.src 1 = some ⟨5, 1, 0, 4⟩) ∧
    (let m := msgOf 7 5 0 [1, 0, 0, 2, 1, 0, 0, 0]
     (svcN m svc).linkIn.find? (fun y => y.typ == 7) = some m ∧ m.epoch ≤ svc.reg CH_EPOCH ∧ Sp.get (fun _ => 0) svc.lstateSeq 1 < 1) ∧
    (let m := msgOf 0x0D 5 0 [1, 3]
     (svcN m svc).linkIn.find? (fun y => y.typ == 0x0D && y.port == 0) = some m ∧ ofBytes ((m.payload.drop 1).take 1) < 4) ∧
    (svcL 0).linkState 0 = 0 ∧ (svcL 4).linkState 0 = 4 ∧ (svcL 1).linkState 0 = 1 ∧ (0x1F#5).toNat % 16 = 15 ∧
    (svcL 1).neighbour (svcL 1).seat 0 = some 1 ∧ peerPort 0 = 1 ∧ (svcL 1).neighbour (svcL 1).seat 0 ≠ some 2 ∧ (3#3).toNat ≠ peerPort 0 ∧
    ((svcL 3).linkState 0 = 3 ∧ (if (svcL 3).rbit CLK_STAT 31 then knockSeen 6 10 0 [(12, 12), (8, 8), (12, 8)] else
      knockSeen 8 12 0 [(12, 12), (8, 8), (12, 8)]) = true ∧ (svcL 3).rbit LNK_CFG 16 = true) ∧
    (let s : State := { svcL 3 with links := [(0, { LinkPort.reset with knocks := 1 })] }
     0 < (s.link 0).knocks ∧ s.linkState 0 ≠ 2) :=
  ⟨by decide +kernel, by decide +kernel, by decide +kernel, by decide +kernel, crc_linkBytes, by decide +kernel⟩

/-- A charter of seats 0 and 1 with equal weights in force, seat 0 the anchor; one that forms. -/
def charterRegs (st : Nat) : List (Nat × Nat) := [(CH_DIM, 64), (CH_SEAT 0, 2 ^ 31 + 65536), (CH_SEAT 1, 2 ^ 31 + 65536), (CH_STAT, st * 2 ^ 29),
  (CH_SEAT_NOW 0, 2 ^ 31 + 65536), (CH_SEAT_NOW 1, 2 ^ 31 + 65536), (CH_WEIGHT, 2), (CH_EPOCH, if st = 2 then 1 else 0), (LNK_STAT 0, 2 ^ 30)]
def svcQ (st : Nat) (h : Hoop) : State := { put (charterRegs st) svc with hoop := h, rclk := 960000 }
def running0 : Hoop := { Hoop.reset with standing := false, ends := 970000, roundAt := 950000 }
def prop0 (forming : Bool) (members : List Nat) : Proposal := ⟨2, members, [], [0], [], forming, 959000⟩
theorem crc64_lt (bs : List Byte) : crc64 bs < 2 ^ 64 := by
  have hs : ∀ c, c < 2 ^ 64 → crc64Shift c < 2 ^ 64 := by
    intro c hc
    unfold crc64Shift
    split
    · omega
    · exact Nat.xor_lt_two_pow (Nat.mod_lt _ (by decide)) (by decide)
  have hb : ∀ c (b : Byte), c < 2 ^ 64 → crc64Byte c b < 2 ^ 64 := by
    intro c b hc
    have hx : c ^^^ (b.toNat * 2 ^ 56) < 2 ^ 64 := Nat.xor_lt_two_pow hc (by have := b.isLt; omega)
    unfold crc64Byte
    exact (hs _ <| hs _ <| hs _ <| hs _ <| hs _ <| hs _ <| hs _ <| hs _ hx)
  have hf : ∀ (l : List Byte) c, c < 2 ^ 64 → l.foldl crc64Byte c < 2 ^ 64 := by
    intro l
    induction l with
    | nil => exact fun c hc => hc
    | cons b l ih => intro c hc; rw [List.foldl_cons]; exact ih _ (hb c b hc)
  exact hf bs 0 (by decide)
/-- A PROPOSE of epoch 1 for the forming charter, with its digest. -/
def propBytes (digest : Nat) : List Byte := toBytes 4 1 ++ [1, 0] ++ toBytes 2 1 ++ toBytes 8 digest ++ toBytes 2 0
theorem propBytes_digest (d : Nat) : ((propBytes d).drop 8).take 8 = toBytes 8 d := by simp [propBytes, toBytes]
def propMsg : LMsg := msgOf 8 1 0 (propBytes (svcQ 1 Hoop.reset).charterDigest)
theorem digest_propMsg : ofBytes ((propMsg.payload.drop 8).take 8) = (svcN propMsg (svcQ 1 Hoop.reset)).charterDigest := by
  have h : (svcN propMsg (svcQ 1 Hoop.reset)).charterDigest = (svcQ 1 Hoop.reset).charterDigest := by
    simp only [State.charterDigest, State.reg, svcN]
  have h' : propMsg.payload = propBytes (svcQ 1 Hoop.reset).charterDigest := by simp only [propMsg, msgOf]
  rw [h, h', propBytes_digest, Sys2Proof.Machine.ofBytes_toBytes]
  exact Nat.mod_eq_of_lt (crc64_lt _)
/-- A MIRROR message of one granule of zeros, from seat 1 for a stream of seat 7. -/
def mirrorHead : List Byte := toBytes 4 0x1000 ++ toBytes 2 7 ++ toBytes 2 1 ++ toBytes 4 0x1000 ++ [0, 0, 0, 0] ++ toBytes 8 1 ++ toBytes 8 5 ++ toBytes 8 0
def mirrorMsg : LMsg := msgOf 3 1 1 (mirrorHead ++ toBytes 8 12812155831539993839 ++ List.replicate 256 0)
theorem crc_mirrorMsg : crc64 (mirrorMsg.payload.take 0x28 ++ mirrorMsg.payload.drop 48) = ofBytes ((mirrorMsg.payload.drop 0x28).take 8) := by
  have h : mirrorMsg.payload.take 0x28 ++ mirrorMsg.payload.drop 48 = mirrorHead ++ (List.replicate 64 0 ++ (List.replicate 64 0 ++
      (List.replicate 64 0 ++ List.replicate 64 (0 : Byte)))) := by decide +kernel
  have h' : ofBytes ((mirrorMsg.payload.drop 0x28).take 8) = 12812155831539993839 := by decide +kernel
  have h0 : mirrorHead.foldl crc64Byte 0 = 4302053038830916094 := by decide +kernel
  have h1 : (List.replicate 64 (0 : Byte)).foldl crc64Byte 4302053038830916094 = 12864762245447224901 := by decide +kernel
  have h2 : (List.replicate 64 (0 : Byte)).foldl crc64Byte 12864762245447224901 = 12275797933755627409 := by decide +kernel
  have h3 : (List.replicate 64 (0 : Byte)).foldl crc64Byte 12275797933755627409 = 1893924246225403394 := by decide +kernel
  have h4 : (List.replicate 64 (0 : Byte)).foldl crc64Byte 1893924246225403394 = 12812155831539993839 := by decide +kernel
  rw [crc64, h, h']
  simp only [List.foldl_append, h0, h1, h2, h3, h4]
/-- A mirrored stream whose step waits for its buddy, and a mirror entry that is due for takeover. -/
def mirrored (released : Bool) : Strm :=
  { Strm.reset with
    st := .active, gen := 1, mirror := true, buddy := 1, originSeat := 0, originHandle := 4096, cseq := 4,
    step := some { done0 with released := released } }
def entry0 : Mirror := ⟨7, 0x1000, 1, 0x1000, false, 5, 1, 0, false, 1⟩
def svcY (m : LMsg) : State := { svcN m (svcQ 2 running0) with
  strm := [(0, mirrored true)], mirrors := [(3, some entry0)], takeovers := [⟨3, 950000, false⟩] }
theorem witness_CharterHoopAndMirrors :
    (PortOpen .i3c CH_CMD svc ∧ svc.chartered = false) ∧
    ((svcQ 1 Hoop.reset).fld CH_STAT 31 29 = 1 ∧ (svcQ 1 Hoop.reset).hoop.formAt + 960000 ≤ (svcQ 1 Hoop.reset).rclk) ∧
    (svcN propMsg (svcQ 1 Hoop.reset)).linkIn.find? (fun y => y.typ == 8) = some propMsg ∧
    (let s := svcN propMsg (svcQ 1 Hoop.reset)
     s.reg CH_EPOCH < 1 ∧ ofBytes ((propMsg.payload.drop 0).take 4) = 1 ∧
       1 ∉ s.hoop.voted ∧ ofBytes ((propMsg.payload.drop 4).take 1) = 1 ∧
       s.seat ∈ seatsAt propMsg.payload 16 (ofBytes ((propMsg.payload.drop 6).take 2)) ∧ s.withdrawn = false) ∧
    ofBytes ((propMsg.payload.drop 8).take 8) = (svcN propMsg (svcQ 1 Hoop.reset)).charterDigest ∧
    crc64 (mirrorMsg.payload.take 0x28 ++ mirrorMsg.payload.drop 48) = ofBytes ((mirrorMsg.payload.drop 0x28).take 8) ∧
    (∀ f, let m := msgOf 9 1 0 (toBytes 4 2 ++ toBytes 4 0)
      let s := svcN m (svcQ 2 { running0 with proposal := some (prop0 f [0, 1]) })
      s.linkIn.find? (fun y => y.typ == 9) = some m ∧ s.hoop.proposal = some (prop0 f [0, 1]) ∧ m.src ∈ (prop0 f [0, 1]).members ∧
        m.src ∉ (prop0 f [0, 1]).votes ∧ s.rbit (CH_SEAT 1) 31 = true ∧ s.member 1 = true ∧ s.rclk ≤ 959000 + 1920 ∧ s.nowQuorum [0, 1] = true ∧
        (put [(CH_WEIGHT, 15)] s).nowQuorum [0, 1] = false) ∧
    (let m := msgOf 0x0A 1 0 (toBytes 4 2 ++ [0, 0] ++ toBytes 2 1 ++ toBytes 4 0 ++ toBytes 2 0)
     let s := svcN m (svcQ 2 running0)
     s.linkIn.find? (fun y => y.typ == 0x0A) = some m ∧ s.reg CH_EPOCH < 2 ∧ s.seat ∈ seatsAt m.payload 12 1) ∧
    (let p := { prop0 false [0, 1] with sent := 960000 - 1920 }
     (svcQ 2 { running0 with proposal := some p }).hoop.proposal = some p ∧ p.sent + 1920 ≤ 960000) ∧
    (let m := msgOf 0x0B 1 0 []
     let s := svcN m (svcQ 2 { running0 with backoff := 960001, roundAt := 0 })
     s.rclk < s.hoop.backoff ∧ s.linkIn.find? (fun y => y.typ == 0x0B) = some m ∧ s.fld CH_STAT 31 29 = 2 ∧ s.rbit (CH_SEAT m.src) 31 = true ∧
       m.src ∉ s.hoop.joiners ∧ s.chartered = true ∧ s.hoop.standing = false ∧ s.hoop.roundAt + s.fld CH_HOOP 15 8 * 9600 ≤ s.rclk) ∧
    (let m := msgOf 5 1 1 (toBytes 4 1)
     (svcN m (svcQ 2 running0)).linkIn.find? (fun y => y.typ == 5) = some m ∧ ofBytes ((m.payload.drop 0).take 4) = (svcQ 2 running0).reg CH_EPOCH ∧
       m.src ∉ running0.refused) ∧
    (let m := msgOf 6 1 1 (toBytes 4 1 ++ toBytes 4 0)
     (svcN m (svcQ 2 running0)).linkIn.find? (fun y => y.typ == 6) = some m ∧ ofBytes ((m.payload.drop 4).take 4) = running0.round ∧ m.src ∉ running0.racks) ∧
    (svcQ 2 { running0 with ends := 5 }).hoopRuns = false ∧
    (let s := svcN mirrorMsg (svcQ 2 running0)
     s.linkIn.find? (fun y => y.typ == 3) = some mirrorMsg ∧ s.strOf 7 0x1000 = none ∧ s.mirrorOf 7 0x1000 = none ∧
       (mirrorMsg.payload.drop 48).length = 1 * 256 ∧ (List.range 4096).find? (fun k => (s.mirrorAt k).isNone) = some 0 ∧ sch.ident.toNat = 1) ∧
    (let m := msgOf 4 1 1 (toBytes 2 0 ++ [0, 0] ++ toBytes 4 4096 ++ toBytes 8 5 ++ [0])
     (svcY m).linkIn.find? (fun y => y.typ == 4) = some m ∧ (svcY m).strOf 0 4096 = some 0 ∧ m.src = ((svcY m).str 0).buddy ∧
       ((svcY m).str 0).step = some { done0 with released := true } ∧ ofBytes ((m.payload.drop 8).take 8) = ((svcY m).str 0).cseq + 1 ∧
       ofBytes ((m.payload.drop 16).take 1) = 0) ∧
    (let m := msgOf 0x0C 1 1 (toBytes 2 7 ++ [0, 0] ++ toBytes 4 0x1000)
     (svcY m).linkIn.find? (fun y => y.typ == 0x0C) = some m ∧ (svcY m).mirrorOf 7 0x1000 = some 3) ∧
    (let s := svcY (msgOf 4 1 1 [])
     (s.str 0).mirror = true ∧ s.member 1 = true ∧ s.reachable 1 = true ∧ (s.str 0).timer + s.mirrorTime ≤ s.rclk ∧
       s.takeovers.find? (fun t => t.entry == 3) = some ⟨3, 950000, false⟩ ∧ s.mirrorAt 3 = some entry0 ∧ 950000 ≤ s.rclk ∧
       (List.range 4096).find? (fun i => (s.str i).st == .free) = some 1) := by
  refine ⟨⟨port_open _ _ _ (by decide +kernel), by decide +kernel⟩, by decide +kernel, by simp [svcN, propMsg, msgOf], by decide +kernel,
    digest_propMsg, crc_mirrorMsg, ?_⟩
  and_intros <;> decide +kernel
/-! ## Witnesses: power, clocks, heat -/

/-- No work and no vote; every folio in a state; an entry or an exit of a domain under way. -/
def idle0 : State := put [(PM_VOTE_HOST, 0), (PM_VOTE_DBG, 0)] { svc with ctxs := [], sreg := [], areg := [] }
def slept (k : Nat) : State := { put ((List.range 6).map (fun i => (PM_FOLIO_STATE i, k * 0x11111111)) ++ [(PM_FOLIO_STATE 6, k * 0x11)]) idle0 with rclk := 5000 }
def seq0 (entering : Bool) (target : Nat) (steps : List Nat) (retried : Bool) : PwrSeq :=
  ⟨entering, target, 2, 0, steps, List.replicate 8 100, retried, false, 0⟩
def seqAt (d : Nat) (x : PwrSeq) : State := { slept 2 with pwr := [(d, some x)] }
/-- The wake planner due: class 0 stepped once at rclk 100 and PERIOD is 200. -/
def planned : State := { put [(PM_PLAN, 2 ^ 31 + 200), (OWN_TMR 3, 5)] (slept 2) with
  strm := [(0, { Strm.reset with st := .active, gen := 1, stepped := true, lastAccept := 100 })] }
theorem witness_VotesEntriesAndExits :
    (∀ a ∈ [PM_VOTE_HOST, PM_VOTE_DBG, PM_WAKE_CAUSE, PM_REFUSE_LOG], PortOpen .i3c a svc) ∧ Asleep 0 ((slept 2).setReg PM_VOTE_HOST 1) ∧
    ((slept 0).folioState 0 = 0 ∧ (slept 0).folioQuiet 0 = true) ∧
    (∀ k ∈ [1, 3], let s := slept k
      s.inReset = false ∧ s.boot = 7 ∧ s.devState = 0 ∧ (s.logical 0).isSome = true ∧ s.retired 0 = false ∧ s.seqOf 0 = none ∧ s.folioState 0 = k ∧
        s.folioState 0 < s.folioChoice 0 ∧ s.folioVoted 0 = false ∧ s.substs = [] ∧ s.tagsOpen 0 = false ∧
        (s.gathOfPhys 0).any (fun g => bit s.switching g) = false) ∧
    (let s := slept 2
     s.seqOf 0x40 = none ∧ s.devState < 2 ∧ s.devState < s.devChoice ∧ s.devVoted = false ∧ (∀ m ∈ s.active, s.folioState m = 2) ∧
       s.entryCheck 0x40 = none) ∧
    (let s := put [(LNK_CFG, 0x8000), (LNK_STAT 0, 2 ^ 30), (LNK_STAT 1, 0)] (slept 2)
     s.portVoted 0 = false ∧ s.mayNap 0 = true ∧ s.linkState 0 = 2 ∧ s.linkState 1 = 0 ∧ s.portVoted 1 = false) ∧
    (∀ t ∈ [2, 3, 4], let s := seqAt 0 (seq0 true t [] false)
      s.seqOf 0 = some (seq0 true t [] false) ∧ (seq0 true t [] false).since + 2 + 100 ≤ s.rclk) ∧
    (∀ t ∈ [1, 2], let s := seqAt 0x40 (seq0 true t [] false)
      s.seqOf 0x40 = some (seq0 true t [] false) ∧ (seq0 true t [] false).latched = false ∧ 0 + 2 + 100 ≤ s.rclk) ∧
    (∀ l ∈ [[2], [20], [4, 3, 1]], ∀ r ∈ [false, true], let s := seqAt 0 (seq0 false 2 l r)
      s.seqOf 0 = some (seq0 false 2 l r) ∧ (seq0 false 2 l r).entering = false ∧ s.stepDue (seq0 false 2 l r) = true ∧
        (s.logical 0).isSome = true ∧ 0 + 4 * 100 ≤ s.rclk ∧ s.heldWrites = []) ∧
    (waitsReady 2 = true ∧ waitsReady 4 = false ∧ waitsReady 20 = true) ∧
    (let s := seqAt 0x40 (seq0 false 2 [8] false)
     s.seqOf 0x40 = some (seq0 false 2 [8] false) ∧ s.stepDue (seq0 false 2 [8] false) = true) ∧
    (let s := (slept 2).setReg PM_VOTE_HOST 1
     (s.logical 0).isSome = true ∧ s.folioVoted 0 = true) ∧
    (let s := planned
     2 ≤ s.level ∧ s.rbit PM_PLAN 31 = true ∧ s.planTimer = true ∧ s.planLast = 101 ∧ s.planAt = none ∧
       s.planLast + s.fld PM_PLAN 23 0 ≤ s.rclk + s.wakeTime (s.clsGath (s.fld PM_PLAN 27 24)) + 1) := by
  refine ⟨ports_open _ _ _ (by decide +kernel), ?_, ?_⟩
  · unfold Asleep; decide +kernel
  · and_intros <;> decide +kernel
/-- REFCLK present and lost; a PLL that has not failed; a rail in and out of its band; temperatures above 105 °C and below 100 °C. -/
theorem witness_ClocksSuppliesAndHeat :
    svc.refLost = false ∧ ({ svc with refLost := true } : State).refLost = true ∧ svc.devState = 0 ∧ svc.inReset = false ∧
    (∀ u ∈ [0, 10], svc.rbit CLK_STAT u = false) ∧ (∀ r ∈ [Rail.core, .sram, .rind, .vddq, .serdes, .folioReg 0], r ∉ svc.railsOut) ∧
    svc.retired 0 = false ∧ (∀ r ∈ [Rail.core, .rind], r ∈ ({ svc with railsOut := [.core, .rind] } : State).railsOut) ∧ svc.tripReset = 0 ∧
    105 ≤ degrees (bits (BitVec.ofNat 128 (0x7F * 2 ^ 120)).toNat 127 120) ∧
    (∀ k : Fin 16, degrees (bits (0 : BitVec 128).toNat (8 * k.val + 7) (8 * k.val)) < 100) ∧ (∀ k : Fin 4, degrees (svc.fld (HBM_TEMP k.val) 7 0) < 95) ∧
    svc.devState ≠ 7 := by decide +kernel
/-! ## Witnesses: transactions, mailbox, resets -/

/-- Every zone with its ownership record; slots of port 1 with tag 5: open, committing with a pass and a failure, all four live. -/
def txn0 (st : Nat) (l : List (Nat × Nat × Nat)) : Txn := { Txn.reset with tag := 5, gmask := 1, st := st, port := 1, len := 100, staged := l }
def svcO2 (l : List (Nat × Txn)) : State := { put [(OWN_LZ 0, 2 ^ 31 + 65536), (OWN_LZ 1, 2 ^ 31 + 131072)] svc with txns := l, portRegs := [(3, 5)] }
def limit (v : Nat) : List (Nat × Nat × Nat) := [(PM_LIMIT, (regSpec PM_LIMIT).tx, v)]
/-- The registers that clear counters. -/
def clearRegs : List Nat := [pg 0x042 0x04C, pg 0x040 0x0D8, pg 0x041 0x05C, pg 0x140 0x068, pg 0x151 0x04C, pg 0x154 0x04C, pg 0x160 0x048, pg 0x169 0x048,
  pg 0x190 0x084, pg 0x170 0x048, pg 0x171 0x04C, pg 0x176 0x04C, pg 0x1B0 0x064, pg 0x177 0x08C, pg 0x1A1 0x07C, pg 0x001 0x060, pg 0x008 0x050,
  pg 0x006 0x084, pg 0x008 0x054]
theorem witness_TransactionsAndTheWindow :
    (∀ a ∈ [TXN_BEGIN, TXN_SEL, CLASS_TBL 3 0, TXN_COMMIT, TXN_ROLLBACK, FLT_STAT] ++ clearRegs, PortOpen .i3c a (svcO2 [])) ∧
    (let v := 5 * 65536 + 2
     bits v 31 16 ≠ 0 ∧ (∀ k : Fin 4, ((svcO2 []).txn k.val).live = false) ∧
       (let s := svcO2 [(0, txn0 1 []), (1, { txn0 1 [] with tag := 6 }), (2, { txn0 1 [] with tag := 7 })]
        (s.txn 3).live = false ∧ (∀ j < 3, (s.txn j).live = true ∧ (s.txn j).gmask &&& 2 = 0) ∧ ¬((s.txn 0).port = 0 ∧ (s.txn 0).tag = 5))) ∧
    (∀ k : Fin 4, ((svcO2 ((List.range 4).map (fun k => (k, { txn0 1 [] with tag := k })))).txn k.val).live = true) ∧
    ((svcO2 []).openTxn .i3c ((svcO2 []).selTag .i3c) = none ∧ (svcO2 [(0, txn0 1 [])]).openTxn .i3c ((svcO2 []).selTag .i3c) = some 0 ∧
      CLASS_TBL 3 0 % 4 = 0 ∧ ((svcO2 []).spec (CLASS_TBL 3 0)).tx ≠ 0 ∧ CLASS_TBL 3 0 < 2 ^ 21) ∧
    (∀ pn ∈ [0, 0x1B4], (svcO2 []).pageShown pn = true) ∧ (2 ^ 12 + 1) % 4 ≠ 0 ∧ (svcO2 []).boot = 7 ∧
    (svcO2 [(0, txn0 1 [])]).liveTxn .i3c 5 = some 0 ∧ ((svcO2 [(0, txn0 1 [])]).txn 0).lease = 0 ∧
    (∀ v ∈ [0x50000001, 2 ^ 32 - 1], ((svcO2 [(0, txn0 2 (limit v))]).txn 0).st = 2 ∧
      (svcO2 [(0, txn0 2 (limit v))]).pressReady (txn0 2 (limit v)) = true ∧
      commitFails (svcO2 [(0, txn0 2 (limit v))]) (txn0 2 (limit v)) = if v = 0x50000001 then none else some (37, 0, 0)) ∧
    ((limit 0x50000001).map (fun y => y.1)).Nodup ∧ (∀ y ∈ limit 0x50000001, (regSpec y.1).tx = y.2.1 ∧ y.2.2 &&& y.2.1 = y.2.2) ∧
    (∃ n : Fin 50, (svc.setReg (FOLIO_CTRL 0) 2).mode n.val = 2) ∧ (bit (2 ^ 31) 31 = true ∧ bit (2 ^ 31) 29 = false ∧ svc.devState ≠ 7) ∧
    (PortOpen .i3c (ARR_DBG_SEL 0) svcD ∧ 2 ≤ svcD.level ∧ svcD.mode 0 = 4 ∧ svcD.arrQuiet 0 (bits 0 21 20) = true ∧ svc.mode 0 ≠ 4) ∧
    (svc.setReg DEV_SEAL 1).rbit DEV_SEAL 1 = false ∧ (svc.setReg DEV_SEAL 2).rbit DEV_SEAL 1 = true ∧
    (((svc.setReg DEV_SEAL 2).touch .jtag).readWord .jtag 0x040).isSome := by
  refine ⟨ports_open _ _ _ (by decide +kernel), ?_, ?_⟩
  · decide +kernel
  · and_intros
    all_goals first | exact port_open _ _ _ (by decide +kernel) | exact ⟨0, by decide +kernel⟩ | decide +kernel
/-- Mailbox idle and BUSY; no image staged and one staged; folio 3 to retire with a spare free; a chunk handed over, the last. -/
def fw0 : FwImage := { version := 2, signed := true, compat := true, images := [], golden := [], data := [], exits := [], entries := [] }
def mbx0 (op : Nat) (last : Bool) : MbxOp := ⟨op, .i3c, last, some fw0, some sch, 0, 0, 0, 0⟩
def svcMb (op : Nat) (last : Bool) : State := { put [(MBX_STAT, 5 * 2 ^ 29)] svc with mbx := some (mbx0 op last), rclk := 960000 }
def args (l : List (Nat × Nat)) : State := put (l.map (fun p => (MBX_ARG p.1, p.2))) svc
theorem witness_MailboxSparingAndFirmware :
    PortOpen .i3c MBX_CMD svc ∧ PortOpen .i3c MBX_CMD (svcMb 1 false) ∧ PortOpen .i3c MBX_CHUNK (svcMb 1 false) ∧
    (svc.rbit MBX_STAT 31 = false ∧ svc.boot = 7 ∧ 2 ≤ svc.level ∧ (svcMb 1 false).rbit MBX_STAT 31 = true) ∧
    ((∀ op ∈ [0, 0x0E, 0xFF], (op = 0 ∨ 0x0D < op)) ∧ ({ svc with scheds := [] } : State).scheds = [] ∧ svc.reg FW_SEL = 0) ∧
    (let s : State := { put [(FW_STAT, 2 ^ 31), (FW_SEL, 1)] svc with staged := some fw0 }
     s.rbit FW_STAT 31 = true ∧ s.staged = some fw0 ∧ ∀ g < 16, s.gathEn g = true → s.rbit FW_SEL g = true) ∧
    (sch ∈ svc.scheds ∧ sch.ident.toNat = (args [(0, 1)]).reg (MBX_ARG 0) + (args [(0, 1)]).reg (MBX_ARG 1) * 2 ^ 32 ∧ svc.strm = []) ∧
    ((∀ k ∈ [0, 7], (args [(8, k)]).reg (MBX_ARG 8) ≤ 7) ∧ ({ svc with keys := [(0, some key0)] } : State).keyCode (svc.reg (MBX_ARG 1)) ≠ 8 ∧
      (∀ k ∈ [1, 2], (args [(0, k)]).reg (MBX_ARG 0) = k)) ∧
    ((put [(PM_FOLIO_STATE 6, 0x41)] svc).testOk (testMask 0 (2 ^ 17)) = true ∧
      (args [(0, 3)]).reg (MBX_ARG 0) < 50 ∧ svc.retired 3 = false ∧ svc.freeSpare.isSome = true) ∧
    (svc.reg (MBX_ARG 0) < 4 ∧ svc.reg (MBX_ARG 1) < 32 ∧ svc.pcState 0 0 = 0 ∧ svc.rbit HBM_STAT 4 = false) ∧
    ((svcMb 1 false).mbx = some (mbx0 1 false) ∧ (mbx0 1 false).inbound = true ∧
      (svcMb 1 false).rbit MBX_STAT 29 = true ∧ (mbx0 1 false).since + 960000 ≤ (svcMb 1 false).rclk) ∧
    (∀ op ∈ [1, 2, 4], (svcMb op true).mbx = some (mbx0 op true) ∧ (mbx0 op true).lastChunk = true ∧ (mbx0 op true).op = op ∧ fw0.signed = true) ∧
    ((svcMb 2 true).fwFits fw0 = true ∧ (svcMb 2 true).fwFits { fw0 with compat := false } = false ∧ (mbx0 0x0A true).op = 0x0A) ∧
    (let q : PwrSeq := ⟨false, 1, 4, 0, [20], [10], false, false, 0⟩
     let s : State := { svc with substs := [(3, some ⟨48, 3⟩)], pwr := [(48, some q)] }
     Sp.get (fun _ => none) s.substs 3 = some ⟨48, 3⟩ ∧ s.seqOf 48 = some q ∧ q.entering = false ∧ q.steps = [20] ∧ s.heldWrites = []) ∧
    (let s : State := { put [(FW_SEL, 1)] svc with switching := 1 }
     bit s.switching 0 = true ∧ s.rbit FW_SEL 0 = true) := by
  refine ⟨port_open _ _ _ (by decide +kernel), port_open _ _ _ (by decide +kernel), port_open _ _ _ (by decide +kernel), ?_⟩
  and_intros <;> decide +kernel
/-- Each stage of bring-up, with what it needs to pass and to end in HALTED. -/
def stage (k : Nat) : State := svc.setReg BOOT_STAT (k * 2 ^ 28)
theorem witness_ResetsAndBringUp :
    svc.tooHot = false ∧ (State.reset.tripReset ≠ 1 ∧ State.reset.inReset = true) ∧ svc.inReset = false ∧ svc.tripReset = 0 ∧ svc.boot ≠ 0xF ∧
    (svc.boot = 7 ∧ svc.devState ≠ 7 ∧ Sp.wf regReset svc.regs = true ∧ svc.reg FLT_HEAD < 256 ∧ svc.substs = [] ∧ 0x40000 ≤ CLASS_TBL 0 0 ∧
      (regSpec (CLASS_TBL 0 0)).tx = regAll) ∧
    ({ svc with inWarm := true } : State).inWarm = true ∧ (∀ k ∈ [0, 1, 3, 4, 5, 6], (stage k).inStage k = true) ∧ svc.refLost = false ∧
    svc.railsOut = [] ∧ svc.short = false ∧ svc.heldWrites = [] ∧
    (let o : TrainOut := ⟨14, [], 0, 0, [], false⟩
     bit o.hbms.toNat (0 : Fin 4).val = false) ∧
    (let o : TrainOut := ⟨15, [], 1, 0, [], false⟩
     o.hbms = 15 ∧ o.badPc = [] ∧ o.modules ≠ 0) := by decide +kernel
/-- The idle block has no command; a canonical state steps; ENOP's bundle issues. -/
theorem witness_IdleStepPassesOneRclk : (State.reset.pending = [] ∧ State.reset.traced = none) ∧
    (∀ n : Fin 50, State.reset.jobsOf n.val = [] ∧ State.reset.gates n.val = []) := by decide +kernel
theorem witness_EveryStepKeepsMemoriesCanonical : svc.memWf = true ∧ ∃ t, step { svc with pending := [.nop iss 0] } = .next t := by
  refine ⟨by decide +kernel, ?_⟩
  have h : (match step { svc with pending := [.nop iss 0] } with | .next _ => true | _ => false) = true := by decide +kernel
  split at h
  · exact ⟨_, by assumption⟩
  · exact absurd h (by decide)
theorem witness_EnopBundleIsItsScalarSlot : ready iss svc ∧ mayIssue iss svc ∧
    (let e := enopWith 0x10 5
     bits e.sc.toNat 31 26 ≠ 0x30 ∧ clearB (scalarSlot false 0 0 e.sc svc).traps (scalarSlot false 0 0 e.sc svc).wait = true) ∧
    (lowestTrap (scalarSlot true 0 0 (eng 0 vf).sc svc).traps = none ∧ (eng 0 vf).ops ≠ 0) ∧ (∀ opc ∈ [0xE0, 0xFF, 0x01], listedOpc opc = false) :=
  ⟨ready_svc.1, ready_svc.1.1, by decide +kernel⟩
/-! ## Ill-formed commands -/

theorem test_wf_d2dFlit : Instr.wf (.d2dFlit (List.replicate 319 0)) = false ∧ Instr.wf (.d2dFlit (d2dBytes true)) = true := by decide +kernel
theorem test_wf_linkFlit : Instr.wf (.linkFlit 0 (List.replicate 256 0) 0) = false ∧ Instr.wf (.linkFlit 0 linkBytes 0) = true := by decide +kernel
def folioImg (imem gps fns : Nat) : FolioImg := ⟨0, List.replicate imem 0, List.replicate gps 0, List.replicate fns 0, 0⟩
/-- A gate program image of 513 B and a function image of 4,097 B do not fit; those of 512 B and 4,096 B do. -/
theorem test_wf_images : Instr.wf (.schedLoad .i3c { sch with images := [folioImg 0 513 0] }) = false ∧
    Instr.wf (.schedLoad .i3c { sch with images := [folioImg 0 0 4097] }) = false ∧
    Instr.wf (.schedLoad .i3c { sch with images := [folioImg 16 512 4096] }) = true ∧
    Instr.wf (.fwLoad .i3c { fw0 with images := [(1, folioImg 0 513 0)] }) = false := by decide +kernel
/-- Instruction memory takes 128 KiB and no byte more. -/
theorem test_wf_imem : ∀ k, (folioImg k 0 0).wf = decide (k ≤ 131072) := by
  intro k
  simp [FolioImg.wf, folioImg]
theorem test_wf_golden : Instr.wf (.schedLoad .i3c { sch with golden := [⟨0, 255, 2, 0⟩] }) = false ∧
    Instr.wf (.schedLoad .i3c { sch with golden := [⟨0, 255, 1, 0⟩] }) = true := by decide +kernel
theorem test_wf_rings : Instr.wf (.schedLoad .i3c { sch with rings := [⟨0, 1, 0, 0, some 0, 0⟩] }) = false := by decide +kernel
theorem test_wf_delays : Instr.wf (.fwStage .i3c { fw0 with exits := [1] }) = false ∧ Instr.wf (.fwStage .i3c { fw0 with entries := [1] }) = false ∧
    Instr.wf (.fwStage .i3c { fw0 with exits := List.replicate 19 1, entries := List.replicate 5 1 }) = true := by decide +kernel

/-! ## Results that the spec works out -/

/-- The next state of a command, and a test of it. -/
def nextB (r : Res) (p : State → Bool) : Bool := match r with | .next t => p t | _ => false
/-- 02_number_formats.md, rounding to BF16 (ties to even) and 2^(−130) in FP32, fast and strict, and in BF16. -/
theorem test_rounding : (Fmt.bf16.encode {} (Fmt.fp32.decode 0x3F808000)).1 = 0x3F80 ∧ (Fmt.bf16.encode {} (Fmt.fp32.decode 0x3F818000)).1 = 0x3F82 ∧
    Fmt.fp32.encode {} (.fin false (pow2 (-130))) = (0, { uf := true, nx := true }) ∧
    Fmt.fp32.encode { strict := true } (.fin false (pow2 (-130))) = (0x00080000, {}) ∧ Fmt.bf16.encode {} (.fin false (pow2 (-130))) = (8, {}) := by
  decide +kernel
/-- 02_number_formats.md, output of one MXFP8 E4M3 block: 470, 300 and −0.0107421875. -/
theorem test_mx_block : mxEncode .e4m3 {} ([.fin false 470, .fin false 300, .fin true (11 / 1024)] ++ List.replicate 29 FV.pzero) (List.replicate 32 0) =
    (0x7F, [0x7E, 0x79, 0x86] ++ List.replicate 29 0, { of := true, uf := true, nx := true }) := by decide +kernel
/-- 03_dot_product.md, one BF16 chunk: the window sum is 2 − 2^(−41), with a truncated part. -/
theorem test_bf16_chunk : chunkSum .bf16 0 ([(0x4000, 0x3FC0), (0x3F80, 0xBF80), (0xB540, 0x3500), (0x3540, 0x3500)].map (fun t => (Fmt.bf16.sme t.1, Fmt.bf16.sme t.2)))
    = (.fin false (2 - pow2 (-41)), true) := by decide +kernel
/-- 03_dot_product.md, an overflow rerun: attempts with n of 0 and 1 overflow, that with n of 2 completes as 0x7744. -/
def svcR : State := { svc with
  arr := [(0, { ArrSt.reset with act := tileOf 6 0x7E, shd := ones })]
  ob := (svc.ob.write 0 (List.replicate 16 0x7E)).write 0x400 [0x7F]
  areg := svc.areg ++ [(11, 0x400)]
  sreg := [(8, 1), (9, 16), (10, 0x71800000), (11, 0x49800000), (12, 0x30800000)] }
def rerunE : Eng := eng (0x6000 + 4 * 2) [(1, 31), (10, 27), (2, 23), (4, 17), (1, 16), (1, 15), (1, 4)]
def rerunRow (k : Nat) : DotTile := (asDrain 0 0 rerunE svcR).attempt 0 k ((asDrain 0 0 rerunE svcR).operands 0 svcR)
theorem test_overflow_rerun : (List.range 3).map (fun k => (rerunRow k).due) = [true, true, false] ∧
    (svcR.outRow 0 0 rerunE (asFields rerunE) 0 0 1 svcR ⟨0, 0, 0, (rerunRow 2).els false⟩).fm.load 0x2000 2 = 0x7744 := by decide +kernel
/-- 05_matvec_and_gates.md, a latch block: four BF16 values as E4M3 with the scale 0x76, NX in the MVP field. -/
theorem test_mvld : nextB (execMvld iss (eng 0x6000 [(1, 59), (32, 31), (1, 30), (1, 26), (1, 22)])
      { svc with fm := svc.fm.write 0x1000 [0x40, 0x3F, 0x80, 0xBE, 0x4D, 0x3D, 0x00, 0x3A] })
    (fun t => (List.range 4).map (t.latchE 0 0) == [0x7C, 0xF0, 0x5D, 0x28] && t.latchS 0 0 0 == 0x76) = true := by decide +kernel
/-- 08_vector_engine.md, VZRD over a BF16 map of 200 elements from 16 bytes. -/
theorem test_vzrd : nextB (execVzrd iss (eng 0x1000 [(1, 57), (2, 53), (2, 48), (4, 43)])
      { svc with vat := svc.vat.write 0x1000 [0x02, 0x82, 0x80, 0x3F, 0x00, 0xC0, 0x03, 0x3C, 0x40, 0x40, 0x80, 0x3E, 0x00, 0x80, 0x00, 0x05],
                 sreg := [(2, 200), (4, 16)] })
    (fun t => t.fm.load 0x2104 4 == 0xC0003F80 && t.fm.load 0x2180 4 == 0x3E804040 && t.fm.load 0x2184 4 == 0x00008000 && t.fm.load 0x2188 4 == 0
      && t.fm.load 0x2000 4 == 0) = true := by decide +kernel
/-- 07_special_functions.md, MV records of two lanes combined: n 4, mean 2.5, m2 5.0. -/
theorem test_statistics :
    (let r := combineMv (mvUpdate (mvUpdate ⟨0, 0, 0⟩ (Fmt.fp32.decode 0x3F800000)).1 (Fmt.fp32.decode 0x40000000)).1
      (mvUpdate (mvUpdate ⟨0, 0, 0⟩ (Fmt.fp32.decode 0x40400000)).1 (Fmt.fp32.decode 0x40800000)).1
     r.1 = ⟨4, 0x40200000, 0x40A00000⟩) := by decide +kernel
/-- 09_random_numbers.md: the draws of index 0 and 1 for seed 1 and key 0. -/
theorem test_draws : draw 1 0 0 = 0 ∧ draw 1 0 1 = 0xF5CB93CF := by decide +kernel
/-- 15_spine.md, an FP32 sum over six folios: 4.0. -/
theorem test_spred :
    (let l := [0x3F800000, 0x4B800000, 0x3F800000, 0xCB800000, 0x3F800000, 0x3F800000].map (fun v => ({ contrib opSPRED with bytes := toBytes 4 v } : Contrib))
     ofBytes (rootPart (contrib opSPRED) (treeParts (contrib opSPRED) (l.map leafPart))).bytes = 0x40800000) := by decide +kernel
/-- 19_registers_and_transactions.md, a claim that conflicts: SB7 held by the fault mirror, taken for the trace clock. -/
def clash : Txn := { Txn.reset with tag := 0xA7, gmask := 1, st := 2, staged := [(OWN_SB 7, 0xFF, 8)] }
theorem test_conflict : nextB (execPressPoint 0 (svcO2 [(0, clash)])) (fun t =>
    (t.txn 0).st == 4 && (t.txn 0).code == 2 && (t.txn 0).res == 7 && (t.txn 0).owner == 7 && t.fld TXN_CNT 15 0 == 1 && t.reg (OWN_SB 7) == 7) = true := by
  decide +kernel
/-- 14_instruction_encoding.md R435: SUB wraps, SRA keeps the sign, SLT and SLTU differ on 0xFFFFFFFF. -/
def svcR2 : State := { svc with sreg := [(1, 0), (2, 1), (3, 0xFFFFFFFF)] }
def rrr (d a b : Nat) : BitVec 26 := BitVec.ofNat 26 (d * 2 ^ 21 + a * 2 ^ 16 + b * 2 ^ 11)
theorem test_scalar : nextB (execSub iss (rrr 5 1 2) svcR2) (fun t => t.sr 0 0 5 == 0xFFFFFFFF) = true ∧
    nextB (execSra iss (rrr 5 3 2) svcR2) (fun t => t.sr 0 0 5 == 0xFFFFFFFF) = true ∧
    nextB (execSlt iss (rrr 5 3 2) svcR2) (fun t => t.sr 0 0 5 == 1) = true ∧
    nextB (execSltu iss (rrr 5 3 2) svcR2) (fun t => t.sr 0 0 5 == 0) = true := by decide +kernel
/-- 13_sequencer.md R422: a reserved bit of NOP traps with code 0x02 and nothing else of the bundle acts. -/
theorem test_trap : nextB (execNop iss 1 svcD) (fun t => t.fld (SEQ_TRAP 0) 28 21 == 2 && (t.ctx 0 0).st == .halted) = true := by decide +kernel
/-- Each command runs through step from the front of the queue. -/
theorem test_queue : nextB (step { svc with pending := [.nop iss 0, .nop iss 0] }) (fun t => t.pending == [.nop iss 0] && (t.ctx 0 0).pc == 1) = true := by
  decide +kernel

end Sys2Proof.Tests
end

-- ==== Canonical memories: O4 ====
section
/-! SUPPORT. What keeps the canonical form of the byte memories: the state whose memories are canonical, the shapes that the model's
functions are built of, and what each structure of functions has to keep. Below, in the model's order, stands one lemma for each of the
model's functions that give a state: `State.Canon.f` says that `f` keeps the form, `f_keeps` that the answer, slot or instruction which
`f` gives does. Memories change only by `Memory.write`, `erase` and `setByte`, so the memory's laws carry the few lemmas with content. -/

namespace Sys2Proof.Machine

-- The tests' setting: a thread per proof would not fit the compile's memory.
set_option Elab.async false

/-- Every byte memory of the state is in its canonical form. -/
def State.Canon (s : State) : Prop := s.memWf = true
/-- Whatever next state the answer gives has canonical memories. -/
def Keeps (r : Res) : Prop := ∀ ⦃t⦄, r = .next t → t.Canon
/-- The effect of a slot keeps the memories canonical. -/
structure SlotOp.Keeps (o : SlotOp) : Prop where
  run : ∀ {t}, t.Canon → (o.run t).Canon
/-- What a tiled instruction writes keeps the memories canonical. -/
structure DotInstr.Keeps (i : DotInstr) : Prop where
  write : ∀ {ts t}, t.Canon → (i.write ts t).Canon
/-- The units, the end and the tiles of a resumable instruction keep the memories canonical. -/
structure Long.Keeps (o : Long) : Prop where
  part : ∀ {lo hi t}, t.Canon → (o.part lo hi t).2.Canon
  finish : ∀ {t}, t.Canon → (o.finish t).Canon
  close : ∀ {d t}, t.Canon → (o.close d t).Canon

variable {s : State}

theorem State.canon_iff : s.Canon ↔ ((((((s.imem.wf = true ∧ s.fm.wf = true) ∧ s.ob.wf = true) ∧ s.gsb.wf = true) ∧ s.gps.wf = true) ∧
    s.fns.wf = true) ∧ s.vat.wf = true) ∧ s.hbm.wf = true := by
  simp only [State.Canon, State.memWf, Bool.and_eq_true]
/-- An update of other fields leaves the memories canonical. -/
theorem State.Canon.same {t : State} (hs : s.Canon) (e : t.imem = s.imem ∧ t.fm = s.fm ∧ t.ob = s.ob ∧ t.gsb = s.gsb ∧ t.gps = s.gps ∧
    t.fns = s.fns ∧ t.vat = s.vat ∧ t.hbm = s.hbm := by with_reducible exact ⟨rfl, rfl, rfl, rfl, rfl, rfl, rfl, rfl⟩) : t.Canon := by
  obtain ⟨himem, hfm, hob, hgsb, hgps, hfns, hvat, hhbm⟩ := e
  simpa only [State.canon_iff, himem, hfm, hob, hgsb, hgps, hfns, hvat, hhbm] using hs
theorem State.Canon.hbm (hs : s.Canon) : s.hbm.wf = true := (State.canon_iff.mp hs).2
theorem State.Canon.withHbm {m : Memory} (hs : s.Canon) (hm : m.wf = true) : State.Canon { s with hbm := m } :=
  State.canon_iff.mpr ⟨(State.canon_iff.mp hs).1, hm⟩

theorem State.Canon.ite {p : Prop} [Decidable p] {t u : State} (ht : t.Canon) (hu : u.Canon) : (if p then t else u).Canon := by
  split
  · exact ht
  · exact hu
theorem State.Canon.foldl {α : Type} {f : State → α → State} {l : List α} (hs : s.Canon)
    (hf : ∀ {t x}, t.Canon → (f t x).Canon) : (l.foldl f s).Canon :=
  List.foldlRecOn l f hs fun _ ht _ _ => hf ht
theorem wf_foldl {α : Type} {f : Memory → α → Memory} {l : List α} {m : Memory} (hm : m.wf = true)
    (hf : ∀ {m x}, Memory.wf m = true → Memory.wf (f m x) = true) : Memory.wf (l.foldl f m) = true :=
  List.foldlRecOn (motive := fun m => Memory.wf m = true) l f hm fun _ h _ _ => hf h

theorem Keeps.next (hs : s.Canon) : Keeps (.next s) := fun _ h => by cases h; exact hs
theorem Keeps.notDue {what : String} : Keeps (notDue what) := fun _ h => nomatch h
theorem Keeps.ite {p : Prop} [Decidable p] {q r : Res} (hq : Keeps q) (hr : Keeps r) : Keeps (if p then q else r) := by
  split
  · exact hq
  · exact hr
/-- A check of what the rules let happen, before the meaning. -/
theorem Keeps.guard {p : Prop} [Decidable p] {what : String} {r : Res} (hr : Keeps r) :
    Keeps (if p then Machine.notDue what else r) := .ite .notDue hr

theorem SlotOp.Keeps.of {traps wait run} (hrun : ∀ {t}, t.Canon → (run t).Canon) : SlotOp.Keeps ⟨traps, wait, run⟩ := ⟨hrun⟩
theorem DotInstr.Keeps.of {cfg cplx budget operands write} (hwrite : ∀ {ts t}, t.Canon → (write ts t).Canon) :
    DotInstr.Keeps ⟨cfg, cplx, budget, operands, write⟩ := ⟨hwrite⟩
theorem Long.Keeps.of {traps wait kind total part finish again close} (hpart : ∀ {lo hi t}, t.Canon → (part lo hi t).2.Canon)
    (hfinish : ∀ {t}, t.Canon → (finish t).Canon) (hclose : ∀ {d t}, t.Canon → (close d t).Canon) :
    Long.Keeps ⟨traps, wait, kind, total, part, finish, again, close⟩ := ⟨hpart, hfinish, hclose⟩

/-! ## Machine/State.lean -/

theorem State.Canon.reset : State.reset.Canon := rfl

/-! ## Machine/Ops.lean -/

theorem State.Canon.setReg {a v} (hs : s.Canon) : (s.setReg a v).Canon := hs.same
theorem State.Canon.setFld {a hi lo v} (hs : s.Canon) : (s.setFld a hi lo v).Canon := hs.setReg
theorem State.Canon.bump {a hi lo k} (hs : s.Canon) : (s.bump a hi lo k).Canon := hs.setFld
theorem State.Canon.setBit {a k b} (hs : s.Canon) : (s.setBit a k b).Canon := hs.setFld
theorem State.Canon.setTokens {k v} (hs : s.Canon) : (s.setTokens k v).Canon := hs.same
theorem State.Canon.setFolioState {n v} (hs : s.Canon) : (s.setFolioState n v).Canon := hs.setFld
theorem State.Canon.setCtx {n c x} (hs : s.Canon) : (s.setCtx n c x).Canon := hs.same
theorem State.Canon.setSr {n c r v} (hs : s.Canon) : (s.setSr n c r v).Canon := hs.same
theorem State.Canon.setAr {n c r v} (hs : s.Canon) : (s.setAr n c r v).Canon := hs.same
theorem State.Canon.setLcr {n c r v} (hs : s.Canon) : (s.setLcr n c r v).Canon := hs.same
theorem State.Canon.setTag {lf k r} (hs : s.Canon) : (s.setTag lf k r).Canon := hs.same
theorem State.Canon.setStr {i x} (hs : s.Canon) : (s.setStr i x).Canon := hs.same
/-- The memory of a code of SRC, or the vat, is one of the eight. -/
theorem State.Canon.mem {m} (hs : s.Canon) : (s.mem m).wf = true := by
  obtain ⟨⟨⟨⟨⟨⟨⟨himem, hfm⟩, hob⟩, hgsb⟩, hgps⟩, hfns⟩, hvat⟩, -⟩ := State.canon_iff.mp hs
  unfold State.mem
  split
  · exact hfm
  · exact hob
  · exact himem
  · exact hfns
  · exact hgsb
  · exact hgps
  · exact hvat
theorem State.Canon.setMem {m x} (hs : s.Canon) (hx : Memory.wf x = true) : (s.setMem m x).Canon := by
  obtain ⟨⟨⟨⟨⟨⟨⟨himem, hfm⟩, hob⟩, hgsb⟩, hgps⟩, hfns⟩, hvat⟩, hhbm⟩ := State.canon_iff.mp hs
  unfold State.setMem
  split <;> simp only [State.canon_iff, himem, hfm, hob, hgsb, hgps, hfns, hvat, hhbm, hx, and_self]
theorem State.Canon.put {m k bs} (hs : s.Canon) : (s.put m k bs).Canon := (hs.setMem (Memory.wf_write hs.mem k bs)).same
theorem State.Canon.wipe {m k len} (hs : s.Canon) : (s.wipe m k len).Canon := (hs.setMem (Memory.wf_erase hs.mem k len)).same
theorem State.Canon.markBad {n m a} (hs : s.Canon) : (s.markBad n m a).Canon := hs.same
theorem hbmByteTo_wf {m : Memory} {a b} (hm : m.wf = true) : (s.hbmByteTo m a b).wf = true := by
  unfold State.hbmByteTo
  split
  · exact Memory.wf_setByte (Memory.wf_setByte hm _ _) _ _
  · exact Memory.wf_setByte hm _ _
theorem State.Canon.hbmWrite {a bs} (hs : s.Canon) : (s.hbmWrite a bs).Canon := by
  unfold State.hbmWrite
  split
  · exact hs.withHbm (Memory.wf_write hs.hbm a bs)
  · exact hs.withHbm (wf_foldl hs.hbm fun h => hbmByteTo_wf h)
theorem State.Canon.hbmErase {a n} (hs : s.Canon) : (s.hbmErase a n).Canon := by
  unfold State.hbmErase
  split
  · exact hs.withHbm (Memory.wf_erase hs.hbm a n)
  · exact hs.withHbm (wf_foldl hs.hbm fun h => hbmByteTo_wf h)
theorem State.Canon.sliceIn {n k i} (hs : s.Canon) : (s.sliceIn n k i).Canon := hs.foldl fun h1 => h1.put
theorem State.Canon.deliverStep {n c i} (hs : s.Canon) : (s.deliverStep n c i).Canon := by
  unfold State.deliverStep
  split
  · exact hs
  · split
    · exact hs.setStr
    · exact hs.setStr
    · extract_lets bs s1
      split
      · exact hs.same.sliceIn
      · exact hs.same
theorem State.Canon.withLine {p} {t : State} (ht : t.Canon) : (s.withLine p t).Canon := .ite ht.same ht
theorem State.Canon.faultN {code} (hs : s.Canon) : (s.faultN code).Canon := .ite hs.setBit.same hs
theorem State.Canon.log {code unit action info} (hs : s.Canon) : (s.log code unit action info).Canon := by
  refine .withLine ?_
  extract_lets i s1 h full s2 s3
  have hs2 : s2.Canon := hs.setReg.setReg.setReg.setReg.setReg.bump
  exact .ite hs.bump.faultN (.faultN (.ite hs2.setReg.setBit.bump hs2))
theorem State.Canon.send {m} (hs : s.Canon) : (s.send m).Canon := .ite hs hs.same
theorem State.Canon.status {i code seq bid} (hs : s.Canon) : (s.status i code seq bid).Canon := hs.send
theorem State.Canon.cntStrm {k n} (hs : s.Canon) : (s.cntStrm k n).Canon := hs.bump
theorem State.Canon.entryRegs {n c e} (hs : s.Canon) : (s.entryRegs n c e).Canon :=
  .ite hs.same.setSr.setSr.setSr.setSr.setSr.setSr.setSr.setSr.setAr.setAr hs.same
theorem State.Canon.startEntry {n c} (hs : s.Canon) : (s.startEntry n c).Canon := by
  unfold State.startEntry
  split
  · exact hs
  · extract_lets door s0 s1 src
    have hs0 : s0.Canon := .ite hs.deliverStep hs
    exact .setCtx (.entryRegs (.ite hs0.setBit hs0))
theorem State.Canon.select {n} (hs : s.Canon) : (s.select n).Canon := by
  unfold State.select
  split
  · exact hs
  · split
    · exact hs
    · exact .ite hs.startEntry hs.setCtx
theorem State.Canon.endEntry {n c} (hs : s.Canon) : (s.endEntry n c).Canon := hs.same.setCtx.select
theorem State.Canon.place {n c e} (hs : s.Canon) : (s.place n c e).Canon := .select (.setCtx (.ite hs.setFolioState hs))

/-! ## Machine/LinkOps.lean -/

theorem State.Canon.setLink {p x} (hs : s.Canon) : (s.setLink p x).Canon := hs.same
theorem State.Canon.emit {p seq flit} (hs : s.Canon) : (s.emit p seq flit).Canon := by
  unfold State.emit
  extract_lets x
  split
  exact hs.setLink.same
theorem State.Canon.pump {p fuel} (hs : s.Canon) : (s.pump p fuel).Canon := by
  induction fuel generalizing s with
  | zero => exact hs
  | succ fuel ih =>
    unfold State.pump
    extract_lets x
    split
    · exact hs
    · split
      · exact hs
      · exact ih hs.setLink.emit
theorem State.Canon.queueFlit {p f} (hs : s.Canon) : (s.queueFlit p f).Canon := hs.setLink.pump
theorem State.Canon.sendSeat {typ dst payload} (hs : s.Canon) : (s.sendSeat typ dst payload).Canon := by
  unfold State.sendSeat
  extract_lets vc id fs s1
  split
  · exact hs.same.foldl fun h1 => h1.queueFlit
  · exact hs.same.bump
theorem State.Canon.sendLight {n c dst payload} (hs : s.Canon) : (s.sendLight n c dst payload).Canon := by
  unfold State.sendLight
  extract_lets id s1
  have hs1 : s1.Canon := hs.sendSeat
  clear_value s1
  exact hs1.same
theorem State.Canon.sendPort {typ p payload} (hs : s.Canon) : (s.sendPort typ p payload).Canon :=
  hs.same.foldl fun h1 => h1.queueFlit

/-! ## Machine/Held.lean -/

theorem State.Canon.hold {n tag field flags} (hs : s.Canon) : (s.hold n tag field flags).Canon := hs.same
theorem State.Canon.holdOvr {n tag sat rerun} (hs : s.Canon) : (s.holdOvr n tag sat rerun).Canon := hs.same
theorem State.Canon.dropCarries {tag seat done} (hs : s.Canon) : (s.dropCarries tag seat done).Canon := hs.same
theorem State.Canon.endCarries {tag done} (hs : s.Canon) : (s.endCarries tag done).Canon :=
  hs.dropCarries.same.foldl fun h1 => h1.sendSeat
theorem State.Canon.clearHeld {n tag} (hs : s.Canon) : (s.clearHeld n tag).Canon := hs.same
theorem State.Canon.dropHeld {n tag} (hs : s.Canon) : (s.dropHeld n tag).Canon := hs.endCarries.clearHeld
theorem State.Canon.mergeHeld {n tag} (hs : s.Canon) : (s.mergeHeld n tag).Canon :=
  .withLine (.clearHeld (.endCarries (.ite hs.setReg hs.setReg.bump.bump)))
theorem State.Canon.tagDone {n lf k status} (hs : s.Canon) : (s.tagDone n lf k status).Canon :=
  .ite hs.setTag.setCtx.mergeHeld hs.setTag.setCtx.dropHeld

/-! ## Machine/HbmOps.lean -/

theorem State.Canon.setMover {q ms} (hs : s.Canon) : (s.setMover q ms).Canon := hs.same
theorem State.Canon.setPcState {k p v} (hs : s.Canon) : (s.setPcState k p v).Canon := hs.setFld
theorem State.Canon.drive (hs : s.Canon) : s.drive.Canon := hs.foldl fun h1 => .ite h1 h1.setMover.same
theorem State.Canon.dequeue {id g} (hs : s.Canon) : (s.dequeue id g).Canon := hs.same
theorem State.Canon.cancelIn {tag q} (hs : s.Canon) : (s.cancelIn tag q).Canon := .ite (.ite hs.setMover.bump hs.setMover) hs
theorem State.Canon.recvCancelled {r} (hs : s.Canon) : (s.recvCancelled r).Canon := .ite hs hs.setTag
theorem State.Canon.cancelMoves {tag} (hs : s.Canon) : (s.cancelMoves tag).Canon :=
  .foldl (.same (hs.drive.foldl fun h1 => h1.cancelIn)) fun h1 => h1.recvCancelled

/-! ## Machine/Work.lean -/

theorem State.Canon.freeGranules {zone gs} (hs : s.Canon) : (s.freeGranules zone gs).Canon := hs.same
theorem State.Canon.setContrib {n l} (hs : s.Canon) : (s.setContrib n l).Canon := hs.same
theorem State.Canon.dropPlane {i t} (hs : s.Canon) : (s.dropPlane i t).Canon := .foldl (.ite hs hs.same) fun h1 => h1.setContrib
theorem State.Canon.dropResume {n c tag} (hs : s.Canon) : (s.dropResume n c tag).Canon := by
  unfold State.dropResume
  extract_lets x
  split
  · exact hs
  · exact .ite hs hs.setCtx
theorem State.Canon.closeTiles {n tag k} (hs : s.Canon) : (s.closeTiles n tag k).Canon := hs.same
theorem State.Canon.dropSoftmax {n tag} (hs : s.Canon) : (s.dropSoftmax n tag).Canon := .ite hs.same hs
theorem State.Canon.cancelEngines {n tag} (hs : s.Canon) : (s.cancelEngines n tag).Canon := by
  unfold State.cancelEngines
  extract_lets js gs ps s1 s2 s3
  have hs2 : s2.Canon := hs.same.foldl fun h1 => h1.closeTiles
  have hs3 : s3.Canon := by
    unfold s3
    split
    · exact .ite hs2.same hs2
    · exact hs2
  exact hs3.dropSoftmax.foldl fun h1 => h1.dropResume
theorem State.Canon.cancelWork {n tag} (hs : s.Canon) : (s.cancelWork n tag).Canon := hs.cancelEngines.cancelMoves
theorem State.Canon.failTag {n lf k} (hs : s.Canon) : (s.failTag n lf k).Canon := hs.cancelWork.tagDone
theorem State.Canon.failTags {n c} (hs : s.Canon) : (s.failTags n c).Canon := by
  unfold State.failTags
  split
  · exact hs
  · exact hs.foldl fun h1 => .ite h1 h1.failTag
theorem State.Canon.freeTags {n i} (hs : s.Canon) : (s.freeTags n i).Canon := by
  unfold State.freeTags
  split
  · exact hs
  · exact hs.foldl fun h1 => .ite h1 h1.cancelWork.setTag.dropHeld.setCtx
theorem State.Canon.abortEntry {n c i} (hs : s.Canon) : (s.abortEntry n c i).Canon := by
  unfold State.abortEntry
  extract_lets x s1 src
  have hs1 : s1.Canon := .ite hs.setCtx hs
  split
  · exact .ite (.ite hs1.setCtx hs1.endEntry) hs1
  · exact hs1
theorem State.Canon.abortFolio {n i} (hs : s.Canon) : (s.abortFolio n i).Canon :=
  hs.freeTags.cancelEngines.dropHeld.foldl fun h1 => h1.abortEntry
theorem State.Canon.abortEntries {i} (hs : s.Canon) : (s.abortEntries i).Canon :=
  .cancelMoves (hs.foldl fun h1 => h1.abortFolio)
theorem State.Canon.dropStep {i} (hs : s.Canon) : (s.dropStep i).Canon := by
  unfold State.dropStep
  split
  · exact hs
  · exact .setStr (.freeGranules (.ite hs.abortEntries.dropPlane hs))
theorem State.Canon.complete {i op code} (hs : s.Canon) : (s.complete i op code).Canon :=
  .withLine (.ite hs.setStr.same hs.setStr.setBit.same)
theorem State.Canon.completeCmd {i code} (hs : s.Canon) : (s.completeCmd i code).Canon := by
  unfold State.completeCmd
  split
  · exact hs
  · exact hs.complete
theorem State.Canon.appendBacklog {i b} (hs : s.Canon) : (s.appendBacklog i b).Canon := by
  unfold State.appendBacklog
  extract_lets x s0 n
  have hs0 : s0.Canon := hs.freeGranules
  exact .ite hs0.hbmWrite.setStr hs0.setStr.status.cntStrm.cntStrm
theorem State.Canon.stowHeld {i} (hs : s.Canon) : (s.stowHeld i).Canon := hs.setStr.foldl fun h1 => h1.appendBacklog
theorem State.Canon.eraseWheel {i} (hs : s.Canon) : (s.eraseWheel i).Canon := hs.hbmErase.hbmErase.hbmErase
theorem State.Canon.writeRecord {i} (hs : s.Canon) : (s.writeRecord i).Canon := hs.hbmWrite.setStr
theorem State.Canon.freeStream {i} (hs : s.Canon) : (s.freeStream i).Canon := by
  unfold State.freeStream
  extract_lets s0 s1 s2
  have hs0 : s0.Canon := .ite hs.writeRecord hs
  exact .setStr (.completeCmd (.ite hs0.eraseWheel hs0))
theorem State.Canon.startReplay {i} (hs : s.Canon) : (s.startReplay i).Canon := hs.setStr
theorem State.Canon.skipInput {i} (hs : s.Canon) : (s.skipInput i).Canon := .ite hs.setStr.completeCmd hs.setStr.startReplay
theorem State.Canon.stepOver {i failed} (hs : s.Canon) : (s.stepOver i failed).Canon := by
  unfold State.stepOver
  extract_lets x
  split
  · exact hs.setStr.completeCmd.stowHeld
  · exact hs.freeStream
  · exact .ite hs.setStr.stowHeld hs
  · exact .ite hs.setStr.completeCmd hs.skipInput
  · exact hs
theorem State.Canon.closeStep {i code logs} (hs : s.Canon) : (s.closeStep i code logs).Canon := by
  unfold State.closeStep
  split
  · exact hs
  · extract_lets s1 bad s2 s3
    have hs2 : s2.Canon := .ite hs.status.log hs.status
    exact .stepOver (.dropStep (.ite hs2.cntStrm (.ite hs2.cntStrm hs2)))
theorem State.Canon.endStep {i code} (hs : s.Canon) : (s.endStep i code).Canon := hs.closeStep
theorem State.Canon.failWork {n c uncounted} (hs : s.Canon) : (s.failWork n c uncounted).Canon := by
  unfold State.failWork
  split
  · exact hs
  · split
    · extract_lets x
      split
      · exact hs.setStr
      · exact hs
    · exact hs.failTags
theorem State.Canon.failStep {i uncounted} (hs : s.Canon) : (s.failStep i uncounted).Canon := by
  unfold State.failStep
  extract_lets x
  split
  · exact hs.setStr
  · exact hs
theorem State.Canon.failGiver {n x uncounted} (hs : s.Canon) : (s.failGiver n x uncounted).Canon := by
  unfold State.failGiver
  split
  · exact hs.failStep
  · exact hs.failWork
theorem State.Canon.failTagWork {tag n uncounted} (hs : s.Canon) : (s.failTagWork tag n uncounted).Canon := by
  unfold State.failTagWork
  split
  · exact hs.failStep
  · extract_lets lf k
    split
    · exact hs.failStep
    · exact .ite hs hs.failTag
theorem State.Canon.notice {i kind} (hs : s.Canon) : (s.notice i kind).Canon := hs.send
theorem State.Canon.discard {i code bs} (hs : s.Canon) : (s.discard i code bs).Canon :=
  hs.foldl fun h1 => h1.freeGranules.status
theorem State.Canon.quitStep {i code} (hs : s.Canon) : (s.quitStep i code).Canon := .dropStep (hs.foldl fun h1 => h1.status)
theorem State.Canon.dropBursts {i} (hs : s.Canon) : (s.dropBursts i).Canon := hs.discard.setStr.cntStrm
theorem State.Canon.fence (hs : s.Canon) : s.fence.Canon :=
  hs.foldl fun h1 => .ite h1.quitStep.dropBursts.setStr.completeCmd.notice h1
theorem State.Canon.pauseAll (hs : s.Canon) : s.pauseAll.Canon :=
  hs.foldl fun h1 => .ite h1.quitStep.setStr.completeCmd.stowHeld h1
theorem State.Canon.withdraw (hs : s.Canon) : s.withdraw.Canon := .ite hs (.setBit (.ite hs.log.fence hs.log.pauseAll))
theorem State.Canon.isolate {n} (hs : s.Canon) : (s.isolate n).Canon :=
  hs.foldl fun h1 => .setCtx (.failTags (.failWork (h1.foldl fun h2 => .ite h2.failStep h2)))
theorem State.Canon.refuseEntry {d target who abort} (hs : s.Canon) : (s.refuseEntry d target who abort).Canon :=
  .setReg (.ite hs.bump hs.bump)
theorem State.Canon.dropPwr {n} (hs : s.Canon) : (s.dropPwr n).Canon := by
  unfold State.dropPwr
  split
  · exact hs
  · exact .ite hs.same.refuseEntry hs.same
theorem State.Canon.takeSettings {n sp} (hs : s.Canon) : (s.takeSettings n sp).Canon :=
  .foldl (.setReg (hs.foldl fun h1 => h1.setReg)) fun h1 => h1.setBit.setCtx
theorem State.Canon.takeAsleep {n sp k} (hs : s.Canon) : (s.takeAsleep n sp k).Canon := hs.takeSettings.setFld
theorem State.Canon.retire {n} (hs : s.Canon) : (s.retire n).Canon := by
  unfold State.retire
  split
  · exact hs
  · extract_lets s0 s1 sub s2
    have hs1 : s1.Canon := hs.isolate.dropPwr.setBit.setFolioState
    have hs2 : s2.Canon := hs1.setFld.log
    split
    · clear_value sub
      split
      · exact hs2
      · split
        · exact hs2.same.setFld
        · exact hs2.same.setBit.log.withdraw
      · exact hs2
    · split
      · exact .ite hs1.setFld.log.takeAsleep hs1.setFld.log.same
      · exact hs1.log.setBit.log.withdraw
theorem State.Canon.countEvent {n code info need same} (hs : s.Canon) : (s.countEvent n code info need same).Canon :=
  .ite hs.same (.ite hs.same.retire hs.same)
theorem State.Canon.engineFault {n c code counts} (hs : s.Canon) : (s.engineFault n c code counts).Canon :=
  .ite hs.failWork.log.countEvent hs.failWork.log
theorem State.Canon.tagFault {n tag code} (hs : s.Canon) : (s.tagFault n tag code).Canon := hs.failTagWork.log.countEvent
theorem State.Canon.perr {n src a scrub} (hs : s.Canon) : (s.perr n src a scrub).Canon := by
  unfold State.perr
  split
  · exact .ite (.bump (.ite hs hs.setReg)) (.bump (.ite hs hs.setReg))
  · extract_lets s1 s2
    have hs1 : s1.Canon := .ite hs hs.setReg
    have hs2 : s2.Canon := .ite hs1.setBit hs1
    exact .ite hs2.bump hs2.bump
theorem State.Canon.failBank {b} (hs : s.Canon) : (s.failBank b).Canon := by
  unfold State.failBank
  extract_lets s1 covered
  have hs1 : s1.Canon := hs.setBit.setBit.setBit.log
  exact .ite hs1.withdraw hs1
theorem State.Canon.countBank {a} (hs : s.Canon) : (s.countBank a).Canon := .ite hs.same (.ite hs.same.failBank hs.same)
theorem State.Canon.coolBuf {h} (hs : s.Canon) : (s.coolBuf h).Canon := hs.foldl fun h1 => .ite h1.setStr h1
theorem State.Canon.coldRerun {i} (hs : s.Canon) : (s.coldRerun i).Canon := by
  unfold State.coldRerun
  split
  · exact hs.setStr
  · exact hs
theorem State.Canon.burstBad {i} (hs : s.Canon) : (s.burstBad i).Canon := by
  unfold State.burstBad
  split
  · exact hs.endStep
  · exact hs
theorem State.Canon.parityAt {n src a i} {fail : Bool → State → State} (hs : s.Canon)
    (hfail : ∀ {u t}, t.Canon → (fail u t).Canon) : (s.parityAt n src a i fail).Canon := by
  unfold State.parityAt
  extract_lets s1 gold info failed s2 s3 trig
  clear_value gold
  have hs1 : s1.Canon := hs.markBad.perr
  have hfailed {u t} (ht : t.Canon) : (failed u t).Canon := by
    unfold failed
    split
    · exact (hfail ht).coldRerun
    · exact hfail ht
  have hs3 : s3.Canon := by
    unfold s3
    split
    · exact hs1.log.burstBad
    · split
      · exact (hfailed hs1.log).coolBuf
      · exact hfailed hs1.log
    · exact hfailed hs1.log
  exact .ite hs3.countBank (hfailed hs1).log.countEvent
theorem State.Canon.parityRead {n c src a} (hs : s.Canon) : (s.parityRead n c src a).Canon := hs.parityAt fun h1 => h1.failWork
theorem State.Canon.tagParity {n tag src a} (hs : s.Canon) : (s.tagParity n tag src a).Canon :=
  hs.parityAt fun h1 => h1.failTagWork
theorem State.Canon.castLogged {i} (hs : s.Canon) : (s.castLogged i).Canon := by
  unfold State.castLogged
  split
  · exact hs
  · extract_lets s1 src s2
    have hs1 : s1.Canon := hs.markBad.perr.log
    have hs2 : s2.Canon := by
      unfold s2
      split
      · exact hs1.setStr
      · exact hs1
    exact hs2.countBank
theorem State.Canon.recordTrap {n c code} (hs : s.Canon) : (s.recordTrap n c code).Canon :=
  .withLine (.bump (.ite hs hs.setReg))
theorem State.Canon.failTrapped {n c} (hs : s.Canon) : (s.failTrapped n c).Canon := by
  unfold State.failTrapped
  extract_lets s1
  have hs1 : s1.Canon := hs.log.failTags
  split
  · exact .ite hs1.closeStep (.ite hs1.cancelEngines hs1)
  · exact hs1
theorem State.Canon.takeTrap {n c code} (hs : s.Canon) : (s.takeTrap n c code).Canon := by
  unfold State.takeTrap
  extract_lets s1 step s2 src s2' s3 src'
  have hs1 : s1.Canon := hs.recordTrap
  have hs2 : s2.Canon := hs1.failTrapped
  exact .ite (.ite hs2 hs2.endEntry) (.select (.ite hs1.setCtx hs1.setCtx.failTrapped.setCtx))
theorem both_keeps {e k} (he : e.Keeps) (hk : k.Keeps) : (SlotOp.both e k).Keeps := .of fun h1 => hk.run (he.run h1)
theorem State.Canon.storeBundle {n p} (hs : s.Canon) : (s.storeBundle n p).Canon := hs.put
theorem State.Canon.landStores {n c} (hs : s.Canon) : (s.landStores n c).Canon := hs.same.foldl fun h1 => h1.storeBundle
theorem State.Canon.advance {n c} (hs : s.Canon) : (s.advance n c).Canon := by
  unfold State.advance
  extract_lets x t
  have ht : t.Canon := hs.setCtx.landStores
  clear_value t
  exact ht.same
theorem State.Canon.haltDue {n c} (hs : s.Canon) : (s.haltDue n c).Canon := .ite hs.setCtx.select hs
theorem State.Canon.timely {n c run} (hs : s.Canon) (hrun : ∀ {t}, t.Canon → (run t).Canon) : (s.timely n c run).Canon :=
  .ite (.engineFault (hrun hs)) (hrun hs)
theorem checked_keeps {a resid draws drop run} (hdrop : ∀ {t}, t.Canon → (drop t).Canon)
    (hrun : ∀ {t}, t.Canon → (run t).Canon) (hs : s.Canon) : Keeps (Machine.checked a resid draws drop run s) := by
  unfold Machine.checked
  extract_lets n c
  split
  · exact .guard (.next (hs.timely hrun))
  · exact .next (.parityRead (hdrop hs))
  · exact .next (.parityRead (hrun hs))
  · split
    · exact .next (.engineFault (hrun hs))
    · exact .notDue
  · exact .ite (.next (.engineFault (hrun hs))) .notDue
theorem issue_keeps {a op resid draws} (hop : ∀ {t}, (op t).Keeps) (hs : s.Canon) : Keeps (Machine.issue a op resid draws s) :=
    by
  unfold Machine.issue
  extract_lets n c x o
  split
  · exact .notDue
  · split
    · exact .notDue
    · split
      · exact .notDue
      · split
        · exact .notDue
        · split
          · exact .next hs.takeTrap
          · split
            · exact .next hs.setCtx
            · exact checked_keeps (fun h1 => h1.advance) (fun h1 => hop.run h1.advance) hs
theorem goOn_keeps {a resid draws run} (hrun : ∀ {t}, t.Canon → (run t).Canon) (hs : s.Canon) : Keeps
    (Machine.goOn a resid draws run s) :=
  .guard (.guard (.guard (checked_keeps (fun h1 => h1.setCtx) hrun hs)))

/-! ## Machine/Operands.lean -/

theorem State.Canon.fmWrite {n c r bs} (hs : s.Canon) : (s.fmWrite n c r bs).Canon := hs.put
theorem State.Canon.fmStore {n c r len v} (hs : s.Canon) : (s.fmStore n c r len v).Canon := hs.put
theorem State.Canon.vatWrite {h off bs} (hs : s.Canon) : (s.vatWrite h off bs).Canon := hs.put

/-! ## Machine/Scalar.lean -/

theorem opNop_keeps {_n _c w} {_s : State} : (opNop _n _c w _s).Keeps := .of fun h1 => h1
theorem opAlu_keeps {f n c w} : (opAlu f n c w s).Keeps := .of fun h1 => h1.setSr
theorem opImm_keeps {f n c w} : (opImm f n c w s).Keeps := .of fun h1 => h1.setSr
theorem opShImm_keeps {f n c w} : (opShImm f n c w s).Keeps := .of fun h1 => opImm_keeps.run h1
theorem opAdd_keeps {n c w} : (opAdd n c w s).Keeps := opAlu_keeps
theorem opSub_keeps {n c w} : (opSub n c w s).Keeps := opAlu_keeps
theorem opAnd_keeps {n c w} : (opAnd n c w s).Keeps := opAlu_keeps
theorem opOr_keeps {n c w} : (opOr n c w s).Keeps := opAlu_keeps
theorem opXor_keeps {n c w} : (opXor n c w s).Keeps := opAlu_keeps
theorem opShl_keeps {n c w} : (opShl n c w s).Keeps := opAlu_keeps
theorem opShr_keeps {n c w} : (opShr n c w s).Keeps := opAlu_keeps
theorem opSra_keeps {n c w} : (opSra n c w s).Keeps := opAlu_keeps
theorem opMul_keeps {n c w} : (opMul n c w s).Keeps := opAlu_keeps
theorem opSlt_keeps {n c w} : (opSlt n c w s).Keeps := opAlu_keeps
theorem opSltu_keeps {n c w} : (opSltu n c w s).Keeps := opAlu_keeps
theorem opAddi_keeps {n c w} : (opAddi n c w s).Keeps := opImm_keeps
theorem opAndi_keeps {n c w} : (opAndi n c w s).Keeps := opImm_keeps
theorem opOri_keeps {n c w} : (opOri n c w s).Keeps := opImm_keeps
theorem opShli_keeps {n c w} : (opShli n c w s).Keeps := opShImm_keeps
theorem opShri_keeps {n c w} : (opShri n c w s).Keeps := opShImm_keeps
theorem opSrai_keeps {n c w} : (opSrai n c w s).Keeps := opShImm_keeps
theorem opLui_keeps {n c w} {_s : State} : (opLui n c w _s).Keeps := .of fun h1 => h1.setSr
theorem opLdw_keeps {n c w} : (opLdw n c w s).Keeps := .of fun h1 => h1.setSr
theorem opStw_keeps {n c w} : (opStw n c w s).Keeps := .of fun h1 => h1.fmStore
theorem opLdp_keeps {n c w} : (opLdp n c w s).Keeps := .of fun h1 => h1.setSr.setSr
theorem opStp_keeps {n c w} : (opStp n c w s).Keeps := .of fun h1 => h1.fmStore
theorem opLda_keeps {n c w} : (opLda n c w s).Keeps := .of fun h1 => h1.setAr
theorem opSta_keeps {n c w} : (opSta n c w s).Keeps := .of fun h1 => h1.fmStore
theorem opAadd_keeps {n c w} : (opAadd n c w s).Keeps := .of fun h1 => h1.setAr
theorem opAaddi_keeps {n c w} : (opAaddi n c w s).Keeps := .of fun h1 => h1.setAr
theorem opAmov_keeps {n c w} : (opAmov n c w s).Keeps := .of fun h1 => h1.setAr
theorem opSmov_keeps {n c w} : (opSmov n c w s).Keeps := .of fun h1 => h1.setSr.setSr
theorem opLcset_keeps {n c w} : (opLcset n c w s).Keeps := .of fun h1 => h1.setLcr
theorem scalar_keeps {op a w} (hop : ∀ {x1 x2 x3 t}, (op x1 x2 x3 t).Keeps) (hs : s.Canon) : Keeps (Machine.scalar op a w s) :=
  issue_keeps hop hs

/-! ## Machine/Control.lean -/

theorem State.Canon.jump {n c b} (hs : s.Canon) : (s.jump n c b).Canon := hs.setCtx
theorem opBr_keeps {n c w} : (opBr n c w s).Keeps := .of fun h1 => .ite h1.jump h1
theorem opJmp_keeps {n c w} {_s : State} : (opJmp n c w _s).Keeps := .of fun h1 => h1.jump
theorem opCall_keeps {n c w} : (opCall n c w s).Keeps := .of fun h1 => h1.setCtx
theorem opRet_keeps {n c w} : (opRet n c w s).Keeps :=
  .of (fun h1 => by
      extract_lets x
      split
      · exact h1.setCtx
      · exact h1)
theorem opLoop_keeps {n c w} : (opLoop n c w s).Keeps := .of fun h1 => .ite h1.setLcr h1.setLcr.jump
theorem State.Canon.landAll {n} (hs : s.Canon) : (s.landAll n).Canon := hs.same.foldl fun h1 => h1.storeBundle
theorem opIfence_keeps {n _c w} {_s : State} : (opIfence n _c w _s).Keeps := .of fun h1 => h1.landAll
theorem opIstore_keeps {n c w} : (opIstore n c w s).Keeps := .of fun h1 => h1.same
theorem State.Canon.markEnded {i k} (hs : s.Canon) : (s.markEnded i k).Canon := by
  unfold State.markEnded
  extract_lets x
  split
  · exact hs.setStr
  · exact hs
theorem opSdone_keeps {n c w} : (opSdone n c w s).Keeps :=
  .of (fun h1 => by
      extract_lets u
      have hu : u.Canon := by
        unfold u
        split
        · exact h1.markEnded
        · exact h1
      exact hu.endEntry)
theorem opYield_keeps {n c w} : (opYield n c w s).Keeps := .of fun h1 => h1.endEntry
theorem State.Canon.setTagSt {n c k st} (hs : s.Canon) : (s.setTagSt n c k st).Canon := by
  unfold State.setTagSt
  split
  · exact hs.setTag
  · exact hs
theorem opTopen_keeps {n c w} : (opTopen n c w s).Keeps :=
  .of (fun h1 => by
      split
      · exact h1.setTag
      · exact h1)
theorem opTclose_keeps {n c w} : (opTclose n c w s).Keeps := .of fun h1 => h1.setTagSt
theorem opTcancel_keeps {n c w} : (opTcancel n c w s).Keeps :=
  .of (fun h1 => by
      split
      · split
        · exact h1.setTagSt.cancelWork
        · exact h1
      · exact h1)
theorem State.Canon.takeRecord {n c lf k} (hs : s.Canon) : (s.takeRecord n c lf k).Canon := hs.setCtx.setTag
theorem opTwait_keeps {n c w} : (opTwait n c w s).Keeps :=
  .of (fun h1 => by
      split
      · exact h1.takeRecord
      · exact h1)
theorem opTpoll_keeps {n c w} : (opTpoll n c w s).Keeps :=
  .of (fun h1 => by
      split
      · exact h1.takeRecord.setSr
      · exact h1.setSr)
theorem opReservedSop_keeps : opReservedSop.Keeps := .of fun h1 => h1
theorem opMixed_keeps {mix o} (ho : o.Keeps) : (opMixed mix o).Keeps := .of fun h1 => ho.run h1
theorem scalarSlot_keeps {mix n c sc} : (Machine.scalarSlot mix n c sc s).Keeps := by
  unfold Machine.scalarSlot
  extract_lets w
  split
  · exact opNop_keeps
  · exact opAdd_keeps
  · exact opSub_keeps
  · exact opAnd_keeps
  · exact opOr_keeps
  · exact opXor_keeps
  · exact opShl_keeps
  · exact opShr_keeps
  · exact opSra_keeps
  · exact opMul_keeps
  · exact opSlt_keeps
  · exact opSltu_keeps
  · exact opAddi_keeps
  · exact opAndi_keeps
  · exact opOri_keeps
  · exact opLui_keeps
  · exact opShli_keeps
  · exact opShri_keeps
  · exact opSrai_keeps
  · exact opLdw_keeps
  · exact opStw_keeps
  · exact opLdp_keeps
  · exact opStp_keeps
  · exact opLda_keeps
  · exact opSta_keeps
  · exact opAadd_keeps
  · exact opAaddi_keeps
  · exact opAmov_keeps
  · exact opSmov_keeps
  · exact opLcset_keeps
  · exact opBr_keeps
  · exact opJmp_keeps
  · exact opCall_keeps
  · exact opRet_keeps
  · exact opLoop_keeps
  · exact opMixed_keeps opIfence_keeps
  · exact opMixed_keeps opSdone_keeps
  · exact opMixed_keeps opYield_keeps
  · exact opMixed_keeps (.of fun h1 => h1)
  · exact opMixed_keeps opIstore_keeps
  · exact opTopen_keeps
  · exact opTclose_keeps
  · exact opTcancel_keeps
  · exact opTwait_keeps
  · exact opTpoll_keeps
  · exact opReservedSop_keeps

/-! ## Machine/Flags.lean -/

theorem State.Canon.holdFl {n tag field f} (hs : s.Canon) : (s.holdFl n tag field f).Canon := .ite hs hs.hold

/-! ## Machine/MoveOps.lean -/

theorem State.Canon.addMove {n c tag src dst len stripe owner dests} (hs : s.Canon) :
    (s.addMove n c tag src dst len stripe owner dests).Canon := by
  unfold State.addMove
  extract_lets m src
  have hsrc : src.Canon := hs.setMover
  clear_value src
  exact hsrc.same
theorem State.Canon.granLand {m g bs} (hs : s.Canon) : (s.granLand m g bs).Canon := by
  unfold State.granLand
  split
  · split
    · exact hs.hbmWrite
    · exact hs.vatWrite
    · exact hs.put
    · exact hs
  · exact hs.foldl fun h1 => h1.put
theorem State.Canon.landed {tag} (hs : s.Canon) : (s.landed tag).Canon :=
  hs.foldl fun h1 => h1.foldl fun h2 => .ite (h2.foldl fun h3 => h3.granLand) h2
theorem State.Canon.setFetch {n c k f} (hs : s.Canon) : (s.setFetch n c k f).Canon := hs.same
theorem State.Canon.issueTile {n c k} (hs : s.Canon) : (s.issueTile n c k).Canon := by
  unfold State.issueTile
  split
  · exact hs
  · exact .ite hs.addMove.setFetch hs
theorem State.Canon.issueTiles {n c k} (hs : s.Canon) : (s.issueTiles n c k).Canon := by
  unfold State.issueTiles
  split
  · exact hs
  · exact hs.foldl fun h1 => h1.issueTile
theorem State.Canon.relOne {n c k} (hs : s.Canon) : (s.relOne n c k).Canon := by
  unfold State.relOne
  split
  · exact hs
  · exact .ite hs.setFetch hs.setFetch.issueTiles
theorem State.Canon.relTiles {n c k m} (hs : s.Canon) : (s.relTiles n c k m).Canon := by
  induction m generalizing s with
  | zero => exact hs
  | succ m ih => exact ih hs.relOne
theorem State.Canon.issueWaiting {q} (hs : s.Canon) : (s.issueWaiting q).Canon :=
  hs.foldl fun h1 => h1.foldl fun h2 => h2.foldl fun h3 => .ite h3.issueTiles h3

/-! ## Machine/Rng.lean -/

theorem State.Canon.setGen {n c g} (hs : s.Canon) : (s.setGen n c g).Canon := hs.same

/-! ## Machine/Engine.lean -/

theorem State.Canon.relEng {n c e} (hs : s.Canon) : (s.relEng n c e).Canon := .ite hs.relOne hs
theorem engSlot_keeps {lvl u n c e ts w run} (hrun : ∀ {t}, t.Canon → (run t).Canon) :
    (Machine.engSlot lvl u n c e s ts w run).Keeps :=
  .of fun h1 => .relEng (hrun h1)
theorem engSlotKeep_keeps {lvl u n c e ts w run} (hrun : ∀ {t}, t.Canon → (run t).Canon) :
    (Machine.engSlotKeep lvl u n c e s ts w run).Keeps :=
  .of hrun
theorem engine_keeps {op resid a e} (hop : ∀ {n c e t}, (op n c e t).Keeps) (hs : s.Canon) : Keeps (engine op resid a e s) := by
  unfold engine
  exact issue_keeps (both_keeps hop scalarSlot_keeps) hs
theorem State.Canon.irqMax {n fclk} (hs : s.Canon) : (s.irqMax n fclk).Canon := .ite hs hs.setFld
theorem State.Canon.suspend {n c k} (hs : s.Canon) : (s.suspend n c k).Canon := hs.setCtx.startEntry
theorem State.Canon.after {o n c r total x} (ho : o.Keeps) (hx : x.2.Canon) : (Long.after o n c r total x).Canon :=
  .ite hx.setCtx (ho.finish hx.setCtx)
theorem State.Canon.longRun {n c cut o r} {t : State} (ho : o.Keeps) (ht : t.Canon) : (Machine.longRun n c cut o r t).Canon :=
  .haltDue (.after ho (ho.part ht))
theorem State.Canon.withRegs {n c ss as} (hs : s.Canon) : (s.withRegs n c ss as).Canon := hs.same
theorem longEngine_keeps {opc op resid a e} (hop : ∀ {x1 x2 x3 t}, (op x1 x2 x3 t).Keeps) (hs : s.Canon) : Keeps
    (Machine.longEngine opc op resid a e s) := by
  unfold Machine.longEngine
  extract_lets n c b
  split
  · exact .ite (goOn_keeps (fun h1 => h1.longRun hop) hs) .notDue
  · exact issue_keeps (.of fun h1 => .longRun hop (scalarSlot_keeps.run h1)) hs
theorem State.Canon.holdEng {n c e field f} (hs : s.Canon) : (s.holdEng n c e field f).Canon := hs.holdFl

/-! ## Machine/SpineOps.lean -/

theorem State.Canon.contribute {n x} (hs : s.Canon) : (s.contribute n x).Canon := hs.setContrib

/-! ## Machine/Bursts.lean -/

theorem State.Canon.granWrite {zone gs off bs} (hs : s.Canon) : (s.granWrite zone gs off bs).Canon :=
  hs.foldl fun h1 => .ite h1.put h1

/-! ## Machine/Vector.lean -/

theorem State.Canon.setLanes {n v f} (hs : s.Canon) : (s.setLanes n v f).Canon := hs.same
theorem State.Canon.setVm {n k v} (hs : s.Canon) : (s.setVm n k v).Canon := .ite hs hs.same
theorem opFp_keeps {u g n c e} : (opFp u g n c e s).Keeps := engSlot_keeps fun h1 => h1.setLanes.holdEng
theorem opVadd_keeps {n c e} : (opVadd n c e s).Keeps := opFp_keeps
theorem opVsub_keeps {n c e} : (opVsub n c e s).Keeps := opFp_keeps
theorem opVmul_keeps {n c e} : (opVmul n c e s).Keeps := opFp_keeps
theorem opVfma_keeps {n c e} : (opVfma n c e s).Keeps := opFp_keeps
theorem opVmax_keeps {n c e} : (opVmax n c e s).Keeps := opFp_keeps
theorem opVmin_keeps {n c e} : (opVmin n c e s).Keeps := opFp_keeps
theorem opBits_keeps {u g n c e} : (opBits u g n c e s).Keeps := engSlot_keeps fun h1 => h1.setLanes
theorem opVabs_keeps {n c e} : (opVabs n c e s).Keeps := opBits_keeps
theorem opVneg_keeps {n c e} : (opVneg n c e s).Keeps := opBits_keeps
theorem opVsel_keeps {n c e} : (opVsel n c e s).Keeps := opBits_keeps
theorem opVcmp_keeps {n c e} : (opVcmp n c e s).Keeps := engSlot_keeps fun h1 => h1.setVm.holdEng
theorem opLanes_keeps {u extra g n c e} : (opLanes u extra g n c e s).Keeps := engSlot_keeps fun h1 => h1.setLanes
theorem opInt_keeps {g n c e} : (opInt g n c e s).Keeps := opLanes_keeps
theorem opViadd_keeps {n c e} : (opViadd n c e s).Keeps := opInt_keeps
theorem opVisub_keeps {n c e} : (opVisub n c e s).Keeps := opInt_keeps
theorem opVimul_keeps {n c e} : (opVimul n c e s).Keeps := opInt_keeps
theorem opVand_keeps {n c e} : (opVand n c e s).Keeps := opInt_keeps
theorem opVor_keeps {n c e} : (opVor n c e s).Keeps := opInt_keeps
theorem opVxor_keeps {n c e} : (opVxor n c e s).Keeps := opInt_keeps
theorem opVshl_keeps {n c e} : (opVshl n c e s).Keeps := opInt_keeps
theorem opVshrl_keeps {n c e} : (opVshrl n c e s).Keeps := opInt_keeps
theorem opVshra_keeps {n c e} : (opVshra n c e s).Keeps := opInt_keeps
theorem opVimax_keeps {n c e} : (opVimax n c e s).Keeps := opInt_keeps
theorem opVimin_keeps {n c e} : (opVimin n c e s).Keeps := opInt_keeps
theorem opVicmp_keeps {n c e} : (opVicmp n c e s).Keeps := engSlot_keeps fun h1 => h1.setVm
theorem opViota_keeps {n c e} : (opViota n c e s).Keeps := opLanes_keeps
theorem opVmov_keeps {n c e} : (opVmov n c e s).Keeps := opLanes_keeps
theorem opVperm_keeps {n c e} : (opVperm n c e s).Keeps := opLanes_keeps
theorem opVperm2_keeps {n c e} : (opVperm2 n c e s).Keeps := opLanes_keeps
theorem opVshuf_keeps {n c e} : (opVshuf n c e s).Keeps := opLanes_keeps
theorem opVcvt_keeps {n c e} : (opVcvt n c e s).Keeps := engSlot_keeps fun h1 => h1.setLanes.holdEng
theorem opVpack_keeps {n c e} : (opVpack n c e s).Keeps := engSlot_keeps fun h1 => h1.setLanes.holdEng
theorem opVunpack_keeps {n c e} : (opVunpack n c e s).Keeps := engSlot_keeps fun h1 => h1.setLanes.holdEng

/-! ## Machine/VecMem.lean -/

theorem opVld_keeps {n c e} : (opVld n c e s).Keeps := engSlot_keeps fun h1 => h1.setLanes
theorem opVst_keeps {n c e} : (opVst n c e s).Keeps := engSlot_keeps fun h1 => h1.foldl fun h2 => h2.fmStore
theorem State.Canon.setSf {n k j r} (hs : s.Canon) : (s.setSf n k j r).Canon := hs.same
theorem State.Canon.setSfK {n k v} (hs : s.Canon) : (s.setSfK n k v).Canon := hs.same
theorem State.Canon.setAm {n k j r} (hs : s.Canon) : (s.setAm n k j r).Canon := hs.same
theorem opStat_keeps {kind upd n c e} : (opStat kind upd n c e s).Keeps :=
  engSlot_keeps fun h1 => .holdEng (.setSfK (h1.foldl fun h2 => h2.setSf))
theorem opVssq_keeps {n c e} : (opVssq n c e s).Keeps := opStat_keeps
theorem opVmv_keeps {n c e} : (opVmv n c e s).Keeps := opStat_keeps
theorem opVsclr_keeps {n c e} : (opVsclr n c e s).Keeps := engSlot_keeps fun h1 => h1.same.setSfK
theorem opVamax_keeps {n c e} : (opVamax n c e s).Keeps :=
  engSlot_keeps fun h1 => .holdEng (h1.foldl fun h2 => .ite h2.setAm h2)
theorem opVaclr_keeps {n c e} : (opVaclr n c e s).Keeps := engSlot_keeps fun h1 => h1.foldl fun h2 => h2.setAm
theorem State.Canon.setSlot {n x} (hs : s.Canon) : (s.setSlot n x).Canon := hs.same
theorem opRecord_keeps {file len bs n c e} : (opRecord file len bs n c e s).Keeps :=
  engSlot_keeps fun h1 => .holdEng (.ite h1.setSlot h1.fmWrite)
theorem opVstred_keeps {n c e} : (opVstred n c e s).Keeps := opRecord_keeps
theorem opVstst_keeps {n c e} : (opVstst n c e s).Keeps := opRecord_keeps
theorem opVamred_keeps {n c e} : (opVamred n c e s).Keeps := opRecord_keeps
theorem State.Canon.zrdBad {n c} (hs : s.Canon) : (s.zrdBad n c).Canon := by
  unfold State.zrdBad
  split
  · exact .ite hs.endStep hs.failTags
  · exact hs
theorem opVzrd_keeps {n c e} : (opVzrd n c e s).Keeps :=
  .of (fun h1 => h1.fmWrite) (fun h1 => .ite h1.relEng h1.relEng.zrdBad) fun h1 => h1

/-! ## Machine/Special.lean -/

theorem opSfn_keeps {n c e} : (opSfn n c e s).Keeps := engSlot_keeps fun h1 => h1.setLanes.holdEng
theorem State.Canon.storeStat {n} (hs : s.Canon) : (s.storeStat n).Canon := hs.setFld.setBit
theorem State.Canon.setSa {n j v} (hs : s.Canon) : (s.setSa n j v).Canon := hs.same
theorem State.Canon.setSrow {n v} (hs : s.Canon) : (s.setSrow n v).Canon := hs.same
theorem State.Canon.sxOwn {n tag} (hs : s.Canon) : (s.sxOwn n tag).Canon := hs.same
theorem State.Canon.sxClear {n} (hs : s.Canon) : (s.sxClear n).Canon := hs.same.setSrow
theorem opSxclr_keeps {n c e} : (opSxclr n c e s).Keeps := engSlot_keeps fun h1 => h1.sxClear
theorem opSxacc_keeps {n c e} : (opSxacc n c e s).Keeps :=
  engSlot_keeps fun h1 => .holdEng (.sxOwn (h1.foldl fun h2 => h2.setSa))
theorem opSxred_keeps {n c e} : (opSxred n c e s).Keeps :=
  engSlot_keeps (fun h1 => by
      extract_lets t1 t2
      have ht2 : t2.Canon := .holdEng (.sxOwn (.setSrow (h1.foldl fun h2 => h2.setSa)))
      exact .ite ht2.contribute ht2)
theorem opSxdiv_keeps {n c e} : (opSxdiv n c e s).Keeps := engSlot_keeps fun h1 => h1.setLanes.holdEng

/-! ## Machine/Gate.lean -/

theorem State.Canon.setGates {n l} (hs : s.Canon) : (s.setGates n l).Canon := hs.same
theorem State.Canon.runGupd {n g} (hs : s.Canon) : (s.runGupd n g).Canon := by
  unfold State.runGupd
  extract_lets ws P fn outs s1 xs
  split
  exact .holdFl (.setSlot (hs.foldl (fun h1 => h1.foldl (fun h2 => by
      split
      · exact h2.put
      · exact h2))))
theorem State.Canon.gateRun {n} (hs : s.Canon) : (s.gateRun n).Canon := by
  unfold State.gateRun
  split
  · exact .ite hs.setGates.runGupd hs
  · exact hs
theorem State.Canon.feedPend {n} (hs : s.Canon) : (s.feedPend n).Canon := by
  unfold State.feedPend
  extract_lets vs k s1
  have hs1 : s1.Canon := hs.setGates
  clear_value s1
  exact hs1.same
theorem State.Canon.feedGate {n tag vs} (hs : s.Canon) : (s.feedGate n tag vs).Canon := hs.same.feedPend.gateRun
theorem opGupd_keeps {n c e} : (opGupd n c e s).Keeps := engSlot_keeps fun h1 => h1.setGates.feedPend.gateRun
theorem opGpload_keeps {n c e} : (opGpload n c e s).Keeps := engSlot_keeps fun h1 => h1.put
theorem opFnload_keeps {n c e} : (opFnload n c e s).Keeps := engSlot_keeps fun h1 => h1.put.storeStat

/-! ## Machine/DotOps.lean -/

theorem State.Canon.obWrite {n arr a bs} (hs : s.Canon) : (s.obWrite n arr a bs).Canon := hs.put.put
theorem State.Canon.outRow {n c e d unit tag cols r} {t : State} (ht : t.Canon) : (s.outRow n c e d unit tag cols t r).Canon :=
    by
  unfold State.outRow
  extract_lets o P xs a biasAt ys rs field put a' b
  split
  · extract_lets t1 t2 t2'
    have ht2 : t2.Canon := .ite ht.holdFl.obWrite ht.holdFl.fmWrite
    have ht2' : t2'.Canon := .ite ht.holdFl.feedGate (.ite (.ite ht2.obWrite ht2.fmWrite) ht2)
    split
    · exact ht2'
    · split
      exact ht2'.fmWrite.holdFl
theorem State.Canon.setJobs {n l} (hs : s.Canon) : (s.setJobs n l).Canon := hs.same
theorem State.Canon.done {i n tag ts} {t : State} (hi : i.Keeps) (ht : t.Canon) : (DotInstr.done i n tag ts t).Canon :=
  hi.write (.ite ht ht.holdOvr)
theorem State.Canon.settle {i n c tag d} {t : State} (hi : i.Keeps) (ht : t.Canon) : (DotInstr.settle i n c tag d t).Canon :=
  .ite ht.setCtx (ht.setCtx.done hi)
theorem State.Canon.runUnits {n c unit fuel lo} {t : State} (hunit : ∀ {k t}, t.Canon → (unit k t).Canon) (ht : t.Canon) :
    (Machine.runUnits n c unit fuel lo t).2.Canon := by
  induction fuel generalizing lo t with
  | zero => exact ht
  | succ fuel ih =>
    unfold Machine.runUnits
    extract_lets u
    split
    · exact hunit ht
    · exact ih (hunit ht)

/-! ## Machine/Arrays.lean -/

theorem State.Canon.setArray {n k a} (hs : s.Canon) : (s.setArray n k a).Canon := hs.same
theorem opAload_keeps {n c e} : (opAload n c e s).Keeps := engSlot_keeps fun h1 => h1.setArray
theorem asDrain_keeps {n c e} : (Machine.asDrain n c e s).Keeps := .of fun h1 => h1.foldl fun h2 => h2.outRow
theorem State.Canon.asDrainRow {n c e i} {t : State} (ht : t.Canon) : (Machine.asDrainRow n c e s i t).Canon :=
  ht.settle asDrain_keeps
theorem State.Canon.swapArr {n k} (hs : s.Canon) : (s.swapArr n k).Canon := hs.setArray
theorem State.Canon.setSlots {n arr slot cols f pair accs} (hs : s.Canon) : (s.setSlots n arr slot cols f pair accs).Canon :=
  hs.same
theorem State.Canon.asAccumRow {n c e i} {t : State} (ht : t.Canon) : (Machine.asAccumRow n c e s i t).Canon := by
  unfold Machine.asAccumRow
  extract_lets k slot a g cols last fresh x accs x' rest t1 t2 sat t3
  have ht1 : t1.Canon := ht.setArray.setSlots
  have ht2 : t2.Canon := ht1.setArray
  exact .ite (.foldl (.ite ht2.holdOvr ht2) fun h1 => h1.outRow) ht1
theorem opAstream_keeps {n c e} : (opAstream n c e s).Keeps :=
  .of (fun h1 => h1.runUnits (fun h2 => by
      extract_lets t0
      have ht0 : t0.Canon := .ite h2.swapArr h2
      exact .ite ht0.asAccumRow ht0.asDrainRow)) (fun h1 => h1.relEng) (fun h1 => h1.settle asDrain_keeps)
theorem afInstr_keeps {n c e} : (Machine.afInstr n c e s).Keeps :=
  .of fun h1 => h1.foldl fun h2 => h2.setSlots.foldl fun h3 => h3.outRow
theorem State.Canon.afUnit {n c e x} {t : State} (ht : t.Canon) : (Machine.afUnit n c e s x t).Canon := by
  unfold Machine.afUnit
  extract_lets k per g h idx rows z u i cols cfg a b a0 a1 t1 chs accs kept a2 t2
  have ht2 : t2.Canon := ht.setArray.setArray.setSlots
  exact .ite (ht2.setArray.settle afInstr_keeps) ht2
theorem opAfold_keeps {n c e} : (opAfold n c e s).Keeps :=
  .of (fun h1 => h1.runUnits fun h2 => h2.afUnit) (fun h1 => h1.relEng) fun h1 => h1.settle afInstr_keeps

/-! ## Machine/Rings.lean -/

theorem State.Canon.setCredit {key v} (hs : s.Canon) : (s.setCredit key v).Canon := hs.same
theorem State.Canon.ringPut {r n bs} (hs : s.Canon) : (s.ringPut r n bs).Canon := by
  unfold State.ringPut
  extract_lets key s1
  have hs1 : s1.Canon := hs.foldl fun h1 => h1.vatWrite
  clear_value s1
  exact hs1.same
theorem State.Canon.ringFree {r n} (hs : s.Canon) : (s.ringFree r n).Canon := .ite hs.same.setCredit hs.same.setCredit.sendSeat

/-! ## Machine/Sewing.lean -/

theorem State.Canon.setLane {n k h l} (hs : s.Canon) : (s.setLane n k h l).Canon := hs.same
theorem State.Canon.setFile {n k h l} (hs : s.Canon) : (s.setFile n k h l).Canon := hs.same
theorem State.Canon.setInbox {n l} (hs : s.Canon) : (s.setInbox n l).Canon := hs.same
theorem State.Canon.postCarry {lf x} (hs : s.Canon) : (s.postCarry lf x).Canon := hs.same
theorem State.Canon.passCarry {n dest key tag vs} (hs : s.Canon) : (s.passCarry n dest key tag vs).Canon :=
  .ite hs.postCarry hs.same.sendSeat
theorem execCarryPass_keeps {n} (hs : s.Canon) : Keeps (execCarryPass n s) := by
  unfold execCarryPass
  split
  · exact .notDue
  · split
    · exact .notDue
    · exact .guard (.next hs.same.setInbox)
theorem State.Canon.scanAll {n c e t} {m : State} (hm : m.Canon) : (Machine.scanAll n c e s t m).Canon := by
  unfold Machine.scanAll
  extract_lets E a tag m1 w
  have hm1 : m1.Canon := hm.foldl (fun h1 => by
      split
      · extract_lets m r z
        have hm' : m.Canon := h1.setLane.holdFl
        split
        · exact hm'.fmStore
        · exact hm'.fmStore.holdFl
        · exact hm'.fmStore
        · exact hm')
  exact .ite (hm1.foldl fun h1 => h1.fmStore.holdFl) hm1
theorem State.Canon.summAll {n c e t} {m : State} (hm : m.Canon) : (Machine.summAll n c e s t m).Canon :=
  hm.foldl fun h1 => h1.setLane.holdFl
theorem State.Canon.stepsFrom {f t k} {m : State} (hf : ∀ {k t}, t.Canon → (f k t).Canon) (hm : m.Canon) :
    (Machine.stepsFrom f t k m).Canon := by
  induction k generalizing t m with
  | zero => exact hm
  | succ k ih => exact ih (hf hm)
theorem State.Canon.carryIn {n c e} {m : State} (hm : m.Canon) : (Machine.carryIn n c e s m).Canon := by
  unfold Machine.carryIn
  extract_lets a set lo
  split
  · exact hm.foldl fun h1 => h1.setLane
  · exact hm.foldl fun h1 => h1.setLane
  · split <;> exact hm.foldl fun h1 => h1.setLane
  · split
    · exact hm.setInbox.foldl fun h1 => h1.setLane
    · exact hm
theorem State.Canon.carryOut {n c e} {m : State} (hm : m.Canon) : (Machine.carryOut n c e s m).Canon := by
  unfold Machine.carryOut
  extract_lets a ks
  split
  · exact hm
  · exact hm.foldl fun h1 => h1.setFile
  · exact hm.foldl (fun h1 => by
        split
        · exact h1.fmStore
        · exact h1.fmStore.holdFl
        · exact h1.fmStore)
  · exact hm.passCarry
theorem State.Canon.summOut {n c e} {m : State} (hm : m.Canon) : (Machine.summOut n c e s m).Canon := by
  unfold Machine.summOut
  extract_lets a E ks
  split
  · exact hm
  · exact hm.foldl fun h1 => h1.setFile
  · exact hm.foldl fun h1 => h1.fmStore.fmStore
  · exact hm.setSlot
theorem opSscan_keeps {n c e} : (opSscan n c e s).Keeps :=
  .of (fun h1 => .stepsFrom (fun h2 => h2.scanAll) <| .ite h1.carryIn h1) (fun h1 => h1.carryOut.relEng) fun h1 => h1
theorem opSsumm_keeps {n c e} : (opSsumm n c e s).Keeps :=
  .of (fun h1 => .stepsFrom (fun h2 => h2.summAll) <| .ite (h1.foldl fun h2 => h2.setLane) h1) (fun h1 => h1.summOut.relEng)
    fun h1 => h1
theorem State.Canon.convUnit {n c e u} {m : State} (hm : m.Canon) : (Machine.convUnit n c e s u m).Canon :=
  hm.foldl fun h1 => h1.foldl fun h2 => .ite h2.fmStore.holdFl h2
theorem State.Canon.convHist {n c e} {m : State} (hm : m.Canon) : (Machine.convHist n c e s m).Canon := hm.fmWrite
theorem opSconv_keeps {n c e} : (opSconv n c e s).Keeps :=
  .of (fun h1 => h1.stepsFrom fun h2 => h2.convUnit) (fun h1 => .relEng <| .ite h1.convHist h1) fun h1 => h1
theorem sewing_keeps {opc op a e} (hop : ∀ {x1 x2 x3 t}, (op x1 x2 x3 t).Keeps) (hs : s.Canon) : Keeps
    (Machine.sewing opc op a e s) :=
  .guard (longEngine_keeps hop hs)

/-! ## Machine/Spine.lean -/

theorem State.Canon.offer {g} (hs : s.Canon) : (s.offer g).Canon := by
  unfold State.offer
  -- What the folios gave stays opaque: the kernel must not compute with it.
  obtain ⟨givers, hgivers⟩ : ∃ f, State.givers = f := ⟨_, rfl⟩
  rw [hgivers]
  split
  · exact hs
  · extract_lets ps d
    clear_value ps
    split
    · exact hs
    · exact .ite (hs.foldl fun h1 => h1.sendSeat) hs
theorem State.Canon.handOver {n x} (hs : s.Canon) : (s.handOver n x).Canon := by
  unfold State.handOver
  extract_lets s1
  have hs1 : s1.Canon := hs.contribute
  split
  · exact .ite hs1.offer hs1
  · exact hs1
theorem opSpine_keeps {op n c e} : (opSpine op n c e s).Keeps :=
  engSlot_keeps (fun h1 => by
      extract_lets x
      split
      · exact .ite h1.same.setSlot.handOver h1.handOver
      · exact h1.handOver)
theorem State.Canon.withPlane {p r} (hs : s.Canon) : State.Canon { s with plane := p, remote := r } := hs.same
theorem State.Canon.planeNext {g stag} (hs : s.Canon) : (s.planeNext g stag).Canon :=
  .offer (.withPlane (hs.foldl fun h1 => h1.setContrib.gateRun))
theorem State.Canon.deliver {n x bs} (hs : s.Canon) : (s.deliver n x bs).Canon := hs.fmWrite
theorem State.Canon.collect {x p} (hs : s.Canon) : (s.collect x p).Canon := by
  unfold State.collect
  split
  · exact hs
  · split
    · exact .ite hs.setStr hs
    · exact hs
theorem State.Canon.collFail {g stag code act} (hs : s.Canon) : (s.collFail g stag code act).Canon :=
  .planeNext (.log (hs.foldl fun h1 => h1.failGiver))
theorem State.Canon.countPlane {g} (hs : s.Canon) : (s.countPlane g).Canon := .ite hs.same.withdraw hs.same
theorem State.Canon.carryOutAll {x ps parts} (hs : s.Canon) : (s.carryOutAll x ps parts).1.Canon := by
  unfold State.carryOutAll
  split
  · exact hs
  · exact hs.foldl (fun h1 => by
        extract_lets ws
        split
        · exact h1.postCarry
        · exact h1)
theorem State.Canon.collDeliver {x ps parts p} (hs : s.Canon) : (s.collDeliver x ps parts p).Canon := by
  have hpart {s0 : State} {fl : Fl} (h0 : s0.Canon) : (ps.foldl (fun s q =>
      (((if q.2.op = opSXRED then s.setSrow q.1 (sumValue (ofBytes p.bytes))
        else if q.2.op = opSPBAR ∨ q.2.op = opSPCARRY then s
        else s.deliver q.1 q.2 p.bytes).holdFl q.1 (7168 + x.stag.toNat) q.2.field fl).holdFl q.1 (7168 + x.stag.toNat)
          fieldGATE p.rfl).mergeHeld q.1 (7168 + x.stag.toNat)) s0).Canon :=
    h0.foldl fun h => .mergeHeld (.holdFl (.holdFl (.ite h.setSrow (.ite h h.deliver))))
  unfold State.collDeliver
  cases ps with
  | nil => exact hs
  | cons q qs =>
    by_cases hq : q.2.op = opSPCARRY
    · simp only [hq, if_true]
      exact .collect (hpart hs.carryOutAll)
    · simp only [hq, if_false]
      exact .collect (hpart hs)
theorem execCollectiveComplete_keeps {g hw} (hs : s.Canon) : Keeps (execCollectiveComplete g hw s) := by
  unfold execCollectiveComplete
  obtain ⟨givers, hgivers⟩ : ∃ f, State.givers = f := ⟨_, rfl⟩
  rw [hgivers]
  split
  · exact .notDue
  · extract_lets stag ps own
    clear_value ps
    split
    · exact .notDue
    · refine .guard <| .ite (.next hs.bump.collFail) <| .ite (.next hs.bump.collFail.countPlane) ?_
      split
      · split
        · exact .notDue
        · exact .next hs.collDeliver.planeNext
      · exact .next hs.collDeliver.planeNext
theorem execSpnLate_keeps {g} (hs : s.Canon) : Keeps (execSpnLate g s) := by
  unfold execSpnLate
  split
  · exact .notDue
  · exact .guard (.next (hs.bump.log.foldl fun h1 => h1.failGiver))

/-! ## Machine/Moves.lean -/

theorem opXfer_keeps {n c e} : (opXfer n c e s).Keeps := engSlotKeep_keeps fun h1 => h1.addMove
theorem opXstream_keeps {n c e} : (opXstream n c e s).Keeps := engSlot_keeps fun h1 => h1.setFetch.issueTiles
theorem opXrel_keeps {n c e} : (opXrel n c e s).Keeps := engSlot_keeps fun h1 => h1.relTiles
theorem State.Canon.startMcasts (hs : s.Canon) : s.startMcasts.Canon :=
  hs.foldl (fun h1 => by
      split
      · exact h1
      · exact h1.same.addMove)
theorem opXmcast_keeps {n c e} : (opXmcast n c e s).Keeps := engSlot_keeps fun h1 => h1.same.startMcasts
theorem opXmrecv_keeps {n c e} : (opXmrecv n c e s).Keeps := engSlot_keeps fun h1 => h1.same.startMcasts
theorem opLpmsg_keeps {n c e} : (opLpmsg n c e s).Keeps :=
  engSlot_keeps (fun h1 => by
      extract_lets bs t1
      have ht1 : t1.Canon := h1.setCredit
      split
      · split
        · exact ht1.ringPut
        · exact ht1
      · split
        · exact ht1.sendLight
        · exact ht1)

/-! ## Machine/HbmEvents.lean -/

theorem State.Canon.retirePc {k p atOnce} (hs : s.Canon) : (s.retirePc k p atOnce).Canon :=
  .ite hs (.ite hs.log.withdraw hs.setBit.setPcState.log)
theorem State.Canon.drainCopy {k p} (hs : s.Canon) : (s.drainCopy k p).Canon :=
  hs.withHbm (wf_foldl hs.hbm fun h => by
    split
    · exact Memory.wf_setByte h _ _
    · exact h)
theorem execPcRetireDone_keeps {k} (hs : s.Canon) : Keeps (execPcRetireDone k s) := by
  unfold execPcRetireDone
  split
  · exact .next hs.drainCopy.setPcState
  · exact .notDue
theorem State.Canon.hbmErrLog {a kind} (hs : s.Canon) : (s.hbmErrLog a kind).Canon := .ite hs hs.setReg.setReg
theorem State.Canon.moveLanded {m} (hs : s.Canon) : (s.moveLanded m).Canon := by
  unfold State.moveLanded
  split
  · split
    · exact .ite hs.setFetch hs
    · exact hs
  · exact hs.relOne
  · exact hs
theorem State.Canon.granEnd {q m g} (hs : s.Canon) : (s.granEnd q m g).Canon := by
  unfold State.granEnd
  extract_lets put del s0 s1 s2 done s1'
  have hs1 : s1.Canon := hs.dequeue.bump
  have hs2 : s2.Canon := hs1.setMover
  have hs1' : s1'.Canon := by
    unfold s1'
    split
    · exact .ite (.ite hs2.bump hs2) hs1.setMover
    · exact .ite hs.dequeue.setMover.moveLanded hs.dequeue.setMover
  exact hs1'.issueWaiting
theorem State.Canon.rewriteGolden {a n} (hs : s.Canon) : (s.rewriteGolden a n).Canon := by
  unfold State.rewriteGolden
  split
  · exact hs.hbmWrite
  · exact hs
theorem State.Canon.dataLost {tag folio a} (hs : s.Canon) : (s.dataLost tag folio a).Canon := by
  unfold State.dataLost
  extract_lets s1 s2 src
  have hs2 : s2.Canon := hs.log.failStep
  split
  · exact hs.log.rewriteGolden.failTagWork
  · split
    · split
      · exact hs2.setStr
      · exact hs2
    · exact hs.log.endStep
theorem State.Canon.readFail {tag folio a kind} (hs : s.Canon) : (s.readFail tag folio a kind).Canon := by
  unfold State.readFail
  extract_lets k gran s1 again s2 src s2' p s3 hits
  have hs1 : s1.Canon := hs.bump.hbmErrLog
  have hs2 : s2.Canon := hs1.log.failTagWork
  have hs2' : s2'.Canon := by
    unfold s2'
    split
    · exact hs1.dataLost
    · split
      · exact .ite hs2.setStr hs2
      · exact hs2
  exact .ite hs2'.same.retirePc hs2'.same
theorem State.Canon.writeFail {q m g a} (hs : s.Canon) : (s.writeFail q m g a).Canon := by
  unfold State.writeFail
  extract_lets s1 s2
  have hs1 : s1.Canon := hs.bump.hbmErrLog
  exact .ite hs1.granEnd.log.failTagWork hs1.log.setMover
theorem execHbmGranuleDone_keeps {q id g o} {s0 : State} (hs0 : s0.Canon) : Keeps (execHbmGranuleDone q id g o s0) := by
  unfold execHbmGranuleDone
  extract_lets s d
  split
  · exact .notDue
  · extract_lets a land bad
    have hland : land.Canon := hs0.drive.granLand
    split
    · exact .notDue
    · split
      · exact .notDue
      · split
        · exact .guard (.next hland.granEnd)
        · exact .ite (.next hland.bump.granEnd) .notDue
        · exact .ite (.next hs0.drive.granEnd.readFail) .notDue
        · exact .guard (.guard (.next hs0.drive.granEnd.readFail))
        · split
          · exact .next hs0.drive.writeFail
          · exact .notDue
        · split
          · exact .notDue
          · exact .guard (.next hs0.drive.granEnd.tagParity)
theorem execHbmLate_keeps {q id g} {s0 : State} (hs0 : s0.Canon) : Keeps (execHbmLate q id g s0) := by
  unfold execHbmLate
  extract_lets s
  split
  · exact .notDue
  · exact .ite (.next hs0.drive.hbmErrLog.log.failTagWork) .notDue
theorem execMoveWaitLate_keeps {n c} (hs : s.Canon) : Keeps (execMoveWaitLate n c s) := by
  unfold execMoveWaitLate
  split
  · exact .next hs.log.failTagWork
  · exact .notDue
theorem execRefreshWindow_keeps {temps failed} (hs : s.Canon) : Keeps (execRefreshWindow temps failed s) :=
  .guard <| .guard <| .next <| .foldl (hs.setReg.foldl fun h1 => .ite h1.setFld h1) fun h1 => h1.hbmErrLog.retirePc
theorem execCancelAck_keeps {n k} (hs : s.Canon) : Keeps (execCancelAck n k s) := by
  unfold execCancelAck
  split
  · exact .notDue
  · exact .guard (.guard (.next hs.bump.tagDone))
theorem execTagDone_keeps {n k} (hs : s.Canon) : Keeps (execTagDone n k s) := by
  unfold execTagDone
  split
  · exact .notDue
  · exact .guard (.guard (.next hs.tagDone))

/-! ## Machine/Wheel.lean -/

theorem State.Canon.writeHeader {i slot cseq cursor lastSeq rcheck} (hs : s.Canon) :
    (s.writeHeader i slot cseq cursor lastSeq rcheck).Canon :=
  hs.hbmWrite
theorem State.Canon.sendMirror {i slot cseq} (hs : s.Canon) : (s.sendMirror i slot cseq).Canon := hs.setStr.sendSeat
theorem State.Canon.sealHeader {i t} (hs : s.Canon) : (s.sealHeader i t).Canon := hs.addMove
theorem State.Canon.sealWheel {i t} (hs : s.Canon) : (s.sealWheel i t).Canon := .ite hs.sealHeader.sendMirror hs.sealHeader

/-! ## Machine/Steps.lean -/

theorem State.Canon.acceptStep {i t} (hs : s.Canon) : (s.acceptStep i t).Canon :=
  .ite (.ite hs.setStr hs.setStr.cntStrm) hs.setStr.setTokens
theorem State.Canon.tryAccept {i} (hs : s.Canon) : (s.tryAccept i).Canon := .ite hs.acceptStep hs
theorem State.Canon.takeUp {i t} (hs : s.Canon) : (s.takeUp i t).Canon := hs.setStr
theorem State.Canon.placeStep {i t} (hs : s.Canon) : (s.placeStep i t).Canon :=
  hs.takeUp.foldl (fun h1 => by
      split
      · exact h1.place
      · exact h1)
theorem dispatchWith_keeps {i t bad} (hs : s.Canon) : Keeps (s.dispatchWith i t bad) := by
  unfold State.dispatchWith
  split
  · exact .next hs.placeStep
  · exact .ite (.next hs.markBad.placeStep) .notDue
  · exact .ite (.next hs.takeUp.readFail) .notDue
theorem execStepDispatch_keeps {x} (hs : s.Canon) : Keeps (execStepDispatch x s) := by
  unfold execStepDispatch
  extract_lets k
  split
  · exact .notDue
  · exact .guard (.guard (dispatchWith_keeps hs))
theorem execStepRelease_keeps {i} (hs : s.Canon) : Keeps (execStepRelease i s) := by
  unfold execStepRelease
  extract_lets k src
  split
  · exact .notDue
  · exact .guard (.guard (.guard (.guard (.next hs.send.setStr.sealWheel))))
theorem State.Canon.nextAttempt {i t} (hs : s.Canon) : (s.nextAttempt i t).Canon :=
  .cntStrm (.setStr (.ite hs.abortEntries.dropPlane hs))
theorem execStepRerun_keeps {i} (hs : s.Canon) : Keeps (execStepRerun i s) := by
  unfold execStepRerun
  extract_lets k s1
  have hs1 : s1.Canon := hs.castLogged
  split
  · exact .notDue
  · split
    · exact .notDue
    · split
      · exact .notDue
      · split
        · exact .next hs1.endStep
        · exact .ite (.next hs1.endStep) (.next hs1.nextAttempt)
theorem execStepRerunAfterRelease_keeps {i} (hs : s.Canon) : Keeps (execStepRerunAfterRelease i s) := by
  unfold execStepRerunAfterRelease
  extract_lets k src
  split
  · exact .notDue
  · exact .guard <| .guard <| .ite (.next hs.castLogged.endStep) <| .ite
      (.ite (.next hs.castLogged.endStep) <| .next hs.castLogged.nextAttempt) <| .guard <| .guard <| .ite (.next hs.endStep) <|
      .next hs.setStr.sealWheel
theorem State.Canon.copyWheel {i} (hs : s.Canon) : (s.copyWheel i).Canon := by
  unfold State.copyWheel
  extract_lets x
  split
  · exact hs.coolBuf.put.setStr
  · exact hs
theorem State.Canon.commitWheel {i t} (hs : s.Canon) : (s.commitWheel i t).Canon :=
  .copyWheel (.freeGranules (.setStr (hs.foldl fun h1 => h1.mergeHeld)))
theorem execStepCommit_keeps {i} (hs : s.Canon) : Keeps (execStepCommit i s) := by
  unfold execStepCommit
  extract_lets k
  split
  · exact .notDue
  · exact .guard (.guard (.next hs.commitWheel.stepOver))
theorem State.Canon.commitReplay {i t off} (hs : s.Canon) : (s.commitReplay i t off).Canon := by
  unfold State.commitReplay
  extract_lets s1 x left
  have hs1 : s1.Canon := hs.commitWheel
  exact .ite hs1.freeStream (.ite hs1.setStr.completeCmd hs1.setStr.startReplay)
theorem execCheckpointCommit_keeps {i bursts} (hs : s.Canon) : Keeps (execCheckpointCommit i bursts s) := by
  unfold execCheckpointCommit
  extract_lets k x p
  split
  · exact .notDue
  · exact .guard <| .guard <| .guard <| .ite (.guard <| .guard <| .next hs.commitReplay) <| .guard <| .next <| .sealWheel <|
      .setStr <| hs.foldl fun h1 => h1.send

/-! ## Machine/Inbound.lean -/

theorem State.Canon.whey {h} (hs : s.Canon) : (s.whey h).Canon := .cntStrm (.ite hs.setStr hs)
theorem State.Canon.importFails {i code} (hs : s.Canon) : (s.importFails i code).Canon := hs.completeCmd.setStr
theorem State.Canon.refuse {i code seq bid} (hs : s.Canon) : (s.refuse i code seq bid).Canon := hs.setStr.status.cntStrm
theorem State.Canon.dropCurd {i code} (hs : s.Canon) : (s.dropCurd i code).Canon := by
  unfold State.dropCurd
  split
  · exact hs
  · extract_lets src s1 s2 src'
    have hs2 : s2.Canon := hs.freeGranules.setStr.status
    exact .ite hs2.setStr.cntStrm hs2.cntStrm
theorem State.Canon.loseCurd {i code} (hs : s.Canon) : (s.loseCurd i code).Canon := .ite hs.dropCurd.importFails hs.dropCurd
theorem State.Canon.takeImage {i b} (hs : s.Canon) : (s.takeImage i b).Canon := by
  unfold State.takeImage
  extract_lets img s0 r f x h x1 s1 s2 s3 s4 s5
  have hs0 : s0.Canon := hs.freeGranules
  have hs5 : s5.Canon := hs0.hbmWrite.setStr.hbmWrite.hbmWrite.writeRecord.status
  exact .ite hs0.status.cntStrm.importFails (.ite hs5.sendMirror hs5)
theorem State.Canon.landBurst {i b} (hs : s.Canon) : (s.landBurst i b).Canon := by
  unfold State.landBurst
  extract_lets x
  split
  · exact hs.setStr.tryAccept
  · exact hs.appendBacklog
  · exact hs.appendBacklog
  · exact hs.appendBacklog
  · exact hs.takeImage
  · exact hs.freeGranules.status.cntStrm
theorem State.Canon.closeCurd {i} (hs : s.Canon) : (s.closeCurd i).Canon := by
  unfold State.closeCurd
  split
  · exact hs
  · exact .ite hs.setStr.landBurst hs.loseCurd
theorem State.Canon.takeFlit {i b payload last} (hs : s.Canon) : (s.takeFlit i b payload last).Canon := by
  unfold State.takeFlit
  extract_lets got s1 src s2
  have hs2 : s2.Canon := hs.granWrite.setStr
  exact .ite hs.loseCurd (.ite hs2.closeCurd hs2)
theorem State.Canon.flit0 {fl} (hs : s.Canon) : (s.flit0 fl).Canon := by
  unfold State.flit0
  extract_lets f i x seq bid len refused
  have hrefused (code) : (refused code).Canon := .ite hs.refuse.whey.importFails hs.refuse.whey
  refine .ite hs.whey <| .ite (hrefused 2) <| .ite hs.whey <| .ite (hrefused 7) <| .ite (hrefused 2) ?_
  split
  · exact hrefused 8
  · exact .ite (hrefused 8) (.takeFlit (.granWrite (.setStr (.ite hs.same.dropCurd hs.same))))
theorem State.Canon.flitOn {fl} (hs : s.Canon) : (s.flitOn fl).Canon := by
  unfold State.flitOn
  extract_lets i
  split
  · exact hs.whey
  · split
    · exact hs.whey
    · exact .ite hs.whey (.ite hs.loseCurd hs.takeFlit)
theorem execInboundBurstFlit_keeps (hs : s.Canon) : Keeps (execInboundBurstFlit s) := by
  unfold execInboundBurstFlit
  split
  · exact .notDue
  · exact .next (.ite hs.same.flit0 hs.same.flitOn)
theorem execCurdExpiry_keeps {i} (hs : s.Canon) : Keeps (execCurdExpiry i s) := by
  unfold execCurdExpiry
  split
  · exact .notDue
  · exact .ite (.next hs.loseCurd) .notDue

/-! ## Machine/Window.lean -/

theorem State.Canon.pageErr {p k} (hs : s.Canon) : (s.pageErr p k).Canon := hs.setBit.withLine
theorem State.Canon.setTxn {k t} (hs : s.Canon) : (s.setTxn k t).Canon := hs.same
theorem State.Canon.touch {p} (hs : s.Canon) : (s.touch p).Canon := by
  unfold State.touch
  split
  · exact hs.setTxn
  · exact hs
theorem State.Canon.stage {p a m w} (hs : s.Canon) : (s.stage p a m w).Canon := by
  unfold State.stage
  split
  · exact hs.pageErr
  · exact .ite hs.pageErr hs.setTxn
theorem State.Canon.writeHead {p a w} (hs : s.Canon) : (s.writeHead p a w).Canon := by
  unfold State.writeHead
  extract_lets r pgn s1 s2 rwm v s3 txm
  have hs1 : s1.Canon := .ite hs.pageErr hs
  have hs2 : s2.Canon := .ite hs1.pageErr hs1
  have hs3 : s3.Canon := .ite hs2 hs2.setReg
  exact .ite hs3 hs3.stage
theorem State.Canon.writeClear {a w} (hs : s.Canon) : (s.writeClear a w).Canon := .ite hs hs.setReg
theorem State.Canon.hostWrite {p a w eff} (hs : s.Canon) (heff : ∀ {t}, t.Canon → (eff t).Canon) :
    (s.hostWrite p a w eff).Canon := by
  unfold State.hostWrite
  extract_lets s0 pgn s1 r
  have hs1 : s1.Canon := hs.touch.writeHead
  exact .ite hs (.ite hs.touch (.withLine (.ite (heff hs1.writeClear) (.ite hs1.same hs1))))

/-! ## Machine/Streams.lean -/

theorem State.Canon.newStream {i st op} (hs : s.Canon) : (s.newStream i st op).Canon := hs.setStr.setReg
theorem State.Canon.cmdStart {h} (hs : s.Canon) : (s.cmdStart h).1.Canon := by
  unfold State.cmdStart
  extract_lets i code s1 src x n body s2 s3
  have hs3 : s3.Canon := hs.newStream.setStr.writeHeader.hbmWrite.writeRecord
  split
  · exact hs
  · exact .ite hs3.sendMirror hs3
theorem State.Canon.cmdPause {h} (hs : s.Canon) : (s.cmdPause h).1.Canon := by
  unfold State.cmdPause
  extract_lets i code x s1
  split
  · exact hs
  · exact .ite hs.setStr hs.setStr.completeCmd.stowHeld
theorem State.Canon.cmdReplay {h} (hs : s.Canon) : (s.cmdReplay h).1.Canon := by
  unfold State.cmdReplay
  extract_lets i code src x
  split
  · exact hs
  · exact .ite hs.setStr.completeCmd hs.setStr.startReplay
theorem State.Canon.cmdDrop {h} (hs : s.Canon) : (s.cmdDrop h).1.Canon := by
  unfold State.cmdDrop
  extract_lets i code x s0 s1
  split
  · exact hs
  · exact hs.discard.setStr.cntStrm.completeCmd
theorem State.Canon.endBursts {i} (hs : s.Canon) : (s.endBursts i).Canon := hs.discard.setStr.cntStrm
theorem State.Canon.cmdEnd {h op} (hs : s.Canon) : (s.cmdEnd h op).1.Canon := by
  unfold State.cmdEnd
  extract_lets i code s1 s2 s3 x s4 s5
  have hs2 : s2.Canon := .endBursts (.ite hs.completeCmd hs)
  have hs4 : s4.Canon := .setStr (.ite hs2.dropStep hs2)
  have hs5 : s5.Canon := .ite hs4.sendSeat hs4
  clear_value s5
  split
  · exact hs
  · dsimp only
    exact .ite hs5 hs5.freeStream
theorem State.Canon.setKey {k x} (hs : s.Canon) : (s.setKey k x).Canon := hs.same.setBit.setBit
theorem State.Canon.exportNow {i slot} (hs : s.Canon) : (s.exportNow i slot).Canon := by
  unfold State.exportNow
  split
  · exact hs
  · exact hs.send.setKey.setStr
theorem State.Canon.cmdExport {h} (hs : s.Canon) : (s.cmdExport h).1.Canon := by
  unfold State.cmdExport
  extract_lets i slot c1 code s1 src
  split
  · exact hs
  · exact hs.exportNow.setStr
theorem State.Canon.cmdImport {h} (hs : s.Canon) : (s.cmdImport h).1.Canon := by
  unfold State.cmdImport
  extract_lets i code
  split
  · exact hs
  · exact hs.newStream
theorem State.Canon.runCommand {op} (hs : s.Canon) : (s.runCommand op).1.Canon := by
  unfold State.runCommand
  extract_lets h
  split
  · exact hs.cmdStart
  · exact hs.cmdPause
  · exact hs.cmdReplay
  · exact hs.cmdDrop
  · exact hs.cmdEnd
  · exact hs.cmdEnd
  · split
    · exact hs
    · exact hs.cmdExport
  · split
    · exact hs
    · exact hs.cmdImport
  · exact hs
theorem State.Canon.strmCmd {op} (hs : s.Canon) : (s.strmCmd op).Canon := .ite hs (.ite hs.setBit hs.runCommand.setFld)
theorem State.Canon.wrStrmCmd {p w} (hs : s.Canon) : (s.wrStrmCmd p w).Canon := hs.hostWrite fun h1 => h1.strmCmd
theorem strmCommand_keeps {p op} (hs : s.Canon) : Keeps (Machine.strmCommand p op s) := .next hs.wrStrmCmd
theorem State.Canon.wheelIo {i} (hs : s.Canon) : (s.wheelIo i).Canon := hs.log.importFails
theorem execStartWheelWritten_keeps {i ok} (hs : s.Canon) : Keeps (execStartWheelWritten i ok s) :=
  .guard (.ite (.next hs.wheelIo) (.guard (.next hs.copyWheel.setStr.completeCmd)))
theorem execImportWheelWritten_keeps {i ok} (hs : s.Canon) : Keeps (execImportWheelWritten i ok s) :=
  .guard (.ite (.next hs.wheelIo) (.guard (.next hs.copyWheel.setStr.completeCmd)))
theorem State.Canon.popDone (hs : s.Canon) : s.popDone.Canon := by
  refine .withLine ?_
  split
  · exact hs.same
  · exact .ite hs.same.setBit hs.same
theorem State.Canon.viewClr {w} (hs : s.Canon) : (s.viewClr w).Canon := .ite hs.setStr hs
theorem State.Canon.wrViewClr {p w} (hs : s.Canon) : (s.wrViewClr p w).Canon := hs.hostWrite fun h1 => h1.viewClr

/-! ## Machine/CharterOps.lean -/

theorem State.Canon.sendAll {typ l bs} (hs : s.Canon) : (s.sendAll typ l bs).Canon := hs.foldl fun h1 => h1.sendSeat
theorem State.Canon.tryExtend (hs : s.Canon) : s.tryExtend.Canon := .ite hs.same hs
theorem State.Canon.startRound (hs : s.Canon) : s.startRound.Canon := .ite hs.same hs.same.sendAll.tryExtend
theorem State.Canon.fullMirror {i} (hs : s.Canon) : (s.fullMirror i).Canon := by
  unfold State.fullMirror
  extract_lets x s1
  have hs1 : s1.Canon := by
    unfold s1
    split
    · exact .ite hs.sendMirror hs
    · exact hs
  exact hs1.sendMirror
theorem State.Canon.resealAll (hs : s.Canon) : s.resealAll.Canon :=
  hs.foldl (fun h1 => by
      split
      · exact .ite h1.sealHeader h1
      · exact h1)
theorem State.Canon.newBuddies {joins} (hs : s.Canon) : (s.newBuddies joins).Canon :=
  hs.foldl (fun h1 => by
      extract_lets x
      split
      · exact h1
      · split
        · exact .ite h1.fullMirror h1
        · split
          · exact h1
          · exact h1.setStr.fullMirror)
theorem State.Canon.setMirror {m x} (hs : s.Canon) : (s.setMirror m x).Canon := hs.same
theorem State.Canon.giveUp {i} (hs : s.Canon) : (s.giveUp i).Canon := hs.notice.quitStep.endBursts.setStr.freeStream
theorem State.Canon.restore {i} (hs : s.Canon) : (s.restore i).Canon := hs.endBursts.setStr.writeHeader.notice
theorem State.Canon.mergeJoiner {taken} (hs : s.Canon) : (s.mergeJoiner taken).Canon := by
  unfold State.mergeJoiner
  extract_lets s1
  have hs1 : s1.Canon := hs.foldl fun h1 => .ite h1 (.ite h1.giveUp (.ite h1.restore h1))
  clear_value s1
  exact hs1.same
theorem State.Canon.mergeMember {joins} (hs : s.Canon) : (s.mergeMember joins).Canon :=
  .foldl (hs.foldl (fun h1 => h1.foldl (fun h2 => h2.sendSeat))) (fun h1 => by
      split
      · exact .ite h1.sendSeat h1
      · exact h1)
theorem State.Canon.writeSeats {l} (hs : s.Canon) : (s.writeSeats l).Canon := hs.foldl fun h1 => .ite h1 h1.setReg
theorem State.Canon.planTakeovers (hs : s.Canon) : s.planTakeovers.Canon := hs.same
theorem State.Canon.failScopes (hs : s.Canon) : s.failScopes.Canon :=
  hs.foldl (fun h1 => by
      split
      · exact h1
      · exact .ite h1.bump.collFail h1)
theorem State.Canon.fullCredits (hs : s.Canon) : s.fullCredits.Canon := hs.foldl fun h1 => h1.setCredit
theorem State.Canon.withHoop {h} (hs : s.Canon) : State.Canon { s with hoop := h } := hs.same
theorem State.Canon.applyCommit {epoch anchor l joins taken} (hs : s.Canon) : (s.applyCommit epoch anchor l joins taken).Canon := by
  unfold State.applyCommit
  extract_lets s1 s2 ends src src' s3 s4 s5
  have hs4 : s4.Canon := .failScopes (.fullCredits (.startRound (.withHoop hs.writeSeats.setReg.setFld.setFld.setFld.bump.setReg)))
  exact .newBuddies (.resealAll (.planTakeovers (.ite hs4.mergeJoiner hs4.mergeMember)))
theorem State.Canon.tryCommit (hs : s.Canon) : s.tryCommit.Canon := by
  unfold State.tryCommit
  split
  · exact hs
  · exact .ite hs hs.sendAll.applyCommit
theorem State.Canon.castVote {epoch l} (hs : s.Canon) : (s.castVote epoch l).Canon := hs.same
theorem State.Canon.propose {l joins forming} (hs : s.Canon) : (s.propose l joins forming).Canon :=
  hs.castVote.same.sendAll.tryCommit
theorem State.Canon.tryForm (hs : s.Canon) : s.tryForm.Canon := .ite hs.propose hs
theorem State.Canon.evalReach (hs : s.Canon) : s.evalReach.Canon := by
  unfold State.evalReach
  extract_lets st l s1 s2 js
  have hs2 : s2.Canon := .ite hs.setFld.setFld hs.setFld
  exact .ite (.ite hs.tryForm hs) (.ite (.ite hs2.propose hs2) (.ite hs.setFld hs.setFld.setFld))
theorem State.Canon.askJoin (hs : s.Canon) : s.askJoin.Canon := hs.setFld.sendAll
theorem State.Canon.seeEpoch {epoch} (hs : s.Canon) : (s.seeEpoch epoch).Canon := .ite hs.askJoin hs

/-! ## Machine/Links.lean -/

theorem State.Canon.setLinkState {p v} (hs : s.Canon) : (s.setLinkState p v).Canon := hs.setFld
theorem State.Canon.flood {p} (hs : s.Canon) : (s.flood p).Canon := hs.same.foldl fun h1 => .ite h1.sendPort h1
theorem State.Canon.requeue {p} (hs : s.Canon) : (s.requeue p).Canon :=
  hs.setLink.foldl (fun h1 => by
      split
      · exact h1.queueFlit
      · exact h1.bump)
theorem State.Canon.loseLink {p} (hs : s.Canon) : (s.loseLink p).Canon :=
  hs.log.bump.bump.setLinkState.setLink.requeue.flood.evalReach
theorem State.Canon.resend {p} (hs : s.Canon) : (s.resend p).Canon := hs.foldl fun h1 => h1.emit
theorem State.Canon.answer {p} {s0 : State} (hs : s.Canon) : (s0.answer s p).Canon := .ite hs.emit hs
theorem State.Canon.owe {p f} (hs : s.Canon) : (s.owe p f).Canon := .ite hs.setLink hs.setLink
theorem State.Canon.assemble {p f} (hs : s.Canon) : (s.assemble p f).Canon := by
  unfold State.assemble
  extract_lets vc src id k last body same old rest
  clear_value old
  split
  · exact hs
  · exact .ite hs (.ite hs.same hs.same)
theorem State.Canon.takeLinkFlit {p f} (hs : s.Canon) : (s.takeLinkFlit p f).Canon := by
  unfold State.takeLinkFlit
  extract_lets typ dst s1
  split
  · exact hs.owe.bump
  · split
    · exact .ite hs.owe.bump hs.owe.assemble
    · split
      · exact hs.owe
      · split
        · exact .ite hs.owe.bump hs.owe.queueFlit
        · exact hs.owe.bump
theorem State.Canon.takeControl {p hi} (hs : s.Canon) : (s.takeControl p hi).Canon := by
  unfold State.takeControl
  extract_lets x x1 s1
  have hs1 : s1.Canon := hs.setLink.bump
  exact .ite (.ite hs1.loseLink hs1.resend) hs.setLink
theorem State.Canon.takeFrame {p hi f} (hs : s.Canon) : (s.takeFrame p hi f).Canon :=
  .ite hs (.ite hs.setLink.takeLinkFlit (.ite hs hs.setLink))
theorem execLinkFlit_keeps {l bytes fec} (hs : s.Canon) : Keeps (execLinkFlit l bytes fec s) := by
  unfold execLinkFlit
  extract_lets p f cw hi src s0 s1
  have hs0 : s0.Canon := hs.bump.takeControl
  have hs1 : s1.Canon := hs0.takeFrame.pump
  exact .guard (.ite (.next hs.setLink.answer) (.ite (.next hs0) (.next (.ite hs1 hs1.answer))))
theorem State.Canon.popMsg {typ r} (hs : s.Canon) (hr : s.popMsg typ = some r) : r.2.Canon := by
  unfold State.popMsg at hr
  split at hr
  · cases hr
  · cases hr
    exact hs.same
theorem onMsg_keeps {typ k} (hs : s.Canon) (hk : ∀ {m t}, t.Canon → (k m t).Canon) : Keeps (onMsg typ s k) := by
  unfold onMsg
  split
  · exact .notDue
  · next hr => exact .next (hk (hs.popMsg hr))
theorem State.Canon.takeData {m} (hs : s.Canon) : (s.takeData m).Canon := by
  unfold State.takeData
  extract_lets b n ws vs
  split
  · exact hs.same
  · exact hs.postCarry
  · exact hs.dropCarries
  · exact hs
theorem State.Canon.takeMsg {m} (hs : s.Canon) : (s.takeMsg m).Canon := by
  unfold State.takeMsg
  extract_lets b n k k'
  split
  · split
    · exact hs.setCredit.ringPut
    · exact hs
  · split
    · exact hs.setCredit
    · exact hs
  · exact hs
theorem execLanectl_keeps {l} (hs : s.Canon) : Keeps (execLanectl l s) := by
  unfold execLanectl
  split
  · exact .notDue
  · exact .ite (.next hs.same.setBit.setBit.setLink) (.next hs.same)
theorem execLaneFail_keeps {l lane} (hs : s.Canon) : Keeps (execLaneFail l lane s) :=
  .guard (.guard (.ite (.next hs.loseLink) (.next hs.log.setLink.setBit.setBit.sendPort)))
theorem execLinkUp_keeps {l seat peer lanes} (hs : s.Canon) : Keeps (execLinkUp l seat peer lanes s) := by
  unfold execLinkUp
  extract_lets p good s1 src
  have hs1 : s1.Canon := hs.setFld.setFld.setFld
  exact .guard <| .guard <| .ite (.next hs1.setLinkState.setLink.flood.evalReach) <| .next hs1.setLinkState.bump.log
theorem State.Canon.takeLstate {m} (hs : s.Canon) : (s.takeLstate m).Canon := by
  unfold State.takeLstate
  extract_lets n seat s0 s1
  have hs0 : s0.Canon := hs.seeEpoch
  exact .ite hs0 (.evalReach (hs0.same.foldl fun h1 => .ite h1.sendPort h1))

/-! ## Machine/Charter.lean -/

theorem State.Canon.startKnocks (hs : s.Canon) : s.startKnocks.Canon :=
  hs.foldl (fun h1 => by
      split
      · exact .ite h1.setLink h1
      · exact h1)
theorem State.Canon.startForm {w} (hs : s.Canon) : (s.startForm w).Canon :=
  .ite hs hs.setReg.setFld.setReg.setFld.same.startKnocks.tryForm
theorem State.Canon.wrChCmd {p w} (hs : s.Canon) : (s.wrChCmd p w).Canon := hs.hostWrite fun h1 => h1.startForm
theorem State.Canon.takePropose {m} (hs : s.Canon) : (s.takePropose m).Canon :=
  .ite hs (.ite (.ite hs (.ite hs.log hs.castVote.sendSeat)) (.ite hs hs.castVote.sendSeat))
theorem State.Canon.takeVote {m} (hs : s.Canon) : (s.takeVote m).Canon := by
  unfold State.takeVote
  split
  · exact hs
  · exact .ite hs hs.same.tryCommit
theorem State.Canon.takeCommit {m} (hs : s.Canon) : (s.takeCommit m).Canon := .ite hs hs.applyCommit
theorem execProposalTimeout_keeps (hs : s.Canon) : Keeps (execProposalTimeout s) := by
  unfold execProposalTimeout
  split
  · exact .notDue
  · exact .guard (.next hs.same)
theorem State.Canon.takeJoin {m} (hs : s.Canon) : (s.takeJoin m).Canon := .ite hs.evalReach hs.same.evalReach
theorem State.Canon.takeRenew {m} (hs : s.Canon) : (s.takeRenew m).Canon := .ite hs.sendSeat hs.seeEpoch
theorem State.Canon.takeRack {m} (hs : s.Canon) : (s.takeRack m).Canon := .ite hs hs.same.tryExtend
theorem State.Canon.adoptWheel {i slot img} (hs : s.Canon) : (s.adoptWheel i slot img).Canon :=
  hs.hbmWrite.setStr.writeHeader.writeRecord
theorem State.Canon.mirrorBack {i cseq img} (hs : s.Canon) : (s.mirrorBack i cseq img).Canon := by
  unfold State.mirrorBack
  extract_lets x s1 src
  split
  · exact .ite hs.adoptWheel.notice hs
  · exact .ite hs.adoptWheel.setStr hs
theorem State.Canon.takeMirror {m ok} (hs : s.Canon) : (s.takeMirror m ok).Canon := by
  unfold State.takeMirror
  extract_lets b f img oh os cseq mack free e
  split
  · exact hs.mirrorBack
  · split
    · exact hs.sendSeat
    · split
      · exact hs.sendSeat
      · split
        · exact hs.sendSeat
        · extract_lets slot old s1
          have hs1 : s1.Canon := hs.hbmWrite
          exact .ite hs.setMirror.sendSeat (.ite hs1.hbmWrite.setMirror.sendSeat hs1)
theorem State.Canon.takeMack {m} (hs : s.Canon) : (s.takeMack m).Canon := by
  unfold State.takeMack
  extract_lets f cseq
  split
  · exact hs
  · extract_lets x waits
    split
    · exact hs
    · split
      · exact .ite hs.setStr hs
      · exact .ite hs.setStr hs
      · exact .ite hs.setStr hs
      · exact .ite hs.wheelIo hs
theorem State.Canon.takeMrel {m} (hs : s.Canon) : (s.takeMrel m).Canon := by
  unfold State.takeMrel
  extract_lets f
  split
  · exact hs.setMirror.same
  · exact hs.giveUp
  · exact hs
theorem execMirrorTimeout_keeps {i} (hs : s.Canon) : Keeps (execMirrorTimeout i s) := by
  unfold execMirrorTimeout
  extract_lets k x
  split
  · exact .notDue
  · exact .guard (.guard (.guard (.guard (.next hs.setStr.log))))
theorem State.Canon.takeOver {m i e} (hs : s.Canon) : (s.takeOver m i e).Canon := by
  unfold State.takeOver
  extract_lets img x0 x s1 src s2
  have hs2 : s2.Canon := hs.setStr.adoptWheel.setMirror.setStr.notice
  exact .bump (.ite hs2 hs2.sendMirror)
theorem execTakeover_keeps {m} (hs : s.Canon) : Keeps (execTakeover m s) := by
  unfold execTakeover
  split
  · extract_lets rest
    split
    · exact .notDue
    · split
      · exact .next hs.same.takeOver
      · exact .guard (.next hs.same.bump)
  · exact .notDue

/-! ## Machine/Clears.lean -/

theorem State.Canon.clrEff {a w} (hs : s.Canon) : (s.clrEff a w).Canon := by
  unfold State.clrEff
  split
  · exact .ite (hs.foldl fun h1 => h1.setReg) hs
  · exact hs
theorem State.Canon.wrClr {p a w} (hs : s.Canon) : (s.wrClr p a w).Canon := hs.hostWrite fun h1 => h1.clrEff
theorem State.Canon.thermClr {w} (hs : s.Canon) : (s.thermClr w).Canon := .ite hs.setFld hs
theorem State.Canon.fltStat {w} (hs : s.Canon) : (s.fltStat w).Canon := .ite (.withdraw (.ite hs.same hs)) (.ite hs.same hs)
theorem State.Canon.wrFltStat {p w} (hs : s.Canon) : (s.wrFltStat p w).Canon := hs.hostWrite fun h1 => h1.fltStat
theorem State.Canon.fltInject {w} (hs : s.Canon) : (s.fltInject w).Canon := .ite hs.log hs
theorem State.Canon.arrDbgSel {n w} (hs : s.Canon) : (s.arrDbgSel n w).Canon := by
  unfold State.arrDbgSel
  split
  · exact hs
  · split
    · split
      · exact hs.setBit.setReg
      · exact hs.same.setBit.setReg
    · exact hs.setBit.setReg
theorem State.Canon.wrArrDbg {p n w} (hs : s.Canon) : (s.wrArrDbg p n w).Canon := hs.hostWrite fun h1 => h1.arrDbgSel

/-! ## Machine/Reload.lean -/

theorem State.Canon.refill {n m bs} (hs : s.Canon) : (s.refill n m bs).Canon := hs.wipe.put
theorem State.Canon.loadImage {n m} (hs : s.Canon) : (s.loadImage n m).Canon := hs.refill.refill.refill.storeStat
theorem State.Canon.loadGolden {n g} (hs : s.Canon) : (s.loadGolden n g).Canon := hs.put
theorem State.Canon.loadFolio {n k} (hs : s.Canon) : (s.loadFolio n k).Canon := by
  unfold State.loadFolio
  extract_lets s1
  have hs1 : s1.Canon := by
    unfold s1
    split
    · exact hs.loadImage
    · exact hs
  exact hs1.foldl fun h1 => h1.loadGolden
theorem State.Canon.reloadBlock {b} (hs : s.Canon) : (s.reloadBlock b).Canon := by
  unfold State.reloadBlock
  split
  · split
    · exact hs
    · extract_lets blk
      split
      · split
        · exact hs.put
        · exact hs
      · split
        · exact hs.wipe.put
        · exact hs
      · split
        · exact hs.refill.storeStat
        · exact hs
      · split
        · exact hs.refill
        · exact hs
      · exact hs
  · split
    · exact hs.put
    · exact hs
theorem State.Canon.goldenFail {f} (hs : s.Canon) : (s.goldenFail f).Canon := hs.bump.hbmErrLog.log.log.rewriteGolden
theorem execGoldenReload_keeps {x} (hs : s.Canon) : Keeps (execGoldenReload x s) := by
  unfold execGoldenReload
  extract_lets b p
  split
  · exact .notDue
  · split
    · exact .next hs.reloadBlock
    · exact .ite (.next hs.goldenFail.reloadBlock) .notDue
    · exact .notDue
theorem State.Canon.scrubError {b} (hs : s.Canon) : (s.scrubError b).Canon := by
  unfold State.scrubError
  extract_lets p gold unit info s1
  have hs1 : s1.Canon := hs.markBad.perr.log
  split
  · exact hs1.reloadBlock
  · split
    · exact .ite hs1.coolBuf hs1
    · exact hs1
theorem scrub_keeps {b found pass} (hs : s.Canon) : Keeps (Machine.scrub b found pass s) := by
  unfold Machine.scrub
  extract_lets p s1 a counts
  have hs1 : s1.Canon := .ite hs.scrubError hs
  exact .guard (.guard (.guard (.next (.ite hs1.setReg hs1))))
theorem execPwrdRises_keeps {u} (hs : s.Canon) : Keeps (execPwrdRises u s) := by
  unfold execPwrdRises
  split <;> exact .ite (.next hs.wipe.setBit) .notDue
theorem State.Canon.loadGath {g} (hs : s.Canon) : (s.loadGath g).Canon := hs.foldl fun h1 => h1.loadFolio
theorem execFwUpdateFail_keeps {g} (hs : s.Canon) : Keeps (execFwUpdateFail g s) :=
  .guard (.next (hs.setBit.log.foldl fun h1 => .ite h1.failStep h1))

/-! ## Machine/PowerOps.lean -/

theorem State.Canon.loseLogic {n} (hs : s.Canon) : (s.loseLogic n).Canon := by
  unfold State.loseLogic
  extract_lets s1 s2 src
  have hs2 : s2.Canon := by
    unfold s2
    split <;> exact hs.same
  exact hs2.foldl fun h1 => h1.setCtx
theorem State.Canon.loseSegs {n} (hs : s.Canon) : (s.loseSegs n).Canon := hs.wipe.foldl fun h1 => .ite h1 h1.wipe
theorem State.Canon.loseMems {n} (hs : s.Canon) : (s.loseMems n).Canon := hs.foldl fun h1 => h1.wipe
theorem State.Canon.sleepFolio {n f} (hs : s.Canon) : (s.sleepFolio n f).Canon := by
  unfold State.sleepFolio
  split
  · exact hs
  · exact hs.loseLogic.loseSegs
  · exact hs.loseLogic.loseMems
theorem State.Canon.coolWheels {lost} (hs : s.Canon) : (s.coolWheels lost).Canon :=
  hs.foldl (fun h1 => by
      extract_lets x
      split
      · exact .ite h1.setStr h1
      · exact h1)
theorem State.Canon.sleepVat {d} (hs : s.Canon) : (s.sleepVat d).Canon :=
  .ite (.coolWheels (hs.foldl fun h1 => .ite h1 h1.wipe)) hs.wipe.coolWheels
theorem State.Canon.setSeq {d x} (hs : s.Canon) : (s.setSeq d x).Canon := hs.same
theorem State.Canon.setDevState {d} (hs : s.Canon) : (s.setDevState d).Canon := by
  unfold State.setDevState
  exact hs.setFld.same
theorem State.Canon.voteFails {d} (hs : s.Canon) : (s.voteFails d).Canon := hs.setBit.setFld
theorem State.Canon.wakeCause {causes} (hs : s.Canon) : (s.wakeCause causes).Canon := .withLine (.ite hs.setReg hs.setReg.same)
theorem State.Canon.startExit {d causes} (hs : s.Canon) : (s.startExit d causes).Canon :=
  .ite hs.setSeq.setDevState.wakeCause hs.setSeq.setFolioState.wakeCause
theorem State.Canon.undoEntry {d x} (hs : s.Canon) : (s.undoEntry d x).Canon :=
  .ite hs.setSeq.setDevState hs.setSeq.setFolioState
theorem State.Canon.wake {d causes who} (hs : s.Canon) : (s.wake d causes who).Canon := by
  unfold State.wake
  split
  · exact hs.voteFails
  · split
    · exact .ite (.ite hs.refuseEntry.undoEntry hs.setSeq) hs
    · exact .ite (.ite hs.startExit hs) (.ite hs.startExit hs)
theorem State.Canon.wakeGath {g causes who} (hs : s.Canon) : (s.wakeGath g causes who).Canon := hs.foldl fun h1 => h1.wake
theorem State.Canon.wakePort {p} (hs : s.Canon) : (s.wakePort p).Canon := .ite hs.setLinkState hs
theorem State.Canon.applyVotes {a cause who} (hs : s.Canon) : (s.applyVotes a cause who).Canon :=
  .foldl (.foldl (.ite hs.wake hs) fun h1 => .ite h1.wakeGath h1) fun h1 => .ite h1.wakePort h1
theorem State.Canon.wrVoteHost {p w} (hs : s.Canon) : (s.wrVoteHost p w).Canon := hs.hostWrite fun h1 => h1.applyVotes
theorem State.Canon.wrVoteDbg {p w} (hs : s.Canon) : (s.wrVoteDbg p w).Canon :=
  .ite (hs.hostWrite fun h1 => h1.applyVotes) (hs.hostWrite fun h1 => h1)
theorem State.Canon.releaseWake (hs : s.Canon) : s.releaseWake.Canon := .ite hs.same hs
theorem State.Canon.wrWakeCause {p w} (hs : s.Canon) : (s.wrWakeCause p w).Canon := hs.hostWrite fun h1 => h1.releaseWake
theorem State.Canon.refuseClr {w} (hs : s.Canon) : (s.refuseClr w).Canon := .ite hs.setReg.setReg hs
theorem State.Canon.wrRefuseLog {p w} (hs : s.Canon) : (s.wrRefuseLog p w).Canon := hs.hostWrite fun h1 => h1.refuseClr
theorem State.Canon.beginEntry {d target old regulatorOk} (hs : s.Canon) : (s.beginEntry d target old regulatorOk).Canon := by
  unfold State.beginEntry
  split
  · exact hs.refuseEntry
  · exact .ite hs.setSeq.setDevState hs.setSeq.setFolioState
theorem execPowerEntry_keeps {dom regulatorOk} (hs : s.Canon) : Keeps (execPowerEntry dom regulatorOk s) :=
  .guard <| .ite (.guard <| .guard <| .guard <| .next hs.beginEntry) <| .ite
    (.guard <| .guard <| .guard <| .guard <| .next hs.beginEntry) <| .ite
    (.guard <| .next hs.setLinkState.setLink.requeue.flood.evalReach) .notDue
theorem execEntryComplete_keeps {dom} (hs : s.Canon) : Keeps (execEntryComplete dom s) := by
  unfold execEntryComplete
  extract_lets d s1
  split
  · exact .notDue
  · split
    · exact .notDue
    · split
      · exact .notDue
      · extract_lets s2 s3 s4
        have hs2 : s2.Canon := .ite hs.setSeq.setDevState.sleepVat hs.setSeq.setFolioState.sleepFolio
        have hs3 : s3.Canon := .ite (hs2.foldl fun h1 => h1.setFolioState.sleepFolio) hs2
        have hs4 : s4.Canon := .ite hs3.setFld hs3
        exact .next (.ite hs4.startExit hs4)
theorem execKnock_keeps {l bursts} (hs : s.Canon) : Keeps (execKnock l bursts s) :=
  .guard (.ite (.next hs) (.ite (.next hs) (.next hs.wakeCause.wakePort.wake)))
theorem State.Canon.fallD2 {d} (hs : s.Canon) : (s.fallD2 d).Canon :=
  hs.same.setDevState.sleepVat.setFld.foldl fun h1 => .ite h1 h1.setFolioState.sleepFolio
theorem State.Canon.failWhere {f} (hs : s.Canon) : (s.failWhere f).Canon :=
  hs.foldl (fun h1 => by
      split
      · exact .ite h1.failStep h1
      · exact h1)
theorem State.Canon.limp {u} (hs : s.Canon) : (s.limp u).Canon := hs.setBit.log
theorem execSupply_keeps {r} (hs : s.Canon) : Keeps (execSupply r s) := by
  unfold execSupply
  split
  · exact .notDue
  · split
    · exact .guard (.next hs.log.retire)
    · exact .next hs.same.log.failWhere
    · exact .next hs.same.log.failWhere
    · exact .next hs.same.log
theorem State.Canon.sample {temps} (hs : s.Canon) : (s.sample temps).Canon := by
  unfold State.sample
  extract_lets t s1 hbm hot top on off warn src s2
  have hs1 : s1.Canon := hs.foldl fun h1 => h1.setReg
  clear_value s1
  have hsrc : src.Canon := hs1.setFld.setFld.setBit
  clear_value src
  exact .ite hsrc.same.wake hsrc.same
theorem State.Canon.withTrip {h a b} (hs : s.Canon) : State.Canon { s with hoop := h, thermLow := a, faultLow := b } := hs.same
theorem execThermTrip_keeps (hs : s.Canon) : Keeps (execThermTrip s) := .guard <| .next hs.log.fence.fallD2.withTrip

/-! ## Machine/Txn.lean -/

theorem State.Canon.setPortReg {k v} (hs : s.Canon) : (s.setPortReg k v).Canon := hs.same
theorem State.Canon.txnBegin {p w} (hs : s.Canon) : (s.txnBegin p w).Canon := by
  unfold State.txnBegin
  extract_lets tag gm ks code src
  clear_value code
  split
  · exact hs.setTxn.setPortReg
  · exact hs.setPortReg
theorem State.Canon.txnSel {p w} (hs : s.Canon) : (s.txnSel p w).Canon := hs.setReg.setPortReg.touch
theorem State.Canon.txnCommit {p w} (hs : s.Canon) : (s.txnCommit p w).Canon := by
  unfold State.txnCommit
  split
  · exact .ite hs.setTxn hs.pageErr
  · exact hs.pageErr
theorem State.Canon.txnRollback {p w} (hs : s.Canon) : (s.txnRollback p w).Canon := by
  unfold State.txnRollback
  split
  · exact hs.setTxn
  · exact hs.pageErr
theorem State.Canon.wrLease {p w} (hs : s.Canon) : (s.wrLease p w).Canon := by
  unfold State.wrLease
  exact hs.hostWrite fun h1 => .ite h1.setReg h1
theorem State.Canon.orphan {k} (hs : s.Canon) : (s.orphan k).Canon := hs.setTxn.setBit.bump.log.withLine
theorem State.Canon.wrTxnBegin {p w} (hs : s.Canon) : (s.wrTxnBegin p w).Canon := hs.hostWrite fun h1 => h1.txnBegin
theorem State.Canon.wrTxnSel {p w} (hs : s.Canon) : (s.wrTxnSel p w).Canon := hs.hostWrite fun h1 => h1.txnSel
theorem State.Canon.wrTxnCommit {p w} (hs : s.Canon) : (s.wrTxnCommit p w).Canon := hs.hostWrite fun h1 => h1.txnCommit
theorem State.Canon.wrTxnRollback {p w} (hs : s.Canon) : (s.wrTxnRollback p w).Canon := hs.hostWrite fun h1 => h1.txnRollback
theorem State.Canon.applyStaged {l} (hs : s.Canon) : (s.applyStaged l).Canon := hs.foldl fun h1 => h1.setReg
theorem State.Canon.fillBuckets {t : State} (ht : t.Canon) : (Machine.fillBuckets s t).Canon :=
  ht.foldl fun h1 => .ite h1.setTokens h1
theorem State.Canon.turnContexts {t : State} (ht : t.Canon) : (Machine.turnContexts s t).Canon :=
  ht.foldl fun h1 => .ite h1 (.ite h1.setCtx.select (.ite h1.setCtx h1))
theorem State.Canon.cutPower {t : State} (ht : t.Canon) : (Machine.cutPower s t).Canon :=
  .foldl (ht.foldl fun h1 => .ite h1 <| h1.foldl fun h2 => .ite h2.wipe.setBit h2) fun h1 => .ite h1.wipe.setBit h1
theorem State.Canon.startSwitches {t : State} (ht : t.Canon) : (Machine.startSwitches s t).Canon :=
  ht.foldl fun h1 => .ite h1 h1.same.setBit
theorem State.Canon.mirrorTimers {t : State} (ht : t.Canon) : (Machine.mirrorTimers t).Canon := ht.foldl fun h1 => h1.setFld
theorem State.Canon.press {x} (hs : s.Canon) : (s.press x).Canon :=
  hs.applyStaged.fillBuckets.turnContexts.cutPower.startSwitches.mirrorTimers
theorem execPressPoint_keeps {k} (hs : s.Canon) : Keeps (execPressPoint k s) := by
  unfold execPressPoint
  extract_lets x
  split
  · exact .notDue
  · split
    · exact .notDue
    · split
      · exact .next hs.press.setTxn.setBit.withLine
      · exact .next hs.setTxn.setBit.bump.withLine

/-! ## Machine/Mailbox.lean -/

theorem State.Canon.mbxEnd {code} (hs : s.Canon) : (s.mbxEnd code).Canon :=
  .withLine (hs.setBit.setBit.setFld.same.foldl fun h1 => h1.setReg)
theorem State.Canon.mbxReady {m} (hs : s.Canon) : (s.mbxReady m).Canon := hs.same.setBit.withLine
theorem State.Canon.romChunk {m level} (hs : s.Canon) : (s.romChunk m level).Canon :=
  .mbxReady (.setFld (.setBit (hs.foldl fun h1 => .ite h1.setReg h1)))
theorem State.Canon.applyDelays {f} (hs : s.Canon) : (s.applyDelays f).Canon :=
  .foldl (hs.foldl fun h1 => h1.setReg) fun h1 => h1.setReg
theorem State.Canon.bring {data} (hs : s.Canon) : (s.bring data).Canon := hs.foldl fun h1 => h1.hbmWrite
theorem State.Canon.endFwLoad {f} (hs : s.Canon) : (s.endFwLoad f).1.Canon := by
  unfold State.endFwLoad
  extract_lets wait
  split
  · split
    · extract_lets src s1
      have hs1 : s1.Canon := hs.bring.same.setFld
      exact .ite hs1.setFld (.ite hs1.applyDelays hs1)
    · exact .ite hs.setFld hs
  · exact .ite hs.setFld hs
theorem State.Canon.writeTwice {f} (hs : s.Canon) : (s.writeTwice f).Canon := hs.foldl fun h1 => h1.hbmWrite
theorem State.Canon.endFwStage {f} (hs : s.Canon) : (s.endFwStage f).1.Canon := by
  unfold State.endFwStage
  split
  · split
    · exact hs
    · split
      · exact hs
      · exact hs.bring.writeTwice.same.setBit.setFld
  · exact hs
theorem State.Canon.fwPromote (hs : s.Canon) : s.fwPromote.1.Canon := by
  unfold State.fwPromote
  split
  · split
    · exact hs.same.setFld.applyDelays
    · exact hs
  · exact hs
theorem State.Canon.fillRings {x} (hs : s.Canon) : (s.fillRings x).Canon :=
  .foldl (hs.foldl fun h1 => h1.setCredit) fun h1 => h1.setCredit
theorem State.Canon.endSchedLoad {x} (hs : s.Canon) : (s.endSchedLoad x).1.Canon := by
  unfold State.endSchedLoad
  split
  · exact hs
  · extract_lets code src s1 s2
    split
    · exact hs
    · exact .setReg (.setReg (hs.bring.same.fillRings.foldl fun h1 => .ite h1 h1.loadFolio))
theorem State.Canon.schedUnload (hs : s.Canon) : s.schedUnload.1.Canon := by
  unfold State.schedUnload
  extract_lets id
  split
  · exact hs
  · split
    · exact hs
    · exact hs.same
theorem State.Canon.keyLoad (hs : s.Canon) : s.keyLoad.1.Canon := by
  unfold State.keyLoad
  extract_lets slot key
  split
  · exact hs
  · exact hs.setKey
theorem State.Canon.keyClear (hs : s.Canon) : s.keyClear.1.Canon := by
  unfold State.keyClear
  split
  · exact hs
  · exact hs.setKey
theorem State.Canon.bulkExport {cls slot} (hs : s.Canon) : (s.bulkExport cls slot).Canon := by
  unfold State.bulkExport
  extract_lets r
  have hr : r.1.Canon := List.foldlRecOn (motive := fun r : State × Nat × Nat => r.1.Canon) s.strIdx _ hs fun r hr i _ => by
    split
    · split
      · exact hr.exportNow
      · exact hr
    · exact hr
  exact hr.setFld.setReg.setReg
theorem State.Canon.mbxRun {p op fw sched} (hs : s.Canon) : (s.mbxRun p op fw sched).1.Canon := hs.same.setBit
theorem State.Canon.mbxDone {r} (hr : r.1.Canon) : (Machine.mbxDone r).Canon := hr.mbxEnd
theorem State.Canon.mbxStart {p op fw sched} (hs : s.Canon) : (s.mbxStart p op fw sched).Canon := by
  unfold State.mbxStart
  extract_lets r k q
  split
  · exact hs.mbxEnd
  · split
    · exact hs.mbxEnd
    · split
      · exact .ite hs.mbxEnd hs.mbxRun.mbxReady
      · exact .ite hs.mbxEnd hs.mbxRun.mbxReady
      · exact .mbxDone hs.fwPromote
      · exact hs.mbxRun.mbxReady
      · exact .mbxDone hs.schedUnload
      · exact .mbxDone hs.keyLoad
      · exact .mbxDone hs.keyClear
      · exact .ite hs.mbxEnd hs.mbxRun.bulkExport
      · exact .ite hs.mbxRun.setReg.romChunk hs.mbxEnd
      · exact hs.mbxRun
      · exact .ite hs.mbxRun hs.mbxEnd
      · exact .ite hs.mbxRun.retire hs.mbxEnd
      · exact .ite hs.mbxEnd (.ite hs.mbxEnd hs.mbxRun.retirePc)
theorem State.Canon.mbxCmd {p op fw sched} (hs : s.Canon) : (s.mbxCmd p op fw sched).Canon :=
  .ite hs.setBit hs.same.setFld.mbxStart
theorem State.Canon.wrMbxCmd {p op fw sched} (hs : s.Canon) : (s.wrMbxCmd p op fw sched).Canon :=
  hs.hostWrite fun h1 => h1.mbxCmd
theorem State.Canon.mbxChunk {w} (hs : s.Canon) : (s.mbxChunk w).Canon := by
  unfold State.mbxChunk
  split
  · exact hs
  · split
    · exact hs
    · extract_lets s1 m1
      have hs1 : s1.Canon := hs.setBit.bump
      exact .ite (.ite hs1.same hs1.mbxReady) (.ite hs1.mbxEnd hs1.romChunk)
theorem State.Canon.wrMbxChunk {p w} (hs : s.Canon) : (s.wrMbxChunk p w).Canon := hs.hostWrite fun h1 => h1.mbxChunk
theorem execMbxTimeout_keeps (hs : s.Canon) : Keeps (execMbxTimeout s) := by
  unfold execMbxTimeout
  split
  · exact .notDue
  · exact .guard (.guard (.next hs.mbxEnd))
theorem execMbxOperationEnd_keeps {found} (hs : s.Canon) : Keeps (execMbxOperationEnd found s) := by
  unfold execMbxOperationEnd
  split
  · exact .notDue
  · split
    · exact .notDue
    · split
      · exact .next (.mbxDone hs.endFwLoad)
      · exact .next (.mbxDone hs.endFwStage)
      · exact .next (.mbxDone hs.endSchedLoad)
      · exact .guard (.next hs.mbxEnd)
      · exact .next hs.setReg.mbxEnd
      · exact .next (.mbxEnd (.setReg (.setReg (hs.foldl fun h1 => .ite h1.loseMems h1))))
      · exact .guard (.next hs.mbxEnd)
      · exact .guard (.next hs.mbxEnd)
      · exact .notDue
theorem State.Canon.mbxOrphan {p} (hs : s.Canon) : (s.mbxOrphan p).Canon := by
  unfold State.mbxOrphan
  split
  · exact .ite hs.mbxEnd hs
  · exact hs

/-! ## Machine/D2dPort.lean -/

theorem State.Canon.d2dEmit {seq body} (hs : s.Canon) : (s.d2dEmit seq body).Canon := hs.same
theorem State.Canon.d2dResendAll (hs : s.Canon) : s.d2dResendAll.Canon := hs.foldl fun h1 => h1.d2dEmit
theorem State.Canon.d2dSend (hs : s.Canon) : s.d2dSend.Canon := by
  unfold State.d2dSend
  split
  · exact hs.d2dEmit
  · exact .ite hs.d2dEmit hs.same.d2dEmit
theorem State.Canon.d2dBad (hs : s.Canon) : s.d2dBad.Canon := hs.bump
theorem State.Canon.d2dTrain (hs : s.Canon) : s.d2dTrain.Canon := hs.setFld.bump
theorem State.Canon.d2dFailed (hs : s.Canon) : s.d2dFailed.Canon := .ite hs.same.bump.d2dTrain hs.same.bump.d2dResendAll
theorem State.Canon.d2dControl {hi} (hs : s.Canon) : (s.d2dControl hi).Canon := by
  unfold State.d2dControl
  extract_lets ack s1 s2
  have hs1 : s1.Canon := .ite hs.same hs
  clear_value s1
  exact .ite hs1.same.d2dFailed hs1.same
theorem State.Canon.d2dTake {f} (hs : s.Canon) : (s.d2dTake f).Canon :=
  .ite hs.same.d2dBad.same (.ite hs.same.d2dBad.d2dTrain hs.same)
theorem State.Canon.d2dFrame {hi f} (hs : s.Canon) : (s.d2dFrame hi f).Canon :=
  .ite hs (.ite hs.d2dTake (.ite hs hs.d2dBad.same))
theorem execD2dFlit_keeps {bytes} (hs : s.Canon) : Keeps (execD2dFlit bytes s) := by
  unfold execD2dFlit
  split
  · exact .notDue
  · extract_lets f hi src s1 s2
    have hs1 : s1.Canon := hs.d2dControl
    have hs2 : s2.Canon := hs1.d2dFrame
    exact .ite (.next hs.d2dBad.same.d2dSend) (.ite (.next hs1) (.next (.ite hs2.d2dSend hs2)))
theorem State.Canon.d2dModules {up repaired lanes} (hs : s.Canon) : (s.d2dModules up repaired lanes).Canon := by
  unfold State.d2dModules
  extract_lets now left s1 s2 s3
  have hs3 : s3.Canon := .setFld (.setFld (.foldl (hs.foldl fun h1 => .ite h1.log h1) fun h1 => h1.log))
  exact .ite hs3.setFld.withdraw hs3.setFld
theorem execD2dRetrainComplete_keeps {up repaired lanes} (hs : s.Canon) : Keeps (execD2dRetrainComplete up repaired lanes s) :=
    by
  unfold execD2dRetrainComplete
  split
  · exact .notDue
  · extract_lets s1
    have hs1 : s1.Canon := hs.same.d2dModules
    exact .next (.ite hs1.d2dResendAll hs1)
theorem State.Canon.askLevel {w} (hs : s.Canon) : (s.askLevel w).Canon := .ite hs (.ite hs.setBit hs.same.setBit)
theorem State.Canon.wrLevel {p w} (hs : s.Canon) : (s.wrLevel p w).Canon := hs.hostWrite fun h1 => h1.askLevel
theorem State.Canon.dropLevel2 (hs : s.Canon) : s.dropLevel2.Canon := hs.same.foldl fun h1 => h1.setFld.setFld
theorem execIfaceLevelDecision_keeps (hs : s.Canon) : Keeps (execIfaceLevelDecision s) := by
  unfold execIfaceLevelDecision
  split
  · exact .notDue
  · extract_lets s1
    have hs1 : s1.Canon := hs.same.setBit
    exact .ite (.next hs1) (.ite (.next (.setFld (.ite hs1.dropLevel2 hs1))) (.next hs1.setBit))
theorem State.Canon.wrSeal {p w} (hs : s.Canon) : (s.wrSeal p w).Canon := hs.hostWrite fun h1 => .ite h1.setBit h1
theorem State.Canon.portReset {p named} (hs : s.Canon) : (s.portReset p named).Canon := hs.foldl fun h1 => .ite h1.orphan h1

/-! ## Machine/Seq.lean -/

theorem execInterruptTaken_keeps {n fclk} (hs : s.Canon) : Keeps (execInterruptTaken n fclk s) := by
  unfold execInterruptTaken
  split
  · exact .notDue
  · split
    · exact .notDue
    · exact .guard (.next hs.irqMax.suspend)
theorem State.Canon.ring {n c} (hs : s.Canon) : (s.ring n c).Canon := .ite hs (.ite hs.setBit hs.place)
theorem State.Canon.haltCtx {n c} (hs : s.Canon) : (s.haltCtx n c).Canon := .ite hs.setCtx.haltDue (.ite hs.setCtx.select hs)
theorem State.Canon.goCtx {n c} (hs : s.Canon) : (s.goCtx n c).Canon := .ite hs (.ite hs.setCtx.select hs.endEntry)
theorem State.Canon.seqCtxBits {n c w} (hs : s.Canon) : (s.seqCtxBits n c w).Canon := by
  unfold State.seqCtxBits
  extract_lets s1 s2
  have hs1 : s1.Canon := .ite hs.goCtx hs
  have hs2 : s2.Canon := .ite hs1.haltCtx hs1
  exact .ite hs2.ring hs2
theorem State.Canon.wrSeqCtx {p n c w} (hs : s.Canon) : (s.wrSeqCtx p n c w).Canon := hs.hostWrite fun h1 => h1.seqCtxBits
theorem State.Canon.failShared {n uncounted} (hs : s.Canon) : (s.failShared n uncounted).Canon :=
  .setContrib (hs.foldl fun h1 => .ite (h1.foldl fun h2 => .ite h2.failGiver h2) h1)
theorem execSeqLockstep_keeps {n} (hs : s.Canon) : Keeps (execSeqLockstep n s) :=
  .guard <| .next <| .countEvent <| .select <| .log <| hs.bump.failShared.foldl fun h1 =>
    h1.failWork.failTags.cancelEngines.setCtx
theorem boundMissed_keeps {n c code counts} (hs : s.Canon) : Keeps (Machine.boundMissed n c code counts s) :=
  .guard (.next hs.engineFault)
theorem waitMissed_keeps {n c ks code} (hs : s.Canon) : Keeps (Machine.waitMissed n c ks code s) := by
  unfold Machine.waitMissed
  split
  · exact .ite (.next hs.engineFault) .notDue
  · exact .notDue
theorem execEngHang_keeps {u} (hs : s.Canon) : Keeps (execEngHang u s) := by
  unfold execEngHang
  split
  · exact .guard (.next hs.failWork.log.countEvent)
  · split
    · exact .notDue
    · exact .next (.withdraw (.log (hs.foldl fun h1 => h1.failTagWork)))

/-! ## Machine/Registers.lean -/

theorem State.Canon.validClr {a w} (hs : s.Canon) : (s.validClr a w).Canon :=
  .ite hs (.ite hs.setReg (.ite hs.setReg.setReg hs))
theorem State.Canon.regEff {p a w} (hs : s.Canon) : (Machine.regEff p a w s).Canon :=
  .ite hs.askLevel <| .ite (.ite hs.setBit hs) <| .ite hs.txnBegin <| .ite hs.txnSel <| .ite hs.txnCommit <| .ite
    hs.txnRollback <| .ite hs.mbxCmd <| .ite hs.mbxChunk <| .ite hs.setReg <| .ite hs.applyVotes <| .ite hs.releaseWake <| .ite
    hs.refuseClr <| .ite hs.thermClr <| .ite hs.fltStat <| .ite hs.fltInject <| .ite hs.strmCmd <| .ite hs.viewClr <| .ite
    hs.startForm <| .ite hs.seqCtxBits <| .ite hs.arrDbgSel hs.clrEff.validClr
theorem State.Canon.writeWord {p a w} (hs : s.Canon) : (s.writeWord p a w).Canon :=
  .ite hs.wrVoteDbg (.ite hs.wrLease (hs.hostWrite fun h1 => h1.regEff))
theorem State.Canon.badAccess {p a} (hs : s.Canon) : (s.badAccess p a).Canon := .ite hs (.ite hs.touch.pageErr hs.touch)
theorem State.Canon.access {p a width data} (hs : s.Canon) : (s.access p a width data).Canon :=
  .ite (.ite hs.bump hs) (.ite hs.writeWord (.ite hs.writeWord.writeWord hs.badAccess))
theorem State.Canon.release {mine} (hs : s.Canon) : (s.release mine).Canon :=
  hs.same.foldl fun h1 => h1.writeClear.regEff.withLine
theorem State.Canon.jtagRead {a} (hs : s.Canon) : (s.jtagRead a).Canon := by
  unfold State.jtagRead
  extract_lets s0
  split
  · extract_lets s1
    have hs1 : s1.Canon := hs.touch.same
    exact .ite hs1.popDone (.ite hs1.same hs1)
  · exact hs.touch.same
theorem execWindow_keeps {w} (hs : s.Canon) : Keeps (execWindow w s) :=
  .ite (.next hs.same) <| .ite (.next hs.access) <| .ite (.next hs.same) <| .ite (.next hs.badAccess.same) <| .next hs.jtagRead

/-! ## Machine/PowerSeq.lean -/

theorem State.Canon.reloadSeg {n j} (hs : s.Canon) : (s.reloadSeg n j).Canon := by
  unfold State.reloadSeg
  split
  · exact hs
  · exact hs.foldl (fun h1 => by
        extract_lets blk
        split
        · exact h1.put
        · exact h1)
theorem State.Canon.reloadVat (hs : s.Canon) : s.reloadVat.Canon :=
  .foldl (hs.foldl fun h1 => h1.put) fun h1 => .ite h1.copyWheel h1
theorem State.Canon.exitEffect {d j} (hs : s.Canon) : (s.exitEffect d j).Canon := by
  unfold State.exitEffect
  split
  · exact .reloadVat (hs.foldl (fun h1 => by
        split
        · exact h1.loadFolio
        · exact h1))
  · split
    · split
      · exact hs.loadFolio
      · exact hs
    · exact .ite hs.reloadSeg hs
theorem State.Canon.endExit {d x} (hs : s.Canon) : (s.endExit d x).Canon :=
  .release <| .ite (.setFld <| .setDevState <| .ite (hs.setSeq.foldl fun h1 => h1.setFolioState) hs.setSeq)
    hs.setSeq.setFolioState
theorem State.Canon.stepExit {d x} (hs : s.Canon) : (s.stepExit d x).Canon := by
  unfold State.stepExit
  split
  · exact hs.endExit
  · exact .ite hs.exitEffect.endExit hs.exitEffect.setSeq
theorem execExitStep_keeps {dom} (hs : s.Canon) : Keeps (execExitStep dom s) := by
  unfold execExitStep
  extract_lets d
  split
  · exact .guard (.guard (.guard (.next hs.stepExit)))
  · split
    · exact .ite (.next hs.wakePort) .notDue
    · split
      · exact .notDue
      · exact .ite (.next hs.voteFails) (.next hs.startExit)
theorem execSubstitutionDone_keeps {n} (hs : s.Canon) : Keeps (execSubstitutionDone n s) := by
  unfold execSubstitutionDone
  split
  · exact .notDue
  · exact .guard (.next hs.same.setSeq.takeSettings.setFld.loadFolio.setFolioState.release)
theorem State.Canon.markFailed {d} (hs : s.Canon) : (s.markFailed d).Canon := hs.same.voteFails
theorem State.Canon.fabricFails (hs : s.Canon) : s.fabricFails.Canon := hs.log.withdraw.same.fence.fallD2.markFailed
theorem State.Canon.folioFails {n} (hs : s.Canon) : (s.folioFails n).Canon := hs.log.retire.setFolioState.markFailed
theorem State.Canon.wakeFails {d} (hs : s.Canon) : (s.wakeFails d).Canon :=
  .ite hs.folioFails <| .ite hs.log.setLinkState.markFailed <| .ite hs.log.failBank.markFailed <| .ite
    hs.log.log.setBit.withdraw <| .ite hs.log.d2dModules hs.fabricFails
theorem execWakeFail_keeps {dom} (hs : s.Canon) : Keeps (execWakeFail dom s) := by
  unfold execWakeFail
  extract_lets d q
  split
  · exact .ite (.next hs.wakeFails) .notDue
  · split
    · exact .notDue
    · split
      · exact .notDue
      · split
        · exact .notDue
        · split
          · exact .notDue
          · split
            · exact .notDue
            · split
              · exact .next hs.setSeq
              · split
                · exact .next hs.limp.stepExit
                · exact .next hs.setSeq.wakeFails

/-! ## Machine/Bringup.lean -/

theorem State.Canon.setStage {k} (hs : s.Canon) : (s.setStage k).Canon := hs.setFld
theorem State.Canon.halt {code} (hs : s.Canon) : (s.halt code).Canon := hs.setStage.setFld.setDevState
theorem State.Canon.cold : s.cold.Canon := by
  unfold State.cold
  extract_lets src
  have hsrc : src.Canon := .reset
  clear_value src
  exact hsrc.same
theorem State.Canon.begin (hs : s.Canon) : s.begin.Canon := hs.setStage.setBit
theorem State.Canon.saveTable (hs : s.Canon) : s.saveTable.Canon := by
  unfold State.saveTable
  extract_lets s1
  have hs1 : s1.Canon := hs.foldl fun h1 => .dropStep (.ite h1.writeRecord h1)
  clear_value s1
  exact hs1.same
theorem State.Canon.settleLeaves (hs : s.Canon) : s.settleLeaves.Canon :=
  hs.foldl (fun h1 => by
      split
      · exact h1.setFld
      · exact h1)
theorem State.Canon.warm (hs : s.Canon) : s.warm.Canon := by
  unfold State.warm
  extract_lets s0 s1 src hoop s2
  have hs0 : s0.Canon := hs.foldl fun h => .ite h.orphan h
  have hs1 : s1.Canon := .settleLeaves (.ite hs0.mbxEnd hs0)
  have hsrc : src.Canon := .reset
  clear_value s1 src
  have hs2 : s2.Canon := (hsrc.withHbm hs1.hbm).same
  exact hs2.setReg.setFld
theorem State.Canon.warmAssert {saved} (hs : s.Canon) : (s.warmAssert saved).Canon :=
  .warm (.ite (.ite hs.saveTable hs.same) (.ite hs.same hs))
theorem State.Canon.withInReset {b} (hs : s.Canon) : State.Canon { s with inReset := b } := hs.same
theorem State.Canon.withInWarm {b} (hs : s.Canon) : State.Canon { s with inWarm := b } := hs.same
theorem State.Canon.coolReset (hs : s.Canon) : s.coolReset.Canon := by
  unfold State.coolReset
  split
  · exact hs
  · split
    · exact .cold
    · exact .begin (.withInReset .cold)
    · exact hs.same.warmAssert
    · exact hs.same.warmAssert.withInWarm.begin
theorem State.Canon.bootRetire {failed n} (hs : s.Canon) : (s.bootRetire failed n).Canon := by
  unfold State.bootRetire
  split
  · exact hs
  · extract_lets s1 spend
    have hs1 : s1.Canon := hs.setBit.setFolioState
    split
    · exact hs1.setFld.log
    · split
      · exact hs1.setFld.setFld.log
      · exact hs1.log.setBit.log
theorem State.Canon.bootFails {failed banks} (hs : s.Canon) : (s.bootFails failed banks).Canon :=
  .foldl (hs.foldl fun h1 => h1.bootRetire) fun h1 => h1.failBank
theorem State.Canon.powerUp (hs : s.Canon) : s.powerUp.Canon :=
  .foldl (.wipe <| .foldl (hs.foldl fun h1 => h1.setFolioState.setReg.loseMems) fun h1 => h1.setReg) fun h1 => h1.setCtx
theorem execPower_keeps {failed banks fabric} (hs : s.Canon) : Keeps (execPower failed banks fabric s) := by
  unfold execPower
  split
  · exact .notDue
  · split
    · exact .notDue
    · extract_lets s0 s1
      have hs0 : s0.Canon := by
        unfold s0
        split
        · exact hs.applyDelays
        · exact hs
      have hs1 : s1.Canon := hs0.bootFails.powerUp
      exact .ite (.next hs0.log.halt) (.ite (.next hs1.halt) (.next hs1.setStage.release))
theorem execTest_keeps {failed banks} (hs : s.Canon) : Keeps (execTest failed banks s) := by
  unfold execTest
  split
  · exact .notDue
  · extract_lets n s1
    have hs1 : s1.Canon := hs.setFld.bootFails.powerUp
    exact .ite (.next hs1.halt) (.next hs1.setStage)
theorem State.Canon.restoreTable {good} (hs : s.Canon) : (s.restoreTable good).Canon := .ite hs.same hs.same.setBit
theorem State.Canon.reloadScheds (hs : s.Canon) : s.reloadScheds.Canon :=
  .foldl (hs.foldl (fun h1 => by
      split
      · exact h1.loadFolio
      · exact h1)) (fun h1 => h1.fillRings)
theorem State.Canon.d2dUp {o} (hs : s.Canon) : (s.d2dUp o).Canon := hs.setFld.same.d2dModules
theorem State.Canon.trainStacks {o} (hs : s.Canon) : (s.trainStacks o).1.Canon :=
  .foldl (hs.foldl fun h1 => .ite h1.log h1.setBit) fun h1 => .ite h1 h1.retirePc
theorem execTrain_keeps {o} (hs : s.Canon) : Keeps (execTrain o s) := by
  unfold execTrain
  split
  · exact .notDue
  · extract_lets r s1 s2
    have hr : r.1.Canon := hs.trainStacks
    exact .ite (.next hr.halt) <| .ite (.next <| .halt <| hr.foldl fun h1 => h1.log) <| .next <| .setStage <| .startKnocks <|
      .foldl (.ite hr.d2dUp.reloadScheds.restoreTable hr.d2dUp) fun h1 => .ite h1 h1.setLinkState
theorem execLink_keeps (hs : s.Canon) : Keeps (execLink s) := by
  unfold execLink
  split
  · exact .notDue
  · extract_lets s1 s2
    have hs2 : s2.Canon := .setDevState (.setStage (hs.foldl fun h1 => .ite h1.setLinkState h1))
    exact .next (.ite hs2.askJoin hs2)

/-! ## Machine/MemOps.lean -/

theorem memOp_keeps {n c e unit limit aligned down ts run} (hrun : ∀ {x1 x2 t}, t.Canon → (run x1 x2 t).Canon) :
    (Machine.memOp n c e s unit limit aligned down ts run).Keeps :=
  .of (fun h1 => hrun h1) (fun h1 => h1.relEng) fun h1 => h1
theorem opFmfill_keeps {n c e} : (opFmfill n c e s).Keeps := by
  unfold opFmfill
  exact memOp_keeps fun h1 => h1.fmWrite
theorem opFmcopy_keeps {n c e} : (opFmcopy n c e s).Keeps := by
  unfold opFmcopy
  exact memOp_keeps fun h1 => h1.fmWrite
theorem opObld_keeps {n c e} : (opObld n c e s).Keeps := by
  unfold opObld
  exact memOp_keeps fun h1 => h1.put
theorem opObst_keeps {n c e} : (opObst n c e s).Keeps := by
  unfold opObst
  exact memOp_keeps fun h1 => h1.fmWrite
theorem opVtfill_keeps {n c e} : (opVtfill n c e s).Keeps := by
  unfold opVtfill
  exact memOp_keeps fun h1 => h1.vatWrite
theorem opVtcopy_keeps {n c e} : (opVtcopy n c e s).Keeps := by
  unfold opVtcopy
  exact memOp_keeps fun h1 => h1.vatWrite
theorem opVtld_keeps {n c e} : (opVtld n c e s).Keeps := by
  unfold opVtld
  exact memOp_keeps fun h1 => h1.fmWrite
theorem opVtst_keeps {n c e} : (opVtst n c e s).Keeps := by
  unfold opVtst
  exact memOp_keeps fun h1 => h1.vatWrite
theorem opLzput_keeps {n c e} : (opLzput n c e s).Keeps :=
  .of (fun h1 => by
      extract_lets t0
      have ht0 : t0.Canon := .ite h1.setCredit h1
      split
      · exact ht0.ringPut
      · exact ht0) (fun h1 => h1.relEng) (fun h1 => h1)
theorem opLzcopy_keeps {n c e} : (opLzcopy n c e s).Keeps := by
  refine .of (fun h1 => ?_) (fun h1 => .relEng ?_) (fun h1 => h1)
  · split
    · exact h1.fmWrite
    · exact h1.fmWrite
    · exact h1
  · split
    · exact .ite h1.ringFree h1
    · exact h1

/-! ## Machine/Mvp.lean -/

theorem State.Canon.setLatchE {n l k vs} (hs : s.Canon) : (s.setLatchE n l k vs).Canon := hs.same
theorem State.Canon.setLatchS {n l b vs} (hs : s.Canon) : (s.setLatchS n l b vs).Canon := hs.same
theorem opMvld_keeps {n c e} : (opMvld n c e s).Keeps :=
  engSlot_keeps (fun h1 => by
      extract_lets t0 vs ws rs
      have ht0 : t0.Canon := .ite h1.same h1
      split
      · extract_lets t1 t2
        have ht1 : t1.Canon := ht0.setLatchE
        exact .holdEng (.same (.ite ht1.setLatchS ht1)))
theorem mvInstr_keeps {n c e} : (Machine.mvInstr n c e s).Keeps := .of fun h1 => h1.outRow.relEng
theorem State.Canon.mvStart {n c e} {t : State} (ht : t.Canon) : (Machine.mvStart n c e s t).Canon :=
  .ite ht.setJobs (ht.done mvInstr_keeps)
theorem State.Canon.spendToken {n c} (hs : s.Canon) : (s.spendToken n c).Canon := by
  unfold State.spendToken
  split
  · exact hs.setTokens
  · exact hs
theorem opMvmul_keeps {n c e} : (opMvmul n c e s).Keeps := engSlotKeep_keeps fun h1 => h1.spendToken.mvStart
theorem instr_keeps {j n} : (DotJob.instr j n s).Keeps := mvInstr_keeps
theorem State.Canon.settleMvp {n js} (hs : s.Canon) : (s.settleMvp n js).Canon := by
  induction js generalizing s with
  | nil => exact hs.setJobs
  | cons j js ih =>
    unfold State.settleMvp
    split
    · exact hs.setJobs
    · exact ih (hs.done instr_keeps)

/-! ## Machine/Random.lean -/

theorem opRset_keeps {n c e} : (opRset n c e s).Keeps := engSlot_keeps fun h1 => h1.setGen
theorem opRstart_keeps {n c e} : (opRstart n c e s).Keeps := engSlot_keeps fun h1 => h1.setGen
theorem opRgen_keeps {n c e} : (opRgen n c e s).Keeps :=
  engSlot_keeps (fun h1 => by
      extract_lets old t1 src
      have ht1 : t1.Canon := .ite h1.setVm h1.setLanes
      exact .ite ht1.setGen ht1)

/-! ## Machine/Resume.lean -/

theorem State.Canon.sewLoad {n ws} (hs : s.Canon) : (s.sewLoad n ws).Canon := hs.same
/-- Every instruction that a resume record can name keeps the memories canonical. -/
theorem longOf_keeps {opc o n c e} (ho : longOf opc = some o) : (o.1 n c e s).Keeps := by
  unfold longOf at ho
  split at ho <;> cases ho
  · exact opAstream_keeps
  · exact opAfold_keeps
  · exact opVzrd_keeps
  · exact opSscan_keeps
  · exact opSsumm_keeps
  · exact opSconv_keeps
  · exact opFmfill_keeps
  · exact opFmcopy_keeps
  · exact opObld_keeps
  · exact opObst_keeps
  · exact opVtfill_keeps
  · exact opVtcopy_keeps
  · exact opVtld_keeps
  · exact opVtst_keeps
  · exact opLzput_keeps
  · exact opLzcopy_keeps
theorem State.Canon.resumeRun {n c cut} (hs : s.Canon) : (s.resumeRun n c cut).Canon := by
  unfold State.resumeRun
  extract_lets r x s1 s2
  have hs2 : s2.Canon := .ite hs.setCtx.sewLoad hs.setCtx
  split
  · exact hs2
  · next ho => exact .longRun (longOf_keeps ho) hs2
theorem resumeAt_keeps {a w} (hs : s.Canon) : Keeps (Machine.resumeAt a w s) := by
  unfold Machine.resumeAt
  extract_lets n c x b
  split
  · exact .notDue
  · split
    · exact .notDue
    · split
      · exact .notDue
      · split
        · exact .next hs.takeTrap
        · exact checked_keeps (fun h1 => h1.setCtx) (fun h1 => h1.resumeRun) hs
theorem opEnop_keeps {_n _c opc e} {_s : State} : (opEnop _n _c opc e _s).Keeps := .of fun h1 => h1
theorem execEnop_keeps {a x} (hs : s.Canon) : Keeps (execEnop a x s) :=
  .guard (.ite (resumeAt_keeps hs) (issue_keeps (both_keeps opEnop_keeps scalarSlot_keeps) hs))
theorem State.Canon.rerunArray {n c d r} (hs : s.Canon) : (s.rerunArray n c d r).Canon := by
  unfold State.rerunArray
  split
  · exact hs
  · next ho => exact .haltDue (.after (longOf_keeps ho) ((longOf_keeps ho).close hs))
theorem State.Canon.rerunMvp {n} (hs : s.Canon) : (s.rerunMvp n).Canon := by
  unfold State.rerunMvp
  split
  · exact hs
  · exact hs.settleMvp
theorem rerunCheck_keeps {n tag code draws hw} (hs : s.Canon) : Keeps (s.rerunCheck n tag code draws hw) := by
  unfold State.rerunCheck
  split
  · exact .next hs
  · exact .next hs.tagFault
  · exact .ite (.next hs.tagFault) .notDue
  · exact .next hs.tagParity
  · exact .next hs.tagParity
theorem execOverflowRerun_keeps {x} (hs : s.Canon) : Keeps (execOverflowRerun x s) := by
  unfold execOverflowRerun
  extract_lets n
  split
  · split
    · exact .notDue
    · exact rerunCheck_keeps hs.holdOvr.rerunMvp
  · split
    · exact .notDue
    · exact rerunCheck_keeps hs.holdOvr.rerunArray

/-! ## Machine/Tick.lean -/

theorem State.Canon.tickLeases (hs : s.Canon) : s.tickLeases.Canon := hs.same
theorem State.Canon.tickCurds (hs : s.Canon) : s.tickCurds.Canon := hs.same
theorem State.Canon.engGo {n} (hs : s.Canon) : (s.engGo n).Canon := hs.settleMvp.gateRun
theorem State.Canon.tickEngines (hs : s.Canon) : s.tickEngines.Canon := hs.foldl fun h1 => .ite h1 h1.engGo
theorem State.Canon.tick (hs : s.Canon) : s.tick.Canon := by
  unfold State.tick
  extract_lets src
  have hsrc : src.Canon := hs.tickEngines.tickLeases.tickCurds
  clear_value src
  exact hsrc.same

/-! ## Machine/Dispatch.lean, Machine/Step.lean -/

/-- Every command keeps the memories canonical: the meaning of its constructor does. -/
theorem exec_keeps (hs : s.Canon) (i : Instr) : Keeps (exec i s) := by
  cases i with
  | porstN => exact .ite (.next hs.same) <| .guard <| .next <| .begin <| .same .cold
  | warmN saved => exact .ite (.next hs) <| .ite (.next hs.same) <| .next hs.warmAssert
  | rind => exact .guard <| .guard <| .next hs.setBit.setFld.setStage
  | refWait => exact .guard <| .next hs.setFld.log
  | fuse agree => exact .guard <| .ite (.next hs.setStage) <| .next hs.halt
  | power failed banks fabric => exact execPower_keeps hs
  | test failed banks => exact execTest_keeps hs
  | train o => exact execTrain_keeps hs
  | link => exact execLink_keeps hs
  | nop a w => exact scalar_keeps opNop_keeps hs
  | add a w => exact scalar_keeps opAdd_keeps hs
  | sub a w => exact scalar_keeps opSub_keeps hs
  | and a w => exact scalar_keeps opAnd_keeps hs
  | or a w => exact scalar_keeps opOr_keeps hs
  | xor a w => exact scalar_keeps opXor_keeps hs
  | shl a w => exact scalar_keeps opShl_keeps hs
  | shr a w => exact scalar_keeps opShr_keeps hs
  | sra a w => exact scalar_keeps opSra_keeps hs
  | mul a w => exact scalar_keeps opMul_keeps hs
  | slt a w => exact scalar_keeps opSlt_keeps hs
  | sltu a w => exact scalar_keeps opSltu_keeps hs
  | addi a w =>
    show Keeps (execAddi a w s)
    exact scalar_keeps opAddi_keeps hs
  | andi a w =>
    show Keeps (execAndi a w s)
    exact scalar_keeps opAndi_keeps hs
  | ori a w =>
    show Keeps (execOri a w s)
    exact scalar_keeps opOri_keeps hs
  | lui a w => exact scalar_keeps opLui_keeps hs
  | shli a w => exact scalar_keeps opShli_keeps hs
  | shri a w => exact scalar_keeps opShri_keeps hs
  | srai a w => exact scalar_keeps opSrai_keeps hs
  | ldw a w => exact scalar_keeps opLdw_keeps hs
  | stw a w => exact scalar_keeps opStw_keeps hs
  | ldp a w => exact scalar_keeps opLdp_keeps hs
  | stp a w => exact scalar_keeps opStp_keeps hs
  | lda a w => exact scalar_keeps opLda_keeps hs
  | sta a w => exact scalar_keeps opSta_keeps hs
  | aadd a w => exact scalar_keeps opAadd_keeps hs
  | aaddi a w =>
    show Keeps (execAaddi a w s)
    exact scalar_keeps opAaddi_keeps hs
  | amov a w => exact scalar_keeps opAmov_keeps hs
  | smov a w => exact scalar_keeps opSmov_keeps hs
  | lcset a w => exact scalar_keeps opLcset_keeps hs
  | br a w => exact scalar_keeps opBr_keeps hs
  | jmp a w => exact scalar_keeps opJmp_keeps hs
  | call a w => exact scalar_keeps opCall_keeps hs
  | ret a w => exact scalar_keeps opRet_keeps hs
  | loop a w => exact scalar_keeps opLoop_keeps hs
  | ifence a w => exact scalar_keeps opIfence_keeps hs
  | istore a w => exact scalar_keeps opIstore_keeps hs
  | sdone a w => exact scalar_keeps opSdone_keeps hs
  | yield a w => exact scalar_keeps opYield_keeps hs
  | resume a w => exact resumeAt_keeps hs
  | topen a w => exact scalar_keeps opTopen_keeps hs
  | tclose a w => exact scalar_keeps opTclose_keeps hs
  | tcancel a w => exact scalar_keeps opTcancel_keeps hs
  | twait a w => exact scalar_keeps opTwait_keeps hs
  | tpoll a w => exact scalar_keeps opTpoll_keeps hs
  | enop a x => exact execEnop_keeps hs
  | aload a e => exact engine_keeps opAload_keeps hs
  | astream a e => exact longEngine_keeps opAstream_keeps hs
  | afold a e => exact longEngine_keeps opAfold_keeps hs
  | overflowRerun r => exact execOverflowRerun_keeps hs
  | mvld a e => exact engine_keeps opMvld_keeps hs
  | mvmul a e => exact engine_keeps opMvmul_keeps hs
  | gupd a e => exact engine_keeps opGupd_keeps hs
  | gpload a e => exact engine_keeps opGpload_keeps hs
  | sfn a e => exact engine_keeps opSfn_keeps hs
  | fnload a e => exact engine_keeps opFnload_keeps hs
  | sxclr a e => exact engine_keeps opSxclr_keeps hs
  | sxacc a e => exact engine_keeps opSxacc_keeps hs
  | sxred a e => exact engine_keeps opSxred_keeps hs
  | sxdiv a e => exact engine_keeps opSxdiv_keeps hs
  | vadd a e => exact engine_keeps opVadd_keeps hs
  | vsub a e => exact engine_keeps opVsub_keeps hs
  | vmul a e => exact engine_keeps opVmul_keeps hs
  | vfma a e => exact engine_keeps opVfma_keeps hs
  | vmax a e => exact engine_keeps opVmax_keeps hs
  | vmin a e => exact engine_keeps opVmin_keeps hs
  | vabs a e => exact engine_keeps opVabs_keeps hs
  | vneg a e => exact engine_keeps opVneg_keeps hs
  | vcmp a e => exact engine_keeps opVcmp_keeps hs
  | vsel a e => exact engine_keeps opVsel_keeps hs
  | vcvt a e => exact engine_keeps opVcvt_keeps hs
  | vpack a e => exact engine_keeps opVpack_keeps hs
  | vunpack a e => exact engine_keeps opVunpack_keeps hs
  | viadd a e => exact engine_keeps opViadd_keeps hs
  | visub a e => exact engine_keeps opVisub_keeps hs
  | vimul a e => exact engine_keeps opVimul_keeps hs
  | vand a e => exact engine_keeps opVand_keeps hs
  | vor a e => exact engine_keeps opVor_keeps hs
  | vxor a e => exact engine_keeps opVxor_keeps hs
  | vshl a e => exact engine_keeps opVshl_keeps hs
  | vshrl a e => exact engine_keeps opVshrl_keeps hs
  | vshra a e => exact engine_keeps opVshra_keeps hs
  | vimax a e => exact engine_keeps opVimax_keeps hs
  | vimin a e => exact engine_keeps opVimin_keeps hs
  | vicmp a e => exact engine_keeps opVicmp_keeps hs
  | viota a e => exact engine_keeps opViota_keeps hs
  | vmov a e => exact engine_keeps opVmov_keeps hs
  | vperm a e => exact engine_keeps opVperm_keeps hs
  | vperm2 a e => exact engine_keeps opVperm2_keeps hs
  | vshuf a e => exact engine_keeps opVshuf_keeps hs
  | vld a e => exact engine_keeps opVld_keeps hs
  | vst a e => exact engine_keeps opVst_keeps hs
  | vssq a e => exact engine_keeps opVssq_keeps hs
  | vmv a e => exact engine_keeps opVmv_keeps hs
  | vsclr a e => exact engine_keeps opVsclr_keeps hs
  | vstred a e => exact engine_keeps opVstred_keeps hs
  | vstst a e => exact engine_keeps opVstst_keeps hs
  | vamax a e => exact engine_keeps opVamax_keeps hs
  | vaclr a e => exact engine_keeps opVaclr_keeps hs
  | vamred a e => exact engine_keeps opVamred_keeps hs
  | vzrd a e => exact longEngine_keeps opVzrd_keeps hs
  | sscan a e => exact sewing_keeps opSscan_keeps hs
  | ssumm a e => exact sewing_keeps opSsumm_keeps hs
  | sconv a e => exact sewing_keeps opSconv_keeps hs
  | carryPass n => exact execCarryPass_keeps hs
  | rset a e => exact engine_keeps opRset_keeps hs
  | rstart a e => exact engine_keeps opRstart_keeps hs
  | rgen a e => exact engine_keeps opRgen_keeps hs
  | fmfill a e => exact longEngine_keeps opFmfill_keeps hs
  | fmcopy a e => exact longEngine_keeps opFmcopy_keeps hs
  | obld a e => exact longEngine_keeps opObld_keeps hs
  | obst a e => exact longEngine_keeps opObst_keeps hs
  | vtfill a e => exact longEngine_keeps opVtfill_keeps hs
  | vtcopy a e => exact longEngine_keeps opVtcopy_keeps hs
  | vtld a e => exact longEngine_keeps opVtld_keeps hs
  | vtst a e => exact longEngine_keeps opVtst_keeps hs
  | lzput a e => exact longEngine_keeps opLzput_keeps hs
  | lzcopy a e => exact longEngine_keeps opLzcopy_keeps hs
  | xfer a e =>
    show Keeps (execXfer a e s)
    exact engine_keeps opXfer_keeps hs
  | xstream a e =>
    show Keeps (execXstream a e s)
    exact engine_keeps opXstream_keeps hs
  | xrel a e => exact engine_keeps opXrel_keeps hs
  | xmcast a e =>
    show Keeps (execXmcast a e s)
    exact engine_keeps opXmcast_keeps hs
  | xmrecv a e =>
    show Keeps (execXmrecv a e s)
    exact engine_keeps opXmrecv_keeps hs
  | lpmsg a e => exact engine_keeps opLpmsg_keeps hs
  | spred a e => exact engine_keeps opSpine_keeps hs
  | spgath a e => exact engine_keeps opSpine_keeps hs
  | spbcast a e => exact engine_keeps opSpine_keeps hs
  | spstat a e => exact engine_keeps opSpine_keeps hs
  | sparg a e => exact engine_keeps opSpine_keeps hs
  | spbar a e => exact engine_keeps opSpine_keeps hs
  | spcarry a e => exact engine_keeps opSpine_keeps hs
  | collectiveComplete g hw => exact execCollectiveComplete_keeps hs
  | inboundBurstFlit => exact execInboundBurstFlit_keeps hs
  | curdExpiry x => exact execCurdExpiry_keeps hs
  | stepHoldExpiry x => exact .guard <| .guard <| .guard <| .next hs.acceptStep
  | tokenRefill k => exact .guard <| .next hs.setTokens
  | stepDispatch x => exact execStepDispatch_keeps hs
  | interruptTaken n fclk => exact execInterruptTaken_keeps hs
  | stepRelease x => exact execStepRelease_keeps hs
  | stepRerun x => exact execStepRerun_keeps hs
  | stepRerunAfterRelease x => exact execStepRerunAfterRelease_keeps hs
  | stepCommit x => exact execStepCommit_keeps hs
  | commitRecordWrite x => exact .ite (.next hs.writeRecord) .notDue
  | checkpointCommit x bursts => exact execCheckpointCommit_keeps hs
  | start p => exact strmCommand_keeps hs
  | startWheelWritten x ok => exact execStartWheelWritten_keeps hs
  | pause p => exact strmCommand_keeps hs
  | resumeReplay p => exact strmCommand_keeps hs
  | resumeDrop p => exact strmCommand_keeps hs
  | endStream p => exact strmCommand_keeps hs
  | endErase p => exact strmCommand_keeps hs
  | exportWheel p => exact strmCommand_keeps hs
  | exportComplete x => exact .guard <| .next hs.setStr.completeCmd
  | importWheel p => exact strmCommand_keeps hs
  | importWheelWritten x ok => exact execImportWheelWritten_keeps hs
  | importIncomplete x => exact .guard <| .guard <| .next <| .ite hs.loseCurd hs.importFails
  | opReserved p op => exact strmCommand_keeps hs
  | strmDoneHi p => exact .ite (.next hs) <| .ite (.next hs.touch.popDone) <| .next hs.touch
  | strmViewSel p w => exact .next <| hs.hostWrite fun h1 => h1
  | strmViewClr p w => exact .next hs.wrViewClr
  | strmCntClr p w => exact .next hs.wrClr
  | hbmGranuleDone q id g o =>
    show Keeps (execHbmGranuleDone q id g o s)
    exact execHbmGranuleDone_keeps hs
  | refreshWindow temps failed => exact execRefreshWindow_keeps hs
  | cancelAck n k => exact execCancelAck_keeps hs
  | tagDone n k => exact execTagDone_keeps hs
  | pcRetireDone y => exact execPcRetireDone_keeps hs
  | goldenReload x => exact execGoldenReload_keeps hs
  | scrubRead b found pass => exact scrub_keeps hs
  | forcedScrubRead b found pass => exact scrub_keeps hs
  | arrStallOver n c => exact boundMissed_keeps hs
  | mvpStallOver n c => exact boundMissed_keeps hs
  | scanStallOver n c => exact boundMissed_keeps hs
  | vecStallOver n c => exact boundMissed_keeps hs
  | memGrantLate n c => exact boundMissed_keeps hs
  | vatGrantLate n c => exact boundMissed_keeps hs
  | lzCreditLate n c => exact .guard <| waitMissed_keeps hs
  | seqWaitLate n c => exact waitMissed_keeps hs
  | scanCarryLate n c => exact waitMissed_keeps hs
  | moveWaitLate n c => exact execMoveWaitLate_keeps hs
  | hbmLate q id g =>
    show Keeps (execHbmLate q id g s)
    exact execHbmLate_keeps hs
  | spnLate g => exact execSpnLate_keeps hs
  | engHang u => exact execEngHang_keeps hs
  | seqLockstep n => exact execSeqLockstep_keeps hs
  | substitutionDone n => exact execSubstitutionDone_keeps hs
  | d2dFlit bytes => exact execD2dFlit_keeps hs
  | d2dResend => exact .guard <| .next hs.d2dFailed
  | d2dRetrain => exact .guard <| .next hs.d2dTrain
  | resetReq tag => exact .ite (.next hs.portReset.mbxOrphan) <| .next hs.portReset
  | linkFlit l bytes fec => exact execLinkFlit_keeps hs
  | data =>
    show Keeps (execData s)
    exact onMsg_keeps hs fun h1 => h1.takeData
  | msg =>
    show Keeps (execMsg s)
    exact onMsg_keeps hs fun h1 => h1.takeMsg
  | mirror ok =>
    show Keeps (execMirror ok s)
    exact onMsg_keeps hs fun h1 => h1.takeMirror
  | mack =>
    show Keeps (execMack s)
    exact onMsg_keeps hs fun h1 => h1.takeMack
  | mrel =>
    show Keeps (execMrel s)
    exact onMsg_keeps hs fun h1 => h1.takeMrel
  | mirrorTimeout x => exact execMirrorTimeout_keeps hs
  | renew =>
    show Keeps (execRenew s)
    exact onMsg_keeps hs fun h1 => h1.takeRenew
  | renewalRound => exact .guard <| .guard <| .next hs.same.startRound.evalReach
  | rack =>
    show Keeps (execRack s)
    exact onMsg_keeps hs fun h1 => h1.takeRack
  | hoopLapse => exact .guard <| .next hs.fence
  | lstate =>
    show Keeps (execLstate s)
    exact onMsg_keeps hs fun h1 => h1.takeLstate
  | propose =>
    show Keeps (execPropose s)
    exact onMsg_keeps hs fun h1 => h1.takePropose
  | vote =>
    show Keeps (execVote s)
    exact onMsg_keeps hs fun h1 => h1.takeVote
  | commit =>
    show Keeps (execCommit s)
    exact onMsg_keeps hs fun h1 => h1.takeCommit
  | proposalTimeout => exact execProposalTimeout_keeps hs
  | join =>
    show Keeps (execJoin s)
    exact onMsg_keeps hs fun h1 => h1.takeJoin
  | takeover m => exact execTakeover_keeps hs
  | lanectl l => exact execLanectl_keeps hs
  | laneFail l lane => exact execLaneFail_keeps hs
  | lnkLost l => exact .guard <| .next hs.loseLink
  | linkRetrain l => exact .ite (.next hs.setLinkState) .notDue
  | linkUp l seat peer lanes => exact execLinkUp_keeps hs
  | knock l bursts => exact execKnock_keeps hs
  | knockRepetition l => exact .guard <| .next hs.setLink.same
  | formationRetry => exact .guard <| .guard <| .next hs.same.tryForm
  | clkRefLoss => exact .guard <| .next hs.same.setFld.setBit.log
  | refclkReturn => exact .guard <| .next hs.same.setBit.setBit
  | refclkLossTimeout => exact .guard <| .next hs.withdraw.fallD2
  | clkPll u => exact .guard <| .guard <| .next hs.log.limp.failWhere
  | supply r => exact execSupply_keeps hs
  | supplyExcursionTimeout r => exact .ite (.next hs.withdraw) .notDue
  | thermalSample temps => exact .guard <| .next hs.sample.coolReset
  | thermTrip =>
    show Keeps (execThermTrip s)
    exact execThermTrip_keeps hs
  | f1Entry n => exact .guard <| .guard <| .next hs.setFolioState
  | powerEntry d regulatorOk => exact execPowerEntry_keeps hs
  | entryComplete d => exact execEntryComplete_keeps hs
  | exitStep d => exact execExitStep_keeps hs
  | wakeFail d => exact execWakeFail_keeps hs
  | plannerExpiry => exact .guard <| .guard <| .guard <| .guard <| .next hs.same.wake.wakeGath
  | pmVoteHost p w => exact .next hs.wrVoteHost
  | pmVoteDbg p w => exact .next hs.wrVoteDbg
  | pmWakeCause p w => exact .next hs.wrWakeCause
  | pmRefuseLog p w => exact .next hs.wrRefuseLog
  | txnBegin p w => exact .next hs.wrTxnBegin
  | txnSel p w => exact .next hs.wrTxnSel
  | txnStage p addr w => exact .next hs.access
  | txnCommit p w => exact .next hs.wrTxnCommit
  | pressPoint k => exact execPressPoint_keeps hs
  | txnRollback p w => exact .next hs.wrTxnRollback
  | txnOrphaned k => exact .guard <| .guard <| .next hs.orphan
  | txnCntClr p w => exact .next hs.wrClr
  | ifaceLevel p w => exact .next hs.wrLevel
  | ifaceLevelDecision => exact execIfaceLevelDecision_keeps hs
  | devSeal p w => exact .next hs.wrSeal
  | door p n c => exact .next hs.wrSeqCtx
  | halt p n c => exact .next hs.wrSeqCtx
  | go p n c => exact .next hs.wrSeqCtx
  | form p => exact .next hs.wrChCmd
  | arrDbgSel p n w => exact .next hs.wrArrDbg
  | folioOvrClr p n w => exact .next hs.wrClr
  | folioPerrClr p n w => exact .next hs.wrClr
  | vatPerrClr p w => exact .next hs.wrClr
  | hbmErrClr p y w => exact .next hs.wrClr
  | moverCntClr p q w => exact .next hs.wrClr
  | seqCntClr p n w => exact .next hs.wrClr
  | spnCntClr p w => exact .next hs.wrClr
  | lnkDevClr p w => exact .next hs.wrClr
  | lnkCntClr p l w => exact .next hs.wrClr
  | chCntClr p w => exact .next hs.wrClr
  | thermClr p w => exact .next <| hs.hostWrite fun h1 => h1.thermClr
  | d2dCntClr p w => exact .next hs.wrClr
  | fltClr p w => exact .next hs.wrClr
  | fltStatFault p w => exact .next hs.wrFltStat
  | withdraw p w => exact .next hs.wrFltStat
  | fltInject p w => exact .next <| hs.hostWrite fun h1 => h1.fltInject
  | fwLoad p img => exact .next hs.wrMbxCmd
  | fwStage p img => exact .next hs.wrMbxCmd
  | fwPromote p => exact .next hs.wrMbxCmd
  | schedLoad p img => exact .next hs.wrMbxCmd
  | schedUnload p => exact .next hs.wrMbxCmd
  | keyLoad p => exact .next hs.wrMbxCmd
  | keyClear p => exact .next hs.wrMbxCmd
  | bulkExport p => exact .next hs.wrMbxCmd
  | romRead p => exact .next hs.wrMbxCmd
  | scrubAll p => exact .next hs.wrMbxCmd
  | selfTest p => exact .next hs.wrMbxCmd
  | folioRetire p => exact .next hs.wrMbxCmd
  | pcRetire p => exact .next hs.wrMbxCmd
  | mbxOp p op => exact .next hs.wrMbxCmd
  | mbxChunk p w => exact .next hs.wrMbxChunk
  | mbxTimeout => exact execMbxTimeout_keeps hs
  | mbxOperationEnd found => exact execMbxOperationEnd_keeps hs
  | fwUpdateFail g => exact execFwUpdateFail_keeps hs
  | i3cTargetReset => exact .next hs.portReset.mbxOrphan
  | i3cTransferTimeout => exact .next hs
  | testLogicReset => exact .next hs.portReset.mbxOrphan
  | window w => exact execWindow_keeps hs
  | registerWrite p addr width data => exact .next hs.access
  | porstNAssertion => exact .ite (.next hs.same) <| .next .cold
  | warmNRelease => exact .ite (.next hs.same) <| .guard <| .next hs.same.begin
  | supplyReturn r => exact .guard <| .next <| .ite hs.same hs.same
  | d2dRetrainComplete up repaired lanes => exact execD2dRetrainComplete_keeps hs
  | fwSwitchComplete g => exact .guard <| .next hs.same.loadGath.setBit.setFld.setBit
  | pwrdRises u => exact execPwrdRises_keeps hs
theorem step_keeps (hs : s.Canon) : Keeps (step s) := by
  unfold step
  split
  · exact .next hs.tick
  · exact exec_keeps hs.same _

/-- Settles O4: every function of the model that gives a state keeps the canonical form, up to the command's meaning or the idle step. -/
theorem everyStepKeepsMemoriesCanonical : Obligations.EveryStepKeepsMemoriesCanonical :=
  fun _ _ hs h => step_keeps hs h

end Sys2Proof.Machine
end

-- ==== The life of a step: O48 ====
section
/-! SUPPORT. Why the rerun clause of O48 fails. The withdrawal of a failed step ends the step's entry on a folio; the sequencer then
chooses another context (R400), and the start of that context's entry runs the checks of the step broadcast (R356). Where a second
context of the folio holds the failed step too, the entry started is one of the step being withdrawn: a bad word in the vat copy of its
wheel makes the copy invalid, and the next attempt keeps the stream so, where the clause lets the step and CNT_RERUN alone change. A
dispatch places a step in one context of a folio only, but the clause is about every state, and names no such hypothesis. -/

namespace Sys2Proof.Machine

/-- A failed attempt that may be counted once more leads to the next attempt (R28). -/
theorem execStepRerun_next {i : BitVec 12} {s : State} {y : Step} (hstep : (s.str i.toNat).step = some y) (hrel : y.released = false)
    (hfail : y.failed = true) (hfinal : y.final = none) (hlost : y.lost = false) (hbad : y.badRead = none) (hatt : y.attempt < 2) :
    execStepRerun i s = .next (s.nextAttempt i.toNat y) := by
  have hlog : s.castLogged i.toNat = s := by simp [State.castLogged, hstep, hbad]
  cases y
  dsimp only at hrel hfail hfinal hlost hbad hatt
  subst hrel hfail hfinal hlost hbad
  simp [execStepRerun, hstep, hlog, Nat.not_le.mpr hatt]

/-- A fold of updates that leave the stream table leaves it. -/
theorem strm_foldl {f : State → Nat → State} (hf : ∀ u k, (f u k).strm = u.strm) (l : List Nat) (u : State) :
    (l.foldl f u).strm = u.strm :=
  List.foldlRecOn (motive := fun v => v.strm = u.strm) l f rfl fun v hv k _ => (hf v k).trans hv
/-- Dropping a step's contributions leaves the stream table as it is. -/
theorem strm_dropPlane (s : State) (i : Nat) (y : Step) : (s.dropPlane i y).strm = s.strm := by
  simp only [State.dropPlane]
  refine (strm_foldl ?_ _ _).trans ?_
  · exact fun _ _ => rfl
  · split <;> rfl

/-- The counters of R327 are no part of the stream table. -/
theorem str_cntStrm (s : State) (k n i : Nat) : (s.cntStrm k n).str i = s.str i := by
  rw [State.cntStrm, State.bump_regs_only]
  rfl

/-- The next attempt of a dispatched step finds the stream's copy as warm as the withdrawal of the last one left it. -/
theorem warm_nextAttempt (s : State) (i : Nat) {y : Step} (hdisp : y.dispatched = true) :
    ((s.nextAttempt i y).str i).warm = ((s.abortEntries i).str i).warm := by
  calc ((s.nextAttempt i y).str i).warm
      = ((if y.dispatched then (s.abortEntries i).dropPlane i y else s).str i).warm := by
        rw [State.nextAttempt, str_cntStrm, State.str_setStr_same]
    _ = (((s.abortEntries i).dropPlane i y).str i).warm := by rw [if_pos hdisp]
    _ = ((s.abortEntries i).str i).warm := by rw [State.str, State.str, strm_dropPlane]

/-! ## A step that two contexts of a folio hold -/

/-- The failed step: its burst is a zero-run map, so that its broadcast reads the wheel alone. -/
def failedStep : Step :=
  { Step.fresh { seq := 1, bid := 1, typ := 0xB2, fmt := 0, len := 64, elems := 16, crc := 0, next := 1, got := 0, timer := 0, zone := 0,
                 grans := [], acc := true, spent := false } with
    dispatched := true, mask := 1, failed := true }
/-- Its entry. -/
def failedEntry : Entry :=
  { step := true, stream := 0, handle := 0x1000, seq := 1, cseq := 0, cursor := 0, len := 64, attempt := 0, oldSlot := 0, newSlot := 0x40000 }
/-- A schedule whose class 0 keeps its wheel in the vat buffer of handle 0, with one word of h. -/
def residentSched : Sched :=
  { ident := 1, caps := 0, wsize := 1, gaths := [⟨0, [], [⟨0, 10, 0, none, false, 0, 0, some 0, 0, 1⟩]⟩], handles := [], regions := [],
    rings := [], remoteRings := [], golden := [], second := 0, images := [], slices := [], data := [], fits := true }
/-- Stream 0 is ACTIVE and warm, its first attempt has failed; context 0 of folio 0 runs its entry, context 1 holds it in its queue; the
word of the vat that holds h, at 256, has bad parity. -/
def twiceHeld : State :=
  { State.reset with
    inReset := false
    scheds := [residentSched]
    bad := [(wordKey 0 6 256, true)]
    strm := [(0, { Strm.reset with gen := 1, st := .active, resident := true, warm := true, wsize := 1, sched := 1, step := some failedStep })]
    ctxs := [(0, { Ctx.reset with st := .running, entry := some failedEntry }), (1, { Ctx.reset with st := .ready, queue := [failedEntry] })] }

/-- What the withdrawal of the step leaves: no entry, and stream 0 no longer warm, since context 1 started the other entry as context 0
ended its own; the registers of context 1 still hold what that entry put there. -/
def cooled : State :=
  { twiceHeld with
    ctxs := []
    sreg := [(32, 0x1000), (33, 1), (38, 64)]
    areg := [(17, 0x40000)]
    strm := [(0, { twiceHeld.str 0 with warm := false, step := some { failedStep with badRead := some 256 } })] }

theorem abortFolio_twiceHeld : twiceHeld.abortFolio 0 0 = cooled := by decide +kernel
theorem abortFolio_cooled : ∀ n ∈ List.range' 1 49, cooled.abortFolio n 0 = cooled := by decide +kernel
theorem cancelMoves_cooled : cooled.cancelMoves 0 = cooled := by decide +kernel

/-- Folio 0 alone holds work of the step. -/
theorem abortEntries_twiceHeld : twiceHeld.abortEntries 0 = cooled := by
  have hrest : (List.range' 1 49).foldl (fun s n => s.abortFolio n 0) cooled = cooled :=
    List.foldlRecOn (motive := fun u => u = cooled) _ _ rfl fun u hu n hn => by rw [hu, abortFolio_cooled n hn]
  have hrange : List.range 50 = 0 :: List.range' 1 49 := by decide
  rw [State.abortEntries, hrange, List.foldl_cons, abortFolio_twiceHeld, hrest, cancelMoves_cooled]

/-- Refutes O48: `stepRerun` of a first attempt may change more of its stream than the step and CNT_RERUN, since in the state
`twiceHeld` the withdrawal of the attempt makes the warm stream cold. -/
theorem not_stepsAreAcceptedReleasedAndCommitted : ¬ Obligations.StepsAreAcceptedReleasedAndCommitted := by
  unfold Obligations.StepsAreAcceptedReleasedAndCommitted
  intro h
  obtain ⟨-, -, -, -, hrerun, -⟩ := h 0 twiceHeld
  obtain ⟨t, ht, hstr⟩ := (hrerun failedStep rfl rfl ⟨rfl, rfl, rfl⟩ rfl).1 (.inl (by decide))
  have hnext : execStepRerun 0 twiceHeld = .next (twiceHeld.nextAttempt 0 failedStep) :=
    execStepRerun_next rfl rfl rfl rfl rfl rfl (by decide)
  have heq : twiceHeld.nextAttempt 0 failedStep = t := Host.Outcome.next.inj (hnext.symm.trans ht)
  have hcool : (t.str 0).warm = false := by
    rw [← heq, warm_nextAttempt twiceHeld 0 rfl, abortEntries_twiceHeld]
    rfl
  have hwarm : (t.str 0).warm = true := congrArg Strm.warm hstr
  exact absurd (hwarm.symm.trans hcool) (by decide)

end Sys2Proof.Machine
end

-- ==== The matrix-vector path: O37 ====
section
/-! SUPPORT. MVLD and MVMUL (R71, R147 to R151, R202). In order: what the issue of a bundle leaves of what both read; the length of an
encoded row (R71); an input latch read after a load; what an output row may change and where it stores; both instructions. -/

namespace Sys2Proof.Machine

open Sys2Proof.Claims

variable (s : State) (n c : Nat)

/-! ## What the issue of a bundle leaves -/

@[simp] theorem advance_latchEl : (s.advance n c).latchEl = s.latchEl := by rw [advance_only]
@[simp] theorem advance_latchSc : (s.advance n c).latchSc = s.latchSc := by rw [advance_only]
@[simp] theorem advance_latchFmt : (s.advance n c).latchFmt = s.latchFmt := by rw [advance_only]
@[simp] theorem advance_heldFlags : (s.advance n c).heldFlags = s.heldFlags := by rw [advance_only]
@[simp] theorem latchF_advance (m q : Nat) : (s.advance n c).latchF m q = s.latchF m q := by rw [State.latchF, advance_latchFmt]; rfl
@[simp] theorem latchE_advance (m q x : Nat) : (s.advance n c).latchE m q x = s.latchE m q x := by rw [State.latchE, advance_latchEl]; rfl
@[simp] theorem latchS_advance (m q b : Nat) : (s.advance n c).latchS m q b = s.latchS m q b := by rw [State.latchS, advance_latchSc]; rfl
@[simp] theorem advance_jobs : (s.advance n c).jobs = s.jobs := by rw [advance_only]
@[simp] theorem advance_vat : (s.advance n c).vat = s.vat := by rw [advance_only]
@[simp] theorem castOf_advance (m k : Nat) : (s.advance n c).castOf m k = s.castOf m k := by rw [State.castOf, advance_only]; rfl
@[simp] theorem tokensOf_advance (k : Nat) : (s.advance n c).tokensOf k = s.tokensOf k := by rw [State.tokensOf, advance_only]; rfl
/-- The key of a folio memory address depends on the register window alone. -/
theorem fmKey_of_regs {s t : State} (h : t.regs = s.regs) (n c r : Nat) : t.fmKey n c r = s.fmKey n c r := by
  simp only [State.fmKey, State.fmPhys, State.dFmbase, State.desc, State.reg, h]
@[simp] theorem fmBytes_advance (r len : Nat) : (s.advance n c).fmBytes n c r len = s.fm.bytes (s.fmKey n c r) len := by
  rw [State.fmBytes, advance_fm, fmKey_of_regs (advance_regs s n c)]
/-- The issue of a bundle leaves the work tag of its context. -/
theorem engTag_advance (e : Eng) : (s.advance n c).engTag n c e = s.engTag n c e := by
  have htag : ((s.advance n c).ctx n c).ctag = (s.ctx n c).ctag := by rw [advance_ctx_same]
  rw [State.engTag, htag, advance_only]
  rfl
/-- The issue of a bundle leaves the class whose token its MVMUL takes. -/
theorem tokenClass_advance : (s.advance n c).tokenClass n c = s.tokenClass n c := by
  have howner : ((s.advance n c).ctx n c).owner = (s.ctx n c).owner := by
    rw [advance_ctx_same]
    rfl
  rw [State.tokenClass, howner, advance_only]
  rfl

/-! ## Reads after writes of a range -/

theorem Sp.get_setMany {α : Type} [DecidableEq α] (d : Nat → α) (m : Sp α) (k : Nat) (vs : List α) (j : Nat) :
    Sp.get d (Sp.setMany d m k vs) j = if k ≤ j ∧ j < k + vs.length then vs.getD (j - k) (d j) else Sp.get d m j := by
  split
  next h =>
    obtain ⟨i, rfl⟩ := Nat.exists_eq_add_of_le h.1
    have hi : i < vs.length := by omega
    rw [Sp.get_setMany_in d m k vs hi, Nat.add_sub_cancel_left, List.getD_eq_getElem vs _ hi]
  next h => exact Sp.get_setMany_out d k vs (by omega)

theorem Sp.get_erase {α : Type} (d : Nat → α) (m : Sp α) (lo n j : Nat) :
    Sp.get d (Sp.erase m lo n) j = if lo ≤ j ∧ j < lo + n then d j else Sp.get d m j := by
  split
  next h => exact Sp.get_erase_in d m lo n h
  next h => exact Sp.get_erase_out d m lo n (by omega)

/-! ## The length of an encoded row (R71) -/

/-- The block encoder gives one code for each element. -/
theorem mxEncode_length (f : Fmt) (cv : Cvt) {ts : List FV} {rs : List Nat} (h : rs.length = ts.length) :
    (mxEncode f cv ts rs).2.1.length = ts.length := by
  unfold mxEncode
  split
  · simp
  · simp [h]

/-- A row is encoded into its elements, for an MX format into whole blocks with one scale byte each. -/
theorem encodeRow_length (f : Fmt) (cv : Cvt) {fuel : Nat} {ts : List FV} {rs : List Nat} (hfuel : ts.length < fuel)
    (hrs : rs.length = ts.length) :
    (encodeRow f cv rs fuel ts).1.length = outCount f ts.length ∧
      (encodeRow f cv rs fuel ts).2.1.length = if f.isMx then (ts.length + 31) / 32 else 0 := by
  induction fuel generalizing ts rs with
  | zero => omega
  | succ fuel ih =>
    unfold encodeRow outCount
    by_cases hmx : f.isMx = true
    · simp only [hmx, if_true]
      cases ts with
      | nil => exact ⟨rfl, rfl⟩
      | cons v vs =>
        obtain ⟨hes, hscs⟩ := ih (ts := (v :: vs).drop 32) (rs := rs.drop 32) (by simp at hfuel ⊢; omega) (by simp [hrs])
        have hblock := mxEncode_length f cv (ts := (v :: vs).take 32 ++ List.replicate (32 - ((v :: vs).take 32).length) FV.pzero)
          (rs := rs.take ((v :: vs).take 32).length ++ List.replicate (32 - ((v :: vs).take 32).length) 0) (by simp [hrs]; omega)
        simp only [outCount, hmx, if_true] at hes hscs
        dsimp only
        simp only [List.length_append, List.length_cons, hes, hscs, hblock]
        simp
        omega
    · simp [hmx, hrs]

/-! ## An input latch after a load (R148 to R150) -/

/-- A latch cleared: no element, every scale byte at its default. -/
def State.clearLatch (s : State) (n l : Nat) : State :=
  { s with latchEl := Sp.erase s.latchEl ((2 * n + l) * 8192) 8192, latchSc := Sp.erase s.latchSc ((2 * n + l) * 256) 256 }
/-- What an MVLD makes of its latch: cleared with CLR, the codes from part `lo`, the scale bytes of an MX format, and the format. -/
def State.loadLatch (s : State) (n l : Nat) (clr mx : Bool) (fmt : Nat × Bool) (lo blk : Nat) (es scs : List Nat) : State :=
  let s0 := if clr then s.clearLatch n l else s
  let s1 := s0.setLatchE n l lo es
  let s2 := if mx then s1.setLatchS n l blk scs else s1
  { s2 with latchFmt := Sp.set (fun _ => none) s2.latchFmt (2 * n + l) (some fmt) }

section
variable {m q n l x : Nat} (hx : x < 8192)
include hx

theorem State.latchE_clearLatch : (s.clearLatch n l).latchE m q x = if 2 * m + q = 2 * n + l then 0 else s.latchE m q x := by
  simp only [State.latchE, State.clearLatch, Sp.get_erase, apply_ite BitVec.toNat]
  exact if_congr (by omega) rfl rfl
theorem State.latchE_setLatchE {lo : Nat} {vs : List Nat} (hlen : lo + vs.length ≤ 8192) :
    (s.setLatchE n l lo vs).latchE m q x =
      if 2 * m + q = 2 * n + l ∧ lo ≤ x ∧ x < lo + vs.length then vs.getD (x - lo) 0 % 2 ^ 64 else s.latchE m q x := by
  simp only [State.latchE, State.setLatchE, Sp.get_setMany, List.length_map, apply_ite BitVec.toNat]
  by_cases h : 2 * m + q = 2 * n + l
  · have hd : (2 * m + q) * 8192 + x - ((2 * n + l) * 8192 + lo) = x - lo := by omega
    have hdef : (0 : BitVec 64) = BitVec.ofNat 64 0 := rfl
    rw [hd, hdef, List.getD_map, BitVec.toNat_ofNat]
    exact if_congr (by omega) rfl rfl
  · rw [if_neg (by omega), if_neg (by omega)]
end

section
variable {m q n l b : Nat} (hb : b < 256)
include hb

theorem State.latchS_clearLatch : (s.clearLatch n l).latchS m q b = if 2 * m + q = 2 * n + l then 0x7F else s.latchS m q b := by
  simp only [State.latchS, State.clearLatch, Sp.get_erase, apply_ite BitVec.toNat]
  exact if_congr (by omega) rfl rfl
theorem State.latchS_setLatchS {blk : Nat} {vs : List Nat} (hlen : blk + vs.length ≤ 256) :
    (s.setLatchS n l blk vs).latchS m q b =
      if 2 * m + q = 2 * n + l ∧ blk ≤ b ∧ b < blk + vs.length then vs.getD (b - blk) 0 % 256 else s.latchS m q b := by
  simp only [State.latchS, State.setLatchS, Sp.get_setMany, List.length_map, apply_ite BitVec.toNat]
  by_cases h : 2 * m + q = 2 * n + l
  · have hd : (2 * m + q) * 256 + b - ((2 * n + l) * 256 + blk) = b - blk := by omega
    by_cases hin : blk ≤ b ∧ b < blk + vs.length
    · have hi : b - blk < vs.length := by omega
      rw [if_pos (by omega), if_pos ⟨h, hin⟩, hd]
      simp [List.getD_eq_getElem?_getD, hi]
    · rw [if_neg (by omega), if_neg (fun h' => hin h'.2)]
  · rw [if_neg (by omega), if_neg (by omega)]
end

section
variable {m q n l : Nat} {clr mx : Bool} {fmt : Nat × Bool} {lo blk : Nat} {es scs : List Nat}

theorem State.latchF_loadLatch_same : (s.loadLatch n l clr mx fmt lo blk es scs).latchF n l = some fmt := by
  simp only [State.latchF, State.loadLatch, Sp.get_set_same]
/-- A load leaves the format of every other latch. -/
theorem State.latchF_loadLatch_ne (h : 2 * m + q ≠ 2 * n + l) :
    (s.loadLatch n l clr mx fmt lo blk es scs).latchF m q = s.latchF m q := by
  simp only [State.latchF, State.loadLatch, Sp.get_set_ne _ _ _ h]
  cases clr <;> cases mx <;> rfl
/-- An element of a latch after a load. -/
theorem State.latchE_loadLatch {x : Nat} (hx : x < 8192) (hlen : lo + es.length ≤ 8192) :
    (s.loadLatch n l clr mx fmt lo blk es scs).latchE m q x =
      if 2 * m + q = 2 * n + l then
        if lo ≤ x ∧ x < lo + es.length then es.getD (x - lo) 0 % 2 ^ 64 else if clr then 0 else s.latchE m q x
      else s.latchE m q x := by
  have hel : (s.loadLatch n l clr mx fmt lo blk es scs).latchE m q x =
      ((if clr then s.clearLatch n l else s).setLatchE n l lo es).latchE m q x := by
    cases mx <;> rfl
  have hclear : (if clr then s.clearLatch n l else s).latchE m q x =
      if 2 * m + q = 2 * n + l then if clr then 0 else s.latchE m q x else s.latchE m q x := by
    cases clr <;> simp [State.latchE_clearLatch _ hx]
  rw [hel, State.latchE_setLatchE _ hx hlen, hclear]
  by_cases h : 2 * m + q = 2 * n + l <;> simp [h]
/-- A scale byte of a latch after a load. -/
theorem State.latchS_loadLatch {b : Nat} (hb : b < 256) (hlen : mx = true → blk + scs.length ≤ 256) :
    (s.loadLatch n l clr mx fmt lo blk es scs).latchS m q b =
      if 2 * m + q = 2 * n + l then
        if mx = true ∧ blk ≤ b ∧ b < blk + scs.length then scs.getD (b - blk) 0 % 256 else if clr then 0x7F else s.latchS m q b
      else s.latchS m q b := by
  have hclear : (if clr then s.clearLatch n l else s).latchS m q b =
      if 2 * m + q = 2 * n + l then if clr then 0x7F else s.latchS m q b else s.latchS m q b := by
    cases clr <;> simp [State.latchS_clearLatch _ hb]
  cases mx with
  | false =>
    have hsc : (s.loadLatch n l clr false fmt lo blk es scs).latchS m q b = (if clr then s.clearLatch n l else s).latchS m q b := rfl
    simpa [hsc] using hclear
  | true =>
    have hsc : (s.loadLatch n l clr true fmt lo blk es scs).latchS m q b =
        ((if clr then s.clearLatch n l else s).setLatchS n l blk scs).latchS m q b := rfl
    rw [hsc, State.latchS_setLatchS _ hb (hlen rfl), hclear]
    by_cases h : 2 * m + q = 2 * n + l <;> simp [h]
/-- A load changes the latches alone. -/
theorem State.loadLatch_only (s : State) {t : State} (ht : s.loadLatch n l clr mx fmt lo blk es scs = t) :
    t = { s with latchEl := t.latchEl, latchSc := t.latchSc, latchFmt := t.latchFmt } := by
  subst ht
  unfold State.loadLatch State.clearLatch State.setLatchE State.setLatchS
  cases clr <;> cases mx <;> rfl
theorem State.heldFlags_loadLatch : (s.loadLatch n l clr mx fmt lo blk es scs).heldFlags = s.heldFlags := by
  rw [State.loadLatch_only s rfl]
theorem State.engTag_loadLatch (k c : Nat) (e : Eng) : (s.loadLatch n l clr mx fmt lo blk es scs).engTag k c e = s.engTag k c e := by
  rw [State.loadLatch_only s rfl]
  rfl
end

/-! ## Flags held against a work tag (R75) -/

theorem Fl.join_singleton (f : Fl) : Fl.join [f] = f := by
  simp [Fl.join, Fl.or, Fl.none]
theorem holdFl_only (n tag field : Nat) (f : Fl) : s.holdFl n tag field f = { s with heldFlags := (s.holdFl n tag field f).heldFlags } := by
  unfold State.holdFl State.hold
  split <;> rfl
@[simp] theorem latchF_holdEng (e : Eng) (field : Nat) (f : Fl) (m q : Nat) : (s.holdEng n c e field f).latchF m q = s.latchF m q := by
  rw [State.holdEng, holdFl_only]
  rfl
@[simp] theorem latchE_holdEng (e : Eng) (field : Nat) (f : Fl) (m q x : Nat) : (s.holdEng n c e field f).latchE m q x = s.latchE m q x := by
  rw [State.holdEng, holdFl_only]
  rfl
@[simp] theorem latchS_holdEng (e : Eng) (field : Nat) (f : Fl) (m q b : Nat) : (s.holdEng n c e field f).latchS m q b = s.latchS m q b := by
  rw [State.holdEng, holdFl_only]
  rfl
theorem get_holdFl (n tag field : Nat) (f : Fl) (k : Nat) :
    Sp.get (fun _ => 0) (s.holdFl n tag field f).heldFlags k =
      if k = 8192 * n + tag then Sp.get (fun _ => 0) s.heldFlags k ||| f.nat * 2 ^ (4 * field) else Sp.get (fun _ => 0) s.heldFlags k := by
  unfold State.holdFl
  split
  next h => simp [h]
  next =>
    simp only [State.hold]
    split
    next hk => rw [hk, Sp.get_set_same]
    next hk => rw [Sp.get_set_ne _ _ _ hk]
/-- An engine that holds the flags of its one result has held just those. -/
theorem holdsFlags_holdEng {a : Issue} {e : Eng} {s u : State} (field : Nat) (f : Fl) (hfl : u.heldFlags = s.heldFlags)
    (htag : u.engTag a.folio.val a.ctx.val e = s.engTag a.folio.val a.ctx.val e) :
    HoldsFlags a e s field [f] (u.holdEng a.folio.val a.ctx.val e field f) := by
  simp only [HoldsFlags, Fl.join_singleton, State.holdEng, get_holdFl, htag, hfl, if_true, true_and]
  exact fun k hk => if_neg hk

/-! ## MVLD (R71, R148, R149) -/

/-- The values that an MVLD converts: from folio memory, or from the spine's broadcast data. -/
def mvldValues (n c : Nat) (e : Eng) (s : State) : List FV :=
  let src := fmtOf s.level (e.op 25 22)
  let k := e.op 44 31 * engParts e
  if e.opb 30 then (unpackBytes src.bits k (s.fm.bytes (s.fmKey n c (addrOf (s.ar n c (e.op 29 26)))) (rowBytes src k))).map (src.read false)
  else (unpackBytes src.bits k ((s.castOf n c).drop (rowBytes src (e.op 58 45 * engParts e)))).map (src.read false)
/-- What they are encoded into. -/
def mvldCodes (n c : Nat) (e : Eng) (s : State) : List Nat × List Nat × Fl × List FV :=
  let k := e.op 44 31 * engParts e
  encodeRow (fmtOf s.level e.fmt) { rnd := Rnd.ofCode e.rnd }
    ((List.range k).map (fun j => if e.stoch then s.srBits n c (s.ibBase n c (e.op 21 18) + e.op 58 45 * engParts e + j) else 0)) (k + 1)
    ((mvldValues n c e s).map (fun v => (roundw v).1))
/-- The state that an MVLD leaves, before its release. -/
def mvldDone (n c : Nat) (e : Eng) (s : State) : State :=
  let f := fmtOf s.level e.fmt
  let x := mvldCodes n c e s
  ((s.advance n c).loadLatch n (e.op 60 60) (e.opb 59) f.isMx (e.fmt, e.cplx) (e.op 58 45 * engParts e) (e.op 58 45 / 32)
    (x.1.map f.expand) x.2.1).holdEng n c e fieldMVP x.2.2.1

theorem opMvld_run (e : Eng) : (opMvld n c e s).run (s.advance n c) = (mvldDone n c e s).relEng n c e := by
  simp only [opMvld, engSlot, State.spineParts, fmBytes_advance, castOf_advance]
  rfl

theorem mvldValues_length (e : Eng) : (mvldValues n c e s).length = e.op 44 31 * engParts e := by
  unfold mvldValues
  split <;> simp [unpackBytes]
/-- An MVLD writes its parts, for an MX format whole blocks with their scale bytes. -/
theorem mvldCodes_length (e : Eng) :
    (mvldCodes n c e s).1.length = outCount (fmtOf s.level e.fmt) (e.op 44 31 * engParts e) ∧
      (mvldCodes n c e s).2.1.length = if (fmtOf s.level e.fmt).isMx then (e.op 44 31 * engParts e + 31) / 32 else 0 := by
  have hlen := mvldValues_length s n c e
  unfold mvldCodes
  simpa only [List.length_map, hlen] using encodeRow_length (fmtOf s.level e.fmt) { rnd := Rnd.ofCode e.rnd }
    (ts := (mvldValues n c e s).map (fun v => (roundw v).1)) (by simp [hlen]) (by simp [hlen])

theorem isMx_of_isIeee {f : Fmt} (h : f.isIeee = true) : f.isMx = false := by
  cases f <;> simp [Fmt.isIeee, Fmt.isMx] at h ⊢
/-- An MX format has no complex form (R56). -/
theorem cplx_of_isMx {s : State} {e : Eng} (htrap : (cplxTrap s e).1 = false) (hmx : (fmtOf s.level e.fmt).isMx = true) : e.cplx = false := by
  refine Bool.eq_false_iff.mpr fun hc => ?_
  cases hf : Fmt.ofCode s.level e.fmt with
  | none => simp [fmtOf, hf, Fmt.isMx] at hmx
  | some f =>
    have hieee : f.isIeee = true := by simpa [cplxTrap, hf, hc] using htrap
    simp [fmtOf, hf, isMx_of_isIeee hieee] at hmx
/-- The parts of the longest load fill a latch at most (R148). -/
theorem latchCap_mul_le (f : Fmt) (e : Eng) : latchCap f e.cplx * engParts e ≤ 8192 := by
  have hcap : (if f.bits ≤ 8 then 8192 else if f.bits = 16 then 4096 else if f.bits = 32 then 2048 else 1024) ≤ 8192 := by
    split_ifs <;> omega
  exact (Nat.div_mul_le_self _ _).trans hcap
/-- What the checks of an MVLD that issues say of its range (R149). -/
theorem opMvld_clear_range {s : State} {n c : Nat} {e : Eng} (h : (opMvld n c e s).clear) :
    (cplxTrap s e).1 = false ∧ e.op 58 45 % 32 = 0 ∧ e.op 58 45 + e.op 44 31 ≤ latchCap (fmtOf s.level e.fmt) e.cplx := by
  obtain ⟨htraps, -⟩ := h
  simp only [opMvld, engSlot, lowestTrap_append_none] at htraps
  obtain ⟨-, hown, -⟩ := htraps
  simp only [lowestTrap_none, List.forall_mem_cons] at hown
  obtain ⟨-, -, -, -, -, hcplx, -, -, hload, -⟩ := hown
  simp only [Bool.or_eq_false_iff, bne_eq_false_iff_eq, decide_eq_false_iff_not, not_lt] at hload
  obtain ⟨⟨⟨-, hfirst⟩, hcap⟩, -⟩ := hload
  exact ⟨hcplx, hfirst, hcap⟩

/-- The parts of an MVLD that issues lie in its latch, with the padding of the last block of an MX format. -/
theorem mvld_fits {s : State} {n c : Nat} {e : Eng} (h : (opMvld n c e s).clear) :
    e.op 58 45 * engParts e + outCount (fmtOf s.level e.fmt) (e.op 44 31 * engParts e) ≤ 8192 := by
  obtain ⟨hcplx, hfirst, hcap⟩ := opMvld_clear_range h
  have hparts : (e.op 58 45 + e.op 44 31) * engParts e ≤ 8192 :=
    (Nat.mul_le_mul_right _ hcap).trans (latchCap_mul_le _ e)
  rw [Nat.add_mul] at hparts
  unfold outCount
  split
  next hmx =>
    have hP : engParts e = 1 := by simp [engParts, cplx_of_isMx hcplx hmx]
    rw [hP] at hparts ⊢
    omega
  next => exact hparts
/-- Its scale bytes lie in its latch. -/
theorem mvld_scales_fit {s : State} {n c : Nat} {e : Eng} (h : (opMvld n c e s).clear) (hmx : (fmtOf s.level e.fmt).isMx = true) :
    e.op 58 45 / 32 + (mvldCodes n c e s).2.1.length ≤ 256 := by
  obtain ⟨hcplx, hfirst, -⟩ := opMvld_clear_range h
  have hP : engParts e = 1 := by simp [engParts, cplx_of_isMx hcplx hmx]
  have hfits := mvld_fits h
  rw [(mvldCodes_length s n c e).2, if_pos hmx]
  rw [outCount, if_pos hmx, hP] at hfits
  rw [hP]
  omega

/-- An MVLD changes the latches and the flags held, and nothing else. -/
theorem mvldDone_only (e : Eng) {t : State} (ht : mvldDone n c e s = t) :
    t = { s.advance n c with latchEl := t.latchEl, latchSc := t.latchSc, latchFmt := t.latchFmt, heldFlags := t.heldFlags } := by
  subst ht
  unfold mvldDone State.holdEng
  rw [holdFl_only]
  generalize hload : (s.advance n c).loadLatch _ _ _ _ _ _ _ _ _ = u
  rw [State.loadLatch_only _ hload]

/-- An MVLD that issues runs. -/
theorem mvld_runs {a : Issue} {e : Eng} {s : State} (h : EngineIssues opMvld a e s) : exec (.mvld a e) s =
    .next ((scalarSlot true a.folio.val a.ctx.val e.sc s).run ((mvldDone a.folio.val a.ctx.val e s).relEng a.folio.val a.ctx.val e)) := by
  obtain ⟨hready, hclear, hscalar⟩ := h
  rw [← opMvld_run]
  exact engine_runs _ hready hclear hscalar

/-- The latch elements after an MVLD: its codes expanded (R54), those of its latch that it does not write kept or cleared, the other
latches as they were. -/
theorem latchE_mvldDone {e : Eng} {s : State} {n c m q x : Nat} (h : (opMvld n c e s).clear) (hx : x < 8192) :
    (mvldDone n c e s).latchE m q x =
      let lo := e.op 58 45 * engParts e
      let f := fmtOf s.level e.fmt
      if 2 * m + q = 2 * n + e.op 60 60 then
        if lo ≤ x ∧ x < lo + outCount f (e.op 44 31 * engParts e) then f.expand ((mvldCodes n c e s).1.getD (x - lo) 0) % 2 ^ 64
        else if e.opb 59 then 0 else s.latchE m q x
      else s.latchE m q x := by
  have hlen := (mvldCodes_length s n c e).1
  rw [mvldDone, latchE_holdEng, State.latchE_loadLatch _ hx (by rw [List.length_map, hlen]; exact mvld_fits h), List.length_map, hlen,
    latchE_advance]
  dsimp only
  split
  next =>
    split
    next hin =>
      have hi : x - e.op 58 45 * engParts e < (mvldCodes n c e s).1.length := by omega
      simp only [List.getD_eq_getElem?_getD, List.getElem?_map, List.getElem?_eq_getElem hi, Option.map_some, Option.getD_some]
    next => rfl
  next => rfl
/-- Its scale bytes. -/
theorem latchS_mvldDone {e : Eng} {s : State} {n c m q b : Nat} (h : (opMvld n c e s).clear) (hb : b < 256) :
    (mvldDone n c e s).latchS m q b =
      let f := fmtOf s.level e.fmt
      let blk := e.op 58 45 / 32
      if 2 * m + q = 2 * n + e.op 60 60 then
        if f.isMx ∧ blk ≤ b ∧ b < blk + outCount f (e.op 44 31 * engParts e) / 32 then (mvldCodes n c e s).2.1.getD (b - blk) 0 % 256
        else if e.opb 59 then 0x7F else s.latchS m q b
      else s.latchS m q b := by
  have hlen := (mvldCodes_length s n c e).2
  rw [mvldDone, latchS_holdEng, State.latchS_loadLatch _ hb (mvld_scales_fit h), latchS_advance, hlen]
  unfold outCount
  by_cases hmx : (fmtOf s.level e.fmt).isMx = true
  · simp only [hmx, if_true, Nat.mul_div_cancel _ (show 0 < 32 by decide)]
  · simp only [hmx, Bool.false_eq_true, false_and]

theorem latchF_mvldDone_same (e : Eng) : (mvldDone n c e s).latchF n (e.op 60 60) = some (e.fmt, e.cplx) := by
  rw [mvldDone, latchF_holdEng, State.latchF_loadLatch_same]
theorem latchF_mvldDone_ne (e : Eng) {m q : Nat} (h : 2 * m + q ≠ 2 * n + e.op 60 60) :
    (mvldDone n c e s).latchF m q = s.latchF m q := by
  rw [mvldDone, latchF_holdEng, State.latchF_loadLatch_ne _ h, latchF_advance]
theorem holdsFlags_mvldDone (a : Issue) (e : Eng) (s : State) :
    HoldsFlags a e s fieldMVP [(mvldCodes a.folio.val a.ctx.val e s).2.2.1] (mvldDone a.folio.val a.ctx.val e s) := by
  unfold mvldDone
  refine holdsFlags_holdEng fieldMVP _ ?_ ?_
  · rw [State.heldFlags_loadLatch, advance_heldFlags]
  · rw [State.engTag_loadLatch, engTag_advance]
/-- The latch that an MVLD names is one of the two of its folio. -/
theorem op_60_60_lt (e : Eng) : e.op 60 60 < 2 := by
  have h : e.op 60 60 = e.ops.toNat / 2 ^ 60 % 2 ^ 1 := rfl
  omega

/-! ## What an output row may change, and where it stores (R48, R71, R225) -/

/-- From state t to u only what an output row's conversion reaches differs. -/
def State.RowOnly (t u : State) : Prop :=
  u = { t with heldFlags := u.heldFlags, fm := u.fm, ob := u.ob, gsb := u.gsb, bad := u.bad, gateQ := u.gateQ,
               gatePend := u.gatePend, slots := u.slots }
/-- An output row's conversion leads from t to u, and of the folio memories only bytes in the ranges `l` differ. -/
structure State.RowEffect (l : List (Nat × Nat)) (t u : State) : Prop where
  frame : t.RowOnly u
  stores : StoresOnly l t u

namespace State.RowEffect

variable {l : List (Nat × Nat)} {s t u : State} {n c : Nat}

theorem refl (l : List (Nat × Nat)) (t : State) : t.RowEffect l t := ⟨rfl, fun _ _ => rfl⟩
theorem trans (h : s.RowEffect l t) (h' : t.RowEffect l u) : s.RowEffect l u where
  frame := Eq.trans h'.frame (by rw [h.frame])
  stores x hx := (h'.stores x hx).trans (h.stores x hx)
theorem ite {p : Prop} [Decidable p] (ht : s.RowEffect l t) (hu : s.RowEffect l u) : s.RowEffect l (if p then t else u) := by
  split
  · exact ht
  · exact hu
theorem foldl {α : Type} {f : State → α → State} (xs : List α) (hf : ∀ (t : State) x, t.RowEffect l (f t x)) (t : State) :
    t.RowEffect l (xs.foldl f t) :=
  List.foldlRecOn (motive := fun u => t.RowEffect l u) xs f (refl l t) fun u hu x _ => hu.trans (hf u x)

theorem regs (h : t.RowEffect l u) : u.regs = t.regs := by rw [h.frame]
theorem jobs (h : t.RowEffect l u) : u.jobs = t.jobs := by rw [h.frame]
theorem vat (h : t.RowEffect l u) : u.vat = t.vat := by rw [h.frame]
theorem latchEl (h : t.RowEffect l u) : u.latchEl = t.latchEl := by rw [h.frame]

theorem holdFl (tag field : Nat) (f : Fl) : t.RowEffect l (t.holdFl n tag field f) where
  frame := by
    rw [holdFl_only]
    rfl
  stores x _ := by rw [holdFl_only]
theorem putGsb (k : Nat) (bs : List Byte) : t.RowEffect l (t.put 4 k bs) := ⟨rfl, fun _ _ => rfl⟩
theorem setSlot (x : Option Slot) : t.RowEffect l (t.setSlot n x) := ⟨rfl, fun _ _ => rfl⟩
theorem setGates (gs : List Gupd) : t.RowEffect l (t.setGates n gs) := ⟨rfl, fun _ _ => rfl⟩
theorem putOb (k : Nat) (bs : List Byte) : t.RowEffect l (t.put 1 k bs) := ⟨rfl, fun _ _ => rfl⟩
theorem obWrite (arr a : Nat) (bs : List Byte) : t.RowEffect l (t.obWrite n arr a bs) := (putOb _ _).trans (putOb _ _)
theorem fmWrite {a len : Nat} {bs : List Byte} (hmem : (t.fmKey n c a, len) ∈ l) (hlen : bs.length ≤ len) :
    t.RowEffect l (t.fmWrite n c a bs) where
  frame := rfl
  stores x hx := Memory.byte_write_out t.fm _ bs (by have := hx _ hmem; omega)

theorem runGupd (g : Gupd) : t.RowEffect l (t.runGupd n g) := by
  unfold State.runGupd
  extract_lets ws P fn outs s1 xs
  have hwords : t.RowEffect l s1 := foldl _ (fun t o => foldl _ (fun t p => by
    split
    · exact putGsb _ _
    · exact refl l t) t) t
  split
  exact (hwords.trans (setSlot _)).trans (holdFl _ _ _)
theorem gateRun : t.RowEffect l (t.gateRun n) := by
  unfold State.gateRun
  split
  · exact ite ((setGates _).trans (runGupd _)) (refl l t)
  · exact refl l t
theorem feedPend : t.RowEffect l (t.feedPend n) := ⟨rfl, fun _ _ => rfl⟩
/-- Pre-activations that reach the gate pipeline store nothing in the folio memories. -/
theorem feedGate (tag : Nat) (vs : List Nat) : t.RowEffect l (t.feedGate n tag vs) := by
  refine trans (t := _) ⟨?_, ?_⟩ (feedPend.trans gateRun)
  · rfl
  · exact fun _ _ => rfl

end State.RowEffect

theorem rowBytes_mono (f : Fmt) {k m : Nat} (h : k ≤ m) : rowBytes f k ≤ rowBytes f m :=
  Nat.div_le_div_right (Nat.add_le_add_right (Nat.mul_le_mul_left _ h) _)
theorem outCount_mono (f : Fmt) {k m : Nat} (h : k ≤ m) : outCount f k ≤ outCount f m := by
  unfold outCount
  split <;> omega
theorem packBytes_length (f : Fmt) (es : List Nat) : (packBytes f.bits es).length = rowBytes f es.length := toBytes_length _ _
theorem rowRecord_length (mode : Nat) (sat strict : Bool) (vs : List FV) : (rowRecord mode sat strict vs).1.length = 8 := by
  simp [rowRecord, toBytes_length]
/-- The parts of a row's elements are at most `P` for each. -/
theorem flatMap_zip_range_length_le {α β : Type} (P : Nat) (els : List (Nat × List α)) (g : Nat × Nat × List α → Nat × α → β) :
    (((List.range els.length).zip els).flatMap (fun p => ((List.range P).zip p.2.2).map (g p))).length ≤ els.length * P := by
  have hparts : ∀ p : Nat × Nat × List α, (((List.range P).zip p.2.2).map (g p)).length ≤ P := by simp
  have hsum := List.sum_le_card_nsmul
    (((List.range els.length).zip els).map (fun p => (((List.range P).zip p.2.2).map (g p)).length)) P
    (List.forall_mem_map.mpr fun p _ => hparts p)
  rw [List.length_flatMap]
  simpa only [List.length_map, List.length_zip, List.length_range, Nat.min_self, smul_eq_mul] using hsum

/-- A write to the destination of a row, the operand buffer or folio memory, over the registers of s. -/
theorem State.RowEffect.rowWrite {l : List (Nat × Nat)} {s t u : State} {n c unit addr len : Nat} {p : Prop} [Decidable p] {bs : List Byte}
    (hu : t.RowEffect l u) (hregs : t.regs = s.regs) (hmem : ¬p → (s.fmKey n c addr, len) ∈ l) (hlen : bs.length ≤ len) :
    t.RowEffect l (if p then u.obWrite n unit addr bs else u.fmWrite n c addr bs) := by
  split
  next => exact hu.trans (.obWrite _ _ _)
  next hp =>
    refine hu.trans (.fmWrite ?_ hlen)
    rw [fmKey_of_regs (hu.regs.trans hregs)]
    exact hmem hp

section
variable {s t : State} {n c : Nat} {e : Eng} {d : DotFields} {r : OutRow}

/-- An output row stores in any ranges among which are those of its elements, of the scale bytes of an MX format, and of its statistics. -/
theorem outRow_effect_of {l : List (Nat × Nat)} {unit tag cols : Nat} (hregs : t.regs = s.regs)
    (helems : d.dkind ≠ dkGATE → ¬d.dkind = dkOB →
      (s.fmKey n c (addrOf (s.ar n c d.dst) + r.row * strideOf (s.ar n c d.dst) + rowBytes (s.dotFmt d) (r.col * engParts e)),
        rowBytes (s.dotFmt d) (outCount (s.dotFmt d) (r.els.length * engParts e))) ∈ l)
    (hscales : d.dkind ≠ dkGATE → (s.dotFmt d).isMx = true → ¬d.dkind = dkOB →
      (s.fmKey n c (addrOf (s.ar n c (d.dst + 1)) + r.row * strideOf (s.ar n c (d.dst + 1)) + r.col * engParts e / 32),
        (r.els.length * engParts e + 31) / 32) ∈ l)
    (hstats : e.rowstat ≠ 0 → (s.fmKey n c (addrOf (s.ar n c (d.dst + 1)) + 8 * r.stat), 8) ∈ l) :
    t.RowEffect l (s.outRow n c e d unit tag cols t r) := by
  unfold State.outRow
  extract_lets o P xs a biasAt ys rs field put a' b
  have hys : ys.length ≤ r.els.length * P := by
    simpa only [ys, List.length_map] using flatMap_zip_range_length_le P r.els _
  split
  next es scs fe vs henc =>
  obtain ⟨hes, hscs⟩ : es.length = outCount o.out ys.length ∧ scs.length = if o.out.isMx then (ys.length + 31) / 32 else 0 := by
    have h := encodeRow_length o.out o.c (ts := ys.map Prod.fst) (rs := rs) (fuel := ys.length + 1) (by simp) (by simp [ys, rs])
    rwa [henc, List.length_map] at h
  extract_lets t1 t2 t2'
  have ht1 : t.RowEffect l t1 := .holdFl _ _ _
  have ht2' : t.RowEffect l t2' := by
    dsimp only [t2']
    split
    next => exact ht1.trans (.feedGate _ _)
    next hgate =>
      have ht2 : t.RowEffect l t2 := by
        refine ht1.rowWrite hregs (helems hgate) ?_
        rw [packBytes_length, hes]
        exact rowBytes_mono _ (outCount_mono _ hys)
      split
      next hmx =>
        refine ht2.rowWrite hregs (hscales hgate hmx) ?_
        rw [List.length_map, hscs, if_pos hmx]
        exact Nat.div_le_div_right (Nat.add_le_add_right hys 31)
      next => exact ht2
  split
  next => exact ht2'
  next hstat =>
    split
    next rec fr hrec =>
    have hlen : rec.length = 8 := by rw [← rowRecord_length e.rowstat e.sat e.strict vs, hrec]
    refine (ht2'.trans (.fmWrite ?_ hlen.le)).trans (.holdFl _ _ _)
    rw [fmKey_of_regs (ht2'.regs.trans hregs)]
    exact hstats hstat

/-- An output row changes what `State.RowOnly` names, and stores in the ranges of `rowStores` alone. -/
theorem outRow_effect {unit tag cols : Nat} (hregs : t.regs = s.regs) (hkind : d.dkind = dkFM ∨ d.dkind = dkOB ∨ d.dkind = dkGATE) :
    t.RowEffect (rowStores n c e d s r.row r.col r.els.length r.stat) (s.outRow n c e d unit tag cols t r) := by
  have hfm (hgate : d.dkind ≠ dkGATE) (hob : ¬d.dkind = dkOB) : d.dkind = dkFM := by tauto
  refine outRow_effect_of hregs (fun hgate hob => ?_) (fun hgate hmx hob => ?_) (fun hstat => ?_)
  · simp [rowStores, hfm hgate hob]
  · simp [rowStores, hfm hgate hob, hmx]
  · simp [rowStores, hstat]
end

/-! ## MVMUL (R147, R151, R202) -/

/-- State t is s but for the movers and the fetch streams. -/
def MovesOnly (s t : State) : Prop := t = { s with movers := t.movers, moveId := t.moveId, fetch := t.fetch }

theorem MovesOnly.trans {s t u : State} (h : MovesOnly s t) (h' : MovesOnly t u) : MovesOnly s u := Eq.trans h' (by rw [h])
theorem movesOnly_setFetch (k : Nat) (f : Option Fetch) : MovesOnly s (s.setFetch n c k f) := rfl
theorem movesOnly_issueTile (k : Nat) : MovesOnly s (s.issueTile n c k) := by
  unfold State.issueTile
  split
  · rfl
  · split
    · rfl
    · rfl
theorem movesOnly_issueTiles (k : Nat) : MovesOnly s (s.issueTiles n c k) := by
  unfold State.issueTiles
  split
  · rfl
  · exact List.foldlRecOn (motive := MovesOnly s) _ _ rfl fun u hu _ _ => hu.trans (movesOnly_issueTile u n c k)
/-- The release of REL issues the tile that has room now, and changes nothing else (R378, R439). -/
theorem movesOnly_relEng (e : Eng) : MovesOnly s (s.relEng n c e) := by
  unfold State.relEng
  split
  next =>
    unfold State.relOne
    split
    next => rfl
    next =>
      dsimp only
      split
      next => rfl
      next => exact (movesOnly_setFetch s n c _ _).trans (movesOnly_issueTiles _ n c _)
  next => rfl

/-- An MVMUL takes a token of the class that its context names, if there is one (R202). -/
theorem spendToken_of_none {s : State} {n c : Nat} (h : s.tokenClass n c = none) : s.spendToken n c = s := by
  simp only [State.spendToken, h]
theorem spendToken_of_some {s : State} {n c k : Nat} (h : s.tokenClass n c = some k) :
    s.spendToken n c = s.setTokens k (s.tokensOf k - 1) := by
  simp only [State.spendToken, h]
theorem spendToken_only {t : State} (ht : s.spendToken n c = t) : t = { s with tokens := t.tokens } := by
  subst ht
  unfold State.spendToken
  split <;> rfl
theorem jobsOf_spendToken_advance (m : Nat) : ((s.advance n c).spendToken n c).jobsOf m = s.jobsOf m := by
  rw [State.jobsOf, spendToken_only _ n c rfl, advance_jobs]
  rfl
theorem jobsOf_setJobs_same (js : List DotJob) : (s.setJobs n js).jobsOf n = js := Sp.get_set_same _ _ _ _
theorem jobsOf_setJobs_ne (js : List DotJob) {m : Nat} (h : m ≠ n) : (s.setJobs n js).jobsOf m = s.jobsOf m := Sp.get_set_ne _ _ _ h

/-- The rows of an MVMUL after their first attempts over the operands of t. -/
def mvTiles (n c : Nat) (e : Eng) (s t : State) : List DotTile :=
  (List.range (mvN e)).map (fun r => (mvInstr n c e s).attempt r 0 ((mvInstr n c e s).operands r t))

/-- With no row due and no MVMUL before it, an MVMUL completes (R151). -/
theorem mvStart_completes {n c : Nat} {e : Eng} {s t : State} (hdue : ∀ x ∈ mvTiles n c e s t, x.due = false) (hjobs : t.jobsOf n = []) :
    mvStart n c e s t = (mvInstr n c e s).done n (s.engTag n c e) (mvTiles n c e s t) t := by
  refine if_neg ?_
  simpa [mvTiles, hjobs] using hdue
/-- Else it is kept with what it issued with. -/
theorem mvStart_waits {n c : Nat} {e : Eng} {s t : State} (h : (∃ x ∈ mvTiles n c e s t, x.due = true) ∨ t.jobsOf n ≠ []) :
    mvStart n c e s t = t.setJobs n
      (t.jobsOf n ++ [⟨e, c, s.engTag n c e, s.sregs n c, s.aregs n c, s.gen n c, mvTiles n c e s t⟩]) := by
  refine if_pos ?_
  simpa [mvTiles] using h

/-- An MVMUL writes one result per weight row. -/
theorem mvTiles_els_length (e : Eng) (t : State) : ((mvTiles n c e s t).flatMap (fun x => x.els e.strict)).length = mvN e := by
  have hone : ∀ x ∈ mvTiles n c e s t, (x.els e.strict).length = 1 := by
    simp [mvTiles, DotInstr.attempt, mkTile, mvInstr, DotTile.els]
  rw [List.length_flatMap, List.map_congr_left hone, List.map_const', List.sum_replicate]
  simp [mvTiles]
theorem mvFields_dkind (e : Eng) : (mvFields e).dkind = dkFM ∨ (mvFields e).dkind = dkOB ∨ (mvFields e).dkind = dkGATE := by
  simp only [mvFields]
  split <;> simp
/-- The saturated rows of an MVMUL are counted, and a token is taken, before its results are written. -/
theorem mvCounted_only {k tag : Nat} {v : State}
    (hv : (if k = 0 then (s.advance n c).spendToken n c else ((s.advance n c).spendToken n c).holdOvr n tag k 0) = v) :
    v = { s.advance n c with tokens := v.tokens, heldOvr := v.heldOvr } := by
  generalize hu : (s.advance n c).spendToken n c = u at hv
  have hu' := spendToken_only _ n c hu
  subst hv
  split
  · rw [hu']
  · rw [State.holdOvr, hu']

/-- A completed MVMUL leaves the MVMULs that are kept, the vat and the latches, and stores in the ranges of its row. -/
theorem mvDone_keeps {s v : State} {n c : Nat} {e : Eng} {els : List (Nat × List (FV × Fl))} {tokens heldOvr}
    (hv : v = { s.advance n c with tokens := tokens, heldOvr := heldOvr }) (hels : els.length = mvN e) :
    let t := (s.outRow n c e (mvFields e) 4 (s.engTag n c e) (mvN e) v ⟨0, 0, 0, els⟩).relEng n c e
    t.jobs = s.jobs ∧ t.vat = s.vat ∧ t.latchEl = s.latchEl ∧ StoresOnly (rowStores n c e (mvFields e) s 0 0 (mvN e) 0) s t := by
  have hregs : v.regs = s.regs := by rw [hv, advance_regs]
  have hrow := outRow_effect (n := n) (c := c) (e := e) (r := ⟨0, 0, 0, els⟩) (unit := 4) (tag := s.engTag n c e) (cols := mvN e)
    hregs (mvFields_dkind e)
  have hrel := movesOnly_relEng (s.outRow n c e (mvFields e) 4 (s.engTag n c e) (mvN e) v ⟨0, 0, 0, els⟩) n c e
  rw [hels] at hrow
  dsimp only
  rw [hrel]
  refine ⟨hrow.jobs.trans ?_, hrow.vat.trans ?_, hrow.latchEl.trans ?_, fun x hx => (hrow.stores x hx).trans ?_⟩ <;> rw [hv]
  · exact advance_jobs s n c
  · exact advance_vat s n c
  · exact advance_latchEl s n c
  · rw [advance_fm]

theorem opMvmul_run (e : Eng) : (opMvmul n c e s).run (s.advance n c) = mvStart n c e s ((s.advance n c).spendToken n c) := rfl
/-- An MVMUL that issues runs. -/
theorem mvmul_runs {a : Issue} {e : Eng} {s : State} (h : EngineIssues opMvmul a e s) : exec (.mvmul a e) s =
    .next ((scalarSlot true a.folio.val a.ctx.val e.sc s).run
      (mvStart a.folio.val a.ctx.val e s ((s.advance a.folio.val a.ctx.val).spendToken a.folio.val a.ctx.val))) := by
  obtain ⟨hready, hclear, hscalar⟩ := h
  exact engine_runs _ hready hclear hscalar

/-- Settles O37: the latch read after an MVLD, and the two cases of `mvStart`. The padding of the last MX block, the FIRST of the
broadcast data and the class of the token are the model's log entries 26, 123 and 140. -/
theorem matrixVectorPath : Obligations.MatrixVectorPath := by
  unfold Obligations.MatrixVectorPath
  intro a e s n c i l f
  refine ⟨fun h => ?_, fun h => ?_⟩
  · have ⟨_, hclear, _⟩ := h
    have hother : ∀ (m : Fin 50) (q : Fin 2), ¬(m.val = n ∧ q.val = l) → 2 * m.val + q.val ≠ 2 * n + l := by
      have hl : l < 2 := op_60_60_lt e
      omega
    exact ⟨mvldDone n c e s, mvld_runs h, latchF_mvldDone_same s n c e,
      fun x hx => (latchE_mvldDone hclear hx).trans (if_pos rfl), fun b hb => (latchS_mvldDone hclear hb).trans (if_pos rfl),
      fun m q hmq => ⟨latchF_mvldDone_ne s n c e (hother m q hmq), fun x hx => (latchE_mvldDone hclear hx).trans (if_neg (hother m q hmq)),
        fun b hb => (latchS_mvldDone hclear hb).trans (if_neg (hother m q hmq))⟩,
      holdsFlags_mvldDone a e s, mvldDone_only s n c e rfl⟩
  · intro tag u d ts sat v
    refine ⟨fun hnone => ?_, fun k hsome => ?_, fun hdue hjobs => ?_, fun hkept => ?_⟩
    · exact spendToken_of_none ((tokenClass_advance s n c).trans hnone)
    · rw [← tokensOf_advance s n c]
      exact spendToken_of_some ((tokenClass_advance s n c).trans hsome)
    · refine ⟨_, mvmul_runs h, mvStart_completes hdue ((jobsOf_spendToken_advance s n c n).trans hjobs), ?_⟩
      rw [mvStart_completes hdue ((jobsOf_spendToken_advance s n c n).trans hjobs)]
      exact mvDone_keeps (mvCounted_only s n c rfl) (mvTiles_els_length s n c e u)
    · rw [← jobsOf_spendToken_advance s n c n] at hkept
      refine ⟨_, mvmul_runs h, ?_⟩
      rw [mvStart_waits hkept]
      exact ⟨(jobsOf_setJobs_same _ n _).trans (congrArg (· ++ _) (jobsOf_spendToken_advance s n c n)),
        fun m hm => (jobsOf_setJobs_ne _ n _ hm).trans (jobsOf_spendToken_advance s n c m), rfl⟩

end Sys2Proof.Machine
end

-- ==== Exact chunk sums: O32 ====
section
/-! SUPPORT. The window of R83 for the formats of one piece (R85): each finite element is a sign, a significand of at most 8 bits and an
exponent; the exponents of a format lie so near each other that no product reaches below the window's lowest bit. -/

namespace Sys2Proof.Machine

/-! ## Values -/

/-- The value of an element (R79). -/
def Sme.rat (a : Sme) : Rat := (if a.neg then -(a.m : Rat) else a.m) * pow2 a.e

theorem pow2_eq_zpow (k : Int) : pow2 k = (2 : Rat) ^ k := by
  cases k with
  | ofNat n => simp [pow2, Rat.mkRat_eq_div]
  | negSucc n => simp [pow2, Rat.mkRat_eq_div, zpow_negSucc]
theorem pow2_add (j k : Int) : pow2 (j + k) = pow2 j * pow2 k := by
  simp only [pow2_eq_zpow, zpow_add₀ (two_ne_zero : (2 : Rat) ≠ 0)]
theorem FV.rat_ofRat (q : Rat) : (FV.ofRat q).rat = q := by
  unfold FV.ofRat
  split <;> simp [FV.rat]
theorem FV.rat_zero (neg : Bool) : (FV.fin neg 0).rat = 0 := by cases neg <;> rfl

/-! ## Elements (R44, R45, R79) -/

/-- The formats of R85 as they enter the window. -/
def Fmt.eightBit (f : Fmt) : Prop := f ∈ [Fmt.int8, .mxint8, .e4m3]

theorem Fmt.eightBit_cases {f : Fmt} (hf : f.eightBit) : f = .int8 ∨ f = .mxint8 ∨ f = .e4m3 := by
  simpa only [Fmt.eightBit, List.mem_cons, List.not_mem_nil, or_false] using hf

theorem sme_int8 (w : Nat) : Fmt.int8.sme w = ⟨decide (128 ≤ w % 256), if w % 256 < 128 then w % 256 else 256 - w % 256, 0⟩ := by
  simp only [Fmt.sme]
  split <;> simp <;> omega
theorem sme_mxint8 (w : Nat) : Fmt.mxint8.sme w = ⟨decide (128 ≤ w % 256), if w % 256 < 128 then w % 256 else 256 - w % 256, -6⟩ := by
  simp only [Fmt.sme]
  split <;> simp <;> omega
theorem sme_e4m3 (w : Nat) : Fmt.e4m3.sme w =
    ⟨w / 128 % 2 == 1, if w / 8 % 16 = 0 then w % 8 else 8 + w % 8, if w / 8 % 16 = 0 then -9 else (w / 8 % 16 : Nat) - 10⟩ := by
  simp only [Fmt.sme, Fmt.frac, Fmt.expw, Fmt.flushes, Fmt.emin, Fmt.bias]
  norm_num
  split
  · rfl
  · simp
    omega
/-- The value of an E4M3 code that is no NaN (R44, R45). -/
theorem decode_e4m3 {w : Nat} (hnan : w % 128 ≠ 127) : Fmt.e4m3.decode w =
    .fin (w / 128 % 2 == 1) ((if w / 8 % 16 = 0 then w % 8 else 8 + w % 8 : Nat) * pow2 (if w / 8 % 16 = 0 then -9 else (w / 8 % 16 : Nat) - 10)) := by
  simp only [Fmt.decode, Fmt.hasInf, Fmt.frac, Fmt.expw, Fmt.emin, Fmt.bias]
  norm_num [hnan]
  split
  · rfl
  · simp [sub_sub]

/-- A finite element is its sign, significand and exponent (R79). -/
theorem Fmt.rat_sme {f : Fmt} (hf : f.eightBit) {w : Nat} (hfin : ∃ n q, f.decode w = .fin n q) : (f.sme w).rat = (f.decode w).rat := by
  have hbits : Sys2Proof.bits w 7 0 = w % 256 := by simp [Sys2Proof.bits]
  obtain rfl | rfl | rfl := Fmt.eightBit_cases hf
  · simp only [Fmt.sme, Fmt.decode, hbits]
    split <;> simp [Sme.rat, FV.rat, pow2_eq_zpow]
  · simp only [Fmt.sme, Fmt.decode, hbits]
    split <;> simp [Sme.rat, FV.rat, pow2_eq_zpow, div_eq_mul_inv] <;> norm_num
  · have hnan : w % 128 ≠ 127 := fun h => by simp [Fmt.decode, Fmt.hasInf, h] at hfin
    rw [decode_e4m3 hnan, sme_e4m3]
    simp only [Sme.rat, FV.rat]
    split <;> simp only [neg_mul]
theorem Fmt.m_sme_lt {f : Fmt} (hf : f.eightBit) (w : Nat) : (f.sme w).m < 256 := by
  obtain rfl | rfl | rfl := Fmt.eightBit_cases hf
  · rw [sme_int8]
    dsimp only
    split <;> omega
  · rw [sme_mxint8]
    dsimp only
    split <;> omega
  · rw [sme_e4m3]
    dsimp only
    split <;> omega
/-- The exponents of a format lie near each other. -/
theorem Fmt.e_sme_near {f : Fmt} (hf : f.eightBit) (w w' : Nat) : (f.sme w).e + (f.prec : Int) ≤ (f.sme w').e + 22 := by
  obtain rfl | rfl | rfl := Fmt.eightBit_cases hf
  · simp [sme_int8, Fmt.prec]
  · simp [sme_mxint8, Fmt.prec]
  · simp only [sme_e4m3, Fmt.prec, Fmt.frac]
    omega
/-- A significand of these formats is one piece (R81). -/
theorem Fmt.pieces_of_lt {f : Fmt} (hf : f.eightBit) (weight : Bool) {m : Nat} (hm : m < 256) : f.pieces weight m = [(m, 0)] := by
  have hmod : m % 256 = m := Nat.mod_eq_of_lt hm
  obtain rfl | rfl | rfl := Fmt.eightBit_cases hf <;> simp [Fmt.pieces, Fmt.prec, Fmt.frac, List.range_succ, hmod]

/-! ## The window (R83) -/

/-- An amount whose lowest bit lies in the window is not cut. -/
theorem floorShift_exact (neg : Bool) (p : Nat) {j k : Int} (h : k ≤ j) :
    (floorShift neg p j k).2 = false ∧ ((floorShift neg p j k).1 : Rat) * pow2 k = (if neg then -(p : Rat) else p) * pow2 j := by
  obtain ⟨d, rfl⟩ := Int.le.dest h
  have hd : k + d - k = d := by omega
  simp only [floorShift, hd, Int.natCast_nonneg, if_true, Int.toNat_natCast, true_and, pow2_add, pow2_eq_zpow (d : Int)]
  split <;> push_cast <;> rw [zpow_natCast] <;> ring
theorem foldl_max_le {x : Int} {l : List Int} {y : Int} (h : x ≤ y) (hl : ∀ z ∈ l, z ≤ y) : l.foldl max x ≤ y :=
  List.foldlRecOn (motive := (· ≤ y)) l max h fun _ hb z hz => max_le hb (hl z hz)

/-- The product of two elements. -/
def smeProduct (t : Sme × Sme) : Rat := t.1.rat * t.2.rat
/-- Its lowest bit at an exponent offset, and the top of R83 that it asks for. -/
def smeLow (sigma : Int) (t : Sme × Sme) : Int := t.1.e + t.2.e + sigma

theorem smeProduct_eq (t : Sme × Sme) (sigma : Int) : smeProduct t * pow2 sigma =
    (if t.1.neg != t.2.neg then -((t.1.m * t.2.m : Nat) : Rat) else (t.1.m * t.2.m : Nat)) * pow2 (smeLow sigma t) := by
  simp only [smeProduct, smeLow, Sme.rat, pow2_add]
  cases t.1.neg <;> cases t.2.neg <;> simp <;> ring
theorem smeProduct_zero {t : Sme × Sme} (h : (t.1.m != 0 && t.2.m != 0) = false) : smeProduct t = 0 := by
  simp only [Bool.and_eq_false_iff, bne_eq_false_iff_eq] at h
  obtain h | h := h <;> simp [smeProduct, Sme.rat, h]

/-- Terms of no significand add nothing. -/
theorem sum_filter_live (ts : List (Sme × Sme)) :
    ((ts.filter (fun t => t.1.m != 0 && t.2.m != 0)).map smeProduct).sum = (ts.map smeProduct).sum := by
  induction ts with
  | nil => rfl
  | cons t ts ih =>
    cases h : (t.1.m != 0 && t.2.m != 0) with
    | false => rw [List.filter_cons_of_neg (by simp [h]), List.map_cons, List.sum_cons, smeProduct_zero h, zero_add, ih]
    | true => rw [List.filter_cons_of_pos (by simpa using h), List.map_cons, List.map_cons, List.sum_cons, List.sum_cons, ih]

/-- Parts that all lie above the window's lowest bit sum to the sum of their values. -/
theorem sum_parts_exact (sigma ulp : Int) {ts : List (Sme × Sme)} (h : ∀ t ∈ ts, ulp ≤ smeLow sigma t) :
    let parts := ts.map (fun t => floorShift (t.1.neg != t.2.neg) (t.1.m * t.2.m) (smeLow sigma t) ulp)
    parts.any Prod.snd = false ∧
      ((parts.foldl (fun a p => a + p.1) (0 : Int) : Int) : Rat) * pow2 ulp = (ts.map smeProduct).sum * pow2 sigma := by
  intro parts
  have hfold : parts.foldl (fun a p => a + p.1) (0 : Int) = (parts.map Prod.fst).sum := by
    simp [List.sum_eq_foldl, List.foldl_map]
  rw [hfold]
  simp only [parts]
  clear hfold parts
  induction ts with
  | nil => simp
  | cons t ts ih =>
    obtain ⟨hcut, hsum⟩ := ih fun u hu => h u (List.mem_cons_of_mem _ hu)
    obtain ⟨htcut, hval⟩ := floorShift_exact (t.1.neg != t.2.neg) (t.1.m * t.2.m) (h t List.mem_cons_self)
    refine ⟨by simp [htcut, hcut], ?_⟩
    simp only [List.map_cons, List.sum_cons, Int.cast_add, add_mul, hsum, hval, smeProduct_eq]

/-- The sum of a chunk of live terms lies in the window whole where the elements have one piece and near exponents. -/
theorem chunkSum_exact {f : Fmt} (hf : f.eightBit) (sigma : Int) {ts : List (Sme × Sme)}
    (hm : ∀ t ∈ ts, t.1.m < 256 ∧ t.2.m < 256)
    (hnear : ∀ t ∈ ts, ∀ u ∈ ts, smeLow sigma t + 2 * (f.prec : Int) ≤ smeLow sigma u + 44) :
    (chunkSum f sigma ts).2 = false ∧ (chunkSum f sigma ts).1.rat = (ts.map smeProduct).sum * pow2 sigma := by
  have hwindow : (f.window : Int) = 48 := by
    obtain rfl | rfl | rfl := Fmt.eightBit_cases hf <;> rfl
  unfold chunkSum
  extract_lets zero live
  rw [← sum_filter_live ts]
  have hlive : ∀ t ∈ live, t ∈ ts := fun t ht => List.mem_of_mem_filter ht
  split
  next hnil =>
    have hempty : live = [] := List.map_eq_nil_iff.mp hnil
    rw [show ts.filter _ = [] from hempty]
    simpa using FV.rat_zero _
  next x xs hcons =>
    extract_lets ulp parts sum
    have hparts : parts = live.map (fun t => floorShift (t.1.neg != t.2.neg) (t.1.m * t.2.m) (smeLow sigma t) ulp) := by
      rw [List.map_eq_flatMap]
      refine List.flatMap_congr fun t ht => ?_
      obtain ⟨h1, h2⟩ := hm t (hlive t ht)
      simp [Fmt.pieces_of_lt hf _ h1, Fmt.pieces_of_lt hf _ h2, smeLow]
    have hin : ∀ t ∈ live, ulp ≤ smeLow sigma t := by
      intro t ht
      have hall : ∀ y ∈ x :: xs, y ≤ smeLow sigma t + 44 := by
        rw [← hcons]
        refine List.forall_mem_map.mpr fun u hu => ?_
        have hu := hnear u (hlive u hu) t (hlive t ht)
        simp only [smeLow] at hu ⊢
        omega
      have htop := foldl_max_le (hall x List.mem_cons_self) fun y hy => hall y (List.mem_cons_of_mem _ hy)
      simp only [ulp]
      omega
    obtain ⟨hcut, hsum⟩ := sum_parts_exact sigma ulp hin
    rw [← hparts] at hcut hsum
    refine ⟨hcut, ?_⟩
    rw [← hsum]
    split
    next hzero =>
      rw [FV.rat_zero, show (parts.foldl _ 0 : Int) = 0 from hzero]
      simp
    next => exact FV.rat_ofRat _

/-- The expansion of a narrow element keeps its value (R54). -/
theorem decode_expand_narrow : ∀ f ∈ [Fmt.e3m2, .e2m3, .e2m1], ∀ w < 2 ^ f.bits, Fmt.e4m3.decode (f.expand w) = f.decode w := by
  decide +kernel

/-- Settles O32: the exponents of each format lie within the window, whose ulp is 44 below the top that the largest term asks for. -/
theorem eightBitChunksAreExact : Obligations.EightBitChunksAreExact := by
  unfold Obligations.EightBitChunksAreExact
  refine ⟨fun f sigma ts hf _ hts => ?_, fun f w hf hw => decode_expand_narrow f hf w hw⟩
  have hvalue : (ts.map (fun t => (f.sme t.1, f.sme t.2))).map smeProduct = ts.map (fun t => (f.decode t.1).rat * (f.decode t.2).rat) := by
    rw [List.map_map]
    refine List.map_congr_left fun t ht => ?_
    obtain ⟨-, -, h1, h2⟩ := hts t ht
    simp only [Function.comp_apply, smeProduct, Fmt.rat_sme hf h1, Fmt.rat_sme hf h2]
  rw [← hvalue]
  refine chunkSum_exact hf sigma (List.forall_mem_map.mpr fun t _ => ⟨Fmt.m_sme_lt hf _, Fmt.m_sme_lt hf _⟩)
    (List.forall_mem_map.mpr fun t _ => List.forall_mem_map.mpr fun u _ => ?_)
  have h1 := Fmt.e_sme_near hf t.1 u.1
  have h2 := Fmt.e_sme_near hf t.2 u.2
  simp only [smeLow]
  omega

end Sys2Proof.Machine
end

-- ==== Instructions that run in units: O34 to O36 ====
section
/-! SUPPORT. What ASTREAM, AFOLD and their reruns share. In order: the meanings that read nothing of the contexts; what the scalar slot
beside an engine instruction leaves; what the conversion of a tile may change; the run of units (R92, R96, R644); an instruction that issues. -/

namespace Sys2Proof.Machine

open Sys2Proof.Claims

/-! ## Meanings that read nothing of the contexts -/

/-- The state with other contexts. -/
def State.withCtxs (t : State) (x : Sp Ctx) : State := { t with ctxs := x }

section
variable (t : State) (x : Sp Ctx) (n c : Nat)

theorem State.setCtx_eq (y : Ctx) : t.setCtx n c y = t.withCtxs (Sp.set (fun _ => Ctx.reset) t.ctxs (4 * n + c) y) := rfl
theorem sameBut_iff {u t : State} : SameBut u t ↔ ∃ x, t = u.withCtxs x :=
  ⟨fun h => ⟨t.ctxs, h⟩, fun ⟨_, h⟩ => by subst h; rfl⟩
theorem SameBut.refl (u : State) : SameBut u u := rfl
theorem sameBut_setCtx {u t : State} (h : SameBut u t) (y : Ctx) : SameBut u (t.setCtx n c y) := by
  obtain ⟨x, rfl⟩ := sameBut_iff.mp h
  rfl

/-- A fold of meanings that read nothing of the contexts reads nothing of them. -/
theorem foldl_withCtxs {α : Type} {f : State → α → State} (hf : ∀ t a, f (t.withCtxs x) a = (f t a).withCtxs x) (l : List α) :
    l.foldl f (t.withCtxs x) = (l.foldl f t).withCtxs x :=
  List.foldl_hom (State.withCtxs · x) hf
theorem ite_withCtxs {p : Prop} [Decidable p] (u : State) :
    (if p then t.withCtxs x else u.withCtxs x) = (if p then t else u).withCtxs x := by
  split <;> rfl

theorem put_withCtxs (m k : Nat) (bs : List Byte) : (t.withCtxs x).put m k bs = (t.put m k bs).withCtxs x := by
  simp only [State.put, State.setMem, State.mem]
  split <;> rfl
theorem holdFl_withCtxs (tag field : Nat) (f : Fl) : (t.withCtxs x).holdFl n tag field f = (t.holdFl n tag field f).withCtxs x := by
  unfold State.holdFl
  split <;> rfl
theorem runGupd_withCtxs (g : Gupd) : (t.withCtxs x).runGupd n g = (t.runGupd n g).withCtxs x := by
  unfold State.runGupd
  extract_lets ws P fn outs s1 xs ws' P' fn' outs' s1' xs'
  have hwords : s1 = s1'.withCtxs x := by
    refine foldl_withCtxs (α := Nat × Nat × UnitOut) _ x (fun t o => ?_) _
    refine foldl_withCtxs (α := Nat × Option Nat) _ x (fun t p => ?_) _
    split
    · exact put_withCtxs _ x _ _ _
    · rfl
  rw [hwords, show xs = xs' from rfl, show outs = outs' from rfl]
  generalize rowRecord g.rowstat false false (xs'.map Fmt.bf16.decode) = r
  obtain ⟨rec, fr⟩ := r
  exact holdFl_withCtxs (s1'.setSlot n (some ⟨g.ctx, g.tag, (packBytes 16 xs').take 8192, if g.rowstat = 0 then [] else rec, 0⟩))
    x n _ _ _
theorem gateRun_withCtxs : (t.withCtxs x).gateRun n = (t.gateRun n).withCtxs x := by
  have hgates : (t.withCtxs x).gates n = t.gates n := rfl
  unfold State.gateRun
  rw [hgates]
  split
  next g gs hg =>
    rw [← ite_withCtxs]
    exact if_congr Iff.rfl (runGupd_withCtxs (t.setGates n gs) x n g) rfl
  next => rfl
theorem feedGate_withCtxs (tag : Nat) (vs : List Nat) : (t.withCtxs x).feedGate n tag vs = (t.feedGate n tag vs).withCtxs x :=
  let q := Sp.get (fun _ => []) t.gatePend n ++ vs.map (fun v => (tag, v))
  gateRun_withCtxs (State.feedPend { t with gatePend := Sp.set (fun _ => []) t.gatePend n q } n) x n
theorem obWrite_withCtxs (arr a : Nat) (bs : List Byte) : (t.withCtxs x).obWrite n arr a bs = (t.obWrite n arr a bs).withCtxs x := by
  simp only [State.obWrite, put_withCtxs]
theorem fmWrite_withCtxs (a : Nat) (bs : List Byte) : (t.withCtxs x).fmWrite n c a bs = (t.fmWrite n c a bs).withCtxs x :=
  put_withCtxs t x _ _ _
theorem outRow_withCtxs (s : State) (e : Eng) (d : DotFields) (unit tag cols : Nat) (r : OutRow) :
    s.outRow n c e d unit tag cols (t.withCtxs x) r = (s.outRow n c e d unit tag cols t r).withCtxs x := by
  unfold State.outRow
  extract_lets o P xs bias biasAt ys rs field put a b biasAt' ys'
  have hput (t : State) (a : Nat) (bs : List Byte) : put (t.withCtxs x) a bs = (put t a bs).withCtxs x := by
    simp only [put, obWrite_withCtxs, fmWrite_withCtxs, ite_withCtxs]
  have hys : ys = ys' := rfl
  rw [hys]
  generalize encodeRow o.out o.c rs (ys'.length + 1) (ys'.map Prod.fst) = enc
  obtain ⟨es, scs, fe, vs⟩ := enc
  simp only [holdFl_withCtxs, feedGate_withCtxs, hput, ite_withCtxs, fmWrite_withCtxs]

theorem setArray_withCtxs (k : Nat) (a : ArrSt) : (t.withCtxs x).setArray n k a = (t.setArray n k a).withCtxs x := rfl
theorem setSlots_withCtxs (arr slot cols : Nat) (f : Fmt) (pair : Bool) (accs : List (List Acc)) :
    (t.withCtxs x).setSlots n arr slot cols f pair accs = (t.setSlots n arr slot cols f pair accs).withCtxs x := rfl
theorem holdOvr_withCtxs (tag sat rerun : Nat) : (t.withCtxs x).holdOvr n tag sat rerun = (t.holdOvr n tag sat rerun).withCtxs x := rfl

/-- An instruction writes its tiles and reads nothing of the contexts. -/
def DotInstr.CtxFree (i : DotInstr) : Prop := ∀ ts t x, i.write ts (t.withCtxs x) = (i.write ts t).withCtxs x

theorem DotInstr.CtxFree.done {i : DotInstr} (hi : i.CtxFree) (n tag : Nat) (ts : List DotTile) (t : State) (x : Sp Ctx) :
    i.done n tag ts (t.withCtxs x) = (i.done n tag ts t).withCtxs x := by
  simp only [DotInstr.done, holdOvr_withCtxs, ite_withCtxs, hi ts]
/-- A tile that is not due again is converted and written, and the context has none that is due. -/
theorem DotInstr.CtxFree.settle {i : DotInstr} (hi : i.CtxFree) {n c tag : Nat} {d : DotTile} {t : State} (hd : d.due = false) :
    i.settle n c tag d t = (i.done n tag [d] t).withCtxs (t.setCtx n c { t.ctx n c with due := none }).ctxs := by
  rw [DotInstr.settle, hd, ← hi.done]
  rfl
theorem asDrain_ctxFree (e : Eng) (s : State) : (asDrain n c e s).CtxFree := fun ts t x =>
  foldl_withCtxs (α := DotTile) t x (fun t _ => outRow_withCtxs t x n c s e _ _ _ _ _) ts
theorem afInstr_ctxFree (e : Eng) (s : State) : (afInstr n c e s).CtxFree := fun ts t x => by
  refine foldl_withCtxs (α := DotTile) t x (fun t y => ?_) ts
  dsimp only
  rw [setSlots_withCtxs]
  exact foldl_withCtxs (α := Nat) _ x (fun t _ => outRow_withCtxs t x n c s e _ _ _ _ _) _
theorem asDrain_operands_withCtxs (e : Eng) (s : State) (r : Nat) :
    (asDrain n c e s).operands r (t.withCtxs x) = (asDrain n c e s).operands r t := rfl
theorem drive_withCtxs : (t.withCtxs x).drive = t.drive.withCtxs x := by
  unfold State.drive
  refine foldl_withCtxs _ x (fun t q => ?_) _
  rw [← ite_withCtxs]
  rfl
theorem queuedMoves_withCtxs : (t.withCtxs x).queuedMoves n = t.queuedMoves n := rfl
theorem queueRoom_withCtxs : (t.withCtxs x).queueRoom n = t.queueRoom n := by
  rw [State.queueRoom, State.queueRoom, drive_withCtxs, queuedMoves_withCtxs]
theorem issueTile_withCtxs (k : Nat) : (t.withCtxs x).issueTile n c k = (t.issueTile n c k).withCtxs x := by
  have hopen : (t.withCtxs x).openFetch n c k = t.openFetch n c k := rfl
  unfold State.issueTile
  rw [hopen, queueRoom_withCtxs]
  split
  · rfl
  · rw [← ite_withCtxs]
    rfl
theorem issueTiles_withCtxs (k : Nat) : (t.withCtxs x).issueTiles n c k = (t.issueTiles n c k).withCtxs x := by
  have hopen : (t.withCtxs x).openFetch n c k = t.openFetch n c k := rfl
  unfold State.issueTiles
  rw [hopen]
  split
  · rfl
  · exact foldl_withCtxs t x (fun t _ => issueTile_withCtxs t x n c k) _
/-- The release of REL reads nothing of the contexts. -/
theorem relEng_withCtxs (e : Eng) : (t.withCtxs x).relEng n c e = (t.relEng n c e).withCtxs x := by
  have hopen (k : Nat) : (t.withCtxs x).openFetch n c k = t.openFetch n c k := rfl
  unfold State.relEng State.relOne
  rw [hopen]
  split
  · split
    · rfl
    · dsimp only
      rw [← ite_withCtxs, ← issueTiles_withCtxs]
      rfl
  · rfl
end

/-! ## The scalar slot beside an engine instruction (R428, R429) -/

/-- What a scalar slot beside an engine instruction of context c leaves: every register word but the counters of the movers, which
TCANCEL may raise (R381); the context outside a resumable instruction, with no tile due and no halt; an array without open tiles. -/
structure State.Beside (n c : Nat) (s u : State) : Prop where
  reg : ∀ a, (∀ q < 10, a ≠ MOVER_CNT q) → u.reg a = s.reg a
  inside : (s.ctx n c).inside = none → (u.ctx n c).inside = none
  due : (s.ctx n c).due = none → (u.ctx n c).due = none
  halting : (u.ctx n c).halting = (s.ctx n c).halting
  tiles : ∀ k, (s.array n k).tiles = [] → (u.array n k).tiles = []

namespace State.Beside
variable {n c : Nat} {s t u : State}

theorem of_same (hregs : u.regs = s.regs) (hctxs : u.ctxs = s.ctxs) (harr : u.arr = s.arr) : s.Beside n c u where
  reg a _ := by simp only [State.reg, hregs]
  inside := by simp only [State.ctx, hctxs, imp_self]
  due := by simp only [State.ctx, hctxs, imp_self]
  halting := by simp only [State.ctx, hctxs]
  tiles k := by simp only [State.array, harr, imp_self]
theorem refl (s : State) : s.Beside n c s := of_same rfl rfl rfl
theorem trans (h : s.Beside n c t) (h' : t.Beside n c u) : s.Beside n c u where
  reg a ha := (h'.reg a ha).trans (h.reg a ha)
  inside hs := h'.inside (h.inside hs)
  due hs := h'.due (h.due hs)
  halting := h'.halting.trans h.halting
  tiles k hs := h'.tiles k (h.tiles k hs)
theorem foldl {α : Type} {f : State → α → State} (xs : List α) (hf : ∀ (t : State), ∀ x ∈ xs, t.Beside n c (f t x)) (t : State) :
    t.Beside n c (xs.foldl f t) :=
  List.foldlRecOn (motive := fun u => t.Beside n c u) xs f (refl t) fun u hu x hx => hu.trans (hf u x hx)

/-- Another record of the context that differs in nothing a resumable instruction rests on, or of another context. -/
theorem setCtx {m k : Nat} (y : Ctx) (hin : (t.ctx m k).inside = none → y.inside = none) (hdue : (t.ctx m k).due = none → y.due = none)
    (hhalt : y.halting = (t.ctx m k).halting) : t.Beside n c (t.setCtx m k y) := by
  by_cases h : 4 * n + c = 4 * m + k
  · have hread : (t.setCtx m k y).ctx n c = y := by rw [State.ctx, h]; exact State.ctx_setCtx_same t m k y
    have hold : t.ctx n c = t.ctx m k := by rw [State.ctx, h]; rfl
    exact ⟨fun _ _ => rfl, by rwa [hread, hold], by rwa [hread, hold], by rw [hread, hold, hhalt], fun _ => id⟩
  · have hread : (t.setCtx m k y).ctx n c = t.ctx n c := State.ctx_setCtx_ne t y h
    exact ⟨fun _ _ => rfl, by rw [hread]; exact id, by rw [hread]; exact id, by rw [hread], fun _ => id⟩
theorem advance (s : State) : s.Beside n c (s.advance n c) := by
  have hctxs : (s.advance n c).ctxs = (s.setCtx n c { s.ctx n c with pc := (s.ctx n c).pc + 1, wait := none }).ctxs := advance_ctxs s n c
  have harr : (s.advance n c).arr = s.arr := by rw [advance_only]
  exact (setCtx { s.ctx n c with pc := (s.ctx n c).pc + 1, wait := none } id id rfl).trans (of_same (advance_regs s n c) hctxs harr)
theorem setSr (r v : Nat) : t.Beside n c (t.setSr n c r v) := of_same rfl rfl rfl
theorem setAr (r v : Nat) : t.Beside n c (t.setAr n c r v) := of_same rfl rfl rfl
theorem setLcr (r v : Nat) : t.Beside n c (t.setLcr n c r v) := of_same rfl rfl rfl
theorem fmStore (r len v : Nat) : t.Beside n c (t.fmStore n c r len v) := of_same rfl rfl rfl
theorem jump (b : Nat) : t.Beside n c (t.jump n c b) := setCtx _ id id rfl
theorem takeRecord (lf k : Nat) : t.Beside n c (t.takeRecord n c lf k) :=
  (setCtx { t.ctx n c with doneQ := (t.ctx n c).doneQ.filter (fun r => bits r.toNat 12 0 != folioTag lf k) } id id rfl).trans
    (of_same rfl rfl rfl)
theorem setTagSt (k : Nat) (st : TagSt) : t.Beside n c (t.setTagSt n c k st) := by
  unfold State.setTagSt
  split
  · exact of_same rfl rfl rfl
  · exact refl t

/-! TCANCEL withdraws the work of its tag (R409, R411). -/

theorem closeTiles (tag k : Nat) : t.Beside n c (t.closeTiles n tag k) where
  reg _ _ := rfl
  inside := id
  due := id
  halting := rfl
  tiles j h := by
    by_cases hj : j = k
    · subst hj
      simp only [State.array] at h
      simp [State.array, State.closeTiles, Sp.get_set_same, h]
    · have hne : 4 * n + j ≠ 4 * n + k := by omega
      rwa [State.array, State.closeTiles, Sp.get_set_ne _ _ _ hne]
theorem dropSoftmax (tag : Nat) : t.Beside n c (t.dropSoftmax n tag) := by
  unfold State.dropSoftmax
  split
  · exact of_same rfl rfl rfl
  · exact refl t
theorem dropResume (k tag : Nat) : t.Beside n c (t.dropResume n k tag) := by
  unfold State.dropResume
  split
  · exact refl t
  · extract_lets x hits y z
    have hy : y.inside = x.inside ∧ y.due = x.due ∧ y.halting = x.halting := by
      dsimp only [y]
      split <;> exact ⟨rfl, rfl, rfl⟩
    obtain ⟨hin, hdue, hhalt⟩ := hy
    split
    · exact refl t
    · refine setCtx z ?_ ?_ ?_ <;> dsimp only [z] <;> split
      · exact fun _ => rfl
      · exact hin.trans
      · exact fun _ => rfl
      · exact hdue.trans
      · exact hhalt
      · exact hhalt
theorem cancelEngines (tag : Nat) : t.Beside n c (t.cancelEngines n tag) := by
  unfold State.cancelEngines
  extract_lets js gs ps s1 s2 s3
  have h1 : t.Beside n c s1 := of_same rfl rfl rfl
  have h2 : t.Beside n c s2 := h1.trans (foldl _ (fun t k _ => closeTiles tag k) s1)
  have h3 : t.Beside n c s3 := by
    dsimp only [s3]
    split
    · split
      · exact h2.trans (of_same rfl rfl rfl)
      · exact h2
    · exact h2
  exact (h3.trans (dropSoftmax tag)).trans (foldl _ (fun t k _ => dropResume k tag) _)
theorem drive : t.Beside n c t.drive := by
  refine foldl (List.range 10) (fun t q _ => ?_) t
  dsimp only
  split
  · exact refl t
  · exact of_same rfl rfl rfl
theorem cancelIn (tag q : Nat) (hq : q < 10) : t.Beside n c (t.cancelIn tag q) := by
  unfold State.cancelIn
  extract_lets ms ms' s1
  have h1 : t.Beside n c s1 := of_same rfl rfl rfl
  have hbump : s1.Beside n c (s1.bump (MOVER_CNT q) 15 0 1) :=
    ⟨fun a ha => State.reg_setFld_ne s1 _ _ _ (ha q hq), id, id, rfl, fun _ => id⟩
  split
  · split
    · exact h1.trans hbump
    · exact h1
  · exact refl t
theorem recvCancelled (r : McRecv) : t.Beside n c (t.recvCancelled r) := by
  unfold State.recvCancelled
  split
  · exact refl t
  · exact of_same rfl rfl rfl
theorem cancelMoves (tag : Nat) : t.Beside n c (t.cancelMoves tag) := by
  unfold State.cancelMoves
  extract_lets s0 led s1 dead lost
  have h1 : t.Beside n c s1 := drive.trans (foldl _ (fun t q hq => cancelIn tag q (List.mem_range.mp hq)) s0)
  refine .trans ?_ (foldl lost (fun t r _ => recvCancelled r) _)
  clear_value s1
  exact h1.trans (of_same rfl rfl rfl)
theorem cancelWork (tag : Nat) : t.Beside n c (t.cancelWork n tag) := (cancelEngines tag).trans (cancelMoves tag)

end State.Beside

theorem opMixed_not_clear {o : SlotOp} : ¬(opMixed true o).clear := by
  simp [SlotOp.clear, opMixed, lowestTrap_cons_none]
/-- A scalar slot beside an engine instruction that breaks no rule. -/
theorem scalarSlot_beside {n c : Nat} {sc : BitVec 32} {s : State} (h : (scalarSlot true n c sc s).clear) (t : State) :
    t.Beside n c ((scalarSlot true n c sc s).run t) := by
  revert h
  unfold scalarSlot
  extract_lets w
  split <;> intro h
  · exact .refl t
  · exact .setSr _ _
  · exact .setSr _ _
  · exact .setSr _ _
  · exact .setSr _ _
  · exact .setSr _ _
  · exact .setSr _ _
  · exact .setSr _ _
  · exact .setSr _ _
  · exact .setSr _ _
  · exact .setSr _ _
  · exact .setSr _ _
  · exact .setSr _ _
  · exact .setSr _ _
  · exact .setSr _ _
  · exact .setSr _ _
  · exact .setSr _ _
  · exact .setSr _ _
  · exact .setSr _ _
  · exact .setSr _ _
  · exact .fmStore _ _ _
  · exact .trans (.setSr _ _) (.setSr _ _)
  · exact .fmStore _ _ _
  · exact .setAr _ _
  · exact .fmStore _ _ _
  · exact .setAr _ _
  · exact .setAr _ _
  · exact .setAr _ _
  · exact .trans (.setSr _ _) (.setSr _ _)
  · exact .setLcr _ _
  · unfold opBr
    dsimp only
    split
    · exact .jump _
    · exact .refl t
  · exact .jump _
  · exact .setCtx _ id id rfl
  · unfold opRet
    dsimp only
    split
    · exact .setCtx _ id id rfl
    · exact .refl t
  · unfold opLoop
    dsimp only
    split
    · exact .setLcr _ _
    · exact .trans (.setLcr _ _) (.jump _)
  · exact absurd h opMixed_not_clear
  · exact absurd h opMixed_not_clear
  · exact absurd h opMixed_not_clear
  · exact absurd h opMixed_not_clear
  · exact absurd h opMixed_not_clear
  · unfold opTopen
    dsimp only
    split
    · exact .of_same rfl rfl rfl
    · exact .refl t
  · exact .setTagSt _ _
  · unfold opTcancel
    dsimp only
    split
    · split
      · exact .trans (.setTagSt _ _) (.cancelWork _)
      · exact .refl t
    · exact .refl t
  · unfold opTwait
    dsimp only
    split
    · exact .takeRecord _ _
    · exact .refl t
  · unfold opTpoll
    dsimp only
    split
    · exact .trans (.takeRecord _ _) (.setSr _ _)
    · exact .setSr _ _
  · exact .refl t

/-- The accepted level and the keys of the context's addresses are as in s, which gives an instruction its registers. -/
structure State.SameKeys (n c : Nat) (s t : State) : Prop where
  level : t.level = s.level
  fmKey : ∀ r, t.fmKey n c r = s.fmKey n c r

theorem State.Beside.sameKeys {n c : Nat} {s u : State} (hc : c < 4) (h : s.Beside n c u) : s.SameKeys n c u where
  level := by
    rw [State.level, State.fld, h.reg, ← State.fld, ← State.level]
    intro q hq
    simp only [IFACE_LEVEL, MOVER_CNT, pg]
    omega
  fmKey r := by
    have hdesc (w : Nat) (hw : w < 4) : u.reg (SEQ_DESC n c w) = s.reg (SEQ_DESC n c w) := by
      refine h.reg _ fun q hq => ?_
      simp only [SEQ_DESC, MOVER_CNT, pg]
      omega
    simp only [State.fmKey, State.fmPhys, State.dFmbase, State.desc, hdesc 0, hdesc 1, hdesc 2, hdesc 3, Nat.reduceLT]
theorem State.SameKeys.of_regs {n c : Nat} {s t u : State} (h : s.SameKeys n c t) (hregs : u.regs = t.regs) : s.SameKeys n c u where
  level := by
    rw [← h.level]
    simp only [State.level, State.fld, State.reg, hregs]
  fmKey r := (fmKey_of_regs hregs n c r).trans (h.fmKey r)

/-! ## What the conversion of a tile changes (R48, R71, R114, R123) -/

/-- Each range starts where one of `l'` starts and is no longer. -/
def StoresIn (l l' : List (Nat × Nat)) : Prop := ∀ p ∈ l, ∃ q ∈ l', q.1 = p.1 ∧ p.2 ≤ q.2
theorem storesOnly_mono {l l' : List (Nat × Nat)} {t u : State} (h : StoresOnly l t u) (hl : StoresIn l l') : StoresOnly l' t u := by
  refine fun x hx => h x fun p hp => ?_
  obtain ⟨q, hq, hkey, hlen⟩ := hl p hp
  have := hx q hq
  omega
theorem StoresIn.of_subset {l l' : List (Nat × Nat)} (h : l ⊆ l') : StoresIn l l' := fun p hp => ⟨p, h hp, rfl, le_refl _⟩
theorem StoresIn.trans {l l' l'' : List (Nat × Nat)} (h : StoresIn l l') (h' : StoresIn l' l'') : StoresIn l l'' := by
  intro p hp
  obtain ⟨q, hq, hkey, hlen⟩ := h p hp
  obtain ⟨r, hr, hkey', hlen'⟩ := h' q hq
  exact ⟨r, hr, hkey'.trans hkey, hlen.trans hlen'⟩
/-- A row of fewer outputs stores in the ranges of a longer one. -/
theorem rowStores_mono {n c : Nat} {e : Eng} {d : DotFields} {s : State} {row col count count' stat : Nat} (h : count ≤ count') :
    StoresIn (rowStores n c e d s row col count stat) (rowStores n c e d s row col count' stat) := by
  have hP : count * engParts e ≤ count' * engParts e := Nat.mul_le_mul_right _ h
  have helems := rowBytes_mono (s.dotFmt d) (outCount_mono (s.dotFmt d) hP)
  have hscales : (count * engParts e + 31) / 32 ≤ (count' * engParts e + 31) / 32 := by omega
  unfold rowStores StoresIn
  extract_lets o P a b
  intro p hp
  rw [List.mem_append] at hp
  simp only [List.mem_append]
  obtain hp | hp := hp
  · split at hp
    next hk =>
      rw [List.mem_cons] at hp
      obtain rfl | hp := hp
      · refine ⟨(_, rowBytes o (outCount o (count' * P))), .inl ?_, rfl, helems⟩
        rw [if_pos hk]
        exact List.mem_cons_self
      · split at hp
        next hmx =>
          obtain rfl := List.mem_singleton.mp hp
          refine ⟨(_, (count' * P + 31) / 32), .inl ?_, rfl, hscales⟩
          rw [if_pos hk, if_pos hmx]
          exact List.mem_cons_of_mem _ (List.mem_singleton.mpr rfl)
        next => cases hp
    next => cases hp
  · exact ⟨p, .inr hp, rfl, le_refl _⟩

/-- From t to u the registers, the vat and the kept MVMULs stay, and of the folio memories only bytes in the ranges `l` differ. -/
structure State.TileEffect (l : List (Nat × Nat)) (t u : State) : Prop where
  regs : u.regs = t.regs
  vat : u.vat = t.vat
  jobs : u.jobs = t.jobs
  stores : StoresOnly l t u

namespace State.TileEffect
variable {l l' : List (Nat × Nat)} {t u v : State}

/-- An update of other fields. -/
theorem of_same (hregs : u.regs = t.regs) (hvat : u.vat = t.vat) (hjobs : u.jobs = t.jobs) (hfm : u.fm = t.fm) : t.TileEffect l u :=
  ⟨hregs, hvat, hjobs, fun _ _ => by rw [hfm]⟩
theorem refl (t : State) : t.TileEffect l t := of_same rfl rfl rfl rfl
theorem trans (h : t.TileEffect l u) (h' : u.TileEffect l v) : t.TileEffect l v :=
  ⟨h'.regs.trans h.regs, h'.vat.trans h.vat, h'.jobs.trans h.jobs, fun x hx => (h'.stores x hx).trans (h.stores x hx)⟩
theorem mono (h : t.TileEffect l u) (hl : StoresIn l l') : t.TileEffect l' u := ⟨h.regs, h.vat, h.jobs, storesOnly_mono h.stores hl⟩
theorem of_row (h : t.RowEffect l u) : t.TileEffect l u := ⟨h.regs, h.vat, h.jobs, h.stores⟩
theorem foldl {α : Type} {f : State → α → State} (xs : List α) (t : State)
    (hf : ∀ u x, x ∈ xs → t.TileEffect l u → u.TileEffect l (f u x)) : t.TileEffect l (xs.foldl f t) :=
  List.foldlRecOn (motive := fun u => t.TileEffect l u) xs f (refl t) fun u hu x hx => hu.trans (hf u x hx hu)

end State.TileEffect

/-- An output row reads of the register window the accepted level alone. -/
theorem outRow_withRegs {n c : Nat} {e : Eng} {d : DotFields} {unit tag cols : Nat} {s t : State} {r : OutRow} (hlevel : t.level = s.level) :
    State.outRow { s with regs := t.regs } n c e d unit tag cols t r = s.outRow n c e d unit tag cols t r := by
  have hlevel' : State.level { s with regs := t.regs } = s.level := hlevel
  have hout : State.dotOut { s with regs := t.regs } n c e d = s.dotOut n c e d := by
    simp only [State.dotOut, State.dotFmt, hlevel']
    rfl
  have har (k : Nat) : State.ar { s with regs := t.regs } n c k = s.ar n c k := rfl
  have hsr (k : Nat) : State.srBits { s with regs := t.regs } n c k = s.srBits n c k := rfl
  have hib (k : Nat) : State.ibBase { s with regs := t.regs } n c k = s.ibBase n c k := rfl
  simp only [State.outRow, hout, har, hsr, hib]
theorem rowStores_withRegs {n c : Nat} {e : Eng} {d : DotFields} {s t : State} {row col count stat : Nat} (h : s.SameKeys n c t) :
    rowStores n c e d { s with regs := t.regs } row col count stat = rowStores n c e d s row col count stat := by
  have hlevel : State.level { s with regs := t.regs } = s.level := h.level
  have hfmt : State.dotFmt { s with regs := t.regs } d = s.dotFmt d := by simp only [State.dotFmt, hlevel]
  have hkey (r : Nat) : State.fmKey { s with regs := t.regs } n c r = s.fmKey n c r := h.fmKey r
  have har (r : Nat) : State.ar { s with regs := t.regs } n c r = s.ar n c r := rfl
  simp only [rowStores, hfmt, hkey, har]

/-- The destinations that the fields of an instruction may name. -/
def DotFields.DestOk (d : DotFields) : Prop := d.dkind = dkFM ∨ d.dkind = dkOB ∨ d.dkind = dkGATE

/-- What an output row may change, over the registers of s, in a state where the addresses lie as in s. -/
theorem outRow_rowEffect {n c : Nat} {e : Eng} {d : DotFields} {unit tag cols : Nat} {s t : State} {r : OutRow} (hd : d.DestOk)
    (h : s.SameKeys n c t) :
    t.RowEffect (rowStores n c e d s r.row r.col r.els.length r.stat) (s.outRow n c e d unit tag cols t r) := by
  rw [← outRow_withRegs h.level, ← rowStores_withRegs h]
  exact outRow_effect rfl hd
theorem outRow_arr {n c : Nat} {e : Eng} {d : DotFields} {unit tag cols : Nat} {s t : State} {r : OutRow} (hd : d.DestOk)
    (h : s.SameKeys n c t) : (s.outRow n c e d unit tag cols t r).arr = t.arr := by
  rw [(outRow_rowEffect hd h).frame]
theorem outRow_ctxs {n c : Nat} {e : Eng} {d : DotFields} {unit tag cols : Nat} {s t : State} {r : OutRow} (hd : d.DestOk)
    (h : s.SameKeys n c t) : (s.outRow n c e d unit tag cols t r).ctxs = t.ctxs := by
  rw [(outRow_rowEffect hd h).frame]
theorem outRow_tileEffect {n c : Nat} {e : Eng} {d : DotFields} {unit tag cols count : Nat} {s t : State} {r : OutRow} {l : List (Nat × Nat)}
    (hd : d.DestOk) (h : s.SameKeys n c t) (hlen : r.els.length ≤ count) (hl : rowStores n c e d s r.row r.col count r.stat ⊆ l) :
    t.TileEffect l (s.outRow n c e d unit tag cols t r) :=
  .mono (.of_row (outRow_rowEffect hd h)) ((rowStores_mono hlen).trans (.of_subset hl))
theorem array_setArray_same (t : State) (m k : Nat) (y : ArrSt) : (t.setArray m k y).array m k = y := by
  simp only [State.array, State.setArray, Sp.get_set_same]

theorem setArray_effect {t : State} {n k : Nat} {l : List (Nat × Nat)} (y : ArrSt) : t.TileEffect l (t.setArray n k y) ∧
    (t.setArray n k y).ctxs = t.ctxs :=
  ⟨.of_same rfl rfl rfl rfl, rfl⟩
theorem setSlots_effect {t : State} {n : Nat} {l : List (Nat × Nat)} (arr slot cols : Nat) (f : Fmt) (pair : Bool) (accs : List (List Acc)) :
    t.TileEffect l (t.setSlots n arr slot cols f pair accs) ∧ (t.setSlots n arr slot cols f pair accs).ctxs = t.ctxs ∧
      (t.setSlots n arr slot cols f pair accs).arr = t.arr := ⟨.of_same rfl rfl rfl rfl, rfl, rfl⟩

/-- Output rows one after another. -/
theorem outRows_effect {n c : Nat} {e : Eng} {d : DotFields} {unit tag cols count : Nat} {s t : State} {l : List (Nat × Nat)} {α : Type}
    {row : α → OutRow} {xs : List α} (hd : d.DestOk) (h : s.SameKeys n c t) (hlen : ∀ x ∈ xs, (row x).els.length ≤ count)
    (hl : ∀ x ∈ xs, rowStores n c e d s (row x).row (row x).col count (row x).stat ⊆ l) :
    let u := xs.foldl (fun t x => s.outRow n c e d unit tag cols t (row x)) t
    t.TileEffect l u ∧ u.arr = t.arr ∧ u.ctxs = t.ctxs := by
  refine List.foldlRecOn (motive := fun u => t.TileEffect l u ∧ u.arr = t.arr ∧ u.ctxs = t.ctxs) xs _ ⟨.refl t, rfl, rfl⟩ ?_
  rintro u ⟨heff, harr, hctxs⟩ x hx
  have hk := h.of_regs heff.regs
  exact ⟨heff.trans (outRow_tileEffect hd hk (hlen x hx) (hl x hx)), (outRow_arr hd hk).trans harr, (outRow_ctxs hd hk).trans hctxs⟩

/-! ## The run of units (R92, R96, R644) -/

section
variable {n c : Nat}

/-- A context written with what it holds reads as before. -/
theorem ctx_setCtx_self {t : State} {y : Ctx} (hy : y = t.ctx n c) (m k : Nat) : (t.setCtx n c y).ctx m k = t.ctx m k := by
  by_cases h : 4 * m + k = 4 * n + c
  · simp only [State.ctx, h, State.setCtx, Sp.get_set_same, hy]
  · exact State.ctx_setCtx_ne t y h

/-- The state after units `lo` to `lo + k` − 1. -/
def unitsFrom (unit : Nat → State → State) (lo k : Nat) (t : State) : State := (List.range' lo k).foldl (fun t x => unit x t) t

theorem unitsFrom_zero (unit : Nat → State → State) (k : Nat) (t : State) :
    unitsFrom unit 0 k t = (List.range k).foldl (fun t x => unit x t) t := by
  rw [unitsFrom, ← List.range_eq_range']
theorem unitsFrom_succ (unit : Nat → State → State) (lo k : Nat) (t : State) :
    unitsFrom unit lo (k + 1) t = unitsFrom unit (lo + 1) k (unit lo t) := rfl
/-- With no tile due after any unit, all units run. -/
theorem runUnits_all {unit : Nat → State → State} {k lo : Nat} {t : State}
    (h : ∀ j < k, ((unitsFrom unit lo (j + 1) t).ctx n c).due = none) : runUnits n c unit k lo t = (lo + k, unitsFrom unit lo k t) := by
  induction k generalizing lo t with
  | zero => rfl
  | succ k ih =>
    have hfirst : ((unit lo t).ctx n c).due = none := h 0 (Nat.succ_pos k)
    have hrest := ih (lo := lo + 1) (t := unit lo t) fun j hj => h (j + 1) (by omega)
    simp only [runUnits, hfirst, Option.isSome_none, Bool.false_eq_true, if_false, hrest, unitsFrom_succ]
    congr 1
    omega
/-- The run stops after the first unit that leaves a tile due. -/
theorem runUnits_stops {unit : Nat → State → State} {k lo j : Nat} {t : State} {x : DotTile} (hj : j < k)
    (h : ∀ q < j, ((unitsFrom unit lo (q + 1) t).ctx n c).due = none) (hx : ((unitsFrom unit lo (j + 1) t).ctx n c).due = some x) :
    runUnits n c unit k lo t = (lo + j + 1, unitsFrom unit lo (j + 1) t) := by
  induction k generalizing lo t j with
  | zero => omega
  | succ k ih =>
    cases j with
    | zero =>
      have hfirst : ((unit lo t).ctx n c).due = some x := hx
      simp only [runUnits, hfirst, Option.isSome_some, if_true]
      rfl
    | succ j =>
      have hfirst : ((unit lo t).ctx n c).due = none := h 0 (Nat.succ_pos j)
      have hrest := ih (lo := lo + 1) (t := unit lo t) (j := j) (by omega) (fun q hq => h (q + 1) (by omega)) hx
      simp only [runUnits, hfirst, Option.isSome_none, Bool.false_eq_true, if_false, hrest, unitsFrom_succ unit lo (j + 1)]
      congr 1
      omega

theorem ctx_relEng (t : State) (e : Eng) (m k : Nat) : (t.relEng n c e).ctx m k = t.ctx m k := by
  rw [State.ctx, movesOnly_relEng]
  rfl
theorem haltDue_of_not_halting {t : State} (h : (t.ctx n c).halting = false) : t.haltDue n c = t := by
  simp [State.haltDue, h]
/-- An instruction whose last unit has run with no tile due ends with its release. -/
theorem longRun_ends {o : Long} {r : Resume} {t u : State} {e : Eng} (hfin : o.finish = fun t => t.relEng n c e)
    (hpart : o.part r.pos (o.total t) t = (o.total t, u)) (hdue : (u.ctx n c).due = none) (hhalt : (u.ctx n c).halting = false) :
    longRun n c 0 o r t = (u.setCtx n c { u.ctx n c with inside := none }).relEng n c e := by
  simp only [longRun, if_true, hpart, Long.after, hdue, Option.isSome_none, lt_irrefl, decide_false, Bool.or_self,
    Bool.false_eq_true, if_false, hfin]
  refine haltDue_of_not_halting ?_
  rw [ctx_relEng, State.ctx_setCtx_same]
  exact hhalt
/-- With a tile due the context stays inside the instruction. -/
theorem longRun_stays {o : Long} {r : Resume} {t u : State} {p : Nat} {x : DotTile} (hpart : o.part r.pos (o.total t) t = (p, u))
    (hdue : (u.ctx n c).due = some x) : longRun n c 0 o r t = u.setCtx n c { u.ctx n c with inside := some { r with pos := p } } := by
  simp only [longRun, if_true, hpart, Long.after, hdue, Option.isSome_some, Bool.true_or, State.haltDue, State.ctx_setCtx_same,
    Option.isNone_some, Bool.and_false, Bool.false_and, Bool.false_eq_true, if_false]
end

/-! ## An instruction that issues -/

theorem issued_beside {a : Issue} {e : Eng} {s : State} (h : (scalarSlot true a.folio.val a.ctx.val e.sc s).clear) :
    s.Beside a.folio.val a.ctx.val (issued a e s) := (State.Beside.advance s).trans (scalarSlot_beside h _)

/-- A resumable instruction that issues whole: what its context holds, and where its addresses lie, once the scalar slot has acted. -/
structure LongStarts (n c : Nat) (s i : State) : Prop where
  keys : s.SameKeys n c i
  inside : (i.ctx n c).inside = none
  due : (i.ctx n c).due = none
  halting : (i.ctx n c).halting = false
  tiles : ∀ k, (s.array n k).tiles = [] → (i.array n k).tiles = []

theorem longStarts {op : Nat → Nat → Eng → State → Long} {a : Issue} {e : Eng} {s : State} (h : LongIssues op a e s) :
    LongStarts a.folio.val a.ctx.val s (issued a e s) := by
  obtain ⟨⟨⟨-, -, hin, -⟩, -⟩, -, hscalar, -, hdue, hhalt⟩ := h
  have hb := issued_beside (a := a) hscalar
  exact ⟨hb.sameKeys a.ctx.isLt, hb.inside hin, hb.due hdue, hb.halting.trans hhalt, hb.tiles⟩
theorem long_runs {opc : Nat} {op : Nat → Nat → Eng → State → Long} {a : Issue} {e : Eng} {s : State} (r : Option Nat)
    (h : LongIssues op a e s) : longEngine opc op r a e s = .next (longRun a.folio.val a.ctx.val 0 (op a.folio.val a.ctx.val e s)
      (s.longRec a.folio.val a.ctx.val (op a.folio.val a.ctx.val e s).kind (BitVec.ofNat 128 (bundleOf opc e)).toNat) (issued a e s)) := by
  obtain ⟨hready, hclear, hscalar, hcut, -⟩ := h
  rw [longEngine_runs r hready hclear hscalar, hcut]
  rfl

/-- An instruction all of whose units run, and leave the contexts as they found them, completes. -/
theorem completesLong_of_units {opc total : Nat} {op : Nat → Nat → Eng → State → Long} {a : Issue} {e : Eng} {s : State} {r : Option Nat}
    {unit : Nat → State → State} {post : State → Prop} (h : LongIssues op a e s)
    (hfin : (op a.folio.val a.ctx.val e s).finish = fun t => t.relEng a.folio.val a.ctx.val e)
    (hpart : ∀ k t, (op a.folio.val a.ctx.val e s).part 0 k t = runUnits a.folio.val a.ctx.val unit k 0 t)
    (htotal : ∀ t, (op a.folio.val a.ctx.val e s).total t = total)
    (hdue : ∀ j < total, ((unitsFrom unit 0 (j + 1) (issued a e s)).ctx a.folio.val a.ctx.val).due = none)
    (hctx : ∀ m k, (unitsFrom unit 0 total (issued a e s)).ctx m k = (issued a e s).ctx m k)
    (hpost : ∀ t, SameBut (unitsFrom unit 0 total (issued a e s)) t → post t) : CompletesLong (longEngine opc op r a e s) a e s post := by
  have hs := longStarts h
  have hown := hctx a.folio.val a.ctx.val
  have hrun : (op a.folio.val a.ctx.val e s).part 0 ((op a.folio.val a.ctx.val e s).total (issued a e s)) (issued a e s) =
      ((op a.folio.val a.ctx.val e s).total (issued a e s), unitsFrom unit 0 total (issued a e s)) := by
    rw [htotal, hpart, runUnits_all hdue, Nat.zero_add]
  have hnone : { (unitsFrom unit 0 total (issued a e s)).ctx a.folio.val a.ctx.val with inside := none } =
      (unitsFrom unit 0 total (issued a e s)).ctx a.folio.val a.ctx.val := by
    rw [hown, ← hs.inside]
  have hends := longRun_ends (r := s.longRec a.folio.val a.ctx.val (op a.folio.val a.ctx.val e s).kind (BitVec.ofNat 128 (bundleOf opc e)).toNat)
    hfin hrun (by rw [hown, hs.due]) (by rw [hown, hs.halting])
  refine ⟨_, (long_runs r h).trans (congrArg _ hends), hpost _ (sameBut_setCtx _ _ (SameBut.refl _) _), fun m k => ?_⟩
  rw [hnone, ctx_setCtx_self rfl, hctx]
/-- An instruction whose unit j leaves a tile due stays there. -/
theorem staysDue_of_units {opc kind total j : Nat} {op : Nat → Nat → Eng → State → Long} {a : Issue} {e : Eng} {s w : State} {r : Option Nat}
    {unit : Nat → State → State} {x : DotTile} (h : LongIssues op a e s) (hkind : (op a.folio.val a.ctx.val e s).kind = kind)
    (hpart : ∀ k t, (op a.folio.val a.ctx.val e s).part 0 k t = runUnits a.folio.val a.ctx.val unit k 0 t)
    (htotal : ∀ t, (op a.folio.val a.ctx.val e s).total t = total) (hj : j < total)
    (hdue : ∀ q < j, ((unitsFrom unit 0 (q + 1) (issued a e s)).ctx a.folio.val a.ctx.val).due = none)
    (hx : ((unitsFrom unit 0 (j + 1) (issued a e s)).ctx a.folio.val a.ctx.val).due = some x)
    (hw : SameBut w (unitsFrom unit 0 (j + 1) (issued a e s))) :
    Next (longEngine opc op r a e s) (StaysDue opc kind a e s (j + 1) x w) := by
  have hrun : (op a.folio.val a.ctx.val e s).part 0 ((op a.folio.val a.ctx.val e s).total (issued a e s)) (issued a e s) =
      (j + 1, unitsFrom unit 0 (j + 1) (issued a e s)) := by
    rw [htotal, hpart, runUnits_stops hj hdue hx, Nat.zero_add]
  have hstays := longRun_stays (r := s.longRec a.folio.val a.ctx.val (op a.folio.val a.ctx.val e s).kind
    (BitVec.ofNat 128 (bundleOf opc e)).toNat) hrun hx
  refine ⟨_, (long_runs r h).trans (congrArg _ hstays), ?_, ?_, sameBut_setCtx _ _ hw _⟩
  · rw [State.ctx_setCtx_same]
    exact hx
  · rw [State.ctx_setCtx_same, hkind]

end Sys2Proof.Machine
end

-- ==== ASTREAM: O34 ====
section
/-! SUPPORT. ASTREAM (R92, R96, R114, R115, R126, R127). In order: what the checks of one that issues say; drain mode, row after row;
accumulate mode, one output tile. -/

namespace Sys2Proof.Machine

open Sys2Proof.Claims

/-! ## The checks of an ASTREAM -/

section
variable {n c : Nat} {e : Eng} {s : State}

theorem opAstream_clear (h : (opAstream n c e s).clear) : (asFields e).DestOk ∧ (asMODE e = false → asRows s n c e ≠ 0) ∧
    (asMODE e = true → asM e ≠ 0) := by
  obtain ⟨htraps, -⟩ := h
  simp only [opAstream, lowestTrap_append_none] at htraps
  obtain ⟨⟨⟨⟨⟨-, -⟩, hdot⟩, hown⟩, hacc⟩, -⟩ := htraps
  simp only [State.dotTraps, lowestTrap_cons_none, Bool.or_eq_false_iff, beq_eq_false_iff_ne] at hdot
  obtain ⟨⟨hkind, -⟩, -⟩ := hdot
  simp only [lowestTrap_cons_none] at hown
  obtain ⟨-, -, -, -, -, hrange, -⟩ := hown
  refine ⟨?_, fun hmode hrows => ?_, fun hmode hm => ?_⟩
  · have hlt : (asFields e).dkind < 4 := Nat.mod_lt _ (by decide)
    simp only [DotFields.DestOk, dkFM, dkOB, dkGATE]
    omega
  · simp [hmode, hrows] at hrange
  · rw [if_pos hmode] at hacc
    simp [asAccTraps, lowestTrap_cons_none, hm] at hacc

/-! ## Drain mode (R114) -/

variable {t : State} {l : List (Nat × Nat)}

/-- A row of a drain is counted where it saturated, and then converted and written. -/
theorem asDrain_done {tag : Nat} {x : DotTile} : (asDrain n c e s).done n tag [x] t =
    s.outRow n c e (asFields e) (e.op 60 59) (s.engTag n c e) (asN e)
      (if ([x].filter (fun x => x.sat)).length = 0 then t else t.holdOvr n tag ([x].filter (fun x => x.sat)).length 0)
      ⟨x.idx, 0, x.idx, x.els e.strict⟩ := rfl
theorem counted_effect (k tag : Nat) : t.TileEffect l (if k = 0 then t else t.holdOvr n tag k 0) ∧
    (if k = 0 then t else t.holdOvr n tag k 0).arr = t.arr := by
  split
  · exact ⟨.refl t, rfl⟩
  · exact ⟨.of_same rfl rfl rfl rfl, rfl⟩
/-- A drained row stores in its own ranges alone and leaves the arrays. -/
theorem asDrain_done_effect {tag : Nat} {x : DotTile} (hd : (asFields e).DestOk) (h : s.SameKeys n c t)
    (hlen : x.accs.length ≤ asN e) (hl : rowStores n c e (asFields e) s x.idx 0 (asN e) x.idx ⊆ l) :
    t.TileEffect l ((asDrain n c e s).done n tag [x] t) ∧ ((asDrain n c e s).done n tag [x] t).arr = t.arr := by
  rw [asDrain_done]
  obtain ⟨hcount, harr⟩ := counted_effect (t := t) (l := l) (n := n) ([x].filter (fun x => x.sat)).length tag
  have hk := h.of_regs hcount.regs
  exact ⟨hcount.trans (outRow_tileEffect hd hk (by simpa [DotTile.els] using hlen) hl), (outRow_arr hd hk).trans harr⟩
theorem asDrain_attempt_length (r k : Nat) : ((asDrain n c e s).attempt r k ((asDrain n c e s).operands r t)).accs.length = asN e := by
  simp [DotInstr.attempt, mkTile, asDrain, asChunks]

/-- The ranges that rows 0 to m − 1 of the instruction store in. -/
def asStores (n c : Nat) (e : Eng) (s : State) (m : Nat) : List (Nat × Nat) :=
  (List.range m).flatMap (fun r => rowStores n c e (asFields e) s r 0 (asN e) r)
theorem rowStores_subset_asStores {r m : Nat} (h : r < m) : rowStores n c e (asFields e) s r 0 (asN e) r ⊆ asStores n c e s m :=
  fun _ hp => List.mem_flatMap.mpr ⟨r, List.mem_range.mpr h, hp⟩

/-- Rows 0 to k − 1 of a drain. -/
theorem drainRows_succ (d : DotInstr) (tag k : Nat) : drainRows d n tag (k + 1) t =
    d.done n tag [d.attempt k 0 (d.operands k (drainRows d n tag k t))] (drainRows d n tag k t) := by
  simp only [drainRows, List.range_succ, List.foldl_append, List.foldl_cons, List.foldl_nil]
theorem drainRows_effect {tag k m : Nat} (hd : (asFields e).DestOk) (h : s.SameKeys n c t) (hk : k ≤ m) :
    t.TileEffect (asStores n c e s m) (drainRows (asDrain n c e s) n tag k t) ∧
      (drainRows (asDrain n c e s) n tag k t).arr = t.arr := by
  induction k with
  | zero => exact ⟨.refl t, rfl⟩
  | succ k ih =>
    obtain ⟨heff, harr⟩ := ih (by omega)
    rw [drainRows_succ]
    have hrow := asDrain_done_effect (tag := tag) (x := (asDrain n c e s).attempt k 0 ((asDrain n c e s).operands k
      (drainRows (asDrain n c e s) n tag k t))) hd (h.of_regs heff.regs) (asDrain_attempt_length k 0).le
      (rowStores_subset_asStores (r := k) (m := m) (by omega))
    exact ⟨heff.trans hrow.1, hrow.2.trans harr⟩

/-- The state that a unit of an ASTREAM starts from: the first one swaps. -/
def asStart (n : Nat) (e : Eng) (i : Nat) (t : State) : State := if asSWAP e && i == 0 then t.swapArr n (e.op 60 59) else t
/-- Unit i of an ASTREAM. -/
def asUnit (n c : Nat) (e : Eng) (s : State) (i : Nat) (t : State) : State :=
  if asMODE e then asAccumRow n c e s i (asStart n e i t) else asDrainRow n c e s i (asStart n e i t)
theorem opAstream_part (k : Nat) : (opAstream n c e s).part 0 k t = runUnits n c (asUnit n c e s) k 0 t := rfl

theorem unitsFrom_last (unit : Nat → State → State) (k : Nat) : unitsFrom unit 0 (k + 1) t = unit k (unitsFrom unit 0 k t) := by
  simp only [unitsFrom_zero, List.range_succ, List.foldl_append, List.foldl_cons, List.foldl_nil]

/-- State t is u but for the contexts, which read as in i. -/
structure State.Alike (i u t : State) : Prop where
  same : SameBut u t
  ctx : ∀ m k, t.ctx m k = i.ctx m k

/-- A drain's unit whose row is not due writes the row. -/
theorem asUnit_drains {i u : State} {j : Nat} (hmode : asMODE e = false) (hdue : (i.ctx n c).due = none)
    (h : i.Alike u (asStart n e j t)) (hx : ((asDrain n c e s).attempt j 0 ((asDrain n c e s).operands j u)).due = false) :
    i.Alike ((asDrain n c e s).done n (s.engTag n c e) [(asDrain n c e s).attempt j 0 ((asDrain n c e s).operands j u)] u)
      (asUnit n c e s j t) := by
  obtain ⟨y, hy⟩ := sameBut_iff.mp h.same
  have hnone : { (asStart n e j t).ctx n c with due := none } = (asStart n e j t).ctx n c := by
    rw [h.ctx n c, ← hdue]
  have hsettle : asUnit n c e s j t = (asDrain n c e s).settle n c (s.engTag n c e)
      ((asDrain n c e s).attempt j 0 ((asDrain n c e s).operands j u)) (asStart n e j t) := by
    rw [asUnit, hmode, hy]
    rfl
  rw [hsettle, (asDrain_ctxFree n c e s).settle hx, hnone]
  refine ⟨?_, fun m k => (ctx_setCtx_self rfl m k).trans (h.ctx m k)⟩
  rw [hy, (asDrain_ctxFree n c e s).done]
  exact sameBut_iff.mpr ⟨_, rfl⟩
/-- A drain's unit whose row is due leaves the row due. -/
theorem asUnit_due {i u : State} {j : Nat} (hmode : asMODE e = false)
    (h : i.Alike u (asStart n e j t)) (hx : ((asDrain n c e s).attempt j 0 ((asDrain n c e s).operands j u)).due = true) :
    asUnit n c e s j t = (asStart n e j t).setCtx n c { (asStart n e j t).ctx n c with
      due := some ((asDrain n c e s).attempt j 0 ((asDrain n c e s).operands j u)) } := by
  obtain ⟨y, hy⟩ := sameBut_iff.mp h.same
  rw [asUnit, hmode, hy]
  exact if_pos hx

/-- The state that the rows of an ASTREAM start from. -/
def asFirst (n : Nat) (e : Eng) (i : State) : State := if asSWAP e then i.swapArr n (e.op 60 59) else i

theorem asFirst_only (t : State) : asFirst n e t = { t with arr := (asFirst n e t).arr } := by
  unfold asFirst
  split <;> rfl
theorem asFirst_effect (t : State) : t.TileEffect l (asFirst n e t) := by
  rw [asFirst_only]
  exact .of_same rfl rfl rfl rfl
theorem asStart_zero (unit : Nat → State → State) (t : State) : asStart n e 0 (unitsFrom unit 0 0 t) = asFirst n e t := by
  simp [asStart, asFirst, unitsFrom]
theorem asStart_succ (j : Nat) (t : State) : asStart n e (j + 1) t = t := by
  simp [asStart]

/-- The state of a drain after its first r rows, none of them due again, and the tile that row r makes in it. -/
def asDrained (n c : Nat) (e : Eng) (s i : State) (r : Nat) : State :=
  drainRows (asDrain n c e s) n (s.engTag n c e) r (asFirst n e i)
def asTile (n c : Nat) (e : Eng) (s i : State) (r : Nat) : DotTile :=
  (asDrain n c e s).attempt r 0 ((asDrain n c e s).operands r (asDrained n c e s i r))

/-- The units of a drain while no row is due. -/
theorem unitsFrom_drains {i : State} {m : Nat} (hmode : asMODE e = false) (hdue : (i.ctx n c).due = none)
    (hx : ∀ r < m, (asTile n c e s i r).due = false) :
    i.Alike (asDrained n c e s i m) (asStart n e m (unitsFrom (asUnit n c e s) 0 m i)) := by
  induction m with
  | zero =>
    rw [asStart_zero]
    exact ⟨SameBut.refl _, fun m k => by rw [State.ctx, asFirst_only]; rfl⟩
  | succ m ih =>
    rw [asStart_succ, unitsFrom_last, asDrained, drainRows_succ]
    exact asUnit_drains hmode hdue (ih fun r hr => hx r (by omega)) (hx m (by omega))

theorem asRows_of_drain (hmode : asMODE e = false) : asRows s n c e = s.dotS n c (asFields e) 0 := by
  simp [asRows, hmode]

end

section
variable {a : Issue} {e : Eng} {s : State}

theorem opAstream_total_of_drain (hmode : asMODE e = false) (t : State) :
    (opAstream a.folio.val a.ctx.val e s).total t = s.dotS a.folio.val a.ctx.val (asFields e) 0 := by
  simp only [opAstream, hmode, Bool.false_eq_true, if_false, asRows_of_drain]

/-- A drain of which no row is due again completes. -/
theorem astream_drains (h : LongIssues opAstream a e s) (hmode : asMODE e = false)
    (hx : ∀ r < s.dotS a.folio.val a.ctx.val (asFields e) 0, (asTile a.folio.val a.ctx.val e s (issued a e s) r).due = false) :
    CompletesLong (exec (.astream a e) s) a e s (fun t =>
      SameBut (asDrained a.folio.val a.ctx.val e s (issued a e s) (s.dotS a.folio.val a.ctx.val (asFields e) 0)) t ∧
      t.array a.folio.val (e.op 60 59) = (asFirst a.folio.val e (issued a e s)).array a.folio.val (e.op 60 59) ∧
      t.vat = (issued a e s).vat ∧ t.jobs = (issued a e s).jobs ∧
      StoresOnly (asStores a.folio.val a.ctx.val e s (s.dotS a.folio.val a.ctx.val (asFields e) 0)) (issued a e s) t) := by
  have ⟨_, hclear, _⟩ := h
  obtain ⟨hd, hrows, -⟩ := opAstream_clear hclear
  have hs := longStarts h
  have hpos := hrows hmode
  rw [asRows_of_drain hmode] at hpos
  generalize htotal : s.dotS a.folio.val a.ctx.val (asFields e) 0 = total at *
  have halike (j : Nat) (hj : j < total) := unitsFrom_drains (m := j + 1) hmode hs.due fun r hr => hx r (by omega)
  simp only [asStart_succ] at halike
  have hall := halike (total - 1) (by omega)
  rw [Nat.sub_add_cancel (by omega)] at hall
  have hfirst := asFirst_effect (n := a.folio.val) (e := e) (l := asStores a.folio.val a.ctx.val e s total) (issued a e s)
  obtain ⟨heff, harr⟩ := drainRows_effect (tag := s.engTag a.folio.val a.ctx.val e) hd (hs.keys.of_regs hfirst.regs) (le_refl total)
  have hreach := hfirst.trans heff
  refine completesLong_of_units h rfl (fun k t => opAstream_part k) (fun t => (opAstream_total_of_drain hmode t).trans htotal)
    (fun j hj => by rw [(halike j hj).ctx, hs.due]) hall.ctx fun t ht => ?_
  obtain ⟨y, hy⟩ := sameBut_iff.mp hall.same
  obtain ⟨z, rfl⟩ := sameBut_iff.mp ht
  rw [hy]
  exact ⟨sameBut_iff.mpr ⟨_, rfl⟩, congrArg (fun x => Sp.get (fun _ => ArrSt.reset) x _) harr, hreach.vat, hreach.jobs, hreach.stores⟩
/-- At the first row of a drain that is due the context stays inside the instruction. -/
theorem astream_stays (h : LongIssues opAstream a e s) (hmode : asMODE e = false) {r : Nat}
    (hr : r < s.dotS a.folio.val a.ctx.val (asFields e) 0)
    (hx : ∀ q < r, (asTile a.folio.val a.ctx.val e s (issued a e s) q).due = false)
    (hdue : (asTile a.folio.val a.ctx.val e s (issued a e s) r).due = true) :
    Next (exec (.astream a e) s) (StaysDue 0x11 1 a e s (r + 1) (asTile a.folio.val a.ctx.val e s (issued a e s) r)
      (asDrained a.folio.val a.ctx.val e s (issued a e s) r)) := by
  have hs := longStarts h
  have halike (j : Nat) (hj : j < r) := unitsFrom_drains (m := j + 1) hmode hs.due fun q hq => hx q (by omega)
  simp only [asStart_succ] at halike
  have hbefore := unitsFrom_drains hmode hs.due hx
  have hlast := asUnit_due hmode hbefore hdue
  refine staysDue_of_units h rfl (fun k t => opAstream_part k) (opAstream_total_of_drain hmode) hr
    (fun j hj => by rw [(halike j hj).ctx, hs.due]) ?_ ?_
  · rw [unitsFrom_last, hlast, State.ctx_setCtx_same]
    rfl
  · rw [unitsFrom_last, hlast]
    exact sameBut_setCtx _ _ hbefore.same _

end

/-! ## Accumulate mode (R115) -/

section
variable {n c : Nat} {e : Eng} {s t : State} {j : Nat}

/-- The tile that the instruction opens. -/
def asOpened (n c : Nat) (e : Eng) (s : State) : OpenTile :=
  { ctx := c, tag := s.engTag n c e, slot := asSlot s n c e, m := asM e, cols := asN e, fmt := e.fmt, cplx := e.cplx, strict := e.strict,
    len := (asCfg s n c e 0).len, chunks := 0, accs := List.replicate (asM e * asN e) (accsZero e.strict e.cplx) }
/-- The open tile as row j finds it, and as it leaves it. -/
def asTaken (n c : Nat) (e : Eng) (s : State) (j : Nat) (t : State) : OpenTile :=
  if asFIRST e && j == 0 then asOpened n c e s else ((t.array n (e.op 60 59)).tileAt (asSlot s n c e)).getD (asOpened n c e s)
def asGiven (n c : Nat) (e : Eng) (s : State) (j : Nat) (t : State) : OpenTile :=
  let x := asTaken n c e s j t
  { x with
    accs := x.accs.take (j * asN e) ++ asAccs s n c e x.chunks j t ((x.accs.drop (j * asN e)).take (asN e)) ++ x.accs.drop ((j + 1) * asN e)
    chunks := if j + 1 == asM e then x.chunks + 1 else x.chunks }
/-- The chunks that the tile had taken before row j. -/
def asChunksAt (n c : Nat) (e : Eng) (s : State) (j : Nat) (t : State) : Nat :=
  if asFIRST e && j == 0 then 0 else (((t.array n (e.op 60 59)).tileAt (asSlot s n c e)).map OpenTile.chunks).getD 0
theorem asChunksAt_zero : asChunksAt n c e s 0 t =
    if asFIRST e then 0 else (((t.array n (e.op 60 59)).tileAt (asSlot s n c e)).map OpenTile.chunks).getD 0 := by
  simp [asChunksAt]
/-- The array with its tile of the slot replaced by `l`. -/
def ArrSt.putTiles (a : ArrSt) (slot : Nat) (l : List OpenTile) : ArrSt := { a with tiles := a.tiles.filter (fun y => y.slot != slot) ++ l }

theorem asAccumRow_open (h : (asLAST e && j + 1 == asM e) = false) : asAccumRow n c e s j t =
    (t.setArray n (e.op 60 59) ((t.array n (e.op 60 59)).putTiles (asSlot s n c e) [asGiven n c e s j t])).setSlots n (e.op 60 59)
      (asSlot s n c e) (asN e) (asCfg s n c e 0).slot (asCfg s n c e 0).pair (asGiven n c e s j t).accs :=
  if_neg (by rw [h]; exact Bool.false_ne_true)

theorem find?_filter_slot {l : List OpenTile} {slot r : Nat} (h : r ≠ slot) :
    (l.filter (fun y => y.slot != slot)).find? (fun y => y.slot == r) = l.find? (fun y => y.slot == r) := by
  rw [List.find?_filter]
  congr 1
  funext y
  by_cases hy : y.slot = r <;> simp [hy, h]
theorem ArrSt.tileAt_putTiles_ne {a : ArrSt} {slot r : Nat} {l : List OpenTile} (hl : ∀ y ∈ l, y.slot = slot) (h : r ≠ slot) :
    (a.putTiles slot l).tileAt r = a.tileAt r := by
  have hnone : l.find? (fun y => y.slot == r) = none := by
    simp only [List.find?_eq_none, beq_iff_eq]
    exact fun y hy hr => h (hr.symm.trans (hl y hy))
  rw [ArrSt.tileAt, ArrSt.putTiles, List.find?_append, find?_filter_slot h, hnone, Option.or_none]
  rfl
theorem ArrSt.tileAt_putTiles_same {a : ArrSt} {slot : Nat} {l : List OpenTile} (hl : ∀ y ∈ l, y.slot = slot) :
    (a.putTiles slot l).tileAt slot = l.head? := by
  have hrest : (a.tiles.filter (fun y => y.slot != slot)).find? (fun y => y.slot == slot) = none := by
    simp
  rw [ArrSt.tileAt, ArrSt.putTiles, List.find?_append, hrest, Option.none_or]
  cases l with
  | nil => rfl
  | cons y l => simp [hl y List.mem_cons_self]

theorem asTaken_slot : (asTaken n c e s j t).slot = asSlot s n c e := by
  unfold asTaken
  split
  · rfl
  · cases hx : (t.array n (e.op 60 59)).tileAt (asSlot s n c e) with
    | none => rfl
    | some x => simpa using List.find?_some hx
theorem asTaken_chunks : (asTaken n c e s j t).chunks = asChunksAt n c e s j t := by
  unfold asTaken asChunksAt
  split
  · rfl
  · cases (t.array n (e.op 60 59)).tileAt (asSlot s n c e) <;> rfl

/-- A row that does not close the tile. -/
theorem asAccumRow_opens (h : (asLAST e && j + 1 == asM e) = false) :
    asAccumRow n c e s j t = { t with arr := (asAccumRow n c e s j t).arr, accf := (asAccumRow n c e s j t).accf } ∧
      (asAccumRow n c e s j t).array n (e.op 60 59) = (t.array n (e.op 60 59)).putTiles (asSlot s n c e) [asGiven n c e s j t] := by
  rw [asAccumRow_open h]
  exact ⟨rfl, array_setArray_same t _ _ _⟩
/-- The row that closes the tile. -/
theorem asAccumRow_closes (h : (asLAST e && j + 1 == asM e) = true) (hd : (asFields e).DestOk) (hk : s.SameKeys n c t) :
    t.TileEffect (asStores n c e s (asM e)) (asAccumRow n c e s j t) ∧ (asAccumRow n c e s j t).ctxs = t.ctxs ∧
      (asAccumRow n c e s j t).array n (e.op 60 59) = (t.array n (e.op 60 59)).putTiles (asSlot s n c e) [] := by
  unfold asAccumRow
  extract_lets k slot a g cols last fresh x accs x' rest t1 t2 sat t3
  rw [if_pos h]
  have hput : t2.array n k = a.putTiles slot [] := by
    rw [array_setArray_same, ArrSt.putTiles, List.append_nil]
  obtain ⟨hput1, hputc⟩ : t.TileEffect (asStores n c e s (asM e)) t2 ∧ t2.ctxs = t.ctxs := by
    obtain ⟨h1, h1'⟩ := setArray_effect (t := t) (n := n) (k := k) (l := asStores n c e s (asM e)) { a with tiles := rest ++ [x'] }
    obtain ⟨h2, h2', -⟩ := setSlots_effect (t := t.setArray n k { a with tiles := rest ++ [x'] }) (n := n) (l := asStores n c e s (asM e))
      k slot cols g.slot g.pair accs
    obtain ⟨h3, h3'⟩ := setArray_effect (t := t1) (n := n) (k := k) (l := asStores n c e s (asM e)) { a with tiles := rest }
    exact ⟨(h1.trans h2).trans h3, h3'.trans (h2'.trans h1')⟩
  clear_value t2
  have hcount : t2.TileEffect (asStores n c e s (asM e)) t3 ∧ t3.ctxs = t2.ctxs ∧ t3.arr = t2.arr := by
    dsimp only [t3]
    split
    · exact ⟨.of_same rfl rfl rfl rfl, rfl, rfl⟩
    · exact ⟨.refl t2, rfl, rfl⟩
  clear_value t3
  obtain ⟨heff, hctxs, harr⟩ := hcount
  replace heff := hput1.trans heff
  replace hctxs := hctxs.trans hputc
  have hrows := outRows_effect (unit := k) (tag := s.engTag n c e) (cols := cols) (l := asStores n c e s (asM e)) (count := asN e)
    (row := fun r => ⟨r, 0, r, ((accs.drop (r * cols)).take cols).map (fun as => (0, accsValue e.strict as))⟩) (xs := List.range (asM e))
    hd (hk.of_regs heff.regs) (fun r _ => by simp [cols])
    (fun r hr => rowStores_subset_asStores (List.mem_range.mp hr))
  obtain ⟨hreff, hrarr, hrctxs⟩ := hrows
  exact ⟨heff.trans hreff, hrctxs.trans hctxs, (congrArg (fun x => Sp.get (fun _ => ArrSt.reset) x _) (hrarr.trans harr)).trans hput⟩

/-- The state after m rows of a pass. -/
def asAccumed (n c : Nat) (e : Eng) (s i : State) (m : Nat) : State :=
  (List.range m).foldl (fun t r => asAccumRow n c e s r t) (asFirst n e i)
theorem asAccumed_succ (i : State) (m : Nat) : asAccumed n c e s i (m + 1) = asAccumRow n c e s m (asAccumed n c e s i m) := by
  simp only [asAccumed, List.range_succ, List.foldl_append, List.foldl_cons, List.foldl_nil]
theorem unitsFrom_accums (i : State) (m : Nat) (hmode : asMODE e = true) :
    asStart n e m (unitsFrom (asUnit n c e s) 0 m i) = asAccumed n c e s i m := by
  induction m with
  | zero => exact asStart_zero _ i
  | succ m ih => rw [asStart_succ, unitsFrom_last, asUnit, if_pos hmode, ih, asAccumed_succ]

/-- m rows of a pass that leaves the tile open, from state i to state u. -/
structure AccumOpen (n c : Nat) (e : Eng) (s i : State) (m : Nat) (u : State) : Prop where
  only : u = { i with arr := u.arr, accf := u.accf }
  act : (u.array n (e.op 60 59)).act = (i.array n (e.op 60 59)).act
  others : ∀ r, r ≠ asSlot s n c e → (u.array n (e.op 60 59)).tileAt r = (i.array n (e.op 60 59)).tileAt r
  isOpen : 0 < m → ((u.array n (e.op 60 59)).tileAt (asSlot s n c e)).isSome
  chunks : asChunksAt n c e s m u = asChunksAt n c e s 0 i + if m = asM e then 1 else 0

theorem AccumOpen.step {i u : State} {m : Nat} (h : AccumOpen n c e s i m u) (hm : m < asM e)
    (hopen : (asLAST e && m + 1 == asM e) = false) : AccumOpen n c e s i (m + 1) (asAccumRow n c e s m u) := by
  obtain ⟨honly, harr⟩ := asAccumRow_opens (n := n) (c := c) (s := s) (t := u) hopen
  have hslot : ∀ y ∈ [asGiven n c e s m u], y.slot = asSlot s n c e := fun y hy => by
    rw [List.mem_singleton.mp hy]
    exact asTaken_slot
  have hat : ((asAccumRow n c e s m u).array n (e.op 60 59)).tileAt (asSlot s n c e) = some (asGiven n c e s m u) := by
    rw [harr, ArrSt.tileAt_putTiles_same hslot]
    rfl
  refine ⟨?_, ?_, fun r hr => ?_, fun _ => ?_, ?_⟩
  · rw [honly, h.only]
  · rw [harr, ← h.act]
    rfl
  · rw [harr, ArrSt.tileAt_putTiles_ne hslot hr, h.others r hr]
  · rw [hat]
    rfl
  · have hbefore := h.chunks
    rw [if_neg (by omega : m ≠ asM e), Nat.add_zero, ← asTaken_chunks] at hbefore
    rw [asChunksAt, hat, ← hbefore]
    simp only [asGiven, beq_iff_eq, Nat.succ_ne_zero, and_false, Bool.and_eq_true]
    simp
    split <;> rfl
theorem asAccumed_open {i : State} {m : Nat} (hpos : asM e ≠ 0) (hm : m ≤ asM e) (hopen : asLAST e = true → m < asM e) :
    AccumOpen n c e s (asFirst n e i) m (asAccumed n c e s i m) := by
  induction m with
  | zero =>
    refine ⟨rfl, rfl, fun _ _ => rfl, fun h => absurd h (lt_irrefl 0), ?_⟩
    rw [if_neg (Ne.symm hpos), Nat.add_zero]
    rfl
  | succ m ih =>
    rw [asAccumed_succ]
    refine (ih (by omega) fun h => by have := hopen h; omega).step (by omega) ?_
    cases hlast : asLAST e with
    | false => rfl
    | true =>
      have := hopen hlast
      simp
      omega

/-- A pass that may close its tile. -/
theorem asAccumed_closes {i : State} (hd : (asFields e).DestOk) (hk : s.SameKeys n c i) (hpos : asM e ≠ 0) (hlast : asLAST e = true) :
    i.TileEffect (asStores n c e s (asM e)) (asAccumed n c e s i (asM e)) ∧ (asAccumed n c e s i (asM e)).ctxs = i.ctxs ∧
      ∃ y, (asAccumed n c e s i (asM e)).array n (e.op 60 59) = ArrSt.putTiles y (asSlot s n c e) [] ∧
        y.act = ((asFirst n e i).array n (e.op 60 59)).act ∧
        ∀ r, r ≠ asSlot s n c e → y.tileAt r = ((asFirst n e i).array n (e.op 60 59)).tileAt r := by
  obtain ⟨m, hm⟩ := Nat.exists_eq_succ_of_ne_zero hpos
  have hopen := asAccumed_open (n := n) (c := c) (s := s) (i := i) hpos (m := m) (by omega) (fun _ => by omega)
  have hbefore : i.TileEffect (asStores n c e s (asM e)) (asAccumed n c e s i m) := by
    rw [hopen.only]
    exact (asFirst_effect i).trans (.of_same rfl rfl rfl rfl)
  have hctxs : (asAccumed n c e s i m).ctxs = i.ctxs := by
    rw [hopen.only, asFirst_only]
  obtain ⟨heff, hcctxs, harr⟩ := asAccumRow_closes (n := n) (c := c) (e := e) (j := m) (by simp [hlast, hm]) hd (hk.of_regs hbefore.regs)
  rw [← asAccumed_succ, ← Nat.succ_eq_add_one, ← hm] at heff hcctxs harr
  exact ⟨hbefore.trans heff, hcctxs.trans hctxs, _, harr, hopen.act, hopen.others⟩

theorem asAccumed_ctxs {i : State} {m : Nat} (hd : (asFields e).DestOk) (hk : s.SameKeys n c i) (hpos : asM e ≠ 0) (hm : m ≤ asM e) :
    (asAccumed n c e s i m).ctxs = i.ctxs := by
  by_cases hopen : asLAST e = true → m < asM e
  · rw [(asAccumed_open hpos hm hopen).only, asFirst_only]
  · obtain ⟨hlast, hend⟩ := Classical.not_imp.mp hopen
    obtain rfl : m = asM e := by omega
    exact (asAccumed_closes hd hk hpos hlast).2.1

end

section
variable {a : Issue} {e : Eng} {s : State}

/-- A pass of accumulate mode completes. -/
theorem astream_accumulates (h : LongIssues opAstream a e s) (hmode : asMODE e = true) : CompletesLong (exec (.astream a e) s) a e s (fun t =>
    SameBut (asAccumed a.folio.val a.ctx.val e s (issued a e s) (asM e)) t ∧
    (t.array a.folio.val (e.op 60 59)).act = ((asFirst a.folio.val e (issued a e s)).array a.folio.val (e.op 60 59)).act ∧
    (∀ r, r ≠ asSlot s a.folio.val a.ctx.val e → (t.array a.folio.val (e.op 60 59)).tileAt r =
      ((asFirst a.folio.val e (issued a e s)).array a.folio.val (e.op 60 59)).tileAt r) ∧
    (asLAST e = true → (t.array a.folio.val (e.op 60 59)).tileAt (asSlot s a.folio.val a.ctx.val e) = none ∧ t.vat = (issued a e s).vat ∧
      t.jobs = (issued a e s).jobs ∧ StoresOnly (asStores a.folio.val a.ctx.val e s (asM e)) (issued a e s) t) ∧
    (asLAST e = false → (∃ x, (t.array a.folio.val (e.op 60 59)).tileAt (asSlot s a.folio.val a.ctx.val e) = some x ∧
      x.chunks = (if asFIRST e then 0 else ((((asFirst a.folio.val e (issued a e s)).array a.folio.val (e.op 60 59)).tileAt
        (asSlot s a.folio.val a.ctx.val e)).map OpenTile.chunks).getD 0) + 1) ∧
      t = { issued a e s with arr := t.arr, accf := t.accf, ctxs := t.ctxs })) := by
  have ⟨_, hclear, _⟩ := h
  obtain ⟨hd, -, hm⟩ := opAstream_clear hclear
  have hpos := hm hmode
  have hs := longStarts h
  have hunits (j : Nat) (hj : j < asM e) := unitsFrom_accums (n := a.folio.val) (c := a.ctx.val) (s := s) (issued a e s) (j + 1) hmode
  simp only [asStart_succ] at hunits
  have hctxs {m : Nat} (hm : m ≤ asM e) (q k : Nat) :
      (asAccumed a.folio.val a.ctx.val e s (issued a e s) m).ctx q k = (issued a e s).ctx q k := by
    rw [State.ctx, asAccumed_ctxs hd hs.keys hpos hm]
    rfl
  have hall := hunits (asM e - 1) (by omega)
  rw [Nat.sub_add_cancel (by omega)] at hall
  refine completesLong_of_units h rfl (fun k t => opAstream_part k) (fun t => if_pos hmode)
    (fun j hj => by rw [hunits j hj, hctxs (by omega), hs.due]) (fun q k => by rw [hall, hctxs (le_refl _)]) fun t ht => ?_
  rw [hall] at ht
  have harr : t.array a.folio.val (e.op 60 59) = (asAccumed a.folio.val a.ctx.val e s (issued a e s) (asM e)).array a.folio.val (e.op 60 59) := by
    obtain ⟨z, rfl⟩ := sameBut_iff.mp ht
    rfl
  refine ⟨ht, ?_⟩
  rw [harr]
  cases hlast : asLAST e with
  | true =>
    obtain ⟨heff, -, y, hy, hact, hothers⟩ := asAccumed_closes hd hs.keys hpos hlast
    obtain ⟨z, rfl⟩ := sameBut_iff.mp ht
    rw [hy]
    refine ⟨hact, fun r hr => ?_, fun _ => ⟨?_, heff.vat, heff.jobs, heff.stores⟩, fun hl => absurd hl (by decide)⟩
    · rw [ArrSt.tileAt_putTiles_ne (by simp) hr, hothers r hr]
    · exact ArrSt.tileAt_putTiles_same (by simp)
  | false =>
    have hopen := asAccumed_open (n := a.folio.val) (c := a.ctx.val) (s := s) (i := issued a e s) hpos (le_refl (asM e)) (by simp [hlast])
    obtain ⟨x, hx⟩ := Option.isSome_iff_exists.mp (hopen.isOpen (by omega))
    have hchunks := hopen.chunks
    rw [if_pos rfl, asChunksAt_zero, asChunksAt, hx] at hchunks
    refine ⟨hopen.act, hopen.others, fun hl => absurd hl (by decide), fun _ => ⟨⟨x, hx, ?_⟩, ?_⟩⟩
    · rw [← hchunks]
      simp [hpos]
    · rw [ht, hopen.only, asFirst_only]

end

theorem swapArr_act (t : State) (n k : Nat) : ((t.swapArr n k).array n k).act = (t.array n k).shd := by
  rw [State.swapArr, array_setArray_same]
  rfl

/-- Settles O34: a drain's units follow `drainRows` row by row; a pass of accumulate mode keeps `AccumOpen` until its last row. -/
theorem arrayStreams : Obligations.ArrayStreams := by
  intro a e s n c k i t0 tag d rows u x stores slot h
  refine ⟨fun hswap => ?_, fun hmode hx => astream_drains h hmode hx, fun hmode r hr hx hdue => astream_stays h hmode hr hx hdue,
    fun hmode => astream_accumulates h hmode⟩
  dsimp only [t0]
  rw [if_pos hswap, swapArr_act]

end Sys2Proof.Machine
end

-- ==== AFOLD: O35 ====
section
/-! SUPPORT. AFOLD (R92, R96, R122, R123, R126). In order: which row of which output tile a unit is; the array after a unit; what a unit
that leaves no tile due changes; the units one after another. -/

namespace Sys2Proof.Machine

open Sys2Proof.Claims

/-! ## The place of a unit in the fold (R122) -/

/-- With output tiles of at most R of M rows and T passes each: the tile of unit y of a group, and the unit's place in it, lie inside. -/
theorem tile_bounds {T M R y : Nat} (hR : 0 < R) (hy : y < T * M) :
    y / (T * R) * R < M ∧ y % (T * R) < T * min R (M - y / (T * R) * R) := by
  have hsplit : T * R * (y / (T * R)) + y % (T * R) = y := Nat.div_add_mod y (T * R)
  generalize y / (T * R) = h at *
  have hW : T * R * h = T * (h * R) := by ring
  have hlt : h * R < M := Nat.lt_of_mul_lt_mul_left (a := T) (by omega)
  have hT : 0 < T := Nat.pos_of_ne_zero fun h0 => by simp [h0] at hy
  refine ⟨hlt, ?_⟩
  obtain hmin | hmin := min_choice R (M - h * R) <;> rw [hmin]
  · exact Nat.mod_lt _ (Nat.mul_pos hT hR)
  · rw [Nat.mul_sub]
    omega
/-- The unit behind the last one of a tile begins a tile; any other goes on in its tile. -/
theorem tile_next {T M R y : Nat} (hR : 0 < R) (hy : y < T * M) :
    (y % (T * R) + 1 = T * min R (M - y / (T * R) * R) → (y + 1) % (T * M) % (T * R) = 0) ∧
    (y % (T * R) + 1 < T * min R (M - y / (T * R) * R) →
      y + 1 < T * M ∧ (y + 1) / (T * R) = y / (T * R) ∧ (y + 1) % (T * R) = y % (T * R) + 1) := by
  obtain ⟨hlt, -⟩ := tile_bounds hR hy
  have hsplit : T * R * (y / (T * R)) + y % (T * R) = y := Nat.div_add_mod y (T * R)
  have hT : 0 < T := Nat.pos_of_ne_zero fun h0 => by simp [h0] at hy
  generalize y / (T * R) = h at *
  generalize y % (T * R) = z at *
  have hW : T * R * h = T * (h * R) := by ring
  have hle : T * min R (M - h * R) ≤ T * R := Nat.mul_le_mul_left T (min_le_left _ _)
  have hend : T * min R (M - h * R) ≤ T * M - T * (h * R) := by
    rw [← Nat.mul_sub]
    exact Nat.mul_le_mul_left T (min_le_right _ _)
  have hhead : T * (h * R) < T * M := Nat.mul_lt_mul_of_pos_left hlt hT
  refine ⟨fun hlast => ?_, fun hmore => ?_⟩
  · obtain hmin | hmin := min_choice R (M - h * R) <;> rw [hmin] at hlast
    · have hy1 : y + 1 = T * R * (h + 1) := by rw [Nat.mul_succ]; omega
      obtain hfull | hfull := (show y + 1 ≤ T * M from hy).lt_or_eq
      · rw [Nat.mod_eq_of_lt hfull, hy1, Nat.mul_mod_right]
      · rw [hfull, Nat.mod_self, Nat.zero_mod]
    · rw [Nat.mul_sub] at hlast
      have hy1 : y + 1 = T * M := by omega
      rw [hy1, Nat.mod_self, Nat.zero_mod]
  · have hnext := (Nat.div_mod_unique (a := y + 1) (b := T * R) (c := z + 1) (d := h) (Nat.mul_pos hT hR)).mpr ⟨by omega, by omega⟩
    exact ⟨by omega, hnext⟩

section
variable (s : State) (e : Eng) (x : Nat)

/-- The group of columns of unit x, its output tile in the group and its number, and its place in the tile. -/
def afG : Nat := x / (afTilesK e * afM e)
def afH : Nat := x % (afTilesK e * afM e) / (afTilesK e * afRows s e)
def afIdx : Nat := afG e x * afGroups s e + afH s e x
def afZ : Nat := x % (afTilesK e * afM e) - afH s e x * (afTilesK e * afRows s e)
/-- Its pass and its row in the tile. -/
def afU : Nat := afZ s e x / afTileRows s e (afIdx s e x)
def afI : Nat := afZ s e x % afTileRows s e (afIdx s e x)
/-- Is it the last unit of its tile? -/
def afEnds : Prop := afU s e x + 1 = afTilesK e ∧ afI s e x + 1 = afTileRows s e (afIdx s e x)

end

section
variable {s : State} {e : Eng} {x : Nat}

theorem slotsOf_bounds (f : Fmt) (strict cplx : Bool) (len : Nat) : 0 < slotsOf f strict cplx len ∧ slotsOf f strict cplx len ≤ 6 := by
  unfold slotsOf
  split_ifs <;> decide
theorem afM_pos : 0 < afM e := Nat.succ_pos _
theorem afTilesK_pos : 0 < afTilesK e := by
  simp only [afTilesK, afK]
  omega
theorem afRows_pos : 0 < afRows s e := by
  obtain ⟨hpos, hle⟩ := slotsOf_bounds (fmtOf s.level e.fmt) e.strict e.cplx (afK e)
  exact lt_min afM_pos (Nat.div_pos (hle.trans (by decide)) hpos)
theorem afPer_pos : 0 < afTilesK e * afM e := Nat.mul_pos afTilesK_pos afM_pos
theorem mod_afPer_lt : x % (afTilesK e * afM e) < afTilesK e * afM e := Nat.mod_lt _ afPer_pos

theorem afZ_eq : afZ s e x = x % (afTilesK e * afM e) % (afTilesK e * afRows s e) := by
  rw [afZ, afH, ← Nat.mod_eq_sub_div_mul]
theorem afH_lt : afH s e x < afGroups s e := by
  have hlt : afH s e x * afRows s e < afM e := (tile_bounds afRows_pos mod_afPer_lt).1
  have hR := afRows_pos (s := s) (e := e)
  rw [afGroups, Nat.lt_iff_add_one_le, Nat.le_div_iff_mul_le hR, Nat.succ_mul]
  omega
theorem afIdx_div : afIdx s e x / afGroups s e = afG e x := by
  rw [afIdx, Nat.add_comm, Nat.add_mul_div_right _ _ (Nat.zero_lt_of_lt (afH_lt (x := x))), Nat.div_eq_of_lt afH_lt, Nat.zero_add]
theorem afIdx_mod : afIdx s e x % afGroups s e = afH s e x := by
  rw [afIdx, Nat.add_comm, Nat.add_mul_mod_self_right, Nat.mod_eq_of_lt afH_lt]
theorem afTileRows_eq : afTileRows s e (afIdx s e x) = min (afRows s e) (afM e - afH s e x * afRows s e) := by
  rw [afTileRows, afIdx_mod]
theorem afZ_lt : afZ s e x < afTilesK e * afTileRows s e (afIdx s e x) := by
  rw [afZ_eq, afTileRows_eq]
  exact (tile_bounds afRows_pos mod_afPer_lt).2
theorem afTileRows_pos : 0 < afTileRows s e (afIdx s e x) :=
  Nat.pos_of_ne_zero fun h => by simpa [h] using afZ_lt (s := s) (e := e) (x := x)
theorem afI_lt : afI s e x < afTileRows s e (afIdx s e x) := Nat.mod_lt _ afTileRows_pos
theorem afZ_zero : afZ s e 0 = 0 := by
  rw [afZ_eq, Nat.zero_mod, Nat.zero_mod]
/-- A row of a tile is a row of the result. -/
theorem afRow_lt {i : Nat} (hi : i < afTileRows s e (afIdx s e x)) : afH s e x * afRows s e + i < afM e := by
  rw [afTileRows_eq] at hi
  have := hi.trans_le (min_le_right _ _)
  omega

theorem afEnds_iff : afEnds s e x ↔ afZ s e x + 1 = afTilesK e * afTileRows s e (afIdx s e x) := by
  have hrows := afTileRows_pos (s := s) (e := e) (x := x)
  have hi := afI_lt (s := s) (e := e) (x := x)
  have hz : afTileRows s e (afIdx s e x) * afU s e x + afI s e x = afZ s e x := Nat.div_add_mod _ _
  unfold afEnds
  generalize afTileRows s e (afIdx s e x) = rows at *
  generalize afU s e x = u at *
  generalize afI s e x = i at *
  constructor
  · rintro ⟨hu, hlast⟩
    rw [← hu, Nat.succ_mul, Nat.mul_comm u]
    omega
  · intro hend
    have hdvd : rows ∣ i + 1 := (Nat.dvd_add_right (Dvd.intro u rfl)).mp ⟨afTilesK e, by rw [Nat.mul_comm rows (afTilesK e)]; omega⟩
    have hlast : i + 1 = rows := le_antisymm hi (Nat.le_of_dvd i.succ_pos hdvd)
    refine ⟨Nat.eq_of_mul_eq_mul_right hrows ?_, hlast⟩
    rw [Nat.succ_mul, Nat.mul_comm u]
    omega
theorem afZ_succ_of_ends (h : afEnds s e x) : afZ s e (x + 1) = 0 := by
  rw [afEnds_iff, afTileRows_eq, afZ_eq] at h
  rw [afZ_eq, ← Nat.mod_add_mod]
  exact (tile_next afRows_pos mod_afPer_lt).1 h
/-- A unit that does not end its tile is followed by one of the same tile. -/
theorem afIdx_succ (h : ¬afEnds s e x) : afIdx s e (x + 1) = afIdx s e x ∧ afG e (x + 1) = afG e x ∧ afZ s e (x + 1) = afZ s e x + 1 := by
  have hmore : afZ s e x + 1 < afTilesK e * afTileRows s e (afIdx s e x) :=
    Nat.lt_of_le_of_ne afZ_lt (mt afEnds_iff.mpr h)
  rw [afTileRows_eq, afZ_eq] at hmore
  obtain ⟨hper, hdiv, hplace⟩ := (tile_next afRows_pos mod_afPer_lt).2 hmore
  have hsplit : afTilesK e * afM e * (x / (afTilesK e * afM e)) + x % (afTilesK e * afM e) = x := Nat.div_add_mod _ _
  obtain ⟨hg, hmod⟩ := (Nat.div_mod_unique (a := x + 1) (c := x % (afTilesK e * afM e) + 1) (d := x / (afTilesK e * afM e)) afPer_pos).mpr
    ⟨by omega, hper⟩
  have hh : afH s e (x + 1) = afH s e x := by rw [afH, hmod]; exact hdiv
  exact ⟨by rw [afIdx, afIdx, hh, afG, hg]; rfl, hg, by rw [afZ_eq, afZ_eq, hmod, hplace]⟩

end

/-! ## The array after a unit (R122, R126, R130) -/

/-- The array once unit x has loaded what it loads, and begun the tile that it begins. -/
def afLoaded (n c : Nat) (e : Eng) (s : State) (x : Nat) (t : State) : ArrSt :=
  let a := t.array n (e.op 60 59)
  let size := afTileRows s e (afIdx s e x) * afCols e (afG e x)
  let a0 := if afI s e x = 0 then
      (let b := a.load (afTile s n c e (afG e x) (afU s e x) t)
       if (afCfg s n c e 0).f == .fp64 then b else b.swap) else a
  if afU s e x = 0 ∧ afI s e x = 0 then
    { a0 with fold := List.replicate size (accsZero e.strict e.cplx), kept := List.replicate size [] } else a0
/-- The array once the row of unit x has run. -/
def afArr (n c : Nat) (e : Eng) (s : State) (x : Nat) (t : State) : ArrSt :=
  let a := afLoaded n c e s x t
  let i := afI s e x
  let cols := afCols e (afG e x)
  let chs := afChunks s n c e (afIdx s e x) (afU s e x) i (t.setArray n (e.op 60 59) a)
  { a with
    fold := putRow a.fold ((chs.zip ((a.fold.drop (i * cols)).take cols)).map
      (fun p => accsChunk (afCfg s n c e 0) e.cplx (afU s e x) p.1 p.2)) i cols
    kept := putRow a.kept ((((a.kept.drop (i * cols)).take cols).zip chs).map (fun p => p.1 ++ [p.2])) i cols }
/-- The state once the row of unit x has run. -/
def afRan (n c : Nat) (e : Eng) (s : State) (x : Nat) (t : State) : State :=
  ((t.setArray n (e.op 60 59) (afLoaded n c e s x t)).setArray n (e.op 60 59) (afArr n c e s x t)).setSlots n (e.op 60 59) 0
    (afCols e (afG e x)) (afCfg s n c e 0).slot (afCfg s n c e 0).pair (afArr n c e s x t).fold
/-- The tile that ends with unit x, and the state that it is settled in. -/
def afMade (n c : Nat) (e : Eng) (s : State) (x : Nat) (t : State) : DotTile :=
  mkTile (afCfg s n c e 0) e.rbud (afIdx s e x) (afArr n c e s x t).kept (afArr n c e s x t).fold
def afCleared (n c : Nat) (e : Eng) (s : State) (x : Nat) (t : State) : State :=
  (afRan n c e s x t).setArray n (e.op 60 59) { afArr n c e s x t with fold := [], kept := [] }

section
variable {n c : Nat} {e : Eng} {s t : State} {x : Nat}

theorem afUnit_goesOn (h : ¬afEnds s e x) : afUnit n c e s x t = afRan n c e s x t := if_neg h
theorem afUnit_ends (h : afEnds s e x) : afUnit n c e s x t =
    (afInstr n c e s).settle n c (s.engTag n c e) (afMade n c e s x t) (afCleared n c e s x t) := if_pos h

/-- A weight tile of the fold's format is active; save for FP64 it was swapped in. -/
def ArrSt.Active (a : ArrSt) (e : Eng) (s : State) : Prop := a.act.fmt = some e.fmt ∧ (fmtOf s.level e.fmt ≠ .fp64 → a.act = a.shd)

theorem load_tiles (a : ArrSt) (d : TileData) : (a.load d).tiles = a.tiles ∧ (a.load d).fold = a.fold := by
  unfold ArrSt.load
  split <;> exact ⟨rfl, rfl⟩
theorem load_shd_fmt (a : ArrSt) (d : TileData) : (a.load d).shd.fmt = some d.code := by
  unfold ArrSt.load
  split <;> rfl
theorem load_act_fmt (a : ArrSt) {d : TileData} (h : d.f = .fp64) : (a.load d).act.fmt = some d.code := by
  rw [ArrSt.load, h]
  rfl

theorem afLoaded_tiles : (afLoaded n c e s x t).tiles = (t.array n (e.op 60 59)).tiles := by
  unfold afLoaded
  extract_lets a size b a0
  have hload : a0.tiles = a.tiles := by
    dsimp only [a0]
    split
    · split
      · exact (load_tiles _ _).1
      · exact (load_tiles _ _).1
    · rfl
  split <;> exact hload
theorem afLoaded_fold_length (h : afZ s e x ≠ 0 → (t.array n (e.op 60 59)).fold.length ≤ afTileRows s e (afIdx s e x) * afCols e (afG e x)) :
    (afLoaded n c e s x t).fold.length ≤ afTileRows s e (afIdx s e x) * afCols e (afG e x) := by
  unfold afLoaded
  extract_lets a size b a0
  have hload : a0.fold = a.fold := by
    dsimp only [a0]
    split
    · split
      · exact (load_tiles _ _).2
      · exact (load_tiles _ _).2
    · rfl
  split
  next => simp [size]
  next hbegins =>
    rw [hload]
    exact h fun hz => hbegins (by simp [afU, afI, hz])
theorem afLoaded_active (hlevel : t.level = s.level) (h : afI s e x ≠ 0 → (t.array n (e.op 60 59)).Active e s) :
    (afLoaded n c e s x t).Active e s := by
  unfold afLoaded
  extract_lets a size b a0
  have hload : a0.Active e s := by
    dsimp only [a0]
    split
    next =>
      have hf : (afTile s n c e (afG e x) (afU s e x) t).f = fmtOf s.level e.fmt := congrArg (fmtOf · e.fmt) hlevel
      by_cases h64 : fmtOf s.level e.fmt = .fp64
      · have hcfg : (afCfg s n c e 0).f = .fp64 := by
          change (fmtOf s.level e.fmt).expanded = _
          rw [h64]
          rfl
        simp only [hcfg, beq_self_eq_true, if_true]
        exact ⟨load_act_fmt a (hf.trans h64), fun hne => absurd h64 hne⟩
      · have hcfg : (afCfg s n c e 0).f ≠ .fp64 := by
          change (fmtOf s.level e.fmt).expanded ≠ _
          unfold Fmt.expanded
          split
          · decide
          · exact h64
        simp only [beq_iff_eq, hcfg, if_false]
        exact ⟨load_shd_fmt a _, fun _ => rfl⟩
    next hi => exact h hi
  split <;> exact hload

theorem putRow_length_le {α : Type} {l new : List α} {i rows cols : Nat} (hl : l.length ≤ rows * cols) (hnew : new.length ≤ cols)
    (hi : i < rows) : (putRow l new i cols).length ≤ rows * cols := by
  have hrow : i * cols + cols ≤ rows * cols := by
    rw [← Nat.succ_mul]
    exact Nat.mul_le_mul_right cols hi
  simp only [putRow, List.length_append, List.length_take, List.length_drop, Nat.succ_mul]
  omega
theorem afArr_fold_length (h : afZ s e x ≠ 0 → (t.array n (e.op 60 59)).fold.length ≤ afTileRows s e (afIdx s e x) * afCols e (afG e x)) :
    (afArr n c e s x t).fold.length ≤ afTileRows s e (afIdx s e x) * afCols e (afG e x) :=
  putRow_length_le (afLoaded_fold_length h) (by simp) afI_lt
theorem afRan_effect {l : List (Nat × Nat)} : t.TileEffect l (afRan n c e s x t) ∧ (afRan n c e s x t).ctxs = t.ctxs ∧
    (afRan n c e s x t).array n (e.op 60 59) = afArr n c e s x t := by
  unfold afRan
  generalize afArr n c e s x t = y
  generalize afLoaded n c e s x t = z
  obtain ⟨hz, hzc⟩ := setArray_effect (t := t) (n := n) (k := e.op 60 59) (l := l) z
  obtain ⟨hy, hyc⟩ := setArray_effect (t := t.setArray n (e.op 60 59) z) (n := n) (k := e.op 60 59) (l := l) y
  obtain ⟨hs, hsc, harr⟩ := setSlots_effect (t := (t.setArray n (e.op 60 59) z).setArray n (e.op 60 59) y) (n := n) (l := l) (e.op 60 59) 0
    (afCols e (afG e x)) (afCfg s n c e 0).slot (afCfg s n c e 0).pair y.fold
  refine ⟨(hz.trans hy).trans hs, (hsc.trans hyc).trans hzc, ?_⟩
  rw [State.array, harr]
  exact array_setArray_same _ _ _ _
theorem afCleared_effect {l : List (Nat × Nat)} : t.TileEffect l (afCleared n c e s x t) ∧ (afCleared n c e s x t).ctxs = t.ctxs ∧
    (afCleared n c e s x t).array n (e.op 60 59) = { afArr n c e s x t with fold := [], kept := [] } := by
  obtain ⟨hran, hranc, -⟩ := afRan_effect (n := n) (c := c) (e := e) (s := s) (t := t) (x := x) (l := l)
  obtain ⟨hput, hputc⟩ := setArray_effect (t := afRan n c e s x t) (n := n) (k := e.op 60 59) (l := l)
    { afArr n c e s x t with fold := [], kept := [] }
  exact ⟨hran.trans hput, hputc.trans hranc, array_setArray_same _ _ _ _⟩

/-! ## An output tile that completes (R123) -/

/-- The ranges that the rows of the fold store in. -/
def afStores (n c : Nat) (e : Eng) (s : State) : List (Nat × Nat) :=
  (List.range ((afN e + 63) / 64)).flatMap (fun g => (List.range (afM e)).flatMap (fun r =>
    rowStores n c e (afFields e) s r (64 * g) (afCols e g) (g * afM e + r)))
theorem rowStores_subset_afStores {g r : Nat} (hg : g < (afN e + 63) / 64) (hr : r < afM e) :
    rowStores n c e (afFields e) s r (64 * g) (afCols e g) (g * afM e + r) ⊆ afStores n c e s :=
  fun _ hp => List.mem_flatMap.mpr ⟨g, List.mem_range.mpr hg, List.mem_flatMap.mpr ⟨r, List.mem_range.mpr hr, hp⟩⟩
/-- The units of the fold. -/
def afTotal (e : Eng) : Nat := (afN e + 63) / 64 * (afTilesK e * afM e)
theorem afG_lt (h : x < afTotal e) : afG e x < (afN e + 63) / 64 :=
  Nat.div_lt_of_lt_mul (by rwa [Nat.mul_comm])

/-- The row of the result that row i of a tile is. -/
def afOutRow (s : State) (e : Eng) (d : DotTile) (i : Nat) : OutRow :=
  let g := d.idx / afGroups s e
  let r := d.idx % afGroups s e * afRows s e + i
  ⟨r, 64 * g, g * afM e + r, ((d.els e.strict).drop (i * afCols e g)).take (afCols e g)⟩
theorem afInstr_done {tag : Nat} {d : DotTile} : (afInstr n c e s).done n tag [d] t =
    (List.range (d.accs.length / afCols e (d.idx / afGroups s e))).foldl (fun t i =>
      s.outRow n c e (afFields e) (e.op 60 59) (s.engTag n c e) (afN e) t (afOutRow s e d i))
      ((if ([d].filter (fun x => x.sat)).length = 0 then t else t.holdOvr n tag ([d].filter (fun x => x.sat)).length 0).setSlots n (e.op 60 59) 0
        (afCols e (d.idx / afGroups s e)) (afCfg s n c e 0).slot (afCfg s n c e 0).pair d.accs) := rfl
/-- The conversion of a tile stores in the ranges of its rows alone and leaves the arrays. -/
theorem afInstr_done_effect {tag : Nat} {d : DotTile} (hd : (afFields e).DestOk) (hk : s.SameKeys n c t) (hx : x < afTotal e)
    (hidx : d.idx = afIdx s e x) (hlen : d.accs.length ≤ afTileRows s e (afIdx s e x) * afCols e (afG e x)) :
    t.TileEffect (afStores n c e s) ((afInstr n c e s).done n tag [d] t) ∧ ((afInstr n c e s).done n tag [d] t).arr = t.arr := by
  rw [afInstr_done]
  have hg : d.idx / afGroups s e = afG e x := by rw [hidx, afIdx_div]
  have hrow (i : Nat) : afOutRow s e d i = ⟨afH s e x * afRows s e + i, 64 * afG e x, afG e x * afM e + (afH s e x * afRows s e + i),
      ((d.els e.strict).drop (i * afCols e (afG e x))).take (afCols e (afG e x))⟩ := by
    simp only [afOutRow, hidx, afIdx_div, afIdx_mod]
  rw [hg]
  obtain ⟨hcount, hcarr⟩ := counted_effect (t := t) (l := afStores n c e s) (n := n) ([d].filter (fun x => x.sat)).length tag
  generalize (if ([d].filter (fun x => x.sat)).length = 0 then t else t.holdOvr n tag ([d].filter (fun x => x.sat)).length 0) = t1 at *
  obtain ⟨hslots, -, hsarr⟩ := setSlots_effect (t := t1) (n := n) (l := afStores n c e s) (e.op 60 59) 0 (afCols e (afG e x))
    (afCfg s n c e 0).slot (afCfg s n c e 0).pair d.accs
  have hreach := hcount.trans hslots
  obtain ⟨hrows, hrarr, -⟩ := outRows_effect (unit := e.op 60 59) (tag := s.engTag n c e) (cols := afN e) (count := afCols e (afG e x))
    (l := afStores n c e s) (row := afOutRow s e d) (xs := List.range (d.accs.length / afCols e (afG e x))) hd (hk.of_regs hreach.regs)
    (fun i _ => by rw [hrow]; exact List.length_take_le _ _)
    (fun i hi => by
      have hi' : i < afTileRows s e (afIdx s e x) :=
        (List.mem_range.mp hi).trans_le (Nat.div_le_of_le_mul (by rwa [Nat.mul_comm]))
      rw [hrow]
      exact rowStores_subset_afStores (afG_lt hx) (afRow_lt hi'))
  exact ⟨hreach.trans hrows, hrarr.trans (hsarr.trans hcarr)⟩

/-! ## The units one after another -/

/-- What the fold has done from state i, before unit x, while no tile was due again. -/
structure AfHolds (n c : Nat) (e : Eng) (s i : State) (x : Nat) (t : State) : Prop where
  effect : i.TileEffect (afStores n c e s) t
  ctx : ∀ m k, t.ctx m k = i.ctx m k
  tiles : (t.array n (e.op 60 59)).tiles = []
  active : 0 < x → (t.array n (e.op 60 59)).Active e s
  fold : 0 < x → afZ s e x = 0 → (t.array n (e.op 60 59)).fold = []
  length : afZ s e x ≠ 0 → (t.array n (e.op 60 59)).fold.length ≤ afTileRows s e (afIdx s e x) * afCols e (afG e x)

theorem AfHolds.step {i : State} (h : AfHolds n c e s i x t) (hd : (afFields e).DestOk) (hk : s.SameKeys n c i)
    (hdue : (i.ctx n c).due = none) (hx : x < afTotal e) (hnext : ((afUnit n c e s x t).ctx n c).due = none) :
    AfHolds n c e s i (x + 1) (afUnit n c e s x t) := by
  have hkt := hk.of_regs h.effect.regs
  have hpos (hi : afI s e x ≠ 0) : 0 < x := Nat.pos_of_ne_zero fun h0 => by
    subst h0
    simp [afI, afZ_zero] at hi
  have hactive : (afArr n c e s x t).Active e s := afLoaded_active hkt.level fun hi => h.active (hpos hi)
  have htiles : (afArr n c e s x t).tiles = [] := afLoaded_tiles.trans h.tiles
  have hlength := afArr_fold_length (c := c) h.length
  by_cases hends : afEnds s e x
  · obtain ⟨heff, hctxs, harr⟩ := afCleared_effect (n := n) (c := c) (e := e) (s := s) (t := t) (x := x) (l := afStores n c e s)
    have hmade : (afMade n c e s x t).due = false := by
      by_contra hagain
      rw [afUnit_ends hends, DotInstr.settle, if_pos (by simpa using hagain), State.ctx_setCtx_same] at hnext
      exact Option.some_ne_none _ hnext
    have hctx (m k : Nat) : (afCleared n c e s x t).ctx m k = i.ctx m k := by
      rw [State.ctx, hctxs]
      exact h.ctx m k
    have hnone : { (afCleared n c e s x t).ctx n c with due := none } = (afCleared n c e s x t).ctx n c := by
      rw [hctx, ← hdue]
    have hunit := afUnit_ends (n := n) (c := c) (t := t) hends
    rw [(afInstr_ctxFree n c e s).settle hmade, hnone] at hunit
    obtain ⟨hdeff, hdarr⟩ := afInstr_done_effect (tag := s.engTag n c e) (t := afCleared n c e s x t) (d := afMade n c e s x t)
      hd (hkt.of_regs heff.regs) hx rfl hlength
    have hread : (afUnit n c e s x t).array n (e.op 60 59) = { afArr n c e s x t with fold := [], kept := [] } := by
      rw [hunit, ← harr]
      exact congrArg (fun y => Sp.get (fun _ => ArrSt.reset) y _) hdarr
    refine ⟨?_, fun m k => ?_, ?_, fun _ => ?_, fun _ _ => ?_, fun hz => absurd (afZ_succ_of_ends hends) hz⟩
    · rw [hunit]
      exact (h.effect.trans heff).trans (hdeff.trans (.of_same rfl rfl rfl rfl))
    · rw [hunit]
      exact (ctx_setCtx_self rfl m k).trans (hctx m k)
    · rw [hread]
      exact htiles
    · rw [hread]
      exact hactive
    · rw [hread]
  · obtain ⟨heff, hctxs, harr⟩ := afRan_effect (n := n) (c := c) (e := e) (s := s) (t := t) (x := x) (l := afStores n c e s)
    obtain ⟨hidx, hg, hplace⟩ := afIdx_succ hends
    rw [afUnit_goesOn hends]
    refine ⟨h.effect.trans heff, fun m k => ?_, ?_, fun _ => ?_, fun _ hz => ?_, fun _ => ?_⟩
    · rw [State.ctx, hctxs]
      exact h.ctx m k
    · rw [harr]
      exact htiles
    · rw [harr]
      exact hactive
    · exact absurd (hplace.symm.trans hz) (Nat.succ_ne_zero _)
    · rw [harr, hidx, hg]
      exact hlength

theorem afHolds_units {i : State} {j : Nat} (hd : (afFields e).DestOk) (hk : s.SameKeys n c i) (hdue : (i.ctx n c).due = none)
    (htiles : (i.array n (e.op 60 59)).tiles = []) (hj : j ≤ afTotal e)
    (hnone : ∀ q ≤ j, ((unitsFrom (afUnit n c e s) 0 q i).ctx n c).due = none) :
    AfHolds n c e s i j (unitsFrom (afUnit n c e s) 0 j i) := by
  induction j with
  | zero => exact ⟨.refl i, fun _ _ => rfl, htiles, fun h => absurd h (lt_irrefl 0), fun h => absurd h (lt_irrefl 0), fun h => absurd afZ_zero h⟩
  | succ j ih =>
    have hnext := hnone (j + 1) (le_refl _)
    rw [unitsFrom_last] at hnext ⊢
    exact (ih (by omega) fun q hq => hnone q (by omega)).step hd hk hdue (by omega) hnext

theorem afTotal_pos : 0 < afTotal e := by
  refine Nat.mul_pos ?_ afPer_pos
  simp only [afN]
  omega
theorem afZ_total : afZ s e (afTotal e) = 0 := by
  rw [afZ_eq, afTotal, Nat.mul_mod_left, Nat.zero_mod]

theorem opAfold_clear (h : (opAfold n c e s).clear) : (afFields e).DestOk ∧ (s.array n (e.op 60 59)).tiles = [] := by
  obtain ⟨htraps, -⟩ := h
  simp only [opAfold, lowestTrap_append_none] at htraps
  obtain ⟨⟨⟨⟨-, hdot⟩, hown⟩, -⟩, -⟩ := htraps
  simp only [State.dotTraps, lowestTrap_cons_none, beq_eq_false_iff_ne] at hdot
  obtain ⟨hkind, -⟩ := hdot
  simp only [lowestTrap_cons_none] at hown
  obtain ⟨-, -, -, htiles, -⟩ := hown
  have hlt : (afFields e).dkind < 4 := Nat.mod_lt _ (by decide)
  refine ⟨?_, by simpa using htiles⟩
  simp only [DotFields.DestOk, dkFM, dkOB, dkGATE]
  omega

end

section
variable {a : Issue} {e : Eng} {s : State}

/-- The state of a fold before its unit x. -/
def afState (a : Issue) (e : Eng) (s : State) (x : Nat) : State :=
  (List.range x).foldl (fun t x => afUnit a.folio.val a.ctx.val e s x t) (issued a e s)
theorem unitsFrom_afUnit (x : Nat) : unitsFrom (afUnit a.folio.val a.ctx.val e s) 0 x (issued a e s) = afState a e s x := unitsFrom_zero _ _ _

/-- A fold of which no output tile is due again completes. -/
theorem afold_completes (h : LongIssues opAfold a e s)
    (hnone : ∀ j ≤ afTotal e, ((afState a e s j).ctx a.folio.val a.ctx.val).due = none) :
    CompletesLong (exec (.afold a e) s) a e s (fun t =>
      SameBut (afState a e s (afTotal e)) t ∧ (t.array a.folio.val (e.op 60 59)).tiles = [] ∧
      (t.array a.folio.val (e.op 60 59)).act.fmt = some e.fmt ∧
      (fmtOf s.level e.fmt ≠ .fp64 → (t.array a.folio.val (e.op 60 59)).act = (t.array a.folio.val (e.op 60 59)).shd) ∧
      (t.array a.folio.val (e.op 60 59)).fold = [] ∧ t.vat = (issued a e s).vat ∧ t.jobs = (issued a e s).jobs ∧
      StoresOnly (afStores a.folio.val a.ctx.val e s) (issued a e s) t) := by
  have ⟨_, hclear, _⟩ := h
  obtain ⟨hd, htiles⟩ := opAfold_clear hclear
  have hs := longStarts h
  have hall := afHolds_units (c := a.ctx.val) hd hs.keys hs.due (hs.tiles _ htiles) (le_refl (afTotal e))
    fun q hq => by rw [unitsFrom_afUnit]; exact hnone q hq
  refine completesLong_of_units h rfl (fun k t => rfl) (fun t => rfl) (fun j hj => by rw [unitsFrom_afUnit]; exact hnone (j + 1) hj) hall.ctx
    fun t ht => ?_
  rw [unitsFrom_afUnit] at hall ht
  obtain ⟨hact, hshd⟩ := hall.active afTotal_pos
  have hfold := hall.fold afTotal_pos afZ_total
  obtain ⟨z, rfl⟩ := sameBut_iff.mp ht
  exact ⟨ht, hall.tiles, hact, hshd, hfold, hall.effect.vat, hall.effect.jobs, hall.effect.stores⟩
/-- At the first output tile that is due the context stays inside the fold. -/
theorem afold_stays (h : LongIssues opAfold a e s) {j : Nat} {x : DotTile} (hj : j < afTotal e)
    (hnone : ∀ q ≤ j, ((afState a e s q).ctx a.folio.val a.ctx.val).due = none)
    (hx : ((afState a e s (j + 1)).ctx a.folio.val a.ctx.val).due = some x) :
    Next (exec (.afold a e) s) (StaysDue 0x12 1 a e s (j + 1) x (afState a e s (j + 1))) :=
  staysDue_of_units h rfl (fun k t => rfl) (fun t => rfl) hj (fun q hq => by rw [unitsFrom_afUnit]; exact hnone (q + 1) hq)
    (by rw [unitsFrom_afUnit]; exact hx) (by rw [unitsFrom_afUnit]; exact SameBut.refl _)

end

/-- Settles O35, by the invariant `AfHolds` of the fold's units. -/
theorem arrayFolds : Obligations.ArrayFolds := by
  intro a e s n c k i groups total v stores h
  exact ⟨fun hnone => afold_completes h hnone, fun j hj x hnone hx => afold_stays h hj hnone hx⟩

end Sys2Proof.Machine
end

-- ==== Overflow reruns: O36 ====
section
/-! SUPPORT. OVERFLOW_RERUN (R92, R96, R98, R102, R147, R151). In order: a tile's next attempt; a row of the MVP; a tile of an array. -/

namespace Sys2Proof.Machine

open Sys2Proof.Claims

theorem exec_overflowRerun (x : Rerun) (s : State) : exec (.overflowRerun x) s = execOverflowRerun x s := rfl

/-! ## The next attempt of a tile -/

theorem again_kept {i : DotInstr} {d : DotTile} (h : (i.again d).due = true) : (i.again d).kept = d.kept := if_pos h
theorem holdOvr_rerun (s : State) (n tag : Nat) : Sp.get (fun _ => (0, 0)) (s.holdOvr n tag 0 1).heldOvr (8192 * n + tag) =
    ((Sp.get (fun _ => (0, 0)) s.heldOvr (8192 * n + tag)).1, (Sp.get (fun _ => (0, 0)) s.heldOvr (8192 * n + tag)).2 + 1) := by
  simp only [State.holdOvr, Sp.get_set_same, Nat.add_zero]

/-! ## A row of the MVP (R147, R151) -/

/-- The first tile that is due runs again, and no other. -/
theorem rerunFirst_eq {i : DotInstr} {x : DotTile} (xs ys : List DotTile) (hx : x.due = true) (hxs : ∀ y ∈ xs, y.due = false) :
    rerunFirst i (xs ++ x :: ys) = xs ++ i.again x :: ys := by
  induction xs with
  | nil => exact if_pos hx
  | cons y xs ih =>
    have hy : y.due = false := hxs y List.mem_cons_self
    simp only [List.cons_append, rerunFirst, hy, Bool.false_eq_true, if_false, ih fun z hz => hxs z (List.mem_cons_of_mem _ hz)]
theorem settleMvp_cons (t : State) (n : Nat) (j : DotJob) (js : List DotJob) : t.settleMvp n (j :: js) =
    if j.tiles.any (fun x => x.due) then t.setJobs n (j :: js) else ((j.instr n t).done n j.tag j.tiles t).settleMvp n js := rfl

section
variable {s : State} {f : Fin 50} {j : DotJob} {js : List DotJob}

theorem overflowRerun_noRow (h : s.jobsOf f.val = []) (hw : Hw) : exec (.overflowRerun ⟨f, true, hw⟩) s =
    .fault (.notDue "no row of the MVP is due to run again") := by
  simp only [exec_overflowRerun, execOverflowRerun, if_true, h]
  rfl
theorem overflowRerun_mvp (h : s.jobsOf f.val = j :: js) (hw : Hw) : exec (.overflowRerun ⟨f, true, hw⟩) s =
    ((s.holdOvr f.val j.tag 0 1).rerunMvp f.val).rerunCheck f.val j.tag MVP_RESIDUE j.e.stoch hw := by
  simp only [exec_overflowRerun, execOverflowRerun, if_true, h]
/-- The next attempt of the row x of the oldest MVMUL kept. -/
def mvpAgain (s : State) (n : Nat) (j : DotJob) (x : DotTile) : DotTile := (j.instr n (s.holdOvr n j.tag 0 1)).again x
theorem overflowRerun_row {xs ys : List DotTile} {x : DotTile} (h : s.jobsOf f.val = j :: js) (htiles : j.tiles = xs ++ x :: ys)
    (hx : x.due = true) (hxs : ∀ y ∈ xs, y.due = false) : exec (.overflowRerun ⟨f, true, .ok⟩) s =
      .next ((s.holdOvr f.val j.tag 0 1).settleMvp f.val ({ j with tiles := xs ++ mvpAgain s f.val j x :: ys } :: js)) := by
  have hjobs : (s.holdOvr f.val j.tag 0 1).jobsOf f.val = j :: js := h
  rw [overflowRerun_mvp h]
  simp only [State.rerunCheck, State.rerunMvp, hjobs, htiles, rerunFirst_eq xs ys hx hxs]
  rfl
theorem overflowRerun_row_due {xs ys : List DotTile} {x : DotTile} (h : s.jobsOf f.val = j :: js) (htiles : j.tiles = xs ++ x :: ys)
    (hx : x.due = true) (hxs : ∀ y ∈ xs, y.due = false) (hdue : (xs ++ mvpAgain s f.val j x :: ys).any (fun z => z.due) = true) :
    exec (.overflowRerun ⟨f, true, .ok⟩) s =
      .next ((s.holdOvr f.val j.tag 0 1).setJobs f.val ({ j with tiles := xs ++ mvpAgain s f.val j x :: ys } :: js)) := by
  rw [overflowRerun_row h htiles hx hxs, settleMvp_cons, if_pos hdue]
theorem overflowRerun_row_done {xs ys : List DotTile} {x : DotTile} (h : s.jobsOf f.val = j :: js) (htiles : j.tiles = xs ++ x :: ys)
    (hx : x.due = true) (hxs : ∀ y ∈ xs, y.due = false) (hdue : (xs ++ mvpAgain s f.val j x :: ys).any (fun z => z.due) = false) :
    exec (.overflowRerun ⟨f, true, .ok⟩) s = .next (((j.instr f.val (s.holdOvr f.val j.tag 0 1)).done f.val j.tag
      (xs ++ mvpAgain s f.val j x :: ys) (s.holdOvr f.val j.tag 0 1)).settleMvp f.val js) := by
  rw [overflowRerun_row h htiles hx hxs, settleMvp_cons, if_neg (by rw [hdue]; exact Bool.false_ne_true)]
  rfl

end

/-! ## A tile of an array (R92, R123, R136) -/

/-- What a resumable instruction of an array does of its tile that is due. -/
structure ArrayLong (n c tag : Nat) (e : Eng) (o : DotInstr) (l : Long) : Prop where
  again : l.again = o.again
  close : l.close = fun d t => o.settle n c tag d t
  finish : l.finish = fun t => t.relEng n c e
  free : o.CtxFree
  count : ∀ k, (o.cfg k).n = k

section
variable {n c : Nat} {e : Eng} {s q : State}

theorem arrayLong_opAstream : ArrayLong n c (q.engTag n c e) e (asDrain n c e q) (opAstream n c e q) :=
  ⟨rfl, rfl, rfl, asDrain_ctxFree n c e q, fun _ => rfl⟩
theorem arrayLong_opAfold : ArrayLong n c (q.engTag n c e) e (afInstr n c e q) (opAfold n c e q) :=
  ⟨rfl, rfl, rfl, afInstr_ctxFree n c e q, fun _ => rfl⟩

end

section
variable {n c tag : Nat} {e : Eng} {o : DotInstr} {l : Long} {t : State} {r : Resume} {d : DotTile}

/-- With the tile due again the context stays where it is. -/
theorem ArrayLong.stays (h : ArrayLong n c tag e o l) (hdue : (o.again d).due = true) (hhalt : (t.ctx n c).halting = false) :
    ((((l.after n c r (l.total t) (r.pos, l.close (l.again d) t)).haltDue n c).ctx n c).due = some (o.again d)) ∧
    ((((l.after n c r (l.total t) (r.pos, l.close (l.again d) t)).haltDue n c).ctx n c).inside = some r) ∧
    SameBut t ((l.after n c r (l.total t) (r.pos, l.close (l.again d) t)).haltDue n c) := by
  have hclose : l.close (l.again d) t = t.setCtx n c { t.ctx n c with due := some (o.again d) } := by
    rw [h.close, h.again]
    exact if_pos hdue
  have hafter : l.after n c r (l.total t) (r.pos, l.close (l.again d) t) =
      (t.setCtx n c { t.ctx n c with due := some (o.again d) }).setCtx n c { t.ctx n c with due := some (o.again d), inside := some r } := by
    simp only [Long.after, hclose, State.ctx_setCtx_same, Option.isSome_some, Bool.true_or, if_true]
  rw [hafter, haltDue_of_not_halting (by rw [State.ctx_setCtx_same]; exact hhalt), State.ctx_setCtx_same]
  exact ⟨rfl, rfl, sameBut_setCtx _ _ (sameBut_setCtx _ _ (SameBut.refl t) _) _⟩
/-- With the tile done the instruction goes on from its boundary, or ends with its release. -/
theorem ArrayLong.completes (h : ArrayLong n c tag e o l) (hdue : (o.again d).due = false) (hhalt : (t.ctx n c).halting = false) :
    let w := (l.after n c r (l.total t) (r.pos, l.close (l.again d) t)).haltDue n c
    let u := o.done n tag [o.again d] t
    (w.ctx n c).due = none ∧ (r.pos < l.total t → (w.ctx n c).inside = some r ∧ SameBut u w) ∧
      (l.total t ≤ r.pos → (w.ctx n c).inside = none ∧ SameBut (u.relEng n c e) w) := by
  intro w u
  obtain ⟨v, hv, hctx⟩ : ∃ v, l.close (l.again d) t = u.withCtxs v ∧ (u.withCtxs v).ctx n c = { t.ctx n c with due := none } := by
    refine ⟨_, ?_, State.ctx_setCtx_same t n c { t.ctx n c with due := none }⟩
    rw [h.close, h.again]
    exact h.free.settle hdue
  dsimp only [w]
  by_cases hpos : r.pos < l.total t
  · have hafter : l.after n c r (l.total t) (r.pos, l.close (l.again d) t) =
        (u.withCtxs v).setCtx n c { t.ctx n c with due := none, inside := some r } := by
      simp only [Long.after, hv, hctx, Option.isSome_none, Bool.false_or, decide_eq_true_eq, if_pos hpos]
    rw [hafter, haltDue_of_not_halting (by rw [State.ctx_setCtx_same]; exact hhalt), State.ctx_setCtx_same]
    exact ⟨rfl, fun _ => ⟨rfl, sameBut_iff.mpr ⟨_, rfl⟩⟩, fun hle => absurd hpos (not_lt.mpr hle)⟩
  · have hafter : l.after n c r (l.total t) (r.pos, l.close (l.again d) t) =
        ((u.withCtxs v).setCtx n c { t.ctx n c with due := none, inside := none }).relEng n c e := by
      simp only [Long.after, hv, hctx, Option.isSome_none, Bool.false_or, decide_eq_true_eq, if_neg hpos, h.finish]
    rw [hafter, haltDue_of_not_halting (by rw [ctx_relEng, State.ctx_setCtx_same]; exact hhalt), ctx_relEng, State.ctx_setCtx_same,
      State.setCtx_eq]
    exact ⟨rfl, fun hlt => absurd hlt hpos, fun _ => ⟨rfl, sameBut_iff.mpr ⟨_, relEng_withCtxs u _ n c e⟩⟩⟩

end

section
variable {s : State} {f : Fin 50} {c : Nat} {d : DotTile} {r : Resume}

theorem overflowRerun_noTile (h : s.dueCtx f.val = none) (hw : Hw) : exec (.overflowRerun ⟨f, false, hw⟩) s =
    .fault (.notDue "no tile of an array is due to run again") := by
  simp only [exec_overflowRerun, execOverflowRerun, Bool.false_eq_true, if_false, h]
  rfl
theorem overflowRerun_array (h : s.dueCtx f.val = some (c, d, r)) (hw : Hw) : exec (.overflowRerun ⟨f, false, hw⟩) s =
    ((s.holdOvr f.val (s.engTag f.val c (bundleEng r.bundle.toNat)) 0 1).rerunArray f.val c d r).rerunCheck f.val
      (s.engTag f.val c (bundleEng r.bundle.toNat)) ARR_RESIDUE (bundleEng r.bundle.toNat).stoch hw := by
  simp only [exec_overflowRerun, execOverflowRerun, Bool.false_eq_true, if_false, h]
theorem rerunArray_eq {n : Nat} {t : State} {op : Nat → Nat → Eng → State → Long} {resid : Option Nat}
    (h : longOf (bundleOpc r.bundle.toNat) = some (op, resid)) : t.rerunArray n c d r =
      ((op n c (bundleEng r.bundle.toNat) (t.withRegs n c r.sregs r.aregs)).after n c r
        ((op n c (bundleEng r.bundle.toNat) (t.withRegs n c r.sregs r.aregs)).total t) (r.pos,
          (op n c (bundleEng r.bundle.toNat) (t.withRegs n c r.sregs r.aregs)).close
            ((op n c (bundleEng r.bundle.toNat) (t.withRegs n c r.sregs r.aregs)).again d) t)).haltDue n c := by
  simp only [State.rerunArray, h]

/-- The instruction that a tile due belongs to, over the registers of its issue. -/
def TileOf (n c : Nat) (r : Resume) (t : State) (o : DotInstr) (l : Long) : Prop :=
  bundleOpc r.bundle.toNat = 0x11 ∧ o = asDrain n c (bundleEng r.bundle.toNat) (t.withRegs n c r.sregs r.aregs) ∧
      l = opAstream n c (bundleEng r.bundle.toNat) (t.withRegs n c r.sregs r.aregs) ∨
    bundleOpc r.bundle.toNat = 0x12 ∧ o = afInstr n c (bundleEng r.bundle.toNat) (t.withRegs n c r.sregs r.aregs) ∧
      l = opAfold n c (bundleEng r.bundle.toNat) (t.withRegs n c r.sregs r.aregs)
theorem TileOf.runs {n : Nat} {t : State} {o : DotInstr} {l : Long} (h : TileOf n c r t o l) :
    ArrayLong n c (t.engTag n c (bundleEng r.bundle.toNat)) (bundleEng r.bundle.toNat) o l ∧
      t.rerunArray n c d r = (l.after n c r (l.total t) (r.pos, l.close (l.again d) t)).haltDue n c := by
  obtain ⟨hopc, rfl, rfl⟩ | ⟨hopc, rfl, rfl⟩ := h
  · exact ⟨arrayLong_opAstream (q := t.withRegs n c r.sregs r.aregs), rerunArray_eq (resid := some ARR_RESIDUE) (by rw [hopc]; rfl)⟩
  · exact ⟨arrayLong_opAfold (q := t.withRegs n c r.sregs r.aregs), rerunArray_eq (resid := some ARR_RESIDUE) (by rw [hopc]; rfl)⟩

/-- The state in which a rerun of the tile of context c is counted. -/
def tileCounted (s : State) (n c : Nat) (r : Resume) : State := s.holdOvr n (s.engTag n c (bundleEng r.bundle.toNat)) 0 1

variable {o : DotInstr} {l : Long}

theorem overflowRerun_tile_due (h : s.dueCtx f.val = some (c, d, r)) (hhalt : (s.ctx f.val c).halting = false)
    (ho : TileOf f.val c r (tileCounted s f.val c r) o l) (hdue : (o.again d).due = true) :
    Next (exec (.overflowRerun ⟨f, false, .ok⟩) s) (fun t =>
      (t.ctx f.val c).due = some (o.again d) ∧ (t.ctx f.val c).inside = some r ∧ SameBut (tileCounted s f.val c r) t) := by
  obtain ⟨hlong, hrun⟩ := ho.runs (d := d)
  exact ⟨_, (overflowRerun_array h .ok).trans (congrArg Host.Outcome.next hrun), hlong.stays hdue hhalt⟩
theorem overflowRerun_tile_done (h : s.dueCtx f.val = some (c, d, r)) (hhalt : (s.ctx f.val c).halting = false)
    (ho : TileOf f.val c r (tileCounted s f.val c r) o l) (hdue : (o.again d).due = false) :
    Next (exec (.overflowRerun ⟨f, false, .ok⟩) s) (fun t =>
      (t.ctx f.val c).due = none ∧
      (r.pos < l.total (tileCounted s f.val c r) → (t.ctx f.val c).inside = some r ∧
        SameBut (o.done f.val (s.engTag f.val c (bundleEng r.bundle.toNat)) [o.again d] (tileCounted s f.val c r)) t) ∧
      (l.total (tileCounted s f.val c r) ≤ r.pos → (t.ctx f.val c).inside = none ∧
        SameBut ((o.done f.val (s.engTag f.val c (bundleEng r.bundle.toNat)) [o.again d] (tileCounted s f.val c r)).relEng f.val c
          (bundleEng r.bundle.toNat)) t)) := by
  obtain ⟨hlong, hrun⟩ := ho.runs (d := d)
  exact ⟨_, (overflowRerun_array h .ok).trans (congrArg Host.Outcome.next hrun), hlong.completes hdue hhalt⟩

end

/-- A residue mismatch of the attempt fails the work of the tag after it. -/
theorem rerunCheck_residue {t u s : State} {n tag code : Nat} {draws : Bool} {x : Hw → Rerun}
    (h : ∀ hw, exec (.overflowRerun (x hw)) s = t.rerunCheck n tag code draws hw) (hu : exec (.overflowRerun (x .ok)) s = .next u) :
    exec (.overflowRerun (x .residue)) s = .next (u.tagFault n tag code) := by
  rw [h] at hu ⊢
  obtain rfl := Host.Outcome.next.inj hu
  rfl

/-- Settles O36: the MVP by the first row that is due, an array by what its instruction does of the tile (`ArrayLong`). -/
theorem overflowRerunsRaiseTheCount : Obligations.OverflowRerunsRaiseTheCount := by
  intro f s n counted
  refine ⟨fun h hw => ⟨_, overflowRerun_noRow h hw⟩, fun h hw => ⟨_, overflowRerun_noTile h hw⟩, fun j js xs ys x hjobs htiles hx hxs => ?_,
    fun c d r o l hctx hhalt (ho : TileOf f.val c r (tileCounted s f.val c r) o l) => ?_⟩
  · exact ⟨rfl, rfl, again_kept, holdOvr_rerun s n j.tag, overflowRerun_row_due hjobs htiles hx hxs, overflowRerun_row_done hjobs htiles hx hxs,
      fun u hu => rerunCheck_residue (overflowRerun_mvp hjobs) hu⟩
  · obtain ⟨hlong, -⟩ := ho.runs (d := d)
    exact ⟨hlong.count _, rfl, again_kept, holdOvr_rerun s n _, overflowRerun_tile_due hctx hhalt ho,
      overflowRerun_tile_done hctx hhalt ho, fun u hu => rerunCheck_residue (overflowRerun_array hctx) hu⟩

end Sys2Proof.Machine
end

-- ==== Lockstep: O46 refuted ====
section
/-! SUPPORT. A lockstep mismatch at a spare that is substituting, with no other spare left (R424, R559, R560). -/

namespace Sys2Proof.Machine

open Sys2Proof.Claims

/-- The bit of the vacancy words that is bit 17 of SEQ_CNT of folio 48: the mismatch count's bit 1. -/
def lockstepBit : Nat := 32 * ((SEQ_CNT 48 - FOLIO_VAC 0) / 4) + 17
/-- Folio 48 has one lockstep mismatch behind it and stands in for the index `lockstepBit`; every other folio is retired. -/
def lockstepState : State :=
  { (State.reset.setReg (FOLIO_RET 0) 0xFFFFFFFF).setReg (FOLIO_RET 1) 0x2FFFF with
    events := [⟨48, 0x18, 0, 0⟩], substs := Sp.set (fun _ => none) State.reset.substs 0 (some ⟨48, lockstepBit⟩) }
/-- The mismatch count of folio 48 after a command. -/
def lockstepCount : Res → Option Nat
  | .next t => some (t.fld (SEQ_CNT 48) 31 16)
  | _ => none

theorem lockstepState_meets : lockstepState.retired 48 = false ∧ (∀ k : Fin 4, (lockstepState.ctx 48 k.val).queue = []) ∧
    lockstepState.fld (SEQ_CNT 48) 31 16 = 0 := by
  decide +kernel
/-- The second mismatch retires the folio, and the vacancy of its index sets a second bit of the count. -/
theorem lockstepCount_eq : lockstepCount (exec (.seqLockstep 48) lockstepState) = some 3 := by
  decide +kernel

/-- Refutes O46: a retired spare leaves the index that it was to take vacant (R560) in word `logical / 32` of FOLIO_VAC, and the statement
speaks of every state, also of one whose substitution names an index above 47, of which that word is SEQ_CNT. With folio 48 in such a
substitution and all others retired, the second mismatch leaves 3 in the count of SEQ_CNT where the statement asks for 1. The device
gives out indices below 48 alone: what the statement lacks is that hypothesis on `substs`. -/
theorem not_sequencerEvents : ¬ Obligations.SequencerEvents := by
  intro h
  obtain ⟨-, -, -, hlockstep⟩ := h 48 0 lockstepState
  obtain ⟨hretired, hqueues, hcount⟩ := lockstepState_meets
  obtain ⟨t, hnext, hbumped, -⟩ := hlockstep hretired hqueues
  have hends := lockstepCount_eq
  rw [hnext] at hends
  have hthree : t.fld (SEQ_CNT 48) 31 16 = 3 := Option.some.inj hends
  have hone : t.fld (SEQ_CNT 48) 31 16 = 1 := hbumped.trans (congrArg (fun x => min (x + 1) 0xFFFF) hcount)
  omega

end Sys2Proof.Machine
end

-- ==== ALOAD: O33 ====
section
/-! SUPPORT. ALOAD (R109, R125, R130). In order: an element of packed bytes; a cell of a weight tile as a load reads it; the registers of
an array after a load; the instruction. -/

namespace Sys2Proof.Machine

open Sys2Proof.Claims

/-! ## Elements of packed bytes (R48) -/

theorem ofBytes_lt (bs : List (BitVec 8)) : ofBytes bs < 2 ^ (8 * bs.length) := by
  induction bs with
  | nil => exact Nat.one_pos
  | cons b bs ih =>
    have hpow : 2 ^ (8 * (b :: bs).length) = 256 * 2 ^ (8 * bs.length) := by
      rw [List.length_cons, Nat.mul_succ, Nat.pow_add, Nat.mul_comm]
    have := b.isLt
    simp only [ofBytes, hpow]
    omega
theorem ofBytes_append (bs cs : List (BitVec 8)) : ofBytes (bs ++ cs) = ofBytes bs + 2 ^ (8 * bs.length) * ofBytes cs := by
  induction bs with
  | nil => simp [ofBytes]
  | cons b bs ih =>
    simp only [List.cons_append, ofBytes, ih, List.length_cons]
    ring
/-- The bytes from place k on are the value's bits from 8k on; those below are the bits below. -/
theorem ofBytes_drop_take {bs : List (BitVec 8)} {k : Nat} (hk : k ≤ bs.length) :
    ofBytes (bs.drop k) = ofBytes bs / 2 ^ (8 * k) ∧ ofBytes (bs.take k) = ofBytes bs % 2 ^ (8 * k) := by
  have hlen : (bs.take k).length = k := by rw [List.length_take, min_eq_left hk]
  have hsplit : ofBytes bs = ofBytes (bs.take k) + 2 ^ (8 * k) * ofBytes (bs.drop k) := by
    conv_lhs => rw [← List.take_append_drop k bs, ofBytes_append, hlen]
  have hlow : ofBytes (bs.take k) < 2 ^ (8 * k) := by simpa only [hlen] using ofBytes_lt (bs.take k)
  rw [hsplit, Nat.add_mul_div_left _ _ (Nat.two_pow_pos _), Nat.div_eq_of_lt hlow, Nat.zero_add, Nat.add_mul_mod_self_left,
    Nat.mod_eq_of_lt hlow]
  exact ⟨rfl, rfl⟩
theorem nth_map_range {g : Nat → Nat} {m i : Nat} (hi : i < m) : nth ((List.range m).map g) i = g i := by
  simp [nth, hi]
/-- An element of whole bytes is the value of its bytes. -/
theorem nth_unpackBytes {bs : List Byte} {m count j : Nat} (hj : j < count) (hlen : m * count ≤ bs.length) :
    nth (unpackBytes (8 * m) count bs) j = ofBytes ((bs.drop (m * j)).take m) := by
  have hend : m * j + m ≤ bs.length := (Nat.mul_le_mul_left m hj).trans hlen
  have htake : m ≤ (bs.drop (m * j)).length := by
    rw [List.length_drop]
    omega
  rw [(ofBytes_drop_take htake).2, (ofBytes_drop_take (by omega)).1, unpackBytes, nth_map_range hj, Nat.mul_assoc]

/-! ## A cell of a weight tile as a load reads it (R109, R124) -/

/-- The place of a cell in rows of w cells one after another. -/
theorem nth_flatMap_range {g : Nat → List Nat} {w m r j : Nat} (hw : ∀ i, (g i).length = w) (hr : r < m) (hj : j < w) :
    nth ((List.range m).flatMap g) (w * r + j) = nth (g r) j := by
  induction m with
  | zero => omega
  | succ m ih =>
    have hlen : ((List.range m).flatMap g).length = w * m := by
      simp [List.length_flatMap, hw, Nat.mul_comm]
    rw [List.range_succ, List.flatMap_append, List.flatMap_singleton, nth, nth]
    obtain hlt | rfl := Nat.lt_succ_iff_lt_or_eq.mp hr
    · have hin : w * r + j < ((List.range m).flatMap g).length := by
        rw [hlen]
        exact (Nat.add_lt_add_left hj _).trans_le (Nat.mul_le_mul_left w hlt)
      rw [List.getD_append _ _ _ _ hin]
      exact ih hlt
    · rw [List.getD_append_right _ _ _ _ (by omega), hlen, Nat.add_sub_cancel_left]
theorem opBytes_length (s : State) (n c arr : Nat) (fm : Bool) (a len : Nat) : (s.opBytes n c arr fm a len).length = len := by
  unfold State.opBytes State.obBytes State.fmBytes
  split
  · exact Memory.bytes_length _ _ _
  · simp

section
variable {s : State} {n c k code a stride sa r j : Nat} {fm cplx : Bool}

/-- The elements of a row of a tile. -/
theorem elems_length (f : Fmt) (count : Nat) : (s.elems n c k fm f a count).length = count := by
  simp [State.elems, unpackBytes]
/-- The cells of a whole tile are the elements of its 16 rows. -/
theorem readTile_re (hreal : cplx = false) : (s.readTile n c k fm code cplx a stride sa 16 64).re =
    (List.range 16).flatMap (fun i => s.elems n c k fm (fmtOf s.level code) (a + i * stride) 64) := by
  subst hreal
  simp only [State.readTile, State.elemParts, List.flatMap_map]
  refine List.flatMap_congr fun i hi => ?_
  simp [List.mem_range.mp hi]
/-- A cell of a whole tile of whole-byte elements. -/
theorem nth_readTile {f : Fmt} (hf : fmtOf s.level code = f) (hreal : cplx = false) (hbytes : f.bits % 8 = 0) (hwide : f.narrow = false)
    (hr : r < 16) (hj : j < 64) : nth (s.readTile n c k fm code cplx a stride sa 16 64).re (64 * r + j) =
      ofBytes (((s.opBytes n c k fm (a + r * stride) (8 * f.bits)).drop (f.bits / 8 * j)).take (f.bits / 8)) := by
  obtain ⟨m, hm⟩ : ∃ m, f.bits = 8 * m := ⟨f.bits / 8, by omega⟩
  have hlen : (8 * m * 64 + 7) / 8 = 8 * (8 * m) := by omega
  have hexpand : f.expand = id := by
    funext w
    simp [Fmt.expand, hwide]
  rw [readTile_re hreal, nth_flatMap_range (fun i => elems_length _ _) hr hj, hf, State.elems, hexpand, List.map_id, hm, hlen,
    Nat.mul_div_cancel_left m (by decide)]
  exact nth_unpackBytes hj (by rw [opBytes_length]; omega)

end

/-! ## The registers of an array after a load (R109, R125) -/

section
variable (a : ArrSt) (d : TileData)

theorem load_act (h : d.f ≠ .fp64) : (a.load d).act = a.act := by
  unfold ArrSt.load
  split
  · next h64 => exact absurd h64 h
  · rfl
  · rfl
/-- A format of at most 16 bits leaves the X words. -/
theorem load_shd_x (h : d.f.bits ≤ 16) : (a.load d).shd.x = a.shd.x ∧ (a.load d).shd.xi = a.shd.xi := by
  unfold ArrSt.load
  split
  · next h64 => simp [h64, Fmt.bits] at h
  · next h32 => simp [h32, Fmt.bits] at h
  · exact ⟨rfl, rfl⟩
theorem nth_planeWords (q : Nat) (l : List Nat) (i : Nat) : nth (planeWords q l) i = nth l i / 2 ^ (16 * q) % 2 ^ 16 := by
  have h := List.getD_map (l := l) (d := 0) (n := i) fun v => v / 2 ^ (16 * q) % 2 ^ 16
  simpa [nth, planeWords] using h
/-- The weight that an array holds at a cell, once a load's tile is active: the words of the load together. -/
theorem code_load {r j : Nat} (hwide : d.f.narrow = false) (hlt : nth d.re (64 * r + j) < 2 ^ d.f.bits) :
    (if d.f = .fp64 then a.load d else (a.load d).swap).code d.f false r j = nth d.re (64 * r + j) := by
  obtain ⟨f, code, cplx, re, im, sc⟩ := d
  dsimp only at hwide hlt ⊢
  have hword (q : Nat) : nth (planeWords q re) (64 * r + j) = nth re (64 * r + j) / 2 ^ (16 * q) % 2 ^ 16 := nth_planeWords q re _
  generalize nth re (64 * r + j) = v at hlt hword ⊢
  cases f
  case fp64 =>
    have h64 : v < 2 ^ 64 := hlt
    simp only [if_true, ArrSt.load, WTile.put, ArrSt.code, plane, Bool.false_eq_true, if_false, hword]
    omega
  case fp32 =>
    have h32 : v < 2 ^ 32 := hlt
    simp only [reduceCtorEq, if_false, ArrSt.load, ArrSt.swap, WTile.put, ArrSt.code, plane, Bool.false_eq_true, hword]
    omega
  case bf16 | fp16 =>
    have h16 : v < 2 ^ 16 := hlt
    simp only [reduceCtorEq, if_false, ArrSt.load, ArrSt.swap, WTile.put, ArrSt.code, plane, Bool.false_eq_true, hword]
    omega
  case int8 | mxint8 | e4m3 | e5m2 =>
    have h8 : v < 2 ^ 8 := hlt
    simp only [reduceCtorEq, if_false, ArrSt.load, ArrSt.swap, WTile.put, ArrSt.code, plane, Bool.false_eq_true, hword]
    omega
  case e2m3 | e3m2 | e2m1 => exact nomatch hwide

end

/-! ## The instruction -/

theorem opAload_run (n c : Nat) (e : Eng) (s t : State) : (opAload n c e s).run t =
    (t.setArray n (e.op 60 59) ((t.array n (e.op 60 59)).load (s.readTile n c (e.op 60 59) (e.opb 58) e.fmt e.cplx
      (addrOf (s.ar n c (e.op 57 54))) (strideOf (s.ar n c (e.op 57 54))) (addrOf (s.ar n c (e.op 57 54 + 1))) 16 64))).relEng n c e := rfl
theorem array_advance (s : State) (n c m k : Nat) : (s.advance n c).array m k = s.array m k := by
  rw [State.array, advance_only]
  rfl
theorem array_setArray_ne (t : State) {n k m q : Nat} (y : ArrSt) (h : 4 * m + q ≠ 4 * n + k) :
    (t.setArray n k y).array m q = t.array m q := by
  simp only [State.array, State.setArray, Sp.get_set_ne _ _ _ h]

/-- Settles O33: the load acts on the state that has issued, whose arrays are those before. -/
theorem weightTileLoads : Obligations.WeightTileLoads := by
  rintro a e s n c k f x w old ⟨hready, hclear, hscalar⟩
  have hk : k < 4 := by
    have h : k = e.ops.toNat / 2 ^ 59 % 2 ^ 2 := rfl
    omega
  have hrun : exec (.aload a e) s = _ := engine_runs _ hready hclear hscalar
  rw [opAload_run, array_advance] at hrun
  have hnew : ((s.advance n c).setArray n k (old.load w)).array n k = old.load w := array_setArray_same _ _ _ _
  refine ⟨_, hrun, hnew, ?_⟩
  rw [hnew]
  refine ⟨(load_tiles old w).1, load_act old w, load_shd_x old w, fun hbytes hwide hreal r j => ?_, fun m q hmq => ?_, rfl⟩
  · have hcell : nth w.re (64 * r.val + j.val) = _ := nth_readTile (f := f) rfl hreal hbytes hwide r.isLt j.isLt
    have hlt : nth w.re (64 * r.val + j.val) < 2 ^ f.bits := by
      rw [hcell]
      refine (ofBytes_lt _).trans_le (Nat.pow_le_pow_right (by decide) ?_)
      rw [List.length_take]
      omega
    exact (code_load old w hwide hlt).trans hcell
  · rw [array_setArray_ne _ _ (by omega), array_advance]

end Sys2Proof.Machine
end

-- ==== Missed bounds and hangs: O47 ====
section
/-! SUPPORT. Missed bounds and hangs (R135, R152, R181, R184, R249, R338, R343, R412, R553, R559, R560, R565). In order: fields of register
words; the fault log; what a folio out of service keeps through all that a retirement and a withdrawal do; retirement; counted events;
missed bounds; hangs. -/

namespace Sys2Proof.Machine

open Sys2Proof.Claims

/-! ## Fields of register words -/

theorem bits_mod_two_pow {x hi lo w : Nat} (hlo : lo ≤ hi) (hw : hi < w) : bits (x % 2 ^ w) hi lo = bits x hi lo := by
  obtain ⟨r, rfl⟩ := Nat.exists_eq_add_of_lt hw
  have hsplit : 2 ^ (hi + r + 1) = 2 ^ lo * (2 ^ (hi - lo + 1) * 2 ^ r) := by
    rw [← Nat.pow_add, ← Nat.pow_add]
    congr 1
    omega
  rw [bits, bits, hsplit, Nat.mod_mul_right_div_self, Nat.mod_mul_right_mod]
theorem bits_putBits (x hi lo v : Nat) : bits (putBits x hi lo v) hi lo = v % 2 ^ (hi - lo + 1) := by
  have hlow : x % 2 ^ lo < 2 ^ lo := Nat.mod_lt _ (Nat.two_pow_pos lo)
  have hx : 2 ^ lo * (x / 2 ^ lo) + x % 2 ^ lo = x := Nat.div_add_mod x (2 ^ lo)
  have hq : 2 ^ (hi - lo + 1) * (x / 2 ^ lo / 2 ^ (hi - lo + 1)) + x / 2 ^ lo % 2 ^ (hi - lo + 1) = x / 2 ^ lo := Nat.div_add_mod _ _
  have hput : putBits x hi lo v =
      x % 2 ^ lo + 2 ^ lo * (v % 2 ^ (hi - lo + 1) + 2 ^ (hi - lo + 1) * (x / 2 ^ lo / 2 ^ (hi - lo + 1))) := by
    unfold putBits bits
    have hexp : 2 ^ lo * (x / 2 ^ lo) = 2 ^ lo * (2 ^ (hi - lo + 1) * (x / 2 ^ lo / 2 ^ (hi - lo + 1))) +
        x / 2 ^ lo % 2 ^ (hi - lo + 1) * 2 ^ lo := by
      conv_lhs => rw [← hq]
      ring
    rw [Nat.mul_add, Nat.mul_comm (2 ^ lo) (v % _)]
    omega
  rw [bits, hput, Nat.add_mul_div_left _ _ (Nat.two_pow_pos lo), Nat.div_eq_of_lt hlow, Nat.zero_add, Nat.add_mul_mod_self_left,
    Nat.mod_mod]
/-- A field of a register word reads as it was written. -/
theorem State.fld_setFld_same (s : State) (a : Nat) {hi lo : Nat} (v : Nat) (hlo : lo ≤ hi) (hhi : hi < 32) :
    (s.setFld a hi lo v).fld a hi lo = v % 2 ^ (hi - lo + 1) := by
  rw [State.fld, State.setFld, State.reg_setReg_same, bits_mod_two_pow hlo hhi, bits_putBits]
theorem State.rbit_setBit_true (s : State) (a : Nat) {k : Nat} (hk : k < 32) : (s.setBit a k true).rbit a k = true := by
  have h := s.fld_setFld_same a 1 (le_refl k) hk
  rw [State.fld] at h
  simp [State.rbit, bit, State.setBit, h]

/-! ## The fault log (R567 to R569, R571) -/

/-- From s to t only registers, the interrupt messages and FAULT_N differ. -/
def State.LogOnly (s t : State) : Prop := ∃ regs sideband low, t = { s with regs := regs, sideband := sideband, faultLow := low }

namespace State.LogOnly
variable {s t : State}

theorem setReg {a v : Nat} (h : s.LogOnly t) : s.LogOnly (t.setReg a v) := by
  obtain ⟨_, _, _, rfl⟩ := h
  exact ⟨_, _, _, rfl⟩
theorem ite {p : Prop} [Decidable p] {u : State} (ht : s.LogOnly t) (hu : s.LogOnly u) : s.LogOnly (if p then t else u) := by
  split
  · exact ht
  · exact hu
theorem faultN {code : Nat} (h : s.LogOnly t) : s.LogOnly (t.faultN code) := by
  refine .ite ?_ h
  obtain ⟨_, _, _, hset⟩ : s.LogOnly (t.setBit FLT_STAT 31 true) := h.setReg
  exact ⟨_, _, _, by rw [hset]⟩
theorem withLine {u : State} {p : Nat} (h : s.LogOnly t) : s.LogOnly (u.withLine p t) := by
  refine .ite ?_ h
  obtain ⟨_, _, _, rfl⟩ := h
  exact ⟨_, _, _, rfl⟩
/-- An event written into the fault log. -/
theorem log (s : State) (code unit action info : Nat) : s.LogOnly (s.log code unit action info) := by
  have hs : s.LogOnly s := ⟨_, _, _, rfl⟩
  refine .withLine ?_
  extract_lets i s1 h full s2 s3
  have hs1 : s.LogOnly s1 := hs.setReg.setReg.setReg.setReg
  have hs2 : s.LogOnly s2 := hs1.setReg.setReg
  have hs3 : s.LogOnly s3 := .ite hs2.setReg.setReg.setReg hs2
  exact .ite (.faultN hs.setReg) hs3.faultN

end State.LogOnly

/-! ## A folio out of service

What is kept of a folio through everything that its retirement and a withdrawal of the device do: its retired mark, the state of its
power domain, and the contexts that no longer work. `State.Out.f` says that `f` keeps them. -/

/-- The context runs no entry and is not about to start one. -/
def Ctx.Workless (x : Ctx) : Prop := x.entry = none ∧ x.st ≠ .ready
/-- The words of the retired mark and of the power state of folio n hold `ret` and `pm`, and its contexts `ks` do not work. -/
structure State.Out (n : Fin 50) (ret pm : Nat) (ks : List Nat) (s : State) : Prop where
  ret : s.reg (FOLIO_RET (n.val / 32)) = ret
  pm : s.reg (PM_FOLIO_STATE (n.val / 8)) = pm
  workless : ∀ k ∈ ks, (s.ctx n.val k).Workless
/-- A register word that is neither of the two. -/
def Apart (n : Fin 50) (a : Nat) : Prop := a ≠ FOLIO_RET (n.val / 32) ∧ a ≠ PM_FOLIO_STATE (n.val / 8)

/-- The pages of folios and those behind them are apart. -/
theorem apart_of_le {n : Fin 50} {a : Nat} (h : 0x40000 ≤ a) : Apart n a := by
  simp only [Apart, FOLIO_RET, PM_FOLIO_STATE, pg]
  omega
theorem apart_fltEntry {n : Fin 50} {i w : Nat} (hw : w < 4) : Apart n (FLT_ENTRY i w) := by
  simp only [Apart, FOLIO_RET, PM_FOLIO_STATE, FLT_ENTRY, pg]
  omega
theorem apart_folioVac {n : Fin 50} (i : Nat) : Apart n (FOLIO_VAC i) := by
  simp only [Apart, FOLIO_RET, PM_FOLIO_STATE, FOLIO_VAC, pg]
  omega
/-- The words of the fault log, of the spares' count and of the refused power entries are apart. -/
theorem apart_word {n : Fin 50} {a : Nat} (h : a ∈ [FLT_STAT, FLT_HEAD, FLT_TAIL, FLT_CNT, SPARE_STAT, PM_REFUSE_CNT, PM_REFUSE_LOG]) :
    Apart n a := by
  have hbound : a < PM_FOLIO_STATE 0 ∨ PM_FOLIO_STATE 7 ≤ a ∧ a < FOLIO_RET 0 := by
    revert a
    decide
  simp only [Apart, FOLIO_RET, PM_FOLIO_STATE, pg] at hbound ⊢
  omega

section
variable {n : Fin 50} {ret pm : Nat} {ks : List Nat} {s : State}

namespace State.Out

theorem of_same {t : State} (hs : s.Out n ret pm ks) (hregs : t.regs = s.regs) (hctxs : t.ctxs = s.ctxs) : t.Out n ret pm ks where
  ret := by rw [← hs.ret, State.reg, hregs, ← State.reg]
  pm := by rw [← hs.pm, State.reg, hregs, ← State.reg]
  workless k hk := by
    rw [State.ctx, hctxs]
    exact hs.workless k hk
/-- An update of other fields. -/
theorem same {t : State} (hs : s.Out n ret pm ks)
    (e : t.regs = s.regs ∧ t.ctxs = s.ctxs := by with_reducible exact ⟨rfl, rfl⟩) : t.Out n ret pm ks := hs.of_same e.1 e.2
theorem ite {p : Prop} [Decidable p] {t u : State} (ht : t.Out n ret pm ks) (hu : u.Out n ret pm ks) :
    (if p then t else u).Out n ret pm ks := by
  split
  · exact ht
  · exact hu
theorem foldl {α : Type} {f : State → α → State} {l : List α} (hs : s.Out n ret pm ks)
    (hf : ∀ {t}, ∀ x ∈ l, t.Out n ret pm ks → (f t x).Out n ret pm ks) : (l.foldl f s).Out n ret pm ks :=
  List.foldlRecOn l f hs fun _ ht x hx => hf x hx ht

theorem setReg {a v : Nat} (hs : s.Out n ret pm ks) (ha : Apart n a) : (s.setReg a v).Out n ret pm ks where
  ret := (State.reg_setReg_ne s v ha.1.symm).trans hs.ret
  pm := (State.reg_setReg_ne s v ha.2.symm).trans hs.pm
  workless := hs.workless
theorem setFld {a hi lo v : Nat} (hs : s.Out n ret pm ks) (ha : Apart n a) : (s.setFld a hi lo v).Out n ret pm ks := hs.setReg ha
theorem bump {a hi lo k : Nat} (hs : s.Out n ret pm ks) (ha : Apart n a) : (s.bump a hi lo k).Out n ret pm ks := hs.setFld ha
theorem setStr {i : Nat} {x : Strm} (hs : s.Out n ret pm ks) : (s.setStr i x).Out n ret pm ks := hs.of_same rfl rfl
theorem setTag {lf k : Nat} {r : TagRec} (hs : s.Out n ret pm ks) : (s.setTag lf k r).Out n ret pm ks := hs.of_same rfl rfl
theorem setSr {m c r v : Nat} (hs : s.Out n ret pm ks) : (s.setSr m c r v).Out n ret pm ks := hs.of_same rfl rfl
theorem setAr {m c r v : Nat} (hs : s.Out n ret pm ks) : (s.setAr m c r v).Out n ret pm ks := hs.of_same rfl rfl
theorem setMover {q : Nat} {ms : List Move} (hs : s.Out n ret pm ks) : (s.setMover q ms).Out n ret pm ks := hs.of_same rfl rfl
theorem setLink {p : Nat} {x : LinkPort} (hs : s.Out n ret pm ks) : (s.setLink p x).Out n ret pm ks := hs.of_same rfl rfl
theorem setBit {a k : Nat} {b : Bool} (hs : s.Out n ret pm ks) (ha : Apart n a) : (s.setBit a k b).Out n ret pm ks := hs.setFld ha

/-- A context that works is none of them. -/
theorem key_ne {m c : Nat} (hs : s.Out n ret pm ks) (hworks : ¬(s.ctx m c).Workless) : ∀ k ∈ ks, 4 * n.val + k ≠ 4 * m + c := by
  intro k hk heq
  have hctx : s.ctx m c = s.ctx n.val k := by rw [State.ctx, ← heq, ← State.ctx]
  exact hworks (hctx ▸ hs.workless k hk)
theorem setCtx_ne {m c : Nat} {x : Ctx} (hs : s.Out n ret pm ks) (hne : ∀ k ∈ ks, 4 * n.val + k ≠ 4 * m + c) :
    (s.setCtx m c x).Out n ret pm ks where
  ret := hs.ret
  pm := hs.pm
  workless k hk := by
    rw [State.ctx_setCtx_ne s x (hne k hk)]
    exact hs.workless k hk
theorem setCtx {m c : Nat} {x : Ctx} (hs : s.Out n ret pm ks) (hx : (s.ctx m c).Workless → x.Workless) :
    (s.setCtx m c x).Out n ret pm ks where
  ret := hs.ret
  pm := hs.pm
  workless k hk := by
    by_cases heq : 4 * n.val + k = 4 * m + c
    · have hread (t : State) : t.ctx n.val k = t.ctx m c := by rw [State.ctx, heq, ← State.ctx]
      rw [hread, State.ctx_setCtx_same]
      exact hx (hread s ▸ hs.workless k hk)
    · rw [State.ctx_setCtx_ne s x heq]
      exact hs.workless k hk

/-! Registers, memories, contexts -/

theorem put {m k : Nat} {bs : List Byte} (hs : s.Out n ret pm ks) : (s.put m k bs).Out n ret pm ks := by
  unfold State.put State.setMem
  split <;> exact hs.same
theorem hbmWrite {a : Nat} {bs : List Byte} (hs : s.Out n ret pm ks) : (s.hbmWrite a bs).Out n ret pm ks := .ite hs.same hs.same
theorem sliceIn {m k i : Nat} (hs : s.Out n ret pm ks) : (s.sliceIn m k i).Out n ret pm ks := hs.foldl fun _ _ ht => ht.put
theorem deliverStep {m c i : Nat} (hs : s.Out n ret pm ks) : (s.deliverStep m c i).Out n ret pm ks := by
  unfold State.deliverStep
  split
  · exact hs
  · split
    · exact hs.setStr
    · exact hs.setStr
    · extract_lets bs s1
      have hs1 : s1.Out n ret pm ks := hs.same
      split
      · exact hs1.sliceIn
      · exact hs1
theorem withLine {p : Nat} {t : State} (ht : t.Out n ret pm ks) : (s.withLine p t).Out n ret pm ks := .ite ht.same ht
theorem faultN {code : Nat} (hs : s.Out n ret pm ks) : (s.faultN code).Out n ret pm ks :=
  .ite (hs.setBit (a := FLT_STAT) (k := 31) (b := true) (apart_word (by simp))).same hs
theorem log {code unit action info : Nat} (hs : s.Out n ret pm ks) : (s.log code unit action info).Out n ret pm ks := by
  refine .withLine ?_
  extract_lets i s1 h full s2 s3
  have hs1 : s1.Out n ret pm ks := (((hs.setReg (apart_fltEntry (by decide))).setReg (apart_fltEntry (by decide))).setReg
    (apart_fltEntry (by decide))).setReg (apart_fltEntry (by decide))
  have hs2 : s2.Out n ret pm ks := (hs1.setReg (apart_word (by simp))).bump (apart_word (by simp))
  have hs3 : s3.Out n ret pm ks :=
    .ite (((hs2.setReg (apart_word (by simp))).setBit (apart_word (by simp))).bump (apart_word (by simp))) hs2
  exact .ite (hs.bump (apart_fltEntry (by decide))).faultN hs3.faultN
theorem send {m : List Byte} (hs : s.Out n ret pm ks) : (s.send m).Out n ret pm ks := .ite hs hs.same
theorem status {i code seq bid : Nat} (hs : s.Out n ret pm ks) : (s.status i code seq bid).Out n ret pm ks := hs.send
theorem cntStrm {k j : Nat} (hs : s.Out n ret pm ks) : (s.cntStrm k j).Out n ret pm ks :=
  hs.bump (apart_of_le (by simp only [STRM_CNT, pg]; omega))
theorem entryRegs {m c : Nat} {e : Entry} (hs : s.Out n ret pm ks) : (s.entryRegs m c e).Out n ret pm ks :=
  .ite hs.same.setSr.setSr.setSr.setSr.setSr.setSr.setSr.setSr.setAr.setAr hs.same
/-- A context that starts an entry was one that works. -/
theorem startEntry {m c : Nat} (hs : s.Out n ret pm ks) (hready : (s.ctx m c).st = .ready) : (s.startEntry m c).Out n ret pm ks := by
  unfold State.startEntry
  split
  · exact hs
  · extract_lets door s0 s1
    have hs0 : s0.Out n ret pm ks := .ite hs.deliverStep hs
    have hs1 : s1.Out n ret pm ks := .ite (hs0.setBit (apart_of_le (by simp only [SEQ_CTX, pg]; omega))) hs0
    exact hs1.entryRegs.setCtx_ne (hs.key_ne fun h => h.2 hready)
theorem select {m : Nat} (hs : s.Out n ret pm ks) : (s.select m).Out n ret pm ks := by
  unfold State.select
  split
  · exact hs
  · split
    · exact hs
    · split
      next hready => exact hs.startEntry (by simpa using hready)
      next => exact hs.setCtx fun h => ⟨h.1, by simp⟩
theorem endEntry {m c : Nat} (hs : s.Out n ret pm ks) (hworks : ¬(s.ctx m c).Workless) : (s.endEntry m c).Out n ret pm ks :=
  (setCtx_ne (s := { s with casts := Sp.set (fun _ => []) s.casts (4 * m + c) [] }) hs.same (hs.key_ne hworks)).select

/-! Messages, carries, moves -/

theorem emit {p seq : Nat} {flit : List Byte} (hs : s.Out n ret pm ks) : (s.emit p seq flit).Out n ret pm ks := by
  unfold State.emit
  extract_lets x
  split
  exact hs.setLink.same
theorem pump {p fuel : Nat} (hs : s.Out n ret pm ks) : (s.pump p fuel).Out n ret pm ks := by
  induction fuel generalizing s with
  | zero => exact hs
  | succ fuel ih =>
    unfold State.pump
    extract_lets x
    split
    · exact hs
    · split
      · exact hs
      · exact ih hs.setLink.emit
theorem queueFlit {p : Nat} {f : List Byte} (hs : s.Out n ret pm ks) : (s.queueFlit p f).Out n ret pm ks :=
  hs.setLink.pump
theorem sendSeat {typ dst : Nat} {payload : List Byte} (hs : s.Out n ret pm ks) : (s.sendSeat typ dst payload).Out n ret pm ks := by
  unfold State.sendSeat
  extract_lets vc id fs s1
  have hs1 : s1.Out n ret pm ks := hs.same
  split
  · exact hs1.foldl fun _ _ ht => ht.queueFlit
  · exact hs1.bump (apart_of_le (by simp only [LNK_DEV_CNT, pg]; omega))
theorem endCarries {tag : Nat} {done : Bool} (hs : s.Out n ret pm ks) : (s.endCarries tag done).Out n ret pm ks :=
  foldl (hs.of_same rfl rfl) fun _ _ ht => ht.sendSeat
theorem dropHeld {m tag : Nat} (hs : s.Out n ret pm ks) : (s.dropHeld m tag).Out n ret pm ks := hs.endCarries.of_same rfl rfl
theorem drive (hs : s.Out n ret pm ks) : s.drive.Out n ret pm ks := hs.foldl fun _ _ ht => .ite ht ht.setMover.same
theorem cancelIn {tag q : Nat} (hs : s.Out n ret pm ks) : (s.cancelIn tag q).Out n ret pm ks := by
  unfold State.cancelIn
  extract_lets ms ms' s1
  have hs1 : s1.Out n ret pm ks := hs.setMover
  exact .ite (.ite (hs1.bump (apart_of_le (by simp only [MOVER_CNT, pg]; omega))) hs1) hs
theorem cancelMoves {tag : Nat} (hs : s.Out n ret pm ks) : (s.cancelMoves tag).Out n ret pm ks := by
  unfold State.cancelMoves
  extract_lets s0 led s1 dead lost
  have hs1 : s1.Out n ret pm ks := hs.drive.foldl fun _ _ ht => ht.cancelIn
  exact foldl hs1.same fun _ _ ht => .ite ht ht.setTag

/-! Work that ends (R139, R381, R421) -/

theorem freeGranules {zone : Nat} {gs : List Nat} (hs : s.Out n ret pm ks) : (s.freeGranules zone gs).Out n ret pm ks :=
  hs.of_same rfl rfl
theorem dropPlane {i : Nat} {t : Step} (hs : s.Out n ret pm ks) : (s.dropPlane i t).Out n ret pm ks :=
  foldl (.ite hs hs.same) fun _ _ ht => ht.of_same rfl rfl
theorem dropResume {m c tag : Nat} (hs : s.Out n ret pm ks) : (s.dropResume m c tag).Out n ret pm ks := by
  unfold State.dropResume
  extract_lets x
  split
  · exact hs
  · extract_lets hits y z
    have hy : y.entry = x.entry ∧ y.st = x.st := by
      unfold y
      split <;> exact ⟨rfl, rfl⟩
    have hz : z.entry = x.entry ∧ z.st = x.st := by
      unfold z
      split
      · exact hy
      · exact hy
    refine .ite hs (hs.setCtx fun h => ?_)
    rwa [Ctx.Workless, hz.1, hz.2]
theorem dropSoftmax {m tag : Nat} (hs : s.Out n ret pm ks) : (s.dropSoftmax m tag).Out n ret pm ks := .ite hs.same hs
theorem cancelEngines {m tag : Nat} (hs : s.Out n ret pm ks) : (s.cancelEngines m tag).Out n ret pm ks := by
  unfold State.cancelEngines
  extract_lets js gs ps s1 s2 s3
  have hs1 : s1.Out n ret pm ks := hs.same
  have hs2 : s2.Out n ret pm ks := hs1.foldl fun _ _ ht => ht.of_same rfl rfl
  have hs3 : s3.Out n ret pm ks := by
    unfold s3
    split
    · exact .ite hs2.same hs2
    · exact hs2
  exact hs3.dropSoftmax.foldl fun _ _ ht => ht.dropResume
theorem cancelWork {m tag : Nat} (hs : s.Out n ret pm ks) : (s.cancelWork m tag).Out n ret pm ks := hs.cancelEngines.cancelMoves
/-- A tag that ends without OK. -/
theorem tagDone {m lf k status : Nat} (hs : s.Out n ret pm ks) (hstatus : status ≠ 0) : (s.tagDone m lf k status).Out n ret pm ks := by
  unfold State.tagDone
  rw [if_neg hstatus]
  refine (hs.setTag.setCtx fun h => ?_).dropHeld
  rw [State.ctx, State.setTag_ctxs, ← State.ctx] at h
  exact ⟨h.1, h.2⟩
theorem failTag {m lf k : Nat} (hs : s.Out n ret pm ks) : (s.failTag m lf k).Out n ret pm ks := hs.cancelWork.tagDone (by decide)
theorem failTags {m c : Nat} (hs : s.Out n ret pm ks) : (s.failTags m c).Out n ret pm ks := by
  unfold State.failTags
  split
  · exact hs
  · exact hs.foldl fun _ _ ht => .ite ht ht.failTag
theorem freeTags {m i : Nat} (hs : s.Out n ret pm ks) : (s.freeTags m i).Out n ret pm ks := by
  unfold State.freeTags
  split
  · exact hs
  next lf _ =>
    refine hs.foldl fun {t} k _ ht => ?_
    extract_lets r s1 x
    have hs1 : s1.Out n ret pm ks := ht.cancelWork.setTag.dropHeld
    clear_value s1
    exact .ite ht (hs1.setCtx fun h => ⟨h.1, h.2⟩)
theorem abortEntry {m c i : Nat} (hs : s.Out n ret pm ks) : (s.abortEntry m c i).Out n ret pm ks := by
  unfold State.abortEntry
  extract_lets x s1
  have hs1 : s1.Out n ret pm ks := .ite (hs.setCtx fun h => ⟨h.1, h.2⟩) hs
  have hentry : (s1.ctx m c).entry = x.entry := by
    unfold s1
    split
    · rw [State.ctx_setCtx_same]
    · rfl
  split
  next e he =>
    have hworks : ¬(s1.ctx m c).Workless := fun h => by simp [hentry, he, Ctx.Workless] at h
    exact .ite (.ite (hs1.setCtx fun h => absurd h hworks) (hs1.endEntry hworks)) hs1
  · exact hs1
theorem abortEntries {i : Nat} (hs : s.Out n ret pm ks) : (s.abortEntries i).Out n ret pm ks :=
  cancelMoves <| hs.foldl fun _ _ ht => ht.freeTags.cancelEngines.dropHeld.foldl fun _ _ hu => hu.abortEntry
theorem dropStep {i : Nat} (hs : s.Out n ret pm ks) : (s.dropStep i).Out n ret pm ks := by
  unfold State.dropStep
  split
  · exact hs
  · exact .setStr (.freeGranules (.ite hs.abortEntries.dropPlane hs))
theorem complete {i op code : Nat} (hs : s.Out n ret pm ks) : (s.complete i op code).Out n ret pm ks := by
  have hcmd : Apart n STRM_CMD_STAT := apart_of_le (by decide)
  exact .withLine (.ite hs.setStr.same (same (hs.setStr.setBit hcmd)))
theorem completeCmd {i code : Nat} (hs : s.Out n ret pm ks) : (s.completeCmd i code).Out n ret pm ks := by
  unfold State.completeCmd
  split
  · exact hs
  · exact hs.complete
theorem appendBacklog {i : Nat} {b : Burst} (hs : s.Out n ret pm ks) : (s.appendBacklog i b).Out n ret pm ks := by
  unfold State.appendBacklog
  extract_lets x s0 len
  have hs0 : s0.Out n ret pm ks := hs.freeGranules
  exact .ite hs0.hbmWrite.setStr hs0.setStr.status.cntStrm.cntStrm
theorem stowHeld {i : Nat} (hs : s.Out n ret pm ks) : (s.stowHeld i).Out n ret pm ks :=
  hs.setStr.foldl fun _ _ ht => ht.appendBacklog
theorem failStep {i : Nat} {u : Bool} (hs : s.Out n ret pm ks) : (s.failStep i u).Out n ret pm ks := by
  unfold State.failStep
  extract_lets x
  split
  · exact hs.setStr
  · exact hs
theorem failWork {m c : Nat} {u : Bool} (hs : s.Out n ret pm ks) : (s.failWork m c u).Out n ret pm ks := by
  unfold State.failWork
  split
  · exact hs
  · split
    · extract_lets x
      split
      · exact hs.setStr
      · exact hs
    · exact hs.failTags

/-! Fencing and withdrawal (R506, R565) -/

theorem quitStep {i code : Nat} (hs : s.Out n ret pm ks) : (s.quitStep i code).Out n ret pm ks :=
  dropStep (hs.foldl fun _ _ ht => ht.status)
theorem discard {i code : Nat} {bs : List Burst} (hs : s.Out n ret pm ks) : (s.discard i code bs).Out n ret pm ks :=
  hs.foldl fun _ _ ht => ht.freeGranules.status
theorem dropBursts {i : Nat} (hs : s.Out n ret pm ks) : (s.dropBursts i).Out n ret pm ks := hs.discard.setStr.cntStrm
theorem fence (hs : s.Out n ret pm ks) : s.fence.Out n ret pm ks :=
  hs.foldl fun _ _ ht => .ite (send (completeCmd ht.quitStep.dropBursts.setStr)) ht
theorem pauseAll (hs : s.Out n ret pm ks) : s.pauseAll.Out n ret pm ks :=
  hs.foldl fun _ _ ht => .ite ht.quitStep.setStr.completeCmd.stowHeld ht
theorem withdraw (hs : s.Out n ret pm ks) : s.withdraw.Out n ret pm ks :=
  .ite hs (setBit (.ite hs.log.fence hs.log.pauseAll) (apart_word (by simp)))

/-! The retired folio's power sequence and settings (R560, R563, R595) -/

theorem dropPwr {m : Nat} (hs : s.Out n ret pm ks) : (s.dropPwr m).Out n ret pm ks := by
  unfold State.dropPwr
  split
  · exact hs
  · extract_lets s1
    have hs1 : s1.Out n ret pm ks := hs.same
    refine .ite (setReg ?_ (apart_word (by simp))) hs1
    exact .ite (hs1.bump (apart_word (by simp))) (hs1.bump (apart_word (by simp)))
theorem takeSettings {m sp : Nat} (hs : s.Out n ret pm ks) : (s.takeSettings m sp).Out n ret pm ks := by
  have hpages : ∀ a ∈ folioSettings sp, 0x40000 ≤ a := by
    simp only [folioSettings, List.mem_append, List.mem_cons, List.mem_map, List.not_mem_nil, or_false]
    rintro a ((rfl | rfl | rfl) | ⟨k, -, rfl⟩)
    · simp only [FOLIO_CTRL, pg]; omega
    · simp only [FOLIO_FM_PWR, pg]; omega
    · simp only [FOLIO_FM_RET, pg]; omega
    · simp only [SEQ_DESC, pg]; omega
  unfold State.takeSettings
  extract_lets s1 s2
  have hs1 : s1.Out n ret pm ks := hs.foldl fun p hp ht => ht.setReg (apart_of_le (hpages _ (List.of_mem_zip hp).2))
  have hs2 : s2.Out n ret pm ks := hs1.setReg (apart_of_le (by simp only [FOLIO_FM_STAT, pg]; omega))
  refine hs2.foldl fun c _ ht => (ht.setBit (apart_of_le (by simp only [SEQ_CTX, pg]; omega))).setCtx fun _ => ⟨rfl, ?_⟩
  dsimp only
  split <;> decide
theorem takeAsleep {m sp k : Nat} (hs : s.Out n ret pm ks) : (s.takeAsleep m sp k).Out n ret pm ks :=
  hs.takeSettings.setFld (apart_of_le (by simp only [SPN_LEAF, pg]; omega))

end State.Out

end

/-! ## Retirement (R559 to R563) -/

/-- Context c of folio n stops. -/
def State.stopCtx (s : State) (n c : Nat) : State :=
  (((((s.ctx n c).queue.foldl (fun s e => if e.step then s.failStep e.stream true else s) s).failWork n c true).failTags n c).setCtx n c
    Ctx.reset)
theorem isolate_eq (s : State) (n : Nat) : s.isolate n = (((s.stopCtx n 0).stopCtx n 1).stopCtx n 2).stopCtx n 3 := rfl

section
variable {n : Fin 50} {ret pm : Nat} {ks : List Nat} {s : State}

theorem State.Out.self (s : State) : s.Out n (s.reg (FOLIO_RET (n.val / 32))) (s.reg (PM_FOLIO_STATE (n.val / 8))) [] :=
  ⟨rfl, rfl, fun _ h => nomatch h⟩
theorem State.Out.retired_eq {t : State} (ht : t.Out n (s.reg (FOLIO_RET (n.val / 32))) pm ks) : t.retired n.val = s.retired n.val := by
  rw [State.retired, State.rbit, ht.ret, ← State.rbit, ← State.retired]
/-- A context that has stopped no longer works. -/
theorem State.Out.stopCtx {c : Nat} (hs : s.Out n ret pm ks) : (s.stopCtx n.val c).Out n ret pm (c :: ks) := by
  unfold State.stopCtx
  have hdropped : ((s.ctx n.val c).queue.foldl (fun s e => if e.step then s.failStep e.stream true else s) s).Out n ret pm ks :=
    hs.foldl fun _ _ ht => .ite ht.failStep ht
  have hreset : Ctx.reset.Workless := ⟨rfl, by decide⟩
  have hstopped := hdropped.failWork (m := n.val) (c := c) (u := true) |>.failTags (m := n.val) (c := c) |>.setCtx (m := n.val) (c := c)
    fun _ => hreset
  refine ⟨hstopped.ret, hstopped.pm, List.forall_mem_cons.mpr ⟨?_, hstopped.workless⟩⟩
  rw [State.ctx_setCtx_same]
  exact hreset
theorem State.Out.isolate (hs : s.Out n ret pm []) : (s.isolate n.val).Out n ret pm [3, 2, 1, 0] := by
  rw [isolate_eq]
  exact hs.stopCtx.stopCtx.stopCtx.stopCtx

/-- Folio n is retired, its power domain in F4, and no context of it works. -/
def State.OutOfService (n : Fin 50) (s : State) : Prop :=
  s.retired n.val = true ∧ s.folioState n.val = 4 ∧ ∀ k : Fin 4, (s.ctx n.val k.val).entry = none

/-- What `State.Out` keeps of a folio that is out of service makes it out of service. -/
theorem State.Out.outOfService {t : State} (ht : t.Out n (s.reg (FOLIO_RET (n.val / 32))) (s.reg (PM_FOLIO_STATE (n.val / 8))) [3, 2, 1, 0])
    (hret : s.retired n.val = true) (hpm : s.folioState n.val = 4) : t.OutOfService n := by
  refine ⟨ht.retired_eq.trans hret, ?_, fun k => ?_⟩
  · rw [State.folioState, State.fld, ht.pm, ← State.fld, ← State.folioState, hpm]
  · exact (ht.workless k.val (by fin_cases k <;> decide)).1

/-- The state in which a folio has been isolated, marked as retired and put into F4. -/
def State.takenOut (s : State) (n : Nat) : State :=
  (((s.isolate n).dropPwr n).setBit (FOLIO_RET (n / 32)) (n % 32) true).setFolioState n 4
theorem takenOut_retired (s : State) : (s.takenOut n.val).retired n.val = true := by
  have hne : FOLIO_RET (n.val / 32) ≠ PM_FOLIO_STATE (n.val / 8) := by
    simp only [FOLIO_RET, PM_FOLIO_STATE, pg]
    omega
  rw [State.retired, State.rbit, State.takenOut, State.setFolioState, State.reg_setFld_ne _ _ _ _ hne]
  exact State.rbit_setBit_true _ _ (Nat.mod_lt _ (by decide))
theorem takenOut_folioState (s : State) : (s.takenOut n.val).folioState n.val = 4 := by
  have hwidth : 4 * (n.val % 8) + 3 - 4 * (n.val % 8) + 1 = 4 := by omega
  rw [State.folioState, State.takenOut, State.setFolioState, State.fld_setFld_same _ _ _ (by omega) (by omega), hwidth]
  rfl
theorem takenOut_out (s : State) : (s.takenOut n.val).Out n ((s.takenOut n.val).reg (FOLIO_RET (n.val / 32)))
    ((s.takenOut n.val).reg (PM_FOLIO_STATE (n.val / 8))) [3, 2, 1, 0] where
  ret := rfl
  pm := rfl
  workless := (State.Out.self s).isolate.dropPwr.workless

/-- A folio that is retired goes out of service, and what follows keeps it so: its substitution, or the withdrawal where no spare
remains. -/
theorem retire_outOfService (h : s.retired n.val = false) : (s.retire n.val).OutOfService n := by
  refine State.Out.outOfService (s := s.takenOut n.val) ?_ (takenOut_retired s) (takenOut_folioState s)
  unfold State.retire
  rw [h]
  extract_lets s0 s1 sub s2
  have hs1 : s1.Out n _ _ [3, 2, 1, 0] := takenOut_out s
  have hspare : Apart n SPARE_STAT := apart_word (by simp)
  have hs2 : s2.Out n _ _ [3, 2, 1, 0] := (hs1.setFld hspare).log
  clear_value s1
  rw [if_neg (by decide)]
  split
  · clear_value sub
    split
    · exact hs2
    · split
      · exact State.Out.setFld hs2.same hspare
      · exact (State.Out.setBit hs2.same (apart_folioVac _)).log.withdraw
    · exact hs2
  · split
    · exact .ite (hs1.setFld hspare).log.takeAsleep (hs1.setFld hspare).log.same
    · exact (hs1.log.setBit (apart_folioVac _)).log.withdraw

end

/-! ## Counted events (R558, R559) -/

/-- An event that does not trigger a retirement is counted, and nothing else changes. -/
theorem countEvent_of_not_triggers {s : State} {n code info need : Nat} {same : Bool} (h : s.triggers n code info need same = false) :
    s.countEvent n code info need same = { s with events := s.recent ++ [⟨n, code, info, s.rclk⟩] } := by
  have hhits : ((s.recent ++ [⟨n, code, info, s.rclk⟩] : List FEvent).filter
      (fun x => x.unit == n && x.code == code && (!same || x.info == info))).length =
      (s.recent.filter (fun x => x.unit == n && x.code == code && (!same || x.info == info))).length + 1 := by
    simp
  have hall : ((s.recent ++ [⟨n, code, info, s.rclk⟩] : List FEvent).filter (fun x => x.unit == n && x.code == code)).length =
      (s.recent.filter (fun x => x.unit == n && x.code == code)).length + 1 := by
    simp
  unfold State.countEvent
  extract_lets e s1 hits all
  unfold State.triggers at h
  split
  · rfl
  next hin =>
    rw [if_neg]
    rw [show hits.length = _ from hhits, show all.length = _ from hall]
    simpa [hin] using h
/-- An event that retires its folio at once. -/
theorem countEvent_once {s : State} {n code info : Nat} (h : s.retired n = false) :
    s.countEvent n code info 1 false = ({ s with events := s.recent ++ [⟨n, code, info, s.rclk⟩] } : State).retire n := by
  unfold State.countEvent
  extract_lets e s1 hits all
  have hhit : e ∈ hits := by simp [hits, s1, e]
  rw [h, if_neg (by decide), if_pos]
  simp only [Bool.or_eq_true, decide_eq_true_eq]
  exact .inl (List.length_pos_of_mem hhit)

/-! ## Missed bounds (R249, R338, R343, R412, R553) -/

/-- The step on which a context works fails an attempt. -/
theorem failWork_worksOn {s : State} {n c i : Nat} {x : Step} {u : Bool} (h : WorksOn n c i x s) :
    s.failWork n c u = s.setStr i { s.str i with step := some { x with failed := true, uncounted := x.uncounted || u } } := by
  obtain ⟨⟨e, hentry, hstep, rfl⟩, hx⟩ := h
  simp [State.failWork, hentry, hstep, hx]
/-- A fault of an engine whose event triggers no retirement fails the step and is logged and counted, and nothing else. -/
theorem engineFault_worksOn {s : State} {n : Fin 50} {c i code : Nat} {x : Step} {counts : Bool} (hw : WorksOn n.val c i x s)
    (hquiet : counts = true → s.triggers n.val code 0 2 false = false) :
    ∃ regs sideband low, s.engineFault n.val c code counts =
      { s.setStr i { s.str i with step := some { x with failed := true } } with
        regs := regs, sideband := sideband, faultLow := low,
        events := if counts then s.recent ++ [⟨n.val, code, 0, s.rclk⟩] else s.events } := by
  have htrig : (counts && s.triggers n.val code 0 2 false) = false := by
    cases counts
    · rfl
    · exact hquiet rfl
  unfold State.engineFault
  extract_lets tag trig s1
  have hs1 : s1 = (s.setStr i { s.str i with step := some { x with failed := true } }).log code n.val 1 tag := by
    simp only [s1, trig, htrig, failWork_worksOn hw, Bool.or_false]
    rfl
  obtain ⟨regs, sideband, low, hlog⟩ :=
    State.LogOnly.log (s.setStr i { s.str i with step := some { x with failed := true } }) code n.val 1 tag
  have hcounted : s1.retired n.val = s.retired n.val ∧ s1.recent = s.recent ∧ s1.rclk = s.rclk := by
    refine ⟨?_, ?_⟩
    · rw [hs1]
      exact (State.Out.self _).log.retired_eq
    · rw [hs1, hlog]
      exact ⟨rfl, rfl⟩
  obtain ⟨hretired, hrecent, hrclk⟩ := hcounted
  refine ⟨regs, sideband, low, ?_⟩
  cases counts with
  | false =>
    rw [if_neg (by decide), hs1, hlog]
    rfl
  | true =>
    have hnot : s1.triggers n.val code 0 2 false = false := by
      rw [State.triggers, hretired, hrecent]
      exact hquiet rfl
    rw [if_pos rfl, countEvent_of_not_triggers hnot, hrecent, hrclk, hs1, hlog]
    rfl
/-- A missed bound whose event is a fault of its context's engines fails the step. -/
theorem boundFails_of_engineFault {s : State} {n : Fin 50} {c : Fin 4} {ev : Instr} {code : Nat} {counts : Bool}
    (hev : (s.ctx n.val c.val).entry.isSome = true → exec ev s = .next (s.engineFault n.val c.val code counts)) :
    BoundFails ev n.val c.val code counts s := by
  intro i x hw hquiet
  obtain ⟨⟨e, hentry, -⟩, -⟩ := id hw
  obtain ⟨regs, sideband, low, hfault⟩ := engineFault_worksOn hw hquiet
  refine ⟨_, hev (by rw [hentry]; rfl), ?_⟩
  rw [hfault]
  refine ⟨?_, fun j hj => ?_, rfl, rfl⟩
  · exact congrArg Strm.step (State.str_setStr_same s i _)
  · exact State.str_setStr_ne s _ hj
theorem boundMissed_of_entry {s : State} {n : Fin 50} {c : Fin 4} {code : Nat} {counts : Bool}
    (h : (s.ctx n.val c.val).entry.isSome = true) : boundMissed n c code counts s = .next (s.engineFault n.val c.val code counts) := by
  rw [boundMissed, if_neg]
  simpa using Option.isSome_iff_ne_none.mp h
theorem waitMissed_of_wait {s : State} {n : Fin 50} {c : Fin 4} {ks : WaitK → Bool} {code : Nat} {w : WaitK}
    (h : (s.ctx n.val c.val).wait = some w) (hk : ks w = true) :
    waitMissed n c ks code s = .next (s.engineFault n.val c.val code false) := by
  simp only [waitMissed, h, hk, if_true]

/-! ## Hangs (R553, R559, R565) -/

/-- A hang of an engine retires its folio. -/
theorem engHang_engine {s : State} {n : Fin 50} {c : Fin 4} (hentry : (s.ctx n.val c.val).entry.isSome = true)
    (hretired : s.retired n.val = false) : Next (exec (.engHang (.engine n c)) s) (fun t => t.OutOfService n) := by
  have hkept : ((s.failWork n.val c.val true).log 0x2E n.val 4 (s.workTag n.val c.val)).retired n.val = false :=
    (State.Out.self s).failWork.log.retired_eq.trans hretired
  have hout : State.OutOfService n
      (((s.failWork n.val c.val true).log 0x2E n.val 4 (s.workTag n.val c.val)).countEvent n.val 0x2E 0 1 false) := by
    rw [countEvent_once hkept]
    exact retire_outOfService hkept
  have hrun : exec (.engHang (.engine n c)) s = execEngHang (.engine n c) s := rfl
  have hworks : ¬((s.ctx n.val c.val).entry.isNone = true ∧ ¬s.engHolds n.val (s.workTag n.val c.val) = true) := fun h => by
    simp [Option.isNone_iff_eq_none.mp h.1] at hentry
  rw [hrun, execEngHang, if_neg hworks, hretired]
  exact ⟨_, rfl, hout⟩
theorem withdraw_withdrawn (s : State) : s.withdraw.withdrawn = true := by
  unfold State.withdraw
  split
  next h => exact h
  next => exact State.rbit_setBit_true _ _ (by decide)
/-- A hang of a mover withdraws the device. -/
theorem engHang_mover {s : State} {q : Fin 10} {m : Move} {ms : List Move} (h : s.mover q.val = m :: ms) :
    Next (exec (.engHang (.mover q)) s) (fun t => t.withdrawn = true) := by
  have hrun : exec (.engHang (.mover q)) s = execEngHang (.mover q) s := rfl
  rw [hrun]
  simp only [execEngHang, h]
  exact ⟨_, rfl, withdraw_withdrawn _⟩

/-- Settles O47: each event that is due is an engine fault of its context, and a hang retires the folio or withdraws the device. -/
theorem missedBoundsFailTheStep : Obligations.MissedBoundsFailTheStep := by
  intro n c s w
  have hbound {ev : Instr} {code : Nat} {counts : Bool} (hev : exec ev s = boundMissed n c code counts s) :
      BoundFails ev n.val c.val code counts s :=
    boundFails_of_engineFault fun hentry => hev.trans (boundMissed_of_entry hentry)
  refine ⟨hbound rfl, hbound rfl, hbound rfl, hbound rfl, hbound rfl, hbound rfl, fun hw hlim => ?_, fun hw => ?_, fun key hw => ?_,
    engHang_engine, fun q m ms h => engHang_mover h⟩
  · refine boundFails_of_engineFault fun _ => ?_
    have hrun : exec (.lzCreditLate n c) s = execLzCreditLate n c s := rfl
    rw [hrun, execLzCreditLate, if_neg hlim]
    exact waitMissed_of_wait hw rfl
  · refine boundFails_of_engineFault fun _ => ?_
    have hrun : exec (.seqWaitLate n c) s = execSeqWaitLate n c s := rfl
    rw [hrun, execSeqWaitLate]
    obtain hw | ⟨hw, hlim⟩ := hw
    · exact waitMissed_of_wait hw rfl
    · exact waitMissed_of_wait hw (by simp [hlim])
  · exact boundFails_of_engineFault fun _ => waitMissed_of_wait hw rfl

end Sys2Proof.Machine
end

-- ==== GUPD and GPLOAD: O38 ====
section
/-! SUPPORT. GUPD and GPLOAD (R158, R160, R167, R168, R643). In order: bytes and values of a range of a memory; the queue of GUPDs after
its updates; a GUPD that issues; a GPLOAD that issues. -/

namespace Sys2Proof.Machine

open Sys2Proof.Claims

/-! ## Ranges of a memory -/

theorem Memory.bytes_add (m : Memory) (a j k : Nat) : m.bytes a (j + k) = m.bytes a j ++ m.bytes (a + j) k := by
  induction j generalizing a with
  | zero => simp [Memory.bytes]
  | succ j ih =>
    have hassoc : a + 1 + j = a + (j + 1) := by omega
    rw [Nat.succ_add, Memory.bytes, Memory.bytes, ih, hassoc, List.cons_append]
/-- A value inside a range is the value of its bytes there. -/
theorem Memory.load_eq_ofBytes {m : Memory} {a len k j : Nat} (h : k + j ≤ len) :
    m.load (a + k) j = ofBytes (((m.bytes a len).drop k).take j) := by
  obtain ⟨rest, rfl⟩ := Nat.exists_eq_add_of_le h
  rw [Nat.add_assoc, Memory.bytes_add, List.drop_left' (Memory.bytes_length _ _ _), Memory.bytes_add,
    List.take_left' (Memory.bytes_length _ _ _), Memory.load]
theorem Memory.bytes_congr {m m' : Memory} {a len : Nat} (h : ∀ k, a ≤ k → k < a + len → m'.byte k = m.byte k) :
    m'.bytes a len = m.bytes a len := by
  induction len generalizing a with
  | zero => rfl
  | succ len ih => rw [Memory.bytes, Memory.bytes, h a (by omega) (by omega), ih fun k hlo hhi => h k (by omega) (by omega)]

/-! ## The queue of GUPDs (R158, R159) -/

section
variable (s : State) (n c : Nat)

@[simp] theorem gates_setGates_same (gs : List Gupd) : (s.setGates n gs).gates n = gs := Sp.get_set_same _ _ _ _
theorem gates_setGates_ne (gs : List Gupd) {m : Nat} (h : m ≠ n) : (s.setGates n gs).gates m = s.gates m := Sp.get_set_ne _ _ _ h
theorem gates_advance (m : Nat) : (s.advance n c).gates m = s.gates m := by
  rw [State.gates, advance_only]
  rfl
theorem gps_advance : (s.advance n c).gps = s.gps := by rw [advance_only]
theorem pend_advance (m : Nat) : Sp.get (fun _ => []) (s.advance n c).gatePend m = Sp.get (fun _ => []) s.gatePend m := by
  rw [advance_only]

/-- What a GUPD still expects depends on the programs alone. -/
theorem gateNeeds_of_gps {s t : State} (h : t.gps = s.gps) (n : Nat) (g : Gupd) : t.gateNeeds n g = s.gateNeeds n g := by
  simp only [State.gateNeeds, State.gupdProg, State.gateProg, h]
/-- Every class and every program has a pre-activation (R160, R167). -/
theorem classP_pos (cls : Nat) (ws : List Nat) : 0 < classP cls ws := by
  unfold classP progP
  split <;> omega
/-- A GUPD that no pre-activation has reached expects those of all its units and rows. -/
theorem gateNeeds_of_pre_nil {g : Gupd} (h : g.pre = []) :
    s.gateNeeds n g = classP g.cls (s.gupdProg n g) * g.units * g.nrows := by
  rw [State.gateNeeds, h, List.length_nil, Nat.sub_zero]
theorem gateNeeds_pos {g : Gupd} (hpre : g.pre = []) (hunits : g.units ≠ 0) : s.gateNeeds n g ≠ 0 := by
  have hrows : 0 < g.nrows := Nat.le_max_left _ _
  rw [gateNeeds_of_pre_nil s n hpre]
  exact (Nat.mul_pos (Nat.mul_pos (classP_pos _ _) (Nat.pos_of_ne_zero hunits)) hrows).ne'

theorem feedList_nil (need : Gupd → Nat) (gs : List Gupd) : feedList need gs [] = gs := by
  induction gs with
  | nil => rfl
  | cons g gs ih => simp [feedList, ih]
/-- Where no value waits for a GUPD, none reaches one. -/
theorem gates_feedPend_of_pend_nil (h : Sp.get (fun _ => []) s.gatePend n = []) : (s.feedPend n).gates n = s.gates n := by
  simp only [State.feedPend, h, List.take_nil, List.map_nil, feedList_nil]
  exact gates_setGates_same s n _
theorem gates_feedPend_ne {m : Nat} (h : m ≠ n) : (s.feedPend n).gates m = s.gates m := gates_setGates_ne s n _ h
/-- Nothing runs while the oldest GUPD still expects a value. -/
theorem gateRun_waits (h : ∀ g ∈ s.gates n, s.gateNeeds n g ≠ 0) : s.gateRun n = s := by
  unfold State.gateRun
  split
  next g gs hgates => exact if_neg fun hdue => h g (by simp [hgates]) hdue.1
  next => rfl
/-- The oldest GUPD runs, and leaves the queue, once it has all its values and the send slot is free. -/
theorem gateRun_runs {g : Gupd} {gs : List Gupd} (hgates : s.gates n = g :: gs) (hneeds : s.gateNeeds n g = 0)
    (hslot : s.slotBusy n = false) : s.gateRun n = (s.setGates n gs).runGupd n g := by
  simp [State.gateRun, hgates, hneeds, hslot]

end

/-! ## GUPD (R158, R160) -/

/-- The GUPD that an engine slot describes, over the registers of s. -/
def gupdOf (n c : Nat) (e : Eng) (s : State) : Gupd :=
  ⟨e.op 60 57, e.op 56 47, e.op 46 45, e.op 44 34, e.op 33 23, e.op 22 17, e.op 16 6,
    (List.range 4).map (fun k => s.sr n c (2 * e.op 5 2 + k)), e.opb 1, e.rowstat, c, s.engTag n c e, []⟩
/-- The state in which a GUPD has entered the queue, before anything runs. -/
def gupdQueued (n c : Nat) (e : Eng) (s t : State) : State := (t.setGates n (t.gates n ++ [gupdOf n c e s])).feedPend n

section
variable {n c : Nat} {e : Eng} {s : State}

theorem opGupd_run (t : State) : (opGupd n c e s).run t = ((gupdQueued n c e s t).gateRun n).relEng n c e := rfl
/-- A GUPD that issues has a unit (R160). -/
theorem units_of_gupd_clear (h : (opGupd n c e s).clear) : (gupdOf n c e s).units ≠ 0 := by
  obtain ⟨htraps, _⟩ := h
  simp only [opGupd, engSlot, lowestTrap_append_none, lowestTrap_cons_none, Bool.or_eq_false_iff] at htraps
  obtain ⟨_, _, _, _, ⟨⟨⟨⟨hunits, _⟩, _⟩, _⟩, _⟩, _⟩ := htraps
  exact beq_eq_false_iff_ne.mp hunits
theorem gupdQueued_only (t : State) :
    gupdQueued n c e s t = { t with gateQ := (gupdQueued n c e s t).gateQ, gatePend := (gupdQueued n c e s t).gatePend } := rfl
theorem gps_gupdQueued (t : State) : (gupdQueued n c e s t).gps = t.gps := rfl
/-- Where no value waits for a GUPD, the new one is the last of the queue, with those before it as they were. -/
theorem gates_gupdQueued_same (hpend : Sp.get (fun _ => []) s.gatePend n = []) :
    (gupdQueued n c e s (s.advance n c)).gates n = s.gates n ++ [gupdOf n c e s] := by
  refine (gates_feedPend_of_pend_nil ((s.advance n c).setGates n _) n ((pend_advance s n c n).trans hpend)).trans ?_
  rw [gates_setGates_same, gates_advance]
/-- Nothing runs while every GUPD of the folio, the new one among them, expects values. -/
theorem gupdQueued_waits (hpend : Sp.get (fun _ => []) s.gatePend n = []) (hneeds : ∀ g ∈ s.gates n, s.gateNeeds n g ≠ 0)
    (hnew : s.gateNeeds n (gupdOf n c e s) ≠ 0) :
    (gupdQueued n c e s (s.advance n c)).gateRun n = gupdQueued n c e s (s.advance n c) := by
  refine gateRun_waits _ n fun g hg => ?_
  rw [gateNeeds_of_gps ((gps_gupdQueued _).trans (gps_advance s n c))]
  rw [gates_gupdQueued_same hpend, List.mem_append, List.mem_singleton] at hg
  obtain hg | rfl := hg
  · exact hneeds g hg
  · exact hnew
theorem gates_gupdQueued_ne {m : Nat} (h : m ≠ n) : (gupdQueued n c e s (s.advance n c)).gates m = s.gates m := by
  rw [gupdQueued, gates_feedPend_ne _ n h, gates_setGates_ne _ n _ h, gates_advance]

end

/-- The values that a new GUPD expects, for each class (R160). -/
theorem gateNeeds_of_class {s : State} {n : Nat} {g : Gupd} (hpre : g.pre = []) :
    ∀ p ∈ ([(0, 4), (1, 4), (2, 3), (3, 1), (4, 2), (15, progP (s.gateProg n g.pslot))] : List (Nat × Nat)), g.cls = p.1 →
      s.gateNeeds n g = p.2 * g.units * max 1 g.rows := by
  rintro ⟨cls, P⟩ hp rfl
  have hP : classP g.cls (s.gupdProg n g) = P := by
    simp only [List.mem_cons, Prod.mk.injEq, List.not_mem_nil, or_false] at hp
    unfold State.gupdProg
    obtain ⟨h, rfl⟩ | ⟨h, rfl⟩ | ⟨h, rfl⟩ | ⟨h, rfl⟩ | ⟨h, rfl⟩ | ⟨h, rfl⟩ := hp <;> rw [h] <;> rfl
  rw [gateNeeds_of_pre_nil s n hpre, hP, Gupd.nrows]

/-! ## GPLOAD (R167, R168, R643) -/

/-- With no bad word, the issue of a bundle leaves none: the instruction stores that land only write whole words (R355, R406). -/
theorem bad_advance {s : State} (h : s.bad = []) (n c : Nat) : (s.advance n c).bad = [] := by
  simp only [State.advance, State.landStores]
  refine List.foldlRecOn (motive := fun u : State => u.bad = []) _ _ h fun u hu p _ => ?_
  simp only [State.storeBundle, State.put, hu]
  rfl
/-- A write to the gate program store where no word has bad parity. -/
theorem put_gps {t : State} (h : t.bad = []) (k : Nat) (bs : List Byte) : t.put 5 k bs = { t with gps := t.gps.write k bs } := by
  have hcured : cured t.bad 5 k bs.length = t.bad := by
    rw [h]
    rfl
  simp only [State.put, hcured]
  rfl
theorem opGpload_run (n c : Nat) (e : Eng) (s t : State) : (opGpload n c e s).run t =
    (t.put 5 (512 * n + 128 * e.op 60 59) (s.fmBytes n c (addrOf (s.ar n c (e.op 58 55))) 128)).relEng n c e := rfl
/-- The 32 words of a program's bytes. -/
def progWords (data : List Byte) : List Nat := (List.range 32).map (fun j => ofBytes ((data.drop (4 * j)).take 4))
/-- The program of a GPLOAD that issues is valid (R168). -/
theorem progBad_of_gpload_clear {n c : Nat} {e : Eng} {s : State} (h : (opGpload n c e s).clear) :
    progBad (progWords (s.fmBytes n c (addrOf (s.ar n c (e.op 58 55))) 128)) = false := by
  obtain ⟨htraps, _⟩ := h
  simp only [opGpload, engSlot, lowestTrap_append_none, lowestTrap_cons_none] at htraps
  obtain ⟨_, ⟨_, _, hprog, _⟩, _⟩ := htraps
  exact hprog
/-- A valid program fills its slot. -/
theorem progEmpty_of_valid {ws : List Nat} (h : progBad ws = false) : progEmpty ws = false := by
  simp only [progBad, Bool.or_eq_false_iff] at h
  obtain ⟨⟨⟨_, hfilled⟩, _⟩, _⟩ := h
  exact hfilled
theorem gateProg_eq_progWords (s : State) (n slot : Nat) : s.gateProg n slot = progWords (s.gps.bytes (512 * n + 128 * slot) 128) := by
  refine List.map_congr_left fun j hj => ?_
  exact Memory.load_eq_ofBytes (by have := List.mem_range.mp hj; omega)
/-- A slot that holds a valid program has the program's status. -/
theorem slotStatus_of_valid {s : State} {n slot : Nat} {data : List Byte} (hdata : s.gps.bytes (512 * n + 128 * slot) 128 = data)
    (hvalid : progBad (progWords data) = false) : s.slotStatus n slot = some (progStatus (progWords data)) := by
  simp [State.slotStatus, gateProg_eq_progWords, hdata, progEmpty_of_valid hvalid]

/-- A valid program's bytes stored in a slot (R643). -/
theorem put_program {t : State} {m : Memory} {n slot : Nat} {data : List Byte} (hbad : t.bad = []) (hgps : t.gps = m)
    (hlen : data.length = 128) (hvalid : progBad (progWords data) = false) :
    let lo := 512 * n + 128 * slot
    let u := t.put 5 lo data
    u.gps.bytes lo 128 = data ∧ SameOutside lo 128 m u.gps ∧ u.slotStatus n slot = some (progStatus (progWords data)) ∧
      u = { t with gps := u.gps } := by
  intro lo u
  have hu : u = { t with gps := t.gps.write lo data } := put_gps hbad lo data
  have hdata : u.gps.bytes lo 128 = data := by
    rw [hu, ← hlen]
    exact Memory.bytes_write t.gps lo data
  refine ⟨hdata, fun k hk => ?_, slotStatus_of_valid hdata hvalid, by rw [hu]⟩
  rw [hu, ← hgps]
  exact Memory.byte_write_out t.gps lo data (by rwa [hlen])

/-- Settles O38: the queue after a GUPD has entered it, and the slot after a GPLOAD. That the values which waited for a GUPD reach the
next one is the model's log entry 46. -/
theorem gateInstructions : Obligations.GateInstructions := by
  unfold Obligations.GateInstructions
  intro a e s n c i g
  refine ⟨fun ⟨hready, hclear, hscalar⟩ => ?_, fun ⟨hready, hclear, hscalar⟩ => ?_⟩
  · have hrun : exec (.gupd a e) s = _ := engine_runs (some GATE_RESIDUE) hready hclear hscalar
    rw [opGupd_run] at hrun
    have hnew : s.gateNeeds n g ≠ 0 := gateNeeds_pos s n rfl (units_of_gupd_clear hclear)
    have hqueued : gupdQueued n c e s i = (i.setGates n (s.gates n ++ [g])).feedPend n := by
      rw [gupdQueued, gates_advance]
      rfl
    refine ⟨_, hrun, congrArg (State.gateRun · n) hqueued, hnew, gateNeeds_of_class rfl, fun hpend hwait => ?_⟩
    have hall : ∀ x ∈ s.gates n, s.gateNeeds n x ≠ 0 := fun x hx => bne_iff_ne.mp (List.all_eq_true.mp hwait x hx)
    rw [gupdQueued_waits hpend hall hnew]
    exact ⟨gates_gupdQueued_same hpend, fun m hm => gates_gupdQueued_ne hm, gupdQueued_only i⟩
  · have hrun : exec (.gpload a e) s = _ := engine_runs none hready hclear hscalar
    rw [opGpload_run] at hrun
    obtain ⟨_, _, hbad, _⟩ := hready
    exact ⟨_, hrun, put_program (bad_advance hbad n c) (gps_advance s n c) (Memory.bytes_length _ _ _) (progBad_of_gpload_clear hclear)⟩

end Sys2Proof.Machine
end

-- ==== The four-gate cell class: O39 ====
section
/-! SUPPORT. A GUPD of the four-gate class (R161, R163, R164). In order: words written one after another; the places of the words of a
slice; one unit; the whole GUPD. -/

namespace Sys2Proof.Machine

/-! ## Words written one after another -/

/-- 4-byte words stored at their keys. -/
def Memory.writeWords (m : Memory) (ws : List (Nat × Nat)) : Memory := ws.foldl (fun m p => m.store p.1 4 p.2) m
/-- Words put into the gate state buffer at their keys. -/
def State.putGsbWords (s : State) (ws : List (Nat × Nat)) : State := ws.foldl (fun s p => s.put 4 p.1 (toBytes 4 p.2)) s
/-- The words at two keys have no byte in common. -/
def WordsApart (k j : Nat) : Prop := k + 4 ≤ j ∨ j + 4 ≤ k

theorem State.putGsbWords_gsb (s : State) (ws : List (Nat × Nat)) : (s.putGsbWords ws).gsb = s.gsb.writeWords ws :=
  (List.foldl_hom State.gsb fun _ _ => rfl).symm
theorem State.putGsbWords_only (s : State) (ws : List (Nat × Nat)) :
    s.putGsbWords ws = { s with gsb := (s.putGsbWords ws).gsb, bad := (s.putGsbWords ws).bad } :=
  List.foldlRecOn (motive := fun u : State => u = { s with gsb := u.gsb, bad := u.bad }) ws _ rfl fun u hu p _ => by
    rw [hu]
    rfl

theorem Memory.load_store_apart (m : Memory) {k j : Nat} (v : Nat) (h : WordsApart k j) : (m.store j 4 v).load k 4 = m.load k 4 := by
  rw [Memory.load, Memory.load, Memory.bytes_congr fun x hlo hhi => Memory.byte_store_out m j 4 v (by unfold WordsApart at h; omega)]
/-- A word apart from all that are written is as it was. -/
theorem Memory.load_writeWords_apart {m : Memory} {ws : List (Nat × Nat)} {k : Nat} (h : ∀ p ∈ ws, WordsApart k p.1) :
    (m.writeWords ws).load k 4 = m.load k 4 :=
  List.foldlRecOn (motive := fun u : Memory => u.load k 4 = m.load k 4) ws _ rfl fun u hu p hp =>
    (Memory.load_store_apart u p.2 (h p hp)).trans hu
/-- A byte in none of the words that are written is as it was. -/
theorem Memory.byte_writeWords_out {m : Memory} {ws : List (Nat × Nat)} {x : Nat} (h : ∀ p ∈ ws, x < p.1 ∨ p.1 + 4 ≤ x) :
    (m.writeWords ws).byte x = m.byte x :=
  List.foldlRecOn (motive := fun u : Memory => u.byte x = m.byte x) ws _ rfl fun u hu p hp =>
    (Memory.byte_store_out u p.1 4 p.2 (h p hp)).trans hu
/-- Of words that lie apart, each is found where it was written. -/
theorem Memory.load_writeWords_mem {m : Memory} {ws : List (Nat × Nat)} (hapart : ∀ p ∈ ws, ∀ q ∈ ws, p = q ∨ WordsApart p.1 q.1)
    {p : Nat × Nat} (hp : p ∈ ws) : (m.writeWords ws).load p.1 4 = p.2 % 2 ^ 32 := by
  induction ws generalizing m with
  | nil => exact absurd hp List.not_mem_nil
  | cons q ws ih =>
    have htail : ∀ p ∈ ws, ∀ q ∈ ws, p = q ∨ WordsApart p.1 q.1 := fun p hp q hq =>
      hapart p (List.mem_cons_of_mem _ hp) q (List.mem_cons_of_mem _ hq)
    show ((m.store q.1 4 q.2).writeWords ws).load p.1 4 = p.2 % 2 ^ 32
    by_cases hin : p ∈ ws
    · exact ih htail hin
    · obtain rfl := (List.mem_cons.mp hp).resolve_right hin
      rw [Memory.load_writeWords_apart fun r hr => (hapart p hp r (List.mem_cons_of_mem _ hr)).resolve_left fun he => hin (he ▸ hr)]
      exact Memory.load_store m p.1 4 p.2

/-! ## The places of a slice (R158) -/

/-- Two words of a slice of at most 512 units lie apart, whatever its offset: together they fit the folio's 8 KiB. -/
theorem gsbKey_apart (n off : Nat) {units k k' u u' : Nat} (hunits : units ≤ 512) (hk : k < 2) (hk' : k' < 2) (hu : u < units)
    (hu' : u' < units) (hne : ¬(k = k' ∧ u = u')) : WordsApart (gsbKey n off units k u) (gsbKey n off units k' u') := by
  have hplace {k u : Nat} (hk : k < 2) (hu : u < units) : k * units + u < 2048 := by
    have := Nat.mul_le_mul (Nat.le_of_lt_succ hk) hunits
    omega
  have hplaces : k * units + u ≠ k' * units + u' := by
    obtain rfl | rfl : k = 0 ∨ k = 1 := by omega
    all_goals
      obtain rfl | rfl : k' = 0 ∨ k' = 1 := by omega
      all_goals omega
  have hlt := hplace hk hu
  have hlt' := hplace hk' hu'
  unfold WordsApart gsbKey
  omega

/-! ## One unit (R161) -/

/-- A function of the special-function unit as the gate pipeline of a GUPD evaluates it, into FP32. -/
def State.gateFn (s : State) (n : Nat) (g : Gupd) (k w : Nat) : Nat × Fl :=
  fnEval s.level g.compat (s.fstore n) k (fp32 w) .fp32 {}
/-- The new cell state c' of unit u of a four-gate GUPD of one row, with the flags of its rounding. -/
def State.cellC (s : State) (n : Nat) (g : Gupd) (u : Nat) : Nat × Fl :=
  fused (addV (mulV (opnd (s.gateFn n g 0 (g.pre.getD (4 * u + 1) 0)).1) (opnd (s.gsb.load (gsbKey n g.old g.units 0 u) 4)))
    (mulV (opnd (s.gateFn n g 0 (g.pre.getD (4 * u + 0) 0)).1) (opnd (s.gateFn n g 1 (g.pre.getD (4 * u + 2) 0)).1)))
/-- Its new output h'. -/
def State.cellH (s : State) (n : Nat) (g : Gupd) (u : Nat) : Nat × Fl :=
  fused (mulV (opnd (s.gateFn n g 0 (g.pre.getD (4 * u + 3) 0)).1) (opnd (s.gateFn n g 1 (s.cellC n g u).1).1))
/-- The evaluation of the unit. -/
def State.cellEval (s : State) (n : Nat) (g : Gupd) (u : Nat) : UnitOut :=
  unitEval (s.gateFn n g) 0 [] g.ks ((g.pre.drop (u * 4)).take 4) [s.gsb.load (gsbKey n g.old g.units 0 u) 4]
/-- The words of the new slice, unit by unit. -/
def State.cellWords (s : State) (n : Nat) (g : Gupd) : List (Nat × Nat) :=
  (List.range g.units).flatMap fun u =>
    [(gsbKey n g.new g.units 0 u, (s.cellH n g u).1), (gsbKey n g.new g.units 1 u, (s.cellC n g u).1)]

section
variable (s : State) (n : Nat) (g : Gupd)

theorem nth_take_drop (l : List Nat) (a : Nat) {k len : Nat} (h : k < len) : nth ((l.drop a).take len) k = l.getD (a + k) 0 := by
  simp [nth, List.getD_eq_getElem?_getD, h]
/-- A unit writes h' and then c', and exchanges h' in BF16 (R161). -/
theorem cellEval_words_exch (u : Nat) :
    (s.cellEval n g u).words = [some (s.cellH n g u).1, some (s.cellC n g u).1] ∧
      (s.cellEval n g u).exch = (exch16 (s.cellH n g u).1).1 := by
  have hpre (k : Nat) (hk : k < 4) : nth ((g.pre.drop (u * 4)).take 4) k = g.pre.getD (4 * u + k) 0 := by
    rw [nth_take_drop _ _ hk, Nat.mul_comm]
  simp only [State.cellEval, unitEval, hpre 0 (by decide), hpre 1 (by decide), hpre 2 (by decide), hpre 3 (by decide)]
  exact ⟨rfl, rfl⟩

theorem mem_cellWords {p : Nat × Nat} : p ∈ s.cellWords n g ↔ ∃ u < g.units,
    p = (gsbKey n g.new g.units 0 u, (s.cellH n g u).1) ∨ p = (gsbKey n g.new g.units 1 u, (s.cellC n g u).1) := by
  simp [State.cellWords]
theorem cellWords_apart (hunits : g.units ≤ 512) :
    ∀ p ∈ s.cellWords n g, ∀ q ∈ s.cellWords n g, p = q ∨ WordsApart p.1 q.1 := by
  intro p hp q hq
  obtain ⟨u, hu, hp⟩ := (mem_cellWords s n g).mp hp
  obtain ⟨v, hv, hq⟩ := (mem_cellWords s n g).mp hq
  have hkeys {j k : Nat} (hj : j < 2) (hk : k < 2) (hne : ¬(j = k ∧ u = v)) :
      WordsApart (gsbKey n g.new g.units j u) (gsbKey n g.new g.units k v) := gsbKey_apart n g.new hunits hj hk hu hv hne
  by_cases huv : u = v
  · subst huv
    obtain rfl | rfl := hp <;> obtain rfl | rfl := hq
    · exact .inl rfl
    · exact .inr (hkeys (by decide) (by decide) (by simp))
    · exact .inr (hkeys (by decide) (by decide) (by simp))
    · exact .inl rfl
  · refine .inr ?_
    obtain rfl | rfl := hp <;> obtain rfl | rfl := hq <;> exact hkeys (by decide) (by decide) fun h => huv h.2

/-! ## The whole GUPD (R161 to R164) -/

theorem gsb_holdFl (tag field : Nat) (f : Fl) : (s.holdFl n tag field f).gsb = s.gsb := by rw [holdFl_only]
theorem slot_holdFl (tag field : Nat) (f : Fl) : (s.holdFl n tag field f).slot n = s.slot n := by
  rw [State.slot, holdFl_only]
  rfl
theorem slot_setSlot_same (x : Option Slot) : (s.setSlot n x).slot n = x := Sp.get_set_same _ _ _ _
/-- A GUPD of the MVP, or of one streamed row, has one row (R158). -/
theorem nrows_of_rows_le_one (h : g.rows ≤ 1) : g.nrows = 1 := max_eq_left h
/-- The exchanged values of a GUPD of at most 512 units fit the send slot. -/
theorem packBytes16_take {xs : List Nat} (h : xs.length ≤ 512) : (packBytes 16 xs).take 8192 = packBytes 16 xs := by
  refine List.take_of_length_le ?_
  rw [packBytes, toBytes_length]
  omega
/-- A complete four-gate GUPD of one row: its words in the new slice, its exchanged values in the send slot, its flags held. -/
theorem runGupd_fourGate (hcls : g.cls = 0) (hrows : g.rows ≤ 1) (hunits : g.units ≤ 512) :
    ∃ x f, x.bytes = packBytes 16 ((List.range g.units).map fun u => (exch16 (s.cellH n g u).1).1) ∧
      s.runGupd n g = ((s.putGsbWords (s.cellWords n g)).setSlot n (some x)).holdFl n g.tag fieldGATE f := by
  have hnrows := nrows_of_rows_le_one g hrows
  have hprog : s.gupdProg n g = [] := by simp [State.gupdProg, hcls]
  unfold State.runGupd
  extract_lets ws P fn outs s1 xs
  have houts : outs = (List.range g.units).map (fun u => (0, u, s.cellEval n g u)) := by
    simp only [outs, hnrows, Nat.one_mul]
    refine List.map_congr_left fun u hu => ?_
    have hlt := List.mem_range.mp hu
    simp only [Nat.div_eq_of_lt hlt, Nat.mod_eq_of_lt hlt, ws, P, hprog, hcls, Nat.zero_mul, Nat.add_zero]
    rfl
  have hs1 : s1 = s.putGsbWords (s.cellWords n g) := by
    simp only [s1, houts, List.foldl_map, State.putGsbWords, State.cellWords, List.foldl_flatMap, (cellEval_words_exch s n g _).1]
    simp only [Nat.zero_mul, Nat.add_zero]
    rfl
  have hxs : xs = (List.range g.units).map (fun u => (exch16 (s.cellH n g u).1).1) := by
    simp only [xs, houts, List.map_map]
    exact List.map_congr_left fun u _ => (cellEval_words_exch s n g u).2
  split
  rw [hs1, hxs, packBytes16_take (by simpa using hunits)]
  exact ⟨_, _, rfl, rfl⟩
/-- What it leaves: the new slice, the send slot, and nothing else but flags and the parity of the words written. -/
theorem runGupd_fourGate_effect (hcls : g.cls = 0) (hrows : g.rows ≤ 1) (hunits : g.units ≤ 512) :
    let t := s.runGupd n g
    t.gsb = s.gsb.writeWords (s.cellWords n g) ∧
      (t.slot n).map Slot.bytes = some (packBytes 16 ((List.range g.units).map fun u => (exch16 (s.cellH n g u).1).1)) ∧
      t = { s with gsb := t.gsb, slots := t.slots, heldFlags := t.heldFlags, bad := t.bad } := by
  obtain ⟨x, f, hx, hrun⟩ := runGupd_fourGate s n g hcls hrows hunits
  dsimp only
  rw [hrun]
  refine ⟨?_, ?_, ?_⟩
  · rw [gsb_holdFl]
    exact State.putGsbWords_gsb s _
  · rw [slot_holdFl, slot_setSlot_same, Option.map_some, hx]
  · rw [holdFl_only, State.putGsbWords_only]
    rfl

end

/-- Settles O39: the GUPD runs, its words lie apart, and each is read where it was written. -/
theorem fourGateCellsCompute : Obligations.FourGateCellsCompute := by
  intro n s g gs hgates hcls hrows _ hunits hpre hslot
  have hneeds : s.gateNeeds n.val g = 0 := by
    rw [State.gateNeeds, nrows_of_rows_le_one g hrows, hcls, hpre, Nat.mul_one]
    exact Nat.sub_self _
  have hrun := gateRun_runs s n.val hgates hneeds hslot
  obtain ⟨hgsb, hsent, hrest⟩ := runGupd_fourGate_effect (s.setGates n.val gs) n.val g hcls hrows hunits
  rw [← hrun] at hgsb hsent hrest
  have hqueue : (s.gateRun n.val).gateQ = (s.setGates n.val gs).gateQ := by rw [hrest]
  intro t fn p c c' h'
  have hword {q : Nat × Nat} (hq : q ∈ (s.setGates n.val gs).cellWords n.val g) : t.gsb.load q.1 4 = q.2 % 2 ^ 32 := by
    rw [hgsb]
    exact Memory.load_writeWords_mem (cellWords_apart _ _ _ hunits) hq
  refine ⟨?_, fun u hu => ⟨?_, ?_⟩, fun y hy => ?_, hsent, hrest.trans ?_⟩
  · exact (congrArg (Sp.get (fun _ => []) · n.val) hqueue).trans (gates_setGates_same s n.val gs)
  · exact hword ((mem_cellWords _ _ _).mpr ⟨u, hu, .inl rfl⟩)
  · exact hword ((mem_cellWords _ _ _).mpr ⟨u, hu, .inr rfl⟩)
  · refine (congrArg (Memory.byte · y) hgsb).trans (Memory.byte_writeWords_out fun q hq => ?_)
    obtain ⟨u, hu, rfl | rfl⟩ := (mem_cellWords _ _ _).mp hq
    · exact hy u hu 0
    · exact hy u hu 1
  · rw [hqueue]
    rfl

end Sys2Proof.Machine
end

-- ==== The sewing unit: what SSCAN, SSUMM and SCONV share ====
section
/-! SUPPORT. What the instructions of the sewing unit share (R174, R183, R191, R195, R644). In order: folds of meanings that leave a
part of the state; a scalar slot makes no word bad; a message on the links reads nothing of the contexts; an instruction that issues and
ends with more than its release. -/

namespace Sys2Proof.Machine

open Sys2Proof.Claims

/-! ## Folds of meanings that leave a part of the state -/

section
variable {β : Type} {g : State → β}

/-- What each meaning of a fold leaves, the fold leaves. -/
theorem foldl_keeps {α : Type} {f : State → α → State} (hf : ∀ t a, g (f t a) = g t) (l : List α) (t : State) :
    g (l.foldl f t) = g t :=
  List.foldlRecOn (motive := fun u => g u = g t) l f rfl fun u hu a _ => (hf u a).trans hu
/-- The steps of a scan are its units one after another. -/
theorem stepsFrom_eq_unitsFrom (f : Nat → State → State) (lo k : Nat) (t : State) : stepsFrom f lo k t = unitsFrom f lo k t := by
  induction k generalizing lo t with
  | zero => rfl
  | succ k ih => rw [stepsFrom, ih, unitsFrom_succ]
theorem stepsFrom_succ_last (f : Nat → State → State) (k : Nat) (t : State) : stepsFrom f 0 (k + 1) t = f k (stepsFrom f 0 k t) := by
  rw [stepsFrom_eq_unitsFrom, stepsFrom_eq_unitsFrom, unitsFrom_last]
theorem stepsFrom_keeps {f : Nat → State → State} (hf : ∀ k t, g (f k t) = g t) (lo k : Nat) (t : State) :
    g (stepsFrom f lo k t) = g t := by
  rw [stepsFrom_eq_unitsFrom]
  exact foldl_keeps (fun t k => hf k t) _ t
end

/-! ## A scalar slot makes no word bad (R355) -/

section
variable (t : State) (n c : Nat)

/-- A write where no word has bad parity makes none. -/
theorem bad_put {t : State} (h : t.bad = []) (m k : Nat) (bs : List Byte) : (t.put m k bs).bad = [] := by
  simp only [State.put, h]
  rfl
theorem bad_setTagSt (k : Nat) (st : TagSt) : (t.setTagSt n c k st).bad = t.bad := by
  unfold State.setTagSt
  split
  · rfl
  · rfl
theorem bad_takeRecord (lf k : Nat) : (t.takeRecord n c lf k).bad = t.bad := rfl
theorem bad_closeTiles (tag k : Nat) : (t.closeTiles n tag k).bad = t.bad := rfl
theorem bad_dropSoftmax (tag : Nat) : (t.dropSoftmax n tag).bad = t.bad := by
  unfold State.dropSoftmax
  split
  · rfl
  · rfl
theorem bad_dropResume (tag : Nat) : (t.dropResume n c tag).bad = t.bad := by
  unfold State.dropResume
  split
  · rfl
  · extract_lets x hits y z
    split
    · rfl
    · rfl
theorem bad_cancelEngines (tag : Nat) : (t.cancelEngines n tag).bad = t.bad := by
  unfold State.cancelEngines
  extract_lets js gs ps s1 s2 s3
  have h2 : s2.bad = t.bad := foldl_keeps (g := State.bad) (fun t k => bad_closeTiles t n tag k) _ s1
  have h3 : s3.bad = t.bad := by
    dsimp only [s3]
    split
    · split
      · exact h2
      · exact h2
    · exact h2
  exact (foldl_keeps (g := State.bad) (fun t k => bad_dropResume t n k tag) _ _).trans ((bad_dropSoftmax s3 n tag).trans h3)
theorem bad_drive : t.drive.bad = t.bad := by
  refine foldl_keeps (fun t q => ?_) _ t
  dsimp only
  split
  · rfl
  · rfl
theorem bad_cancelIn (tag q : Nat) : (t.cancelIn tag q).bad = t.bad := by
  unfold State.cancelIn
  dsimp only
  split
  · split
    · rfl
    · rfl
  · rfl
theorem bad_recvCancelled (r : McRecv) : (t.recvCancelled r).bad = t.bad := by
  unfold State.recvCancelled
  split
  · rfl
  · rfl
theorem bad_cancelMoves (tag : Nat) : (t.cancelMoves tag).bad = t.bad := by
  unfold State.cancelMoves
  extract_lets s0 led s1 dead lost
  have h1 : s1.bad = t.bad := (foldl_keeps (g := State.bad) (fun t q => bad_cancelIn t tag q) _ s0).trans (bad_drive t)
  refine (foldl_keeps (g := State.bad) (fun t r => bad_recvCancelled t r) lost _).trans ?_
  clear_value s1
  exact h1
theorem bad_cancelWork (tag : Nat) : (t.cancelWork n tag).bad = t.bad :=
  (bad_cancelMoves _ tag).trans (bad_cancelEngines t n tag)

/-- A scalar slot beside an engine instruction that breaks no rule, where no word has bad parity. -/
theorem bad_scalarSlot {t : State} {sc : BitVec 32} {s : State} (h : (scalarSlot true n c sc s).clear) (hbad : t.bad = []) :
    ((scalarSlot true n c sc s).run t).bad = [] := by
  revert h
  unfold scalarSlot
  extract_lets w
  split <;> intro h
  · exact hbad
  iterate 19 next => exact (State.setSr_bad t n c _ _).trans hbad
  · exact bad_put hbad _ _ _
  · exact (State.setSr_bad _ n c _ _).trans ((State.setSr_bad t n c _ _).trans hbad)
  · exact bad_put hbad _ _ _
  · exact (State.setAr_bad t n c _ _).trans hbad
  · exact bad_put hbad _ _ _
  iterate 3 next => exact (State.setAr_bad t n c _ _).trans hbad
  · exact (State.setSr_bad _ n c _ _).trans ((State.setSr_bad t n c _ _).trans hbad)
  · exact (State.setLcr_bad t n c _ _).trans hbad
  · unfold opBr
    dsimp only
    split
    · exact (State.setCtx_bad t n c _).trans hbad
    · exact hbad
  iterate 2 next => exact (State.setCtx_bad t n c _).trans hbad
  · unfold opRet
    dsimp only
    split
    · exact (State.setCtx_bad t n c _).trans hbad
    · exact hbad
  · unfold opLoop
    dsimp only
    split
    · exact (State.setLcr_bad t n c _ _).trans hbad
    · exact (State.setCtx_bad _ n c _).trans ((State.setLcr_bad t n c _ _).trans hbad)
  iterate 5 next => exact absurd h opMixed_not_clear
  · unfold opTopen
    dsimp only
    split
    · exact (State.setTag_bad t _ _ _).trans hbad
    · exact hbad
  · exact (bad_setTagSt t n c _ _).trans hbad
  · unfold opTcancel
    dsimp only
    split
    · split
      · exact (bad_cancelWork _ n _).trans ((bad_setTagSt t n c _ _).trans hbad)
      · exact hbad
    · exact hbad
  · unfold opTwait
    dsimp only
    split
    · exact (bad_takeRecord t n c _ _).trans hbad
    · exact hbad
  · unfold opTpoll
    dsimp only
    split
    · exact (State.setSr_bad _ n c _ _).trans ((bad_takeRecord t n c _ _).trans hbad)
    · exact (State.setSr_bad t n c _ _).trans hbad
  · exact hbad
theorem bad_issued {a : Issue} {e : Eng} {s : State} (h : (scalarSlot true a.folio.val a.ctx.val e.sc s).clear) (hbad : s.bad = []) :
    (issued a e s).bad = [] := bad_scalarSlot _ _ h (bad_advance hbad _ _)
end

/-! ## Messages on the links read nothing of the contexts -/

section
variable (t : State) (x : Sp Ctx)

theorem distsFrom_withCtxs (fuel d : Nat) (front : List Nat) (seen : List (Nat × Nat)) :
    (t.withCtxs x).distsFrom fuel d front seen = t.distsFrom fuel d front seen := by
  induction fuel generalizing d front seen with
  | zero => rfl
  | succ fuel ih =>
    have hhops (a : Nat) : (t.withCtxs x).hops a = t.hops a := rfl
    simp only [State.distsFrom, hhops, ih]
theorem route_withCtxs (dst : Nat) : (t.withCtxs x).route dst = t.route dst := by
  have hdists : (t.withCtxs x).dists dst = t.dists dst := distsFrom_withCtxs t x _ _ _ _
  have hhops (a : Nat) : (t.withCtxs x).hops a = t.hops a := rfl
  have hseat : (t.withCtxs x).seat = t.seat := rfl
  simp only [State.route, hdists, hhops, hseat]
theorem pump_withCtxs (p fuel : Nat) : (t.withCtxs x).pump p fuel = (t.pump p fuel).withCtxs x := by
  induction fuel generalizing t with
  | zero => rfl
  | succ fuel ih =>
    have hfld : (t.withCtxs x).fld (LNK_STAT p) 31 29 = t.fld (LNK_STAT p) 31 29 := rfl
    have hlink : (t.withCtxs x).link p = t.link p := rfl
    unfold State.pump
    rw [hfld, hlink]
    dsimp only
    split
    · rfl
    · split
      · rfl
      · rw [← ih]
        rfl
theorem queueFlit_withCtxs (p : Nat) (f : List Byte) : (t.withCtxs x).queueFlit p f = (t.queueFlit p f).withCtxs x :=
  pump_withCtxs (t.setLink p { t.link p with queue := (t.link p).queue ++ [f] }) x p 1024
theorem sendSeat_withCtxs (typ dst : Nat) (payload : List Byte) :
    (t.withCtxs x).sendSeat typ dst payload = (t.sendSeat typ dst payload).withCtxs x := by
  unfold State.sendSeat
  extract_lets vc id fs s1 id' fs' s1'
  have hfs : fs = fs' := rfl
  have hs1 : s1 = s1'.withCtxs x := rfl
  rw [hfs, hs1, route_withCtxs]
  split
  · exact foldl_withCtxs _ x (fun t f => queueFlit_withCtxs t x _ f) _
  · rfl
theorem passCarry_withCtxs (n dest key tag : Nat) (vs : List (Nat × Nat)) :
    (t.withCtxs x).passCarry n dest key tag vs = (t.passCarry n dest key tag vs).withCtxs x := by
  have hseat : (t.withCtxs x).seat = t.seat := rfl
  unfold State.passCarry
  rw [hseat]
  dsimp only
  rw [← ite_withCtxs, ← sendSeat_withCtxs]
  rfl
end

/-! ## An instruction that issues and ends with more than its release (R174, R191, R644) -/

section
variable {n c : Nat}

/-- A resumable instruction whose units have run ends with what it does at its end, which reads nothing of the contexts, and its
release. -/
theorem longRun_finishes {o : Long} {r : Resume} {t u : State} {e : Eng} {out : State → State}
    (hfin : o.finish = fun t => (out t).relEng n c e) (hout : ∀ t x, out (t.withCtxs x) = (out t).withCtxs x)
    (hpart : o.part r.pos (o.total t) t = (o.total t, u)) (hdue : (u.ctx n c).due = none) (hhalt : (u.ctx n c).halting = false) :
    longRun n c 0 o r t = (out (u.setCtx n c { u.ctx n c with inside := none })).relEng n c e := by
  simp only [longRun, if_true, hpart, Long.after, hdue, Option.isSome_none, lt_irrefl, decide_false, Bool.or_self,
    Bool.false_eq_true, if_false, hfin]
  refine haltDue_of_not_halting ?_
  rw [ctx_relEng, State.setCtx_eq, hout]
  exact (congrArg Ctx.halting (State.ctx_setCtx_same u n c _)).trans hhalt

/-- An instruction of the sewing unit that issues completes: its units, which leave the contexts, then what it does at its end. -/
theorem sewing_completes {opc : Nat} {op : Nat → Nat → Eng → State → Long} {a : Issue} {e : Eng} {s u : State} {post : State → Prop}
    {out : State → State} (h : LongIssues op a e s)
    (hfin : (op a.folio.val a.ctx.val e s).finish = fun t => (out t).relEng a.folio.val a.ctx.val e)
    (hout : ∀ t x, out (t.withCtxs x) = (out t).withCtxs x)
    (hpart : (op a.folio.val a.ctx.val e s).part 0 ((op a.folio.val a.ctx.val e s).total (issued a e s)) (issued a e s) =
      ((op a.folio.val a.ctx.val e s).total (issued a e s), u))
    (hctxs : u.ctxs = (issued a e s).ctxs) (hpost : ∀ t, SameBut (out u) t → post t) :
    CompletesLong (sewing opc op a e s) a e s post := by
  have hs := longStarts h
  have hctx (m k : Nat) : u.ctx m k = (issued a e s).ctx m k := by simp only [State.ctx, hctxs]
  have hnotInside : (s.ctx a.folio.val a.ctx.val).inside.isSome = false := by
    obtain ⟨⟨⟨-, -, hin, -⟩, -⟩, -⟩ := h
    rw [hin]
    rfl
  have hsewing : sewing opc op a e s = longEngine opc op (some SCAN_RESIDUE) a e s := by simp [sewing, hnotInside]
  have hnone : { u.ctx a.folio.val a.ctx.val with inside := none } = u.ctx a.folio.val a.ctx.val := by rw [hctx, ← hs.inside]
  have hends := longRun_finishes (r := s.longRec a.folio.val a.ctx.val (op a.folio.val a.ctx.val e s).kind
    (BitVec.ofNat 128 (bundleOf opc e)).toNat) hfin hout hpart (by rw [hctx, hs.due]) (by rw [hctx, hs.halting])
  have hwith : out (u.setCtx a.folio.val a.ctx.val { u.ctx a.folio.val a.ctx.val with inside := none }) =
      (out u).withCtxs (u.setCtx a.folio.val a.ctx.val { u.ctx a.folio.val a.ctx.val with inside := none }).ctxs := hout u _
  refine ⟨_, hsewing.trans ((long_runs _ h).trans (congrArg _ hends)), hpost _ (hwith ▸ sameBut_iff.mpr ⟨_, rfl⟩), fun m k => ?_⟩
  rw [hwith, hnone]
  exact (ctx_setCtx_self rfl m k).trans (hctx m k)
end

end Sys2Proof.Machine
end

-- ==== CARRY_PASS: O43 ====
section
/-! SUPPORT. CARRY_PASS (R183): the ways of a carry and the inboxes after one, and the event. -/

namespace Sys2Proof.Machine

open Sys2Proof.Claims

section
variable {s : State} {n lf : Nat}

/-- The state in which the carry x has left the way to logical folio lf, where `xs` follow, for the inbox of folio n. -/
def State.carryEnters (s : State) (n lf : Nat) (x : Carry) (xs : List Carry) : State :=
  { s with carries := Sp.set (fun _ => []) s.carries lf xs }.setInbox n (s.inboxOf n ++ [x])

variable (x : Carry) (xs : List Carry)

theorem inboxOf_carryEnters_same : (s.carryEnters n lf x xs).inboxOf n = s.inboxOf n ++ [x] := Sp.get_set_same _ _ _ _
theorem inboxOf_carryEnters_ne {k : Nat} (h : k ≠ n) : (s.carryEnters n lf x xs).inboxOf k = s.inboxOf k := Sp.get_set_ne _ _ _ h
theorem carries_carryEnters_same : Sp.get (fun _ => []) (s.carryEnters n lf x xs).carries lf = xs := Sp.get_set_same _ _ _ _
theorem carries_carryEnters_ne {k : Nat} (h : k ≠ lf) :
    Sp.get (fun _ => []) (s.carryEnters n lf x xs).carries k = Sp.get (fun _ => []) s.carries k := Sp.get_set_ne _ _ _ h
end

section
variable {s : State} {n : Fin 50} {lf : Nat} (h : s.logical n.val = some lf)
include h

theorem execCarryPass_enters {x : Carry} {xs : List Carry} (hway : Sp.get (fun _ => []) s.carries lf = x :: xs)
    (hroom : (s.inboxOf n.val).length < 4) : execCarryPass n s = .next (s.carryEnters n.val lf x xs) := by
  simp only [execCarryPass, h, hway, Nat.not_le.mpr hroom, if_false]
  rfl
/-- A full inbox and an empty way refuse the event. -/
theorem execCarryPass_refuses (hno : 4 ≤ (s.inboxOf n.val).length ∨ Sp.get (fun _ => []) s.carries lf = []) :
    ∃ w, execCarryPass n s = .fault w := by
  cases hway : Sp.get (fun _ => []) s.carries lf with
  | nil => exact ⟨_, by simp only [execCarryPass, h, hway]; rfl⟩
  | cons x xs =>
    have hfull : 4 ≤ (s.inboxOf n.val).length := hno.resolve_right (by simp [hway])
    exact ⟨_, by simp only [execCarryPass, h, hway, hfull, if_true]; rfl⟩
end

/-- Settles O43: the event moves the oldest carry of the way, and refuses without one or without room. -/
theorem carriesEnterInboxesInOrder : Obligations.CarriesEnterInboxesInOrder := by
  intro n s lf hlf
  refine ⟨fun x xs hway hroom => ?_, execCarryPass_refuses hlf⟩
  exact ⟨_, execCarryPass_enters hlf hway hroom, inboxOf_carryEnters_same x xs, carries_carryEnters_same x xs,
    fun k hk => inboxOf_carryEnters_ne x xs hk, fun k hk => carries_carryEnters_ne x xs hk, rfl⟩

end Sys2Proof.Machine
end

-- ==== SSCAN and SSUMM: O40 ====
section
/-! SUPPORT. SSCAN and SSUMM (R174 to R186). In order: a lane after it has been set; lanes set one after another; what the checks of one
that issues say; the steps leave the contexts; the carry-in and the carry-out; a direct scan; a summary. -/

namespace Sys2Proof.Machine

open Sys2Proof.Claims

/-! ## Lanes and the carry file -/

/-- The words of lane k of a folio's sewing unit, the high one first. -/
def State.sewLane (s : State) (n k : Nat) : Nat × Nat := (s.laneH n k, s.laneL n k)
/-- From t to u only lane states and held flags differ. -/
def State.LanesOnly (t u : State) : Prop := u = { t with sew := u.sew, heldFlags := u.heldFlags }
/-- From m to t lane k takes the words `hl`, and beside it only held flags differ; m and t are i but for lane states and held flags. -/
structure State.SetsLane (i : State) (n k : Nat) (hl : Nat × Nat) (m t : State) : Prop where
  only : i.LanesOnly t
  lane : ∀ j < 256, t.sewLane n j = if j = k then hl else m.sewLane n j

section
variable {i m t : State} {n k : Nat}

theorem State.LanesOnly.refl (t : State) : t.LanesOnly t := rfl
theorem State.LanesOnly.trans (h : i.LanesOnly m) (h' : m.LanesOnly t) : i.LanesOnly t := Eq.trans h' (by rw [h])
theorem State.LanesOnly.elemAt (h : i.LanesOnly m) (c a : Nat) (f : Fmt) (strict : Bool) (j : Nat) :
    m.elemAt n c a f strict j = i.elemAt n c a f strict j := by
  rw [h]
  rfl
theorem State.LanesOnly.andFile (h : i.LanesOnly m) (h' : t = { m with carryf := t.carryf }) :
    t = { i with sew := t.sew, carryf := t.carryf, heldFlags := t.heldFlags } := by
  have hsew : t.sew = m.sew := by rw [h']
  have hflags : t.heldFlags = m.heldFlags := by rw [h']
  rw [hsew, hflags]
  exact h'.trans (by rw [h])
theorem State.LanesOnly.andSlots (h : i.LanesOnly m) (h' : t = { m with slots := t.slots }) :
    t = { i with sew := t.sew, heldFlags := t.heldFlags, slots := t.slots } := by
  have hsew : t.sew = m.sew := by rw [h']
  have hflags : t.heldFlags = m.heldFlags := by rw [h']
  rw [hsew, hflags]
  exact h'.trans (by rw [h])
theorem lanesOnly_holdFl (tag field : Nat) (f : Fl) : m.LanesOnly (m.holdFl n tag field f) := by
  rw [holdFl_only]
  rfl
theorem sewLane_holdFl (tag field j : Nat) (f : Fl) : (m.holdFl n tag field f).sewLane n j = m.sewLane n j := by
  rw [holdFl_only]
  rfl
theorem sewLane_setLane (hk : k < 256) {j : Nat} (hj : j < 256) (h l : Nat) :
    (m.setLane n k h l).sewLane n j = if j = k then (h % 2 ^ 32, l % 2 ^ 32) else m.sewLane n j := by
  have hlow : 512 * n + j ≠ 512 * n + 256 + k := by omega
  split
  next hjk =>
    subst hjk
    simp [State.sewLane, State.laneH, State.laneL, State.setLane, Sp.get_set_same, Sp.get_set_ne _ _ _ hlow]
  next hjk =>
    have hhigh : 512 * n + j ≠ 512 * n + k := by omega
    have hlow' : 512 * n + 256 + j ≠ 512 * n + 256 + k := by omega
    have hhigh' : 512 * n + 256 + j ≠ 512 * n + k := by omega
    simp [State.sewLane, State.laneH, State.laneL, State.setLane, Sp.get_set_ne _ _ _ hlow, Sp.get_set_ne _ _ _ hlow',
      Sp.get_set_ne _ _ _ hhigh, Sp.get_set_ne _ _ _ hhigh']

theorem State.LanesOnly.setLane (hm : i.LanesOnly m) (hk : k < 256) (h l : Nat) :
    i.SetsLane n k (h % 2 ^ 32, l % 2 ^ 32) m (m.setLane n k h l) :=
  ⟨hm.trans rfl, fun _ hj => sewLane_setLane hk hj h l⟩
theorem State.SetsLane.holdFl {hl : Nat × Nat} (h : i.SetsLane n k hl m t) (tag field : Nat) (f : Fl) :
    i.SetsLane n k hl m (t.holdFl n tag field f) :=
  ⟨h.only.trans (lanesOnly_holdFl tag field f), fun j hj => (sewLane_holdFl tag field j f).trans (h.lane j hj)⟩

/-- A sweep over the lanes that sets each by what it held: the lanes below the bound are set, the others are as before. -/
theorem sweep_lanes {f : State → Nat → State} {v : Nat → Nat × Nat → Nat × Nat}
    (hf : ∀ m k, i.LanesOnly m → k < 256 → i.SetsLane n k (v k (m.sewLane n k)) m (f m k)) {E : Nat} (hE : E ≤ 256) (hm : i.LanesOnly m) :
    i.LanesOnly ((List.range E).foldl f m) ∧
      ∀ j < 256, ((List.range E).foldl f m).sewLane n j = if j < E then v j (m.sewLane n j) else m.sewLane n j := by
  induction E with
  | zero => exact ⟨hm, fun j _ => by simp⟩
  | succ E ih =>
    obtain ⟨honly, hlanes⟩ := ih (by omega)
    have hstep := hf _ E honly (by omega)
    simp only [List.range_succ, List.foldl_append, List.foldl_cons, List.foldl_nil]
    refine ⟨hstep.only, fun j hj => ?_⟩
    rw [hstep.lane j hj, hlanes j hj, hlanes E (by omega), if_neg (lt_irrefl E)]
    obtain hlt | rfl | hgt := lt_trichotomy j E
    · rw [if_neg hlt.ne, if_pos hlt, if_pos (by omega)]
    · rw [if_pos rfl, if_pos (by omega)]
    · rw [if_neg hgt.ne', if_neg (by omega), if_neg (by omega)]

/-- Steps each of which sets every lane below E by what it held. -/
theorem stepsFrom_lanes {f : Nat → State → State} {v : Nat → Nat → Nat × Nat → Nat × Nat} {E : Nat}
    (hf : ∀ t m, i.LanesOnly m → i.LanesOnly (f t m) ∧ ∀ j < E, (f t m).sewLane n j = v t j (m.sewLane n j)) (hm : i.LanesOnly m) (T : Nat) :
    i.LanesOnly (stepsFrom f 0 T m) ∧
      ∀ j < E, (stepsFrom f 0 T m).sewLane n j = (List.range T).foldl (fun hl t => v t j hl) (m.sewLane n j) := by
  induction T with
  | zero => exact ⟨hm, fun j _ => rfl⟩
  | succ T ih =>
    obtain ⟨honly, hlanes⟩ := ih
    obtain ⟨hlast, hset⟩ := hf T _ honly
    rw [stepsFrom_succ_last]
    refine ⟨hlast, fun j hj => ?_⟩
    rw [hset j hj, hlanes j hj, List.range_succ, List.foldl_append]
    rfl

theorem fileH_setFile (hk : k < 256) {j : Nat} (hj : j < 256) (h l : Nat) :
    (m.setFile n k h l).fileH n j = if j = k then h % 2 ^ 32 else m.fileH n j := by
  have hlow : 512 * n + j ≠ 512 * n + 256 + k := by omega
  split
  next hjk =>
    subst hjk
    simp [State.fileH, State.setFile, Sp.get_set_same, Sp.get_set_ne _ _ _ hlow]
  next hjk =>
    have hhigh : 512 * n + j ≠ 512 * n + k := by omega
    simp [State.fileH, State.setFile, Sp.get_set_ne _ _ _ hlow, Sp.get_set_ne _ _ _ hhigh]
theorem laneH_mod : m.laneH n k % 2 ^ 32 = m.laneH n k := Nat.mod_eq_of_lt (BitVec.isLt _)
theorem fileH_mod : m.fileH n k % 2 ^ 32 = m.fileH n k := Nat.mod_eq_of_lt (BitVec.isLt _)

/-- The lanes written to the carry file (R182). -/
def State.lanesToFile (m : State) (n E : Nat) : State :=
  (List.range E).foldl (fun m k => m.setFile n k (m.laneH n k) (m.laneL n k)) m

theorem lanesToFile_only (m : State) (n E : Nat) : m.lanesToFile n E = { m with carryf := (m.lanesToFile n E).carryf } :=
  List.foldlRecOn (motive := fun u : State => u = { m with carryf := u.carryf }) _ _ rfl fun _ hu _ _ => Eq.trans rfl (by rw [hu]; rfl)
theorem sew_lanesToFile (E : Nat) : (m.lanesToFile n E).sew = m.sew := by rw [lanesToFile_only]
theorem laneH_lanesToFile (E : Nat) : (m.lanesToFile n E).laneH n k = m.laneH n k := by
  rw [lanesToFile_only]
  rfl
theorem fileH_lanesToFile {E : Nat} (hE : E ≤ 256) (hk : k < E) : (m.lanesToFile n E).fileH n k = m.laneH n k := by
  induction E with
  | zero => omega
  | succ E ih =>
    have hsucc : m.lanesToFile n (E + 1) =
        (m.lanesToFile n E).setFile n E ((m.lanesToFile n E).laneH n E) ((m.lanesToFile n E).laneL n E) := by
      simp only [State.lanesToFile, List.range_succ, List.foldl_append, List.foldl_cons, List.foldl_nil]
    rw [hsucc, fileH_setFile (by omega) (by omega), laneH_lanesToFile, laneH_mod]
    split
    next hkE => rw [hkE]
    next hkE => exact ih (by omega) (by omega)
end

/-! ## The checks of an SSCAN or SSUMM (R174, R450) -/

section
variable {n c : Nat} {e : Eng} {s : State}

theorem scanTraps_clear {summ : Bool} (h : lowestTrap (scanTraps n c e s summ) = none) :
    wE e ≤ 256 ∧ (wMODE e = false → wRO e = false) := by
  simp only [scanTraps, lowestTrap_append_none, fmtTrap, lowestTrap_cons_none] at h
  obtain ⟨⟨⟨⟨⟨-, -, -, -, -, -, hshape, hmode, -⟩, -⟩, -⟩, -⟩, -⟩ := h
  simp only [Bool.or_eq_false_iff, decide_eq_false_iff_not, not_lt] at hshape hmode
  obtain ⟨⟨⟨⟨-, hE⟩, -⟩, -⟩, -⟩ := hshape
  obtain ⟨⟨⟨-, hread⟩, -⟩, -⟩ := hmode
  exact ⟨hE, fun hsel => by simpa [hsel] using hread⟩
theorem opSscan_clear (h : (opSscan n c e s).clear) : wE e ≤ 256 ∧ (wMODE e = false → wRO e = false) :=
  scanTraps_clear ((lowestTrap_append_none _ _).mp h.1).2
theorem opSsumm_clear (h : (opSsumm n c e s).clear) : wE e ≤ 256 := (scanTraps_clear ((lowestTrap_append_none _ _).mp h.1).2).1

/-- The units of a scan hold all of its steps (R195). -/
theorem le_scanUnit_mul (T : Nat) : T ≤ scanUnit e * ((T + scanUnit e - 1) / scanUnit e) := by
  unfold scanUnit
  split
  · omega
  · omega

/-! ## The steps leave the contexts -/

variable (m : State)

theorem ctxs_holdFl (tag field : Nat) (f : Fl) : (m.holdFl n tag field f).ctxs = m.ctxs := by rw [holdFl_only]
theorem ctxs_setLane (k h l : Nat) : (m.setLane n k h l).ctxs = m.ctxs := rfl
theorem ctxs_scanAll (t : Nat) : (scanAll n c e s t m).ctxs = m.ctxs := by
  unfold scanAll
  extract_lets E a tag m1 w
  have hstore (u : State) (j len v : Nat) : (u.fmStore n c j len v).ctxs = u.ctxs := State.fmStore_ctxs u n c j len v
  have hsteps : m1.ctxs = m.ctxs := by
    refine foldl_keeps (g := State.ctxs) (fun m k => ?_) _ m
    split
    extract_lets m' r z
    have hset : m'.ctxs = m.ctxs := (ctxs_holdFl _ _ _ _).trans (ctxs_setLane _ _ _ _)
    split
    · exact (hstore _ _ _ _).trans hset
    · exact (ctxs_holdFl _ _ _ _).trans ((hstore _ _ _ _).trans hset)
    · exact (hstore _ _ _ _).trans hset
    · exact hset
  clear_value m1
  split
  · refine (foldl_keeps (g := State.ctxs) (fun m d => ?_) _ m1).trans hsteps
    exact (ctxs_holdFl _ _ _ _).trans (hstore _ _ _ _)
  · exact hsteps
theorem ctxs_carryIn : (carryIn n c e s m).ctxs = m.ctxs := by
  unfold carryIn
  extract_lets a set lo
  have hset (v : Nat → Nat × Nat) (u : State) : (set v u).ctxs = u.ctxs :=
    foldl_keeps (g := State.ctxs) (fun m k => ctxs_setLane m k (v k).1 (v k).2) _ u
  split
  · exact hset _ m
  · exact hset _ m
  · split
    · exact hset _ m
    · exact hset _ m
    · exact hset _ m
  · split
    · exact hset _ _
    · rfl

/-! ## The ends read nothing of the contexts -/

theorem fmStore_withCtxs (x : Sp Ctx) (j len v : Nat) : (m.withCtxs x).fmStore n c j len v = (m.fmStore n c j len v).withCtxs x :=
  put_withCtxs m x _ _ _
theorem laneH_withCtxs (x : Sp Ctx) (k : Nat) : (m.withCtxs x).laneH n k = m.laneH n k := rfl
theorem laneL_withCtxs (x : Sp Ctx) (k : Nat) : (m.withCtxs x).laneL n k = m.laneL n k := rfl
theorem carryOut_withCtxs (x : Sp Ctx) : carryOut n c e s (m.withCtxs x) = (carryOut n c e s m).withCtxs x := by
  unfold carryOut
  dsimp only
  split
  · rfl
  · exact foldl_withCtxs m x (fun _ _ => rfl) _
  · refine foldl_withCtxs m x (fun m k => ?_) _
    split
    · exact fmStore_withCtxs m x _ _ _
    · rw [laneH_withCtxs, fmStore_withCtxs, holdFl_withCtxs]
    · exact fmStore_withCtxs m x _ _ _
  · exact passCarry_withCtxs m x n _ _ _ _
theorem summOut_withCtxs (x : Sp Ctx) : summOut n c e s (m.withCtxs x) = (summOut n c e s m).withCtxs x := by
  unfold summOut
  dsimp only
  split
  · rfl
  · exact foldl_withCtxs m x (fun _ _ => rfl) _
  · refine foldl_withCtxs m x (fun m k => ?_) _
    rw [laneH_withCtxs, laneL_withCtxs, fmStore_withCtxs, fmStore_withCtxs]
  · rfl
end

/-! ## A direct scan without pair (R175, R182) -/

section
variable {n c : Nat} {e : Eng} {s i m : State}

theorem scanCoef_direct (hmode : wMODE e = false) (h : i.LanesOnly m) (t k : Nat) : scanCoef n c e s t k m =
    ⟨i.elemAt n c (addrOf (s.blockA n c e 0)) (ifmt e) e.strict (t * wE e + k),
      i.elemAt n c (addrOf (s.blockA n c e 1)) (ifmt e) e.strict (t * wE e + k), {}⟩ := by
  simp only [scanCoef, hmode, Bool.false_eq_true, if_false, h.elemAt]
/-- Without state outputs and readouts a step sets the lanes and holds their flags. -/
theorem scanAll_lanes (hhout : wHOUT e = 0) (hro : wRO e = false) (t : Nat) : scanAll n c e s t m =
    (List.range (wE e)).foldl (fun m k =>
      let r := scanStep e (scanCoef n c e s t k m) (m.sewLane n k)
      (m.setLane n k r.1.1 r.1.2).holdFl n (s.engTag n c e) fieldSCAN r.2) m := by
  simp only [scanAll, hhout, hro, Bool.false_eq_true, if_false]
  rfl

/-- What step t of a direct scan leaves in lane k, over the state i. -/
def scanLane (n c : Nat) (e : Eng) (s i : State) (t k : Nat) (hl : Nat × Nat) : Nat × Nat :=
  let r := scanStep e ⟨i.elemAt n c (addrOf (s.blockA n c e 0)) (ifmt e) e.strict (t * wE e + k),
    i.elemAt n c (addrOf (s.blockA n c e 1)) (ifmt e) e.strict (t * wE e + k), {}⟩ hl
  (r.1.1 % 2 ^ 32, r.1.2 % 2 ^ 32)
theorem scanAll_direct (hE : wE e ≤ 256) (hmode : wMODE e = false) (hhout : wHOUT e = 0) (hro : wRO e = false) (t : Nat) (m : State)
    (hm : i.LanesOnly m) : i.LanesOnly (scanAll n c e s t m) ∧
      ∀ k < wE e, (scanAll n c e s t m).sewLane n k = scanLane n c e s i t k (m.sewLane n k) := by
  have hlane (m : State) (k : Nat) (hm : i.LanesOnly m) (hk : k < 256) : i.SetsLane n k (scanLane n c e s i t k (m.sewLane n k)) m
      (let r := scanStep e (scanCoef n c e s t k m) (m.sewLane n k)
       (m.setLane n k r.1.1 r.1.2).holdFl n (s.engTag n c e) fieldSCAN r.2) := by
    rw [scanCoef_direct hmode hm]
    exact (hm.setLane hk _ _).holdFl _ _ _
  obtain ⟨honly, hset⟩ := sweep_lanes hlane hE hm
  rw [scanAll_lanes hhout hro]
  exact ⟨honly, fun k hk => (hset k (by omega)).trans (if_pos hk)⟩
/-- The steps of a direct scan without pair leave the recurrence of a lane's coefficients in it (R175). -/
theorem laneH_scanSteps (hE : wE e ≤ 256) (hmode : wMODE e = false) (hprec : wPREC e = false) (hhout : wHOUT e = 0) (hro : wRO e = false)
    (hm : i.LanesOnly m) (T : Nat) : i.LanesOnly (stepsFrom (fun t m => scanAll n c e s t m) 0 T m) ∧
      ∀ k < wE e, (stepsFrom (fun t m => scanAll n c e s t m) 0 T m).laneH n k =
        recurrence e (fun t => i.elemAt n c (addrOf (s.blockA n c e 0)) (ifmt e) e.strict (t * wE e + k))
          (fun t => i.elemAt n c (addrOf (s.blockA n c e 1)) (ifmt e) e.strict (t * wE e + k)) (m.laneH n k) T := by
  obtain ⟨honly, hlanes⟩ := stepsFrom_lanes (n := n) (scanAll_direct (n := n) (c := c) (s := s) hE hmode hhout hro) hm T
  refine ⟨honly, fun k hk => (congrArg Prod.fst (hlanes k hk)).trans (List.foldl_hom Prod.fst fun hl t => ?_).symm⟩
  simp only [scanLane, scanStep, hprec, Bool.false_eq_true, if_false]
  split
  · rfl
  · rfl

/-- A carry-in of zero or of the carry file. -/
theorem carryIn_direct (hE : wE e ≤ 256) (hcin : wCIN e ≤ 1) : i.LanesOnly (carryIn n c e s i) ∧
    ∀ k < wE e, (carryIn n c e s i).laneH n k = if wCIN e = 0 then 0 else i.fileH n k := by
  have hset (v : Nat → Nat × Nat) := sweep_lanes (n := n) (f := fun m k => m.setLane n k (v k).1 (v k).2)
    (v := fun k _ => ((v k).1 % 2 ^ 32, (v k).2 % 2 ^ 32)) (fun m k hm hk => hm.setLane hk (v k).1 (v k).2) hE (State.LanesOnly.refl i)
  obtain h | h : wCIN e = 0 ∨ wCIN e = 1 := by omega
  · obtain ⟨honly, hlanes⟩ := hset fun _ => (0, 0)
    simp only [carryIn, h, if_true]
    exact ⟨honly, fun k hk => (congrArg Prod.fst (hlanes k (by omega))).trans (by rw [if_pos hk]; rfl)⟩
  · obtain ⟨honly, hlanes⟩ := hset fun k => (i.fileH n k, if wPREC e then i.fileL n k else 0)
    simp only [carryIn, h, one_ne_zero, if_false]
    exact ⟨honly, fun k hk => (congrArg Prod.fst (hlanes k (by omega))).trans (by rw [if_pos hk]; exact fileH_mod)⟩
theorem carryOut_none (hcout : wCOUT e = 0) : carryOut n c e s m = m := by simp only [carryOut, hcout]
theorem carryOut_file (hcout : wCOUT e = 1) : carryOut n c e s m = m.lanesToFile n (wE e) := by
  simp only [carryOut, hcout]
  rfl
/-- A carry-out to nowhere or to the carry file (R182). -/
theorem carryOut_direct (hE : wE e ≤ 256) (hcout : wCOUT e ≤ 1) :
    let t := carryOut n c e s m
    t = { m with carryf := t.carryf } ∧ (∀ k, t.laneH n k = m.laneH n k) ∧ (wCOUT e = 1 → ∀ k < wE e, t.fileH n k = m.laneH n k) ∧
      (wCOUT e = 0 → t.carryf = m.carryf) := by
  obtain h | h : wCOUT e = 0 ∨ wCOUT e = 1 := by omega
  · rw [carryOut_none h]
    exact ⟨rfl, fun _ => rfl, fun h1 => absurd (h.symm.trans h1) (by decide), fun _ => rfl⟩
  · rw [carryOut_file h]
    exact ⟨lanesToFile_only m n _, fun k => laneH_lanesToFile _, fun _ k hk => fileH_lanesToFile hE hk,
      fun h0 => absurd (h0.symm.trans h) (by decide)⟩
/-- A direct scan without pair from its carry-in to its carry-out, none or the file. -/
theorem scan_direct (hE : wE e ≤ 256) (hmode : wMODE e = false) (hprec : wPREC e = false) (hhout : wHOUT e = 0) (hro : wRO e = false)
    (hcin : wCIN e ≤ 1) (hcout : wCOUT e ≤ 1) (T : Nat) :
    let u := carryOut n c e s (stepsFrom (fun k m => scanAll n c e s k m) 0 T (carryIn n c e s i))
    (∀ k < wE e, u.laneH n k =
      recurrence e (fun t => i.elemAt n c (addrOf (s.blockA n c e 0)) (ifmt e) e.strict (t * wE e + k))
        (fun t => i.elemAt n c (addrOf (s.blockA n c e 1)) (ifmt e) e.strict (t * wE e + k)) (if wCIN e = 0 then 0 else i.fileH n k) T) ∧
      (wCOUT e = 1 → ∀ k < wE e, u.fileH n k = u.laneH n k) ∧ (wCOUT e = 0 → u.carryf = i.carryf) ∧
      u = { i with sew := u.sew, carryf := u.carryf, heldFlags := u.heldFlags } := by
  intro u
  obtain ⟨hfirst, hcarry⟩ := carryIn_direct (n := n) (c := c) (s := s) (i := i) hE hcin
  obtain ⟨hsteps, hlanes⟩ := laneH_scanSteps (n := n) (c := c) (s := s) hE hmode hprec hhout hro hfirst T
  obtain ⟨hout, hlane, hfile, hkept⟩ := carryOut_direct (n := n) (c := c) (s := s)
    (m := stepsFrom (fun t m => scanAll n c e s t m) 0 T (carryIn n c e s i)) hE hcout
  refine ⟨fun k hk => ?_, fun h k hk => (hfile h k hk).trans (hlane k).symm, fun h => (hkept h).trans (by rw [hsteps]),
    hsteps.andFile hout⟩
  rw [hlane, hlanes k hk, hcarry k hk]
end

/-! ## A summary (R186) -/

section
variable {n c : Nat} {e : Eng} {s i m : State}

theorem summAll_only (t : Nat) : m.LanesOnly (summAll n c e s t m) :=
  List.foldlRecOn (motive := fun u => m.LanesOnly u) _ _ (State.LanesOnly.refl m) fun u hu k _ =>
    (hu.trans (t := u.setLane n k _ _) rfl).trans (lanesOnly_holdFl _ _ _)
/-- What step t of a direct summary leaves in lane k, over the state i. -/
def summLane (n c : Nat) (e : Eng) (s i : State) (t k : Nat) (hl : Nat × Nat) : Nat × Nat :=
  let a := i.elemAt n c (addrOf (s.blockA n c e 0)) (ifmt e) e.strict (t * wE e + k)
  let b := i.elemAt n c (addrOf (s.blockA n c e 1)) (ifmt e) e.strict (t * wE e + k)
  ((fusedS e.strict (mulV (a, false) (opndS e.strict hl.1))).1 % 2 ^ 32,
    (fusedS e.strict (addV (mulV (a, false) (opndS e.strict hl.2)) (b, false))).1 % 2 ^ 32)
theorem summAll_direct (hE : wE e ≤ 256) (hmode : wMODE e = false) (t : Nat) (m : State) (hm : i.LanesOnly m) :
    i.LanesOnly (summAll n c e s t m) ∧ ∀ k < wE e, (summAll n c e s t m).sewLane n k = summLane n c e s i t k (m.sewLane n k) := by
  have hlane (m : State) (k : Nat) (hm : i.LanesOnly m) (hk : k < 256) : i.SetsLane n k (summLane n c e s i t k (m.sewLane n k)) m
      (let x := scanCoef n c e s t k m
       let p := fusedS e.strict (mulV (x.a, false) (opndS e.strict (m.laneH n k)))
       let l := fusedS e.strict (addV (mulV (x.a, false) (opndS e.strict (m.laneL n k))) (x.b, false))
       (m.setLane n k p.1 l.1).holdFl n (s.engTag n c e) fieldSCAN (Fl.join [x.fl, p.2, l.2])) := by
    rw [scanCoef_direct hmode hm]
    exact (hm.setLane hk _ _).holdFl _ _ _
  obtain ⟨honly, hset⟩ := sweep_lanes hlane hE hm
  exact ⟨honly, fun k hk => (hset k (by omega)).trans (if_pos hk)⟩

/-- The state that a summary starts from: one and zero in every lane. -/
def State.summStart (i : State) (n : Nat) (e : Eng) : State := (List.range (wE e)).foldl (fun m k => m.setLane n k 0x3F800000 0) i
theorem summStart_direct (hE : wE e ≤ 256) :
    i.LanesOnly (i.summStart n e) ∧ ∀ k < wE e, (i.summStart n e).sewLane n k = (0x3F800000, 0) := by
  obtain ⟨honly, hlanes⟩ := sweep_lanes (n := n) (f := fun m k => m.setLane n k 0x3F800000 0) (v := fun _ _ => (0x3F800000, 0))
    (fun m k hm hk => hm.setLane hk 0x3F800000 0) hE (State.LanesOnly.refl i)
  exact ⟨honly, fun k hk => (hlanes k (by omega)).trans (if_pos hk)⟩
theorem summSteps_only (hm : i.LanesOnly m) (T : Nat) : i.LanesOnly (stepsFrom (fun t m => summAll n c e s t m) 0 T m) :=
  (stepsFrom_lanes (E := 0) (n := n) (v := fun _ _ hl => hl) (fun t m hm => ⟨hm.trans (summAll_only t), fun j hj => absurd hj (by omega)⟩)
    hm T).1
/-- The end of a summary leaves the lanes. -/
theorem sew_summOut : (summOut n c e s m).sew = m.sew := by
  unfold summOut
  extract_lets a E ks
  have hstore (u : State) (j v : Nat) : (u.fmStore n c j 4 v).sew = u.sew := State.fmStore_sew u n c j 4 v
  split
  · rfl
  · exact sew_lanesToFile E
  · exact foldl_keeps (g := State.sew) (fun m k => (hstore _ _ _).trans (hstore m _ _)) ks m
  · rfl
theorem sewLane_of_sew {t : State} (h : t.sew = m.sew) (k : Nat) : t.sewLane n k = m.sewLane n k := by
  simp only [State.sewLane, State.laneH, State.laneL, h]
/-- The lanes after a direct summary: the product, and the scan from zero. -/
theorem summ_direct (hE : wE e ≤ 256) (hmode : wMODE e = false) (T : Nat) :
    let u := summOut n c e s (stepsFrom (fun k m => summAll n c e s k m) 0 T (i.summStart n e))
    let A := fun k t => i.elemAt n c (addrOf (s.blockA n c e 0)) (ifmt e) e.strict (t * wE e + k)
    let B := fun k t => i.elemAt n c (addrOf (s.blockA n c e 1)) (ifmt e) e.strict (t * wE e + k)
    ∀ k < wE e, u.laneH n k =
        (List.range T).foldl (fun p j => (fusedS e.strict (mulV (A k j, false) (opndS e.strict p))).1 % 2 ^ 32) 0x3F800000 ∧
      u.laneL n k =
        (List.range T).foldl (fun l j => (fusedS e.strict (addV (mulV (A k j, false) (opndS e.strict l)) (B k j, false))).1 % 2 ^ 32) 0 := by
  intro u A B k hk
  obtain ⟨hstart, hone⟩ := summStart_direct (n := n) (i := i) hE
  obtain ⟨-, hlanes⟩ := stepsFrom_lanes (n := n) (summAll_direct (c := c) (s := s) hE hmode) hstart T
  have hlane : u.sewLane n k = (List.range T).foldl (fun hl t => summLane n c e s i t k hl) (0x3F800000, 0) :=
    (sewLane_of_sew sew_summOut k).trans ((hlanes k hk).trans (by rw [hone k hk]))
  exact ⟨(congrArg Prod.fst hlane).trans (List.foldl_hom Prod.fst fun _ _ => rfl).symm,
    (congrArg Prod.snd hlane).trans (List.foldl_hom Prod.snd fun _ _ => rfl).symm⟩
/-- A summary for the send slot (R186, R463). -/
theorem summOut_slot (hcout : wCOUT e = 3) :
    let t := summOut n c e s m
    (t.slot n).map Slot.bytes = some ((List.range (wE e)).flatMap (fun k => toBytes 4 (t.laneH n k)) ++
      (List.range (wE e)).flatMap (fun k => toBytes 4 (t.laneL n k))) ∧ t = { m with slots := t.slots } := by
  simp only [summOut, hcout]
  exact ⟨congrArg (Option.map Slot.bytes) (slot_setSlot_same m n _), rfl⟩
end

/-! ## The instructions -/

section
variable {a : Issue} {e : Eng} {s : State}

theorem opSscan_part (n c : Nat) (i : State) : (opSscan n c e s).part 0 ((opSscan n c e s).total i) i =
    ((opSscan n c e s).total i, stepsFrom (fun t m => scanAll n c e s t m) 0 (s.sr n c (wTREG e)) (carryIn n c e s i)) := by
  simp only [opSscan, if_true, Nat.mul_zero, Nat.sub_zero, min_eq_left (le_scanUnit_mul _)]
theorem opSsumm_part (n c : Nat) (i : State) : (opSsumm n c e s).part 0 ((opSsumm n c e s).total i) i =
    ((opSsumm n c e s).total i, stepsFrom (fun t m => summAll n c e s t m) 0 (s.sr n c (wTREG e)) (i.summStart n e)) := by
  simp only [opSsumm, if_true, Nat.mul_zero, Nat.sub_zero, min_eq_left (le_scanUnit_mul _)]
  rfl

/-- An SSCAN that issues completes with its carry-out. -/
theorem sscan_completes (h : LongIssues opSscan a e s) {post : State → Prop}
    (hpost : ∀ t, SameBut (carryOut a.folio.val a.ctx.val e s (stepsFrom (fun k m => scanAll a.folio.val a.ctx.val e s k m) 0
      (s.sr a.folio.val a.ctx.val (wTREG e)) (carryIn a.folio.val a.ctx.val e s (issued a e s)))) t → post t) :
    CompletesLong (exec (.sscan a e) s) a e s post :=
  sewing_completes h rfl (fun t x => carryOut_withCtxs t x) (opSscan_part _ _ _)
    ((stepsFrom_keeps (g := State.ctxs) (fun k t => ctxs_scanAll t k) _ _ _).trans (ctxs_carryIn _)) hpost
/-- An SSUMM that issues completes with its summary. -/
theorem ssumm_completes (h : LongIssues opSsumm a e s) {post : State → Prop}
    (hpost : ∀ t, SameBut (summOut a.folio.val a.ctx.val e s (stepsFrom (fun k m => summAll a.folio.val a.ctx.val e s k m) 0
      (s.sr a.folio.val a.ctx.val (wTREG e)) ((issued a e s).summStart a.folio.val e))) t → post t) :
    CompletesLong (exec (.ssumm a e) s) a e s post :=
  sewing_completes h rfl (fun t x => summOut_withCtxs t x) (opSsumm_part _ _ _)
    (by rw [summSteps_only (summStart_direct (opSsumm_clear h.2.1)).1 _]) hpost
end

/-- Settles O40, by what each step does to a lane. -/
theorem scansAndSummaries : Obligations.ScansAndSummaries := by
  intro a e s n c i T E A B
  refine ⟨fun h => sscan_completes h fun t ht => ⟨ht, fun hmode hprec hhout hcin hcout => ?_⟩,
    fun h => ssumm_completes h fun t ht => ⟨ht, fun hmode k hk => ?_, fun hcout => ?_⟩⟩
  · obtain ⟨hE, hro⟩ := opSscan_clear h.2.1
    obtain ⟨hlanes, hfile, hkept, hframe⟩ := scan_direct (n := n) (c := c) (s := s) (i := i) hE hmode hprec hhout (hro hmode) hcin hcout T
    obtain ⟨x, rfl⟩ := sameBut_iff.mp ht
    exact ⟨hlanes, hfile, hkept, congrArg (State.withCtxs · x) hframe⟩
  · obtain ⟨x, rfl⟩ := sameBut_iff.mp ht
    exact summ_direct (opSsumm_clear h.2.1) hmode T k hk
  · have honly := summSteps_only (n := n) (c := c) (e := e) (s := s) (summStart_direct (n := n) (i := i) (opSsumm_clear h.2.1)).1 T
    obtain ⟨hslot, hframe⟩ := summOut_slot (n := n) (c := c) (s := s)
      (m := stepsFrom (fun t m => summAll n c e s t m) 0 T (i.summStart n e)) hcout
    obtain ⟨x, rfl⟩ := sameBut_iff.mp ht
    exact ⟨hslot, congrArg (State.withCtxs · x) (honly.andSlots hframe)⟩

end Sys2Proof.Machine
end

-- ==== SCONV: O41, O42 ====
section
/-! SUPPORT. SCONV (R191, R192). In order: values in a memory that changed elsewhere; writes to folio memory where no word is bad; the
cells of the output plane in the order of the units; a cell; the outputs; the history. -/

namespace Sys2Proof.Machine

open Sys2Proof.Claims

/-! ## Values in a memory that changed elsewhere -/

section
variable {m m' m'' : Memory} {lo len : Nat}

theorem SameOutside.trans (h : SameOutside lo len m m') (h' : SameOutside lo len m' m'') : SameOutside lo len m m'' :=
  fun k hk => (h' k hk).trans (h k hk)
/-- A value outside the range reads as before. -/
theorem SameOutside.load (h : SameOutside lo len m m') {k j : Nat} (hk : k + j ≤ lo ∨ lo + len ≤ k) : m'.load k j = m.load k j :=
  congrArg ofBytes (Memory.bytes_congr fun x hlo hhi => h x (by omega))
theorem sameOutside_store (m : Memory) {a w : Nat} (v : Nat) (hlo : lo ≤ a) (hhi : a + w ≤ lo + len) : SameOutside lo len m (m.store a w v) :=
  fun k hk => Memory.byte_store_out m a w v (by omega)

/-- The bytes of values of w bytes each. -/
theorem length_flatMap_toBytes (w : Nat) (vs : List Nat) : (vs.flatMap (toBytes w)).length = w * vs.length := by
  simp [List.length_flatMap, toBytes_length, Nat.mul_comm]
theorem take_drop_flatMap_toBytes (w : Nat) (vs : List Nat) {j : Nat} (hj : j < vs.length) :
    ((vs.flatMap (toBytes w)).drop (w * j)).take w = toBytes w (nth vs j) := by
  induction vs generalizing j with
  | nil => simp at hj
  | cons v vs ih =>
    rw [List.flatMap_cons]
    cases j with
    | zero => exact List.take_left' (toBytes_length w v)
    | succ j =>
      have hskip : w * (j + 1) = (toBytes w v).length + w * j := by rw [toBytes_length, Nat.mul_succ, Nat.add_comm]
      rw [hskip, List.drop_length_add_append]
      exact ih (by simpa using hj)
/-- A value among values written one after another. -/
theorem Memory.load_write_flatMap (m : Memory) (a w : Nat) {vs : List Nat} {j : Nat} (hj : j < vs.length) :
    (m.write a (vs.flatMap (toBytes w))).load (a + w * j) w = nth vs j % 256 ^ w := by
  have hin : w * j + w ≤ (vs.flatMap (toBytes w)).length := by
    rw [length_flatMap_toBytes, ← Nat.mul_succ]
    exact Nat.mul_le_mul_left w hj
  rw [Memory.load_eq_ofBytes hin, Memory.bytes_write, take_drop_flatMap_toBytes w vs hj, ofBytes_toBytes]
end

/-! ## Writes to folio memory where no word is bad -/

/-- From t to u only the folio memories and held flags differ. -/
def State.FmOnly (t u : State) : Prop := u = { t with fm := u.fm, heldFlags := u.heldFlags }

section
variable {i m t : State} {n c : Nat}

theorem State.FmOnly.trans (h : i.FmOnly m) (h' : m.FmOnly t) : i.FmOnly t := Eq.trans h' (by rw [h])
theorem State.FmOnly.bad (h : i.FmOnly m) : m.bad = i.bad := by rw [h]
theorem State.FmOnly.ctxs (h : i.FmOnly m) : m.ctxs = i.ctxs := by rw [h]
theorem State.FmOnly.fmKey (h : i.FmOnly m) (r : Nat) : m.fmKey n c r = i.fmKey n c r := fmKey_of_regs (by rw [h]) n c r
theorem fmOnly_holdFl (tag field : Nat) (f : Fl) : m.FmOnly (m.holdFl n tag field f) := by
  rw [holdFl_only]
  rfl
theorem fm_holdFl (tag field : Nat) (f : Fl) : (m.holdFl n tag field f).fm = m.fm := by rw [holdFl_only]
theorem fmWrite_of_bad_nil (h : m.bad = []) (r : Nat) (bs : List Byte) : m.fmWrite n c r bs = { m with fm := m.fm.write (m.fmKey n c r) bs } := by
  have hcured : cured m.bad 0 (m.fmKey n c r) bs.length = m.bad := by
    rw [h]
    rfl
  simp only [State.fmWrite, State.put, hcured]
  rfl
theorem fmStore_of_bad_nil (h : m.bad = []) (r len v : Nat) :
    m.fmStore n c r len v = { m with fm := m.fm.store (m.fmKey n c r) len v } := fmWrite_of_bad_nil h r _
theorem fmKey_add (r k : Nat) : m.fmKey n c (r + k) = m.fmKey n c r + k := by
  simp only [State.fmKey, State.fmPhys]
  omega
end

/-! ## The cells of the output plane (R191, R193) -/

/-- The first step with an output, and the bytes of an output. -/
def convFirst (e : Eng) : Nat := if vcPAD e = 2 then vcK e - 1 else 0
def convWidth (e : Eng) : Nat := if vcOFMT e = 1 then 2 else 4
/-- The steps and channels of unit u of T steps, in the order of the unit. -/
def convCells (e : Eng) (T u : Nat) : List (Nat × Nat) :=
  let groups := (vcC e + 255) / 256
  (List.range (min 64 (T - 64 * (u / groups)))).flatMap (fun i =>
    (List.range (min 256 (vcC e - 256 * (u % groups)))).map (fun j => (64 * (u / groups) + i, 256 * (u % groups) + j)))
/-- The output of a step and channel, if the step has one. -/
def convCell (n c : Nat) (e : Eng) (s : State) (m : State) (p : Nat × Nat) : State :=
  if convFirst e ≤ p.1 then
    (m.fmStore n c (addrOf (s.convA n c e 3) + convWidth e * ((p.1 - convFirst e) * vcC e + p.2)) (convWidth e)
      (convOut n c e s p.1 p.2 m).1).holdFl n (s.engTag n c e) fieldSCAN (convOut n c e s p.1 p.2 m).2
  else m
def convTotal (e : Eng) (T : Nat) : Nat := (T + 63) / 64 * ((vcC e + 255) / 256)
/-- The cells of all units. -/
def convAll (e : Eng) (T : Nat) : List (Nat × Nat) := (List.range (convTotal e T)).flatMap (convCells e T)

section
variable {n c : Nat} {e : Eng} {s m : State}

theorem convUnit_eq_cells (u : Nat) : convUnit n c e s u m = (convCells e (s.sr n c (vcTREG e)) u).foldl (convCell n c e s) m := by
  simp only [convCells, List.foldl_flatMap, List.foldl_map]
  rfl
theorem convUnits_eq_cells : stepsFrom (fun u m => convUnit n c e s u m) 0 (convTotal e (s.sr n c (vcTREG e))) m =
    (convAll e (s.sr n c (vcTREG e))).foldl (convCell n c e s) m := by
  rw [stepsFrom_eq_unitsFrom, unitsFrom_zero, convAll, List.foldl_flatMap]
  exact List.foldl_ext _ _ _ fun m u _ => convUnit_eq_cells u

/-- The units hold each step and channel. -/
theorem mem_convAll {T : Nat} {p : Nat × Nat} : p ∈ convAll e T ↔ p.1 < T ∧ p.2 < vcC e := by
  obtain ⟨k, d⟩ := p
  simp only [convAll, convCells, List.mem_flatMap, List.mem_map, List.mem_range, Prod.mk.injEq]
  constructor
  · rintro ⟨u, -, i, hi, j, hj, rfl, rfl⟩
    omega
  · rintro ⟨hk, hd⟩
    have hgroup : d / 256 < (vcC e + 255) / 256 := by omega
    have hpos : 0 < (vcC e + 255) / 256 := by omega
    have hdiv : (d / 256 + (vcC e + 255) / 256 * (k / 64)) / ((vcC e + 255) / 256) = k / 64 := by
      rw [Nat.add_mul_div_left _ _ hpos, Nat.div_eq_of_lt hgroup, Nat.zero_add]
    have hmod : (d / 256 + (vcC e + 255) / 256 * (k / 64)) % ((vcC e + 255) / 256) = d / 256 := by
      rw [Nat.add_mul_mod_self_left, Nat.mod_eq_of_lt hgroup]
    refine ⟨d / 256 + (vcC e + 255) / 256 * (k / 64), ?_, k % 64, ?_, d % 256, ?_⟩
    · have hblock : k / 64 + 1 ≤ (T + 63) / 64 := by omega
      calc d / 256 + (vcC e + 255) / 256 * (k / 64) < (vcC e + 255) / 256 * (k / 64 + 1) := by rw [Nat.mul_succ]; omega
        _ ≤ (vcC e + 255) / 256 * ((T + 63) / 64) := Nat.mul_le_mul_left _ hblock
        _ = convTotal e T := Nat.mul_comm _ _
    · rw [hdiv]
      omega
    · rw [hdiv, hmod]
      omega

/-! ## A cell -/

variable {i : State}

theorem convCell_only (hbad : m.bad = []) (p : Nat × Nat) : m.FmOnly (convCell n c e s m p) := by
  unfold convCell
  split
  · rw [fmStore_of_bad_nil hbad]
    exact State.FmOnly.trans (m := { m with fm := _ }) rfl (fmOnly_holdFl _ _ _)
  · rfl
theorem fm_convCell (hbad : m.bad = []) {p : Nat × Nat} (hp : convFirst e ≤ p.1) : (convCell n c e s m p).fm =
    m.fm.store (m.fmKey n c (addrOf (s.convA n c e 3)) + convWidth e * ((p.1 - convFirst e) * vcC e + p.2)) (convWidth e)
      (convOut n c e s p.1 p.2 m).1 := by
  rw [convCell, if_pos hp, fm_holdFl, fmStore_of_bad_nil hbad, fmKey_add]
/-- The units change the folio memories and held flags alone. -/
theorem convCells_only (hbad : i.bad = []) (l : List (Nat × Nat)) : i.FmOnly (l.foldl (convCell n c e s) i) :=
  List.foldlRecOn (motive := fun u => i.FmOnly u) l _ rfl fun _ hu p _ => hu.trans (convCell_only (hu.bad.trans hbad) p)
end

/-! ## The instruction -/

section
variable {a : Issue} {e : Eng} {s : State}

/-- What an SCONV does after its units. -/
def convEnd (n c : Nat) (e : Eng) (s m : State) : State := if vcHIST e then convHist n c e s m else m
theorem convEnd_withCtxs {n c : Nat} (m : State) (x : Sp Ctx) : convEnd n c e s (m.withCtxs x) = (convEnd n c e s m).withCtxs x := by
  unfold convEnd
  split
  · exact fmWrite_withCtxs m x n c _ _
  · rfl
theorem opSconv_part (n c : Nat) (i : State) : (opSconv n c e s).part 0 ((opSconv n c e s).total i) i =
    ((opSconv n c e s).total i, stepsFrom (fun u m => convUnit n c e s u m) 0 (convTotal e (s.sr n c (vcTREG e))) i) := rfl

/-- An SCONV that issues completes: its units, then the new history. -/
theorem sconv_completes (h : LongIssues opSconv a e s) {post : State → Prop}
    (hpost : ∀ t, SameBut (convEnd a.folio.val a.ctx.val e s (stepsFrom (fun u m => convUnit a.folio.val a.ctx.val e s u m) 0
      (convTotal e (s.sr a.folio.val a.ctx.val (vcTREG e))) (issued a e s))) t → post t) :
    CompletesLong (exec (.sconv a e) s) a e s post :=
  sewing_completes h rfl convEnd_withCtxs (opSconv_part _ _ _)
    (by rw [convUnits_eq_cells, (convCells_only (bad_issued h.2.2.1 h.1.2.2.1) _).ctxs]) hpost
end

/-! ## The history (R192) -/

section
variable {n c : Nat} {e : Eng} {s m : State}

/-- The inputs of the new history, oldest first. -/
def convLast (n c : Nat) (e : Eng) (s m : State) : List Nat :=
  (List.range (vcK e - 1)).flatMap (fun k : Nat => (List.range (vcC e)).map (fun d =>
    convIn n c e s ((s.sr n c (vcTREG e) : Int) - (vcK e - 1 : Nat) + k) d m))
/-- The model runs over the last inputs' places as integers. -/
theorem convHist_eq_write : convHist n c e s m =
    m.fmWrite n c (addrOf (s.convA n c e 5)) ((convLast n c e s m).flatMap (toBytes ((ifmt e).bits / 8))) := by
  have hplaces : (do let k ← List.range (vcK e - 1); pure (k : Int)) = (List.range (vcK e - 1)).map (fun k : Nat => (k : Int)) :=
    bind_pure_comp _ _
  simp only [convHist, convLast, hplaces, List.flatMap_map]
theorem length_convLast : (convLast n c e s m).length = (vcK e - 1) * vcC e := by
  simp [convLast, List.length_flatMap]
theorem nth_convLast {k d : Nat} (hk : k < vcK e - 1) (hd : d < vcC e) :
    nth (convLast n c e s m) (k * vcC e + d) = convIn n c e s ((s.sr n c (vcTREG e) : Int) - (vcK e - 1 : Nat) + k) d m := by
  rw [convLast, Nat.mul_comm k, nth_flatMap_range (fun k => by simp) hk hd, nth_map_range hd]
/-- A cell of a plane of `rows` rows lies inside it. -/
theorem cell_lt {k d rows C : Nat} (hk : k < rows) (hd : d < C) : k * C + d < rows * C :=
  calc k * C + d < (k + 1) * C := by rw [Nat.succ_mul]; omega
    _ ≤ rows * C := Nat.mul_le_mul_right C hk
/-- The history plane after the units. -/
theorem convHist_effect (hbad : m.bad = []) :
    let t := convHist n c e s m
    let w := (ifmt e).bits / 8
    let h := m.fmKey n c (addrOf (s.convA n c e 5))
    (∀ k d, k < vcK e - 1 → d < vcC e → t.fm.load (h + w * (k * vcC e + d)) w =
      convIn n c e s ((s.sr n c (vcTREG e) : Int) - (vcK e - 1 : Nat) + k) d m % 256 ^ w) ∧
      SameOutside h (w * ((vcK e - 1) * vcC e)) m.fm t.fm ∧ m.FmOnly t := by
  intro t w h
  have ht : t = { m with fm := m.fm.write h ((convLast n c e s m).flatMap (toBytes w)) } :=
    convHist_eq_write.trans (fmWrite_of_bad_nil hbad _ _)
  rw [ht]
  refine ⟨fun k d hk hd => ?_, fun k hk => ?_, rfl⟩
  · rw [← nth_convLast hk hd]
    exact Memory.load_write_flatMap m.fm h w (by rw [length_convLast]; exact cell_lt hk hd)
  · exact Memory.byte_write_out m.fm h _ (by rwa [length_flatMap_toBytes, length_convLast])
end

/-- Settles O42: the history is written from the state in which the outputs are. -/
theorem convolutionsKeepTheirHistory : Obligations.ConvolutionsKeepTheirHistory := by
  intro a e s n c i T C K w h total hissues hhist
  have hbad : i.bad = [] := bad_issued hissues.2.2.1 hissues.1.2.2.1
  refine sconv_completes hissues fun t ht => ?_
  intro m
  have honly : i.FmOnly m := by
    rw [show m = _ from convUnits_eq_cells]
    exact convCells_only hbad _
  obtain ⟨hnew, hsame, hframe⟩ := convHist_effect (n := n) (c := c) (e := e) (s := s) (honly.bad.trans hbad)
  rw [honly.fmKey] at hnew hsame
  obtain ⟨x, rfl⟩ := sameBut_iff.mp ht
  rw [convEnd, if_pos hhist]
  exact ⟨hnew, hsame, congrArg (State.withCtxs · x) (honly.trans hframe)⟩

/-! ## The outputs (R191) -/

/-- A range of a folio's memory lies apart from the output plane of T steps at key y. -/
def convOff (e : Eng) (T y lo len : Nat) : Prop := lo + len ≤ y ∨ y + convWidth e * ((T - convFirst e) * vcC e) ≤ lo
/-- The key of the output plane. -/
def convPlane (n c : Nat) (e : Eng) (s i : State) : Nat := i.fmKey n c (addrOf (s.convA n c e 3))
/-- The sources of an SCONV lie apart from its output plane. -/
structure ConvApart (n c : Nat) (e : Eng) (s i : State) (T : Nat) : Prop where
  input : convOff e T (convPlane n c e s i) (i.fmKey n c (addrOf (s.convA n c e 0))) (T * vcC e * ((ifmt e).bits / 8))
  weight : convOff e T (convPlane n c e s i) (i.fmKey n c (addrOf (s.convA n c e 1))) (4 * vcK e * vcC e)
  bias : convOff e T (convPlane n c e s i) (i.fmKey n c (addrOf (s.convA n c e 2))) (4 * vcC e)
  history : vcPAD e = 0 →
    convOff e T (convPlane n c e s i) (i.fmKey n c (addrOf (s.convA n c e 4))) ((vcK e - 1) * vcC e * ((ifmt e).bits / 8))
/-- In m some outputs of an SCONV have been written since i. -/
structure ConvState (n c : Nat) (e : Eng) (s i : State) (T : Nat) (m : State) : Prop where
  only : i.FmOnly m
  same : SameOutside (convPlane n c e s i) (convWidth e * ((T - convFirst e) * vcC e)) i.fm m.fm

section
variable {n c T : Nat} {e : Eng} {s i m : State}

/-- Inside a range apart from the output plane memory reads as before. -/
theorem ConvState.fmLoad (h : ConvState n c e s i T m) {r len off j : Nat} (hoff : convOff e T (convPlane n c e s i) (i.fmKey n c r) len)
    (hj : off + j ≤ len) : m.fmLoad n c (r + off) j = i.fmLoad n c (r + off) j := by
  rw [State.fmLoad, State.fmLoad, h.only.fmKey, fmKey_add]
  refine h.same.load ?_
  rw [convOff] at hoff
  omega
theorem element_end {k N : Nat} (w : Nat) (hk : k < N) : w * k + w ≤ w * N := by
  rw [← Nat.mul_succ]
  exact Nat.mul_le_mul_left w hk
theorem ConvState.elemAt (h : ConvState n c e s i T m) {r len k : Nat} (hoff : convOff e T (convPlane n c e s i) (i.fmKey n c r) len)
    (hk : 4 * k + 4 ≤ len) (strict : Bool) : m.elemAt n c r .fp32 strict k = i.elemAt n c r .fp32 strict k :=
  congrArg (Fmt.fp32.read strict) (h.fmLoad hoff hk)
/-- The inputs of a step within the planes read as before. -/
theorem ConvState.convIn (h : ConvState n c e s i T m) (ha : ConvApart n c e s i T) {t : Int} {d : Nat} (ht : t < T) (hd : d < vcC e) :
    convIn n c e s t d m = convIn n c e s t d i := by
  unfold Machine.convIn
  dsimp only
  split
  next hpos =>
    refine h.fmLoad ha.input ?_
    rw [Nat.mul_comm (T * vcC e)]
    exact element_end _ (cell_lt (by omega) hd)
  next hneg =>
    split
    next hhist =>
      refine h.fmLoad (ha.history hhist.1) ?_
      rw [Nat.mul_comm ((vcK e - 1) * vcC e)]
      exact element_end _ (cell_lt (by omega) hd)
    next => rfl
/-- An output computed while the others are written is the one from before (R191). -/
theorem ConvState.convOut (h : ConvState n c e s i T m) (ha : ConvApart n c e s i T) {t d : Nat} (ht : t < T) (hd : d < vcC e) :
    convOut n c e s t d m = convOut n c e s t d i := by
  have hterm (j : Nat) (hj : j < vcK e) :
      mulFV (m.elemAt n c (addrOf (s.convA n c e 1)) .fp32 e.strict (j * vcC e + d))
          ((ifmt e).read e.strict (Machine.convIn n c e s ((t : Int) - j) d m)) =
        mulFV (i.elemAt n c (addrOf (s.convA n c e 1)) .fp32 e.strict (j * vcC e + d))
          ((ifmt e).read e.strict (Machine.convIn n c e s ((t : Int) - j) d i)) := by
    have hin : 4 * (j * vcC e + d) + 4 ≤ 4 * vcK e * vcC e := by
      rw [Nat.mul_assoc]
      exact element_end 4 (cell_lt hj hd)
    rw [h.elemAt ha.weight hin, h.convIn ha (by omega) hd]
  have hbias := h.elemAt ha.bias (element_end 4 hd) e.strict
  simp only [Machine.convOut, hbias, List.map_congr_left fun j hj => hterm j (List.mem_range.mp hj)]

/-- The place of an output in its plane, in outputs. -/
def convPlace (e : Eng) (p : Nat × Nat) : Nat := (p.1 - convFirst e) * vcC e + p.2
theorem convPlace_ne {p q : Nat × Nat} (hp : convFirst e ≤ p.1) (hq : convFirst e ≤ q.1) (hpd : p.2 < vcC e) (hqd : q.2 < vcC e)
    (hne : p ≠ q) : convPlace e p ≠ convPlace e q := by
  intro h
  have hpos : 0 < vcC e := by omega
  have hrow (p : Nat × Nat) (hd : p.2 < vcC e) : convPlace e p / vcC e = p.1 - convFirst e ∧ convPlace e p % vcC e = p.2 := by
    rw [convPlace, Nat.mul_comm, Nat.mul_add_div hpos, Nat.mul_add_mod, Nat.div_eq_of_lt hd, Nat.mod_eq_of_lt hd]
    exact ⟨rfl, rfl⟩
  obtain ⟨hpr, hpc⟩ := hrow p hpd
  obtain ⟨hqr, hqc⟩ := hrow q hqd
  rw [h] at hpr hpc
  exact hne (Prod.ext (by omega) (by omega))
/-- The value at the place of an output. -/
def convLoad (n c : Nat) (e : Eng) (s i m : State) (p : Nat × Nat) : Nat :=
  m.fm.load (convPlane n c e s i + convWidth e * convPlace e p) (convWidth e)

/-- An output leaves a state in which some outputs have been written, and holds its value. -/
theorem convCell_state (hbad : i.bad = []) (ha : ConvApart n c e s i T) (h : ConvState n c e s i T m) {p : Nat × Nat} (ht : p.1 < T)
    (hd : p.2 < vcC e) : ConvState n c e s i T (convCell n c e s m p) ∧ (convFirst e ≤ p.1 →
      (convCell n c e s m p).fm = m.fm.store (convPlane n c e s i + convWidth e * convPlace e p) (convWidth e) (convOut n c e s p.1 p.2 i).1) := by
  have honly := convCell_only (n := n) (c := c) (e := e) (s := s) (h.only.bad.trans hbad) p
  by_cases hp : convFirst e ≤ p.1
  · have hstore : (convCell n c e s m p).fm = m.fm.store (convPlane n c e s i + convWidth e * convPlace e p) (convWidth e)
        (convOut n c e s p.1 p.2 i).1 := by
      rw [fm_convCell (h.only.bad.trans hbad) hp, h.only.fmKey, h.convOut ha ht hd]
      rfl
    refine ⟨⟨h.only.trans honly, ?_⟩, fun _ => hstore⟩
    rw [hstore]
    have hend := element_end (convWidth e) (cell_lt (k := p.1 - convFirst e) (rows := T - convFirst e) (by omega) hd)
    exact h.same.trans (sameOutside_store m.fm _ (Nat.le_add_right _ _) (by rw [Nat.add_assoc]; exact Nat.add_le_add_left hend _))
  · rw [convCell, if_neg hp]
    exact ⟨h, fun hp' => absurd hp' hp⟩
/-- A place that holds its output keeps it while others are written, and gets it when its own is. -/
theorem convLoad_convCell (hbad : i.bad = []) (ha : ConvApart n c e s i T) (h : ConvState n c e s i T m) {p q : Nat × Nat} (ht : p.1 < T)
    (hpd : p.2 < vcC e) (hqd : q.2 < vcC e) (hq : convFirst e ≤ q.1)
    (hold : q = p ∨ convLoad n c e s i m q = (convOut n c e s q.1 q.2 i).1 % 256 ^ convWidth e) :
    convLoad n c e s i (convCell n c e s m p) q = (convOut n c e s q.1 q.2 i).1 % 256 ^ convWidth e := by
  by_cases hp : convFirst e ≤ p.1
  · rw [convLoad, (convCell_state hbad ha h ht hpd).2 hp]
    by_cases hqp : q = p
    · rw [hqp]
      exact Memory.load_store _ _ _ _
    · refine Eq.trans ?_ (hold.resolve_left hqp)
      refine SameOutside.load (sameOutside_store m.fm _ (le_refl _) (le_refl _)) ?_
      obtain hlt | hgt := Nat.lt_or_gt_of_ne (convPlace_ne hq hp hqd hpd hqp)
      · have := element_end (convWidth e) hlt
        omega
      · have := element_end (convWidth e) hgt
        omega
  · rw [convCell, if_neg hp]
    exact hold.resolve_left fun hqp => hp (hqp ▸ hq)

/-- The outputs of a list of cells, one after another. -/
theorem convCells_outputs (hbad : i.bad = []) (ha : ConvApart n c e s i T) {l : List (Nat × Nat)} (hl : ∀ p ∈ l, p.1 < T ∧ p.2 < vcC e)
    (h : ConvState n c e s i T m) : ConvState n c e s i T (l.foldl (convCell n c e s) m) ∧
      ∀ q : Nat × Nat, q.2 < vcC e → convFirst e ≤ q.1 →
        (q ∈ l ∨ convLoad n c e s i m q = (convOut n c e s q.1 q.2 i).1 % 256 ^ convWidth e) →
        convLoad n c e s i (l.foldl (convCell n c e s) m) q = (convOut n c e s q.1 q.2 i).1 % 256 ^ convWidth e := by
  induction l generalizing m with
  | nil => exact ⟨h, fun q _ _ hold => hold.resolve_left List.not_mem_nil⟩
  | cons p l ih =>
    obtain ⟨ht, hd⟩ := hl p List.mem_cons_self
    obtain ⟨hall, hout⟩ := ih (fun q hq => hl q (List.mem_cons_of_mem p hq)) (convCell_state hbad ha h ht hd).1
    refine ⟨hall, fun q hqd hq hold => hout q hqd hq ?_⟩
    rw [List.mem_cons, or_assoc, or_left_comm] at hold
    exact hold.imp_right (convLoad_convCell hbad ha h ht hd hqd hq)
end

/-- Settles O41: the outputs are written one after another, and none of the sources with them. -/
theorem convolutionsCompute : Obligations.ConvolutionsCompute := by
  intro a e s n c i T C t0 w wi y src apart hissues hhist hinput hweight hbias hhistory
  have hbad : i.bad = [] := bad_issued hissues.2.2.1 hissues.1.2.2.1
  obtain ⟨⟨honly, hsame⟩, hout⟩ := convCells_outputs (n := n) (c := c) (s := s) (m := i) (l := convAll e T) hbad
    ⟨hinput, hweight, hbias, hhistory⟩ (fun p hp => mem_convAll.mp hp) ⟨rfl, fun _ _ => rfl⟩
  refine sconv_completes hissues fun t ht => ?_
  obtain ⟨x, rfl⟩ := sameBut_iff.mp ht
  have hend : convEnd n c e s (stepsFrom (fun u m => convUnit n c e s u m) 0 (convTotal e T) i) = (convAll e T).foldl (convCell n c e s) i := by
    rw [convEnd, if_neg (by rw [hhist]; decide)]
    exact convUnits_eq_cells
  rw [hend]
  exact ⟨fun k d hk hkT hd => hout (k, d) hd hk (.inl (mem_convAll.mpr ⟨hkT, hd⟩)), hsame, congrArg (State.withCtxs · x) honly⟩

end Sys2Proof.Machine
end

-- ==== Engine bundles: what an instruction leaves ====
section
/-! SUPPORT. What the statements about one engine bundle share (R428, R439). In order: a bundle that completes;
updates lane by lane; lanes and flags that an instruction writes under a mask. -/

namespace Sys2Proof.Machine

open Sys2Proof.Claims

/-! ## A bundle that completes -/

/-- An engine bundle that issues leaves what its instruction does to the issued bundle. -/
theorem engine_completes {op : Nat → Nat → Eng → State → SlotOp} {a : Issue} {e : Eng} {s u : State} {post : State → Prop}
    (r : Option Nat) (h : EngineIssues op a e s)
    (hrun : (op a.folio.val a.ctx.val e s).run (s.advance a.folio.val a.ctx.val) = u.relEng a.folio.val a.ctx.val e) (hpost : post u) :
    Completes (engine op r a e s) a e s post := by
  obtain ⟨hready, hclear, hscalar⟩ := h
  exact ⟨u, by rw [engine_runs r hready hclear hscalar, hrun], hpost⟩
/-- Holding flags changes the held flags alone. -/
theorem holdEng_only (s : State) (n c : Nat) (e : Eng) (field : Nat) (f : Fl) :
    s.holdEng n c e field f = { s with heldFlags := (s.holdEng n c e field f).heldFlags } := holdFl_only s n _ field f

/-! ## Updates lane by lane -/

/-- Updates of single lanes, one after another, have each lane updated once. -/
theorem foldl_lanes {β : Type} {rd : State → Nat → β} {f : State → Nat → State} {v : Nat → β → β}
    (hf : ∀ t j k, rd (f t j) k = if k = j then v j (rd t j) else rd t k) {js : List Nat} (hjs : js.Nodup) (t : State) (k : Nat) :
    rd (js.foldl f t) k = if k ∈ js then v k (rd t k) else rd t k := by
  induction js generalizing t with
  | nil => simp
  | cons j js ih =>
    obtain ⟨hj, hjs⟩ := List.nodup_cons.mp hjs
    rw [List.foldl_cons, ih hjs, hf]
    by_cases hk : k = j
    · subst hk
      simp [hj]
    · simp [hk]
/-- The lanes below 64 that a mask sets. -/
def maskLanes (m : Nat) : List Nat := (List.range 64).filter (fun j => bit m j)
theorem nodup_maskLanes (m : Nat) : (maskLanes m).Nodup := List.nodup_range.filter _
theorem mem_maskLanes {m : Nat} (j : Fin 64) : j.val ∈ maskLanes m ↔ bit m j.val = true := by
  simp [maskLanes]

/-! ## Lanes and flags under a mask (R236, R75) -/

theorem op_lt (e : Eng) (hi lo : Nat) : e.op hi lo < 2 ^ (hi - lo + 1) := Nat.mod_lt _ (Nat.two_pow_pos _)
theorem bit_eq_testBit (x k : Nat) : bit x k = x.testBit k := by
  simp [bit, bits, Nat.testBit_eq_decide_div_mod_eq, Bool.beq_eq_decide_eq]
/-- The first N bits of a mask. -/
theorem bit_mod_two_pow (x N j : Nat) : bit (x % 2 ^ N) j = (decide (j < N) && bit x j) := by
  simp only [bit_eq_testBit, Nat.testBit_mod_two_pow]

theorem lanesSet_setLanes {a : Issue} {s u : State} {v m : Nat} {f : Nat → Nat} {g : Nat → Option Nat} (hvreg : u.vreg = s.vreg)
    (hv : v < 32) (hg : ∀ j < 64, g j = if bit m j then some (f j) else none) :
    LanesSet a s v m (fun j => f j % 2 ^ 32) (u.setLanes a.folio.val v g) := by
  have hlane (k w j : Nat) : u.lane k w j = s.lane k w j := by rw [State.lane, State.lane, hvreg]
  refine ⟨fun j => ?_, fun k w j hne => ?_⟩
  · rw [State.lane_setLanes u _ _ _ _ j.isLt, hg j j.isLt, hlane]
    cases bit m j.val <;> rfl
  · rw [State.lane_setLanes_ne u _ j.isLt (by omega), hlane]
theorem lanesSet_of_vreg {a : Issue} {s t u : State} {v m : Nat} {f : Nat → Nat} (h : t.vreg = u.vreg) (hu : LanesSet a s v m f u) :
    LanesSet a s v m f t := by
  simpa only [LanesSet, State.lane, h] using hu
/-- An engine that holds the flags of its results joined has held them. -/
theorem holdsFlags_join {a : Issue} {e : Eng} {s u : State} (field : Nat) (fl : List Fl) (hfl : u.heldFlags = s.heldFlags)
    (htag : u.engTag a.folio.val a.ctx.val e = s.engTag a.folio.val a.ctx.val e) :
    HoldsFlags a e s field fl (u.holdEng a.folio.val a.ctx.val e field (Fl.join fl)) := by
  have h := holdsFlags_holdEng (a := a) field (Fl.join fl) hfl htag
  rwa [HoldsFlags, Fl.join_singleton] at h

end Sys2Proof.Machine
end

-- ==== Statistics and argmax files: O21 ====
section
/-! SUPPORT. Statistics and argmax files (R228, R250, R251, R645). In order: reads after writes of a record; updates of the records of a
mask; a file that is cleared; a record that leaves the files. -/

namespace Sys2Proof.Machine

open Sys2Proof.Claims

section
variable (s : State) (n c k : Nat)

/-! ## Reads after writes -/

theorem State.sfRec_setSf (j : Nat) (r : StatRec) (q : Nat) : (s.setSf n k j r).sfRec n k q = if q = j then r else s.sfRec n k q := by
  split
  next h =>
    subst h
    exact Sp.get_set_same _ _ _ _
  next h => exact Sp.get_set_ne _ _ _ (by omega)
theorem State.sfK_setSfK (v : Nat) : (s.setSfK n k v).sfK n k = v := Sp.get_set_same _ _ _ _
theorem State.amRec_setAm (j : Nat) (r : ArgRec) (q : Nat) : (s.setAm n k j r).amRec n k q = if q = j then r else s.amRec n k q := by
  split
  next h =>
    subst h
    exact Sp.get_set_same _ _ _ _
  next h => exact Sp.get_set_ne _ _ _ (by omega)

theorem sfRec_advance (j : Nat) : (s.advance n c).sfRec n k j = s.sfRec n k j := by
  rw [State.sfRec, advance_only]
  rfl
theorem sfRecs_advance : (s.advance n c).sfRecs n k = s.sfRecs n k := by
  simp only [State.sfRecs, sfRec_advance]
theorem amRec_advance (j : Nat) : (s.advance n c).amRec n k j = s.amRec n k j := by
  rw [State.amRec, advance_only]
  rfl
end

/-! ## Updates of the records of a mask (R228, R251) -/

section
variable (s : State) (n k m : Nat)

/-- The records of the lanes of a mask written. -/
def State.setSfs (g : Nat → StatRec) : State := (maskLanes m).foldl (fun t j => t.setSf n k j (g j)) s
theorem sfRec_setSfs (g : Nat → StatRec) (j : Fin 64) :
    (s.setSfs n k m g).sfRec n k j.val = if bit m j.val then g j.val else s.sfRec n k j.val := by
  have hfold : (s.setSfs n k m g).sfRec n k j.val = if j.val ∈ maskLanes m then g j.val else s.sfRec n k j.val :=
    foldl_lanes (rd := fun t => t.sfRec n k) (v := fun q _ => g q) (fun t q => State.sfRec_setSf t n k q (g q)) (nodup_maskLanes m) s j.val
  simpa only [mem_maskLanes] using hfold
theorem setSfs_only (g : Nat → StatRec) : ∃ x, s.setSfs n k m g = { s with sf := x } := by
  unfold State.setSfs
  refine List.foldlRecOn (motive := fun u : State => ∃ x, u = { s with sf := x }) _ _ ⟨_, rfl⟩ fun u hu j _ => ?_
  obtain ⟨x, rfl⟩ := hu
  exact ⟨_, rfl⟩
/-- An instruction that changes records, their kind and held flags leaves all else. -/
theorem holdEng_frame_sf {u : State} (h : ∃ x, u = { s with sf := x }) (c v : Nat) (e : Eng) (field : Nat) (f : Fl) :
    let t := (u.setSfK n k v).holdEng n c e field f
    t = { s with sf := t.sf, sfKind := t.sfKind, heldFlags := t.heldFlags } := by
  obtain ⟨x, rfl⟩ := h
  dsimp only
  rw [holdEng_only]
  rfl

/-- The argmax records of the lanes of a mask after scores `v` at indices `ix` (R251). -/
def State.scoreAms (v ix : Nat → Nat) : State :=
  (maskLanes m).foldl (fun t j => if better (v j) (ix j) (t.amRec n k j) then t.setAm n k j ⟨v j, ix j⟩ else t) s
theorem amRec_scoreAms (v ix : Nat → Nat) (j : Fin 64) : (s.scoreAms n k m v ix).amRec n k j.val =
    if bit m j.val && better (v j.val) (ix j.val) (s.amRec n k j.val) then ⟨v j.val, ix j.val⟩ else s.amRec n k j.val := by
  have hstep (t : State) (q p : Nat) : (if better (v q) (ix q) (t.amRec n k q) then t.setAm n k q ⟨v q, ix q⟩ else t).amRec n k p =
      if p = q then (if better (v q) (ix q) (t.amRec n k q) then ⟨v q, ix q⟩ else t.amRec n k q) else t.amRec n k p := by
    by_cases hb : better (v q) (ix q) (t.amRec n k q) = true
    · simp only [hb, if_true, State.amRec_setAm]
    · by_cases hp : p = q <;> simp [hb, hp]
  have hfold := foldl_lanes (rd := fun t => t.amRec n k) (v := fun q r => if better (v q) (ix q) r then ⟨v q, ix q⟩ else r) hstep
    (nodup_maskLanes m) s j.val
  simp only [mem_maskLanes] at hfold
  simp only [Bool.and_eq_true, ite_and]
  exact hfold
theorem scoreAms_only (v ix : Nat → Nat) : ∃ x, s.scoreAms n k m v ix = { s with am := x } := by
  unfold State.scoreAms
  refine List.foldlRecOn (motive := fun u : State => ∃ x, u = { s with am := x }) _ _ ⟨_, rfl⟩ fun u hu j _ => ?_
  obtain ⟨x, rfl⟩ := hu
  split
  · exact ⟨_, rfl⟩
  · exact ⟨x, rfl⟩
/-- An instruction that changes argmax records and held flags leaves all else. -/
theorem holdEng_frame_am {u : State} (h : ∃ x, u = { s with am := x }) (c : Nat) (e : Eng) (field : Nat) (f : Fl) :
    let t := u.holdEng n c e field f
    t = { s with am := t.am, heldFlags := t.heldFlags } := by
  obtain ⟨x, rfl⟩ := h
  dsimp only
  rw [holdEng_only]
end

/-- The update of lane j that an instruction of the statistics files makes. -/
def statUpdate (upd : StatRec → FV → StatRec × Fl) (n : Nat) (e : Eng) (s : State) (j : Nat) : StatRec × Fl :=
  upd (s.sfRec n (e.op 55 55) j) ((vfmt e s).read false (elem (vfmt e s) (s.lane n (e.op 60 56) j)))
theorem opStat_run (kind : Nat) (upd : StatRec → FV → StatRec × Fl) (n c : Nat) (e : Eng) (s t : State) : (opStat kind upd n c e s).run t =
    (((t.setSfs n (e.op 55 55) (s.vm n (e.op 54 53)) (fun j => (statUpdate upd n e s j).1)).setSfK n (e.op 55 55) kind).holdEng n c e fieldVEC
      (Fl.join ((maskLanes (s.vm n (e.op 54 53))).map (fun j => (statUpdate upd n e s j).2)))).relEng n c e := by
  simp only [opStat, engSlot, List.foldl_map, List.map_map]
  rfl
theorem opVamax_run (n c : Nat) (e : Eng) (s t : State) : ∃ f, (opVamax n c e s).run t =
    ((t.scoreAms n (e.op 55 55) (s.vm n (e.op 54 53)) (fun j => scoreCode (vfmt e s) (elem (vfmt e s) (s.lane n (e.op 60 56) j)))
      (fun j => (s.sr n c (e.op 52 48) + j) % 2 ^ 32)).holdEng n c e fieldVEC f).relEng n c e := by
  simp only [opVamax, engSlot, List.foldl_map]
  exact ⟨_, rfl⟩

/-- VSSQ and VMV write the record that their update gives in each lane of the mask, and their kind. -/
theorem stat_completes {kind : Nat} {upd : StatRec → FV → StatRec × Fl} {a : Issue} {e : Eng} {s : State} (r : Option Nat)
    (h : EngineIssues (opStat kind upd) a e s) : Completes (engine (opStat kind upd) r a e s) a e s (fun t =>
      let n := a.folio.val
      let k := e.op 55 55
      (∀ j : Fin 64, t.sfRec n k j.val = if bit (s.vm n (e.op 54 53)) j.val then (statUpdate upd n e s j.val).1 else s.sfRec n k j.val) ∧
      t.sfK n k = kind ∧ t = { s.advance n a.ctx.val with sf := t.sf, sfKind := t.sfKind, heldFlags := t.heldFlags }) := by
  refine engine_completes r h (opStat_run _ _ _ _ e s _) ?_
  intro n k
  refine ⟨fun j => ?_, ?_, holdEng_frame_sf _ n k (setSfs_only _ n k _ _) a.ctx.val kind e fieldVEC _⟩
  · rw [holdEng_only, ← sfRec_advance s n a.ctx.val k]
    exact sfRec_setSfs _ n k _ _ j
  · rw [holdEng_only]
    exact State.sfK_setSfK _ n k kind

/-! ## A file that is cleared (R250, R251) -/

theorem sfRec_erase (s : State) (n k : Nat) (j : Fin 64) :
    State.sfRec { s with sf := Sp.erase s.sf ((2 * n + k) * 64) 64 } n k j.val = StatRec.empty :=
  Sp.get_erase_in _ s.sf _ _ ⟨Nat.le_add_right _ _, Nat.add_lt_add_left j.isLt _⟩
theorem opVsclr_run (n c : Nat) (e : Eng) (s t : State) : (opVsclr n c e s).run t =
    (State.setSfK { t with sf := Sp.erase t.sf ((2 * n + e.op 55 55) * 64) 64 } n (e.op 55 55) 0).relEng n c e := rfl
/-- Every argmax record of a file reset. -/
def State.clearAms (s : State) (n k : Nat) : State := (List.range 64).foldl (fun t j => t.setAm n k j ArgRec.empty) s
theorem amRec_clearAms (s : State) (n k : Nat) (j : Fin 64) : (s.clearAms n k).amRec n k j.val = ArgRec.empty := by
  refine Eq.trans (foldl_lanes (rd := fun t => t.amRec n k) (v := fun _ _ => ArgRec.empty) (fun t q => State.amRec_setAm t n k q _)
    List.nodup_range s j.val) ?_
  exact if_pos (List.mem_range.mpr j.isLt)
theorem clearAms_only (s : State) (n k : Nat) : s.clearAms n k = { s with am := (s.clearAms n k).am } := by
  unfold State.clearAms
  exact List.foldlRecOn (motive := fun u : State => u = { s with am := u.am }) _ _ rfl fun u hu j _ => congrArg (State.setAm · n k j ArgRec.empty) hu

theorem opVaclr_run (n c : Nat) (e : Eng) (s t : State) : (opVaclr n c e s).run t = (t.clearAms n (e.op 55 55)).relEng n c e := rfl

/-! ## A record that leaves the files (R250, R251, R463) -/

/-- The record `bs` is in the send slot, or in folio memory at a(AREG). -/
def RecordOut (a : Issue) (e : Eng) (s : State) (bs : List Byte) (t : State) : Prop :=
  let n := a.folio.val
  let c := a.ctx.val
  let i := s.advance n c
  if e.opb 54 then t.slot n = some { ctx := c, tag := s.engTag n c e, bytes := bs } ∧ t.fm = i.fm
  else t.fm.bytes (s.fmKey n c (addrOf (s.ar n c (e.op 53 50)))) bs.length = bs ∧
    SameOutside (s.fmKey n c (addrOf (s.ar n c (e.op 53 50)))) bs.length i.fm t.fm ∧ t.slots = i.slots

/-- The record of an instruction that hands one out, over the state in which its bundle has issued. -/
theorem record_completes {op : Nat → Nat → Eng → State → SlotOp} {file len : Nat} {rec : State → List Byte × Fl} {a : Issue} {e : Eng} {s : State}
    {bs : List Byte} (r : Option Nat) (h : EngineIssues op a e s)
    (hop : op a.folio.val a.ctx.val e s = opRecord file len rec a.folio.val a.ctx.val e s)
    (hbs : (rec (s.advance a.folio.val a.ctx.val)).1 = bs) : Completes (engine op r a e s) a e s (fun t => RecordOut a e s bs t ∧
      t = { s.advance a.folio.val a.ctx.val with slots := t.slots, fm := t.fm, heldFlags := t.heldFlags }) := by
  have hbad : (s.advance a.folio.val a.ctx.val).bad = [] := bad_advance h.1.2.2.1 _ _
  refine engine_completes r h (by rw [hop]; rfl) ?_
  rw [hbs]
  unfold RecordOut
  split
  next hslot =>
    refine ⟨⟨by rw [State.holdEng, slot_holdFl, slot_setSlot_same], ?_⟩, ?_⟩ <;>
    · rw [holdEng_only]
      rfl
  next hslot =>
    rw [fmWrite_of_bad_nil hbad, fmKey_of_regs (advance_regs s _ _), holdEng_only]
    exact ⟨⟨Memory.bytes_write _ _ _, fun k hk => Memory.byte_write_out _ _ _ hk, rfl⟩, rfl⟩

/-- Settles O21: the updates of the records of a mask, the two resets, and the records that leave the files. -/
theorem statisticsAndArgmaxFiles : Obligations.StatisticsAndArgmaxFiles := by
  unfold Obligations.StatisticsAndArgmaxFiles
  intro a e s n c i k m x rec8 frame
  refine ⟨fun h => ?_, fun h => ?_, fun h => ?_, fun h => ?_, fun h => ?_, fun h => ?_, fun h => ?_, fun h => ?_⟩
  · exact stat_completes (upd := ssqUpdate) (some VEC_RESIDUE) h
  · exact stat_completes (upd := mvUpdate) (some VEC_RESIDUE) h
  · exact engine_completes (some VEC_RESIDUE) h (opVsclr_run n c e s i) ⟨sfRec_erase i n k, State.sfK_setSfK _ n k 0, rfl⟩
  · obtain ⟨f, hrun⟩ := opVamax_run n c e s i
    refine engine_completes (some VEC_RESIDUE) h hrun ?_
    refine ⟨fun j => ?_, holdEng_frame_am i n (scoreAms_only i n k m _ _) c e fieldVEC f⟩
    rw [holdEng_only, ← amRec_advance s n c k]
    exact amRec_scoreAms i n k m _ _ j
  · exact engine_completes (some VEC_RESIDUE) h (opVaclr_run n c e s i) ⟨amRec_clearAms i n k, clearAms_only i n k⟩
  · exact record_completes (some VEC_RESIDUE) h rfl (by rw [sfRecs_advance])
  · exact record_completes (some VEC_RESIDUE) h rfl (by rw [sfRecs_advance, State.sfRecs, List.flatMap_map])
  · exact record_completes (some VEC_RESIDUE) h rfl (by rw [funext (amRec_advance s n c k)])

end Sys2Proof.Machine
end

-- ==== Special functions and the function store: O24 ====
section
/-! SUPPORT. SFN and FNLOAD (R204, R208, R210, R212, R215, R235). In order: results that every rounding
leaves exact; the special results of a function; SFN; bits of a register word; the function store; FNLOAD. -/

namespace Sys2Proof.Machine

open Sys2Proof.Claims

/-! ## Results that every rounding leaves exact (R61, R208, R210) -/

/-- The formats of the vector engine and the special-function unit. -/
def Fmt.isVec (f : Fmt) : Prop := f = .fp32 ∨ f = .bf16 ∨ f = .fp16
theorem fmtOf_isVec (level : Nat) {code : Nat} (h : vecFmt code = true) : (fmtOf level code).isVec := by
  simp only [vecFmt, Bool.or_eq_true, beq_iff_eq] at h
  obtain (rfl | rfl) | rfl := h
  · exact .inl rfl
  · exact .inr (.inl rfl)
  · exact .inr (.inr rfl)

theorem roundNat_natCast (rnd : Rnd) (neg : Bool) (k r : Nat) : roundNat rnd neg (k : Rat) r = (k, false) := by
  have hfloor : floorNat (k : Rat) = k := by simp [floorNat]
  have hup : roundsUp rnd neg k 0 r = false := by cases rnd <;> simp [roundsUp, floorNat]
  simp [roundNat, hfloor, hup]
/-- A magnitude of few enough bits is rounded to itself. -/
theorem roundMag_exact {rnd : Rnd} {p : Nat} {elo : Int} {neg : Bool} {q : Rat} {r k : Nat}
    (h : q / pow2 (max (floorLog2 q - ((p : Int) - 1)) elo) = k) (hq : (k : Rat) * pow2 (max (floorLog2 q - ((p : Int) - 1)) elo) = q) :
    roundMag rnd p elo neg q r = (q, false) := by
  unfold roundMag
  split
  next hzero => rw [beq_iff_eq.mp hzero]
  next => simp only [h, roundNat_natCast, hq]

section
variable {f : Fmt} (hf : f.isVec) (c : Cvt)
include hf

theorem encode_nan (sig : Bool) : (f.encode c (.nan sig)).1 = f.qnan := by
  obtain rfl | rfl | rfl := hf <;> rfl
theorem qnan_lt : f.qnan < 2 ^ 32 := by
  obtain rfl | rfl | rfl := hf <;> decide
/-- A magnitude that rounding keeps, below the largest and no subnormal, is encoded as itself. -/
theorem encode_of_exact {neg : Bool} {q : Rat} (hround : roundMag c.rnd (f.frac + 1) (f.emin - f.frac) neg q c.r = (q, false))
    (hmax : ¬ q > f.maxFin) (hmin : ¬ q < pow2 f.emin ∨ q = 0) : (f.encode c (.fin neg q)).1 = f.magCode neg q := by
  have hflush : (!c.strict && f.flushes && decide (q < pow2 f.emin) && q != 0) = false := by
    obtain h | h := hmin <;> simp [h]
  obtain rfl | rfl | rfl := hf <;> simp only [Fmt.encode, hround, hmax, hflush] <;> rfl
theorem encode_zero : (f.encode c (.fin false 0)).1 = 0 := by
  have hround : roundMag c.rnd (f.frac + 1) (f.emin - f.frac) false 0 c.r = (0, false) := rfl
  have hmax : ¬ (0 : Rat) > f.maxFin := by obtain rfl | rfl | rfl := hf <;> decide +kernel
  rw [encode_of_exact hf c hround hmax (.inr rfl)]
  obtain rfl | rfl | rfl := hf <;> rfl
theorem decode_encode_one (neg : Bool) : f.decode ((f.encode c (.fin neg 1)).1 % 2 ^ 32) = .fin neg 1 := by
  have hround : roundMag c.rnd (f.frac + 1) (f.emin - f.frac) neg 1 c.r = (1, false) := by
    apply roundMag_exact (k := 2 ^ f.frac) <;> obtain rfl | rfl | rfl := hf <;> decide +kernel
  have hmax : ¬ (1 : Rat) > f.maxFin := by obtain rfl | rfl | rfl := hf <;> decide +kernel
  have hmin : ¬ (1 : Rat) < pow2 f.emin := by obtain rfl | rfl | rfl := hf <;> decide +kernel
  have hcode : ∀ neg, f.decode (f.magCode neg 1 % 2 ^ 32) = .fin neg 1 := by obtain rfl | rfl | rfl := hf <;> decide +kernel
  rw [encode_of_exact hf c hround hmax (.inl hmin), hcode]

/-! ## The special results of a function (R208, R210) -/

variable (level : Nat) (compat : Bool) (store : Bytes)

theorem fnEval_nan (fn : Nat) {x : FV} (hx : x.isNan = true) : (fnEval level compat store fn x f c).1 = f.qnan := by
  obtain ⟨sig, rfl⟩ : ∃ sig, x = .nan sig := by
    cases x with
    | nan sig => exact ⟨sig, rfl⟩
    | inf n => cases hx
    | fin n q => cases hx
  unfold fnEval
  split
  · exact encode_nan hf c false
  · rfl
theorem sigmoid_neg_inf : (fnEval level compat store 0 (.inf true) f c).1 = 0 := encode_zero hf c
theorem tanh_inf (neg : Bool) : f.decode ((fnEval level compat store 1 (.inf neg) f c).1 % 2 ^ 32) = .fin neg 1 := decode_encode_one hf c neg
end

/-! ## SFN (R204) -/

/-- The value and the flags of lane j. -/
def sfnLane (n c : Nat) (e : Eng) (s : State) (j : Nat) : Nat × Fl :=
  fnEval s.level (e.opb 27) (s.fstore n) (e.op 48 39)
    ((fmtOf s.level (e.op 38 35)).read false (elem (fmtOf s.level (e.op 38 35)) (s.lane n (e.op 55 51) j))) (fmtOf s.level e.fmt)
    (cvtOf e (s.srLane n c e (e.op 26 23) j))
/-- The lanes of an SFN: those below N of its mask. -/
def sfnMask (n : Nat) (e : Eng) (s : State) : Nat := s.vm n (e.op 50 49) % 2 ^ e.op 34 28
theorem opSfn_run (n c : Nat) (e : Eng) (s t : State) : ∃ g, (opSfn n c e s).run t =
    ((t.setLanes n (e.op 60 56) g).holdEng n c e fieldSFU
      (Fl.join ((List.range 64).map (fun j => if bit (sfnMask n e s) j then (sfnLane n c e s j).2 else {})))).relEng n c e ∧
    ∀ j < 64, g j = if bit (sfnMask n e s) j then some (sfnLane n c e s j).1 else none := by
  simp only [opSfn, engSlot, List.map_map, ← bit_mod_two_pow]
  refine ⟨_, congrArg (fun fl => State.relEng (State.holdEng _ n c e fieldSFU (Fl.join fl)) n c e)
    (List.map_congr_left fun j hj => ?_), fun j hj => ?_⟩
  · dsimp only [Function.comp_apply]
    unfold sfnMask
    cases bit (s.vm n (e.op 50 49) % 2 ^ e.op 34 28) j <;> rfl
  · rw [List.getElem?_map, List.getElem?_range hj]
    unfold sfnMask
    dsimp only [Option.map_some]
    cases bit (s.vm n (e.op 50 49) % 2 ^ e.op 34 28) j <;> rfl
theorem vecFmt_of_sfn_clear {n c : Nat} {e : Eng} {s : State} (h : (opSfn n c e s).clear) : vecFmt e.fmt = true := by
  have hformats : (!vecFmt e.fmt || !vecFmt (e.op 38 35) || e.op 48 39 == 9) = false :=
    (lowestTrap_none _).mp h.1 (!vecFmt e.fmt || !vecFmt (e.op 38 35) || e.op 48 39 == 9, SFN_FMT) (by simp [opSfn, engSlot])
  simp only [Bool.or_eq_false_iff, Bool.not_eq_false'] at hformats
  exact hformats.1.1

theorem sfn_completes {a : Issue} {e : Eng} {s : State} {post : State → Prop} (h : EngineIssues opSfn a e s)
    (hpost : ∀ t, LanesSet a s (e.op 60 56) (sfnMask a.folio.val e s) (fun j => (sfnLane a.folio.val a.ctx.val e s j).1 % 2 ^ 32) t →
      HoldsFlags a e s fieldSFU ((List.range 64).map (fun j => if bit (sfnMask a.folio.val e s) j then (sfnLane a.folio.val a.ctx.val e s j).2
        else {})) t →
      t = { s.advance a.folio.val a.ctx.val with vreg := t.vreg, heldFlags := t.heldFlags } → post t) :
    Completes (exec (.sfn a e) s) a e s post := by
  obtain ⟨g, hrun, hg⟩ := opSfn_run a.folio.val a.ctx.val e s (s.advance a.folio.val a.ctx.val)
  refine engine_completes (some SFU_RESIDUE) h hrun (hpost _ ?_ ?_ ?_)
  · exact lanesSet_of_vreg (by rw [holdEng_only]) (lanesSet_setLanes (advance_vreg s _ _) (op_lt e 60 56) hg)
  · exact holdsFlags_join fieldSFU _ (advance_heldFlags s _ _) (engTag_advance s _ _ e)
  · rw [holdEng_only]
    rfl

/-! ## Bits of a register word -/

theorem putBits_eq (x lo hi v : Nat) : putBits x hi lo v =
    2 ^ lo * (2 ^ (hi - lo + 1) * (x / 2 ^ lo / 2 ^ (hi - lo + 1)) + v % 2 ^ (hi - lo + 1)) + x % 2 ^ lo := by
  have hx : 2 ^ lo * (x / 2 ^ lo) + x % 2 ^ lo = x := Nat.div_add_mod x (2 ^ lo)
  have hq : 2 ^ (hi - lo + 1) * (x / 2 ^ lo / 2 ^ (hi - lo + 1)) + x / 2 ^ lo % 2 ^ (hi - lo + 1) = x / 2 ^ lo := Nat.div_add_mod _ _
  have hfield : 2 ^ lo * (x / 2 ^ lo) = 2 ^ lo * (2 ^ (hi - lo + 1) * (x / 2 ^ lo / 2 ^ (hi - lo + 1))) +
      x / 2 ^ lo % 2 ^ (hi - lo + 1) * 2 ^ lo := by
    conv_lhs => rw [← hq]
    ring
  unfold putBits bits
  rw [Nat.mul_add, Nat.mul_comm (2 ^ lo) (v % _)]
  omega
/-- The bits of a number with a field replaced. -/
theorem testBit_putBits (x v k : Nat) {hi lo : Nat} (h : lo ≤ hi) :
    (putBits x hi lo v).testBit k = if lo ≤ k ∧ k ≤ hi then v.testBit (k - lo) else x.testBit k := by
  rw [putBits_eq, Nat.testBit_two_pow_mul_add _ (Nat.mod_lt _ (Nat.two_pow_pos lo)),
    Nat.testBit_two_pow_mul_add _ (Nat.mod_lt _ (Nat.two_pow_pos _)), Nat.testBit_mod_two_pow, Nat.testBit_mod_two_pow,
    Nat.testBit_div_two_pow, Nat.testBit_div_two_pow]
  by_cases hlo : k < lo
  · have hout : ¬(lo ≤ k ∧ k ≤ hi) := by omega
    simp [hlo, hout]
  · by_cases hhi : k ≤ hi
    · have hin : k - lo < hi - lo + 1 := by omega
      simp [hlo, hhi, hin, Nat.le_of_not_lt hlo]
    · have hout : ¬ k - lo < hi - lo + 1 := by omega
      have hk : k - lo - (hi - lo + 1) + (hi - lo + 1) + lo = k := by omega
      simp [hlo, hhi, hout, hk]
/-- A bit of a register word after a field of it has been written. -/
theorem State.rbit_setFld (s : State) (r v k : Nat) {hi lo : Nat} (h : lo ≤ hi) (hhi : hi < 32) :
    (s.setFld r hi lo v).rbit r k = if lo ≤ k ∧ k ≤ hi then v.testBit (k - lo) else s.rbit r k := by
  rw [State.rbit, State.setFld, State.reg_setReg_same, bit_mod_two_pow, bit_eq_testBit, testBit_putBits _ _ _ h, State.rbit, bit_eq_testBit]
  by_cases hk : k < 32
  · simp [hk]
  · have hout : ¬(lo ≤ k ∧ k ≤ hi) := by omega
    have hword : s.reg r < 2 ^ k := lt_of_lt_of_le (BitVec.isLt _) (Nat.pow_le_pow_right (by decide) (by omega))
    simp [hk, hout, Nat.testBit_lt_two_pow hword]
/-- A number put together of N bits. -/
theorem testBit_foldl_bits (p : Nat → Bool) (N : Nat) : (List.range N).foldl (fun x j => if p j then x + 2 ^ j else x) 0 < 2 ^ N ∧
    ∀ k, ((List.range N).foldl (fun x j => if p j then x + 2 ^ j else x) 0).testBit k = (decide (k < N) && p k) := by
  induction N with
  | zero => simp
  | succ N ih =>
    obtain ⟨hlt, hbits⟩ := ih
    rw [List.range_succ, List.foldl_append, List.foldl_cons, List.foldl_nil]
    generalize (List.range N).foldl (fun x j => if p j then x + 2 ^ j else x) 0 = x at hlt hbits
    have hpow : 2 ^ N < 2 ^ (N + 1) := Nat.pow_lt_pow_succ (by decide)
    split
    next hp =>
      have hsum : x + 2 ^ N = 2 ^ N * 1 + x := by omega
      refine ⟨by omega, fun k => ?_⟩
      rw [hsum, Nat.testBit_two_pow_mul_add 1 hlt, hbits]
      obtain hk | rfl | hk := Nat.lt_trichotomy k N
      · simp [hk, Nat.lt_succ_of_lt hk]
      · simp [hp]
      · have hone : Nat.testBit 1 (k - N) = false := Nat.testBit_lt_two_pow (Nat.one_lt_two_pow (by omega))
        simp [hone, Nat.not_lt_of_gt hk, Nat.not_le_of_gt hk]
    next hp =>
      refine ⟨by omega, fun k => ?_⟩
      rw [hbits]
      obtain hk | rfl | hk := Nat.lt_trichotomy k N
      · simp [hk, Nat.lt_succ_of_lt hk]
      · simp [hp]
      · simp [Nat.not_lt_of_gt hk, Nat.not_le_of_gt hk]

/-! ## The function store and FOLIO_SFU_STORE (R212, R235) -/

section
variable (s : State) (n : Nat)

theorem rdn_fstore (o k : Nat) : rdn (s.fstore n) o k = s.fns.load (4096 * n + o) k := by
  induction k generalizing o with
  | zero => rfl
  | succ k ih =>
    rw [rdn, ih, Nat.add_succ]
    rfl
theorem reg_storeStat_ne {r : Nat} (h : r ≠ FOLIO_SFU_STORE n) : (s.storeStat n).reg r = s.reg r :=
  (State.reg_setFld_ne _ _ _ _ h).trans (State.reg_setFld_ne s _ _ _ h)
/-- VALID of a descriptor is bit 15 of its FLAGS. -/
theorem rbit_storeStat_valid (j : Fin 15) :
    (s.storeStat n).rbit (FOLIO_SFU_STORE n) j.val = bit (s.fns.load (4096 * n + 32 * j.val + 6) 2) 15 := by
  obtain ⟨-, hvalid⟩ := testBit_foldl_bits (fun j => bit (rdn (s.fstore n) (32 * j + 6) 2) 15) 15
  rw [State.storeStat, State.setBit, State.rbit_setFld _ _ _ _ (le_refl 16) (by decide), if_neg (by omega),
    State.rbit_setFld _ _ _ _ (by decide) (by decide), if_pos (by omega)]
  refine (hvalid j.val).trans ?_
  rw [rdn_fstore, Nat.add_assoc]
  simp
theorem rbit_storeStat_utab : (s.storeStat n).rbit (FOLIO_SFU_STORE n) 16 =
    (s.fns.byte (4096 * n + 0x1E5) == 1 || s.fns.byte (4096 * n + 0x1E5) == 2) := by
  rw [State.storeStat, State.setBit, State.rbit_setFld _ _ _ _ (le_refl 16) (by decide), if_pos ⟨le_refl 16, le_refl 16⟩]
  unfold State.fstore
  cases s.fns.byte (4096 * n + 0x1E5) == 1 || s.fns.byte (4096 * n + 0x1E5) == 2 <;> rfl
theorem rbit_storeStat_other {j : Nat} (h : j = 15 ∨ 16 < j) : (s.storeStat n).rbit (FOLIO_SFU_STORE n) j = s.rbit (FOLIO_SFU_STORE n) j := by
  rw [State.storeStat, State.setBit, State.rbit_setFld _ _ _ _ (le_refl 16) (by decide), if_neg (by omega),
    State.rbit_setFld _ _ _ _ (by decide) (by decide), if_neg (by omega)]
end

/-! ## FNLOAD (R215) -/

theorem fns_advance (s : State) (n c : Nat) : (s.advance n c).fns = s.fns := by rw [advance_only]
theorem reg_advance (s : State) (n c r : Nat) : (s.advance n c).reg r = s.reg r := by rw [State.reg, advance_regs, State.reg]

/-- A write to the function store where no word has bad parity. -/
theorem put_fns {t : State} (h : t.bad = []) (k : Nat) (bs : List Byte) : t.put 3 k bs = { t with fns := t.fns.write k bs } := by
  have hcured : cured t.bad 3 k bs.length = t.bad := by
    rw [h]
    rfl
  simp only [State.put, hcured]
  rfl
/-- The entries that an FNLOAD copies. -/
def fnloadData (n c : Nat) (e : Eng) (s : State) : List Byte := s.fmBytes n c (addrOf (s.ar n c (e.op 60 57))) (32 * e.op 49 42)
theorem fnloadData_length (n c : Nat) (e : Eng) (s : State) : (fnloadData n c e s).length = 32 * e.op 49 42 := Memory.bytes_length _ _ _
theorem opFnload_run (n c : Nat) (e : Eng) (s t : State) : (opFnload n c e s).run t =
    ((t.put 3 (4096 * n + 32 * e.op 56 50) (fnloadData n c e s)).storeStat n).relEng n c e := rfl

/-- Settles O24: the lanes and flags of an SFN with its exact special results, and the function store with FOLIO_SFU_STORE after an
FNLOAD. -/
theorem specialFunctionsAndFunctionStore : Obligations.SpecialFunctionsAndFunctionStore := by
  unfold Obligations.SpecialFunctionsAndFunctionStore
  intro a e s n c i fin out fn m x r
  refine ⟨fun h => ?_, fun h => ?_⟩
  · have hout : out.isVec := fmtOf_isVec s.level (vecFmt_of_sfn_clear h.2.1)
    refine sfn_completes h fun t hlanes hflags honly => ?_
    have hset (j : Fin 64) (hm : bit m j.val = true) : t.lane n (e.op 60 56) j.val = (r j.val).1 % 2 ^ 32 := (hlanes.1 j).trans (if_pos hm)
    refine ⟨hlanes, hflags, fun j hm hnan => ?_, fun j hm hfn hx => ?_, fun j neg hm hfn hx => ?_, honly⟩
    · have hvalue : (r j.val).1 = out.qnan := fnEval_nan hout _ _ _ _ _ hnan
      rw [hset j hm, hvalue, Nat.mod_eq_of_lt (qnan_lt hout)]
    · have hvalue : (r j.val).1 = 0 := by
        dsimp only [r]
        rw [hfn, hx, sigmoid_neg_inf hout]
      rw [hset j hm, hvalue, Nat.zero_mod]
    · rw [hset j hm]
      dsimp only [r]
      rw [hfn, hx, tanh_inf hout]
  · have hbad : i.bad = [] := bad_advance h.1.2.2.1 n c
    refine engine_completes none h (opFnload_run n c e s i) ?_
    rw [put_fns hbad]
    refine ⟨?_, ?_, rbit_storeStat_valid _ n, rbit_storeStat_utab _ n, fun j hj => ?_, fun k hk => ?_, rfl⟩
    · have hbytes := Memory.bytes_write i.fns (4096 * n + 32 * e.op 56 50) (fnloadData n c e s)
      rwa [fnloadData_length] at hbytes
    · rw [← fns_advance s n c]
      exact fun k hk => Memory.byte_write_out i.fns _ _ (by rwa [fnloadData_length])
    · rw [rbit_storeStat_other _ n hj]
      exact congrArg (bit · j) (reg_advance s n c _)
    · rw [reg_storeStat_ne _ n hk]
      exact reg_advance s n c k

end Sys2Proof.Machine
end

-- ==== The softmax unit: O25 refuted ====
section
/-! SUPPORT. SXRED with COLL inside the entry of a step (R221, R475). The contribution that it hands to the spine has the step's stream as
its `owner`, so that the end of the step can drop it. -/

namespace Sys2Proof.Machine

open Sys2Proof.Claims

/-- An entry of a step of stream 3. -/
def softmaxEntry : Entry :=
  { step := true, stream := 3, handle := 0x1003, seq := 1, cseq := 0, cursor := 0, len := 64, attempt := 0, oldSlot := 0, newSlot := 0 }
/-- A schedule whose gathering 0 has the shared tag 9. -/
def softmaxSched : Sched :=
  { ident := 1, caps := 0, wsize := 1, gaths := [⟨0, [⟨9, []⟩], []⟩], handles := [], regions := [], rings := [], remoteRings := [],
    golden := [], second := 0, images := [], slices := [], data := [], fits := true }
/-- Level 2; folio 0 is gathering 0, and its context 0 runs the entry. -/
def softmaxState : State :=
  { ((State.reset.setReg IFACE_LEVEL 0x20).setReg (GATH_TBL 0 0) 1).setReg (GATH_TBL 0 1) (2 ^ 31) with
    inReset := false
    scheds := [softmaxSched]
    ctxs := [(0, { Ctx.reset with st := .running, entry := some softmaxEntry })] }
/-- SXRED with COLL and the shared tag 9, beside a NOP. -/
def softmaxRed : Eng := ⟨0x40, false, 0, 0, BitVec.ofNat 61 (2 ^ 60 + 9 * 2 ^ 50), 0⟩
def softmaxIssue : Issue := ⟨0, 0, .ok, 0⟩

/-- The streams that own the contributions of folio 0 after a command. -/
def softmaxOwners : Res → Option (List (Option Nat))
  | .next t => some ((t.contrib 0).map Contrib.owner)
  | _ => none

theorem softmaxState_ready : mayIssue softmaxIssue softmaxState ∧ sound softmaxIssue softmaxState := by
  unfold mayIssue sound
  decide +kernel
theorem softmaxRed_issues : EngineIssues opSxred softmaxIssue softmaxRed softmaxState := by
  refine ⟨softmaxState_ready, ?_⟩
  unfold SlotOp.clear
  decide +kernel
theorem softmaxOwners_eq : softmaxOwners (exec (.sxred softmaxIssue softmaxRed) softmaxState) = some [some 3] := by
  decide +kernel

/-- Refutes O25: in the state `softmaxState` the contribution that SXRED hands to the spine has stream 3, whose step the context runs, as its
`owner`, so that the end of the step can drop it (R475, R476). The statement's contribution leaves the field at its default, none, which
is the owner in a doorbell's entry alone: what its last clause lacks is `owner := (s.ctx n c).owner`. -/
theorem not_softmaxUnit : ¬ Obligations.SoftmaxUnit := by
  unfold Obligations.SoftmaxUnit
  intro h
  obtain ⟨-, -, hred, -⟩ := h softmaxIssue softmaxRed softmaxState
  obtain ⟨t, hnext, -, -, -, -, -, -, hcoll⟩ := hred softmaxRed_issues
  have howners := softmaxOwners_eq
  rw [hnext] at howners
  have hthree : (t.contrib 0).map Contrib.owner = [some 3] := Option.some.inj howners
  have hnone : (t.contrib 0).map Contrib.owner = [none] := congrArg (List.map Contrib.owner) (hcoll (by decide))
  exact absurd (hthree.symm.trans hnone) (by decide)

end Sys2Proof.Machine
end

-- ==== Vector integer and floating-point instructions: O16, O17 ====
section
/-! SUPPORT. Instructions of the vector engine that write a register lane by lane (R236, R238, R240, R241, R244, R245). In order: lanes
under a mask; instructions on raw lanes; instructions that round each lane and hold its flags. -/

namespace Sys2Proof.Machine

open Sys2Proof.Claims

/-! ## Lanes under a mask (R236, R238) -/

theorem lane_lt (s : State) (n v j : Nat) : s.lane n v j < 2 ^ 32 := BitVec.isLt _
/-- Only the results of the 64 lanes matter. -/
theorem lanesSet_congr {a : Issue} {s t : State} {v m : Nat} {f g : Nat → Nat} (h : LanesSet a s v m f t) (hfg : ∀ j < 64, f j = g j) :
    LanesSet a s v m g t := by
  obtain ⟨hset, hother⟩ := h
  exact ⟨fun j => by rw [hset j, hfg j j.isLt], hother⟩
/-- An entry of a list of results by place. -/
theorem getElem?_map_range {β : Type} (g : Nat → β) {N j : Nat} (hj : j < N) : ((List.range N).map g)[j]? = some (g j) := by
  rw [List.getElem?_map, List.getElem?_range hj]
  rfl
/-- The lanes of a mask written with their results. -/
def State.writeLanes (t : State) (n v m : Nat) (f : Nat → Nat) : State :=
  t.setLanes n v (fun j => if bit m j then ((List.range 64).map f)[j]? else none)
theorem lanesSet_writeLanes {a : Issue} {s u : State} {v m : Nat} {f : Nat → Nat} (hvreg : u.vreg = s.vreg) (hv : v < 32) :
    LanesSet a s v m (fun j => f j % 2 ^ 32) (u.writeLanes a.folio.val v m f) :=
  lanesSet_setLanes hvreg hv fun j hj => by rw [getElem?_map_range f hj]
theorem writeLanes_only (t : State) (n v m : Nat) (f : Nat → Nat) : t.writeLanes n v m f = { t with vreg := (t.writeLanes n v m f).vreg } := rfl

/-! ## Instructions on raw lanes: no flag (R241, R244, R245) -/

/-- An instruction that writes the lanes of its mask with results of 32 bits, and does no more. -/
theorem intResult_of_run {op : Nat → Nat → Eng → State → SlotOp} {mk : Issue → Eng → Instr} {a : Issue} {e : Eng} {s : State} {f : Nat → Nat}
    (hexec : exec (mk a e) s = engine op (some VEC_RESIDUE) a e s)
    (hrun : ∀ t, (op a.folio.val a.ctx.val e s).run t =
      (t.writeLanes a.folio.val (vVD e) (vmask a e s) f).relEng a.folio.val a.ctx.val e)
    (hf : (op a.folio.val a.ctx.val e s).clear → ∀ j < 64, f j < 2 ^ 32) : IntResult op mk a e s f := by
  intro h
  rw [hexec]
  refine engine_completes _ h (hrun _) ⟨?_, writeLanes_only _ _ _ _ _⟩
  exact lanesSet_congr (lanesSet_writeLanes (advance_vreg s _ _) (op_lt e 60 56)) fun j hj => Nat.mod_eq_of_lt (hf h.2.1 j hj)
theorem intResult_opLanes {op : Nat → Nat → Eng → State → SlotOp} {mk : Issue → Eng → Instr} {a : Issue} {e : Eng} {s : State} {f : Nat → Nat}
    {u : VUse} {extra : List (Bool × Nat)} (hexec : exec (mk a e) s = engine op (some VEC_RESIDUE) a e s)
    (hop : op a.folio.val a.ctx.val e s = opLanes u extra f a.folio.val a.ctx.val e s) (hf : ∀ j < 64, f j < 2 ^ 32) :
    IntResult op mk a e s f :=
  intResult_of_run hexec (fun t => by rw [hop]; rfl) fun _ => hf
/-- A two-operand integer instruction: its function of each pair of lanes (R241). -/
theorem intResult_opInt {mk : Issue → Eng → Instr} {a : Issue} {e : Eng} {s : State} {g : Word → Word → Word} {f : Nat → Nat}
    (hexec : exec (mk a e) s = engine (opInt g) (some VEC_RESIDUE) a e s)
    (hf : ∀ j, (g (BitVec.ofNat 32 (va a e s j)) (BitVec.ofNat 32 (vb a e s j))).toNat = f j) : IntResult (opInt g) mk a e s f := by
  obtain rfl := funext hf
  exact intResult_opLanes hexec rfl fun _ _ => BitVec.isLt _

/-- A pattern of R245 moves lanes of its two registers. -/
theorem shuf_lt {a b : Nat → Nat} {N : Nat} (ha : ∀ j, a j < N) (hb : ∀ j, b j < N) (p r j : Nat) : shuf p r a b j < N := by
  unfold shuf
  split
  · exact ha _
  · exact ha _
  iterate 4
    next =>
      split
      · exact ha _
      · exact hb _
  · exact ha _
  · exact ha _

/-- Settles O16: each instruction is its function of the lanes, and moves give lanes of the registers as they were. -/
theorem vectorIntegerOperations : Obligations.VectorIntegerOperations := by
  unfold Obligations.VectorIntegerOperations
  intro a e s x y
  have hva (j : Nat) : va a e s j < 2 ^ 32 := lane_lt s _ _ j
  have hvb (j : Nat) : vb a e s j < 2 ^ 32 := lane_lt s _ _ j
  refine ⟨intResult_opInt rfl fun _ => rfl, intResult_opInt rfl fun _ => rfl, intResult_opInt rfl fun _ => rfl,
    intResult_opInt rfl fun _ => rfl, intResult_opInt rfl fun _ => rfl, intResult_opInt rfl fun _ => rfl,
    intResult_opInt rfl fun _ => rfl, intResult_opInt rfl fun _ => rfl, intResult_opInt rfl fun _ => rfl,
    intResult_opInt rfl fun _ => congrArg BitVec.toNat (if_congr BitVec.slt_iff_toInt_lt rfl rfl),
    intResult_opInt rfl fun _ => congrArg BitVec.toNat (if_congr BitVec.slt_iff_toInt_lt rfl rfl), ?_, ?_, ?_, ?_, ?_⟩
  · exact intResult_opLanes rfl rfl fun j hj => lt_trans hj (by decide)
  · exact intResult_opLanes rfl rfl fun j _ => hva j
  · exact intResult_opLanes rfl rfl fun j _ => hva _
  · refine intResult_opLanes rfl rfl fun j _ => ?_
    split
    · exact hva _
    · exact hvb _
  · exact intResult_opLanes (f := shuf (vSUB e) (vIMM e) (va a e s) (vb a e s)) rfl rfl fun j _ => shuf_lt hva hvb _ _ j

/-! ## Instructions that round each lane and hold its flags (R75, R240) -/

/-- The lanes of the mask written with their results, and their flags held. -/
def State.writeResults (t : State) (n c : Nat) (e : Eng) (m : Nat) (r : Nat → Nat × Fl) : State :=
  (t.setLanes n (vVD e) (fun j => if bit m j then ((((List.range 64).map r)[j]?).map Prod.fst) else none)).holdEng n c e fieldVEC
    (Fl.join ((List.range 64).map (fun j => if bit m j then ((((List.range 64).map r)[j]?).map Prod.snd).getD {} else {})))
/-- Register VD holds the results, their flags are held, and nothing else differs. -/
def ResultsSet (a : Issue) (e : Eng) (s : State) (r : Nat → Nat × Fl) (t : State) : Prop :=
  LanesSet a s (vVD e) (vmask a e s) (fun j => (r j).1 % 2 ^ 32) t ∧
  HoldsFlags a e s fieldVEC ((List.range 64).map (fun j => if bit (vmask a e s) j then (r j).2 else {})) t ∧
  t = { s.advance a.folio.val a.ctx.val with vreg := t.vreg, heldFlags := t.heldFlags }

theorem resultsSet_writeResults (a : Issue) (e : Eng) (s : State) (r : Nat → Nat × Fl) :
    ResultsSet a e s r ((s.advance a.folio.val a.ctx.val).writeResults a.folio.val a.ctx.val e (vmask a e s) r) := by
  have hflags : (List.range 64).map (fun j => if bit (vmask a e s) j then ((((List.range 64).map r)[j]?).map Prod.snd).getD {} else {}) =
      (List.range 64).map (fun j => if bit (vmask a e s) j then (r j).2 else {}) :=
    List.map_congr_left fun j hj => by
      rw [getElem?_map_range r (List.mem_range.mp hj)]
      rfl
  unfold State.writeResults
  rw [hflags]
  refine ⟨?_, holdsFlags_join fieldVEC _ (advance_heldFlags s _ _) (engTag_advance s _ _ e), by rw [holdEng_only]; rfl⟩
  refine lanesSet_of_vreg (by rw [holdEng_only]) (lanesSet_setLanes (f := fun j => (r j).1) (advance_vreg s _ _) (op_lt e 60 56) fun j hj => ?_)
  rw [getElem?_map_range r hj]
  rfl
/-- An instruction that writes results and holds their flags. -/
theorem results_complete {op : Nat → Nat → Eng → State → SlotOp} {a : Issue} {e : Eng} {s : State} {r : Nat → Nat × Fl}
    (h : EngineIssues op a e s)
    (hrun : ∀ t, (op a.folio.val a.ctx.val e s).run t =
      (t.writeResults a.folio.val a.ctx.val e (vmask a e s) r).relEng a.folio.val a.ctx.val e) :
    Completes (engine op (some VEC_RESIDUE) a e s) a e s (ResultsSet a e s r) :=
  engine_completes _ h (hrun _) (resultsSet_writeResults a e s r)
/-- A floating-point instruction: one rounding of its exact function of the lanes (R240). -/
theorem fpResult_opFp {u : VUse} {mk : Issue → Eng → Instr} {a : Issue} {e : Eng} {s : State} (g : Rnd → FV → FV → FV → FV × Bool)
    (hexec : exec (mk a e) s = engine (opFp u g) (some VEC_RESIDUE) a e s) :
    FpResult (opFp u g) mk a e s
      (fun j => g (Rnd.ofCode e.rnd) (val e s (va a e s j)) (val e s (vb a e s j)) (val e s (vc a e s j))) := by
  intro h
  rw [hexec]
  exact results_complete h fun _ => rfl

/-! ## Instructions that move bits of a floating-point register (R240) -/

/-- The formats of the vector engine have between 1 and 32 bits. -/
theorem isVec_bits {f : Fmt} (h : f.isVec) : 0 < f.bits ∧ f.bits ≤ 32 := by
  obtain rfl | rfl | rfl := h <;> decide
theorem vfmt_isVec_of_clear {u : VUse} {g : Fmt → Nat → Nat → Nat → Nat} {n c : Nat} {e : Eng} {s : State}
    (h : (opBits u g n c e s).clear) : (vfmt e s).isVec := by
  have hcode : (!vecFmt e.fmt) = false := (lowestTrap_none _).mp h.1 (!vecFmt e.fmt, VEC_FMT) (by simp [opBits, engSlot, vfpTraps])
  exact fmtOf_isVec s.level (by simpa using hcode)
/-- An instruction that moves bits within an element leaves an element. -/
theorem intResult_opBits {op : Nat → Nat → Eng → State → SlotOp} {mk : Issue → Eng → Instr} {a : Issue} {e : Eng} {s : State} {f : Nat → Nat}
    {u : VUse} {g : Fmt → Nat → Nat → Nat → Nat} (hexec : exec (mk a e) s = engine op (some VEC_RESIDUE) a e s)
    (hop : op a.folio.val a.ctx.val e s = opBits u g a.folio.val a.ctx.val e s)
    (hg : ∀ j, g (vfmt e s) j (elem (vfmt e s) (va a e s j)) (elem (vfmt e s) (vb a e s j)) = f j)
    (hf : (vfmt e s).isVec → ∀ j, f j < 2 ^ (vfmt e s).bits) : IntResult op mk a e s f := by
  obtain rfl : (fun j => g (vfmt e s) j (elem (vfmt e s) (va a e s j)) (elem (vfmt e s) (vb a e s j))) = f := funext hg
  refine intResult_of_run hexec (fun t => by rw [hop]; rfl) fun hclear j _ => ?_
  rw [hop] at hclear
  have hvec := vfmt_isVec_of_clear hclear
  exact (hf hvec j).trans_le (Nat.pow_le_pow_right (by decide) (isVec_bits hvec).2)

/-- Settles O17: the arithmetic is one rounding of the exact result of each lane, and the moves keep within an element's bits. -/
theorem vectorFloatingPointOperations : Obligations.VectorFloatingPointOperations := by
  unfold Obligations.VectorFloatingPointOperations
  intro a e s x y z r
  have hmod (k : Nat) : k % 2 ^ (vfmt e s).bits < 2 ^ (vfmt e s).bits := Nat.mod_lt _ (Nat.two_pow_pos _)
  refine ⟨fpResult_opFp _ rfl, fpResult_opFp _ rfl, fpResult_opFp _ rfl, fpResult_opFp _ rfl, fpResult_opFp _ rfl, fpResult_opFp _ rfl,
    intResult_opBits rfl rfl (fun _ => rfl) fun _ j => ?_, intResult_opBits rfl rfl (fun _ => rfl) fun hvec j => ?_,
    intResult_opBits rfl rfl (fun j => ?_) fun _ _ => hmod _⟩
  · exact (Nat.mod_le _ _).trans_lt (hmod _)
  · obtain ⟨hpos, -⟩ := isVec_bits hvec
    exact Nat.xor_lt_two_pow (hmod _) (Nat.pow_lt_pow_right (by decide) (by omega))
  · exact (apply_ite (elem (vfmt e s)) _ _ _).symm

end Sys2Proof.Machine
end

-- ==== Vector compares: O18 ====
section
/-! SUPPORT. VCMP and VICMP (R238, R240, R241). In order: reads after writes of a mask register; a mask register put together bit by
bit; the two instructions. -/

namespace Sys2Proof.Machine

open Sys2Proof.Claims

/-! ## Mask registers (R236) -/

theorem State.vm_setVm_ne (s : State) {n k m q : Nat} (v : Nat) (h : 4 * m + q ≠ 4 * n + k) : (s.setVm n k v).vm m q = s.vm m q := by
  unfold State.setVm
  split
  · rfl
  · simp only [State.vm, Sp.get_set_ne _ _ _ h]
theorem setVm_only (s : State) (n k v : Nat) : s.setVm n k v = { s with vmask := (s.setVm n k v).vmask } := by
  unfold State.setVm
  split <;> rfl
theorem vm_advance (s : State) (n c m k : Nat) : (s.advance n c).vm m k = s.vm m k := by rw [State.vm, advance_vmask, State.vm]
theorem vm_holdEng (s : State) (n c : Nat) (e : Eng) (field : Nat) (f : Fl) (m k : Nat) : (s.holdEng n c e field f).vm m k = s.vm m k := by
  rw [holdEng_only]
  rfl

/-- The 64 bits of a comparison as a mask. -/
def maskOf (p : Nat → Bool) : Nat := (List.range 64).foldl (fun x j => if p j then x + 2 ^ j else x) 0
theorem bit_maskOf (p : Nat → Bool) (j : Fin 64) : bit (maskOf p % 2 ^ 64) j.val = p j.val := by
  obtain ⟨-, hbits⟩ := testBit_foldl_bits p 64
  rw [bit_mod_two_pow, bit_eq_testBit, maskOf, hbits]
  simp
/-- The sum of the places at which a list of results is set. -/
theorem foldl_zip_range (g : Nat → Bool × Bool) : (((List.range 64).map g).zip (List.range 64)).foldl
    (fun x p => if p.1.1 then x + 2 ^ p.2 else x) 0 = maskOf (fun j => (g j).1) := by
  have hzip : ((List.range 64).map g).zip (List.range 64) = (List.range 64).map (fun j => (g j, j)) := by
    simpa using List.zip_map' (f := g) (g := id) (l := List.range 64)
  rw [hzip, List.foldl_map, maskOf]

/-- Register k of the folio holds the bits p, and every other mask register is as it was. -/
def MaskSet (a : Issue) (s : State) (k : Nat) (p : Nat → Bool) (t : State) : Prop :=
  (∀ j : Fin 64, bit (t.vm a.folio.val k) j.val = p j.val) ∧
  ∀ (m : Fin 50) (q : Fin 4), ¬(m.val = a.folio.val ∧ q.val = k) → t.vm m.val q.val = s.vm m.val q.val
theorem maskSet_setVm {a : Issue} {s u : State} {k : Nat} {p : Nat → Bool} (hu : ∀ m q, u.vm m q = s.vm m q) (h0 : k ≠ 0) (hk : k < 4) :
    MaskSet a s k p (u.setVm a.folio.val k (maskOf p)) := by
  refine ⟨fun j => ?_, fun m q hne => ?_⟩
  · rw [State.vm_setVm_same u _ _ _ h0]
    exact bit_maskOf p j
  · rw [State.vm_setVm_ne u _ (by omega), hu]

/-! ## VCMP and VICMP -/

/-- A comparison names a mask register that can be written. -/
theorem vCMK_ne_zero {e : Eng} {o : SlotOp} (h : o.clear) (ho : (vCMK e == 0, VEC_REG) ∈ o.traps) : vCMK e ≠ 0 := by
  simpa using (lowestTrap_none _).mp h.1 _ ho

/-- VCMP's answer for lane j and whether it is invalid; neither in a lane that its mask leaves out. -/
def vcmpMasked (a : Issue) (e : Eng) (s : State) (j : Nat) : Bool × Bool :=
  if bit (vmask a e s) j then cmpFV (vSUB e) (val e s (va a e s j)) (val e s (vb a e s j)) else (false, false)
/-- Bit j of the register after VICMP. -/
def vicmpBit (a : Issue) (e : Eng) (s : State) (j : Nat) : Bool :=
  if bit (vmask a e s) j then icmp (vSUB e) (BitVec.ofNat 32 (va a e s j)) (BitVec.ofNat 32 (vb a e s j))
  else bit (s.vm a.folio.val (vCMK e)) j

section
variable (a : Issue) (e : Eng) (s : State)

theorem vcmpMasked_fst (j : Nat) : (vcmpMasked a e s j).1 =
    (bit (vmask a e s) j && (cmpFV (vSUB e) (val e s (va a e s j)) (val e s (vb a e s j))).1) := by
  unfold vcmpMasked
  cases bit (vmask a e s) j <;> rfl
theorem vcmpMasked_snd (j : Nat) : (vcmpMasked a e s j).2 =
    (bit (vmask a e s) j && (cmpFV (vSUB e) (val e s (va a e s j)) (val e s (vb a e s j))).2) := by
  unfold vcmpMasked
  cases bit (vmask a e s) j <;> rfl
theorem opVcmp_run (t : State) : (opVcmp a.folio.val a.ctx.val e s).run t =
    ((t.setVm a.folio.val (vCMK e) (maskOf fun j => (vcmpMasked a e s j).1)).holdEng a.folio.val a.ctx.val e fieldVEC
      { nv := (List.range 64).any fun j => (vcmpMasked a e s j).2 }).relEng a.folio.val a.ctx.val e := by
  have hnv : ((List.range 64).map (vcmpMasked a e s)).any Prod.snd = (List.range 64).any fun j => (vcmpMasked a e s j).2 := List.any_map
  rw [← foldl_zip_range, ← hnv]
  rfl
theorem opVicmp_run (t : State) : (opVicmp a.folio.val a.ctx.val e s).run t =
    (t.setVm a.folio.val (vCMK e) (maskOf (vicmpBit a e s))).relEng a.folio.val a.ctx.val e := rfl
end

/-- Settles O18: both write the mask register that CMK names, which is not vm0, bit by bit. -/
theorem vectorCompares : Obligations.VectorCompares := by
  unfold Obligations.VectorCompares
  intro a e s n others
  have hk : vCMK e < 4 := op_lt e 24 23
  refine ⟨fun h => ?_, fun h => ?_⟩
  · have h0 : vCMK e ≠ 0 := vCMK_ne_zero h.2.1 (by simp [opVcmp, engSlot])
    obtain ⟨hbits, hothers⟩ := maskSet_setVm (a := a) (p := fun j => (vcmpMasked a e s j).1) (vm_advance s n a.ctx.val) h0 hk
    refine engine_completes _ h (opVcmp_run a e s _) ⟨fun j => ?_, fun m q hne => ?_, ?_, by rw [holdEng_only, setVm_only]⟩
    · rw [vm_holdEng, ← vcmpMasked_fst]
      exact hbits j
    · rw [vm_holdEng]
      exact hothers m q hne
    · simp only [← vcmpMasked_snd]
      refine holdsFlags_holdEng fieldVEC _ ?_ ?_
      · rw [setVm_only]
        exact advance_heldFlags s _ _
      · rw [setVm_only]
        exact engTag_advance s _ _ e
  · have h0 : vCMK e ≠ 0 := vCMK_ne_zero h.2.1 (by simp [opVicmp, engSlot])
    obtain ⟨hbits, hothers⟩ := maskSet_setVm (a := a) (p := vicmpBit a e s) (vm_advance s n a.ctx.val) h0 hk
    exact engine_completes _ h (opVicmp_run a e s _) ⟨hbits, hothers, setVm_only _ _ _ _⟩

end Sys2Proof.Machine
end

-- ==== Vector conversions: O19 ====
section
/-! SUPPORT. VCVT, VPACK and VUNPACK (R242, R246, R269). In order: elements of a lane packed one above another; VPACK; the statement. -/

namespace Sys2Proof.Machine

open Sys2Proof.Claims

/-! ## Elements of a lane (R237) -/

/-- Elements of w bits, one above another. -/
theorem foldl_elements {w : Nat} {y : Nat → Nat} (hy : ∀ i, y i < 2 ^ w) (K : Nat) :
    (List.range K).foldl (fun a i => a + y i * 2 ^ (w * i)) 0 < 2 ^ (w * K) ∧
    ∀ i < K, (List.range K).foldl (fun a i => a + y i * 2 ^ (w * i)) 0 / 2 ^ (w * i) % 2 ^ w = y i := by
  induction K with
  | zero => simp
  | succ K ih =>
    obtain ⟨hlt, helems⟩ := ih
    rw [List.range_succ, List.foldl_append, List.foldl_cons, List.foldl_nil]
    generalize (List.range K).foldl (fun a i => a + y i * 2 ^ (w * i)) 0 = x at hlt helems
    have hpow : 2 ^ (w * (K + 1)) = 2 ^ w * 2 ^ (w * K) := by rw [Nat.mul_succ, Nat.pow_add, Nat.mul_comm]
    refine ⟨?_, fun i hi => ?_⟩
    · have htop : (y K + 1) * 2 ^ (w * K) ≤ 2 ^ w * 2 ^ (w * K) := Nat.mul_le_mul_right _ (hy K)
      rw [Nat.succ_mul] at htop
      omega
    · obtain hi | rfl := Nat.lt_succ_iff_lt_or_eq.mp hi
      · obtain ⟨d, rfl⟩ := Nat.exists_eq_add_of_lt hi
        have habove : y (i + d + 1) * 2 ^ (w * (i + d + 1)) = y (i + d + 1) * 2 ^ (w * d) * 2 ^ w * 2 ^ (w * i) := by ring
        rw [habove, Nat.add_mul_div_right _ _ (Nat.two_pow_pos _), Nat.add_mul_mod_self_right, helems i hi]
      · rw [Nat.add_mul_div_right _ _ (Nat.two_pow_pos _), Nat.div_eq_of_lt hlt, Nat.zero_add, Nat.mod_eq_of_lt (hy i)]
/-- The widths of the elements of a P16 and of a P8 register. -/
def packWidth (w : Nat) : Prop := w = 16 ∨ w = 8
/-- The element at place k of a register packed lane by lane. -/
theorem packed_packLane {w : Nat} (hw : packWidth w) {l x : Nat → Nat} {k : Nat} (hk : k < 128)
    (hl : ∀ j < 64, l j = packLane w x j % 2 ^ 32) : packed w l k = x k % 2 ^ w := by
  have hfit : w * (32 / w) = 32 ∧ 0 < 32 / w ∧ k / (32 / w) < 64 := by obtain rfl | rfl := hw <;> omega
  obtain ⟨hbits, hpos, hlane⟩ := hfit
  have hplace : 32 / w * (k / (32 / w)) + k % (32 / w) = k := Nat.div_add_mod _ _
  have hlow (i : Nat) : (if 32 / w * (k / (32 / w)) + i < 128 then x (32 / w * (k / (32 / w)) + i) % 2 ^ w else 0) < 2 ^ w := by
    split
    · exact Nat.mod_lt _ (Nat.two_pow_pos w)
    · exact Nat.two_pow_pos w
  obtain ⟨hlt, helem⟩ := foldl_elements hlow (32 / w)
  have hsum : packLane w x (k / (32 / w)) = (List.range (32 / w)).foldl (fun a i => a +
      (if 32 / w * (k / (32 / w)) + i < 128 then x (32 / w * (k / (32 / w)) + i) % 2 ^ w else 0) * 2 ^ (w * i)) 0 := by
    refine congrArg (fun f => List.foldl f 0 (List.range (32 / w))) (funext fun a => funext fun i => ?_)
    split
    · rfl
    · rw [Nat.zero_mul, Nat.add_zero]
  rw [hbits] at hlt
  rw [packed, hl _ hlane, hsum, Nat.mod_eq_of_lt hlt, helem _ (Nat.mod_lt _ hpos), hplace, if_pos hk]

/-- A register written with packed elements. -/
def State.writePacked (t : State) (n v w : Nat) (x : Nat → Nat) : State := t.setLanes n v (fun j => some (packLane w x j))
theorem lane_writePacked (t : State) (n v w : Nat) (x : Nat → Nat) {j : Nat} (hj : j < 64) :
    (t.writePacked n v w x).lane n v j = packLane w x j % 2 ^ 32 := State.lane_setLanes t n v j _ hj
theorem writePacked_only (t : State) (n v w : Nat) (x : Nat → Nat) :
    t.writePacked n v w x = { t with vreg := (t.writePacked n v w x).vreg } := rfl

/-! ## VPACK (R246) -/

/-- Source element k of a VPACK, and its conversion (R269). -/
def packSource (a : Issue) (e : Eng) (s : State) (k : Nat) : Nat := if k < 64 then va a e s k else vb a e s (k - 64)
def packElem (a : Issue) (e : Eng) (s : State) (k : Nat) : Nat × Fl := cvtElem (cvSrc e s) (some (vfmt e s)) (cvAt a e s k) (packSource a e s k)
/-- Element k of the register after it, with its flags: one whose lane is masked off keeps its bits. -/
def packKept (a : Issue) (e : Eng) (s : State) (k : Nat) : Nat × Fl :=
  if bit (vmask a e s) (k % 64) then packElem a e s k else (packed (vfmt e s).bits (s.lane a.folio.val (vVD e)) k, {})
def packElems (a : Issue) (e : Eng) (s : State) (i : Nat) : Nat := ((((List.range 128).map (packKept a e s))[i]?).map Prod.fst).getD 0

theorem packElems_eq (a : Issue) (e : Eng) (s : State) {k : Nat} (hk : k < 128) : packElems a e s k = (packKept a e s k).1 := by
  rw [packElems, getElem?_map_range _ hk]
  rfl
theorem packSource_eq (a : Issue) (e : Eng) (s : State) {k : Nat} (hk : k < 128) :
    s.lane a.folio.val (if k < 64 then vVA e else vVB e) (k % 64) = packSource a e s k := by
  unfold packSource
  split
  next hlow =>
    rw [Nat.mod_eq_of_lt hlow]
    rfl
  next hhigh =>
    have hmod : k % 64 = k - 64 := by omega
    rw [hmod]
    rfl
theorem packKept_fst (a : Issue) (e : Eng) (s : State) (k : Nat) : (packKept a e s k).1 % 2 ^ (vfmt e s).bits =
    if bit (vmask a e s) (k % 64) then (packElem a e s k).1 % 2 ^ (vfmt e s).bits
    else packed (vfmt e s).bits (s.lane a.folio.val (vVD e)) k := by
  unfold packKept
  split
  · rfl
  · exact Nat.mod_mod _ _
theorem packKept_snd (a : Issue) (e : Eng) (s : State) (k : Nat) :
    (packKept a e s k).2 = if bit (vmask a e s) (k % 64) then (packElem a e s k).2 else {} := apply_ite Prod.snd _ _ _
theorem opVpack_run (a : Issue) (e : Eng) (s t : State) : (opVpack a.folio.val a.ctx.val e s).run t =
    ((t.writePacked a.folio.val (vVD e) (vfmt e s).bits (packElems a e s)).holdEng a.folio.val a.ctx.val e fieldVEC
      (Fl.join (((List.range 128).map (packKept a e s)).map Prod.snd))).relEng a.folio.val a.ctx.val e := by
  have hkept : (List.range 128).map (packKept a e s) = (List.range 128).map (fun i => if bit (vmask a e s) (i % 64) then
      cvtElem (cvSrc e s) (some (vfmt e s)) (cvAt a e s i) (s.lane a.folio.val (if i < 64 then vVA e else vVB e) (i % 64))
      else (packed (vfmt e s).bits (s.lane a.folio.val (vVD e)) i, {})) :=
    List.map_congr_left fun i hi => by
      rw [packSource_eq a e s (List.mem_range.mp hi)]
      rfl
  unfold packElems
  rw [hkept]
  rfl
theorem packWidth_of_clear {n c : Nat} {e : Eng} {s : State} (h : (opVpack n c e s).clear) : packWidth (vfmt e s).bits := by
  have hok := (lowestTrap_none _).mp h.1 (!(if e.fmt = 4 then vSINT e || vSFMT e == 0
    else (e.fmt == 1 || e.fmt == 2) && !vSINT e && (vSFMT e == 0 || vSFMT e == e.fmt)) || (vSINT e && vSFMT e != 0), VEC_FMT)
    (by simp [opVpack, engSlot])
  have hfmt : e.fmt = 1 ∨ e.fmt = 2 ∨ e.fmt = 4 := by
    by_cases h4 : e.fmt = 4
    · exact .inr (.inr h4)
    · simp only [h4, if_false, Bool.or_eq_false_iff, Bool.not_eq_false', Bool.and_eq_true, Bool.or_eq_true, beq_iff_eq] at hok
      tauto
  unfold packWidth vfmt
  obtain h | h | h := hfmt <;> rw [h]
  · exact .inl rfl
  · exact .inl rfl
  · exact .inr rfl
theorem vpack_completes {a : Issue} {e : Eng} {s : State} (h : EngineIssues opVpack a e s) : Completes (exec (.vpack a e) s) a e s (fun t =>
    (∀ k : Fin 128, packed (vfmt e s).bits (t.lane a.folio.val (vVD e)) k.val = (packKept a e s k.val).1 % 2 ^ (vfmt e s).bits) ∧
    (∀ (m : Fin 50) (v : Fin 32) (j : Fin 64), ¬(m.val = a.folio.val ∧ v.val = vVD e) →
      t.lane m.val v.val j.val = s.lane m.val v.val j.val) ∧
    HoldsFlags a e s fieldVEC ((List.range 128).map (fun k => (packKept a e s k).2)) t ∧
    t = { s.advance a.folio.val a.ctx.val with vreg := t.vreg, heldFlags := t.heldFlags }) := by
  have hVD : vVD e < 32 := op_lt e 60 56
  have hlane (u : State) (f : Fl) (m v j : Nat) : (u.holdEng a.folio.val a.ctx.val e fieldVEC f).lane m v j = u.lane m v j := by
    rw [holdEng_only]
    rfl
  refine engine_completes _ h (opVpack_run a e s _) ⟨fun k => ?_, fun m v j hne => ?_, ?_, by rw [holdEng_only, writePacked_only]⟩
  · rw [← packElems_eq a e s k.isLt]
    refine packed_packLane (packWidth_of_clear h.2.1) k.isLt fun j hj => ?_
    rw [hlane, lane_writePacked _ _ _ _ _ hj]
  · rw [hlane, State.writePacked, State.lane_setLanes_ne _ _ j.isLt (by omega), State.lane, advance_vreg, State.lane]
  · rw [List.map_map]
    exact holdsFlags_join fieldVEC _ (advance_heldFlags s _ _) (engTag_advance s _ _ e)

/-- Settles O19: VCVT and VUNPACK give a result for each lane, VPACK one for each place of the packed register. -/
theorem vectorConversions : Obligations.VectorConversions := by
  unfold Obligations.VectorConversions
  intro a e s n frame
  refine ⟨fun h => results_complete h fun _ => rfl, fun h => ?_, fun h => results_complete h fun _ => rfl⟩
  have hpack := vpack_completes h
  simp only [packKept_fst, packKept_snd] at hpack
  exact hpack

end Sys2Proof.Machine
end

-- ==== Vector loads and stores: O20 ====
section
/-! SUPPORT. VLD and VST (R247, R248). In order: values stored at places that lie apart; the places of the lanes; the two instructions. -/

namespace Sys2Proof.Machine

open Sys2Proof.Claims

/-! ## Values stored at places that lie apart -/

/-- A value of w bytes stored for each lane, one after another. -/
def Memory.storeLanes (m : Memory) (key val : Nat → Nat) (w : Nat) (js : List Nat) : Memory := js.foldl (fun m j => m.store (key j) w (val j)) m

section
variable {m : Memory} {key val : Nat → Nat} {w : Nat} {js : List Nat}

/-- A byte that no lane is stored to is as it was. -/
theorem Memory.byte_storeLanes_out {k : Nat} (h : ∀ j ∈ js, k < key j ∨ key j + w ≤ k) : (m.storeLanes key val w js).byte k = m.byte k :=
  List.foldlRecOn (motive := fun u : Memory => u.byte k = m.byte k) js _ rfl fun u hu j hj =>
    (Memory.byte_store_out u (key j) w (val j) (h j hj)).trans hu
/-- Of lanes that lie apart, each is found where it was stored. -/
theorem Memory.load_storeLanes (hjs : js.Nodup) (hapart : ∀ i ∈ js, ∀ j ∈ js, i ≠ j → key i + w ≤ key j ∨ key j + w ≤ key i) {j : Nat}
    (hj : j ∈ js) : (m.storeLanes key val w js).load (key j) w = val j % 256 ^ w := by
  induction js generalizing m with
  | nil => exact absurd hj List.not_mem_nil
  | cons i js ih =>
    obtain ⟨hi, hjs⟩ := List.nodup_cons.mp hjs
    have hrest : ∀ i ∈ js, ∀ j ∈ js, i ≠ j → key i + w ≤ key j ∨ key j + w ≤ key i := fun i hi j hj =>
      hapart i (List.mem_cons_of_mem _ hi) j (List.mem_cons_of_mem _ hj)
    show ((m.store (key i) w (val i)).storeLanes key val w js).load (key j) w = _
    obtain rfl | hj := List.mem_cons.mp hj
    · refine Eq.trans (congrArg ofBytes (Memory.bytes_congr fun x hlo hhi => ?_)) (Memory.load_store m (key j) w (val j))
      refine Memory.byte_storeLanes_out fun q hq => ?_
      have hne : j ≠ q := fun h => hi (h ▸ hq)
      have := hapart j List.mem_cons_self q (List.mem_cons_of_mem _ hq) hne
      omega
    · exact ih hjs hrest hj
end

/-- The values of lanes stored to folio memory where no word has bad parity. -/
theorem fmStore_foldl {m : State} {n c : Nat} (hbad : m.bad = []) (r val : Nat → Nat) (w : Nat) (js : List Nat) :
    js.foldl (fun t j => t.fmStore n c (r j) w (val j)) m = { m with fm := m.fm.storeLanes (fun j => m.fmKey n c (r j)) val w js } := by
  induction js generalizing m with
  | nil => rfl
  | cons j js ih =>
    rw [List.foldl_cons, fmStore_of_bad_nil hbad]
    exact ih hbad

/-! ## The places of the lanes (R237, R247) -/

/-- The minimum of a list is at most each of its values. -/
theorem foldl_min_le (g : Nat → Int) (js : List Nat) (b : Int) : js.foldl (fun x j => min x (g j)) b ≤ b ∧
    ∀ j ∈ js, js.foldl (fun x j => min x (g j)) b ≤ g j := by
  induction js generalizing b with
  | nil => simp
  | cons i js ih =>
    obtain ⟨hb, hjs⟩ := ih (min b (g i))
    rw [List.foldl_cons]
    refine ⟨hb.trans (min_le_left _ _), fun j hj => ?_⟩
    obtain rfl | hj := List.mem_cons.mp hj
    · exact hb.trans (min_le_right _ _)
    · exact hjs j hj

/-- The fields of VLD and VST: the form, the base address, the stride in elements, the mask. -/
def vlForm (e : Eng) : Nat := e.op 46 44
def vlBase (n c : Nat) (e : Eng) (s : State) : Nat := addrOf (s.ar n c (e.op 55 52))
def vlStride (n c : Nat) (e : Eng) (s : State) : Int := sx 32 (s.sr n c (e.op 51 47))
def vlMask (n : Nat) (e : Eng) (s : State) : Nat := s.vm n (e.op 43 42)
/-- The address of lane j in its context, and its key in the folio memories. -/
def vlPlace (n c : Nat) (e : Eng) (s : State) (j : Nat) : Int := vlAddr (vlForm e) (vlBase n c e s) (vlStride n c e s) j
def vlKey (n c : Nat) (e : Eng) (s : State) (j : Nat) : Nat := s.fmKey n c (vlPlace n c e s j).toNat

section
variable {n c : Nat} {e : Eng} {s : State}

theorem nodup_formLanes (f m : Nat) : (formLanes f m).Nodup := List.nodup_range.filter _
theorem formLane_le (f : Nat) : formLane f ≤ 4 := by
  unfold formLane
  split <;> decide
/-- The lowest address of a lane that an instruction accesses. -/
def vlLow (n c : Nat) (e : Eng) (s : State) : Int :=
  let js := formLanes (vlForm e) (vlMask n e s)
  js.foldl (fun x j => min x (vlPlace n c e s j)) (vlPlace n c e s (js.headD 0))
/-- An access of some lane traps where its lowest address lies below the context's memory (R335). -/
theorem vlTraps_bound (h : (formLanes (vlForm e) (vlMask n e s)).isEmpty = false) :
    ∃ hi, (s.fmOut n c (vlLow n c e s) hi, FM_BOUND) ∈ vlTraps n c e s := by
  unfold vlTraps
  extract_lets f a st js lo hi
  have hjs : js.isEmpty = false := h
  rw [hjs]
  exact ⟨hi, List.mem_append_right _ List.mem_cons_self⟩
/-- No lane that an instruction accesses lies below the context's memory. -/
theorem vlPlace_nonneg (h : lowestTrap (vlTraps n c e s) = none) {j : Nat} (hj : j ∈ formLanes (vlForm e) (vlMask n e s)) :
    0 ≤ vlPlace n c e s j := by
  obtain ⟨-, hlow⟩ := foldl_min_le (vlPlace n c e s) (formLanes (vlForm e) (vlMask n e s))
    (vlPlace n c e s ((formLanes (vlForm e) (vlMask n e s)).headD 0))
  obtain ⟨hi, htrap⟩ := vlTraps_bound (n := n) (c := c) (List.isEmpty_eq_false_iff_exists_mem.mpr ⟨j, hj⟩)
  have hbound := (lowestTrap_none _).mp h _ htrap
  simp only [State.fmOut, Bool.or_eq_false_iff, decide_eq_false_iff_not, not_lt] at hbound
  exact hbound.1.trans (hlow j hj)
/-- With a stride of at least one element no two lanes share a byte. -/
theorem vlKey_apart (hstride : vlStride n c e s ≠ 0) {i j : Nat} (hi : 0 ≤ vlPlace n c e s i) (hj : 0 ≤ vlPlace n c e s j) (hne : i ≠ j) :
    vlKey n c e s i + formLane (vlForm e) ≤ vlKey n c e s j ∨ vlKey n c e s j + formLane (vlForm e) ≤ vlKey n c e s i := by
  have hdist : vlPlace n c e s i - vlPlace n c e s j = ((i : Int) - j) * vlStride n c e s * formLane (vlForm e) := by
    simp only [vlPlace, vlAddr]
    ring
  have hgap : (i - j : Int) * vlStride n c e s ≠ 0 := mul_ne_zero (by omega) hstride
  have hfar : (formLane (vlForm e) : Int) ≤ vlPlace n c e s i - vlPlace n c e s j ∨
      vlPlace n c e s i - vlPlace n c e s j ≤ -(formLane (vlForm e) : Int) := by
    rw [hdist]
    obtain hneg | hpos := lt_or_gt_of_ne hgap
    · exact .inr (by nlinarith)
    · exact .inl (by nlinarith)
  simp only [vlKey, State.fmKey]
  unfold State.fmPhys
  omega
end

/-! ## VLD and VST -/

/-- What VLD reads for lane j: form P8 has no lanes from 32 on (R237). -/
def vldLane (n c : Nat) (e : Eng) (s : State) (j : Nat) : Nat :=
  if vlForm e = 4 ∧ 32 ≤ j then 0 else s.fm.load (vlKey n c e s j) (formLane (vlForm e))
theorem vldLane_lt (n c : Nat) (e : Eng) (s : State) (j : Nat) : vldLane n c e s j < 2 ^ 32 := by
  unfold vldLane
  split
  · exact Nat.two_pow_pos 32
  · refine (ofBytes_lt _).trans_le (Nat.pow_le_pow_right (by decide) ?_)
    rw [Memory.bytes_length]
    have := formLane_le (vlForm e)
    omega
theorem opVld_run (n c : Nat) (e : Eng) (s : State) : (opVld n c e s).run (s.advance n c) =
    ((s.advance n c).setLanes n (e.op 60 56) (fun j => if bit (vlMask n e s) j then some (vldLane n c e s j) else none)).relEng n c e := by
  have hload (j : Nat) : (s.advance n c).fmLoad n c (vlPlace n c e s j).toNat (formLane (vlForm e)) =
      s.fm.load (vlKey n c e s j) (formLane (vlForm e)) := by
    rw [State.fmLoad, advance_fm, fmKey_of_regs (advance_regs s n c), vlKey]
  have hlanes : (fun j => if !bit (vlMask n e s) j then none else if vlForm e = 4 ∧ 32 ≤ j then some 0
      else some ((s.advance n c).fmLoad n c (vlPlace n c e s j).toNat (formLane (vlForm e)))) =
      fun j => if bit (vlMask n e s) j then some (vldLane n c e s j) else none := by
    funext j
    rw [hload, vldLane, apply_ite some]
    cases bit (vlMask n e s) j <;> rfl
  rw [← hlanes]
  rfl
/-- The folio memories after VST. -/
def vstMemory (n c : Nat) (e : Eng) (s : State) : Memory :=
  s.fm.storeLanes (vlKey n c e s) (s.lane n (e.op 60 56)) (formLane (vlForm e)) (formLanes (vlForm e) (vlMask n e s))
theorem opVst_run {n c : Nat} {e : Eng} {s : State} (hbad : s.bad = []) :
    (opVst n c e s).run (s.advance n c) = State.relEng { s.advance n c with fm := vstMemory n c e s } n c e := by
  have hkey : (fun j => (s.advance n c).fmKey n c (vlPlace n c e s j).toNat) = vlKey n c e s :=
    funext fun j => fmKey_of_regs (advance_regs s n c) n c _
  have hstores := fmStore_foldl (n := n) (c := c) (bad_advance hbad n c) (fun j => (vlPlace n c e s j).toNat) (s.lane n (e.op 60 56))
    (formLane (vlForm e)) (formLanes (vlForm e) (vlMask n e s))
  rw [hkey, advance_fm] at hstores
  exact congrArg (State.relEng · n c e) hstores
/-- A VST that traps for nothing has a stride, and its access keeps within the context's memory. -/
theorem vst_checks {n c : Nat} {e : Eng} {s : State} (h : (opVst n c e s).clear) :
    vlStride n c e s ≠ 0 ∧ lowestTrap (vlTraps n c e s) = none := by
  obtain ⟨-, hchecks⟩ := (lowestTrap_append_none _ _).mp h.1
  obtain ⟨hstride, hshared⟩ := (lowestTrap_cons_none _ _ _).mp hchecks
  exact ⟨beq_eq_false_iff_ne.mp hstride, hshared⟩

/-- Settles O20: VLD writes the lanes of its mask; the lanes that VST stores lie apart, since its stride is not zero. -/
theorem vectorLoadsAndStores : Obligations.VectorLoadsAndStores := by
  unfold Obligations.VectorLoadsAndStores
  intro a e s n c f m at'
  refine ⟨fun h => ?_, fun h => ?_⟩
  · refine engine_completes _ h (opVld_run n c e s) ⟨?_, rfl⟩
    exact lanesSet_congr (lanesSet_setLanes (f := vldLane n c e s) (advance_vreg s n c) (op_lt e 60 56) fun _ _ => rfl)
      fun j _ => Nat.mod_eq_of_lt (vldLane_lt n c e s j)
  · obtain ⟨hstride, hbound⟩ := vst_checks h.2.1
    refine engine_completes _ h (opVst_run h.1.2.2.1) ⟨fun j hj => ?_, fun k hk => Memory.byte_storeLanes_out hk, rfl⟩
    exact Memory.load_storeLanes (key := vlKey n c e s) (nodup_formLanes f m)
      (fun i hi j hj => vlKey_apart hstride (vlPlace_nonneg hbound hi) (vlPlace_nonneg hbound hj)) hj

end Sys2Proof.Machine
end

-- ==== Zero-run codes: O26 ====
section
/-! SUPPORT. VZRD (R255, R257). In order: the groups of a zero-run code; the units of its groups; what the code is read from; the
instruction. -/

namespace Sys2Proof.Machine

open Sys2Proof.Claims

/-! ## The groups of a zero-run code (R255) -/

/-- The elements of a group, with es bytes to an element. -/
def groupCount (es : Nat) (g : Nat × List Byte) : Nat := g.1 + g.2.length / es
/-- The decoded groups of a code of which `done` elements have been decoded. -/
def codeGroups (es : Nat) : Nat → List (Nat × List Byte) → List ZGroup
  | _, [] => []
  | done, g :: gs => ⟨List.replicate (g.1 * es) 0 ++ g.2, done + groupCount es g⟩ :: codeGroups es (done + groupCount es g) gs
/-- The elements of groups. -/
def codeCount (es : Nat) (gs : List (Nat × List Byte)) : Nat := (gs.map (groupCount es)).sum

section
variable {es : Nat}

theorem codeGroups_bytes (done : Nat) (gs : List (Nat × List Byte)) : (codeGroups es done gs).flatMap ZGroup.bytes = zeroRunBytes es gs := by
  induction gs generalizing done with
  | nil => rfl
  | cons g gs ih => simp [codeGroups, zeroRunBytes, ih (done + groupCount es g)]
/-- A group of whole elements has es bytes to each. -/
theorem groupOk_length {g : Nat × List Byte} (hg : groupOk es g) : g.2.length / es * es = g.2.length := by
  obtain ⟨-, hwhole, -⟩ := hg
  exact Nat.div_mul_cancel (Nat.dvd_of_mod_eq_zero hwhole)
theorem groupOk_count_pos {g : Nat × List Byte} (hg : groupOk es g) : 0 < groupCount es g := by
  have hlen := groupOk_length hg
  obtain ⟨-, -, -, hsome⟩ := hg
  refine Nat.pos_of_ne_zero fun h => ?_
  obtain ⟨hz, hk⟩ := Nat.add_eq_zero_iff.mp h
  rw [hk, Nat.zero_mul] at hlen
  exact hsome.elim (· hz) (· (List.length_eq_zero_iff.mp hlen.symm))
theorem zeroRunBytes_length {gs : List (Nat × List Byte)} (h : ∀ g ∈ gs, groupOk es g) :
    (zeroRunBytes es gs).length = codeCount es gs * es := by
  induction gs with
  | nil => simp [zeroRunBytes, codeCount]
  | cons g gs ih =>
    obtain ⟨hg, hgs⟩ := List.forall_mem_cons.mp h
    have hlen := groupOk_length hg
    have hrest := ih hgs
    unfold zeroRunBytes at hrest
    simp only [zeroRunBytes, codeCount, List.flatMap_cons, List.length_append, List.length_replicate, List.map_cons, List.sum_cons,
      groupCount, Nat.add_mul, hlen] at hrest ⊢
    rw [hrest]
/-- Each group takes at least two bytes of the code. -/
theorem length_le_zeroRunCode (gs : List (Nat × List Byte)) : gs.length ≤ (zeroRunCode es gs).length := by
  induction gs with
  | nil => exact le_refl _
  | cons g gs ih =>
    simp only [zeroRunCode, List.length_append, List.length_cons]
    omega
/-- The pad byte of a group (R255). -/
def groupPad (es : Nat) (g : Nat × List Byte) : List Byte := if es = 1 ∧ g.2.length % 2 = 1 then [0] else []
theorem groupPad_length (g : Nat × List Byte) : (groupPad es g).length = if es = 1 then g.2.length / es % 2 else 0 := by
  unfold groupPad
  by_cases hes : es = 1
  · subst hes
    obtain h | h := Nat.mod_two_eq_zero_or_one g.2.length <;> simp [h]
  · simp [hes]

/-- One group decoded: the next one of a code that has room for it. -/
theorem zrdGroups_cons {E fuel done : Nat} {g : Nat × List Byte} {rest : List Byte} (hg : groupOk es g)
    (hroom : done + groupCount es g ≤ E) :
    zrdGroups es E (fuel + 1) done ([BitVec.ofNat 8 (g.2.length / es), BitVec.ofNat 8 g.1] ++ g.2 ++ groupPad es g ++ rest) =
      (⟨List.replicate (g.1 * es) 0 ++ g.2, done + groupCount es g⟩ :: (zrdGroups es E fuel (done + groupCount es g) rest).1,
        (zrdGroups es E fuel (done + groupCount es g) rest).2) := by
  have hpos := groupOk_count_pos hg
  have hlen := groupOk_length hg
  obtain ⟨hz, -, hk, -⟩ := hg
  have hzero : (BitVec.ofNat 8 g.1).toNat = g.1 := by rw [BitVec.toNat_ofNat, Nat.mod_eq_of_lt hz]
  have hlit : (BitVec.ofNat 8 (g.2.length / es)).toNat = g.2.length / es := by rw [BitVec.toNat_ofNat, Nat.mod_eq_of_lt hk]
  have hopen : done ≠ E := by omega
  have hcount : done + g.1 + g.2.length / es = done + groupCount es g := Nat.add_assoc _ _ _
  have hall : ¬((g.1 = 0 ∧ g.2.length / es = 0) ∨ E < done + groupCount es g ∨
      (g.2 ++ (groupPad es g ++ rest)).length < g.2.length + (groupPad es g).length) := by
    simp only [List.length_append]
    unfold groupCount at hpos hroom ⊢
    omega
  have hdrop : (g.2 ++ (groupPad es g ++ rest)).drop (g.2.length + (groupPad es g).length) = rest := by
    rw [List.drop_length_add_append, List.drop_left]
  simp only [List.append_assoc, List.cons_append, List.nil_append, zrdGroups, if_neg hopen, hzero, hlit, hlen, hcount, ← groupPad_length,
    if_neg hall, hdrop, List.take_left]
/-- A code of groups that make the elements, and zero bytes after it, decodes to the groups. -/
theorem zrdGroups_code {E fuel done : Nat} {gs : List (Nat × List Byte)} (p : Nat) (hgs : ∀ g ∈ gs, groupOk es g)
    (hE : done + codeCount es gs = E) (hfuel : gs.length < fuel) :
    zrdGroups es E fuel done (zeroRunCode es gs ++ List.replicate p 0) = (codeGroups es done gs, true) := by
  induction gs generalizing fuel done with
  | nil =>
    obtain ⟨fuel, rfl⟩ := Nat.exists_eq_add_of_lt hfuel
    have hdone : done = E := hE
    simp [zrdGroups, hdone, zeroRunCode, codeGroups]
  | cons g gs ih =>
    obtain ⟨fuel, rfl⟩ : ∃ k, fuel = k + 1 := ⟨fuel - 1, by omega⟩
    obtain ⟨hg, hrest⟩ := List.forall_mem_cons.mp hgs
    have hcount : done + groupCount es g + codeCount es gs = E := by
      rw [← hE, codeCount, codeCount, List.map_cons, List.sum_cons, Nat.add_assoc]
    have hcode : zeroRunCode es (g :: gs) ++ List.replicate p 0 = [BitVec.ofNat 8 (g.2.length / es), BitVec.ofNat 8 g.1] ++ g.2 ++
        groupPad es g ++ (zeroRunCode es gs ++ List.replicate p 0) := by rw [zeroRunCode, groupPad, List.append_assoc]
    rw [hcode, zrdGroups_cons hg (by omega), ih hrest hcount (by simpa using hfuel)]
    rfl
end

/-! ## The units of its groups (R257) -/

/-- The units hold the groups in their order. -/
theorem zrdUnits_flatten (done : Nat) (gs : List ZGroup) : (zrdUnits done gs).flatten = gs := by
  induction gs generalizing done with
  | nil => rfl
  | cons g gs ih =>
    have hrest := ih g.count
    rw [zrdUnits]
    split
    next hnil =>
      rw [hnil] at hrest
      simp [← hrest]
    next u us hunits =>
      rw [hunits] at hrest
      split
      · split
        next hempty => simp [List.isEmpty_iff.mp hempty]
        next => simp [← hrest]
      · simp [← hrest]

/-! ## What the code is read from (R255) -/

/-- Writes to folio memory leave the code as it is, and so does the position of a context in an instruction. -/
theorem zrdCode_fm (t : State) (m : Memory) (n c a len : Nat) : State.zrdCode { t with fm := m } n c a len = t.zrdCode n c a len := rfl
theorem zrdCode_setCtx {t : State} {n c : Nat} {y : Ctx} (hy : y.entry = (t.ctx n c).entry) (a len : Nat) :
    (t.setCtx n c y).zrdCode n c a len = t.zrdCode n c a len := by
  have hburst : (t.setCtx n c y).ctxBurst n c = t.ctxBurst n c := by
    simp only [State.ctxBurst, State.ctx_setCtx_same, hy]
    rfl
  unfold State.zrdCode
  rw [hburst]
  rfl
theorem zrdCode_length (t : State) (n c a len : Nat) : (t.zrdCode n c a len).length = len := by
  unfold State.zrdCode
  dsimp only
  split
  · rw [List.length_map, List.length_range]
  · exact Memory.bytes_length _ _ _

/-! ## VZRD (R255, R257) -/

/-- What VZRD decodes in a state. -/
def zrdDecoded (n c : Nat) (e : Eng) (s t : State) : List ZGroup × Bool :=
  if s.sr n c (e.op 47 43) % 2 = 1 then ([], false)
  else zrdGroups (zrdSize e.fmt) (s.sr n c (e.op 52 48)) (s.sr n c (e.op 47 43) + 1) 0
    (t.zrdCode n c (s.ar n c (e.op 60 57)) (s.sr n c (e.op 47 43)))

section
variable (n c : Nat) (e : Eng) (s t : State)

theorem opVzrd_total : (opVzrd n c e s).total t = (zrdUnits 0 (zrdDecoded n c e s t).1).length := rfl
/-- All units at once write all groups from the destination on. -/
theorem opVzrd_part_all : (opVzrd n c e s).part 0 ((opVzrd n c e s).total t) t =
    ((opVzrd n c e s).total t, t.fmWrite n c (addrOf (s.ar n c (e.op 56 53))) ((zrdDecoded n c e s t).1.flatMap ZGroup.bytes)) := by
  have hall : (((zrdUnits 0 (zrdDecoded n c e s t).1).drop 0).take ((opVzrd n c e s).total t - 0)).flatten = (zrdDecoded n c e s t).1 := by
    rw [List.drop_zero, Nat.sub_zero, opVzrd_total, List.take_length, zrdUnits_flatten]
  rw [← hall]
  show _ = ((opVzrd n c e s).total t, t.fmWrite n c (addrOf (s.ar n c (e.op 56 53)) + 0) _)
  simp [opVzrd, zrdDecoded]
theorem opVzrd_finish : (opVzrd n c e s).finish t =
    if (zrdDecoded n c e s t).2 then t.relEng n c e else (t.relEng n c e).zrdBad n c := rfl
end

/-- An instruction whose units have all run in one command ends as its `finish` says. -/
theorem longRun_finish {n c : Nat} {o : Long} {r : Resume} {t u v : State} (hpart : o.part r.pos (o.total t) t = (o.total t, u))
    (hdue : (u.ctx n c).due = none) (hfin : o.finish (u.setCtx n c { u.ctx n c with inside := none }) = v)
    (hhalt : (v.ctx n c).halting = false) : longRun n c 0 o r t = v := by
  have hend : ¬((u.ctx n c).due.isSome || decide (o.total t < o.total t)) = true := by simp [hdue]
  simp only [longRun, if_true, hpart, Long.after, if_neg hend, hfin]
  exact haltDue_of_not_halting hhalt
/-- The issued bundle with bytes written at the destination of VZRD. -/
def zrdWritten (n c : Nat) (e : Eng) (s i : State) (bs : List Byte) : State :=
  { i with fm := i.fm.write (i.fmKey n c (addrOf (s.ar n c (e.op 56 53)))) bs }
theorem zrdDecoded_setCtx (n c : Nat) (e : Eng) (s i : State) (bs : List Byte) {y : Ctx}
    (hy : y.entry = ((zrdWritten n c e s i bs).ctx n c).entry) :
    zrdDecoded n c e s ((zrdWritten n c e s i bs).setCtx n c y) = zrdDecoded n c e s i := by
  rw [zrdDecoded, zrdCode_setCtx hy, zrdWritten, zrdCode_fm, zrdDecoded]
/-- After the groups of a well-formed code VZRD makes its release, wherever its context stands in it. -/
theorem opVzrd_finish_written {n c : Nat} {e : Eng} {s i : State} {groups : List ZGroup} (hdec : zrdDecoded n c e s i = (groups, true))
    (bs : List Byte) {y : Ctx} (hy : y.entry = ((zrdWritten n c e s i bs).ctx n c).entry) :
    (opVzrd n c e s).finish ((zrdWritten n c e s i bs).setCtx n c y) = ((zrdWritten n c e s i bs).setCtx n c y).relEng n c e := by
  rw [opVzrd_finish, zrdDecoded_setCtx n c e s i bs hy, hdec]
  rfl
/-- A VZRD of a well-formed code writes its groups and ends with its release. -/
theorem vzrd_completes {a : Issue} {e : Eng} {s : State} {groups : List ZGroup} {post : State → Prop} (h : LongIssues opVzrd a e s)
    (hdec : zrdDecoded a.folio.val a.ctx.val e s (issued a e s) = (groups, true))
    (hpost : ∀ x, post ((zrdWritten a.folio.val a.ctx.val e s (issued a e s) (groups.flatMap ZGroup.bytes)).withCtxs x)) :
    CompletesLong (exec (.vzrd a e) s) a e s post := by
  have hs := longStarts h
  have hbad : (issued a e s).bad = [] := bad_issued h.2.2.1 h.1.2.2.1
  have hpart := opVzrd_part_all a.folio.val a.ctx.val e s (issued a e s)
  rw [hdec, fmWrite_of_bad_nil hbad, ← zrdWritten] at hpart
  have hctx (m k : Nat) : (zrdWritten a.folio.val a.ctx.val e s (issued a e s) (groups.flatMap ZGroup.bytes)).ctx m k =
      (issued a e s).ctx m k := rfl
  have hends := longRun_finish (r := s.longRec a.folio.val a.ctx.val (opVzrd a.folio.val a.ctx.val e s).kind
    (BitVec.ofNat 128 (bundleOf 0x6B e)).toNat) hpart (by rw [hctx, hs.due])
    (opVzrd_finish_written hdec _ rfl)
    (by rw [ctx_relEng, State.ctx_setCtx_same, hctx]; exact hs.halting)
  refine ⟨_, (long_runs _ h).trans (congrArg _ hends), hpost _, fun m k => ?_⟩
  have hself : { (issued a e s).ctx a.folio.val a.ctx.val with inside := none } = (issued a e s).ctx a.folio.val a.ctx.val := by
    rw [← hs.inside]
  rw [hctx, hself, ctx_setCtx_self (hctx _ _).symm, hctx]

/-- Settles O26: the code decodes to its groups, whose units write them one after another. -/
theorem zeroRunCodesDecode : Obligations.ZeroRunCodesDecode := by
  unfold Obligations.ZeroRunCodesDecode
  intro a e s gs p n c es E B i d h hcode hB hgs hE
  have hes : 0 < es := by
    dsimp only [es]
    split <;> decide
  have hcount : 0 + codeCount es gs = E := by
    rw [zeroRunBytes_length hgs] at hE
    rw [Nat.zero_add]
    exact Nat.eq_of_mul_eq_mul_right hes hE
  have hfuel : gs.length < B + 1 := by
    have hlen := congrArg List.length hcode
    rw [zrdCode_length, List.length_append] at hlen
    have := length_le_zeroRunCode (es := es) gs
    omega
  have hdec : zrdDecoded n c e s i = (codeGroups es 0 gs, true) := by
    rw [zrdDecoded, if_neg (by omega), hcode]
    exact zrdGroups_code p hgs hcount hfuel
  refine vzrd_completes h hdec fun x => ?_
  rw [codeGroups_bytes, ← hE]
  exact ⟨Memory.bytes_write _ _ _, rfl, fun k hk => Memory.byte_write_out _ _ _ hk⟩

end Sys2Proof.Machine
end

-- ==== Random draws: O22, O23 ====
section
/-! SUPPORT. The culture generator (R262 to R264, R266, R270, R271). In order: jump as repeated steps; generator contexts; what RGEN
writes; the instructions. -/

namespace Sys2Proof.Machine

open Sys2Proof.Claims

/-! ## jump (R264) -/

/-- The map of a state that a multiplier and an increment give (R262). -/
def affine (am cm x : BitVec 64) : BitVec 64 := am * x + cm
/-- Two applications of an affine map: what am and cm become after a round. -/
theorem affine_square (am cm : BitVec 64) : affine (am * am) ((am + 1) * cm) = (affine am cm)^[2] := by
  funext x
  simp only [affine, Function.iterate_succ, Function.iterate_zero, Function.comp_apply, id]
  ring
/-- The rounds of jump: (am, cm) is the map still to be applied n times after what (ar, cr) has applied. -/
theorem affine_rngRounds {fuel n : Nat} (hn : n < 2 ^ fuel) (am cm ar cr st : BitVec 64) :
    affine (rngRounds fuel n am cm ar cr).1 (rngRounds fuel n am cm ar cr).2 st = (affine am cm)^[n] (affine ar cr st) := by
  induction fuel generalizing n am cm ar cr with
  | zero =>
    obtain rfl : n = 0 := by simpa using hn
    rfl
  | succ fuel ih =>
    unfold rngRounds
    split
    next h0 =>
      subst h0
      rfl
    next =>
      have hhalf : n / 2 < 2 ^ fuel := by omega
      have hround : affine (if n % 2 = 1 then ar * am else ar) (if n % 2 = 1 then cr * am + cm else cr) st =
          (affine am cm)^[n % 2] (affine ar cr st) := by
        obtain h | h := Nat.mod_two_eq_zero_or_one n
        · simp [h]
        · simp only [h, if_true, Function.iterate_one, affine]
          ring
      calc affine (rngRounds fuel (n / 2) _ _ _ _).1 (rngRounds fuel (n / 2) _ _ _ _).2 st
          = ((affine am cm)^[2])^[n / 2] ((affine am cm)^[n % 2] (affine ar cr st)) := by
            rw [ih hhalf, affine_square, hround]
        _ = (affine am cm)^[n] (affine ar cr st) := by
            rw [← Function.iterate_mul, ← Function.iterate_add_apply, Nat.div_add_mod]

/-- Settles O22: the rounds of jump square the step and apply it for each bit of n. -/
theorem rngJumpIsRepeatedStep : Obligations.RngJumpIsRepeatedStep := by
  unfold Obligations.RngJumpIsRepeatedStep
  intro c st n hn
  have hfuel : n < 2 ^ 64 := hn.trans (by norm_num)
  have hstart : affine 1 0 st = st := by simp [affine]
  calc rngJump c st n
      = (affine rngA c)^[n] (affine 1 0 st) := affine_rngRounds hfuel rngA c 1 0 st
    _ = (affine rngA c)^[n] st := by rw [hstart]

/-! ## Generator contexts (R266) -/

theorem State.gen_setGen_ne (s : State) {n c m k : Nat} (g : GenCtx) (h : 4 * m + k ≠ 4 * n + c) :
    (s.setGen n c g).gen m k = s.gen m k := Sp.get_set_ne _ _ _ h
@[simp] theorem advance_gens (s : State) (n c : Nat) : (s.advance n c).gens = s.gens := by rw [advance_only]
theorem gen_of_gens {s u : State} (h : u.gens = s.gens) (m k : Nat) : u.gen m k = s.gen m k := by rw [State.gen, h, State.gen]
/-- Every generator context but that of the bundle's context is as it was. -/
def OtherGens (a : Issue) (s t : State) : Prop :=
  ∀ (p : Fin 50) (q : Fin 4), ¬(p.val = a.folio.val ∧ q.val = a.ctx.val) → t.gen p.val q.val = s.gen p.val q.val
theorem otherGens_of_gens {a : Issue} {s u : State} (h : u.gens = s.gens) : OtherGens a s u := fun p q _ => gen_of_gens h p.val q.val
theorem otherGens_setGen {a : Issue} {s u : State} (h : u.gens = s.gens) (g : GenCtx) :
    OtherGens a s (u.setGen a.folio.val a.ctx.val g) := fun p q hne => by
  rw [State.gen_setGen_ne u g (by omega), gen_of_gens h]

/-! ## What RGEN writes (R270, R271) -/

section
variable (n c : Nat) (e : Eng) (s : State)

/-- The draw of lane j: in run mode of its place in the context's run, in element mode of the base plus j. -/
def rgenDraw (j : Nat) : Nat :=
  (draw (s.gen n c).seed (s.gen n c).key (if e.opb 55 then (s.gen n c).base + j * 2 ^ 40 + (s.gen n c).t
    else s.srPair n c (e.op 48 44) % 2 ^ 48 + j)).toNat
theorem rgenDraw_lt (j : Nat) : rgenDraw n c e s j < 2 ^ 32 := BitVec.isLt _
/-- The draws of the 64 lanes. -/
def rgenDraws : List Nat := (List.range 64).map (rgenDraw n c e s)
theorem nth_rgenDraws {j : Nat} (hj : j < 64) : nth (rgenDraws n c e s) j = rgenDraw n c e s j := nth_map_range hj
/-- Bit j of the mask register after BERN, where it held `old`. -/
def bernBit (old j : Nat) : Bool :=
  if bit (s.vm n (e.op 52 51)) j then decide (nth (rgenDraws n c e s) j < s.sr n c (e.op 43 39)) else bit old j
/-- The registers after RGEN: the mask register of BERN, or the lanes of the mask. -/
def rgenWritten (t : State) : State :=
  if e.op 54 53 == 3 then t.setVm n (e.op 50 49) (maskOf (bernBit n c e s (t.vm n (e.op 50 49))))
  else t.setLanes n (e.op 60 56) (fun j =>
    if bit (s.vm n (e.op 52 51)) j then some (rngForm (e.op 54 53) (nth (rgenDraws n c e s) j)) else none)
/-- The run state after RGEN: in run mode t is one further. -/
def rgenStepped (u : State) : State := if e.opb 55 then u.setGen n c { u.gen n c with t := (s.gen n c).t + 1 } else u

theorem opRgen_run (t : State) : (opRgen n c e s).run t = (rgenStepped n c e s (rgenWritten n c e s t)).relEng n c e := rfl
theorem rgenWritten_bern (t : State) (h : e.op 54 53 = 3) : rgenWritten n c e s t =
    t.setVm n (e.op 50 49) (maskOf (bernBit n c e s (t.vm n (e.op 50 49)))) := if_pos (beq_iff_eq.mpr h)
theorem rgenWritten_lanes (t : State) (h : e.op 54 53 ≠ 3) : rgenWritten n c e s t = t.setLanes n (e.op 60 56) (fun j =>
    if bit (s.vm n (e.op 52 51)) j then some (rngForm (e.op 54 53) (nth (rgenDraws n c e s) j)) else none) := if_neg (mt beq_iff_eq.mp h)
theorem rgenWritten_only (t : State) : rgenWritten n c e s t =
    { t with vreg := (rgenWritten n c e s t).vreg, vmask := (rgenWritten n c e s t).vmask } := by
  by_cases h : e.op 54 53 = 3
  · rw [rgenWritten_bern n c e s t h, setVm_only]
  · rw [rgenWritten_lanes n c e s t h]
    rfl
theorem rgenStepped_only (u : State) : rgenStepped n c e s u = { u with gens := (rgenStepped n c e s u).gens } := by
  unfold rgenStepped
  split <;> rfl
theorem rgenStepped_vreg (u : State) : (rgenStepped n c e s u).vreg = u.vreg := by rw [rgenStepped_only]
theorem rgenStepped_vmask (u : State) : (rgenStepped n c e s u).vmask = u.vmask := by rw [rgenStepped_only]
theorem rgenStepped_vm (u : State) (m k : Nat) : (rgenStepped n c e s u).vm m k = u.vm m k := by
  rw [State.vm, rgenStepped_vmask, State.vm]
end

section
variable (a : Issue) (e : Eng) (s : State)

/-- The state that RGEN leads to from the issued bundle. -/
def rgenEnd : State :=
  rgenStepped a.folio.val a.ctx.val e s (rgenWritten a.folio.val a.ctx.val e s (s.advance a.folio.val a.ctx.val))

theorem rgenEnd_only : rgenEnd a e s = { s.advance a.folio.val a.ctx.val with
    gens := (rgenEnd a e s).gens, vreg := (rgenEnd a e s).vreg, vmask := (rgenEnd a e s).vmask } := by
  rw [rgenEnd, rgenStepped_only, rgenWritten_only]
theorem rgenWritten_gens : (rgenWritten a.folio.val a.ctx.val e s (s.advance a.folio.val a.ctx.val)).gens = s.gens := by
  rw [rgenWritten_only]
  exact advance_gens s _ _
theorem rgenEnd_gen : (rgenEnd a e s).gen a.folio.val a.ctx.val =
    if e.opb 55 then { s.gen a.folio.val a.ctx.val with t := (s.gen a.folio.val a.ctx.val).t + 1 } else s.gen a.folio.val a.ctx.val := by
  unfold rgenEnd rgenStepped
  split
  · rw [State.gen_setGen_same, gen_of_gens (rgenWritten_gens a e s)]
  · exact gen_of_gens (rgenWritten_gens a e s) _ _
theorem rgenEnd_otherGens : OtherGens a s (rgenEnd a e s) := by
  unfold rgenEnd rgenStepped
  split
  · exact otherGens_setGen (rgenWritten_gens a e s) _
  · exact otherGens_of_gens (rgenWritten_gens a e s)
theorem rgenEnd_lanesSet (h : e.op 54 53 ≠ 3) : LanesSet a s (e.op 60 56) (s.vm a.folio.val (e.op 52 51))
    (fun j => rngForm (e.op 54 53) (rgenDraw a.folio.val a.ctx.val e s j) % 2 ^ 32) (rgenEnd a e s) := by
  refine lanesSet_of_vreg (rgenStepped_vreg _ _ e s _) ?_
  rw [rgenWritten_lanes _ _ e s _ h]
  refine lanesSet_setLanes (f := fun j => rngForm (e.op 54 53) (rgenDraw a.folio.val a.ctx.val e s j)) (advance_vreg s _ _)
    (op_lt e 60 56) fun j hj => ?_
  rw [nth_rgenDraws _ _ e s hj]
theorem rgenEnd_vmask (h : e.op 54 53 ≠ 3) : (rgenEnd a e s).vmask = (s.advance a.folio.val a.ctx.val).vmask := by
  rw [rgenEnd, rgenStepped_vmask, rgenWritten_lanes _ _ e s _ h]
  rfl
theorem rgenEnd_bern (h : e.op 54 53 = 3) (h0 : e.op 50 49 ≠ 0) (j : Fin 64) :
    bit ((rgenEnd a e s).vm a.folio.val (e.op 50 49)) j.val =
      if bit (s.vm a.folio.val (e.op 52 51)) j.val
      then decide (rgenDraw a.folio.val a.ctx.val e s j.val < s.sr a.folio.val a.ctx.val (e.op 43 39))
      else bit (s.vm a.folio.val (e.op 50 49)) j.val := by
  rw [rgenEnd, rgenStepped_vm, rgenWritten_bern _ _ e s _ h, State.vm_setVm_same _ _ _ _ h0, bit_maskOf, bernBit, vm_advance,
    nth_rgenDraws _ _ e s j.isLt]
theorem rgenEnd_vreg (h : e.op 54 53 = 3) : (rgenEnd a e s).vreg = (s.advance a.folio.val a.ctx.val).vreg := by
  rw [rgenEnd, rgenStepped_vreg, rgenWritten_bern _ _ e s _ h, setVm_only]
/-- A BERN that traps for nothing names a mask register that can be written. -/
theorem bern_register_ne_zero {n c : Nat} (h : (opRgen n c e s).clear) (hbern : e.op 54 53 = 3) : e.op 50 49 ≠ 0 := by
  have htrap := (lowestTrap_none _).mp h.1 (e.op 54 53 == 3 && e.op 50 49 == 0, RNG_FORM) (by simp [opRgen, engSlot])
  simpa [hbern] using htrap
end

/-! ## The instructions -/

theorem opRset_run (n c : Nat) (e : Eng) (s : State) : (opRset n c e s).run (s.advance n c) = ((s.advance n c).setGen n c
    { s.gen n c with seed := BitVec.ofNat 64 (s.srPair n c (e.op 60 56)), key := BitVec.ofNat 32 (s.sr n c (e.op 55 51)), set := true }).relEng
      n c e := by
  rw [← gen_of_gens (advance_gens s n c)]
  rfl
theorem opRstart_run (n c : Nat) (e : Eng) (s : State) : (opRstart n c e s).run (s.advance n c) = ((s.advance n c).setGen n c
    { s.gen n c with started := true, base := s.srPair n c (e.op 60 56) % 2 ^ 48, t := 0 }).relEng n c e := by
  rw [← gen_of_gens (advance_gens s n c)]
  rfl

/-- Settles O23: RSET and RSTART write one generator context; RGEN writes its draws' outputs and takes one step of the run. -/
theorem generatorInstructions : Obligations.GeneratorInstructions := by
  unfold Obligations.GeneratorInstructions
  intro a e s n c i g run base x m stepped others
  refine ⟨fun h => ?_, fun h => ?_, fun h => ?_⟩
  · exact engine_completes _ h (opRset_run n c e s) ⟨State.gen_setGen_same i n c _, otherGens_setGen (advance_gens s n c) _, rfl⟩
  · exact engine_completes _ h (opRstart_run n c e s) ⟨State.gen_setGen_same i n c _, otherGens_setGen (advance_gens s n c) _, rfl⟩
  · refine engine_completes (u := rgenEnd a e s) _ h (opRgen_run n c e s i) ⟨fun hform => ?_, fun hform j hj => ?_, fun hform => ?_,
      rgenEnd_gen a e s, rgenEnd_otherGens a e s, rgenEnd_only a e s⟩
    · exact ⟨rgenEnd_lanesSet a e s hform, rgenEnd_vmask a e s hform⟩
    · obtain ⟨hlanes, -⟩ := rgenEnd_lanesSet a e s (by omega)
      rw [hlanes j, if_pos hj, hform]
      exact Nat.mod_eq_of_lt (rgenDraw_lt n c e s j.val)
    · exact ⟨rgenEnd_bern a e s hform (bern_register_ne_zero e s h.2.1 hform), rgenEnd_vreg a e s hform⟩

end Sys2Proof.Machine
end

-- ==== Writes of a port, completions, discarded bursts ====
section
/-! SUPPORT. The rules that O49, O50 and O51 share. In order: a change of state with its interrupt message (R587);
writes of a port to open words (R19, R580, R583); commands of the host (R285, R632); completions (R286); discarded bursts (R315). -/

namespace Sys2Proof.Machine

open Sys2Proof.Claims

/-! ## A change of state with its interrupt message (R587) -/

/-- The state with other transactions. -/
def State.withTxns (s : State) (x : Sp Txn) : State := { s with txns := x }
/-- The state with other messages on the sideband. -/
def State.withMsgs (s : State) (x : List SbMsg) : State := { s with sideband := x }

section
variable (s : State)

theorem withLine_eq_withMsgs (p : Nat) (t : State) : ∃ b, s.withLine p t = t.withMsgs b := by
  unfold State.withLine
  split
  · exact ⟨_, rfl⟩
  · exact ⟨t.sideband, rfl⟩
theorem touch_eq_withTxns (p : Port) : ∃ x, s.touch p = s.withTxns x := by
  unfold State.touch
  split
  · exact ⟨_, rfl⟩
  · exact ⟨s.txns, rfl⟩

@[simp] theorem str_withMsgs (b : List SbMsg) (j : Nat) : (s.withMsgs b).str j = s.str j := rfl
@[simp] theorem withMsgs_doneFifo (b : List SbMsg) : (s.withMsgs b).doneFifo = s.doneFifo := rfl
@[simp] theorem withMsgs_outbox (b : List SbMsg) : (s.withMsgs b).outbox = s.outbox := rfl
@[simp] theorem withMsgs_regs (b : List SbMsg) : (s.withMsgs b).regs = s.regs := rfl
@[simp] theorem withMsgs_hbm (b : List SbMsg) : (s.withMsgs b).hbm = s.hbm := rfl
@[simp] theorem str_withTxns (x : Sp Txn) (j : Nat) : (s.withTxns x).str j = s.str j := rfl

end

/-! ## Writes of a port to open words (R19, R580, R583) -/

section
variable {s : State} {p : Port} {a w : Nat}

/-- A word of a page that is shown, at the page's own level, has its fields (R8). -/
theorem spec_of_shown {kind : Nat} (hshown : s.pageShown (a / 4096) = true) (hinfo : pageInfo (a / 4096) = some (kind, (regSpec a).lvl))
    (hfolio : isFolioPage (a / 4096) 2 = false) : s.spec a = regSpec a := by
  have hlevel : (regSpec a).lvl ≤ s.level := by simpa [State.pageShown, hinfo] using hshown
  simp [State.spec, hshown, Nat.not_lt.mpr hlevel, hfolio]

/-- A write of a word without bits that a write replaces, stages or locks changes nothing by itself, where its reserved bits are written
with zeros. -/
theorem writeHead_of_plain (hreserved : w &&& (regAll - (s.spec a).named) = 0) (hlk : (s.spec a).lk = 0) (hrw : (s.spec a).rw = 0)
    (htx : (s.spec a).tx = 0) : s.writeHead p a w = s := by
  simp [State.writeHead, hreserved, hlk, hrw, htx]
theorem writeHead_of_rw (hreserved : w &&& (regAll - (s.spec a).named) = 0) (hlk : (s.spec a).lk = 0) (hrw : (s.spec a).rw ≠ 0)
    (htx : (s.spec a).tx = 0) :
    s.writeHead p a w = s.setReg a (s.reg a - (s.reg a &&& (s.spec a).rw) + (w &&& (s.spec a).rw)) := by
  simp [State.writeHead, hreserved, hlk, hrw, htx]
theorem writeClear_of_w1c (h : (s.spec a).w1c = 0) : s.writeClear a w = s := by
  simp [State.writeClear, h]

/-- A write to an open word restarts the lease of the port's transaction, writes the word and does what the write does. -/
theorem hostWrite_of_open (eff : State → State) (h : PortOpen p a s) :
    ∃ x b, s.hostWrite p a w eff = (eff (((s.withTxns x).writeHead p a w).writeClear a w)).withMsgs b := by
  obtain ⟨hseal, hshown, hon⟩ := h
  obtain ⟨x, hx⟩ := touch_eq_withTxns s p
  obtain ⟨b, hb⟩ := withLine_eq_withMsgs (s.withTxns x) (a / 4096) (eff (((s.withTxns x).writeHead p a w).writeClear a w))
  have hreach : ¬(p = .jtag ∧ (!s.rbit DEV_SEAL 1) = true) := fun hp => by simp [hseal hp.1] at hp
  have hshown' : (s.withTxns x).pageShown (a / 4096) = true := hshown
  have hon' : (s.withTxns x).pageOn (a / 4096) = true := hon
  refine ⟨x, b, ?_⟩
  rw [State.hostWrite, if_neg hreach, hx, ← hb]
  simp only [hshown', hon', Bool.not_true, Bool.false_eq_true, if_false, if_true]

/-- A write of a word that only acts. -/
theorem hostWrite_of_acting {r : RegSpec} (eff : State → State) (h : PortOpen p a s) {kind : Nat} (hr : regSpec a = r)
    (hinfo : pageInfo (a / 4096) = some (kind, r.lvl)) (hfolio : isFolioPage (a / 4096) 2 = false)
    (hreserved : w &&& (regAll - r.named) = 0)
    (hplain : r.lk = 0 ∧ r.rw = 0 ∧ r.tx = 0 ∧ r.w1c = 0) : ∃ x b, s.hostWrite p a w eff = (eff (s.withTxns x)).withMsgs b := by
  obtain ⟨x, b, hwrite⟩ := hostWrite_of_open (w := w) eff h
  have hspec : (s.withTxns x).spec a = r := hr ▸ spec_of_shown h.2.1 (hr ▸ hinfo) hfolio
  obtain ⟨hlk, hrw, htx, hw1c⟩ := hspec ▸ hplain
  rw [writeHead_of_plain (hspec ▸ hreserved) hlk hrw htx, writeClear_of_w1c hw1c] at hwrite
  exact ⟨x, b, hwrite⟩

/-! ## Commands of the host (R285, R632) -/

theorem regSpec_strmCmd : regSpec STRM_CMD = { wo := msk 31 28 } := by decide

/-- The reserved bits of STRM_CMD lie below its OP. -/
theorem command_reserved (op : Nat) : op * 2 ^ 28 &&& (regAll - (RegSpec.named { wo := msk 31 28 })) = 0 := by
  have hmask : regAll - (RegSpec.named { wo := msk 31 28 }) = 2 ^ 28 - 1 := by decide
  rw [hmask, Nat.and_two_pow_sub_one_eq_mod, Nat.mul_mod_left]

/-- A command that is taken runs, and its code stands in STRM_CMD_STAT. -/
theorem strmCommand_of_taken {op : Nat} (h : CommandsTaken p s) (hop : op < 16) : ∃ x b,
    strmCommand p op s = .next ((((s.withTxns x).runCommand op).1.setFld STRM_CMD_STAT 7 0 ((s.withTxns x).runCommand op).2).withMsgs b) := by
  obtain ⟨hopen, hready, hwarm, hbusy, -⟩ := h
  obtain ⟨x, b, hwrite⟩ := hostWrite_of_acting (fun t => t.strmCmd (bits (op * 2 ^ 28) 31 28)) hopen regSpec_strmCmd (kind := 0x40)
    (by decide) (by decide) (command_reserved op) (by decide)
  have hcode : bits (op * 2 ^ 28) 31 28 = op := by
    unfold bits
    omega
  have hidle : ¬((s.withTxns x).fld BOOT_STAT 31 28 ≠ 7 ∨ (s.withTxns x).inWarm = true) := by
    rintro (hboot | hreset)
    · exact hboot hready
    · exact Bool.false_ne_true (hwarm.symm.trans hreset)
  have hfree : ¬ (s.withTxns x).rbit STRM_CMD_STAT 31 = true := fun hset => Bool.false_ne_true (hbusy.symm.trans hset)
  refine ⟨x, b, ?_⟩
  rw [strmCommand, State.wrStrmCmd, hwrite, State.strmCmd, hcode, if_neg hidle, if_neg hfree]

end

/-! ## Completions (R286) -/

/-- The command of stream i is complete with a code, and its record stands in the FIFO. -/
def State.completed (s : State) (i op code : Nat) : State :=
  { s.setStr i { s.str i with cmd := none } with doneFifo := s.doneFifo ++ [⟨s.handle i, op, code⟩] }

section
variable {s : State} {i op code : Nat}

@[simp] theorem str_completed_same : (s.completed i op code).str i = { s.str i with cmd := none } := State.str_setStr_same s i _
theorem str_completed_ne {j : Nat} (h : j ≠ i) : (s.completed i op code).str j = s.str j := State.str_setStr_ne s _ h
@[simp] theorem completed_doneFifo : (s.completed i op code).doneFifo = s.doneFifo ++ [⟨s.handle i, op, code⟩] := rfl
@[simp] theorem completed_outbox : (s.completed i op code).outbox = s.outbox := rfl
@[simp] theorem completed_regs : (s.completed i op code).regs = s.regs := rfl
@[simp] theorem completed_hbm : (s.completed i op code).hbm = s.hbm := rfl

/-- A command that waits completes, where the FIFO has room. -/
theorem completeCmd_of_room (code : Nat) (hcmd : (s.str i).cmd = some op) (hroom : s.doneFifo.length < 64) :
    ∃ b, s.completeCmd i code = (s.completed i op code).withMsgs b := by
  obtain ⟨b, hb⟩ := withLine_eq_withMsgs s 0x1A0 (s.completed i op code)
  have hroom' : (s.setStr i { s.str i with cmd := none }).doneFifo.length < 64 := hroom
  refine ⟨b, ?_⟩
  simp only [State.completeCmd, hcmd, State.complete, hroom', if_true]
  exact hb
/-- A command that ends with its stream: its record, and a FREE entry that keeps its generation (R281, R283). -/
theorem importFails_frees (code : Nat) (hcmd : (s.str i).cmd = some op) (hroom : s.doneFifo.length < 64) :
    (s.importFails i code).str i = (s.str i).freed ∧ (∀ j, j ≠ i → (s.importFails i code).str j = s.str j) ∧
      (s.importFails i code).doneFifo = s.doneFifo ++ [⟨s.handle i, op, code⟩] ∧ (s.importFails i code).hbm = s.hbm ∧
      (s.importFails i code).regs = s.regs := by
  obtain ⟨b, hb⟩ := completeCmd_of_room code hcmd hroom
  rw [State.importFails, hb]
  refine ⟨?_, fun j hj => ?_, ?_, ?_, ?_⟩
  · rw [State.str_setStr_same, str_withMsgs, str_completed_same]
    rfl
  · rw [State.str_setStr_ne _ _ hj, str_withMsgs, str_completed_ne hj]
  · rw [State.setStr_doneFifo, withMsgs_doneFifo, completed_doneFifo]
  · rw [State.setStr_hbm, withMsgs_hbm, completed_hbm]
  · rw [State.setStr_regs, withMsgs_regs, completed_regs]
end

/-! ## Bursts that are discarded (R315) -/

section
variable (s : State) (i code : Nat) (bs : List Burst)

theorem status_eq (seq bid : Nat) : s.status i code seq bid = { s with outbox := (s.status i code seq bid).outbox } := by
  unfold State.status State.send
  split <;> rfl
theorem status_outbox (seq bid : Nat) (h : s.withdrawn = false) :
    (s.status i code seq bid).outbox = s.outbox ++ [msgHeader 0xC2 code (s.handle i) seq bid (s.str i).cseq 0] := by
  simp [State.status, State.send, h]
theorem discard_eq : s.discard i code bs = { s with occupied := (s.discard i code bs).occupied, outbox := (s.discard i code bs).outbox } :=
  List.foldlRecOn (motive := fun u : State => u = { s with occupied := u.occupied, outbox := u.outbox }) bs _ rfl fun u hu b _ => by
    rw [status_eq, hu]
    rfl
@[simp] theorem discard_strm : (s.discard i code bs).strm = s.strm := by rw [discard_eq]
@[simp] theorem discard_regs : (s.discard i code bs).regs = s.regs := by rw [discard_eq]
@[simp] theorem discard_hbm : (s.discard i code bs).hbm = s.hbm := by rw [discard_eq]
@[simp] theorem discard_doneFifo : (s.discard i code bs).doneFifo = s.doneFifo := by rw [discard_eq]
@[simp] theorem str_discard (j : Nat) : (s.discard i code bs).str j = s.str j := by rw [State.str, discard_strm, State.str]
/-- Each burst has its one status message. -/
theorem discard_outbox (h : s.withdrawn = false) : (s.discard i code bs).outbox =
    s.outbox ++ bs.map (fun b => msgHeader 0xC2 code (s.handle i) b.seq b.bid (s.str i).cseq 0) := by
  induction bs generalizing s with
  | nil => simp [State.discard]
  | cons b bs ih =>
    have hone := status_eq (s.freeGranules b.zone b.grans) i code b.seq b.bid
    have hbox := status_outbox (s.freeGranules b.zone b.grans) i code b.seq b.bid h
    have hrest : s.discard i code (b :: bs) = ((s.freeGranules b.zone b.grans).status i code b.seq b.bid).discard i code bs := rfl
    generalize (s.freeGranules b.zone b.grans).status i code b.seq b.bid = u at hone hbox hrest
    have hwithdrawn : u.withdrawn = s.withdrawn := by
      rw [hone]
      rfl
    have hstr : u.str i = s.str i := by
      rw [hone]
      rfl
    have hhandle : u.handle i = s.handle i := by rw [State.handle, hstr, State.handle]
    rw [hrest, ih u (hwithdrawn.trans h), hhandle, hstr, hbox, List.map_cons, List.append_assoc]
    rfl
theorem discard_statuses (h : s.withdrawn = false) : ∃ l, (s.discard i code bs).outbox = s.outbox ++ l ∧ l.length = bs.length ∧
    ∀ m ∈ l, m.take 2 = [0xC2, BitVec.ofNat 8 code] := by
  refine ⟨_, discard_outbox s i code bs h, List.length_map _, ?_⟩
  simp only [List.mem_map, forall_exists_index, and_imp]
  rintro m b - rfl
  rfl
theorem backlogTake_length (m off : Nat) : (s.backlogTake i m off).1.length = m := by
  induction m generalizing off with
  | zero => rfl
  | succ m ih => simp [State.backlogTake, ih]
end

/-! ## Bytes of a memory, writes beside the table of streams -/

theorem Memory.bytes_getElem? (m : Memory) (a : Nat) {n i : Nat} (h : i < n) : (m.bytes a n)[i]? = some (m.byte (a + i)) := by
  induction n generalizing a i with
  | zero => exact absurd h (Nat.not_lt_zero i)
  | succ n ih =>
    cases i with
    | zero => rfl
    | succ i =>
      rw [Memory.bytes, List.getElem?_cons_succ, ih (a + 1) (by omega)]
      congr 2
      omega

section
variable (s : State)

@[simp] theorem cntStrm_doneFifo (k n : Nat) : (s.cntStrm k n).doneFifo = s.doneFifo := rfl
@[simp] theorem cntStrm_outbox (k n : Nat) : (s.cntStrm k n).outbox = s.outbox := rfl
@[simp] theorem cntStrm_occupied (k n : Nat) : (s.cntStrm k n).occupied = s.occupied := rfl
@[simp] theorem cntStrm_hbm (k n : Nat) : (s.cntStrm k n).hbm = s.hbm := rfl
theorem reg_cntStrm_ne (k n : Nat) {a : Nat} (h : a ≠ STRM_CNT k) : (s.cntStrm k n).reg a = s.reg a := State.reg_setFld_ne s _ _ _ h
theorem hbmWrite_eq (a : Nat) (bs : List Byte) : s.hbmWrite a bs = { s with hbm := (s.hbmWrite a bs).hbm } := by
  unfold State.hbmWrite
  split <;> rfl
@[simp] theorem hbmWrite_doneFifo (a : Nat) (bs : List Byte) : (s.hbmWrite a bs).doneFifo = s.doneFifo := by rw [hbmWrite_eq]
@[simp] theorem hbmWrite_regs (a : Nat) (bs : List Byte) : (s.hbmWrite a bs).regs = s.regs := by rw [hbmWrite_eq]
@[simp] theorem str_hbmWrite (a : Nat) (bs : List Byte) (j : Nat) : (s.hbmWrite a bs).str j = s.str j := by
  rw [hbmWrite_eq]
  rfl
theorem writeRecord_eq (i : Nat) : ∃ a bs, s.writeRecord i = (s.hbmWrite a bs).setStr i { s.str i with recordDue := false } := ⟨_, _, rfl⟩
@[simp] theorem writeRecord_doneFifo (i : Nat) : (s.writeRecord i).doneFifo = s.doneFifo := by
  obtain ⟨a, bs, h⟩ := writeRecord_eq s i
  rw [h, State.setStr_doneFifo, hbmWrite_doneFifo]
@[simp] theorem writeRecord_regs (i : Nat) : (s.writeRecord i).regs = s.regs := by
  obtain ⟨a, bs, h⟩ := writeRecord_eq s i
  rw [h, State.setStr_regs, hbmWrite_regs]
theorem str_writeRecord_same (i : Nat) : (s.writeRecord i).str i = { s.str i with recordDue := false } := by
  obtain ⟨a, bs, h⟩ := writeRecord_eq s i
  rw [h, State.str_setStr_same]
theorem str_writeRecord_ne {i j : Nat} (hj : j ≠ i) : (s.writeRecord i).str j = s.str j := by
  obtain ⟨a, bs, h⟩ := writeRecord_eq s i
  rw [h, State.str_setStr_ne _ _ hj, str_hbmWrite]
theorem hbmErase_eq (a n : Nat) : s.hbmErase a n = { s with hbm := (s.hbmErase a n).hbm } := by
  unfold State.hbmErase
  split <;> rfl
end

end Sys2Proof.Machine
end

-- ==== Inbound bursts: O49 ====
section
/-! SUPPORT. Inbound bursts flit by flit (R305 to R308, R310). In order: whey; a burst's bytes in its granules (R347); the next flit of a
curd; a curd that expires; the events. -/

namespace Sys2Proof.Machine

open Sys2Proof.Claims

/-! ## Flits that are whey (R308) -/

section
variable {s : State} {fl : Flit}

theorem whey_of_names (h : s.names fl.handle = true) : s.whey fl.handle =
    (s.setStr (fl.handle % 4096) { s.str (fl.handle % 4096) with cntWhey := sat16 ((s.str (fl.handle % 4096)).cntWhey + 1) }).cntStrm 0 1 := by
  simp [State.whey, h]
/-- The stream's flit is whey: it and the device count it. -/
def WheyOf (fl : Flit) (s t : State) : Prop :=
  t.str (fl.handle % 4096) = { s.str (fl.handle % 4096) with cntWhey := min ((s.str (fl.handle % 4096)).cntWhey + 1) 0xFFFF } ∧
    (∀ j, j ≠ fl.handle % 4096 → t.str j = s.str j) ∧ t = { s with strm := t.strm, regs := t.regs }
theorem whey_wheyOf (h : s.names fl.handle = true) : WheyOf fl s (s.whey fl.handle) := by
  rw [whey_of_names h]
  exact ⟨(str_cntStrm _ _ _ _).trans (State.str_setStr_same s _ _), fun j hj => (str_cntStrm _ _ _ _).trans (State.str_setStr_ne s _ hj), rfl⟩

/-- A later flit without a curd, of another burst, or after the hold time. -/
theorem flitOn_whey (h : s.names fl.handle = true)
    (hcurd : ∀ b, (s.str (fl.handle % 4096)).curd = some b → b.bid ≠ fl.bid ∨ b.timer = 0) : s.flitOn fl = s.whey fl.handle := by
  simp only [State.flitOn, h, Bool.not_true, Bool.false_eq_true, if_false]
  split
  · rfl
  next b hb => exact if_pos (hcurd b hb)
/-- A first flit whose SEQ is not above LAST_SEQ. -/
theorem flit0_whey (hseq : ofBytes ((fl.payload.drop 8).take 4) ≤ (s.str (fl.handle % 4096)).lastSeq) : s.flit0 fl = s.whey fl.handle := by
  unfold State.flit0
  exact if_pos (.inr (.inr hseq))
end

/-! ## A burst's bytes in its granules (R347) -/

/-- The bytes of a flit that fall into granule k of the list, written there. -/
def State.granPiece (s : State) (zone off : Nat) (bs : List Byte) (k g : Nat) : State :=
  if max off (256 * k) < min (off + bs.length) (256 * k + 256) then
    s.put 6 (s.sigBase zone + 256 * g + max off (256 * k) % 256)
      ((bs.drop (max off (256 * k) - off)).take (min (off + bs.length) (256 * k + 256) - max off (256 * k)))
  else s

section
variable {s : State} {zone off : Nat} {bs : List Byte}

theorem granPiece_eq (k g : Nat) : s.granPiece zone off bs k g =
    { s with vat := (s.granPiece zone off bs k g).vat, bad := (s.granPiece zone off bs k g).bad } := by
  unfold State.granPiece
  split <;> rfl
theorem granWrite_eq (gs : List Nat) : s.granWrite zone gs off bs =
    { s with vat := (s.granWrite zone gs off bs).vat, bad := (s.granWrite zone gs off bs).bad } :=
  List.foldlRecOn (motive := fun u : State => u = { s with vat := u.vat, bad := u.bad }) _ _ rfl fun u hu p _ => by
    show u.granPiece zone off bs p.1 p.2 = _
    rw [granPiece_eq, hu]
    rfl
theorem sigBase_granPiece (k g h : Nat) : (s.granPiece zone off bs k g).sigBase h = s.sigBase h := by
  have hregs : (s.granPiece zone off bs k g).regs = s.regs := by rw [granPiece_eq]
  rw [State.sigBase, State.fld, State.reg, hregs, ← State.reg, ← State.fld, ← State.sigBase]

/-- A byte of the granule: of the flit, or as it was. -/
theorem byte_granPiece_same (k g : Nat) {r : Nat} (hr : r < 256) : (s.granPiece zone off bs k g).vat.byte (s.sigBase zone + 256 * g + r) =
    if h : off ≤ 256 * k + r ∧ 256 * k + r - off < bs.length then bs[256 * k + r - off]'h.2 else s.vat.byte (s.sigBase zone + 256 * g + r) := by
  have hlo : max off (256 * k) < 256 * k + 256 → max off (256 * k) % 256 = max off (256 * k) - 256 * k := by omega
  unfold State.granPiece
  split
  next hpiece =>
    rw [hlo (by omega)]
    generalize hpart : (bs.drop (max off (256 * k) - off)).take (min (off + bs.length) (256 * k + 256) - max off (256 * k)) = part
    have hlen : part.length = min (off + bs.length) (256 * k + 256) - max off (256 * k) := by
      rw [← hpart, List.length_take, List.length_drop]
      omega
    have hvat (a : Nat) : (s.put 6 a part).vat = s.vat.write a part := rfl
    rw [hvat]
    split
    next hin =>
      obtain ⟨j, hj⟩ : ∃ j, s.sigBase zone + 256 * g + r = s.sigBase zone + 256 * g + (max off (256 * k) - 256 * k) + j :=
        ⟨256 * k + r - max off (256 * k), by omega⟩
      have hjlt : j < part.length := by omega
      rw [hj, Memory.byte_write_in _ _ _ hjlt]
      simp only [← hpart, List.getElem_take, List.getElem_drop]
      congr 1
      omega
    next hout => exact Memory.byte_write_out _ _ _ (by omega)
  next hnone => rw [dif_neg (by omega)]
/-- A byte of another granule. -/
theorem byte_granPiece_ne {k g g' r : Nat} (hne : g' ≠ g) (hr : r < 256) :
    (s.granPiece zone off bs k g).vat.byte (s.sigBase zone + 256 * g' + r) = s.vat.byte (s.sigBase zone + 256 * g' + r) := by
  unfold State.granPiece
  split
  next hpiece =>
    have hlen : ((bs.drop (max off (256 * k) - off)).take (min (off + bs.length) (256 * k + 256) - max off (256 * k))).length =
        min (off + bs.length) (256 * k + 256) - max off (256 * k) := by
      rw [List.length_take, List.length_drop]
      omega
    exact Memory.byte_write_out _ _ _ (by rw [hlen]; omega)
  next => rfl

theorem byte_granPieces {ps : List (Nat × Nat)} (hps : (ps.map Prod.snd).Nodup) {r : Nat} (hr : r < 256) :
    (∀ p ∈ ps, (ps.foldl (fun u p => u.granPiece zone off bs p.1 p.2) s).vat.byte (s.sigBase zone + 256 * p.2 + r) =
      if h : off ≤ 256 * p.1 + r ∧ 256 * p.1 + r - off < bs.length then bs[256 * p.1 + r - off]'h.2
      else s.vat.byte (s.sigBase zone + 256 * p.2 + r)) ∧
    ∀ g, g ∉ ps.map Prod.snd → (ps.foldl (fun u p => u.granPiece zone off bs p.1 p.2) s).vat.byte (s.sigBase zone + 256 * g + r) =
      s.vat.byte (s.sigBase zone + 256 * g + r) := by
  induction ps generalizing s with
  | nil => simp
  | cons q ps ih =>
    obtain ⟨hq, hps⟩ := List.nodup_cons.mp hps
    obtain ⟨hin, hout⟩ := ih (s := s.granPiece zone off bs q.1 q.2) hps
    rw [sigBase_granPiece] at hin hout
    refine ⟨fun p hp => ?_, fun g hg => ?_⟩
    · obtain rfl | hp := List.mem_cons.mp hp
      · exact (hout _ hq).trans (byte_granPiece_same p.1 p.2 hr)
      · have hne : p.2 ≠ q.2 := fun he => hq (he ▸ List.mem_map_of_mem hp)
        refine (hin p hp).trans ?_
        rw [byte_granPiece_ne hne hr]
    · obtain ⟨hne, hg⟩ := not_or.mp (List.mem_cons.not.mp hg)
      exact (hout g hg).trans (byte_granPiece_ne hne hr)

/-- A byte of a burst, in list order. -/
theorem burstBytes_getElem? (s : State) (b : Burst) {k r : Nat} (hk : k < b.grans.length) (hr : r < 256) :
    (s.burstBytes b)[256 * k + r]? = some (s.vat.byte (s.sigBase b.zone + 256 * b.grans[k] + r)) := by
  unfold State.burstBytes
  generalize b.grans = gs at hk
  induction gs generalizing k with
  | nil => exact absurd hk (Nat.not_lt_zero k)
  | cons g gs ih =>
    have hlen := Memory.bytes_length s.vat (s.sigBase b.zone + 256 * g) 256
    rw [List.flatMap_cons]
    cases k with
    | zero =>
      rw [Nat.mul_zero, Nat.zero_add, List.getElem?_append_left (by omega), Memory.bytes_getElem? _ _ hr]
      rfl
    | succ k =>
      have hskip : 256 * (k + 1) + r - 256 = 256 * k + r := by omega
      rw [List.getElem?_append_right (by omega), hlen, hskip]
      exact ih (by simpa using hk)
/-- The bytes of a burst after a flit has been written: its own at its place, the others as they were. -/
theorem burstBytes_granWrite (s : State) (b : Burst) (off : Nat) (bs : List Byte) (hgrans : b.grans.Nodup) {o : Nat}
    (ho : o < 256 * b.grans.length) : ((s.granWrite b.zone b.grans off bs).burstBytes b)[o]? =
      if off ≤ o ∧ o - off < bs.length then bs[o - off]? else (s.burstBytes b)[o]? := by
  obtain ⟨k, r, hr, rfl⟩ : ∃ k r, r < 256 ∧ o = 256 * k + r := ⟨o / 256, o % 256, Nat.mod_lt _ (by decide), (Nat.div_add_mod o 256).symm⟩
  have hk : k < b.grans.length := by omega
  have hsnd : ((List.range b.grans.length).zip b.grans).map Prod.snd = b.grans := List.map_snd_zip (by simp)
  have hmem : (k, b.grans[k]) ∈ (List.range b.grans.length).zip b.grans :=
    List.mem_iff_getElem.mpr ⟨k, by simpa using hk, by simp⟩
  have hregs : (s.granWrite b.zone b.grans off bs).regs = s.regs := by rw [granWrite_eq]
  have hbase : (s.granWrite b.zone b.grans off bs).sigBase b.zone = s.sigBase b.zone := by
    rw [State.sigBase, State.fld, State.reg, hregs, ← State.reg, ← State.fld, ← State.sigBase]
  obtain ⟨hbyte, -⟩ := byte_granPieces (s := s) (zone := b.zone) (off := off) (bs := bs) (hsnd.symm ▸ hgrans) hr
  have hgran : (s.granWrite b.zone b.grans off bs).vat.byte (s.sigBase b.zone + 256 * b.grans[k] + r) = _ := hbyte _ hmem
  rw [burstBytes_getElem? _ b hk hr, burstBytes_getElem? s b hk hr, hbase, hgran]
  split
  next hin => rw [List.getElem?_eq_getElem hin.2]
  next => rfl
/-- A flit that fits lies where it was written, behind what was there. -/
theorem granWrite_lands (s : State) (b : Burst) (off : Nat) (bs : List Byte) (hgrans : b.grans.Nodup)
    (hfits : off + bs.length ≤ 256 * b.grans.length) :
    (((s.granWrite b.zone b.grans off bs).burstBytes b).drop off).take bs.length = bs ∧
      ((s.granWrite b.zone b.grans off bs).burstBytes b).take off = (s.burstBytes b).take off := by
  refine ⟨List.ext_getElem? fun j => ?_, List.ext_getElem? fun j => ?_⟩
  · rw [List.getElem?_take, List.getElem?_drop]
    split
    next hj =>
      rw [burstBytes_granWrite s b off bs hgrans (by omega), if_pos (by omega), Nat.add_sub_cancel_left]
    next hj => exact (List.getElem?_eq_none (by omega)).symm
  · rw [List.getElem?_take, List.getElem?_take]
    split
    next hj => rw [burstBytes_granWrite s b off bs hgrans (by omega), if_neg (by omega)]
    next => rfl
end

/-! ## A flit of a curd (R306, R307) -/

/-- The next flit of a curd, which is not its last. -/
theorem flitOn_next {s : State} {fl : Flit} {b : Burst} (hnames : s.names fl.handle = true)
    (hcurd : (s.str (fl.handle % 4096)).curd = some b) (hbid : b.bid = fl.bid) (htimer : b.timer ≠ 0) (hnext : fl.fidx = b.next)
    (hlast : fl.last = false) (hlen : b.got + fl.payload.length < b.len) :
    s.flitOn fl = (s.granWrite b.zone b.grans (32 + b.got) fl.payload).setStr (fl.handle % 4096) { s.str (fl.handle % 4096) with
      curd := some { b with next := b.next + 1, got := b.got + fl.payload.length, timer := s.holdTime (fl.handle % 4096) } } := by
  have hstr : (s.granWrite b.zone b.grans (32 + b.got) fl.payload).str (fl.handle % 4096) = s.str (fl.handle % 4096) := by
    have hstrm : (s.granWrite b.zone b.grans (32 + b.got) fl.payload).strm = s.strm := by rw [granWrite_eq]
    rw [State.str, hstrm, ← State.str]
  have hwhole : ¬(b.len < b.got + fl.payload.length ∨ false ≠ (b.got + fl.payload.length == b.len)) := by
    simp only [beq_eq_false_iff_ne.mpr hlen.ne, ne_eq, not_true_eq_false, or_false]
    omega
  have hstale : ¬(b.bid ≠ fl.bid ∨ b.timer = 0) := by simp [hbid, htimer]
  simp only [State.flitOn, hnames, Bool.not_true, Bool.false_eq_true, if_false, hcurd, hnext, hlast, State.takeFlit, if_neg hstale,
    if_neg hwhole, hstr, ne_eq, not_true_eq_false]

/-! ## A curd that expires (R306, R307) -/

/-- A curd discarded as incomplete: its granules, its message, its counters. -/
def CurdLost (i : Nat) (b : Burst) (s t : State) : Prop :=
  t.str i = { s.str i with curd := none, cntIncomplete := min ((s.str i).cntIncomplete + 1) 0xFFFF } ∧
    t.outbox = (if s.withdrawn then s.outbox else s.outbox ++ [msgHeader 0xC2 1 (s.handle i) b.seq b.bid (s.str i).cseq 0]) ∧
    t.occupied = (s.freeGranules b.zone b.grans).occupied ∧
    t = { s with strm := t.strm, outbox := t.outbox, occupied := t.occupied, regs := t.regs }
theorem dropCurd_incomplete {s : State} {i : Nat} {b : Burst} (hcurd : (s.str i).curd = some b) : CurdLost i b s (s.dropCurd i 1) := by
  have hfreed (x : Strm) : ((s.freeGranules b.zone b.grans).setStr i x).str i = x := State.str_setStr_same _ i x
  have hstatus (x : Strm) := status_eq ((s.freeGranules b.zone b.grans).setStr i x) i 1 b.seq b.bid
  have hstr (x : Strm) : (((s.freeGranules b.zone b.grans).setStr i x).status i 1 b.seq b.bid).str i = x := by
    rw [hstatus]
    exact hfreed x
  have hbox (x : Strm) : (((s.freeGranules b.zone b.grans).setStr i x).status i 1 b.seq b.bid).outbox = if s.withdrawn then s.outbox
      else s.outbox ++ [msgHeader 0xC2 1 (x.gen * 4096 + i) b.seq b.bid x.cseq 0] := by
    unfold State.status State.handle
    rw [hfreed]
    exact apply_ite State.outbox _ _ _
  simp only [State.dropCurd, hcurd, if_true, hstr]
  refine ⟨?_, ?_, ?_, ?_⟩
  · rw [str_cntStrm, State.str_setStr_same]
    rfl
  · rw [cntStrm_outbox, State.setStr_outbox]
    exact hbox _
  · rw [cntStrm_occupied, State.setStr_occupied, hstatus, State.setStr_occupied]
  · rw [hstatus]
    generalize (State.status _ i 1 b.seq b.bid).outbox = o
    simp only [State.cntStrm, State.bump, State.setFld, State.setReg, State.setStr, State.freeGranules]

/-! ## The events -/

/-- The oldest flit has left its buffer, and its credit is owed (R615). -/
def State.popFlit (s : State) (rest : List Flit) : State := { s with burstIn := rest, d2dOwed := s.d2dOwed + 1 }

section
variable {s : State} {fl : Flit} {rest : List Flit} (hin : s.burstIn = fl :: rest)
include hin

theorem inboundBurstFlit_first (h : fl.fidx = 0) : exec .inboundBurstFlit s = .next ((s.popFlit rest).flit0 fl) := by
  show execInboundBurstFlit s = _
  simp only [execInboundBurstFlit, hin, h, if_true]
  rfl
theorem inboundBurstFlit_later (h : fl.fidx ≠ 0) : exec .inboundBurstFlit s = .next ((s.popFlit rest).flitOn fl) := by
  show execInboundBurstFlit s = _
  simp only [execInboundBurstFlit, hin, h, if_false]
  rfl
end

/-- Settles O49: a flit that comes next, one that is whey, and a curd that expires. -/
theorem burstFlitsFillTheirCurd : Obligations.BurstFlitsFillTheirCurd := by
  intro s fl rest i x taken whey
  refine ⟨fun hin hnames => ?_, fun k b hcurd htimer hst => ?_⟩
  · have hwhey : whey ((s.popFlit rest).whey fl.handle) := by
      obtain ⟨hstr, hothers, hrest⟩ := whey_wheyOf (s := s.popFlit rest) hnames
      exact ⟨hstr, ⟨congrArg State.burstIn hrest, congrArg State.d2dOwed hrest, hothers⟩, hrest.trans (by rw [hrest]; rfl)⟩
    refine ⟨fun b hfidx hcurd hbid htimer hnext hlast hlen hgrans hnodup => ?_, fun hfidx hcurd => ?_, fun b hfidx hcurd hstale => ?_,
      fun hfidx hseq => ?_⟩
    · refine ⟨_, (inboundBurstFlit_later hin hfidx).trans (congrArg _ (flitOn_next hnames hcurd hbid htimer hnext hlast hlen)), ?_⟩
      have hbytes := granWrite_lands (s.popFlit rest) b (32 + b.got) fl.payload hnodup (by omega)
      have hgran := granWrite_eq (s := s.popFlit rest) (zone := b.zone) (off := 32 + b.got) (bs := fl.payload) b.grans
      generalize (s.popFlit rest).granWrite b.zone b.grans (32 + b.got) fl.payload = u at hbytes hgran
      refine ⟨State.str_setStr_same _ _ _, hbytes.1, hbytes.2, ⟨?_, ?_, fun j hj => (State.str_setStr_ne _ _ hj).trans ?_⟩, ?_⟩
      all_goals
        rw [hgran]
        rfl
    · refine ⟨_, (inboundBurstFlit_later hin hfidx).trans (congrArg _ (flitOn_whey hnames fun b hb => ?_)), hwhey⟩
      exact absurd (hcurd.symm.trans hb) (by simp)
    · refine ⟨_, (inboundBurstFlit_later hin hfidx).trans (congrArg _ (flitOn_whey hnames fun b' hb => ?_)), hwhey⟩
      obtain rfl := Option.some.inj (hcurd.symm.trans hb)
      exact hstale
    · exact ⟨_, (inboundBurstFlit_first hin hfidx).trans (congrArg _ (flit0_whey hseq)), hwhey⟩
  · have hrun : exec (.curdExpiry k) s = .next (s.dropCurd k.toNat 1) := by
      show execCurdExpiry k s = _
      simp only [execCurdExpiry, hcurd, htimer, if_true, State.loseCurd, hst, if_false]
    obtain ⟨hstr, hbox, hocc, hrest⟩ := dropCurd_incomplete hcurd
    refine ⟨_, hrun, hstr, hbox, ?_, hrest⟩
    rw [hocc]
    exact Sp.get_set_same _ _ _ _

end Sys2Proof.Machine
end

-- ==== Stream commands: O50 ====
section
/-! SUPPORT. The stream commands (R283 to R290, R315, R318 to R325). In order: an accepted command; PAUSE and RESUME; zeros over a range of HBM;
END and END_ERASE; EXPORT; messages on the links; START and IMPORT; the commands. -/

namespace Sys2Proof.Machine

open Sys2Proof.Claims

/-! ## An accepted command (R285, R287) -/

/-- A command's code in STRM_CMD_STAT, with the interrupt messages of its write. -/
def State.answered (s : State) (code : Nat) (b : List SbMsg) : State := (s.setFld STRM_CMD_STAT 7 0 code).withMsgs b

section
variable (s : State) (code : Nat) (b : List SbMsg)

@[simp] theorem answered_hbm : (s.answered code b).hbm = s.hbm := rfl
theorem reg_answered_ne {a : Nat} (h : a ≠ STRM_CMD_STAT) : (s.answered code b).reg a = s.reg a := State.reg_setFld_ne s 7 0 code h
theorem fld_answered (hcode : code < 256) : (s.answered code b).fld STRM_CMD_STAT 7 0 = code :=
  (State.fld_setFld_same s STRM_CMD_STAT code (Nat.zero_le 7) (by decide)).trans (Nat.mod_eq_of_lt hcode)
end

/-- The command is accepted with code 0, leaves the streams other than i, and its result has the property. -/
def Accepts (i : Nat) (s : State) (r : State × Nat) (post : State → Prop) : Prop :=
  r.2 = 0 ∧ (∀ j, j ≠ i → r.1.str j = s.str j) ∧ post r.1

theorem Accepts.imp {i : Nat} {s : State} {r : State × Nat} {post post' : State → Prop} (h : Accepts i s r post)
    (himp : ∀ v, post v → post' v) : Accepts i s r post' := ⟨h.1, h.2.1, himp _ h.2.2⟩

theorem command_next {p : Port} {s : State} {op : Nat} {post : State → Prop} (h : CommandsTaken p s) (hop : op < 16)
    (hpost : ∀ x b, post (((s.withTxns x).runCommand op).1.answered ((s.withTxns x).runCommand op).2 b)) : Next (strmCommand p op s) post := by
  obtain ⟨x, b, hrun⟩ := strmCommand_of_taken h hop
  exact ⟨_, hrun, hpost x b⟩
/-- What an accepted command leaves is what it did, with code 0. -/
theorem command_accepted {p : Port} {s : State} {i op : Nat} {pre : Sp Txn → State → Prop} {post : State → Prop} (h : CommandsTaken p s)
    (hop : op < 16) (hrun : ∀ x, Accepts i (s.withTxns x) ((s.withTxns x).runCommand op) (pre x))
    (himp : ∀ x v b, pre x v → post (v.answered 0 b)) :
    Next (strmCommand p op s) fun t => (t.fld STRM_CMD_STAT 7 0 = 0 ∧ ∀ j, j ≠ i → t.str j = s.str j) ∧ post t :=
  command_next h hop fun x b => by
    obtain ⟨hcode, hothers, hpre⟩ := hrun x
    rw [hcode]
    exact ⟨⟨fld_answered _ 0 b (by decide), hothers⟩, himp x _ b hpre⟩

/-! ## The checks of a command on a stream (R287) -/

section
variable {s : State} {h : Nat}

theorem strCode_of_ok {ok : StrmSt → Bool} {ends : Bool} (hnames : s.names h = true) (hcmd : (s.str (h % 4096)).cmd = none)
    (hok : ok (s.str (h % 4096)).st = true) : s.strCode h ok ends = 0 := by
  simp [State.strCode, hnames, hcmd, hok, lowestCode]
theorem handle_of_names (hnames : s.names h = true) : s.handle (h % 4096) = h := by
  have hgen : (s.str (h % 4096)).gen = h / 4096 := by
    rw [State.names, Bool.and_eq_true, beq_iff_eq] at hnames
    exact hnames.1
  rw [State.handle, hgen]
  omega
end

/-! ## PAUSE, RESUME_REPLAY, RESUME_DROP (R289) -/

/-- A command that takes its stream to an entry and is complete at once (R286). -/
theorem accepts_completed {s u : State} {h op : Nat} {x : Strm} (hnames : s.names h = true) (hroom : s.doneFifo.length < 64)
    (hothers : ∀ j, j ≠ h % 4096 → u.str j = s.str j) (hentry : u.str (h % 4096) = { x with cmd := some op })
    (hgen : x.gen = (s.str (h % 4096)).gen) (hfifo : u.doneFifo = s.doneFifo) :
    Accepts (h % 4096) s (u.completeCmd (h % 4096) 0, 0) fun v =>
      v.str (h % 4096) = { x with cmd := none } ∧ Completed s v h op 0 ∧ v.outbox = u.outbox := by
  obtain ⟨b, hb⟩ := completeCmd_of_room 0 (by rw [hentry]) (hfifo ▸ hroom)
  have hhandle : u.handle (h % 4096) = h := by rw [State.handle, hentry, hgen, ← State.handle, handle_of_names hnames]
  rw [hb]
  refine ⟨rfl, fun j hj => ?_, ?_, ?_, ?_⟩
  · rw [str_withMsgs, str_completed_ne hj, hothers j hj]
  · rw [str_withMsgs, str_completed_same, hentry]
  · rw [Completed, withMsgs_doneFifo, completed_doneFifo, hfifo, hhandle]
  · rw [withMsgs_outbox, completed_outbox]

/-- Without held bursts a pause has none to append to the backlog. -/
theorem stowHeld_of_nil {s : State} {i : Nat} (hheld : (s.str i).held = []) : s.stowHeld i = s.setStr i { s.str i with held := [] } := by
  simp [State.stowHeld, hheld]

section
variable {s : State} {h : Nat} (hnames : s.names h = true) (hcmd : (s.str (h % 4096)).cmd = none)
include hnames hcmd

theorem cmdPause_stepping (hst : (s.str (h % 4096)).st = .active) (hstep : (s.str (h % 4096)).step.isSome) :
    Accepts (h % 4096) s (s.cmdPause h) fun v => v.str (h % 4096) = { s.str (h % 4096) with st := .pausing, cmd := some 2 } := by
  have hrun : s.cmdPause h = (s.setStr (h % 4096) { s.str (h % 4096) with st := .pausing, cmd := some 2 }, 0) := by
    simp [State.cmdPause, strCode_of_ok hnames hcmd, hst, hstep]
  rw [hrun]
  exact ⟨rfl, fun j hj => State.str_setStr_ne s _ hj, State.str_setStr_same s _ _⟩
theorem cmdPause_idle (hroom : s.doneFifo.length < 64) (hst : (s.str (h % 4096)).st = .active) (hstep : (s.str (h % 4096)).step = none)
    (hheld : (s.str (h % 4096)).held = []) :
    Accepts (h % 4096) s (s.cmdPause h) fun v => v.str (h % 4096) = { s.str (h % 4096) with st := .paused } ∧ Completed s v h 2 0 := by
  have hrun : s.cmdPause h = (((s.setStr (h % 4096) { s.str (h % 4096) with st := .paused, cmd := some 2 }).completeCmd
      (h % 4096) 0).stowHeld (h % 4096), 0) := by
    simp [State.cmdPause, strCode_of_ok hnames hcmd, hst, hstep]
  obtain ⟨-, hothers, hstr, hdone, -⟩ := accepts_completed (x := { s.str (h % 4096) with st := .paused }) hnames hroom
    (fun j hj => State.str_setStr_ne s { s.str (h % 4096) with st := .paused, cmd := some 2 } hj) (State.str_setStr_same s _ _) rfl
    (State.setStr_doneFifo s _ _)
  rw [hrun, stowHeld_of_nil (by rw [hstr]; exact hheld), hstr]
  refine ⟨rfl, fun j hj => (State.str_setStr_ne _ _ hj).trans (hothers j hj), ?_, ?_⟩
  · rw [State.str_setStr_same, ← hcmd, ← hheld]
  · rw [Completed, State.setStr_doneFifo, hdone]
theorem cmdReplay_empty (hroom : s.doneFifo.length < 64) (hst : (s.str (h % 4096)).st = .paused)
    (hlog : (s.str (h % 4096)).backlogged = 0) : Accepts (h % 4096) s (s.cmdReplay h) fun v =>
      v.str (h % 4096) = { s.str (h % 4096) with st := .active, fault := false } ∧ Completed s v h 3 0 := by
  have hrun : s.cmdReplay h = ((s.setStr (h % 4096) { s.str (h % 4096) with st := .active, fault := false, cmd := some 3 }).completeCmd
      (h % 4096) 0, 0) := by
    simp [State.cmdReplay, strCode_of_ok hnames hcmd, hst, hlog]
  rw [hrun]
  refine Accepts.imp (accepts_completed (x := { s.str (h % 4096) with st := .active, fault := false }) hnames hroom
    (fun j hj => State.str_setStr_ne s _ hj) (State.str_setStr_same s _ _) rfl (State.setStr_doneFifo s _ _)) fun v hv =>
      ⟨hv.1.trans ?_, hv.2.1⟩
  rw [← hcmd]
theorem cmdReplay_backlog (hst : (s.str (h % 4096)).st = .paused) (hlog : (s.str (h % 4096)).backlogged ≠ 0) :
    Accepts (h % 4096) s (s.cmdReplay h) fun v =>
      (v.str (h % 4096)).st = .replay ∧ (v.str (h % 4096)).cmd = some 3 ∧ v.doneFifo = s.doneFifo := by
  have hrun : s.cmdReplay h = ((s.setStr (h % 4096) { s.str (h % 4096) with fault := false, cmd := some 3 }).startReplay (h % 4096), 0) := by
    simp [State.cmdReplay, strCode_of_ok hnames hcmd, hst, hlog]
  rw [hrun, State.startReplay, State.str_setStr_same]
  refine ⟨rfl, fun j hj => (State.str_setStr_ne _ _ hj).trans (State.str_setStr_ne s _ hj), ?_, ?_, ?_⟩
  · rw [State.str_setStr_same]
  · rw [State.str_setStr_same]
  · rw [State.setStr_doneFifo, State.setStr_doneFifo]
/-- RESUME_DROP empties the backlog, whose bursts get one status each. -/
theorem cmdDrop_paused (hroom : s.doneFifo.length < 64) (hst : (s.str (h % 4096)).st = .paused) :
    Accepts (h % 4096) s (s.cmdDrop h) fun v =>
      v.str (h % 4096) = { s.str (h % 4096) with
        st := .active, fault := false, cntDrop := min ((s.str (h % 4096)).cntDrop + (s.str (h % 4096)).backlogged) 0xFFFF, backlogged := 0,
        backlogUsed := 0, backlogRead := 0 } ∧ Completed s v h 4 0 ∧
      (s.withdrawn = false → ∃ l, v.outbox = s.outbox ++ l ∧ l.length = (s.str (h % 4096)).backlogged ∧ ∀ m ∈ l, m.take 2 = [0xC2, 0x0A]) := by
  have hcode : s.strCode h (fun st => st == .paused) false = 0 := strCode_of_ok hnames hcmd (by rw [hst]; rfl)
  simp only [State.cmdDrop, hcode, ne_eq, not_true_eq_false, if_false]
  generalize hlog : s.backlogTake (h % 4096) (s.str (h % 4096)).backlogged (s.str (h % 4096)).backlogRead = log
  have hlen : log.1.length = (s.str (h % 4096)).backlogged := by rw [← hlog, backlogTake_length]
  refine Accepts.imp (accepts_completed (x := { s.str (h % 4096) with
      st := .active, fault := false, cntDrop := sat16 ((s.str (h % 4096)).cntDrop + (s.str (h % 4096)).backlogged), backlogged := 0,
      backlogUsed := 0, backlogRead := 0 }) hnames hroom (fun j hj => ?_) ((str_cntStrm _ _ _ _).trans (State.str_setStr_same _ _ _)) rfl
    ?_) fun v ⟨hentry, hdone, hbox⟩ => ⟨hentry.trans ?_, hdone, fun hlive => ?_⟩
  · rw [str_cntStrm, State.str_setStr_ne _ _ hj, str_discard]
  · rw [cntStrm_doneFifo, State.setStr_doneFifo, discard_doneFifo]
  · rw [← hcmd]
    rfl
  · rw [hbox, cntStrm_outbox, State.setStr_outbox, ← hlen]
    exact discard_statuses s _ _ _ hlive
end

/-! ## Zeros over a range of HBM (R290, R369, R390) -/

theorem byte_setByte_of_zero {m : Memory} {a k : Nat} (h : m.byte k = 0) : (m.setByte a 0).byte k = 0 := by
  by_cases hk : k = a
  · exact hk ▸ Sp.get_set_same _ _ _ _
  · exact (Sp.get_set_ne _ _ _ hk).trans h
theorem byte_setByte_same (m : Memory) (a : Nat) : (m.setByte a 0).byte a = 0 := Sp.get_set_same _ _ _ _
theorem Memory.bytes_eq_map (m : Memory) (a n : Nat) : m.bytes a n = (List.range n).map (fun i => m.byte (a + i)) := by
  refine List.ext_getElem? fun i => ?_
  by_cases hi : i < n
  · simp [Memory.bytes_getElem? m a hi, hi]
  · rw [List.getElem?_eq_none (by rw [Memory.bytes_length]; omega), List.getElem?_eq_none (by simp; omega)]

section
variable {s : State}

/-- With every pseudo-channel active each byte lies at its own place. -/
theorem hbmPlace_of_active (h : s.pcsActive = true) (a : Nat) : s.hbmPlace a = a := by
  have hstack : hbmStack a < 4 := Nat.mod_lt _ (by decide)
  have hpc : bits a 14 10 / 16 = 0 ∨ bits a 14 10 / 16 = 1 := by
    have : bits a 14 10 < 32 := Nat.mod_lt _ (by decide)
    omega
  have hregs := List.all_eq_true.mp h (hbmStack a) (List.mem_range.mpr hstack)
  simp only [Bool.and_eq_true, beq_iff_eq] at hregs
  have hword : s.reg (HBM_PC_STATE (hbmStack a) (bits a 14 10 / 16)) = 0 := by
    obtain hpc | hpc := hpc
    · rw [hpc, hregs.1]
    · rw [hpc, hregs.2]
  have hstate : s.pcState (hbmStack a) (bits a 14 10) = 0 := by
    rw [State.pcState, State.fld, hword, bits, Nat.zero_div, Nat.zero_mod]
  simp [State.hbmPlace, hstate]
theorem hbmBytes_eq_map (s : State) (a n : Nat) : s.hbmBytes a n = (List.range n).map (fun i => s.hbm.byte (s.hbmPlace (a + i))) := by
  unfold State.hbmBytes
  split
  next h => simp only [Memory.bytes_eq_map, hbmPlace_of_active h]
  next => rfl

/-- The words that tell of the pseudo-channels are the same. -/
def SamePcs (s t : State) : Prop := ∀ k < 4, ∀ i < 2, t.reg (HBM_PC_STATE k i) = s.reg (HBM_PC_STATE k i)
theorem SamePcs.hbmPlace {t : State} (h : SamePcs s t) (a : Nat) : t.hbmPlace a = s.hbmPlace a := by
  have hpc : bits a 14 10 < 32 := Nat.mod_lt _ (by decide)
  have hword := h (hbmStack a) (Nat.mod_lt _ (by decide)) (bits a 14 10 / 16) (by omega)
  have hstate : t.pcState (hbmStack a) (bits a 14 10) = s.pcState (hbmStack a) (bits a 14 10) := by
    rw [State.pcState, State.fld, hword, ← State.fld, ← State.pcState]
  rw [State.hbmPlace, hstate, ← State.hbmPlace]

theorem byte_hbmByteTo_of_zero {m : Memory} {k : Nat} (a : Nat) (h : m.byte k = 0) : (s.hbmByteTo m a 0).byte k = 0 := by
  unfold State.hbmByteTo
  split
  · exact byte_setByte_of_zero (byte_setByte_of_zero h)
  · exact byte_setByte_of_zero h
theorem byte_hbmByteTo_place (m : Memory) (a : Nat) : (s.hbmByteTo m a 0).byte (s.hbmPlace a) = 0 := by
  unfold State.hbmByteTo
  split
  · exact byte_setByte_of_zero (byte_setByte_same m _)
  · exact byte_setByte_same m _
theorem byte_hbmErase_of_zero {k : Nat} (a n : Nat) (h : s.hbm.byte k = 0) : (s.hbmErase a n).hbm.byte k = 0 := by
  unfold State.hbmErase
  split
  · show Sp.get Memory.zero (Sp.erase s.hbm a n) k = 0
    by_cases hk : a ≤ k ∧ k < a + n
    · exact Sp.get_erase_in _ _ _ _ hk
    · exact (Sp.get_erase_out _ _ _ _ (by omega)).trans h
  · exact List.foldlRecOn (motive := fun m : Memory => m.byte k = 0) _ _ h fun m hm i _ => byte_hbmByteTo_of_zero (a + i) hm
theorem byte_zeroBytes_place {a i : Nat} {js : List Nat} (hi : i ∈ js) (m : Memory) :
    (js.foldl (fun m j => s.hbmByteTo m (a + j) 0) m).byte (s.hbmPlace (a + i)) = 0 := by
  induction js generalizing m with
  | nil => exact absurd hi List.not_mem_nil
  | cons j js ih =>
    by_cases hin : i ∈ js
    · exact ih hin _
    · obtain rfl := (List.mem_cons.mp hi).resolve_right hin
      exact List.foldlRecOn (motive := fun m : Memory => m.byte (s.hbmPlace (a + i)) = 0) js _ (byte_hbmByteTo_place m _) fun m hm k _ =>
        byte_hbmByteTo_of_zero (a + k) hm
theorem byte_hbmErase_place (a : Nat) {n i : Nat} (hi : i < n) : (s.hbmErase a n).hbm.byte (s.hbmPlace (a + i)) = 0 := by
  unfold State.hbmErase
  split
  next h =>
    rw [hbmPlace_of_active h]
    exact Sp.get_erase_in _ _ _ _ (by omega)
  next => exact byte_zeroBytes_place (List.mem_range.mpr hi) s.hbm
theorem hbmErase_regs (a n : Nat) : (s.hbmErase a n).regs = s.regs := by rw [hbmErase_eq]
theorem eraseWheel_eq (i : Nat) : s.eraseWheel i = { s with hbm := (s.eraseWheel i).hbm } := by
  unfold State.eraseWheel
  rw [hbmErase_eq, hbmErase_eq (State.hbmErase _ _ _), hbmErase_eq s]
theorem samePcs_hbmErase (a n : Nat) : SamePcs s (s.hbmErase a n) := fun k _ i _ => by rw [State.reg, hbmErase_regs, State.reg]
@[simp] theorem eraseWheel_regs (i : Nat) : (s.eraseWheel i).regs = s.regs := by rw [eraseWheel_eq]
@[simp] theorem eraseWheel_doneFifo (i : Nat) : (s.eraseWheel i).doneFifo = s.doneFifo := by rw [eraseWheel_eq]
@[simp] theorem str_eraseWheel (i j : Nat) : (s.eraseWheel i).str j = s.str j := by
  rw [eraseWheel_eq]
  rfl
/-- Both slots of an erased wheel read zero (R290). -/
theorem byte_eraseWheel (i : Nat) (slot : Bool) {j : Nat} (hj : j < (s.str i).wsize * 256) :
    (s.eraseWheel i).hbm.byte (s.hbmPlace (s.wheelAddr i slot + j)) = 0 := by
  unfold State.eraseWheel
  refine byte_hbmErase_of_zero _ _ ?_
  cases slot with
  | false => exact byte_hbmErase_of_zero _ _ (byte_hbmErase_place _ hj)
  | true =>
    rw [← (samePcs_hbmErase (s.wheelAddr i false) ((s.str i).wsize * 256)).hbmPlace]
    exact byte_hbmErase_place _ hj
end

/-! ## END and END_ERASE (R290) -/

section
variable (s : State) (i op : Nat)

/-- The stream ends, its bursts discarded, and waits for its step. -/
def State.ending : State := (s.endBursts i).setStr i { (s.endBursts i).str i with st := .ending, cmd := some op, erase := op == 6 }

theorem str_endBursts_same : (s.endBursts i).str i = { s.str i with
    curd := none, held := [], cntDrop := ((s.endBursts i).str i).cntDrop, backlogged := 0, backlogUsed := 0, backlogRead := 0 } := by
  simp only [State.endBursts, str_cntStrm, State.str_setStr_same, str_discard]
theorem str_endBursts_ne {j : Nat} (hj : j ≠ i) : (s.endBursts i).str j = s.str j := by
  simp only [State.endBursts, str_cntStrm, State.str_setStr_ne _ _ hj, str_discard]
@[simp] theorem endBursts_doneFifo : (s.endBursts i).doneFifo = s.doneFifo := by
  simp only [State.endBursts, cntStrm_doneFifo, State.setStr_doneFifo, discard_doneFifo]
@[simp] theorem endBursts_hbm : (s.endBursts i).hbm = s.hbm := by
  simp only [State.endBursts, cntStrm_hbm, State.setStr_hbm, discard_hbm]
theorem reg_endBursts_ne {a : Nat} (h : a ≠ STRM_CNT 6) : (s.endBursts i).reg a = s.reg a := by
  rw [State.endBursts, reg_cntStrm_ne _ _ _ h, State.reg, State.setStr_regs, discard_regs, State.reg]

theorem str_ending_same : (s.ending i op).str i = { s.str i with
    st := .ending, cmd := some op, erase := op == 6, curd := none, held := [], cntDrop := ((s.endBursts i).str i).cntDrop, backlogged := 0,
    backlogUsed := 0, backlogRead := 0 } := by
  rw [State.ending, State.str_setStr_same, str_endBursts_same]
theorem str_ending_ne {j : Nat} (hj : j ≠ i) : (s.ending i op).str j = s.str j := by
  rw [State.ending, State.str_setStr_ne _ _ hj, str_endBursts_ne _ _ hj]
@[simp] theorem ending_doneFifo : (s.ending i op).doneFifo = s.doneFifo := by
  rw [State.ending, State.setStr_doneFifo, endBursts_doneFifo]
@[simp] theorem ending_hbm : (s.ending i op).hbm = s.hbm := by rw [State.ending, State.setStr_hbm, endBursts_hbm]
theorem reg_ending_ne {a : Nat} (h : a ≠ STRM_CNT 6) : (s.ending i op).reg a = s.reg a := by
  rw [State.ending, State.reg, State.setStr_regs, ← State.reg, reg_endBursts_ne s i h]

/-- The state in which the commit record is written, where that is due. -/
def State.recorded : State := if (s.str i).recordDue then s.writeRecord i else s
@[simp] theorem recorded_doneFifo : (s.recorded i).doneFifo = s.doneFifo := by
  unfold State.recorded
  split
  · exact writeRecord_doneFifo s i
  · rfl
@[simp] theorem recorded_regs : (s.recorded i).regs = s.regs := by
  unfold State.recorded
  split
  · exact writeRecord_regs s i
  · rfl
theorem str_recorded_same : (s.recorded i).str i = { s.str i with recordDue := false } := by
  unfold State.recorded
  split
  next => exact str_writeRecord_same s i
  next h => rw [← Bool.eq_false_iff.mpr h]
theorem str_recorded_ne {j : Nat} (hj : j ≠ i) : (s.recorded i).str j = s.str j := by
  unfold State.recorded
  split
  · exact str_writeRecord_ne s hj
  · rfl
theorem freeStream_kept (hrecord : (s.str i).recordDue = false) (herase : (s.str i).erase = false) : s.freeStream i = s.importFails i 0 := by
  simp only [State.freeStream, hrecord, herase, Bool.false_eq_true, if_false, State.importFails]
theorem freeStream_erased (herase : (s.str i).erase = true) : s.freeStream i = ((s.recorded i).eraseWheel i).importFails i 0 := by
  simp only [State.freeStream, herase, if_true, State.importFails, State.recorded]
end

/-- A live stream without buddy ends at once, or after its step. -/
theorem cmdEnd_run {s : State} {h op : Nat} (hnames : s.names h = true) (hcmd : (s.str (h % 4096)).cmd = none)
    (himport : (s.str (h % 4096)).st ≠ .importing) (hreplay : (s.str (h % 4096)).st ≠ .replay) (hmirror : (s.str (h % 4096)).mirror = false) :
    s.cmdEnd h op = (if (s.str (h % 4096)).step.isSome then s.ending (h % 4096) op else (s.ending (h % 4096) op).freeStream (h % 4096), 0) := by
  have hcode : s.strCode h (fun _ => true) true = 0 := strCode_of_ok hnames hcmd rfl
  have hentry := str_endBursts_same s (h % 4096)
  have hst : ((s.endBursts (h % 4096)).str (h % 4096)).st ≠ .replay := by
    rw [hentry]
    exact hreplay
  have hmirror' : ((s.endBursts (h % 4096)).str (h % 4096)).mirror = false := by
    rw [hentry]
    exact hmirror
  have hstep : ((s.endBursts (h % 4096)).str (h % 4096)).step = (s.str (h % 4096)).step := by rw [hentry]
  simp only [State.cmdEnd, hcode, ne_eq, not_true_eq_false, if_false, himport, hst, hmirror', Bool.false_eq_true, hstep, State.ending]

section
variable {s : State} {h : Nat} (hnames : s.names h = true) (hcmd : (s.str (h % 4096)).cmd = none)
  (hmirror : (s.str (h % 4096)).mirror = false)
include hnames hcmd hmirror

theorem cmdEnd_stepping (himport : (s.str (h % 4096)).st ≠ .importing) (hreplay : (s.str (h % 4096)).st ≠ .replay)
    (hstep : (s.str (h % 4096)).step.isSome) : Accepts (h % 4096) s (s.cmdEnd h 5) fun v =>
      (v.str (h % 4096)).st = .ending ∧ (v.str (h % 4096)).cmd = some 5 ∧ (v.str (h % 4096)).held = [] ∧ (v.str (h % 4096)).curd = none ∧
      (v.str (h % 4096)).backlogged = 0 := by
  rw [cmdEnd_run hnames hcmd himport hreplay hmirror, if_pos hstep]
  have hentry := str_ending_same s (h % 4096) 5
  exact ⟨rfl, fun j hj => str_ending_ne _ _ _ hj, by rw [hentry], by rw [hentry], by rw [hentry], by rw [hentry], by rw [hentry]⟩

variable (hroom : s.doneFifo.length < 64) (hst : (s.str (h % 4096)).st = .paused) (hstep : (s.str (h % 4096)).step = none)
include hroom hst hstep

theorem cmdEnd_paused (hrecord : (s.str (h % 4096)).recordDue = false) : Accepts (h % 4096) s (s.cmdEnd h 5) fun v =>
    (v.str (h % 4096)).st = .free ∧ (v.str (h % 4096)).gen = (s.str (h % 4096)).gen ∧ Completed s v h 5 0 ∧ v.hbm = s.hbm := by
  have hentry := str_ending_same s (h % 4096) 5
  have hrun : s.cmdEnd h 5 = ((s.ending (h % 4096) 5).importFails (h % 4096) 0, 0) := by
    rw [cmdEnd_run hnames hcmd (by simp [hst]) (by simp [hst]) hmirror, hstep, freeStream_kept _ _ (by rw [hentry]; exact hrecord)
      (by rw [hentry]; rfl)]
    rfl
  obtain ⟨hfreed, hothers, hdone, hhbm, -⟩ := importFails_frees (op := 5) 0 (by rw [hentry]) (ending_doneFifo s _ _ ▸ hroom)
  have hhandle : (s.ending (h % 4096) 5).handle (h % 4096) = h := by
    rw [State.handle, hentry, ← State.handle, handle_of_names hnames]
  rw [hrun]
  refine ⟨rfl, fun j hj => (hothers j hj).trans (str_ending_ne _ _ _ hj), ?_, ?_, ?_, ?_⟩
  · rw [hfreed]
    rfl
  · rw [hfreed, hentry]
    rfl
  · rw [Completed, hdone, ending_doneFifo, hhandle]
  · rw [hhbm, ending_hbm]
/-- END_ERASE leaves zeros in both slots (R290). -/
theorem cmdEnd_erasing : Accepts (h % 4096) s (s.cmdEnd h 6) fun v =>
    (v.str (h % 4096)).st = .free ∧ Completed s v h 6 0 ∧
    ∀ b slot, (v.answered 0 b).hbmBytes (s.wheelAddr (h % 4096) slot) ((s.str (h % 4096)).wsize * 256) =
      List.replicate ((s.str (h % 4096)).wsize * 256) 0 := by
  have hending := str_ending_same s (h % 4096) 6
  have hrun : s.cmdEnd h 6 = ((((s.ending (h % 4096) 6).recorded (h % 4096)).eraseWheel (h % 4096)).importFails (h % 4096) 0, 0) := by
    rw [cmdEnd_run hnames hcmd (by simp [hst]) (by simp [hst]) hmirror, hstep, freeStream_erased _ _ (by rw [hending]; rfl)]
    rfl
  have hentry := str_recorded_same (s.ending (h % 4096) 6) (h % 4096)
  rw [hending] at hentry
  have hfifo : ((s.ending (h % 4096) 6).recorded (h % 4096)).doneFifo = s.doneFifo := by rw [recorded_doneFifo, ending_doneFifo]
  have hreg {a : Nat} (ha : a ≠ STRM_CNT 6) : ((s.ending (h % 4096) 6).recorded (h % 4096)).reg a = s.reg a := by
    rw [State.reg, recorded_regs, ← State.reg, reg_ending_ne _ _ _ ha]
  have hne {j : Nat} (hj : j ≠ h % 4096) : ((s.ending (h % 4096) 6).recorded (h % 4096)).str j = s.str j := by
    rw [str_recorded_ne _ _ hj, str_ending_ne _ _ _ hj]
  rw [hrun]
  generalize (s.ending (h % 4096) 6).recorded (h % 4096) = u at hentry hfifo hreg hne
  obtain ⟨hfreed, hothers, hdone, hhbm, hregs⟩ := importFails_frees (s := u.eraseWheel (h % 4096)) (i := h % 4096) (op := 6) 0
    (by rw [str_eraseWheel, hentry]) (by rw [eraseWheel_doneFifo, hfifo]; exact hroom)
  have hhandle : (u.eraseWheel (h % 4096)).handle (h % 4096) = h := by
    rw [State.handle, str_eraseWheel, hentry, ← State.handle, handle_of_names hnames]
  refine ⟨rfl, fun j hj => ?_, ?_, ?_, fun b slot => ?_⟩
  · rw [hothers j hj, str_eraseWheel, hne hj]
  · rw [hfreed]
    rfl
  · rw [Completed, hdone, eraseWheel_doneFifo, hfifo, hhandle]
  · have hpcs : SamePcs u (((u.eraseWheel (h % 4096)).importFails (h % 4096) 0).answered 0 b) := fun k hk i hi => by
      have hword : HBM_PC_STATE k i ≠ STRM_CMD_STAT := by
        simp only [HBM_PC_STATE, STRM_CMD_STAT, pg]
        omega
      rw [reg_answered_ne _ _ _ hword, State.reg, hregs, eraseWheel_regs, ← State.reg]
    have haddr : s.wheelAddr (h % 4096) slot = u.wheelAddr (h % 4096) slot := by
      simp only [State.wheelAddr, State.wheelBase, State.fld, hreg (a := WHEEL_BASE_LO) (by decide), hreg (a := WHEEL_BASE_HI) (by decide)]
    have hsize : (u.str (h % 4096)).wsize = (s.str (h % 4096)).wsize := by rw [hentry]
    rw [hbmBytes_eq_map, haddr, ← hsize]
    refine List.eq_replicate_iff.mpr ⟨by simp, fun x hx => ?_⟩
    obtain ⟨j, hj, rfl⟩ := List.mem_map.mp hx
    rw [answered_hbm, hhbm, hpcs.hbmPlace]
    exact byte_eraseWheel _ slot (List.mem_range.mp hj)
end

/-! ## EXPORT (R319, R322) -/

section
variable {s : State} {h : Nat} {key : KeySlot}

@[simp] theorem setKey_strm (slot : Nat) (x : Option KeySlot) : (s.setKey slot x).strm = s.strm := rfl
@[simp] theorem setKey_outbox (slot : Nat) (x : Option KeySlot) : (s.setKey slot x).outbox = s.outbox := rfl
@[simp] theorem setKey_keys (slot : Nat) (x : Option KeySlot) : (s.setKey slot x).keys = Sp.set (fun _ => none) s.keys slot x := rfl
theorem send_eq (m : List Byte) : s.send m = { s with outbox := (s.send m).outbox } := by
  unfold State.send
  split <;> rfl
theorem send_strm (m : List Byte) : (s.send m).strm = s.strm := by rw [send_eq]
theorem cmdExport_paused (hnames : s.names h = true) (hcmd : (s.str (h % 4096)).cmd = none) (hst : (s.str (h % 4096)).st = .paused)
    (hform : s.descForm = false) (hslot : s.descN 4 1 ≤ 7) (hkey : Sp.get (fun _ => none) s.keys (s.descN 4 1) = some key)
    (hctr : key.ctr ≠ 0xFFFFFFFF) : Accepts (h % 4096) s (s.cmdExport h) fun v =>
      v.str (h % 4096) = { s.str (h % 4096) with st := .exporting, cmd := some 7 } ∧
      Sp.get (fun _ => none) v.keys (s.descN 4 1) = some { key with ctr := key.ctr + 1 } ∧
      (s.withdrawn = false → ∃ m, v.outbox = s.outbox ++ [m] ∧ m.take 1 = [0xC3]) := by
  have hcode : s.strCode h (fun st => st == .paused) false = 0 := strCode_of_ok hnames hcmd (by rw [hst]; rfl)
  have hserves : s.keyCode (s.descN 4 1) = 0 := by simp [State.keyCode, Nat.not_lt.mpr hslot, hkey, hctr]
  obtain ⟨m, hm, hrun⟩ : ∃ m, m.take 1 = [0xC3] ∧ s.exportNow (h % 4096) (s.descN 4 1) =
      ((s.send m).setKey (s.descN 4 1) (some { key with ctr := key.ctr + 1 })).setStr (h % 4096)
        { s.str (h % 4096) with st := .exporting } := by
    simp only [State.exportNow, hkey]
    exact ⟨_, rfl, rfl⟩
  have hall : s.cmdExport h = ((s.exportNow (h % 4096) (s.descN 4 1)).setStr (h % 4096)
      { (s.exportNow (h % 4096) (s.descN 4 1)).str (h % 4096) with cmd := some 7 }, 0) := by
    simp [State.cmdExport, hcode, hform, hserves, lowestCode]
  rw [hall, hrun, State.str_setStr_same]
  refine ⟨rfl, fun j hj => ?_, State.str_setStr_same _ _ _, ?_, fun hlive => ⟨m, ?_, hm⟩⟩
  · rw [State.str_setStr_ne _ _ hj, State.str_setStr_ne _ _ hj, State.str, setKey_strm, send_strm, State.str]
  · rw [State.setStr_keys, State.setStr_keys, setKey_keys, Sp.get_set_same]
  · rw [State.setStr_outbox, State.setStr_outbox, setKey_outbox]
    simp [State.send, hlive]
end

/-! ## Messages on the links leave the streams and the stream registers (R486) -/

/-- From s to t only the links, their output and their message numbers differ. -/
def LinksOnly (s t : State) : Prop := t = { s with links := t.links, linkOut := t.linkOut, linkMsgId := t.linkMsgId }

section
variable {s t : State}

theorem LinksOnly.refl (s : State) : LinksOnly s s := rfl
theorem LinksOnly.strm (h : LinksOnly s t) : t.strm = s.strm := by rw [h]
theorem LinksOnly.regs (h : LinksOnly s t) : t.regs = s.regs := by rw [h]
theorem LinksOnly.setLink (h : LinksOnly s t) (p : Nat) (x : LinkPort) : LinksOnly s (t.setLink p x) := by
  rw [LinksOnly, State.setLink, h]
theorem LinksOnly.emit (h : LinksOnly s t) (p seq : Nat) (f : List Byte) : LinksOnly s (t.emit p seq f) := by
  unfold State.emit
  extract_lets x
  split
  next c owed _ =>
    have hset := h.setLink p { x with owed := owed, nak := false }
    rw [LinksOnly, hset]
theorem LinksOnly.pump (h : LinksOnly s t) (p fuel : Nat) : LinksOnly s (t.pump p fuel) := by
  induction fuel generalizing t with
  | zero => exact h
  | succ fuel ih =>
    unfold State.pump
    extract_lets x
    split
    · exact h
    · split
      · exact h
      · exact ih ((h.setLink _ _).emit _ _ _)
theorem LinksOnly.queueFlit (h : LinksOnly s t) (p : Nat) (f : List Byte) : LinksOnly s (t.queueFlit p f) := (h.setLink _ _).pump _ _

/-- A message for a seat: on its route, or discarded and counted (R486). -/
theorem sendSeat_leaves (s : State) (typ dst : Nat) (payload : List Byte) :
    (s.sendSeat typ dst payload).strm = s.strm ∧ ∀ a, a ≠ LNK_DEV_CNT → (s.sendSeat typ dst payload).reg a = s.reg a := by
  unfold State.sendSeat
  extract_lets vc id fs s1
  have hs1 : LinksOnly s s1 := rfl
  split
  next p _ =>
    have hsent : LinksOnly s (fs.foldl (fun u f => u.queueFlit p f) s1) :=
      List.foldlRecOn (motive := LinksOnly s) fs _ hs1 fun u hu f _ => hu.queueFlit p f
    exact ⟨hsent.strm, fun a _ => by rw [State.reg, hsent.regs, State.reg]⟩
  next =>
    refine ⟨?_, fun a ha => ?_⟩
    · rw [State.bump_regs_only]
    · rw [State.bump, State.reg_setFld_ne _ _ _ _ ha, State.reg, hs1.regs, State.reg]
end

/-! ## A stream that is opened (R281, R288, R322) -/

/-- From s to t the entry of stream i differs in its time and its due record at most, and STRM_CMD_HANDLE is the same. -/
structure KeepsEntry (i : Nat) (s t : State) : Prop where
  same : ∃ timer due, t.str i = { s.str i with timer := timer, recordDue := due }
  others : ∀ j, j ≠ i → t.str j = s.str j
  handle : t.reg STRM_CMD_HANDLE = s.reg STRM_CMD_HANDLE

section
variable {i : Nat} {s t u : State}

theorem KeepsEntry.trans (h : KeepsEntry i s t) (h' : KeepsEntry i t u) : KeepsEntry i s u where
  same := by
    obtain ⟨_, _, ht⟩ := h.same
    obtain ⟨timer, due, hu⟩ := h'.same
    exact ⟨timer, due, by rw [hu, ht]⟩
  others j hj := (h'.others j hj).trans (h.others j hj)
  handle := h'.handle.trans h.handle
theorem keepsEntry_hbmWrite (i : Nat) (s : State) (a : Nat) (bs : List Byte) : KeepsEntry i s (s.hbmWrite a bs) where
  same := ⟨_, _, str_hbmWrite s a bs i⟩
  others j _ := str_hbmWrite s a bs j
  handle := by rw [State.reg, hbmWrite_regs, State.reg]
theorem keepsEntry_writeRecord (i : Nat) (s : State) : KeepsEntry i s (s.writeRecord i) where
  same := ⟨_, _, str_writeRecord_same s i⟩
  others _ hj := str_writeRecord_ne s hj
  handle := by rw [State.reg, writeRecord_regs, State.reg]
theorem keepsEntry_sendMirror (i : Nat) (s : State) (slot : Bool) (cseq : Nat) : KeepsEntry i s (s.sendMirror i slot cseq) := by
  obtain ⟨hstrm, hreg⟩ := sendSeat_leaves (s.setStr i { s.str i with timer := s.rclk }) tyMIRROR (s.str i).buddy
    ((s.landed i).mirrorBytes i slot cseq)
  have hsame (j : Nat) : (s.sendMirror i slot cseq).str j = (s.setStr i { s.str i with timer := s.rclk }).str j := by
    rw [State.str, State.str, ← hstrm]
    rfl
  exact ⟨⟨_, _, (hsame i).trans (State.str_setStr_same s i _)⟩, fun j hj => (hsame j).trans (State.str_setStr_ne s _ hj),
    hreg STRM_CMD_HANDLE (by decide)⟩
end

/-- A stream has been opened under a new handle by a command. -/
structure Opened (i : Nat) (st : StrmSt) (op : Nat) (s t : State) : Prop where
  state : (t.str i).st = st
  waits : (t.str i).cmd = some op
  cls : (t.str i).cls = s.descN 4 1
  gen : (t.str i).gen = if (s.str i).gen = 0xFFFFF then 1 else (s.str i).gen + 1
  handle : t.reg STRM_CMD_HANDLE = (t.str i).gen * 4096 + i
  cseq : (t.str i).cseq = 0
  others : ∀ j, j ≠ i → t.str j = s.str j

section
variable {i op : Nat} {st : StrmSt} {s t u : State}

theorem newStream_opened (hi : i < 4096) (hgen : (s.str i).gen ≤ 0xFFFFF) : Opened i st op s (s.newStream i st op) := by
  have hnew : nextGen (s.str i).gen * 4096 + i < 2 ^ 32 := by
    unfold nextGen
    split <;> omega
  have hsame (j v : Nat) (x : Strm) : ((s.setStr i x).setReg STRM_CMD_HANDLE v).str j = (s.setStr i x).str j := rfl
  have hentry (v : Nat) (x : Strm) : ((s.setStr i x).setReg STRM_CMD_HANDLE v).str i = x := (hsame i v x).trans (State.str_setStr_same s i x)
  unfold State.newStream
  refine ⟨congrArg Strm.st (hentry _ _), congrArg Strm.cmd (hentry _ _), congrArg Strm.cls (hentry _ _), congrArg Strm.gen (hentry _ _), ?_,
    congrArg Strm.cseq (hentry _ _), fun j hj => (hsame j _ _).trans (State.str_setStr_ne s _ hj)⟩
  rw [hentry, State.reg_setReg_same]
  exact Nat.mod_eq_of_lt hnew
/-- The rest of the descriptor is kept beside (R284, R288). -/
theorem Opened.describe (h : Opened i st op s t) (key wsize sched init backlog backlogLen : Nat) : Opened i st op s (t.setStr i
    { t.str i with key := key, wsize := wsize, sched := sched, init := init, backlog := backlog, backlogLen := backlogLen }) := by
  generalize hx : ({ t.str i with
    key := key, wsize := wsize, sched := sched, init := init, backlog := backlog, backlogLen := backlogLen } : Strm) = x
  have hsame := State.str_setStr_same t i x
  exact ⟨by rw [hsame, ← hx, h.state], by rw [hsame, ← hx, h.waits], by rw [hsame, ← hx, h.cls], by rw [hsame, ← hx, h.gen],
    by rw [hsame, ← hx, State.reg, State.setStr_regs, ← State.reg, h.handle], by rw [hsame, ← hx, h.cseq],
    fun j hj => (State.str_setStr_ne t x hj).trans (h.others j hj)⟩
theorem Opened.keeps (h : Opened i st op s t) (hkeeps : KeepsEntry i t u) : Opened i st op s u := by
  obtain ⟨timer, due, hsame⟩ := hkeeps.same
  exact ⟨by rw [hsame, h.state], by rw [hsame, h.waits], by rw [hsame, h.cls], by rw [hsame, h.gen], by rw [hsame, hkeeps.handle, h.handle],
    by rw [hsame, h.cseq], fun j hj => (hkeeps.others j hj).trans (h.others j hj)⟩
end

/-- The entry of a stream that starts, with its descriptor (R284, R288). -/
def State.starting (s : State) (i : Nat) : State :=
  (s.newStream i .starting 1).setStr i { (s.newStream i .starting 1).str i with
    key := s.descN 0 4, wsize := s.descN 6 2, sched := s.descN 0x10 8, init := s.descN 0x18 8, backlog := s.descN 0x20 8,
    backlogLen := s.descN 0x28 4 }
/-- The initial wheel written and recorded, and sent to the buddy where there is one. -/
def State.withWheel (s : State) (i a a' : Nat) (header body : List Byte) (mirror : Bool) : State :=
  if mirror then (((s.hbmWrite a header).hbmWrite a' body).writeRecord i).sendMirror i false 0
  else ((s.hbmWrite a header).hbmWrite a' body).writeRecord i
theorem keepsEntry_withWheel (s : State) (i a a' : Nat) (header body : List Byte) (mirror : Bool) :
    KeepsEntry i s (s.withWheel i a a' header body mirror) := by
  have hwritten : KeepsEntry i s (((s.hbmWrite a header).hbmWrite a' body).writeRecord i) :=
    ((keepsEntry_hbmWrite i _ _ _).trans (keepsEntry_hbmWrite i _ _ _)).trans (keepsEntry_writeRecord i _)
  unfold State.withWheel
  split
  · exact hwritten.trans (keepsEntry_sendMirror i _ false 0)
  · exact hwritten

section
variable {s : State} {h : Nat} (hst : (s.str (h % 4096)).st = .free) (hclass : s.classOff = false) (hspace : s.noSpace = false)
  (hgen : (s.str (h % 4096)).gen ≤ 0xFFFFF)
include hst hclass hspace hgen

theorem cmdImport_free (hdesc : s.descBad false = false) :
    Accepts (h % 4096) s (s.cmdImport h) (Opened (h % 4096) .importing 8 s) := by
  have hrun : s.cmdImport h = (s.newStream (h % 4096) .importing 8, 0) := by
    simp [State.cmdImport, hst, hclass, hspace, hdesc, lowestCode]
  have hopen := newStream_opened (op := 8) (st := .importing) (Nat.mod_lt h (by decide)) hgen
  rw [hrun]
  exact ⟨rfl, hopen.others, hopen⟩
theorem cmdStart_free {sc : Sched} (hsched : s.descSched = some sc) (hsize : sc.wsize.toNat = s.descN 6 2) (hdesc : s.descBad true = false) :
    Accepts (h % 4096) s (s.cmdStart h) fun v => Opened (h % 4096) .starting 1 s v ∧ (v.str (h % 4096)).wsize = s.descN 6 2 := by
  have hopen : Opened (h % 4096) .starting 1 s (s.starting (h % 4096)) := (newStream_opened (Nat.mod_lt h (by decide)) hgen).describe _ _ _ _ _ _
  have hwsize : ((s.starting (h % 4096)).str (h % 4096)).wsize = s.descN 6 2 := by rw [State.starting, State.str_setStr_same]
  obtain ⟨a, a', header, body, mirror, hrun⟩ : ∃ a a' header body mirror,
      s.cmdStart h = ((s.starting (h % 4096)).withWheel (h % 4096) a a' header body mirror, 0) := by
    simp only [State.cmdStart]
    rw [if_neg (by simp [hst, hclass, hspace, hsched, hsize, hdesc, lowestCode])]
    exact ⟨_, _, _, _, _, rfl⟩
  have hkeeps := keepsEntry_withWheel (s.starting (h % 4096)) (h % 4096) a a' header body mirror
  obtain ⟨timer, due, hsame⟩ := hkeeps.same
  rw [hrun]
  exact ⟨rfl, (hopen.keeps hkeeps).others, hopen.keeps hkeeps, by rw [hsame, hwsize]⟩
end

/-! ## The commands -/

section
variable {s : State} (h : s.level = 2)
include h

theorem runCommand_export : s.runCommand 7 = s.cmdExport (s.reg STRM_CMD_HANDLE) := if_neg (by omega)
theorem runCommand_import : s.runCommand 8 = s.cmdImport (s.reg STRM_CMD_HANDLE) := if_neg (by omega)
end
/-- An OP that names no command (R287). -/
theorem runCommand_reserved {op : Nat} (s : State) (h : op = 0 ∨ 8 < op) : s.runCommand op = (s, 0x0F) := by
  unfold State.runCommand
  split
  case h_9 => rfl
  all_goals omega

/-- Settles O50: each command in the states that the statement names. That RESUME_DROP sends status 0x0A is log entry 111, and that END_ERASE
writes its zeros in the same step is log entry 67, choices of the model. -/
theorem streamCommandsMoveTheirStream : Obligations.StreamCommandsMoveTheirStream := by
  intro p s htaken h i x ok fresh noSlip
  have hroom : s.doneFifo.length < 64 := htaken.2.2.2.2
  have hfresh {y : Sp Txn} {v : State} {st : StrmSt} {op : Nat} (hopen : Opened i st op (s.withTxns y) v) (b : List SbMsg) :
      fresh (v.answered 0 b) st op :=
    ⟨hopen.state, hopen.waits, hopen.cls, hopen.gen, (reg_answered_ne v 0 b (by decide)).trans hopen.handle⟩
  refine ⟨fun sc hst ⟨hclass, hspace, hgen⟩ hsched hsize hdesc => ?_, fun hlevel hst ⟨hclass, hspace, hgen⟩ hdesc => ?_,
    fun hnames hcmd => ⟨fun hst hstep => ?_, fun hst hstep hheld => ?_, fun hst hlog => ?_, fun hst hlog => ?_, fun hst => ?_,
      fun himport hstep hreplay hmirror => ?_, fun hst hstep hmirror hrecord => ?_, fun hst hstep hmirror => ?_,
      fun key hlevel hst hform hslot hkey hctr => ?_⟩, fun op hop => ?_⟩
  · exact command_accepted htaken (by decide)
      (fun y => cmdStart_free (s := s.withTxns y) hst hclass hspace hgen hsched hsize hdesc) fun y v b ⟨hopen, hwsize⟩ =>
        ⟨hfresh hopen b, hopen.cseq, hwsize⟩
  · exact command_accepted htaken (by decide)
      (fun y => runCommand_import (s := s.withTxns y) hlevel ▸ cmdImport_free (s := s.withTxns y) hst hclass hspace hgen hdesc)
      fun y v b hopen => hfresh hopen b
  · exact command_accepted htaken (by decide) (fun y => cmdPause_stepping (s := s.withTxns y) hnames hcmd hst hstep) fun y v b hv => hv
  · exact command_accepted htaken (by decide) (fun y => cmdPause_idle (s := s.withTxns y) hnames hcmd hroom hst hstep hheld)
      fun y v b hv => hv
  · exact command_accepted htaken (by decide) (fun y => cmdReplay_empty (s := s.withTxns y) hnames hcmd hroom hst hlog) fun y v b hv => hv
  · exact command_accepted htaken (by decide) (fun y => cmdReplay_backlog (s := s.withTxns y) hnames hcmd hst hlog) fun y v b hv => hv
  · exact command_accepted htaken (by decide) (fun y => cmdDrop_paused (s := s.withTxns y) hnames hcmd hroom hst) fun y v b hv => hv
  · exact command_accepted htaken (by decide)
      (fun y => cmdEnd_stepping (s := s.withTxns y) hnames hcmd hmirror himport hreplay hstep) fun y v b hv => hv
  · exact command_accepted htaken (by decide) (fun y => cmdEnd_paused (s := s.withTxns y) hnames hcmd hmirror hroom hst hstep hrecord)
      fun y v b hv => hv
  · exact command_accepted htaken (by decide) (fun y => cmdEnd_erasing (s := s.withTxns y) hnames hcmd hmirror hroom hst hstep)
      fun y v b ⟨hfree, hdone, hzeros⟩ => ⟨hfree, hdone, hzeros b⟩
  · exact command_accepted htaken (by decide)
      (fun y => runCommand_export (s := s.withTxns y) hlevel ▸ cmdExport_paused (s := s.withTxns y) hnames hcmd hst hform hslot hkey hctr)
      fun y v b hv => hv
  · refine command_next htaken op.isLt fun y b => ?_
    rw [runCommand_reserved _ hop]
    exact ⟨fld_answered _ 0x0F b (by decide), rfl, rfl, rfl⟩

end Sys2Proof.Machine
end

-- ==== Completions of stream commands: O51 ====
section
/-! SUPPORT. What completes a stream's command, and registers that act (R283, R286, R287, R323, R325, R326). In order: the vat copy of a wheel; a
written wheel and a sent image; an IMPORT without its image; the registers. -/

namespace Sys2Proof.Machine

open Sys2Proof.Claims

/-! ## The vat copy of a wheel (R294) -/

/-- From s to t the streams differ in whether their copies are warm at most, and the completions are the same. -/
structure WarmOnly (s t : State) : Prop where
  entry : ∀ j, ∃ warm, t.str j = { s.str j with warm := warm }
  doneFifo : t.doneFifo = s.doneFifo

section
variable {s t : State}

theorem WarmOnly.refl (s : State) : WarmOnly s s := ⟨fun _ => ⟨_, rfl⟩, rfl⟩
theorem WarmOnly.of_same {u : State} (h : WarmOnly s t) (hstrm : u.strm = t.strm) (hfifo : u.doneFifo = t.doneFifo) : WarmOnly s u where
  entry j := by
    rw [State.str, hstrm, ← State.str]
    exact h.entry j
  doneFifo := hfifo.trans h.doneFifo
theorem WarmOnly.setWarm (h : WarmOnly s t) (i : Nat) (b : Bool) : WarmOnly s (t.setStr i { t.str i with warm := b }) where
  entry j := by
    obtain ⟨warm, hj⟩ := h.entry j
    by_cases heq : j = i
    · subst heq
      exact ⟨b, by rw [State.str_setStr_same, hj]⟩
    · exact ⟨warm, by rw [State.str_setStr_ne _ _ heq, hj]⟩
  doneFifo := by rw [State.setStr_doneFifo, h.doneFifo]
theorem coolBuf_warmOnly (s : State) (b : Nat) : WarmOnly s (s.coolBuf b) :=
  List.foldlRecOn (motive := WarmOnly s) s.strIdx _ (.refl s) fun u hu i _ => by
    split
    · exact hu.setWarm i false
    · exact hu
theorem copyWheel_warmOnly (s : State) (i : Nat) : WarmOnly s (s.copyWheel i) := by
  unfold State.copyWheel
  extract_lets x
  split
  next h _ _ =>
    extract_lets s1
    have hput : WarmOnly s s1 := (coolBuf_warmOnly s h.toNat).of_same rfl rfl
    exact hput.setWarm i true
  next => exact .refl s

/-- A wheel that has been written lies in the vat too where it is resident, takes its stream to a state and completes its command. -/
theorem wheelWritten_completes {i op : Nat} (st : StrmSt) (hcmd : (s.str i).cmd = some op) (hroom : s.doneFifo.length < 64) :
    let t := ((s.copyWheel i).setStr i { (s.copyWheel i).str i with st := st }).completeCmd i 0
    (t.str i).st = st ∧ (t.str i).cmd = none ∧ Completed s t (s.handle i) op 0 := by
  obtain ⟨hentry, hfifo⟩ := copyWheel_warmOnly s i
  obtain ⟨warm, hwarm⟩ := hentry i
  generalize s.copyWheel i = u at hfifo hwarm
  have hsame := State.str_setStr_same u i { u.str i with st := st }
  obtain ⟨b, hdone⟩ := completeCmd_of_room (s := u.setStr i { u.str i with st := st }) (i := i) 0 (by rw [hsame, hwarm]; exact hcmd)
    (by rw [State.setStr_doneFifo, hfifo]; exact hroom)
  have hhandle : (u.setStr i { u.str i with st := st }).handle i = s.handle i := by rw [State.handle, hsame, hwarm, ← State.handle]
  simp only [hdone, Completed, str_withMsgs, str_completed_same, hsame, withMsgs_doneFifo, completed_doneFifo, State.setStr_doneFifo, hfifo,
    hhandle, and_self]
end

/-! ## What completes a command (R283, R286, R287, R323) -/

section
variable {s : State} {i : BitVec 12} {op : Nat} (hroom : s.doneFifo.length < 64) (hcmd : (s.str i.toNat).cmd = some op)
include hroom hcmd

theorem startWheelWritten_completes (hst : (s.str i.toNat).st = .starting) (hmirror : (s.str i.toNat).mirror = false) :
    Next (exec (.startWheelWritten i true) s) fun t =>
      (t.str i.toNat).st = .active ∧ (t.str i.toNat).cmd = none ∧ Completed s t (s.handle i.toNat) op 0 := by
  refine ⟨_, ?_, wheelWritten_completes .active hcmd hroom⟩
  show execStartWheelWritten i true s = _
  simp [execStartWheelWritten, hst, hmirror]
theorem importWheelWritten_completes (hst : (s.str i.toNat).st = .importing) (himage : (s.str i.toNat).image = true)
    (hmirror : (s.str i.toNat).mirror = false) : Next (exec (.importWheelWritten i true) s) fun t =>
      (t.str i.toNat).st = .paused ∧ (t.str i.toNat).cmd = none ∧ Completed s t (s.handle i.toNat) op 0 := by
  refine ⟨_, ?_, wheelWritten_completes .paused hcmd hroom⟩
  show execImportWheelWritten i true s = _
  simp [execImportWheelWritten, hst, himage, hmirror]
theorem exportComplete_completes (hst : (s.str i.toNat).st = .exporting) : Next (exec (.exportComplete i) s) fun t =>
    t.str i.toNat = { s.str i.toNat with st := .exported, cmd := none } ∧ Completed s t (s.handle i.toNat) op 0 := by
  have hrun : exec (.exportComplete i) s = .next ((s.setStr i.toNat { s.str i.toNat with st := .exported }).completeCmd i.toNat 0) := by
    show execExportComplete i s = _
    simp [execExportComplete, hst]
  have hsame := State.str_setStr_same s i.toNat { s.str i.toNat with st := .exported }
  obtain ⟨b, hdone⟩ := completeCmd_of_room (s := s.setStr i.toNat { s.str i.toNat with st := .exported }) (i := i.toNat) 0
    (by rw [hsame]; exact hcmd) (by rw [State.setStr_doneFifo]; exact hroom)
  have hhandle : (s.setStr i.toNat { s.str i.toNat with st := .exported }).handle i.toNat = s.handle i.toNat := by
    rw [State.handle, hsame, ← State.handle]
  refine ⟨_, hrun, ?_, ?_⟩
  · rw [hdone, str_withMsgs, str_completed_same, hsame]
  · rw [Completed, hdone, withMsgs_doneFifo, completed_doneFifo, State.setStr_doneFifo, hhandle]
end

/-! ## An IMPORT without its image (R287, R323) -/

section
variable {s : State} {i : Nat}

/-- A curd that is discarded as incomplete leaves what the completion of its stream's command reads. -/
theorem dropCurd_leaves {b : Burst} (hcurd : (s.str i).curd = some b) : ((s.dropCurd i 1).str i).cmd = (s.str i).cmd ∧
    ((s.dropCurd i 1).str i).gen = (s.str i).gen ∧ (s.dropCurd i 1).doneFifo = s.doneFifo := by
  obtain ⟨hentry, -, -, hrest⟩ := dropCurd_incomplete hcurd
  exact ⟨by rw [hentry], by rw [hentry], by rw [hrest]⟩
theorem importFails_completes {op : Nat} (code : Nat) (hroom : s.doneFifo.length < 64) (hcmd : (s.str i).cmd = some op) :
    let t := s.importFails i code
    (t.str i).st = .free ∧ (t.str i).gen = (s.str i).gen ∧ Completed s t (s.handle i) op code := by
  obtain ⟨hfreed, -, hdone, -, -⟩ := importFails_frees code hcmd hroom
  refine ⟨?_, ?_, hdone⟩
  · rw [hfreed]
    rfl
  · rw [hfreed]
    rfl
end

theorem importIncomplete_completes {s : State} {i : BitVec 12} {op : Nat} (hroom : s.doneFifo.length < 64)
    (hcmd : (s.str i.toNat).cmd = some op) (hst : (s.str i.toNat).st = .importing) (himage : (s.str i.toNat).image = false)
    (hlate : (s.str i.toNat).timer + 960000 ≤ s.rclk) : Next (exec (.importIncomplete i) s) fun t =>
      (t.str i.toNat).st = .free ∧ (t.str i.toNat).gen = (s.str i.toNat).gen ∧ Completed s t (s.handle i.toNat) op 0x0D := by
  have hrun : exec (.importIncomplete i) s =
      .next (if (s.str i.toNat).curd.isSome then s.loseCurd i.toNat 1 else s.importFails i.toNat 0x0D) := by
    show execImportIncomplete i s = _
    simp [execImportIncomplete, hst, himage, importWait, Nat.not_lt.mpr hlate]
  refine ⟨_, hrun, ?_⟩
  split
  next hsome =>
    obtain ⟨b, hcurd⟩ := Option.isSome_iff_exists.mp hsome
    obtain ⟨hcmd', hgen, hfifo⟩ := dropCurd_leaves hcurd
    have hhandle : (s.dropCurd i.toNat 1).handle i.toNat = s.handle i.toNat := by rw [State.handle, hgen, ← State.handle]
    obtain ⟨hfree, hgen', hdone⟩ := importFails_completes (s := s.dropCurd i.toNat 1) 0x0D (hfifo.symm ▸ hroom) (hcmd'.trans hcmd)
    rw [State.loseCurd, if_pos hst]
    exact ⟨hfree, hgen'.trans hgen, by rw [Completed, hdone, hfifo, hhandle]⟩
  next => exact importFails_completes 0x0D hroom hcmd

/-! ## Registers that act (R325, R326) -/

/-- The state with other completion records. -/
def State.withDone (s : State) (l : List DoneRec) : State := { s with doneFifo := l }

section
variable {s : State} {p : Port}

/-- The oldest record leaves the FIFO, where no completion is held for its place. -/
theorem popDone_of_none_held (hheld : s.doneHeld = []) : s.popDone = s.withLine 0x1A0 (s.withDone (s.doneFifo.drop 1)) := by
  unfold State.popDone
  split
  next => rfl
  next r rest h => exact absurd (hheld.symm.trans h) (by simp)

theorem strmDoneHi_takes (hopen : PortOpen p STRM_DONE_HI s) (hheld : s.doneHeld = []) :
    Next (exec (.strmDoneHi p) s) fun t => t.doneFifo = s.doneFifo.drop 1 ∧
      t = { s with doneFifo := t.doneFifo, txns := t.txns, sideband := t.sideband } := by
  obtain ⟨hseal, -, hon⟩ := hopen
  obtain ⟨x, hx⟩ := touch_eq_withTxns s p
  obtain ⟨b, hb⟩ := withLine_eq_withMsgs (s.withTxns x) 0x1A0 ((s.withTxns x).withDone (s.doneFifo.drop 1))
  have hon' : s.pageOn 0x1A0 = true := hon
  have hreach : ¬(p = .jtag ∧ (!s.rbit DEV_SEAL 1) = true) := fun hp => by simp [hseal hp.1] at hp
  have hpop : (s.withTxns x).popDone = ((s.withTxns x).withDone (s.doneFifo.drop 1)).withMsgs b :=
    (popDone_of_none_held (s := s.withTxns x) hheld).trans hb
  have hrun : exec (.strmDoneHi p) s = .next (((s.withTxns x).withDone (s.doneFifo.drop 1)).withMsgs b) := by
    show execStrmDoneHi p s = _
    rw [execStrmDoneHi, if_neg hreach, if_pos hon', hx, hpop]
  exact ⟨_, hrun, rfl, by simp only [State.withMsgs, State.withDone, State.withTxns]⟩

theorem regSpec_viewSel : regSpec STRM_VIEW_SEL = { rw := msk 11 0 } := by decide
theorem regSpec_viewClr : regSpec (pg 0x1A4 0x044) = { wo := 1 } := by decide
/-- The reserved bits of STRM_VIEW_SEL lie above a stream index. -/
theorem viewSel_reserved {w : Nat} (hw : w < 4096) : w &&& (regAll - (RegSpec.named { rw := msk 11 0 })) = 0 := by
  have hmask : regAll - (RegSpec.named { rw := msk 11 0 }) = 2 ^ 12 * 0xFFFFF := by decide
  refine Nat.eq_of_testBit_eq fun k => ?_
  rw [hmask, Nat.testBit_and, Nat.testBit_two_pow_mul, Nat.zero_testBit]
  by_cases hk : k < 12
  · simp [Nat.not_le.mpr hk]
  · have hlow : w < 2 ^ k := hw.trans_le (Nat.pow_le_pow_right Nat.two_pos (Nat.le_of_not_lt hk))
    simp [Nat.testBit_lt_two_pow hlow]
theorem bits_viewSel (v : Nat) {w : Nat} (hw : w < 4096) :
    bits ((v - (v &&& msk 11 0) + (w &&& msk 11 0)) % 2 ^ 32) 11 0 = w := by
  have hmask : msk 11 0 = 2 ^ 12 - 1 := by decide
  rw [hmask, Nat.and_two_pow_sub_one_eq_mod, Nat.and_two_pow_sub_one_eq_mod]
  unfold bits
  omega

theorem strmViewSel_selects {w : Word} (hw : w.toNat < 4096) (hopen : PortOpen p STRM_VIEW_SEL s) :
    Next (exec (.strmViewSel p w) s) fun t => t.fld STRM_VIEW_SEL 11 0 = w.toNat ∧ (∀ a, a ≠ STRM_VIEW_SEL → t.reg a = s.reg a) ∧
      t = { s with regs := t.regs, txns := t.txns, sideband := t.sideband } := by
  obtain ⟨x, b, hwrite⟩ := hostWrite_of_open (w := w.toNat) id hopen
  have hspec : (s.withTxns x).spec STRM_VIEW_SEL = { rw := msk 11 0 } :=
    (spec_of_shown (kind := 0x44) hopen.2.1 (by decide) (by decide)).trans regSpec_viewSel
  rw [writeHead_of_rw (by rw [hspec]; exact viewSel_reserved hw) (by rw [hspec]) (by rw [hspec]; decide) (by rw [hspec]), hspec] at hwrite
  generalize hv : (s.withTxns x).reg STRM_VIEW_SEL - _ + _ = v at hwrite
  have hspec' : ((s.withTxns x).setReg STRM_VIEW_SEL v).spec STRM_VIEW_SEL = { rw := msk 11 0 } := by
    refine (spec_of_shown (kind := 0x44) (Eq.trans ?_ hopen.2.1) (by decide) (by decide)).trans regSpec_viewSel
    have hlevel : ((s.withTxns x).setReg STRM_VIEW_SEL v).level = s.level := by
      rw [State.level, State.fld, State.reg_setReg_ne _ _ (by decide)]
      rfl
    rw [State.pageShown, hlevel, ← State.pageShown]
  rw [writeClear_of_w1c (by rw [hspec'])] at hwrite
  refine ⟨_, congrArg Host.Outcome.next hwrite, ?_, fun a ha => State.reg_setReg_ne (s.withTxns x) v ha,
    by simp only [id, State.withMsgs, State.withTxns, State.setReg]⟩
  show bits (((s.withTxns x).setReg STRM_VIEW_SEL v).reg STRM_VIEW_SEL) 11 0 = w.toNat
  rw [State.reg_setReg_same, ← hv, bits_viewSel _ hw]
theorem strmViewClr_clears (hopen : PortOpen p (pg 0x1A4 0x044) s) : Next (exec (.strmViewClr p 1) s) fun t =>
    t.str (s.fld STRM_VIEW_SEL 11 0) = { s.str (s.fld STRM_VIEW_SEL 11 0) with
      cntWhey := 0, cntIncomplete := 0, cntOverrun := 0, cntRerun := 0, cntDrop := 0 } ∧
    (∀ j, j ≠ s.fld STRM_VIEW_SEL 11 0 → t.str j = s.str j) ∧
    t = { s with strm := t.strm, txns := t.txns, sideband := t.sideband } := by
  obtain ⟨x, b, hwrite⟩ := hostWrite_of_acting (w := 1) (fun t => t.viewClr 1) hopen regSpec_viewClr (kind := 0x44) (by decide) (by decide)
    (by decide) (by decide)
  have hclear : (s.withTxns x).viewClr 1 = (s.setStr (s.fld STRM_VIEW_SEL 11 0) { s.str (s.fld STRM_VIEW_SEL 11 0) with
      cntWhey := 0, cntIncomplete := 0, cntOverrun := 0, cntRerun := 0, cntDrop := 0 }).withTxns x := rfl
  rw [hclear] at hwrite
  refine ⟨_, congrArg Host.Outcome.next hwrite, ?_, fun j hj => ?_, by simp only [State.withMsgs, State.withTxns, State.setStr]⟩
  · rw [str_withMsgs, str_withTxns, State.str_setStr_same]
  · rw [str_withMsgs, str_withTxns, State.str_setStr_ne _ _ hj]
end

/-- Settles O51: what completes a command, by the state of its stream, and the three registers that act. -/
theorem streamCompletions : Obligations.StreamCompletions := by
  intro i p s k x sel
  exact ⟨fun op hroom hcmd => ⟨startWheelWritten_completes hroom hcmd, exportComplete_completes hroom hcmd,
      importWheelWritten_completes hroom hcmd, importIncomplete_completes hroom hcmd⟩,
    strmDoneHi_takes, fun w => strmViewSel_selects, strmViewClr_clears⟩

end Sys2Proof.Machine
end

-- ==== The queue, idling and reset: O1, O2, O3 ====
section
/-! SUPPORT. A step of the block beside the commands (R568, R600, R307, R624): the map of a sparse map's values, the trace stream while
nothing is traced, and the engines that hold no work. -/

namespace Sys2Proof.Machine

open Sys2Proof.Claims

/-- A map whose values have all been changed alike, where the change leaves what unlisted keys read as. -/
theorem Sp.get_map_values {α : Type} {d : Nat → α} {f : α → α} (hd : ∀ k, f (d k) = d k) (m : Sp α) (k : Nat) :
    Sp.get d (m.map (fun p => (p.1, f p.2))) k = f (Sp.get d m k) := by
  induction m with
  | nil => exact (hd k).symm
  | cons p m ih =>
    simp only [List.map_cons, Sp.get, ih]
    exact (apply_ite f _ _ _).symm

theorem traceTick_of_untraced {s : State} (h : s.traced = none ∨ s.traceBumps = []) : s.traceTick = s.trace := by
  refine if_pos ?_
  rcases h with h | h
  · exact .inr (.inl (by rw [h]; rfl))
  · exact .inl h

/-- Engines that hold no work do nothing while an rclk passes. -/
theorem tickEngines_of_no_work {s : State} (h : ∀ n : Fin 50, s.jobsOf n.val = [] ∧ s.gates n.val = []) : s.tickEngines = s := by
  unfold State.tickEngines
  refine List.foldlRecOn (motive := fun t => t = s) _ _ rfl fun t ht n hn => ?_
  rw [ht, if_pos (h ⟨n, List.mem_range.mp hn⟩)]

/-- Settles O1: the front command runs on the state with the queue's rest, by the definition of a step. -/
theorem stepRunsTheFrontCommand : Obligations.StepRunsTheFrontCommand := fun _ _ _ => rfl

/-- Settles O2: an empty queue lets one rclk pass; each timer is read through the map that lowers them all. -/
theorem idleStepPassesOneRclk : Obligations.IdleStepPassesOneRclk := by
  intro s hpending
  have hidle := @tickEngines_of_no_work s
  have hstep : step s = .next { s.tickEngines.tickLeases.tickCurds with rclk := s.rclk + 1, trace := s.traceTick } := by
    rw [step, hpending, State.tick]
  rw [hstep]
  generalize s.tickEngines = u at hidle ⊢
  refine ⟨_, rfl, rfl, rfl, fun k => ?_, fun i => ?_, traceTick_of_untraced, hidle⟩
  · exact Sp.get_map_values (f := fun x : Txn => if x.st = 1 then { x with lease := x.lease - 1 } else x) (fun _ => rfl) _ k
  · exact Sp.get_map_values (f := fun x : Strm => { x with curd := x.curd.map (fun b => { b with timer := b.timer - 1 }) })
      (fun _ => rfl) _ i

/-- Settles O3: the state after reset lists no byte of any memory and no command. -/
theorem resetMemoriesAreCanonical : Obligations.ResetMemoriesAreCanonical := ⟨rfl, rfl, fun _ => ⟨rfl, rfl, rfl⟩⟩

end Sys2Proof.Machine
end

-- ==== The scalar slot: O5 to O9 ====
section
/-! SUPPORT. The operations of the scalar slot (R401, R406, R435, R436). In order: what the issue of a bundle does to the pending
instruction stores; what a write of one register leaves; register and immediate operations; the checks of a load or store; numbers
modulo 2^64; the statements. -/

namespace Sys2Proof.Machine

open Sys2Proof.Claims

/-! ## Pending instruction stores as a bundle issues (R406) -/

/-- The pending stores of a folio, counted for one more bundle of context c. -/
def State.countedStores (s : State) (n c : Nat) : List IStore :=
  (Sp.get (fun _ => []) s.istores n).map (fun p => if p.ctx = c then { p with left := p.left - 1 } else p)

theorem foldl_storeBundle_imem (n : Nat) (ps : List IStore) (s : State) :
    (ps.foldl (fun s p => s.storeBundle n p) s).imem =
      ps.foldl (fun m p => m.store (131072 * n + 16 * p.index.toNat) 16 p.bundle.toNat) s.imem := by
  induction ps generalizing s with
  | nil => rfl
  | cons p ps ih => exact ih _
theorem foldl_storeBundle_istores (n : Nat) (ps : List IStore) (s : State) :
    (ps.foldl (fun s p => s.storeBundle n p) s).istores = s.istores := by
  induction ps generalizing s with
  | nil => rfl
  | cons p ps ih => exact ih _
theorem foldl_storeBundle_bad (n : Nat) (ps : List IStore) {s : State} (h : s.bad = []) :
    (ps.foldl (fun s p => s.storeBundle n p) s).bad = [] := by
  induction ps generalizing s with
  | nil => exact h
  | cons p ps ih =>
    refine ih (s := s.storeBundle n p) ?_
    show cured s.bad 2 _ _ = []
    rw [h]
    rfl

theorem advance_istores (s : State) (n c : Nat) :
    (s.advance n c).istores = Sp.set (fun _ => []) s.istores n ((s.countedStores n c).filter (fun p => p.left != 0)) :=
  foldl_storeBundle_istores n _ _
theorem advance_imem (s : State) (n c : Nat) :
    (s.advance n c).imem = ((s.countedStores n c).filter (fun p => p.left == 0)).foldl
      (fun m p => m.store (131072 * n + 16 * p.index.toNat) 16 p.bundle.toNat) s.imem := foldl_storeBundle_imem n _ _
theorem advance_bad {s : State} (h : s.bad = []) (n c : Nat) : (s.advance n c).bad = [] := foldl_storeBundle_bad n _ h
theorem advance_trace (s : State) (n c : Nat) (h : s.traced ≠ some n ∨ s.traceBumps = []) : (s.advance n c).trace = s.trace :=
  if_pos h

/-- Settles O5: a NOP that issues does what every bundle does as it issues, and one with a bit set traps. -/
theorem nopOnlyAdvances : Obligations.NopOnlyAdvances := by
  intro a s
  refine ⟨fun hready => ⟨scalar_runs (op := opNop) (w := 0) hready ⟨rfl, rfl⟩, advance_ctx_same s _ _, fun m k hne => ?_, ?_, fun m hm => ?_,
    advance_imem s _ _, advance_trace s _ _, ?_⟩, fun w hw hmay => ?_⟩
  · exact advance_ctx_ne s (by omega)
  · exact (congrArg (Sp.get _ · _) (advance_istores s _ _)).trans (Sp.get_set_same _ _ _ _)
  · exact (congrArg (Sp.get _ · m) (advance_istores s _ _)).trans (Sp.get_set_ne _ _ _ hm)
  · have hbad : (s.advance a.folio.val a.ctx.val).bad = s.bad := by rw [advance_bad hready.2.2.1, hready.2.2.1]
    conv_lhs => rw [advance_only, hbad]
  · have hw' : w.toNat ≠ 0 := fun h => hw (BitVec.eq_of_toNat_eq h)
    exact issue_traps (op := opNop _ _ w.toNat) none false hmay (by simp [opNop, lowestTrap, FLD_RESERVED, hw'])

/-! ## What a write of one register leaves -/

theorem onlyS_setSr (s : State) {n c r : Nat} (v : Nat) (hc : c < 4) (hr : r < 32) : OnlyS n c [r] s (s.setSr n c r v) :=
  ⟨rfl, fun m k q hne => State.sr_setSr_ne s v (by
    have := k.isLt
    have := q.isLt
    simp only [List.mem_singleton] at hne
    omega)⟩
theorem onlyS_setSr_pair (s : State) {n c r : Nat} (v w : Nat) (hc : c < 4) (hr : r + 1 < 32) :
    OnlyS n c [r, r + 1] s ((s.setSr n c r v).setSr n c (r + 1) w) :=
  ⟨rfl, fun m k q hne => by
    have := k.isLt
    have := q.isLt
    simp only [List.mem_cons, List.not_mem_nil, or_false] at hne
    rw [State.sr_setSr_ne _ _ (by omega), State.sr_setSr_ne _ _ (by omega)]⟩
theorem onlyA_setAr (s : State) {n c r : Nat} (v : Nat) (hc : c < 4) (hr : r < 16) : OnlyA n c r s (s.setAr n c r v) :=
  ⟨rfl, fun m k q hne => State.ar_setAr_ne s v (by
    have := k.isLt
    have := q.isLt
    omega)⟩
theorem onlyLc_setLcr (s : State) {n c r : Nat} (v : Nat) (hc : c < 4) (hr : r < 4) : OnlyLc n c r s (s.setLcr n c r v) :=
  ⟨rfl, fun m k q hne => State.lcr_setLcr_ne s v (by
    have := k.isLt
    have := q.isLt
    omega)⟩

theorem sr_lt (s : State) (n c r : Nat) : s.sr n c r < 2 ^ 32 := (Sp.get _ s.sreg _).isLt
theorem ar_lt (s : State) (n c r : Nat) : s.ar n c r < 2 ^ 64 := (Sp.get _ s.areg _).isLt
theorem srPair_lt (s : State) (n c r : Nat) : s.srPair n c r < 2 ^ 64 := by
  have hlow := sr_lt s n c r
  have hhigh := sr_lt s n c (r + 1)
  rw [State.srPair]
  omega
theorem fRD_lt (w : Nat) : fRD w < 32 := Nat.mod_lt _ (by decide)
/-- A pair of registers holds a 64-bit value, the low word first. -/
theorem srPair_setSr_pair (s : State) {n c r v : Nat} (hv : v < 2 ^ 64) :
    let t := (s.setSr n c r v).setSr n c (r + 1) (v / 2 ^ 32)
    t.sr n c r + t.sr n c (r + 1) * 2 ^ 32 = v := by
  intro t
  have hlow : t.sr n c r = v % 2 ^ 32 := by rw [State.sr_setSr_ne _ _ (by omega), State.sr_setSr_same]
  have hhigh : t.sr n c (r + 1) = v / 2 ^ 32 % 2 ^ 32 := State.sr_setSr_same _ _ _ _ _
  rw [hlow, hhigh]
  omega

section
variable {a : Issue} {w : BitVec 26} {s : State}

/-- A slot that checks only its reserved bits, and passes. -/
theorem clear_single {b : Bool} {k : Nat} {run : State → State} (h : b = false) : SlotOp.clear ⟨[(b, k)], none, run⟩ := by
  subst h
  exact ⟨rfl, rfl⟩

/-! ## Register and immediate operations (R435) -/

theorem setsRD_of_run {op : Nat → Nat → Nat → State → SlotOp} {v : Word} (h : ready a s)
    (hclear : (op a.folio.val a.ctx.val w.toNat s).clear)
    (hrun : ∀ t, (op a.folio.val a.ctx.val w.toNat s).run t = t.setSr a.folio.val a.ctx.val (fRD w.toNat) v.toNat) :
    SetsRD a w s v (scalar op a w s) := by
  refine ⟨_, scalar_runs h hclear, ?_, ?_⟩ <;> rw [hrun]
  · rw [State.sr_setSr_same, Nat.mod_eq_of_lt v.isLt]
  · exact onlyS_setSr _ _ a.ctx.isLt (fRD_lt _)
theorem setsRD_opAlu (f : Word → Word → Word) (h : ready a s) (hw : bits w.toNat 10 0 = 0) :
    SetsRD a w s (f (sa a w s) (sb a w s)) (scalar (opAlu f) a w s) :=
  setsRD_of_run h (clear_single (by simp [hw])) fun _ => rfl
theorem setsRD_opImm (f : Word → Nat → Word) (h : ready a s) : SetsRD a w s (f (sa a w s) (fIMM w.toNat)) (scalar (opImm f) a w s) :=
  setsRD_of_run h ⟨rfl, rfl⟩ fun _ => rfl
/-- A shift by an immediate below 32, which takes its count modulo 32. -/
theorem setsRD_opShImm (f : Word → Nat → Word) (h : ready a s) (hw : fIMM w.toNat < 32) :
    SetsRD a w s (f (sa a w s) (fIMM w.toNat)) (scalar (opShImm fun x k => f x (k % 32)) a w s) := by
  have hmod : f (sa a w s) (fIMM w.toNat % 32) = f (sa a w s) (fIMM w.toNat) := by rw [Nat.mod_eq_of_lt hw]
  rw [← hmod]
  exact setsRD_of_run h (clear_single (by simp only [bits, fIMM] at hw ⊢; rw [bne_eq_false_iff_eq]; omega)) fun _ => rfl

/-- Settles O6: each operation is one of the three layouts with its function of the operands. -/
theorem scalarOperations : Obligations.ScalarOperations := by
  intro a w s h
  refine ⟨fun hw => ⟨setsRD_opAlu _ h hw, setsRD_opAlu _ h hw, setsRD_opAlu _ h hw, setsRD_opAlu _ h hw, setsRD_opAlu _ h hw,
      setsRD_opAlu _ h hw, setsRD_opAlu _ h hw, setsRD_opAlu _ h hw, setsRD_opAlu _ h hw, ?_, ?_⟩,
    setsRD_opImm _ h, setsRD_opImm _ h, setsRD_opImm _ h, fun hra => ?_, fun himm => ⟨?_, ?_, ?_⟩⟩
  · simp only [← BitVec.slt_iff_toInt_lt]
    exact setsRD_opAlu _ h hw
  · simp only [← BitVec.ult_iff_toNat_lt]
    exact setsRD_opAlu _ h hw
  · refine setsRD_of_run (op := opLui) h (clear_single (by simp [hra])) fun t => ?_
    have himm : fIMM w.toNat < 2 ^ 16 := Nat.mod_lt _ (by decide)
    have hval : (BitVec.ofNat 32 (fIMM w.toNat * 65536)).toNat = fIMM w.toNat * 2 ^ 16 := by
      exact (BitVec.toNat_ofNat _ _).trans (Nat.mod_eq_of_lt (by omega))
    rw [hval]
    rfl
  · exact setsRD_opShImm (h := h) (hw := himm) fun x k => x <<< k
  · exact setsRD_opShImm (h := h) (hw := himm) fun x k => x >>> k
  · exact setsRD_opShImm (h := h) (hw := himm) fun x k => x.sshiftRight k

/-! ## Loads and stores (R334, R335, R432, R436) -/

theorem smTraps_clear {k : Nat} (h : AccessOk a w k s) : lowestTrap (smTraps a.folio.val a.ctx.val w.toNat k s) = none := by
  obtain ⟨hform, halign, hlow, hhigh, hdark⟩ := h
  have haddr : addrOf (s.ar a.folio.val a.ctx.val (fAB w.toNat)) = s.ar a.folio.val a.ctx.val (fAB w.toNat) := by
    simp only [addrOf, bits]
    omega
  have hout : s.fmOut a.folio.val a.ctx.val (smAddr a.folio.val a.ctx.val w.toNat s)
      (smAddr a.folio.val a.ctx.val w.toNat s + k - 1) = false := by
    simp only [State.fmOut, Bool.or_eq_false_iff, decide_eq_false_iff_not]
    omega
  simp only [smTraps, State.fmTraps, List.cons_append, List.nil_append, lowestTrap_cons_none, lowestTrap_nil, badAddr, haddr, halign,
    hout, hdark, bne_self_eq_false, and_self]
theorem load_lt (m : Memory) (k len : Nat) : m.load k len < 2 ^ (8 * len) := by
  have h := ofBytes_lt (m.bytes k len)
  rwa [Memory.bytes_length] at h
theorem onlyFm_fmStore (s : State) (n c r len v : Nat) : OnlyFm (s.fmKey n c r) len s (s.fmStore n c r len v) := by
  refine ⟨?_, fun k hk => Memory.byte_store_out _ _ len _ hk⟩
  show _ = { s with fm := (s.fmStore n c r len v).fm, bad := _ }
  simp only [State.fmStore, State.put, State.setMem, toBytes_length]
theorem fm_load_fmStore (s : State) (n c r len : Nat) {v : Nat} (hv : v < 256 ^ len) :
    (s.fmStore n c r len v).fm.load (s.fmKey n c r) len = v := (Memory.load_store s.fm _ len v).trans (Nat.mod_eq_of_lt hv)
theorem bit25_of_fRD_lt {x : Nat} (h : fRD x < 16) : bit x 25 = false := by
  simp only [fRD, bit, bits, beq_eq_false_iff_ne] at h ⊢
  omega
theorem bit20_of_fRA_lt {x : Nat} (h : fRA x < 16) : bit x 20 = false := by
  simp only [fRA, bit, bits, beq_eq_false_iff_ne] at h ⊢
  omega

/-- Settles O7: a load that breaks no rule writes the value of its bytes to the destination. -/
theorem scalarLoads : Obligations.ScalarLoads := by
  intro a w s h
  refine ⟨fun hok => ⟨_, scalar_runs (op := opLdw) h ⟨smTraps_clear hok, rfl⟩, ?_, onlyS_setSr _ _ a.ctx.isLt (fRD_lt _)⟩,
    fun hok hrd => ?_, fun hok hrd => ?_⟩
  · exact (State.sr_setSr_same _ _ _ _ _).trans (Nat.mod_eq_of_lt (load_lt s.fm (accessKey a w s) 4))
  · refine ⟨_, scalar_runs (op := opLdp) h ⟨?_, rfl⟩, srPair_setSr_pair _ (load_lt s.fm (accessKey a w s) 8),
      onlyS_setSr_pair _ _ _ a.ctx.isLt ?_⟩
    · exact (lowestTrap_cons_none _ _ _).mpr ⟨by simp [hrd], smTraps_clear hok⟩
    · have := fRD_lt w.toNat
      omega
  · refine ⟨_, scalar_runs (op := opLda) h ⟨(lowestTrap_cons_none _ _ _).mpr ⟨bit25_of_fRD_lt hrd, smTraps_clear hok⟩, rfl⟩, ?_⟩
    simp only [opLda, Nat.mod_eq_of_lt hrd]
    exact ⟨(State.ar_setAr_same _ _ _ _ _).trans (Nat.mod_eq_of_lt (load_lt s.fm (accessKey a w s) 8)),
      onlyA_setAr _ _ a.ctx.isLt hrd⟩

/-- Settles O8: a store that breaks no rule writes the bytes of its register's value. -/
theorem scalarStores : Obligations.ScalarStores := by
  intro a w s h n c rd k
  have hkey : (s.advance n c).fmKey n c (smAddr n c w.toNat s).toNat = k := fmKey_of_regs (advance_regs s n c) _ _ _
  have hstore (len : Nat) {v : Nat} (hv : v < 256 ^ len) :
      let t := (s.advance n c).fmStore n c (smAddr n c w.toNat s).toNat len v
      t.fm.load k len = v ∧ OnlyFm k len (s.advance n c) t := by
    rw [← hkey]
    exact ⟨fm_load_fmStore _ _ _ _ _ hv, onlyFm_fmStore _ _ _ _ _ _⟩
  refine ⟨fun hok => ⟨_, scalar_runs (op := opStw) h ⟨smTraps_clear hok, rfl⟩, hstore 4 (sr_lt s n c rd)⟩,
    fun hok hrd => ⟨_, scalar_runs (op := opStp) h ⟨(lowestTrap_cons_none _ _ _).mpr ⟨?_, smTraps_clear hok⟩, rfl⟩, hstore 8 (srPair_lt s n c rd)⟩,
    fun hok hrd => ⟨_, scalar_runs (op := opSta) h ⟨(lowestTrap_cons_none _ _ _).mpr ⟨bit25_of_fRD_lt hrd, smTraps_clear hok⟩, rfl⟩, ?_⟩⟩
  · show (rd % 2 != 0) = false
    simp [hrd]
  · have hreg : rd % 16 = rd := Nat.mod_eq_of_lt hrd
    simp only [opSta, ← show rd = fRD w.toNat from rfl, hreg]
    exact hstore 8 (ar_lt s n c rd)

/-! ## Address registers (R435) -/

theorem sx_eq_toInt (k : Nat) [NeZero k] (x : Nat) : sx k x = (BitVec.ofNat k x).toInt := by
  have hk : 2 ^ k = 2 * 2 ^ (k - 1) := by
    rw [← Nat.pow_succ', Nat.succ_eq_add_one, Nat.sub_add_cancel (NeZero.one_le)]
  simp only [sx, BitVec.toInt, BitVec.toNat_ofNat]
  split <;> split <;> omega
theorem ofNat_wrap64 (x : Int) : BitVec.ofNat 64 (wrap64 x) = BitVec.ofInt 64 x := by
  refine BitVec.eq_of_toNat_eq ?_
  simp only [wrap64, BitVec.toNat_ofNat, BitVec.toNat_ofInt]
  omega
/-- The sum of R435: modulo 2^64, its second operand sign-extended. -/
theorem ofNat_wrap64_add_sx (k : Nat) [NeZero k] (x y : Nat) :
    BitVec.ofNat 64 (wrap64 ((x : Int) + sx k y) % 2 ^ 64) = BitVec.ofNat 64 x + BitVec.signExtend 64 (BitVec.ofNat k y) := by
  have hmod (z : Nat) : BitVec.ofNat 64 (z % 2 ^ 64) = BitVec.ofNat 64 z := BitVec.eq_of_toNat_eq (by simp)
  rw [hmod, ofNat_wrap64, BitVec.ofInt_add, sx_eq_toInt, BitVec.ofInt_natCast]
  rfl

/-- Settles O9: each operation writes one register of its context with the value that R435 gives. -/
theorem addressRegisterOperations : Obligations.AddressRegisterOperations := by
  intro a w s h n c rd ra rb
  refine ⟨fun hrd hra hw => ?_, ?_, fun hrd hra hrb hw => ?_, fun hrd hra hrb hw => ?_, fun hrd hrb hw => ?_⟩
  · have hbits : (bit w.toNat 25 || bit w.toNat 20 || bits w.toNat 10 0 != 0) = false := by
      simp [bit25_of_fRD_lt hrd, bit20_of_fRA_lt hra, hw]
    refine ⟨_, scalar_runs (op := opAadd) h (clear_single hbits), ?_⟩
    simp only [opAadd, ← show rd = fRD w.toNat from rfl, ← show ra = fRA w.toNat from rfl, Nat.mod_eq_of_lt hrd, Nat.mod_eq_of_lt hra]
    exact ⟨(congrArg _ (State.ar_setAr_same _ _ _ _ _)).trans (ofNat_wrap64_add_sx 32 _ _), onlyA_setAr _ _ a.ctx.isLt hrd⟩
  · exact ⟨_, scalar_runs (op := opAaddi) h ⟨rfl, rfl⟩,
      (congrArg _ (State.ar_setAr_same _ _ _ _ _)).trans (ofNat_wrap64_add_sx 16 _ _), onlyA_setAr _ _ a.ctx.isLt (Nat.mod_lt _ (by decide))⟩
  · have hbits : (bit w.toNat 25 || fRB w.toNat != 0 || bits w.toNat 10 0 != 0) = false := by
      simp [bit25_of_fRD_lt hrd, show fRB w.toNat = 0 from hrb, hw]
    have hpair : (fRA w.toNat % 2 != 0) = false := by simp [show fRA w.toNat % 2 = 0 from hra]
    refine ⟨_, scalar_runs (op := opAmov) h ⟨?_, rfl⟩, ?_⟩
    · simp only [opAmov, lowestTrap_cons_none, hbits, hpair, lowestTrap_nil, and_self]
    · simp only [opAmov, ← show rd = fRD w.toNat from rfl, Nat.mod_eq_of_lt hrd]
      exact ⟨(State.ar_setAr_same _ _ _ _ _).trans (Nat.mod_eq_of_lt (srPair_lt s n c ra)), onlyA_setAr _ _ a.ctx.isLt hrd⟩
  · have hbits : (bit w.toNat 20 || fRB w.toNat != 0 || bits w.toNat 10 0 != 0) = false := by
      simp [bit20_of_fRA_lt hra, show fRB w.toNat = 0 from hrb, hw]
    have hpair : (fRD w.toNat % 2 != 0) = false := by simp [show fRD w.toNat % 2 = 0 from hrd]
    refine ⟨_, scalar_runs (op := opSmov) h ⟨?_, rfl⟩, ?_⟩
    · simp only [opSmov, lowestTrap_cons_none, hbits, hpair, lowestTrap_nil, and_self]
    · simp only [opSmov, ← show ra = fRA w.toNat from rfl, Nat.mod_eq_of_lt hra]
      refine ⟨srPair_setSr_pair _ (ar_lt s n c ra), onlyS_setSr_pair _ _ _ a.ctx.isLt ?_⟩
      have := fRD_lt w.toNat
      omega
  · have hbits : (bits w.toNat 25 23 != 0 || fRB w.toNat != 0 || bits w.toNat 10 0 != 0) = false := by
      have hrd' : bits w.toNat 25 23 = 0 := by
        have hrd : bits w.toNat 25 21 < 4 := hrd
        simp only [bits] at hrd ⊢
        omega
      simp [hrd', show fRB w.toNat = 0 from hrb, hw]
    refine ⟨_, scalar_runs (op := opLcset) h (clear_single hbits), ?_⟩
    simp only [opLcset, ← show rd = fRD w.toNat from rfl, Nat.mod_eq_of_lt hrd]
    exact ⟨(State.lcr_setLcr_same _ _ _ _ _).trans (Nat.mod_eq_of_lt (sr_lt s n c ra)), onlyLc_setLcr _ _ a.ctx.isLt hrd⟩
end

end Sys2Proof.Machine
end

-- ==== Control, entries and tags: O10, O12, O13 ====
section
/-! SUPPORT. The control operations of the scalar slot (R405, R409 to R411, R414, R435). In order: jumps; the end of an entry where no other
context waits; what the withdrawal of a tag's work leaves; the tag field and the operations on tags. -/

namespace Sys2Proof.Machine

open Sys2Proof.Claims

section
variable {a : Issue} {w : BitVec 26} {s : State}

/-! ## Branches (R405, R435) -/

/-- What the issued bundle does to its own context leaves the others. -/
theorem onlyCtx_setCtx (s : State) {n c : Nat} (x : Ctx) (hc : c < 4) : OnlyCtx n c s (s.setCtx n c x) :=
  ⟨rfl, fun m k hne => State.ctx_setCtx_ne s x (by
    have := k.isLt
    omega)⟩
/-- The issued bundle jumps. -/
theorem jumpsTo_jump (a : Issue) (s : State) (b : Nat) : JumpsTo a s b ((s.advance a.folio.val a.ctx.val).jump a.folio.val a.ctx.val b) := by
  have hctx : ((s.advance a.folio.val a.ctx.val).jump a.folio.val a.ctx.val b).ctx a.folio.val a.ctx.val =
      { (s.ctx a.folio.val a.ctx.val) with pc := BitVec.ofNat 13 b, wait := none } := by
    rw [State.jump, State.ctx_setCtx_same, advance_ctx_same]
  exact ⟨by rw [hctx], hctx, onlyCtx_setCtx _ _ a.ctx.isLt⟩
theorem brTaken_iff {cond : Nat} (hcond : cond ≤ 5) (p q : Word) : brTaken cond p q = true ↔
    (cond = 0 ∧ p = q) ∨ (cond = 1 ∧ p ≠ q) ∨ (cond = 2 ∧ p.toInt < q.toInt) ∨ (cond = 3 ∧ ¬ p.toInt < q.toInt)
      ∨ (cond = 4 ∧ p.toNat < q.toNat) ∨ (cond = 5 ∧ ¬ p.toNat < q.toNat) := by
  interval_cases cond <;> simp [brTaken, BitVec.slt, BitVec.ult]
theorem wrap32_sub_one (x : Nat) : wrap32 ((x : Int) - 1) = (BitVec.ofNat 32 x - 1).toNat := by
  have hone : (1 : BitVec 32).toNat = 1 := rfl
  simp only [wrap32, BitVec.toNat_sub, BitVec.toNat_ofNat, hone]
  omega

/-- Settles O10: each branch sets the PC of the issued bundle's context, CALL and RET its return stack, LOOP its counter. -/
theorem branchesAndCalls : Obligations.BranchesAndCalls := by
  intro a w s h n c x cond p q holds
  refine ⟨fun hcond => ?_, fun hw => ?_, fun hw hstack => ?_, fun b bs hstack => ?_, fun hbit hw => ?_⟩
  · have htaken : brTaken cond p q = true ↔ holds := brTaken_iff hcond p q
    refine ⟨_, scalar_runs (op := opBr) h (clear_single (by simpa using hcond)), fun hholds => ?_, fun hnot => ?_⟩
    · have hrun : (opBr n c w.toNat s).run (s.advance n c) = (s.advance n c).jump n c (fTGT w.toNat) := if_pos (htaken.mpr hholds)
      exact hrun ▸ jumpsTo_jump a s _
    · exact if_neg (mt htaken.mp hnot)
  · exact ⟨_, scalar_runs (op := opJmp) h (clear_single (by simp [hw])), jumpsTo_jump a s _⟩
  · refine ⟨_, scalar_runs (op := opCall) h ⟨?_, rfl⟩, ?_, onlyCtx_setCtx _ _ a.ctx.isLt⟩
    · have hroom : decide (8 ≤ (s.ctx a.folio.val a.ctx.val).rstack.length) = false := decide_eq_false (Nat.not_le.mpr hstack)
      simp only [opCall, lowestTrap_cons_none, hw, hroom, bne_self_eq_false, lowestTrap_nil, and_self]
    · simp only [opCall]
      rw [State.ctx_setCtx_same, advance_ctx_same]
  · have hne : (s.ctx a.folio.val a.ctx.val).rstack.isEmpty = false := by rw [show (s.ctx a.folio.val a.ctx.val).rstack = b :: bs from hstack]; rfl
    have hrun : (opRet n c (0 : BitVec 26).toNat s).run (s.advance n c) =
        (s.advance n c).setCtx n c { x with rstack := bs, pc := b, wait := none } := by
      simp only [opRet, advance_ctx_same, ← show x = s.ctx n c from rfl, hstack]
    refine ⟨_, scalar_runs (op := opRet) (w := 0) h ⟨?_, rfl⟩, ?_⟩
    · simp only [opRet, lowestTrap_cons_none, hne, lowestTrap_nil, and_true]
      rfl
    · rw [hrun]
      exact ⟨State.ctx_setCtx_same _ _ _ _, onlyCtx_setCtx _ _ a.ctx.isLt⟩
  · have hclear : (opLoop n c w.toNat s).clear := clear_single (by simp [hbit, hw])
    have hruns : exec (.loop a w) s = .next ((opLoop n c w.toNat s).run (s.advance n c)) := scalar_runs (op := opLoop) h hclear
    refine ⟨_, hruns, ?_⟩
    dsimp only
    set k := bits w.toNat 24 23
    set v := BitVec.ofNat 32 (s.lcr n c k) - 1
    have hv : wrap32 ((s.lcr n c k : Int) - 1) = v.toNat := wrap32_sub_one _
    have hzero : wrap32 ((s.lcr n c k : Int) - 1) = 0 ↔ v = 0 := by rw [hv]; exact BitVec.toNat_eq (y := 0) |>.symm
    generalize ht : (opLoop n c w.toNat s).run (s.advance n c) = t
    have hlc : t.lc = ((s.advance n c).setLcr n c k v.toNat).lc := by
      rw [← ht, ← hv]
      exact (apply_ite State.lc _ _ _).trans (ite_self _)
    have hread (j : Nat) : t.lcr n c j = ((s.advance n c).setLcr n c k v.toNat).lcr n c j := by rw [State.lcr, hlc, State.lcr]
    have hctx : t.ctx n c = { x with pc := if v = 0 then x.pc + 1 else BitVec.ofNat 13 (fTGT w.toNat), wait := none } := by
      rw [← ht]
      simp only [opLoop]
      by_cases hz : v = 0
      · rw [if_pos (hzero.mpr hz), if_pos hz]
        exact advance_ctx_same s n c
      · rw [if_neg (mt hzero.mp hz), if_neg hz, State.jump, State.ctx_setCtx_same]
        exact congrArg (fun y : Ctx => { y with pc := BitVec.ofNat 13 (fTGT w.toNat) }) (advance_ctx_same s n c)
    refine ⟨?_, fun j hj => ?_, hctx, ?_⟩
    · rw [hread, State.lcr_setLcr_same, Nat.mod_eq_of_lt v.isLt]
    · rw [hread, State.lcr_setLcr_ne _ _ (by omega)]
      simp only [State.lcr, advance_lc]
    · rw [← ht]
      simp only [opLoop]
      split
      · rfl
      · rfl

/-! ## The end of an entry (R400, R414) -/

/-- The sequencer chooses none where no context of the folio is READY or SUSPENDED. -/
theorem select_of_none_waits {s : State} {n : Nat} (h : ∀ k : Fin 4, (s.ctx n k.val).st ≠ .ready ∧ (s.ctx n k.val).st ≠ .suspended) :
    s.select n = s := by
  have hnone : [3, 2, 1, 0].find? (fun c => (s.ctx n c).st == .ready || (s.ctx n c).st == .suspended) = none := by
    have h0 := h 0
    have h1 := h 1
    have h2 := h 2
    have h3 := h 3
    simp_all
  rw [State.select, hnone]
  exact ite_self _
/-- The state of a context without work. -/
def State.restSt (s : State) (n c : Nat) : CtxSt := if s.ctxEn n c then .idle else .off
/-- A context without work, by what its entry has left of it. -/
def Ctx.rested (x : Ctx) (st : CtxSt) : Ctx :=
  { x with st := st, entry := none, wait := none, rstack := [], resume := Resume.empty, inside := none, due := none, halting := false }
/-- An entry that ends with an empty queue and no other context to choose leaves its context without work. -/
theorem endEntry_of_alone {s : State} {n c : Nat} (hqueue : (s.ctx n c).queue = [])
    (halone : ∀ k : Fin 4, k.val ≠ c → (s.ctx n k.val).st ≠ .ready ∧ (s.ctx n k.val).st ≠ .suspended) :
    s.endEntry n c = { s with casts := Sp.set (fun _ => []) s.casts (4 * n + c) [] }.setCtx n c ((s.ctx n c).rested (s.restSt n c)) := by
  have hst : (if !s.ctxEn n c then CtxSt.off else if (s.ctx n c).queue ≠ [] then .ready else .idle) = s.restSt n c := by
    rw [hqueue, State.restSt]
    cases s.ctxEn n c <;> rfl
  have hrest : s.restSt n c ≠ .ready ∧ s.restSt n c ≠ .suspended := by
    unfold State.restSt
    split <;> exact ⟨nofun, nofun⟩
  unfold State.endEntry
  dsimp only
  rw [hst]
  refine select_of_none_waits fun k => ?_
  by_cases hk : k.val = c
  · rw [hk, State.ctx_setCtx_same]
    exact hrest
  · rw [State.ctx_setCtx_ne _ _ (by omega)]
    exact halone k hk
theorem restSt_of_regs {s u : State} (h : u.regs = s.regs) (n c : Nat) : u.restSt n c = s.restSt n c := by
  have hen : u.ctxEn n c = s.ctxEn n c := by simp only [State.ctxEn, State.rbit, State.reg, h]
  rw [State.restSt, State.restSt, hen]
theorem logical_of_regs {s u : State} (h : u.regs = s.regs) (n : Nat) : u.logical n = s.logical n := by
  simp only [State.logical, State.phys, State.vacant, State.fld, State.rbit, State.reg, h]

/-- Settles O12: the entry ends by `endEntry_of_alone`, in SDONE after the folio's mark in the step. -/
theorem entriesEndWithSdoneAndYield : Obligations.EntriesEndWithSdoneAndYield := by
  intro a s e h n c hentry hqueue halone
  have hstep : s.inStep n c = e.step := by rw [State.inStep, hentry]
  have hends (u : State) (hctxs : u.ctxs = (s.advance n c).ctxs) (hregs : u.regs = s.regs) : ∃ t, u.endEntry n c = t ∧
      (t.ctx n c).st = (if s.ctxEn n c then .idle else .off) ∧ (t.ctx n c).entry = none ∧ (t.ctx n c).wait = none ∧
      (t.ctx n c).rstack = [] ∧ t.castOf n c = [] ∧ t = { u with ctxs := t.ctxs, casts := t.casts } := by
    have hctx (k : Nat) : u.ctx n k = (s.advance n c).ctx n k := by rw [State.ctx, hctxs, State.ctx]
    have hend : u.endEntry n c = { u with casts := Sp.set (fun _ => []) u.casts (4 * n + c) [] }.setCtx n c
        ((u.ctx n c).rested (u.restSt n c)) := by
      refine endEntry_of_alone ?_ fun k hk => ?_
      · rw [hctx, advance_ctx_same]
        exact hqueue
      · rw [hctx, advance_ctx_ne _ (by omega)]
        exact halone k hk
    refine ⟨_, hend, ?_⟩
    rw [State.ctx_setCtx_same, restSt_of_regs hregs]
    exact ⟨rfl, rfl, rfl, rfl, Sp.get_set_same (fun _ => []) u.casts (4 * n + c) [], rfl⟩
  refine ⟨fun hs => ?_, fun hs => ?_, fun hs k x hlog hx => ?_, fun hs => ?_⟩
  · exact issue_traps (op := opYield n c (0 : BitVec 26).toNat) none false h.1 (by simp [opYield, hstep, hs, lowestTrap, SEQ_CTX_TRAP])
  · exact issue_traps (op := opSdone n c (0 : BitVec 26).toNat) none false h.1 (by simp [opSdone, hstep, hs, lowestTrap, SEQ_CTX_TRAP])
  · have hstr (i : Nat) : (s.advance n c).str i = s.str i := by rw [advance_only]; rfl
    have hmark : (s.advance n c).markEnded e.stream k = (s.advance n c).setStr e.stream
        { s.str e.stream with step := some { x with ended := x.ended ||| 2 ^ k } } := by
      rw [State.markEnded, hstr, hx]
    have hrun : (opSdone n c (0 : BitVec 26).toNat s).run (s.advance n c) = ((s.advance n c).markEnded e.stream k).endEntry n c := by
      have hentry' : ((s.advance n c).ctx n c).entry = some e := by rw [advance_ctx_same]; exact hentry
      simp only [opSdone, hentry', logical_of_regs (advance_regs s n c), hlog]
    obtain ⟨t, ht, hst, hent, hwait, hstack, hcast, honly⟩ := hends ((s.advance n c).markEnded e.stream k)
      (by rw [hmark]; rfl) (by rw [hmark]; exact advance_regs s n c)
    have hclear : (opSdone n c (0 : BitVec 26).toNat s).clear := ⟨by simp [opSdone, hstep, hs, lowestTrap], rfl⟩
    refine ⟨t, ?_, ?_, hst, hent, hwait, hstack, hcast, ?_⟩
    · rw [← ht, ← hrun]
      exact scalar_runs (op := opSdone) (w := 0) h (hclear : (opSdone n c _ s).clear)
    · rw [honly, hmark]
      exact congrArg Strm.step (State.str_setStr_same _ _ _)
    · rw [honly, hmark]
      rfl
  · obtain ⟨t, ht, hrest⟩ := hends (s.advance n c) rfl (advance_regs s n c)
    have hclear : (opYield n c (0 : BitVec 26).toNat s).clear := ⟨by simp [opYield, hstep, hs, lowestTrap], rfl⟩
    refine ⟨t, ?_, hrest⟩
    rw [← ht]
    exact scalar_runs (op := opYield) (w := 0) h hclear

/-! ## What the withdrawal of a tag's work leaves (R381, R411) -/

/-- The tags, and what TCANCEL leaves beside them. -/
def State.cancelKept (s : State) : Sp TagRec × Sp Word × Memory × Memory := (s.tags, s.sreg, s.fm, s.vat)

section
variable (t : State) (n : Nat)

theorem cancelKept_dropSoftmax (tag : Nat) : (t.dropSoftmax n tag).cancelKept = t.cancelKept := by
  unfold State.dropSoftmax
  split
  · rfl
  · rfl
theorem cancelKept_dropResume (c tag : Nat) : (t.dropResume n c tag).cancelKept = t.cancelKept := by
  unfold State.dropResume
  split
  · rfl
  · extract_lets x hits y z
    split
    · rfl
    · rfl
theorem cancelKept_cancelEngines (tag : Nat) : (t.cancelEngines n tag).cancelKept = t.cancelKept := by
  unfold State.cancelEngines
  extract_lets js gs ps s1 s2 s3
  have h2 : s2.cancelKept = t.cancelKept := foldl_keeps (g := State.cancelKept) (f := fun s k => s.closeTiles n tag k) (fun _ _ => rfl) _ s1
  have h3 : s3.cancelKept = t.cancelKept := by
    dsimp only [s3]
    split
    · split
      · exact h2
      · exact h2
    · exact h2
  exact (foldl_keeps (g := State.cancelKept) (fun t k => cancelKept_dropResume t n k tag) _ _).trans
    ((cancelKept_dropSoftmax s3 n tag).trans h3)
theorem cancelKept_drive : t.drive.cancelKept = t.cancelKept := by
  refine foldl_keeps (fun t q => ?_) _ t
  dsimp only
  split
  · rfl
  · rfl
theorem cancelKept_cancelIn (tag q : Nat) : (t.cancelIn tag q).cancelKept = t.cancelKept := by
  unfold State.cancelIn
  dsimp only
  split
  · split
    · rfl
    · rfl
  · rfl
/-- A receive that ends as cancelled has its mark in the record of its own tag. -/
theorem tag_recvCancelled {r : McRecv} {lf k : Nat} (hr : r.tag ≠ folioTag lf k) : (t.recvCancelled r).tag lf k = t.tag lf k := by
  unfold State.recvCancelled
  split
  · rfl
  next h =>
    simp only [folioTag] at hr
    exact Sp.get_set_ne _ _ _ (by omega)
theorem kept_recvCancelled (r : McRecv) : (t.recvCancelled r).cancelKept.2 = t.cancelKept.2 := by
  unfold State.recvCancelled
  split
  · rfl
  · rfl
/-- The withdrawal of a folio tag's work leaves the record of the tag, the scalar registers, the folio memories and the vat. -/
theorem cancelWork_keeps (lf k : Nat) : (t.cancelWork n (folioTag lf k)).tag lf k = t.tag lf k ∧
    (t.cancelWork n (folioTag lf k)).cancelKept.2 = t.cancelKept.2 := by
  unfold State.cancelWork
  generalize hu : t.cancelEngines n (folioTag lf k) = u
  have hkept : u.cancelKept = t.cancelKept := hu ▸ cancelKept_cancelEngines t n _
  unfold State.cancelMoves
  extract_lets s0 led s1 dead lost
  have h1 : s1.cancelKept = t.cancelKept :=
    (foldl_keeps (g := State.cancelKept) (fun t q => cancelKept_cancelIn t _ q) _ s0).trans ((cancelKept_drive u).trans hkept)
  clear_value s1
  have hlost : ∀ r ∈ lost, r.tag ≠ folioTag lf k := by
    intro r hr
    simp only [lost, List.mem_append, List.mem_filter, List.mem_flatMap, Bool.and_eq_true, bne_iff_ne] at hr
    rcases hr with ⟨_, hr, _⟩ | ⟨_, _, _, hr⟩
    · exact hr
    · exact hr
  have htags : t.tags = s1.tags := (congrArg Prod.fst h1).symm
  refine List.foldlRecOn (motive := fun v : State => v.tag lf k = t.tag lf k ∧ v.cancelKept.2 = t.cancelKept.2) lost _ ?_ fun v hv r hr => ?_
  · exact ⟨by rw [State.tag, State.tag, htags], congrArg Prod.snd h1⟩
  · exact ⟨(tag_recvCancelled v (hlost r hr)).trans hv.1, (kept_recvCancelled v r).trans hv.2⟩
end

/-! ## Tags (R409, R410) -/

section
variable {lf : Nat}

theorem tagOpTraps_clear {n c x : Nat} {ok : TagSt → Bool} (hlog : s.logical n = some lf) (hk : fTAG x < 64)
    (hlo : s.dTaglo n c ≤ fTAG x) (hhi : fTAG x < s.dTaglo n c + s.dTagn n c) (hres : bits x 18 16 = 0)
    (hok : ok (s.tag lf (fTAG x)).st = true) : lowestTrap (tagOpTraps n c x ok s) = none := by
  have hrange : s.tagInRange n c (fTAG x) = true := by simp [State.tagInRange, hlo, hhi, hlog]
  have hst : s.tagSt n (fTAG x) = (s.tag lf (fTAG x)).st := by rw [State.tagSt, hlog]
  simp [tagOpTraps, lowestTrap_none, hk, hrange, hst, hok, hres]
theorem tag_advance (s : State) (n c l k : Nat) : (s.advance n c).tag l k = s.tag l k := by rw [State.tag, advance_only]; rfl
theorem takeRecord_free (t : State) (n c lf k : Nat) : ((t.takeRecord n c lf k).tag lf k).st = .free ∧
    ((t.takeRecord n c lf k).ctx n c).doneQ = (t.ctx n c).doneQ.filter (fun r => bits r.toNat 12 0 != folioTag lf k) := by
  refine ⟨congrArg TagRec.st (State.tag_setTag_same _ _ _ _), ?_⟩
  show ((t.setCtx n c _).ctx n c).doneQ = _
  rw [State.ctx_setCtx_same]
end

/-- Settles O13: each operation writes the record of its tag, TWAIT and TPOLL by taking it from the completion queue. -/
theorem folioTagOperations : Obligations.FolioTagOperations := by
  intro a w s lf h n c k x hlog
  have hlog' : (s.advance n c).logical n = some lf := (logical_of_regs (advance_regs s n c) n).trans hlog
  have hctx : (s.advance n c).ctx n c = { x with pc := x.pc + 1, wait := none } := advance_ctx_same s n c
  refine ⟨fun hk hlo hhi hres => ⟨fun hlim hst => ?_, fun hlim hst => ?_, fun hlim hst => ?_, fun hlim hst => ?_, fun hlim hst => ?_⟩,
    fun hra hrb hw => ?_⟩
  · have hclear : (opTopen n c w.toNat s).clear :=
      ⟨(lowestTrap_cons_none _ _ _).mpr ⟨by simp [hlim], tagOpTraps_clear hlog hk hlo hhi hres (by rw [hst]; rfl)⟩, rfl⟩
    have hruns : exec (.topen a w) s = .next ((opTopen n c w.toNat s).run (s.advance n c)) := scalar_runs (op := opTopen) h hclear
    refine ⟨_, hruns, ?_⟩
    simp only [opTopen, hlog', hctx]
    exact ⟨State.tag_setTag_same _ _ _ _, rfl⟩
  · have hclear : (opTclose n c w.toNat s).clear :=
      ⟨(lowestTrap_cons_none _ _ _).mpr ⟨by simp [hlim], tagOpTraps_clear hlog hk hlo hhi hres (by rw [hst]; rfl)⟩, rfl⟩
    have hruns : exec (.tclose a w) s = .next ((opTclose n c w.toNat s).run (s.advance n c)) := scalar_runs (op := opTclose) h hclear
    refine ⟨_, hruns, ?_⟩
    simp only [opTclose, State.setTagSt, hlog', tag_advance]
    exact ⟨State.tag_setTag_same _ _ _ _, rfl⟩
  · have hst' : ((s.advance n c).tagSt n k == .opened || (s.advance n c).tagSt n k == .closed) = true := by
      simpa [State.tagSt, hlog', tag_advance] using hst
    have hclear : (opTcancel n c w.toNat s).clear := by
      refine ⟨(lowestTrap_cons_none _ _ _).mpr ⟨by simp [hlim], tagOpTraps_clear hlog hk hlo hhi hres ?_⟩, rfl⟩
      rcases hst with hst | hst
      · rw [hst]; rfl
      · rw [hst]; rfl
    have hrun : (opTcancel n c w.toNat s).run (s.advance n c) =
        ((s.advance n c).setTag lf k { s.tag lf k with st := .cancelling, ctx := c }).cancelWork n (folioTag lf k) := by
      simp only [opTcancel, ← show k = fTAG w.toNat from rfl, hst', if_true, hlog', State.setTagSt, tag_advance]
    obtain ⟨htag, hkept⟩ := cancelWork_keeps ((s.advance n c).setTag lf k { s.tag lf k with st := .cancelling, ctx := c }) n lf k
    simp only [State.cancelKept, State.setTag_sreg, State.setTag_fm, State.setTag_vat, advance_sreg, advance_fm, advance_vat,
      Prod.mk.injEq] at hkept
    refine ⟨_, scalar_runs (op := opTcancel) h hclear, ?_⟩
    rw [hrun]
    exact ⟨htag.trans (State.tag_setTag_same _ _ _ _), hkept⟩
  · have hdone : s.tagSt n k = .done := by simp only [State.tagSt, hlog, hst]
    have hclear : (opTwait n c w.toNat s).clear := by
      refine ⟨(lowestTrap_cons_none _ _ _).mpr ⟨by simpa using hlim, tagOpTraps_clear hlog hk hlo hhi hres (by rw [hst]; rfl)⟩, ?_⟩
      simp only [opTwait, ← show k = fTAG w.toNat from rfl, hdone, beq_self_eq_true, if_true]
    have hruns : exec (.twait a w) s = .next ((opTwait n c w.toNat s).run (s.advance n c)) := scalar_runs (op := opTwait) h hclear
    refine ⟨_, hruns, ?_⟩
    simp only [opTwait, hlog']
    obtain ⟨hfree, hqueue⟩ := takeRecord_free (s.advance n c) n c lf k
    rw [hctx] at hqueue
    exact ⟨hfree, hqueue, rfl⟩
  · have hclosed : s.tagSt n k = .closed := by simp only [State.tagSt, hlog, hst]
    have htraps : lowestTrap (opTwait n c w.toNat s).traps = none :=
      (lowestTrap_cons_none _ _ _).mpr ⟨by simpa using hlim, tagOpTraps_clear hlog hk hlo hhi hres (by rw [hst]; rfl)⟩
    have hwait : (opTwait n c w.toNat s).wait = some (if fLIM w.toNat = 0 then .tagFree else .tag) := by
      simp only [opTwait, ← show k = fTAG w.toNat from rfl, hclosed]
      exact (apply_ite some _ _ _).symm
    exact ⟨_, issue_waits (op := opTwait n c w.toNat) none false h.1 htraps hwait, State.ctx_setCtx_same _ _ _ _,
      onlyCtx_setCtx _ _ a.ctx.isLt⟩
  · have hruns : exec (.tpoll a w) s = .next ((opTpoll n c w.toNat s).run (s.advance n c)) :=
      scalar_runs (op := opTpoll) h (clear_single (by simp [hra, hrb, hw]))
    refine ⟨_, hruns, fun hempty => ?_, fun r rs hqueue => ?_⟩
    · simp only [opTpoll, ← show x = s.ctx n c from rfl, hempty]
      exact ⟨State.sr_setSr_same _ _ _ _ _, onlyS_setSr _ _ a.ctx.isLt (fRD_lt _)⟩
    · simp only [opTpoll, ← show x = s.ctx n c from rfl, hqueue, hlog']
      obtain ⟨hfree, hrest⟩ := takeRecord_free (s.advance n c) n c lf (bits r.toNat 12 0 % 64)
      rw [hctx, hqueue] at hrest
      refine ⟨(State.sr_setSr_same _ _ _ _ _).trans (Nat.mod_eq_of_lt r.isLt), hfree, hrest, ?_⟩
      generalize s.advance n c = i
      rfl
end

end Sys2Proof.Machine
end

-- ==== ENOP and its scalar slot: O14 ====
section
/-! SUPPORT. A bundle with ENOP in its engine slot (R427 to R430, R437, R442). In order: what the issue of a bundle takes of its slots;
the scalar slot of an opcode; the traps of the engine slot. -/

namespace Sys2Proof.Machine

open Sys2Proof.Claims

section
variable {a : Issue} {s : State}

/-! ## What the issue of a bundle takes of its slots -/

/-- Two slots whose broken rules have the same lowest code, and which wait and act alike. -/
def SlotOp.Alike (o p : SlotOp) : Prop := lowestTrap o.traps = lowestTrap p.traps ∧ o.wait = p.wait ∧ o.run = p.run
theorem issue_congr {op op' : State → SlotOp} (h : ∀ t, (op t).Alike (op' t)) (r : Option Nat) (d : Bool) :
    issue a op r d s = issue a op' r d s := by
  obtain ⟨htraps, hwait, _⟩ := h s
  have hrun : (fun t => (op t).run (t.advance a.folio.val a.ctx.val)) = fun t => (op' t).run (t.advance a.folio.val a.ctx.val) :=
    funext fun t => congrFun (h t).2.2 _
  simp only [issue, htraps, hwait, hrun]
/-- A rule that is kept takes no part in the lowest trap. -/
theorem lowestTrap_cons_false (k : Nat) (ts : List (Bool × Nat)) : lowestTrap ((false, k) :: ts) = lowestTrap ts := rfl

/-! ## The scalar slot of an opcode -/

theorem slot_fields {opc x : Nat} (hopc : opc < 64) (hx : x < 67108864) :
    bits (opc * 67108864 + x) 31 26 = opc ∧ bits (opc * 67108864 + x) 25 0 = x := by
  simp only [bits]
  omega
/-- The scalar slot of ENOP beside an opcode and its operand bits. -/
theorem enopWith_fields {opc : Nat} (hopc : opc < 64) (w : BitVec 26) :
    bits (enopWith opc w).sc.toNat 31 26 = opc ∧ bits (enopWith opc w).sc.toNat 25 0 = w.toNat := by
  have hw : w.toNat < 67108864 := w.isLt
  have hsc : (enopWith opc w).sc.toNat = opc * 67108864 + w.toNat := by
    have hpow : (2 : Nat) ^ 26 = 67108864 := by norm_num
    rw [enopWith, BitVec.toNat_ofNat, hpow, Nat.mod_eq_of_lt (by omega)]
  rw [hsc]
  exact slot_fields hopc hw
/-- Every bit of the engine slot but the opcode's is zero. -/
def EmptySlot (e : Eng) : Prop := e.tag = 0 ∧ e.rel = false ∧ e.rstrm = 0 ∧ e.ac = 0 ∧ e.ops = 0
/-- Beside ENOP a scalar opcode other than RESUME's issues as its slot does. -/
theorem enop_issues {e : Eng} (h : EmptySlot e) (hres : bits e.sc.toNat 31 26 ≠ 0x30) :
    exec (.enop a ⟨0, e⟩) s = issue a (scalarSlot false a.folio.val a.ctx.val e.sc) none false s := by
  obtain ⟨htag, hrel, hstrm, hac, hops⟩ := h
  show execEnop a ⟨0, e⟩ s = _
  unfold execEnop
  extract_lets opc e' n c
  have hmix : (opc != 0) = false := rfl
  rw [if_neg (fun h => h.1 rfl), if_neg (fun h => hres h.1), hmix]
  have htraps (t : State) : (opEnop n c opc.toNat e' t).traps = [(false, OPC_RESERVED), (false, FLD_RESERVED)] := by
    simp [opEnop, e', opc, htag, hrel, hstrm, hac, hops]
  have halike (t : State) : ((opEnop n c opc.toNat e' t).both (scalarSlot false n c e.sc t)).Alike (scalarSlot false n c e.sc t) := by
    refine ⟨?_, rfl, rfl⟩
    rw [SlotOp.both, htraps]
    rfl
  exact issue_congr halike none false
/-- Beside ENOP a scalar opcode acts as the command whose slot the opcode names. -/
theorem enop_acts {opc : Nat} {op : Nat → Nat → Nat → State → SlotOp} {w : BitVec 26}
    (hslot : ∀ (n c : Nat) (sc : BitVec 32) (t : State), bits sc.toNat 31 26 = opc → bits sc.toNat 25 0 = w.toNat →
      (scalarSlot false n c sc t).Alike (op n c w.toNat t)) (hopc : opc < 64 := by decide) (hres : opc ≠ 0x30 := by decide) :
    exec (.enop a ⟨0, enopWith opc w⟩) s = scalar op a w s := by
  obtain ⟨hop, hw⟩ := enopWith_fields hopc w
  rw [enop_issues ⟨rfl, rfl, rfl, rfl, rfl⟩ (fun h => hres (hop.symm.trans h))]
  exact issue_congr (fun t => hslot _ _ _ t hop hw) none false
/-- No rule of a scalar slot has code zero. -/
theorem scalarSlot_codes (mix : Bool) (n c : Nat) (sc : BitVec 32) (s : State) :
    (scalarSlot mix n c sc s).traps.all (fun t => decide (0 < t.2)) = true := by
  unfold scalarSlot
  extract_lets w
  split <;> rfl

/-! ## The traps of the engine slot (R430, R437, R442) -/

theorem lowestTrap_least {ts : List (Bool × Nat)} {k : Nat} (hk : (true, k) ∈ ts) (hleast : ∀ t ∈ ts, t.1 = true → k ≤ t.2) :
    lowestTrap ts = some k := by
  rcases h : lowestTrap ts with _ | j
  · exact absurd ((lowestTrap_none ts).mp h _ hk) nofun
  · obtain ⟨⟨t, ht, htrue, hj⟩, hmin⟩ := lowestTrap_some ts j h
    rw [Nat.le_antisymm (hmin _ hk rfl) (hj ▸ hleast t ht htrue)]
end

/-- Settles O14: beside ENOP the bundle is its scalar slot, opcode by opcode; a bit or an opcode too many is its lowest trap. -/
theorem enopBundleIsItsScalarSlot : Obligations.EnopBundleIsItsScalarSlot := by
  intro a s n c empty
  refine ⟨fun e hready hempty hres hclear => ?_, fun w p hp => ?_, fun e hmay hne hscalar => ?_, fun opc e hmay hopc => ?_⟩
  · rw [enop_issues hempty hres]
    exact issue_runs none false hready hclear
  · simp only [List.mem_cons, List.not_mem_nil, or_false] at hp
    rcases hp with rfl | rfl | rfl | rfl | rfl | rfl | rfl | rfl | rfl | rfl | rfl | rfl | rfl | rfl | rfl | rfl | rfl | rfl | rfl | rfl | rfl | rfl | rfl | rfl | rfl | rfl | rfl | rfl | rfl | rfl | rfl | rfl | rfl | rfl | rfl | rfl | rfl | rfl | rfl | rfl | rfl | rfl | rfl | rfl | rfl
    iterate 12 next => exact enop_acts fun _ _ _ _ hop hw => by unfold scalarSlot; rw [hop, hw]; exact ⟨rfl, rfl, rfl⟩
    · exact enop_acts (op := opAddi) fun _ _ _ _ hop hw => by unfold scalarSlot; rw [hop, hw]; exact ⟨rfl, rfl, rfl⟩
    · exact enop_acts (op := opAndi) fun _ _ _ _ hop hw => by unfold scalarSlot; rw [hop, hw]; exact ⟨rfl, rfl, rfl⟩
    · exact enop_acts (op := opOri) fun _ _ _ _ hop hw => by unfold scalarSlot; rw [hop, hw]; exact ⟨rfl, rfl, rfl⟩
    iterate 11 next => exact enop_acts fun _ _ _ _ hop hw => by unfold scalarSlot; rw [hop, hw]; exact ⟨rfl, rfl, rfl⟩
    · exact enop_acts (op := opAaddi) fun _ _ _ _ hop hw => by unfold scalarSlot; rw [hop, hw]; exact ⟨rfl, rfl, rfl⟩
    iterate 11 next => exact enop_acts fun _ _ _ _ hop hw => by unfold scalarSlot; rw [hop, hw]; exact ⟨rfl, rfl, rfl⟩
    · obtain ⟨hop, hw⟩ := enopWith_fields (opc := 0x30) (by decide) w
      show execEnop a ⟨0, enopWith 0x30 w⟩ s = resumeAt a w.toNat s
      unfold execEnop
      extract_lets opc' e
      rw [if_neg (fun h => h.1 rfl), if_pos ⟨hop, rfl⟩, hw]
    iterate 6 next => exact enop_acts fun _ _ _ _ hop hw => by unfold scalarSlot; rw [hop, hw]; exact ⟨rfl, rfl, rfl⟩
  · have hfld : (e.tag != 0 || e.rel || e.rstrm != 0 || e.ac != 0 || e.ops != 0) = true := by
      by_contra hall
      simp only [Bool.not_eq_true, Bool.or_eq_false_iff, bne_eq_false_iff_eq] at hall
      obtain ⟨⟨⟨⟨htag, hrel⟩, hstrm⟩, hac⟩, hops⟩ := hall
      exact hne ⟨htag, hrel, hstrm, hac, hops⟩
    have htraps : (opEnop n c 0 e s).traps = [(false, OPC_RESERVED), (true, FLD_RESERVED)] := by
      simp only [opEnop, hfld]
      rfl
    have hissue : lowestTrap ((opEnop n c 0 e s).both (scalarSlot false n c e.sc s)).traps = some FLD_RESERVED := by
      rw [SlotOp.both, htraps]
      refine lowestTrap_least (by simp) fun t ht htrue => ?_
      rcases List.mem_append.mp ht with ht | ht
      · simp only [List.mem_cons, List.not_mem_nil, or_false] at ht
        rcases ht with rfl | rfl
        · cases htrue
        · exact le_rfl
      · exact absurd ((lowestTrap_none _).mp hscalar t ht) (by simp [htrue])
    show execEnop a ⟨0, e⟩ s = _
    unfold execEnop
    extract_lets opc' e'
    have hlow : lowestTrap (opEnop a.folio.val a.ctx.val opc'.toNat e' s).traps ≠ none := by
      show lowestTrap (opEnop n c 0 e s).traps ≠ none
      rw [htraps]
      exact nofun
    rw [if_neg (fun h => h.1 rfl), if_neg (fun h => hlow h.2)]
    exact issue_traps none false hmay hissue
  · have hzero : opc ≠ 0 := by
      rintro rfl
      cases hopc
    have hzero' : (opc.toNat != 0) = true := by
      simpa using fun h => hzero (BitVec.eq_of_toNat_eq h)
    have hissue : lowestTrap ((opEnop n c opc.toNat e s).both (scalarSlot (opc != 0) n c e.sc s)).traps = some OPC_RESERVED := by
      refine lowestTrap_least (List.mem_append_left _ ?_) fun t ht _ => ?_
      · rw [opEnop, hzero']
        exact List.mem_cons_self
      · rcases List.mem_append.mp ht with ht | ht
        · simp only [opEnop, List.mem_cons, List.not_mem_nil, or_false] at ht
          rcases ht with rfl | rfl
          · exact le_rfl
          · exact Nat.le_succ 1
        · exact decide_eq_true_eq.mp (List.all_eq_true.mp (scalarSlot_codes _ n c e.sc s) t ht)
    show execEnop a ⟨opc, e⟩ s = _
    unfold execEnop
    extract_lets opc' e'
    have hlow : lowestTrap (opEnop a.folio.val a.ctx.val opc'.toNat e' s).traps ≠ none := by
      intro h
      have := (lowestTrap_none _).mp h (true, OPC_RESERVED) (by rw [opEnop, hzero']; exact List.mem_cons_self)
      cases this
    rw [if_neg (fun h => by rw [hopc] at h; exact absurd h.2 nofun), if_neg (fun h => hlow h.2)]
    exact issue_traps none false hmay hissue

end Sys2Proof.Machine
end

-- ==== Memory operations: O15 ====
section
/-! SUPPORT. The memory operations (R352, R353). In order: bytes written whole or in two parts; a resumable instruction that runs whole;
what the checks of a memory operation say; the statement. -/

namespace Sys2Proof.Machine

open Sys2Proof.Claims

/-! ## A resumable instruction that runs whole (R644) -/

/-- An instruction whose parts leave the contexts completes with what it does at its end, which reads nothing of the contexts. -/
theorem long_completes_whole {opc : Nat} {op : Nat → Nat → Eng → State → Long} {a : Issue} {e : Eng} {s u : State} {r : Option Nat}
    {post : State → Prop} {out : State → State} (h : LongIssues op a e s)
    (hfin : (op a.folio.val a.ctx.val e s).finish = fun t => (out t).relEng a.folio.val a.ctx.val e)
    (hout : ∀ t x, out (t.withCtxs x) = (out t).withCtxs x)
    (hpart : (op a.folio.val a.ctx.val e s).part 0 ((op a.folio.val a.ctx.val e s).total (issued a e s)) (issued a e s) =
      ((op a.folio.val a.ctx.val e s).total (issued a e s), u))
    (hctxs : u.ctxs = (issued a e s).ctxs) (hpost : ∀ t, SameBut (out u) t → post t) :
    CompletesLong (longEngine opc op r a e s) a e s post := by
  have hs := longStarts h
  have hctx (m k : Nat) : u.ctx m k = (issued a e s).ctx m k := by simp only [State.ctx, hctxs]
  have hnone : { u.ctx a.folio.val a.ctx.val with inside := none } = u.ctx a.folio.val a.ctx.val := by rw [hctx, ← hs.inside]
  have hends := longRun_finishes (r := s.longRec a.folio.val a.ctx.val (op a.folio.val a.ctx.val e s).kind
    (BitVec.ofNat 128 (bundleOf opc e)).toNat) hfin hout hpart (by rw [hctx, hs.due]) (by rw [hctx, hs.halting])
  have hwith : out (u.setCtx a.folio.val a.ctx.val { u.ctx a.folio.val a.ctx.val with inside := none }) =
      (out u).withCtxs (u.setCtx a.folio.val a.ctx.val { u.ctx a.folio.val a.ctx.val with inside := none }).ctxs := hout u _
  refine ⟨_, (long_runs r h).trans (congrArg _ hends), hpost _ (hwith ▸ sameBut_iff.mpr ⟨_, rfl⟩), fun m k => ?_⟩
  rw [hwith, hnone]
  exact (ctx_setCtx_self rfl m k).trans (hctx m k)
/-- No word has bad parity once a bundle that issues soundly has acted with its scalar slot. -/
theorem issued_bad {op : Nat → Nat → Eng → State → Long} {a : Issue} {e : Eng} {s : State} (h : LongIssues op a e s) :
    (issued a e s).bad = [] := by
  obtain ⟨⟨-, -, hbad, -⟩, -, hscalar, -⟩ := h
  exact bad_scalarSlot _ _ hscalar (advance_bad hbad _ _)

/-! ## What the checks of a memory operation say (R352) -/

theorem memOp_clear {n c : Nat} {e : Eng} {s : State} {unit limit : Nat} {aligned down : Bool} {ts : List (Bool × Nat)}
    {run : Nat → Nat → State → State} (h : (memOp n c e s unit limit aligned down ts run).clear) :
    aligned = true ∧ s.sr n c (e.op 52 48) % unit = 0 := by
  have hts := h.1
  simp only [memOp, lowestTrap_append_none, lowestTrap_cons_none, Bool.or_eq_false_iff] at hts
  obtain ⟨⟨⟨-, -⟩, hal, ⟨⟨-, hlen⟩, -⟩, -⟩, -⟩ := hts
  exact ⟨by simpa using hal, by simpa using hlen⟩
/-- Done whole, a memory operation acts once on its whole range. -/
theorem memOp_whole {n c : Nat} {e : Eng} {s : State} {unit limit : Nat} {aligned down : Bool} {ts : List (Bool × Nat)}
    {run : Nat → Nat → State → State} (h : (memOp n c e s unit limit aligned down ts run).clear) (t : State) :
    (memOp n c e s unit limit aligned down ts run).part 0 ((memOp n c e s unit limit aligned down ts run).total t) t =
      ((memOp n c e s unit limit aligned down ts run).total t, run 0 (s.sr n c (e.op 52 48)) t) := by
  have hlen : unit * (s.sr n c (e.op 52 48) / unit) = s.sr n c (e.op 52 48) :=
    Nat.mul_div_cancel' (Nat.dvd_of_mod_eq_zero (memOp_clear h).2)
  simp only [memOp, copySpan]
  cases down <;> simp [hlen]

section
variable {a : Issue} {e : Eng} {s : State}

/-- Bytes written into the folio memories where no word is bad. -/
theorem keepsFm_of_put {i t : State} {k len : Nat} {bs : List Byte} (hbad : i.bad = []) (hlen : bs.length = len)
    (h : SameBut (i.put 0 k bs) t) : t.fm.bytes k len = bs ∧ KeepsFm k len i t := by
  subst hlen
  obtain ⟨x, rfl⟩ := sameBut_iff.mp h
  refine ⟨Memory.bytes_write _ _ _, ?_, fun j hj => Memory.byte_write_out _ _ _ hj⟩
  have hcured : (i.put 0 k bs).bad = i.bad := by rw [bad_put hbad, hbad]
  rw [show i.put 0 k bs = { i with fm := (i.put 0 k bs).fm, bad := (i.put 0 k bs).bad } from rfl, hcured]
  rfl
theorem keepsVat_of_put {i t : State} {k len : Nat} {bs : List Byte} (hbad : i.bad = []) (hlen : bs.length = len)
    (h : SameBut (i.put 6 k bs) t) : t.vat.bytes k len = bs ∧ KeepsVat k len i t := by
  subst hlen
  obtain ⟨x, rfl⟩ := sameBut_iff.mp h
  refine ⟨Memory.bytes_write _ _ _, ?_, fun j hj => Memory.byte_write_out _ _ _ hj⟩
  have hcured : (i.put 6 k bs).bad = i.bad := by rw [bad_put hbad, hbad]
  rw [show i.put 6 k bs = { i with vat := (i.put 6 k bs).vat, bad := (i.put 6 k bs).bad } from rfl, hcured]
  rfl
theorem keepsOb_of_put {i t : State} {k len : Nat} {bs : List Byte} (hbad : i.bad = []) (hlen : bs.length = len)
    (h : SameBut (i.put 1 k bs) t) : t.ob.bytes k len = bs ∧ SameOutside k len i.ob t.ob ∧ t = { i with ob := t.ob, ctxs := t.ctxs } := by
  subst hlen
  obtain ⟨x, rfl⟩ := sameBut_iff.mp h
  refine ⟨Memory.bytes_write _ _ _, fun j hj => Memory.byte_write_out _ _ _ hj, ?_⟩
  have hcured : (i.put 1 k bs).bad = i.bad := by rw [bad_put hbad, hbad]
  rw [show i.put 1 k bs = { i with ob := (i.put 1 k bs).ob, bad := (i.put 1 k bs).bad } from rfl, hcured]
  rfl
theorem fillBytes_length {pat len : Nat} (h : len % 8 = 0) : (fillBytes pat len).length = len := by
  simp only [fillBytes, List.length_flatten, List.map_replicate, toBytes_length, List.sum_replicate, smul_eq_mul]
  omega
end

/-- Settles O15: done whole, an operation puts the bytes of its source, read before it writes, at its destination. -/
theorem memoryOperations : Obligations.MemoryOperations := by
  intro a e s n c d x len i fmD fmX vtD vtX obD obX
  refine ⟨fun h => ?_, fun h => ?_, fun h => ?_, fun h => ?_, fun h => ?_, fun h => ?_, fun h => ?_, fun h => ?_⟩
  · exact long_completes_whole (out := id) h rfl (fun _ _ => rfl) (memOp_whole h.2.1 _) rfl fun t ht =>
      keepsFm_of_put (issued_bad h) (fillBytes_length (memOp_clear h.2.1).2) ht
  · exact long_completes_whole (out := id) h rfl (fun _ _ => rfl) (memOp_whole h.2.1 _) rfl fun t ht =>
      keepsFm_of_put (issued_bad h) (Memory.bytes_length _ _ _) ht
  · exact long_completes_whole (out := id) h rfl (fun _ _ => rfl) (memOp_whole h.2.1 _) rfl fun t ht =>
      keepsOb_of_put (issued_bad h) (Memory.bytes_length _ _ _) ht
  · exact long_completes_whole (out := id) h rfl (fun _ _ => rfl) (memOp_whole h.2.1 _) rfl fun t ht =>
      keepsFm_of_put (issued_bad h) (Memory.bytes_length _ _ _) ht
  · have hlen : len % 128 = 0 := (memOp_clear h.2.1).2
    exact long_completes_whole (out := id) h rfl (fun _ _ => rfl) (memOp_whole h.2.1 _) rfl fun t ht =>
      keepsVat_of_put (issued_bad h) (fillBytes_length (by omega)) ht
  · exact long_completes_whole (out := id) h rfl (fun _ _ => rfl) (memOp_whole h.2.1 _) rfl fun t ht =>
      keepsVat_of_put (issued_bad h) (Memory.bytes_length _ _ _) ht
  · exact long_completes_whole (out := id) h rfl (fun _ _ => rfl) (memOp_whole h.2.1 _) rfl fun t ht =>
      keepsFm_of_put (issued_bad h) (Memory.bytes_length _ _ _) ht
  · exact long_completes_whole (out := id) h rfl (fun _ _ => rfl) (memOp_whole h.2.1 _) rfl fun t ht =>
      keepsVat_of_put (issued_bad h) (Memory.bytes_length _ _ _) ht

end Sys2Proof.Machine
end

-- ==== Interrupted instructions: O44 ====
section
/-! SUPPORT. A suspended instruction continues exactly (R416, R418, R419, R644). In order: the fields of a bundle; canonical maps that read
alike; bytes written in two parts; a memory operation cut at a unit boundary; the context of an instruction that is cut; an interrupt;
RESUME. -/

namespace Sys2Proof.Machine

open Sys2Proof.Claims

/-! ## The fields of a bundle (R427, R437) -/

theorem bundleOf_lt {opc : Nat} (h : opc < 256) (e : Eng) : bundleOf opc e < 2 ^ 128 := by
  have htag := e.tag.isLt
  have hstrm := e.rstrm.isLt
  have hac := e.ac.isLt
  have hops := e.ops.isLt
  have hsc := e.sc.isLt
  unfold bundleOf
  cases e.rel <;> simp only [Bool.false_eq_true, if_false, if_true] <;> omega
/-- The fields of 128 bits laid out as R427 and R437 say. -/
theorem laid_fields {opc tag rel strm ac ops sc : Nat} (hopc : opc < 256) (htag : tag < 128) (hrel : rel < 2) (hstrm : strm < 8)
    (hac : ac < 65536) (hops : ops < 2 ^ 61) (hsc : sc < 2 ^ 32) :
    let b := sc * 2 ^ 96 + opc * 2 ^ 88 + tag * 2 ^ 81 + rel * 2 ^ 80 + strm * 2 ^ 77 + ac * 2 ^ 61 + ops
    bits b 95 88 = opc ∧ bits b 87 81 = tag ∧ bits b 80 80 = rel ∧ bits b 79 77 = strm ∧ bits b 76 61 = ac ∧ bits b 60 0 = ops ∧
      bits b 127 96 = sc := by
  intro b
  simp only [bits]
  refine ⟨?_, ?_, ?_, ?_, ?_, ?_, ?_⟩ <;> omega
/-- The opcode and the engine slot of a bundle are those that it was made of. -/
theorem bundle_fields {opc : Nat} (h : opc < 256) (e : Eng) : bundleOpc (bundleOf opc e) = opc ∧ bundleEng (bundleOf opc e) = e := by
  obtain ⟨tag, rel, strm, ac, ops, sc⟩ := e
  have hlaid : bundleOf opc ⟨tag, rel, strm, ac, ops, sc⟩ = sc.toNat * 2 ^ 96 + opc * 2 ^ 88 + tag.toNat * 2 ^ 81 +
      rel.toNat * 2 ^ 80 + strm.toNat * 2 ^ 77 + ac.toNat * 2 ^ 61 + ops.toNat := by
    cases rel <;> simp [bundleOf]
  obtain ⟨hb, ht, hr, hst, ha, ho, hs⟩ := laid_fields h tag.isLt rel.toNat_lt strm.isLt ac.isLt ops.isLt sc.isLt
  refine ⟨by rw [hlaid, bundleOpc, hb], ?_⟩
  have hrel : bit (bundleOf opc ⟨tag, rel, strm, ac, ops, sc⟩) 80 = rel := by
    rw [hlaid, bit, hr]
    cases rel <;> rfl
  rw [bundleEng, hrel, hlaid, ht, hst, ha, ho, hs]
  simp only [BitVec.ofNat_toNat, BitVec.setWidth_eq]

/-! ## Canonical maps that read alike -/

/-- Two maps in canonical form that read alike are equal. -/
theorem Sp.eq_of_wfFrom {α : Type} [DecidableEq α] {d : Nat → α} {lo : Nat} {m m' : Sp α} (hm : Sp.wfFrom d lo m = true)
    (hm' : Sp.wfFrom d lo m' = true) (h : ∀ k, Sp.get d m k = Sp.get d m' k) : m = m' := by
  induction m generalizing lo m' with
  | nil =>
    cases m' with
    | nil => rfl
    | cons p m' =>
      obtain ⟨b, w⟩ := p
      simp only [Sp.wfFrom, Bool.and_eq_true, decide_eq_true_eq] at hm'
      exact absurd (h b) (by simpa [Sp.get] using hm'.1.2.symm)
  | cons p m ih =>
    obtain ⟨a, v⟩ := p
    simp only [Sp.wfFrom, Bool.and_eq_true, decide_eq_true_eq] at hm
    obtain ⟨⟨hlo, hv⟩, hrest⟩ := hm
    cases m' with
    | nil => exact absurd (h a) (by simpa [Sp.get] using hv)
    | cons q m' =>
      obtain ⟨b, w⟩ := q
      simp only [Sp.wfFrom, Bool.and_eq_true, decide_eq_true_eq] at hm'
      obtain ⟨⟨hlo', hw⟩, hrest'⟩ := hm'
      have hab : a = b := by
        rcases Nat.lt_trichotomy a b with hlt | heq | hgt
        · have hb := h a
          simp only [Sp.get, if_true, if_neg (Nat.ne_of_gt hlt)] at hb
          exact absurd (hb.trans (Sp.wfFrom_get_below d hrest' (by omega))) hv
        · exact heq
        · have ha := h b
          simp only [Sp.get, if_true, if_neg (Nat.ne_of_gt hgt)] at ha
          exact absurd (ha.symm.trans (Sp.wfFrom_get_below d hrest (by omega))) hw
      subst hab
      have hvw : v = w := by simpa [Sp.get] using h a
      subst hvw
      refine congrArg _ (ih hrest hrest' fun k => ?_)
      by_cases hk : a = k
      · rw [Sp.wfFrom_get_below d hrest (by omega), Sp.wfFrom_get_below d hrest' (by omega)]
      · simpa [Sp.get, hk] using h k
theorem Memory.ext {m m' : Memory} (hm : m.wf = true) (hm' : m'.wf = true) (h : ∀ k, m.byte k = m'.byte k) : m = m' :=
  Sp.eq_of_wfFrom hm hm' h

/-! ## Bytes written in two parts -/

theorem Memory.write_append (m : Memory) (k : Nat) (bs cs : List Byte) : m.write k (bs ++ cs) = (m.write k bs).write (k + bs.length) cs := by
  unfold Memory.write
  induction bs generalizing m k with
  | nil => rfl
  | cons b bs ih =>
    simp only [List.cons_append, Sp.setMany, List.length_cons, ih]
    rw [Nat.add_right_comm, Nat.add_assoc]
/-- The upper part first, where the memory is canonical. -/
theorem Memory.write_append_upper {m : Memory} (hm : m.wf = true) (k : Nat) (bs cs : List Byte) :
    m.write k (bs ++ cs) = (m.write (k + bs.length) cs).write k bs := by
  rw [Memory.write_append]
  refine Memory.ext (Memory.wf_write (Memory.wf_write hm _ _) _ _) (Memory.wf_write (Memory.wf_write hm _ _) _ _) fun j => ?_
  by_cases hlow : k ≤ j ∧ j < k + bs.length
  · obtain ⟨i, rfl⟩ := Nat.exists_eq_add_of_le hlow.1
    rw [Memory.byte_write_out _ _ _ (by omega), Memory.byte_write_in _ _ _ (by omega), Memory.byte_write_in _ _ _ (by omega)]
  · rw [Memory.byte_write_out _ _ _ (show j < k ∨ k + bs.length ≤ j by omega)]
    by_cases hup : k + bs.length ≤ j ∧ j < k + bs.length + cs.length
    · obtain ⟨i, rfl⟩ := Nat.exists_eq_add_of_le hup.1
      rw [Memory.byte_write_in _ _ _ (by omega), Memory.byte_write_in _ _ _ (by omega)]
    · rw [Memory.byte_write_out _ _ _ (by omega), Memory.byte_write_out _ _ _ (by omega), Memory.byte_write_out _ _ _ (by omega)]
/-- Words written whole in two aligned parts, in either order, are those of the whole range. -/
theorem cured_cured (b : Sp Bool) (m : Nat) {k j l : Nat} (hk : k % 8 = 0) (hj : j % 8 = 0) (hl : l % 8 = 0) :
    cured (cured b m k j) m (k + j) l = cured b m k (j + l) ∧ cured (cured b m (k + j) l) m k j = cured b m k (j + l) := by
  have hkj : (k + 7) / 8 + (k + j) / 8 - (k + 7) / 8 = (k + j) / 8 := by omega
  constructor
  · simp only [cured, Sp.erase, List.filter_filter]
    refine List.filter_congr fun p _ => ?_
    rw [Bool.eq_iff_iff]
    simp only [Bool.and_eq_true, Bool.or_eq_true, decide_eq_true_eq]
    omega
  · simp only [cured, Sp.erase, List.filter_filter]
    refine List.filter_congr fun p _ => ?_
    rw [Bool.eq_iff_iff]
    simp only [Bool.and_eq_true, Bool.or_eq_true, decide_eq_true_eq]
    omega
theorem put_regs (t : State) (m k : Nat) (bs : List Byte) : (t.put m k bs).regs = t.regs := by
  unfold State.put State.setMem
  split <;> rfl
theorem put_eq (t : State) (m k : Nat) (bs : List Byte) :
    t.put m k bs = { t.setMem m ((t.mem m).write k bs) with bad := cured t.bad m k bs.length } := rfl
theorem mem_setMem_same (t : State) (m : Nat) (x : Memory) (bad : Sp Bool) : State.mem { t.setMem m x with bad := bad } m = x := by
  match m with
  | 0 | 1 | 2 | 3 | 4 | 5 => rfl
  | _ + 6 => rfl
theorem setMem_setMem (t : State) (m : Nat) (x y : Memory) (bad bad' : Sp Bool) :
    { ({ t.setMem m x with bad := bad } : State).setMem m y with bad := bad' } = { t.setMem m y with bad := bad' } := by
  match m with
  | 0 | 1 | 2 | 3 | 4 | 5 => rfl
  | _ + 6 => rfl
theorem put_put (t : State) (m k j : Nat) (bs cs : List Byte) : (t.put m k bs).put m j cs =
    { t.setMem m (((t.mem m).write k bs).write j cs) with bad := cured (cured t.bad m k bs.length) m j cs.length } := by
  simp only [put_eq, mem_setMem_same, setMem_setMem]
/-- Aligned bytes put in two parts, the lower one first. -/
theorem put_append (t : State) (m k : Nat) (bs cs : List Byte) (hk : k % 8 = 0) (hbs : bs.length % 8 = 0) (hcs : cs.length % 8 = 0) :
    (t.put m k bs).put m (k + bs.length) cs = t.put m k (bs ++ cs) := by
  rw [put_put, put_eq, Memory.write_append, (cured_cured _ _ hk hbs hcs).1, List.length_append]
/-- The upper part first, where the memories are canonical. -/
theorem put_append_upper {t : State} (ht : t.memWf = true) (m k : Nat) (bs cs : List Byte) (hk : k % 8 = 0) (hbs : bs.length % 8 = 0)
    (hcs : cs.length % 8 = 0) : (t.put m (k + bs.length) cs).put m k bs = t.put m k (bs ++ cs) := by
  rw [put_put, put_eq, Memory.write_append_upper (State.Canon.mem ht), (cured_cured _ _ hk hbs hcs).2, List.length_append]

/-! ## A memory operation cut at a unit boundary (R352, R353, R644) -/

/-- An effect on spans of bytes that puts what it reads of the state at the same place of an aligned destination in memory `m`. Spans of
whole units are read piece by piece, and nothing that was put on the side from which the operation comes is read again. -/
structure SpanEffect (s : State) (m dst u : Nat) (down : Bool) (rd : State → Nat → Nat → List Byte) (run : Nat → Nat → State → State) :
    Prop where
  puts : ∀ t, t.regs = s.regs → ∀ off k, run off k t = t.put m (dst + off) (rd t off k)
  aligned : dst % 8 = 0 ∧ u % 8 = 0
  length : ∀ t off j, (rd t off (u * j)).length = u * j
  append : ∀ t off j k, rd t off (u * j + u * k) = rd t off (u * j) ++ rd t (off + u * j) (u * k)
  apart : ∀ t off bs off' k, (if down then off' + k ≤ off else off + bs.length ≤ off') → rd (t.put m (dst + off) bs) off' k = rd t off' k

/-- Done up to a unit boundary and then from there on, such an effect leaves what doing it whole leaves. -/
theorem SpanEffect.split {n c : Nat} {e : Eng} {s t : State} {unit limit m dst : Nat} {aligned down : Bool} {ts : List (Bool × Nat)}
    {run : Nat → Nat → State → State} {rd : State → Nat → Nat → List Byte} (hrun : SpanEffect s m dst unit down rd run)
    (hclear : (memOp n c e s unit limit aligned down ts run).clear) (hregs : t.regs = s.regs) (ht : t.memWf = true) {lo hi : Nat}
    (hlo : lo ≤ hi) (hhi : hi < (memOp n c e s unit limit aligned down ts run).total t) :
    let l := memOp n c e s unit limit aligned down ts run
    l.part hi (l.total t) (l.part lo hi t).2 = l.part lo (l.total t) t := by
  intro l
  obtain ⟨N, hN⟩ : ∃ N, l.total t = N := ⟨_, rfl⟩
  have hlen : s.sr n c (e.op 52 48) = unit * N :=
    (Nat.mul_div_cancel' (Nat.dvd_of_mod_eq_zero (memOp_clear hclear).2)).symm.trans (by rw [← hN]; rfl)
  obtain ⟨p, rfl⟩ := Nat.exists_eq_add_of_le hlo
  obtain ⟨q, rfl⟩ := Nat.exists_eq_add_of_le (Nat.le_of_lt (hN ▸ hhi : lo + p < N))
  obtain ⟨hdst, hunit⟩ := hrun.aligned
  have hmod (x : Nat) : unit * x % 8 = 0 := by rw [Nat.mul_mod, hunit, Nat.zero_mul, Nat.zero_mod]
  have hpart (x y : Nat) (v : State) (hv : v.regs = s.regs) : l.part x y v = (y, v.put m (dst + (copySpan down unit (unit * (lo + p + q)) x y).1)
      (rd v (copySpan down unit (unit * (lo + p + q)) x y).1 (copySpan down unit (unit * (lo + p + q)) x y).2)) := by
    rw [← hrun.puts v hv, ← hlen]
    rfl
  have hregs' : (l.part lo (lo + p) t).2.regs = s.regs := by
    rw [hpart _ _ _ hregs, put_regs, hregs]
  rw [hN, hpart _ _ _ hregs', hpart _ _ _ hregs, hpart _ _ _ hregs]
  have hp : lo + p - lo = p := by omega
  have hq : lo + p + q - (lo + p) = q := by omega
  have hpq : lo + p + q - lo = p + q := by omega
  refine congrArg (Prod.mk _) ?_
  cases down with
  | false =>
    simp only [copySpan, Bool.false_eq_true, if_false, hp, hq, hpq]
    rw [hrun.apart _ _ _ _ _ (by simp [hrun.length, Nat.mul_add]), Nat.mul_add unit p q, hrun.append, Nat.mul_add unit lo p,
      ← Nat.add_assoc]
    have hput := put_append t m (dst + unit * lo) (rd t (unit * lo) (unit * p)) (rd t (unit * lo + unit * p) (unit * q))
      (by have := hmod lo; omega) (by rw [hrun.length]; exact hmod p) (by rw [hrun.length]; exact hmod q)
    rwa [hrun.length] at hput
  | true =>
    have hoff : unit * (lo + p + q) - unit * (lo + p) = unit * q := by rw [← Nat.mul_sub, Nat.add_sub_cancel_left]
    simp only [copySpan, if_true, hp, hq, hpq, hoff, Nat.sub_self, Nat.add_zero]
    rw [hrun.apart _ _ _ _ _ (by simp), Nat.mul_add unit p q, Nat.add_comm (unit * p), hrun.append, Nat.zero_add]
    have hput := put_append_upper ht m dst (rd t 0 (unit * q)) (rd t (unit * q) (unit * p)) hdst
      (by rw [hrun.length]; exact hmod q) (by rw [hrun.length]; exact hmod p)
    rwa [hrun.length] at hput

/-- The effect that fills its span with a pattern. -/
theorem spanEffect_fill {s : State} {m dst u : Nat} {down : Bool} {pat : Nat} {run : Nat → Nat → State → State}
    (haligned : dst % 8 = 0 ∧ u % 8 = 0)
    (hputs : ∀ t, t.regs = s.regs → ∀ off k, run off k t = t.put m (dst + off) (fillBytes pat k)) :
    SpanEffect s m dst u down (fun _ _ k => fillBytes pat k) run := by
  have hmod (x : Nat) : u * x % 8 = 0 := by rw [Nat.mul_mod, haligned.2, Nat.zero_mul, Nat.zero_mod]
  refine ⟨hputs, haligned, fun _ _ j => fillBytes_length (hmod j), fun _ _ j k => ?_, fun _ _ _ _ _ _ => rfl⟩
  have hdiv : (u * j + u * k) / 8 = u * j / 8 + u * k / 8 := by
    have hj := hmod j
    have hk := hmod k
    omega
  simp only [fillBytes, hdiv, List.replicate_add, List.flatten_append]
theorem mem_put_same (t : State) (m k : Nat) (bs : List Byte) : (t.put m k bs).mem m = (t.mem m).write k bs := by
  rw [put_eq, mem_setMem_same]
theorem mem_vat (t : State) : t.mem 6 = t.vat := rfl
theorem Memory.bytes_write_out (x : Memory) (lo : Nat) (bs : List Byte) {k len : Nat} (h : k + len ≤ lo ∨ lo + bs.length ≤ k) :
    (x.write lo bs).bytes k len = x.bytes k len := by
  refine Memory.bytes_congr fun j hlo hhi => Memory.byte_write_out x lo bs ?_
  omega
/-- The effect that copies from memory `ms`: another memory than the destination's, or the same one, from the side on which the source
lies. -/
theorem spanEffect_copy {s : State} {m ms dst src u : Nat} {down : Bool} {run : Nat → Nat → State → State}
    (haligned : dst % 8 = 0 ∧ u % 8 = 0)
    (hputs : ∀ t, t.regs = s.regs → ∀ off k, run off k t = t.put m (dst + off) ((t.mem ms).bytes (src + off) k))
    (hside : (∀ (t : State) k bs, (t.put m k bs).mem ms = t.mem ms) ∨ (ms = m ∧ down = decide (src < dst))) :
    SpanEffect s m dst u down (fun t off k => (t.mem ms).bytes (src + off) k) run := by
  refine ⟨hputs, haligned, fun _ _ _ => Memory.bytes_length _ _ _, fun t off j k => ?_, fun t off bs off' k hk => ?_⟩
  · rw [Memory.bytes_add, Nat.add_assoc]
  · rcases hside with hother | ⟨rfl, rfl⟩
    · rw [hother]
    · simp only [mem_put_same]
      refine Memory.bytes_write_out _ _ _ ?_
      by_cases hlt : src < dst
      · rw [if_pos (by simpa using hlt)] at hk
        omega
      · rw [if_neg (by simpa using hlt)] at hk
        omega

/-! The eight memory operations -/

/-- The memory operations, with their opcodes (R442). -/
def memOps : List (Nat × (Nat → Nat → Eng → State → Long) × (Issue → Eng → Instr)) :=
  [(0x90, opFmfill, .fmfill), (0x91, opFmcopy, .fmcopy), (0x92, opObld, .obld), (0x93, opObst, .obst),
    (0x94, opVtfill, .vtfill), (0x95, opVtcopy, .vtcopy), (0x96, opVtld, .vtld), (0x97, opVtst, .vtst)]

section
variable {n c : Nat} {e : Eng} {s t : State}

theorem fmKey_aligned (r : Nat) : s.fmKey n c r % 8 = r % 8 := by
  simp only [State.fmKey, State.fmPhys]
  omega
theorem fmKey_lt_iff (r d : Nat) : s.fmKey n c r < s.fmKey n c d ↔ r < d := by
  simp only [State.fmKey, State.fmPhys]
  omega
theorem sigBase_of_regs (h : t.regs = s.regs) (k : Nat) : t.sigBase k = s.sigBase k := by
  simp only [State.sigBase, State.fld, State.reg, h]
theorem sigBase_aligned (k : Nat) : s.sigBase k % 8 = 0 := by
  simp only [State.sigBase]
  omega

/-- A memory operation done up to a unit boundary and then from there on leaves what doing it whole leaves. -/
theorem memOps_split {lo hi : Nat} (hregs : t.regs = s.regs) (ht : t.memWf = true) (hlo : lo ≤ hi) :
    ∀ p ∈ memOps, (p.2.1 n c e s).clear → hi < (p.2.1 n c e s).total t →
      (p.2.1 n c e s).part hi ((p.2.1 n c e s).total t) ((p.2.1 n c e s).part lo hi t).2 =
        (p.2.1 n c e s).part lo ((p.2.1 n c e s).total t) t := by
  obtain ⟨d, hd⟩ : ∃ d, s.ar n c (e.op 60 57) = d := ⟨_, rfl⟩
  obtain ⟨x, hx⟩ : ∃ x, s.ar n c (e.op 56 53) = x := ⟨_, rfl⟩
  have hkey (u : State) (h : u.regs = s.regs) (r off : Nat) : u.fmKey n c (r + off) = s.fmKey n c r + off := by
    rw [fmKey_of_regs h, fmKey_add]
  have hsig (u : State) (h : u.regs = s.regs) (k r off : Nat) : u.sigBase k + (r + off) = s.sigBase k + r + off := by
    rw [sigBase_of_regs h, Nat.add_assoc]
  have hfm (r : Nat) : s.fmKey n c r % 8 = r % 8 := fmKey_aligned r
  have hvat : s.sigBase (vatHandle d) % 8 = 0 := sigBase_aligned _
  have hob (arr r : Nat) : obKey n arr r % 8 = r % 8 := by
    simp only [obKey]
    omega
  have hobadd (arr r off : Nat) : obKey n arr (r + off) = obKey n arr r + off := (Nat.add_assoc _ _ _).symm
  simp only [memOps, List.forall_mem_cons, List.not_mem_nil, false_implies, implies_true, and_true]
  refine ⟨fun hclear hhi => ?_, fun hclear hhi => ?_, fun hclear hhi => ?_, fun hclear hhi => ?_, fun hclear hhi => ?_,
    fun hclear hhi => ?_, fun hclear hhi => ?_, fun hclear hhi => ?_⟩ <;> have hal := (memOp_clear hclear).1 <;>
    simp only [Bool.and_eq_true, beq_iff_eq, hd, hx] at hal
  · have heffect : SpanEffect s 0 (s.fmKey n c (addrOf d)) 8 false (fun _ _ k => fillBytes (s.srPair n c (e.op 47 43)) k)
        (fun off k t => t.fmWrite n c (addrOf d + off) (fillBytes (s.srPair n c (e.op 47 43)) k)) := by
      refine spanEffect_fill ⟨(hfm _).trans hal, rfl⟩ fun u hu off k => ?_
      rw [← hkey u hu, State.fmWrite]
    exact (hd ▸ heffect).split hclear hregs ht hlo hhi
  · have heffect : SpanEffect s 0 (s.fmKey n c (addrOf d)) 8 (decide (addrOf x < addrOf d))
        (fun t off k => (t.mem 0).bytes (s.fmKey n c (addrOf x) + off) k)
        (fun off k t => t.fmWrite n c (addrOf d + off) (t.fmBytes n c (addrOf x + off) k)) := by
      refine spanEffect_copy ⟨(hfm _).trans hal.1, rfl⟩ (fun u hu off k => ?_) (.inr ⟨rfl, by simp only [fmKey_lt_iff]⟩)
      rw [← hkey u hu, ← hkey u hu, State.fmWrite, State.fmBytes, State.mem]
    exact (hd ▸ hx ▸ heffect).split hclear hregs ht hlo hhi
  · have heffect : SpanEffect s 1 (obKey n (obArr d) (obOff d)) 64 false (fun t off k => (t.mem 0).bytes (s.fmKey n c (addrOf x) + off) k)
        (fun off k t => t.put 1 (obKey n (obArr d) (obOff d + off)) (t.fmBytes n c (addrOf x + off) k)) := by
      refine spanEffect_copy ⟨(hob _ _).trans (by omega), rfl⟩ (fun u hu off k => ?_) (.inl fun _ _ _ => rfl)
      rw [← hkey u hu, ← hobadd, State.fmBytes, State.mem]
    exact (hd ▸ hx ▸ heffect).split hclear hregs ht hlo hhi
  · have heffect : SpanEffect s 0 (s.fmKey n c (addrOf d)) 64 false
        (fun t off k => (t.mem 1).bytes (obKey n (obArr x) (obOff x) + off) k)
        (fun off k t => t.fmWrite n c (addrOf d + off) (t.ob.bytes (obKey n (obArr x) (obOff x + off)) k)) := by
      refine spanEffect_copy ⟨(hfm _).trans (by omega), rfl⟩ (fun u hu off k => ?_) (.inl fun _ _ _ => rfl)
      rw [← hkey u hu, ← hobadd, State.fmWrite, State.mem]
    exact (hd ▸ hx ▸ heffect).split hclear hregs ht hlo hhi
  · have heffect : SpanEffect s 6 (s.sigBase (vatHandle d) + vatOff d) 128 false (fun _ _ k => fillBytes (s.srPair n c (e.op 47 43)) k)
        (fun off k t => t.vatWrite (vatHandle d) (vatOff d + off) (fillBytes (s.srPair n c (e.op 47 43)) k)) := by
      refine spanEffect_fill ⟨by omega, rfl⟩ fun u hu off k => ?_
      rw [← hsig u hu, State.vatWrite]
    exact (hd ▸ heffect).split hclear hregs ht hlo hhi
  · have heffect : SpanEffect s 6 (s.sigBase (vatHandle d) + vatOff d) 128
        (decide (s.sigBase (vatHandle x) + vatOff x < s.sigBase (vatHandle d) + vatOff d))
        (fun t off k => (t.mem 6).bytes (s.sigBase (vatHandle x) + vatOff x + off) k)
        (fun off k t => t.vatWrite (vatHandle d) (vatOff d + off) (t.vatBytes (vatHandle x) (vatOff x + off) k)) := by
      refine spanEffect_copy ⟨by omega, rfl⟩ (fun u hu off k => ?_) (.inr ⟨rfl, rfl⟩)
      rw [← hsig u hu (vatHandle d) (vatOff d), ← hsig u hu (vatHandle x) (vatOff x), State.vatWrite, State.vatBytes, mem_vat]
    exact (hd ▸ hx ▸ heffect).split hclear hregs ht hlo hhi
  · have heffect : SpanEffect s 0 (s.fmKey n c (addrOf d)) 128 false
        (fun t off k => (t.mem 6).bytes (s.sigBase (vatHandle x) + vatOff x + off) k)
        (fun off k t => t.fmWrite n c (addrOf d + off) (t.vatBytes (vatHandle x) (vatOff x + off) k)) := by
      refine spanEffect_copy ⟨(hfm _).trans (by omega), rfl⟩ (fun u hu off k => ?_) (.inl fun _ _ _ => rfl)
      rw [← hkey u hu (addrOf d), ← hsig u hu (vatHandle x) (vatOff x), State.fmWrite, State.vatBytes, mem_vat]
    exact (hd ▸ hx ▸ heffect).split hclear hregs ht hlo hhi
  · have heffect : SpanEffect s 6 (s.sigBase (vatHandle d) + vatOff d) 128 false
        (fun t off k => (t.mem 0).bytes (s.fmKey n c (addrOf x) + off) k)
        (fun off k t => t.vatWrite (vatHandle d) (vatOff d + off) (t.fmBytes n c (addrOf x + off) k)) := by
      refine spanEffect_copy ⟨by omega, rfl⟩ (fun u hu off k => ?_) (.inl fun _ _ _ => rfl)
      rw [← hkey u hu (addrOf x), ← hsig u hu (vatHandle d) (vatOff d), State.vatWrite, State.fmBytes, State.mem]
    exact (hd ▸ hx ▸ heffect).split hclear hregs ht hlo hhi
end

/-! ## A memory operation that is cut (R416, R644) -/

section
variable {n c : Nat} {t u : State}

theorem st_of_ctxs (h : u.ctxs = t.ctxs) : (u.ctx n c).st = (t.ctx n c).st := by
  simp only [State.ctx, h]
theorem st_setCtx {m k : Nat} {y : Ctx} (h : y.st = (t.ctx m k).st) : ((t.setCtx m k y).ctx n c).st = (t.ctx n c).st := by
  by_cases hk : 4 * n + c = 4 * m + k
  · have hread : (t.setCtx m k y).ctx n c = y := by rw [State.ctx, hk]; exact State.ctx_setCtx_same t m k y
    have hold : t.ctx n c = t.ctx m k := by rw [State.ctx, hk]; rfl
    rw [hread, hold, h]
  · rw [State.ctx_setCtx_ne t y hk]

theorem st_setSr (r v : Nat) : ((t.setSr n c r v).ctx n c).st = (t.ctx n c).st := st_of_ctxs rfl
theorem st_setAr (r v : Nat) : ((t.setAr n c r v).ctx n c).st = (t.ctx n c).st := st_of_ctxs rfl
theorem st_setLcr (r v : Nat) : ((t.setLcr n c r v).ctx n c).st = (t.ctx n c).st := st_of_ctxs rfl
theorem st_fmStore (r len v : Nat) : ((t.fmStore n c r len v).ctx n c).st = (t.ctx n c).st := st_of_ctxs rfl
theorem st_jump (b : Nat) : ((t.jump n c b).ctx n c).st = (t.ctx n c).st := st_setCtx rfl

/-! TCANCEL leaves every context in the state of work that it is in. -/

theorem st_dropResume (m k tag : Nat) : ((t.dropResume m k tag).ctx n c).st = (t.ctx n c).st := by
  unfold State.dropResume
  split
  · rfl
  · extract_lets x hits y z
    have hy : y.st = x.st := by
      dsimp only [y]
      split
      · rfl
      · rfl
    have hz : z.st = x.st := by
      dsimp only [z]
      split
      · exact hy
      · exact hy
    split
    · rfl
    · exact st_setCtx hz
theorem st_cancelEngines (m tag : Nat) : ((t.cancelEngines m tag).ctx n c).st = (t.ctx n c).st := by
  unfold State.cancelEngines
  extract_lets js gs ps s1 s2 s3
  have h2 : s2.ctxs = t.ctxs := foldl_keeps (g := State.ctxs) (f := fun s k => s.closeTiles m tag k) (fun _ _ => rfl) _ s1
  have h3 : s3.ctxs = t.ctxs := by
    dsimp only [s3]
    split
    · split
      · exact h2
      · exact h2
    · exact h2
  have hsoft : (s3.dropSoftmax m tag).ctxs = s3.ctxs := by
    unfold State.dropSoftmax
    split
    · rfl
    · rfl
  exact (foldl_keeps (g := fun s : State => (s.ctx n c).st) (fun s k => st_dropResume m k tag) _ _).trans (st_of_ctxs (hsoft.trans h3))
theorem ctxs_cancelMoves (tag : Nat) : (t.cancelMoves tag).ctxs = t.ctxs := by
  unfold State.cancelMoves
  extract_lets s0 led s1 dead lost
  have h0 : s0.ctxs = t.ctxs := by
    refine foldl_keeps (g := State.ctxs) (fun s q => ?_) _ t
    dsimp only
    split
    · rfl
    · rfl
  have h1 : s1.ctxs = t.ctxs := by
    refine (foldl_keeps (g := State.ctxs) (fun s q => ?_) _ s0).trans h0
    unfold State.cancelIn
    dsimp only
    split
    · split
      · rfl
      · rfl
    · rfl
  clear_value s1
  refine (foldl_keeps (g := State.ctxs) (fun s r => ?_) lost _).trans h1
  unfold State.recvCancelled
  split
  · rfl
  · rfl
theorem st_cancelWork (m tag : Nat) : ((t.cancelWork m tag).ctx n c).st = (t.ctx n c).st :=
  (st_of_ctxs (ctxs_cancelMoves tag)).trans (st_cancelEngines m tag)
theorem ctxs_setTagSt (k : Nat) (st : TagSt) : (t.setTagSt n c k st).ctxs = t.ctxs := by
  unfold State.setTagSt
  split
  · rfl
  · rfl
theorem st_takeRecord (lf k : Nat) : ((t.takeRecord n c lf k).ctx n c).st = (t.ctx n c).st :=
  st_setCtx (y := { t.ctx n c with doneQ := (t.ctx n c).doneQ.filter (fun r => bits r.toNat 12 0 != folioTag lf k) }) rfl

/-- A scalar slot beside an engine instruction that breaks no rule leaves its context running. -/
theorem st_scalarSlot {sc : BitVec 32} {s : State} (h : (scalarSlot true n c sc s).clear) (t : State) :
    (((scalarSlot true n c sc s).run t).ctx n c).st = (t.ctx n c).st := by
  revert h
  unfold scalarSlot
  extract_lets w
  split <;> intro h
  · rfl
  iterate 19 exact st_setSr _ _
  · exact st_fmStore _ _ _
  · exact (st_setSr _ _).trans (st_setSr _ _)
  · exact st_fmStore _ _ _
  · exact st_setAr _ _
  · exact st_fmStore _ _ _
  · exact st_setAr _ _
  · exact st_setAr _ _
  · exact st_setAr _ _
  · exact (st_setSr _ _).trans (st_setSr _ _)
  · exact st_setLcr _ _
  · unfold opBr
    dsimp only
    split
    · exact st_jump _
    · rfl
  · exact st_jump _
  · exact st_setCtx rfl
  · unfold opRet
    dsimp only
    split
    · exact st_setCtx rfl
    · rfl
  · unfold opLoop
    dsimp only
    split
    · exact st_setLcr _ _
    · exact (st_jump _).trans (st_setLcr _ _)
  iterate 5 exact absurd h opMixed_not_clear
  · unfold opTopen
    dsimp only
    split
    · exact st_of_ctxs rfl
    · rfl
  · exact st_of_ctxs (ctxs_setTagSt _ _)
  · unfold opTcancel
    dsimp only
    split
    · split
      · exact (st_cancelWork _ _).trans (st_of_ctxs (ctxs_setTagSt _ _))
      · rfl
    · rfl
  · unfold opTwait
    dsimp only
    split
    · exact st_takeRecord _ _
    · rfl
  · unfold opTpoll
    dsimp only
    split
    · exact (st_setSr _ _).trans (st_takeRecord _ _)
    · exact st_setSr _ _
  · rfl
end

/-- The record of a resumable instruction that stands at a boundary. -/
def State.cutRec (s : State) (n c kind bundle pos : Nat) : Resume := { s.longRec n c kind bundle with pos := pos }
/-- A resumable instruction that is cut stays in its context at the boundary. -/
theorem long_cut {opc : Nat} {op : Nat → Nat → Eng → State → Long} {a : Issue} {e : Eng} {s : State} (r : Option Nat) (hready : ready a s)
    (hclear : (op a.folio.val a.ctx.val e s).clear) (hscalar : (scalarSlot true a.folio.val a.ctx.val e.sc s).clear)
    (hhalt : (s.ctx a.folio.val a.ctx.val).halting = false) (hcut : a.cut ≠ 0)
    (hlt : a.cut < (op a.folio.val a.ctx.val e s).total (issued a e s))
    (hpart : ∀ hi t, ((op a.folio.val a.ctx.val e s).part 0 hi t).1 = hi ∧ ((op a.folio.val a.ctx.val e s).part 0 hi t).2.ctxs = t.ctxs) :
    Next (longEngine opc op r a e s) (fun t =>
      (t.ctx a.folio.val a.ctx.val).st = .running ∧
      (t.ctx a.folio.val a.ctx.val).inside = some (s.cutRec a.folio.val a.ctx.val
        (op a.folio.val a.ctx.val e s).kind (BitVec.ofNat 128 (bundleOf opc e)).toNat a.cut) ∧
      SameBut ((op a.folio.val a.ctx.val e s).part 0 a.cut (issued a e s)).2 t) := by
  have hruns := longEngine_runs (opc := opc) r hready hclear hscalar
  rw [show (scalarSlot true a.folio.val a.ctx.val e.sc s).run (s.advance a.folio.val a.ctx.val) = issued a e s from rfl] at hruns
  obtain ⟨hpos, hctxs⟩ := hpart a.cut (issued a e s)
  have hst : ((issued a e s).ctx a.folio.val a.ctx.val).st = .running := by
    rw [issued, st_scalarSlot hscalar, advance_ctx_same]
    exact hready.1.1
  have hkept : ((issued a e s).ctx a.folio.val a.ctx.val).halting = false := (issued_beside hscalar).halting.trans hhalt
  generalize issued a e s = i at *
  generalize hu : ((op a.folio.val a.ctx.val e s).part 0 a.cut i).2 = u at *
  have hctx : u.ctx a.folio.val a.ctx.val = i.ctx a.folio.val a.ctx.val := by simp only [State.ctx, hctxs]
  have hrun : longRun a.folio.val a.ctx.val a.cut (op a.folio.val a.ctx.val e s) (s.longRec a.folio.val a.ctx.val
      (op a.folio.val a.ctx.val e s).kind (BitVec.ofNat 128 (bundleOf opc e)).toNat) i =
      u.setCtx a.folio.val a.ctx.val { u.ctx a.folio.val a.ctx.val with inside := some (s.cutRec a.folio.val a.ctx.val
        (op a.folio.val a.ctx.val e s).kind (BitVec.ofNat 128 (bundleOf opc e)).toNat a.cut) } := by
    unfold longRun
    have hpos0 : (s.longRec a.folio.val a.ctx.val (op a.folio.val a.ctx.val e s).kind (BitVec.ofNat 128 (bundleOf opc e)).toNat).pos = 0 := rfl
    simp only [if_neg hcut, hpos0, Nat.zero_add, Nat.min_eq_left (Nat.le_of_lt hlt)]
    rw [Long.after, if_pos (by simp [hpos, hlt]), hpos, hu]
    exact haltDue_of_not_halting (by rw [State.ctx_setCtx_same]; exact (congrArg Ctx.halting hctx).trans hkept)
  refine ⟨_, hruns.trans (congrArg _ hrun), ?_, ?_, sameBut_iff.mpr ⟨_, rfl⟩⟩
  · rw [State.ctx_setCtx_same]
    exact (congrArg Ctx.st hctx).trans hst
  · rw [State.ctx_setCtx_same]

/-! ## An interrupt (R416, R418) -/

/-- The contexts and the folio memories. -/
def State.ctxsFm (s : State) : Sp Ctx × Memory := (s.ctxs, s.fm)
theorem ctxsFm_sliceIn (s : State) (n k i : Nat) : (s.sliceIn n k i).ctxsFm = s.ctxsFm :=
  foldl_keeps (g := State.ctxsFm) (f := fun (t : State) (x : StateSlice) => t.put 4 (8192 * n + x.gsbOff) (t.wheelBytes i x.wheelOff x.bytes))
    (fun _ _ => rfl) ((s.slicesOf i).filter (fun x => x.folio.val == k)) s
theorem ctxsFm_deliverStep (s : State) (n c i : Nat) : (s.deliverStep n c i).ctxsFm = s.ctxsFm := by
  unfold State.deliverStep
  split
  · rfl
  · split
    · rfl
    · rfl
    · extract_lets bs s1
      split
      · exact ctxsFm_sliceIn s1 n _ i
      · rfl
theorem ctxsFm_entryRegs (s : State) (n c : Nat) (e : Entry) : (s.entryRegs n c e).ctxsFm = s.ctxsFm := by
  have hsr (t : State) (r v : Nat) : (t.setSr n c r v).ctxsFm = t.ctxsFm := rfl
  have har (t : State) (r v : Nat) : (t.setAr n c r v).ctxsFm = t.ctxsFm := rfl
  unfold State.entryRegs
  dsimp only
  split
  · simp only [hsr, har]
    rfl
  · rfl
theorem ctxsFm_setBit (s : State) (k b : Nat) (v : Bool) : (s.setBit k b v).ctxsFm = s.ctxsFm := rfl
/-- A context that has an entry queued runs once it starts; no other context changes, and no folio memory. -/
theorem startEntry_runs {s : State} {n c : Nat} (hq : (s.ctx n c).queue ≠ []) :
    ((s.startEntry n c).ctx n c).st = .running ∧ (s.startEntry n c).fm = s.fm ∧
      ∀ m k, 4 * m + k ≠ 4 * n + c → (s.startEntry n c).ctx m k = s.ctx m k := by
  unfold State.startEntry
  split
  next h => exact absurd h hq
  next e q h =>
    extract_lets door s0 s1
    have h0 : s0.ctxsFm = s.ctxsFm := by
      dsimp only [s0]
      split
      · exact ctxsFm_deliverStep _ _ _ _
      · rfl
    have h1 : s1.ctxsFm = s.ctxsFm := by
      dsimp only [s1]
      split
      · exact (ctxsFm_setBit _ _ _ _).trans h0
      · exact h0
    have hregs := (ctxsFm_entryRegs s1 n c e).trans h1
    obtain ⟨hctxs, hfm⟩ := Prod.mk.inj hregs
    clear_value s1
    generalize s1.entryRegs n c e = u at hctxs hfm ⊢
    refine ⟨by rw [State.ctx_setCtx_same], hfm, fun m k hne => ?_⟩
    rw [State.ctx_setCtx_ne _ _ hne, State.ctx, State.ctx, show u.ctxs = s.ctxs from hctxs]
/-- A context that an interrupt takes inside an instruction is suspended with a valid record of it. -/
theorem suspend_inside {s : State} {n c k : Nat} {r : Resume} (hk : k ≠ c) (hq : (s.ctx n k).queue ≠ [])
    (hin : (s.ctx n c).inside = some r) : ((s.suspend n c k).ctx n k).st = .running ∧ (s.suspend n c k).fm = s.fm ∧
      (s.suspend n c k).ctx n c = { s.ctx n c with st := .suspended, wait := none, inside := none, resume :=
        { r with valid := true, save := (if r.kind = 2 then s.sewSave n else r.save) } } := by
  have hrec : s.ctxRecord n (s.ctx n c) = { r with valid := true, save := (if r.kind = 2 then s.sewSave n else r.save) } := by
    rw [State.ctxRecord, hin]
    dsimp only
    split
    · rfl
    · rfl
  unfold State.suspend
  extract_lets x
  have hne : 4 * n + k ≠ 4 * n + c := by omega
  obtain ⟨hst, hfm, hctx⟩ := startEntry_runs (n := n) (c := k)
    (s := s.setCtx n c { x with st := .suspended, wait := none, resume := s.ctxRecord n x, inside := none })
    (by rwa [State.ctx_setCtx_ne _ _ hne])
  refine ⟨hst, hfm, ?_⟩
  rw [hctx n c (by omega), State.ctx_setCtx_same, ← hrec]
/-- SEQ_IRQ_MAX takes nothing of the contexts or the folio memories with it. -/
theorem irqMax_only (s : State) (n fclk : Nat) : ∃ x, s.irqMax n fclk = { s with regs := x } := by
  unfold State.irqMax
  split
  · exact ⟨_, rfl⟩
  · exact ⟨_, rfl⟩
theorem raised_above {s : State} {n c k : Nat} (h : s.raised n c = some k) : c < k := by
  unfold State.raised at h
  split at h
  · exact absurd h (by simp)
  · have hfound := List.find?_some h
    simp only [Bool.and_eq_true, decide_eq_true_eq] at hfound
    exact hfound.1

/-! ## RESUME (R419, R428) -/

theorem resume_traps {a : Issue} {s : State} (hst : (s.ctx a.folio.val a.ctx.val).st = .running)
    (hin : (s.ctx a.folio.val a.ctx.val).inside = none) (hirq : s.raised a.folio.val a.ctx.val = none)
    (hvalid : (s.ctx a.folio.val a.ctx.val).resume.valid = false) :
    exec (.resume a 0) s = .next (s.takeTrap a.folio.val a.ctx.val SEQ_RESUME) := by
  have hlow : lowestTrap [((0 : BitVec 26).toNat != 0, FLD_RESERVED), (!(s.ctx a.folio.val a.ctx.val).resume.valid, SEQ_RESUME)] =
      some SEQ_RESUME := by
    rw [hvalid]
    rfl
  show resumeAt a (0 : BitVec 26).toNat s = _
  unfold resumeAt
  simp only [hst, hin, hirq, hlow, ne_eq, not_true, if_false, Option.isSome_none, Bool.false_eq_true]
theorem resume_runs {a : Issue} {s : State} (hst : (s.ctx a.folio.val a.ctx.val).st = .running)
    (hin : (s.ctx a.folio.val a.ctx.val).inside = none) (hirq : s.raised a.folio.val a.ctx.val = none)
    (hvalid : (s.ctx a.folio.val a.ctx.val).resume.valid = true) (hsound : sound a s) :
    exec (.resume a 0) s = .next (s.resumeRun a.folio.val a.ctx.val a.cut) := by
  have hlow : lowestTrap [((0 : BitVec 26).toNat != 0, FLD_RESERVED), (!(s.ctx a.folio.val a.ctx.val).resume.valid, SEQ_RESUME)] =
      none := by
    rw [hvalid]
    rfl
  show resumeAt a (0 : BitVec 26).toNat s = _
  unfold resumeAt
  simp only [hst, hin, hirq, hlow, ne_eq, not_true, if_false, Option.isSome_none, Bool.false_eq_true]
  exact checked_sound _ _ _ _ hsound

/-- Settles O44: spans of whole units join, in either direction, and the resume record holds what is left. -/
theorem interruptedInstructionsContinueExactly : Obligations.InterruptedInstructionsContinueExactly := by
  unfold Obligations.InterruptedInstructionsContinueExactly
  intro ops
  refine ⟨fun opc e h => ?_, ?_, ?_, fun n c s k r fclk hrun hirq hq hin hdue => ?_, ?_⟩
  · rw [BitVec.toNat_ofNat, Nat.mod_eq_of_lt (bundleOf_lt h e)]
    exact bundle_fields h e
  · intro n c e s t lo hi p hp l hclear hregs ht hlo hhi
    exact memOps_split hregs ht hlo p hp hclear hhi
  · intro a e s p hp n c i l hready hclear hscalar _ hhalt hcut hlt
    have hcuts : ∀ q ∈ memOps, (q.2.1 n c e s).clear → a.cut < (q.2.1 n c e s).total i → Next (exec (q.2.2 a e) s) (fun t =>
        (t.ctx n c).st = .running ∧
        (t.ctx n c).inside = some ⟨BitVec.ofNat 128 (bundleOf q.1 e), (s.ctx n c).pc, 4, false, a.cut, s.sregs n c, s.aregs n c, []⟩ ∧
        SameBut ((q.2.1 n c e s).part 0 a.cut i).2 t) := by
      have hrec (b : BitVec 128) : s.cutRec n c 4 b.toNat a.cut = ⟨b, (s.ctx n c).pc, 4, false, a.cut, s.sregs n c, s.aregs n c, []⟩ := by
        simp only [State.cutRec, State.longRec, BitVec.ofNat_toNat, BitVec.setWidth_eq, BitVec.ofNat_eq_ofNat]
      simp only [← hrec]
      simp only [memOps, List.forall_mem_cons, List.not_mem_nil, false_implies, implies_true, and_true]
      refine ⟨fun h hlt => ?_, fun h hlt => ?_, fun h hlt => ?_, fun h hlt => ?_, fun h hlt => ?_, fun h hlt => ?_, fun h hlt => ?_,
        fun h hlt => ?_⟩
      iterate 8 exact long_cut none hready h hscalar hhalt hcut hlt fun hi t => ⟨rfl, rfl⟩
    exact hcuts p hp hclear hlt
  · obtain ⟨y, hy⟩ := irqMax_only s n.val fclk.toNat
    have hexec : exec (.interruptTaken n fclk) s = .next ((s.irqMax n.val fclk.toNat).suspend n.val c.val k) := by
      show execInterruptTaken n fclk s = _
      unfold execInterruptTaken
      simp only [hrun, hirq, hdue, Option.isSome_none, Bool.false_eq_true, if_false]
    have hk := raised_above hirq
    rw [hy] at hexec
    exact ⟨_, hexec, suspend_inside (s := { s with regs := y }) (by omega) hq hin⟩
  · intro a s n c x r hst hin hirq
    refine ⟨fun hvalid => resume_traps hst hin hirq hvalid, ?_⟩
    intro op chk hvalid hsound hcut hop u v l
    rw [resume_runs hst hin hirq hvalid hsound, hcut, State.resumeRun, hop]
    rfl

end Sys2Proof.Machine
end

-- ==== Landing zones: O27 ====
section
/-! SUPPORT. Landing zones and the light path (R348, R349, R384). In order: granules written into the vat; what LZPUT and LZCOPY do whole;
LPMSG; the statement. -/

namespace Sys2Proof.Machine

open Sys2Proof.Claims

/-! ## Granules written into the vat -/

section
variable {s : State}

theorem vatWrite_of_sound (hbad : s.bad = []) (h off : Nat) (bs : List Byte) :
    s.vatWrite h off bs = { s with vat := s.vat.write (s.sigBase h + off) bs } := by
  have hcured : (s.put 6 (s.sigBase h + off) bs).bad = s.bad := by rw [bad_put hbad, hbad]
  show ({ s with vat := s.vat.write (s.sigBase h + off) bs, bad := (s.put 6 (s.sigBase h + off) bs).bad } : State) = _
  rw [hcured]
/-- Granules written one after another at places that lie apart are each found there, and nothing else differs. -/
theorem granules_written {h : Nat} {off : Nat → Nat} {val : Nat → List Byte} (hbad : s.bad = []) (hval : ∀ i, (val i).length ≤ 256) {n : Nat}
    (hapart : ∀ i j, i < j → j < n → off i + 256 ≤ off j ∨ off j + 256 ≤ off i) :
    ∃ v, (List.range n).foldl (fun u i => u.vatWrite h (off i) (val i)) s = { s with vat := v } ∧
      (∀ i < n, v.bytes (s.sigBase h + off i) (val i).length = val i) ∧
      ∀ x, (∀ i < n, x < s.sigBase h + off i ∨ s.sigBase h + off i + (val i).length ≤ x) → v.byte x = s.vat.byte x := by
  induction n with
  | zero => exact ⟨s.vat, rfl, fun i hi => absurd hi (Nat.not_lt_zero i), fun _ _ => rfl⟩
  | succ n ih =>
    obtain ⟨v, hv, hin, hout⟩ := ih fun i j hij hj => hapart i j hij (by omega)
    refine ⟨v.write (s.sigBase h + off n) (val n), ?_, fun i hi => ?_, fun x hx => ?_⟩
    · rw [List.range_succ, List.foldl_append, hv, List.foldl_cons, List.foldl_nil, vatWrite_of_sound (s := { s with vat := v }) hbad]
      rfl
    · rcases Nat.lt_succ_iff_lt_or_eq.mp hi with hlt | rfl
      · have hfar := hapart i n hlt (Nat.lt_succ_self n)
        have hi' := hval i
        have hn' := hval n
        rw [Memory.bytes_write_out _ _ _ (by omega), hin i hlt]
      · exact Memory.bytes_write _ _ _
    · rw [Memory.byte_write_out _ _ _ (hx n (Nat.lt_succ_self n)), hout x fun i hi => hx i (Nat.lt_succ_of_lt hi)]
/-- As many granules of a ring as it has places lie apart. -/
theorem ringPlaces_apart {start size pos n i j : Nat} (hn : n ≤ size ∨ n ≤ 1) (hij : i < j) (hj : j < n) :
    (start + (pos + i) % size) * 256 + 256 ≤ (start + (pos + j) % size) * 256 ∨
      (start + (pos + j) % size) * 256 + 256 ≤ (start + (pos + i) % size) * 256 := by
  have hne : (pos + i) % size ≠ (pos + j) % size := fun heq =>
    absurd (Nat.ModEq.eq_of_lt_of_lt (Nat.ModEq.add_left_cancel' pos heq) (by omega) (by omega)) (by omega)
  omega
/-- Two ways to go on that agree while something is kept lead to the same end. -/
theorem foldl_congr_keeping {α β : Type} {f g : State → α → State} {rd : State → β} {b : β} (hfg : ∀ u, rd u = b → ∀ x, f u x = g u x)
    (hg : ∀ u x, rd (g u x) = rd u) (xs : List α) {u : State} (hu : rd u = b) : xs.foldl f u = xs.foldl g u := by
  induction xs generalizing u with
  | nil => rfl
  | cons x xs ih => rw [List.foldl_cons, List.foldl_cons, hfg u hu x, ih ((hg u x).trans hu)]
/-- Bytes put at the tail of a ring: its next granules, and the tail. -/
theorem ringPut_written (hbad : s.bad = []) {r : Ring} {n : Nat} (bs : List Byte) (hn : n ≤ r.size ∨ n ≤ 1) :
    let key := ringKey r.zone.toNat r.num.toNat
    let place := fun i => s.sigBase r.zone.toNat + (r.start + (s.tailOf key + i) % r.size) * 256
    let part := fun i => (bs.drop (256 * i)).take 256
    ∃ v, s.ringPut r n bs = { s with vat := v, ringTail := Sp.set (fun _ => 0) s.ringTail key ((s.tailOf key + n) % r.size) } ∧
      (∀ i < n, v.bytes (place i) (part i).length = part i) ∧
      ∀ x, (∀ i < n, x < place i ∨ place i + (part i).length ≤ x) → v.byte x = s.vat.byte x := by
  intro key place part
  obtain ⟨v, hv, hin, hout⟩ := granules_written (s := s) (h := r.zone.toNat) (off := fun i => (r.start + (s.tailOf key + i) % r.size) * 256)
    (val := part) hbad (fun i => List.length_take_le _ _) (n := n) fun i j hij hj => ringPlaces_apart hn hij hj
  refine ⟨v, ?_, hin, hout⟩
  have hplaces : (List.range n).foldl (fun u i => u.vatWrite r.zone.toNat ((ringGrans r (u.tailOf key) n).getD i 0) (part i)) s =
      (List.range n).foldl (fun u i => u.vatWrite r.zone.toNat ((ringGrans r (s.tailOf key) n).getD i 0) (part i)) s :=
    foldl_congr_keeping (rd := fun u => u.tailOf key)
      (g := fun u i => u.vatWrite r.zone.toNat ((ringGrans r (s.tailOf key) n).getD i 0) (part i)) (fun u hu i => by rw [hu]) (fun _ _ => rfl) _ rfl
  have hplace (u : State) (i : Nat) (hi : i ∈ List.range n) : u.vatWrite r.zone.toNat ((ringGrans r (s.tailOf key) n).getD i 0) (part i) =
      u.vatWrite r.zone.toNat ((r.start + (s.tailOf key + i) % r.size) * 256) (part i) := by
    rw [ringGrans, List.getD_eq_getElem?_getD, List.getElem?_map, List.getElem?_range (List.mem_range.mp hi)]
    rfl
  have hwritten := (hplaces.trans (List.foldl_ext _ _ _ hplace)).trans hv
  unfold State.ringPut
  dsimp only
  rw [hwritten]
/-- A part of bytes that have been read. -/
theorem bytes_part (m : Memory) (a k j l : Nat) : (((m.bytes a (k + (j + l))).drop k).take j) = m.bytes (a + k) j := by
  rw [Memory.bytes_add, Memory.bytes_add, List.drop_left' (Memory.bytes_length _ _ _), List.take_left' (Memory.bytes_length _ _ _)]

/-! ## The rings (R348) -/

theorem folioRing_zone {h lf : Nat} {r : Ring} (hr : s.folioRing h lf = some r) : r.zone.toNat = h := by
  have hfound := List.find?_some hr
  simp only [Bool.and_eq_true, beq_iff_eq] at hfound
  exact hfound.1
theorem ringAt_zone {h num : Nat} {r : Ring} (hr : s.ringAt h num = some r) : r.zone.toNat = h := by
  have hfound := List.find?_some hr
  simp only [Bool.and_eq_true, beq_iff_eq] at hfound
  exact hfound.1
/-- Messages on the links leave what is no part of the links. -/
theorem sendSeat_only (typ dst : Nat) (payload : List Byte) : ∃ l o m r, s.sendSeat typ dst payload =
    { s with links := l, linkOut := o, linkMsgId := m, regs := r } := by
  unfold State.sendSeat
  extract_lets vc id fs s1
  have hs1 : LinksOnly s s1 := rfl
  split
  next p _ =>
    have hsent : LinksOnly s (fs.foldl (fun u f => u.queueFlit p f) s1) :=
      List.foldlRecOn (motive := LinksOnly s) fs _ hs1 fun u hu f _ => hu.queueFlit p f
    exact ⟨_, _, _, _, hsent⟩
  next => exact ⟨_, _, _, _, rfl⟩
end

/-! ## LZPUT and LZCOPY whole -/

section
variable {a : Issue} {e : Eng} {s : State} {r : Ring}

/-- LZPUT breaks no rule: its granules are no more than the ring has. -/
theorem lzput_clear {n c : Nat} (h : (opLzput n c e s).clear) (hr : (s.logical n).bind (s.folioRing (vatHandle (s.ar n c (e.op 60 57)))) = some r) :
    e.op 52 44 ≤ r.size := by
  have hts := h.1
  simp only [opLzput, hr, lowestTrap_append_none, lowestTrap_cons_none, decide_eq_false_iff_not, Nat.not_lt] at hts
  obtain ⟨⟨⟨-, -, -, -, -, -, hcredit, -⟩, -⟩, -⟩ := hts
  exact hcredit
theorem lpmsg_clear {n c : Nat} (h : (opLpmsg n c e s).clear) : e.op 52 44 ≤ 256 := by
  have hts := h.1
  simp only [opLpmsg, engSlot, lowestTrap_append_none, lowestTrap_cons_none, Bool.or_eq_false_iff, decide_eq_false_iff_not, Nat.not_lt] at hts
  obtain ⟨-, ⟨⟨-, -, ⟨-, hlen⟩, -⟩, -⟩, -⟩ := hts
  exact hlen

theorem ringFree_withCtxs (t : State) (x : Sp Ctx) (r : Ring) (k : Nat) : (t.withCtxs x).ringFree r k = (t.ringFree r k).withCtxs x := by
  unfold State.ringFree
  dsimp only
  split
  · rfl
  · rw [← sendSeat_withCtxs]
    rfl
/-- Granules freed: the head and the credits of the ring, and the message that returns them to a remote sender. -/
theorem ringFree_leaves (t : State) (r : Ring) (k : Nat) :
    let key := ringKey r.zone.toNat r.num.toNat
    let u := t.ringFree r k
    u.headOf key = (t.headOf key + k) % r.size ∧ u.credit key = min r.size (t.credit key + k) ∧
      (∀ x, x ≠ key → u.headOf x = t.headOf x ∧ u.credit x = t.credit x) ∧ u.fm = t.fm ∧
      u = (let v := { t with ringHead := u.ringHead, credits := u.credits }
        if r.folio.isSome then v else v.sendSeat tyMSG r.seat.toNat (msgCredit r.zone.toNat r.num.toNat k)) := by
  intro key u
  have hkept : u.ringHead = Sp.set (fun _ => 0) t.ringHead key ((t.headOf key + k) % r.size) ∧
      u.credits = Sp.set (fun _ => 0) t.credits key (min r.size (t.credit key + k)) ∧ u.fm = t.fm := by
    dsimp only [u]
    unfold State.ringFree
    dsimp only
    split
    · exact ⟨rfl, rfl, rfl⟩
    · obtain ⟨l, o, m, g, hsent⟩ := sendSeat_only
        (s := ({ t with ringHead := Sp.set (fun _ => 0) t.ringHead key ((t.headOf key + k) % r.size) } : State).setCredit key
          (min r.size (t.credit key + k))) tyMSG r.seat.toNat (msgCredit r.zone.toNat r.num.toNat k)
      rw [hsent]
      exact ⟨rfl, rfl, rfl⟩
  obtain ⟨hhead, hcredit, hfm⟩ := hkept
  refine ⟨?_, ?_, fun x hx => ⟨?_, ?_⟩, hfm, ?_⟩
  · rw [State.headOf, hhead, Sp.get_set_same]
  · rw [State.credit, hcredit, Sp.get_set_same]
  · rw [State.headOf, hhead, Sp.get_set_ne _ _ _ hx, State.headOf]
  · rw [State.credit, hcredit, Sp.get_set_ne _ _ _ hx, State.credit]
  · rw [hhead, hcredit]
    rfl
/-- Bytes of a ring written into the folio memories, and its granules freed. -/
theorem copied_and_freed {i t : State} {r : Ring} {d k len : Nat} {bs : List Byte} (hbad : i.bad = []) (hlen : bs.length = len)
    (h : SameBut ((i.put 0 d bs).ringFree r k) t) :
    let key := ringKey r.zone.toNat r.num.toNat
    t.fm.bytes d len = bs ∧ SameOutside d len i.fm t.fm ∧ t.headOf key = (i.headOf key + k) % r.size ∧
      t.credit key = min r.size (i.credit key + k) ∧ (∀ x, x ≠ key → t.headOf x = i.headOf x ∧ t.credit x = i.credit x) ∧
      t = (let u := { i with fm := t.fm, ringHead := t.ringHead, credits := t.credits, ctxs := t.ctxs }
        if r.folio.isSome then u else u.sendSeat tyMSG r.seat.toNat (msgCredit r.zone.toNat r.num.toNat k)) := by
  intro key
  obtain ⟨x, rfl⟩ := sameBut_iff.mp h
  obtain ⟨w, hw, hread, hout⟩ : ∃ w, i.put 0 d bs = { i with fm := w } ∧ w.bytes d len = bs ∧ SameOutside d len i.fm w := by
    obtain ⟨hbytes, hkeeps, hsame⟩ := keepsFm_of_put hbad hlen (show SameBut (i.put 0 d bs) (i.put 0 d bs) from rfl)
    exact ⟨_, hkeeps, hbytes, hsame⟩
  obtain ⟨hhead, hcredit, hothers, hfm, hleaves⟩ := ringFree_leaves { i with fm := w } r k
  rw [hw]
  generalize ({ i with fm := w } : State).ringFree r k = v at hhead hcredit hothers hfm hleaves ⊢
  have hfm' : (v.withCtxs x).fm = w := hfm
  refine ⟨by rw [hfm', hread], by rw [hfm']; exact hout, hhead, hcredit, hothers, ?_⟩
  let y := v.withCtxs x
  have hfields : ({ i with fm := y.fm, ringHead := y.ringHead, credits := y.credits, ctxs := y.ctxs } : State) =
      ({ i with fm := w, ringHead := v.ringHead, credits := v.credits } : State).withCtxs x := by rw [hfm']; rfl
  dsimp only
  rw [hfields, sendSeat_withCtxs]
  conv_lhs => rw [hleaves]
  dsimp only
  split
  · rfl
  · rfl

/-! ## LPMSG (R384) -/

theorem lpmsg_local {n c : Nat} (hlocal : e.op 43 34 = 0x3FF ∨ e.op 43 34 = s.seat)
    (hr : (s.logical n).bind (s.folioRing (vatHandle (s.ar n c (e.op 56 53)))) = some r) (t : State) :
    let key := ringKey (vatHandle (s.ar n c (e.op 56 53))) r.num.toNat
    (opLpmsg n c e s).run t =
      ((t.setCredit key (t.credit key - 1)).ringPut r 1 (s.fmBytes n c (addrOf (s.ar n c (e.op 60 57))) (e.op 52 44))).relEng n c e := by
  have hbit : (e.op 43 34 == 0x3FF || e.op 43 34 == s.seat) = true := by simpa using hlocal
  simp only [opLpmsg, engSlot, hbit, hr, if_true]
theorem lpmsg_remote {n c : Nat} {r : RemoteRing} (hlocal : ¬(e.op 43 34 = 0x3FF ∨ e.op 43 34 = s.seat))
    (hr : s.outRing (e.op 43 34) (vatHandle (s.ar n c (e.op 56 53))) = some r) (t : State) :
    let key := remoteKey (e.op 43 34) (vatHandle (s.ar n c (e.op 56 53))) r.num.toNat
    (opLpmsg n c e s).run t = ((t.setCredit key (t.credit key - 1)).sendLight n c (e.op 43 34)
      (msgLight (vatHandle (s.ar n c (e.op 56 53))) r.num.toNat
        (s.fmBytes n c (addrOf (s.ar n c (e.op 60 57))) (e.op 52 44)))).relEng n c e := by
  have hbit : (e.op 43 34 == 0x3FF || e.op 43 34 == s.seat) = false := by simpa using hlocal
  simp only [opLpmsg, engSlot, hbit, hr, Bool.false_eq_true, if_false]
/-- One message of at most a granule at the tail of a ring. -/
theorem message_put {h : Nat} (hbad : s.bad = []) (hzone : r.zone.toNat = h) {bs : List Byte} (hlen : bs.length ≤ 256)
    (v : Nat) :
    let key := ringKey h r.num.toNat
    let at' := s.sigBase h + (r.start + s.tailOf key % r.size) * 256
    let t := (s.setCredit key v).ringPut r 1 bs
    t.credit key = v ∧ t.tailOf key = (s.tailOf key + 1) % r.size ∧ t.vat.bytes at' bs.length = bs ∧
      SameOutside at' bs.length s.vat t.vat ∧ t = { s with vat := t.vat, credits := t.credits, ringTail := t.ringTail } := by
  subst hzone
  intro key at' t
  obtain ⟨w, hw, hin, hout⟩ := ringPut_written (s := s.setCredit key v) hbad (r := r) bs (.inr le_rfl)
  have hpart : (bs.drop (256 * 0)).take 256 = bs := List.take_of_length_le hlen
  have hread := hin 0 Nat.one_pos
  dsimp only at hread
  rw [hpart] at hread
  dsimp only [t]
  rw [hw]
  refine ⟨Sp.get_set_same _ _ _ _, Sp.get_set_same _ _ _ _, hread, fun x hx => hout x fun k hk => ?_, rfl⟩
  obtain rfl := Nat.lt_one_iff.mp hk
  dsimp only
  rw [hpart]
  exact hx

/-- Settles O27: rings are written granule by granule at places that lie apart. -/
theorem landingZoneOperations : Obligations.LandingZoneOperations := by
  intro a e s n c i z gran
  refine ⟨fun r hr h => ?_, fun hform r hr h => ?_, fun hform b hb h => ?_, fun h => ?_⟩
  · have hzone : r.zone.toNat = z := by
      obtain ⟨lf, -, hlf⟩ := Option.bind_eq_some_iff.mp hr
      exact folioRing_zone hlf
    have hgran (k : Nat) : gran r k = i.sigBase z + (r.start + k % r.size) * 256 := by rw [← hzone]
    have hng : e.op 52 44 ≤ r.size := lzput_clear h.2.1 hr
    have hbad : i.bad = [] := issued_bad h
    let bs := i.fm.bytes (i.fmKey n c (addrOf (s.ar n c (e.op 56 53)))) (256 * e.op 52 44)
    let u := i.setCredit (ringKey z r.num.toNat) (i.credit (ringKey z r.num.toNat) - e.op 52 44)
    have hpart : (opLzput n c e s).part 0 (e.op 52 44) i = (e.op 52 44, u.ringPut r (e.op 52 44) bs) := by
      simp only [opLzput, show (s.logical n).bind (s.folioRing (vatHandle (s.ar n c (e.op 60 57)))) = some r from hr, if_true,
        Nat.mul_zero, Nat.add_zero, Nat.sub_zero]
      rfl
    obtain ⟨v, hv, hin, hout⟩ := ringPut_written (s := u) hbad (r := r) bs (.inl hng)
    rw [hzone] at hv
    simp only [hzone] at hin hout
    have hpiece (k : Nat) (hk : k < e.op 52 44) : (bs.drop (256 * k)).take 256 =
        i.fm.bytes (i.fmKey n c (addrOf (s.ar n c (e.op 56 53)) + 256 * k)) 256 := by
      obtain ⟨l, hl⟩ := Nat.exists_eq_add_of_le (show 256 * k + 256 ≤ 256 * e.op 52 44 by omega)
      rw [fmKey_add, ← bytes_part i.fm _ (256 * k) 256 l, ← Nat.add_assoc, ← hl]
    refine long_completes_whole (out := id) h rfl (fun _ _ => rfl) hpart (hv ▸ rfl) fun t ht => ?_
    obtain ⟨x, rfl⟩ := sameBut_iff.mp ht
    rw [id, hv]
    have hlen (k : Nat) (hk : k < e.op 52 44) : ((bs.drop (256 * k)).take 256).length = 256 := by
      rw [hpiece k hk, Memory.bytes_length]
    refine ⟨Sp.get_set_same _ _ _ _, Sp.get_set_same _ _ _ _, fun k hk => ?_, fun x hx => hout x fun k hk => ?_, rfl⟩
    · have hread := hin k hk
      rw [hlen k hk, hpiece k hk] at hread
      rw [hgran, ← hread]
      rfl
    · have hfar := hx k hk
      rw [hgran] at hfar
      rwa [hlen k hk]
  · have hzone : r.zone.toNat = z := ringAt_zone hr
    have hbad : i.bad = [] := issued_bad h
    let d := i.fmKey n c (addrOf (s.ar n c (e.op 56 53)))
    let bs := (ringGrans r (e.op 41 28) (e.op 50 42)).flatMap (fun o => i.vatBytes z o 256)
    have hring : (if e.opb 52 = true then s.ringAt (vatHandle (s.ar n c (e.op 60 57))) (e.op 27 18) else none) = some r := by
      rw [if_pos hform]
      exact hr
    have hbs : bs = (List.range (e.op 50 42)).flatMap (fun k => i.vat.bytes (gran r (e.op 41 28 + k)) 256) := by
      simp only [bs, ringGrans, List.flatMap_map, State.vatBytes, gran, hzone]
    have hlen : bs.length = 256 * e.op 50 42 := by
      simp only [hbs, List.length_flatMap, Memory.bytes_length, List.map_const', List.length_range, List.sum_replicate, smul_eq_mul]
      omega
    have hunits : (opLzcopy n c e s).total i = e.op 50 42 := by
      simp only [opLzcopy, hform, if_true]
    have hpart : (opLzcopy n c e s).part 0 ((opLzcopy n c e s).total i) i = ((opLzcopy n c e s).total i, i.put 0 d bs) := by
      rw [hunits]
      simp only [opLzcopy, hring, Nat.mul_zero, Nat.add_zero, Nat.sub_zero]
      rfl
    cases hfree : e.opb 51 with
    | false =>
      have hfin : (opLzcopy n c e s).finish = fun t => (id t).relEng n c e := by
        simp only [opLzcopy, hring, hfree, Bool.false_eq_true, if_false, id]
      refine long_completes_whole h hfin (fun _ _ => rfl) hpart rfl fun t ht => ?_
      obtain ⟨hbytes, hkeeps⟩ := keepsFm_of_put hbad hlen ht
      exact ⟨hbytes.trans hbs, hkeeps.2, fun _ => hkeeps, fun hno => absurd hno (by decide)⟩
    | true =>
      have hfin : (opLzcopy n c e s).finish = fun t => (t.ringFree r (e.op 50 42)).relEng n c e := by
        simp only [opLzcopy, hring, hfree, if_true]
      refine long_completes_whole (out := fun t => t.ringFree r (e.op 50 42)) h hfin (fun t x => ringFree_withCtxs t x r _) hpart rfl
        fun t ht => ?_
      obtain ⟨hbytes, hout, hhead, hcredit, hothers, hleaves⟩ := copied_and_freed hbad hlen ht
      rw [hzone] at hhead hcredit hothers hleaves
      exact ⟨hbytes.trans hbs, hout, fun hno => absurd hno (by decide), fun _ => ⟨hhead, hcredit, hothers, hleaves⟩⟩
  · have hbad : i.bad = [] := issued_bad h
    let d := i.fmKey n c (addrOf (s.ar n c (e.op 56 53)))
    have hring : (if e.opb 52 = true then s.ringAt (vatHandle (s.ar n c (e.op 60 57))) (e.op 27 18) else none) = none := by
      rw [hform]
      rfl
    have hburst : (if e.opb 52 = true then none else s.ctxBurst n c) = some b := by
      rw [hform]
      exact hb
    have hfin : (opLzcopy n c e s).finish = fun t => (id t).relEng n c e := by
      simp only [opLzcopy, hring, id]
    have hlen : (i.burstPayload b).length ≤ 8 * ((b.len + 7) / 8) := by
      have htake : (i.burstPayload b).length ≤ b.len := List.length_take_le _ _
      omega
    have hpart : (opLzcopy n c e s).part 0 ((opLzcopy n c e s).total i) i =
        ((opLzcopy n c e s).total i, i.put 0 d (i.burstPayload b)) := by
      have hunits : (opLzcopy n c e s).total i = (b.len + 7) / 8 := by
        simp only [opLzcopy, hburst]
        simp only [hform, Bool.false_eq_true, if_false]
      rw [hunits]
      simp only [opLzcopy, hring, hburst, Nat.mul_zero, Nat.add_zero, Nat.sub_zero, List.drop_zero, List.take_of_length_le hlen]
      rfl
    exact long_completes_whole h hfin (fun _ _ => rfl) hpart rfl fun t ht => keepsFm_of_put hbad rfl ht
  · intro z' seat len bs
    have hadvance : (s.advance n c).bad = [] := advance_bad h.1.2.2.1 n c
    have hlen : bs.length ≤ 256 := by
      rw [Memory.bytes_length]
      exact lpmsg_clear h.2.1
    by_cases hl : seat = 0x3FF ∨ seat = s.seat
    · cases hring : (s.logical n).bind (s.folioRing z') with
      | none => exact engine_completes none h rfl ⟨fun _ r hr => absurd hr (by simp), fun hno => absurd hl hno⟩
      | some r =>
        refine engine_completes none h (lpmsg_local hl hring _) ⟨fun _ q hq => ?_, fun hno => absurd hl hno⟩
        obtain rfl := Option.some.inj hq
        obtain ⟨lf, -, hlf⟩ := Option.bind_eq_some_iff.mp hring
        have hcredit : (s.advance n c).credit (ringKey z' r.num.toNat) = s.credit (ringKey z' r.num.toNat) := by
          rw [State.credit, advance_only, State.credit]
        obtain ⟨hc, ht, hv, hout, hrest⟩ := message_put hadvance (folioRing_zone hlf) (bs := bs) hlen
          ((s.advance n c).credit (ringKey z' r.num.toNat) - 1)
        have hplace : (s.advance n c).sigBase z' + (r.start + (s.advance n c).tailOf (ringKey z' r.num.toNat) % r.size) * 256 =
            s.sigBase z' + (r.start + s.tailOf (ringKey z' r.num.toNat) % r.size) * 256 := by
          rw [sigBase_of_regs (advance_regs s n c), State.tailOf, advance_only, State.tailOf]
        have htail : (s.advance n c).tailOf (ringKey z' r.num.toNat) = s.tailOf (ringKey z' r.num.toNat) := by
          rw [State.tailOf, advance_only, State.tailOf]
        rw [hplace, Memory.bytes_length] at hv hout
        rw [htail] at ht
        exact ⟨hc.trans (congrArg (· - 1) hcredit), ht, hv, advance_vat s n c ▸ hout, hrest⟩
    · cases hring : s.outRing seat z' with
      | none => exact engine_completes none h rfl ⟨fun hno => absurd hno hl, fun _ r hr => absurd hr (by simp)⟩
      | some r =>
        refine engine_completes none h (lpmsg_remote hl hring _) ⟨fun hno => absurd hno hl, fun _ q hq => ?_⟩
        obtain rfl := Option.some.inj hq
        have hcredit : (s.advance n c).credit (remoteKey seat z' r.num.toNat) = s.credit (remoteKey seat z' r.num.toNat) := by
          rw [State.credit, advance_only, State.credit]
        rw [show (s.advance a.folio.val a.ctx.val).credit _ = _ from hcredit]
        rfl
end

end Sys2Proof.Machine
end

-- ==== Moves, fetch streams and multicast: O28, O29 ====
section
/-! SUPPORT. Moves, fetch streams and multicast (R366, R368, R377, R378, R380, R381, R383). In order: tiles that issue; releases of tiles;
multicasts that start; the statements. -/

namespace Sys2Proof.Machine

open Sys2Proof.Claims

/-! ## Tiles that issue (R368, R378) -/

/-- A move as it enters a mover's queue. -/
def newMove (n c id tag : Nat) (src dst : MoveEnd) (len stripe : Nat) (o : MoveOwner) : Move :=
  ⟨id, n, c, tag, src, dst, len, stripe, [], none, [], o, [], false⟩
/-- The moves of tiles `lo` to `hi` of a fetch stream, numbered from `id`. -/
def tileMoves (n c k : Nat) (f : Fetch) (id lo hi : Nat) : List Move :=
  (List.range (hi - lo)).map (fun j => newMove n c (id + j) f.tag (.hbm (f.base + (lo + j) * f.stride))
    (f.ring.plus ((lo + j) % f.depth * f.tileBytes)) f.tileBytes 1 (.tile k (lo + j) f.opened))
/-- From s to t tiles `lo` to `hi` of fetch stream k have been issued, and nothing has changed but the stream and its mover's queue. -/
structure TilesIssued (n c k : Nat) (f : Fetch) (lo hi : Nat) (s t : State) : Prop where
  le : lo ≤ hi
  moveId : t.moveId = s.moveId + (hi - lo)
  mover : t.mover (n / 5) = s.mover (n / 5) ++ tileMoves n c k f s.moveId lo hi
  movers : ∀ p, p ≠ n / 5 → t.mover p = s.mover p
  fetch : ∀ j, j ≠ (4 * n + c) * 8 + k → Sp.get (fun _ => none) t.fetch j = Sp.get (fun _ => none) s.fetch j
  only : t = { s with movers := t.movers, moveId := t.moveId, fetch := t.fetch }

section
variable {n c k : Nat} {f g : Fetch} {s t u : State}

theorem TilesIssued.trans {lo mid hi : Nat} (h : TilesIssued n c k f lo mid s t) (h' : TilesIssued n c k f mid hi t u) :
    TilesIssued n c k f lo hi s u where
  le := h.le.trans h'.le
  moveId := by
    have := h.le
    have := h'.le
    rw [h'.moveId, h.moveId]
    omega
  mover := by
    obtain ⟨a, rfl⟩ := Nat.exists_eq_add_of_le h.le
    obtain ⟨b, rfl⟩ := Nat.exists_eq_add_of_le h'.le
    have ha : lo + a - lo = a := Nat.add_sub_cancel_left lo a
    have hb : lo + a + b - (lo + a) = b := Nat.add_sub_cancel_left (lo + a) b
    have hab : lo + a + b - lo = a + b := by omega
    rw [h'.mover, h.mover, h.moveId, List.append_assoc]
    simp only [tileMoves, ha, hb, hab, List.range_add, List.map_append, List.map_map]
    refine congrArg _ (congrArg _ (List.map_congr_left fun j _ => ?_))
    simp only [Function.comp, Nat.add_assoc]
  movers p hp := (h'.movers p hp).trans (h.movers p hp)
  fetch j hj := (h'.fetch j hj).trans (h.fetch j hj)
  only := by
    rw [h'.only, h.only]
/-- Only the stream's place has been written. -/
theorem TilesIssued.setFetch (lo : Nat) (x : Option Fetch) : TilesIssued n c k f lo lo s (s.setFetch n c k x) where
  le := le_rfl
  moveId := by simp [State.setFetch]
  mover := by simp [State.setFetch, State.mover, tileMoves]
  movers _ _ := rfl
  fetch j hj := Sp.get_set_ne _ _ _ hj
  only := rfl
/-- The tiles of a stream are the same, however many it has issued and released. -/
theorem TilesIssued.of_alike {lo hi i r : Nat} (h : TilesIssued n c k { f with issued := i, released := r } lo hi s t) :
    TilesIssued n c k f lo hi s t := ⟨h.le, h.moveId, h.mover, h.movers, h.fetch, h.only⟩
theorem fetchSt_setFetch (x : Option Fetch) : (s.setFetch n c k x).fetchSt n c k = x := Sp.get_set_same _ _ _ _
theorem openFetch_of_fetchSt (h : s.fetchSt n c k = some f) (hopen : f.cancelled = false) : s.openFetch n c k = some f := by
  simp [State.openFetch, h, hopen]
theorem openFetch_some (h : s.openFetch n c k = some f) : s.fetchSt n c k = some f ∧ f.cancelled = false := by
  obtain ⟨g, hg, hopen⟩ := Option.bind_eq_some_iff.mp h
  split at hopen
  · exact absurd hopen (by simp)
  next hc =>
    obtain rfl := Option.some.inj hopen
    exact ⟨hg, by simpa using hc⟩
/-- The next tile is issued where its place is free and the folio's queue has room. -/
theorem issueTile_issues (h : s.openFetch n c k = some f) (hdue : f.issued < min f.tiles (f.released + f.depth))
    (hroom : s.queueRoom n = true) : (s.issueTile n c k).fetchSt n c k = some { f with issued := f.issued + 1 } ∧
      TilesIssued n c k f f.issued (f.issued + 1) s (s.issueTile n c k) := by
  have hrun : s.issueTile n c k = (s.addMove n c f.tag (.hbm (f.base + f.issued * f.stride)) (f.ring.plus (f.issued % f.depth * f.tileBytes))
      f.tileBytes 1 (.tile k f.issued f.opened) []).setFetch n c k (some { f with issued := f.issued + 1 }) := by
    simp only [State.issueTile, h]
    rw [if_pos ⟨by omega, by omega, hroom⟩]
  rw [hrun]
  refine ⟨fetchSt_setFetch _, ?_⟩
  refine TilesIssued.trans (t := s.addMove n c f.tag (.hbm (f.base + f.issued * f.stride)) (f.ring.plus (f.issued % f.depth * f.tileBytes))
      f.tileBytes 1 (.tile k f.issued f.opened) []) ⟨Nat.le_succ _, ?_, ?_, fun p hp => Sp.get_set_ne _ _ _ hp, fun _ _ => rfl, rfl⟩
    (.setFetch _ _)
  · simp [State.addMove]
  · simp [State.addMove, State.setMover, State.mover, Sp.get_set_same, tileMoves, newMove]
theorem issueTile_waits (h : s.openFetch n c k = some f) (hroom : s.queueRoom n = false) : s.issueTile n c k = s := by
  simp only [State.issueTile, h]
  rw [if_neg (by simp [hroom])]
/-- Of the tiles that are due, those are issued for which the folio's queue has room. -/
theorem issueTiles_issue (h : s.openFetch n c k = some f) : ∃ j, f.issued ≤ j ∧ j ≤ max f.issued (min f.tiles (f.released + f.depth)) ∧
    (s.issueTiles n c k).fetchSt n c k = some { f with issued := j } ∧ TilesIssued n c k f f.issued j s (s.issueTiles n c k) ∧
    (j < min f.tiles (f.released + f.depth) → (s.issueTiles n c k).queueRoom n = false) := by
  obtain ⟨due, hdue⟩ : ∃ due, min f.tiles (f.released + f.depth) = due := ⟨_, rfl⟩
  obtain ⟨hst, hopen⟩ := openFetch_some h
  have hloop (m : Nat) (hm : m ≤ due - f.issued) : ∃ j, j ≤ m ∧
      ((List.range m).foldl (fun s _ => s.issueTile n c k) s).fetchSt n c k = some { f with issued := f.issued + j } ∧
      TilesIssued n c k f f.issued (f.issued + j) s ((List.range m).foldl (fun s _ => s.issueTile n c k) s) ∧
      (j < m → ((List.range m).foldl (fun s _ => s.issueTile n c k) s).queueRoom n = false) := by
    induction m with
    | zero => exact ⟨0, le_rfl, hst, ⟨le_rfl, by simp, by simp [tileMoves], fun _ _ => rfl, fun _ _ => rfl, rfl⟩, fun hno => absurd hno (by omega)⟩
    | succ m ih =>
      obtain ⟨j, hj, hfetch, htiles, hroom⟩ := ih (by omega)
      rw [List.range_succ, List.foldl_append, List.foldl_cons, List.foldl_nil]
      generalize (List.range m).foldl (fun s _ => s.issueTile n c k) s = t at hfetch htiles hroom ⊢
      have hopen' : t.openFetch n c k = some { f with issued := f.issued + j } := openFetch_of_fetchSt hfetch hopen
      cases hr : t.queueRoom n with
      | false =>
        rw [issueTile_waits hopen' hr]
        exact ⟨j, by omega, hfetch, htiles, fun _ => hr⟩
      | true =>
        have hjm : j = m := by
          by_contra hne
          exact absurd (hroom (by omega)) (by simp [hr])
        subst hjm
        obtain ⟨hfetch', htiles'⟩ := issueTile_issues hopen' (by dsimp only; omega) hr
        exact ⟨j + 1, le_rfl, hfetch', htiles.trans htiles'.of_alike, fun hno => absurd hno (by omega)⟩
  have hrun : s.issueTiles n c k = (List.range (due - f.issued)).foldl (fun s _ => s.issueTile n c k) s := by
    simp only [State.issueTiles, h, hdue]
  obtain ⟨j, hj, hfetch, htiles, hroom⟩ := hloop _ le_rfl
  rw [← hrun] at hfetch htiles hroom
  exact ⟨f.issued + j, by omega, by omega, hfetch, htiles, fun hlt => hroom (by omega)⟩

/-! ## Releases of tiles (R378, R380, R381) -/

/-- Releases of an open stream: the tiles whose places are then free issue, and the last release ends the stream. -/
theorem relTiles_release {m : Nat} (h : s.openFetch n c k = some f) (hm : f.released + (m + 1) ≤ f.tiles) :
    ∃ j, f.issued ≤ j ∧ TilesIssued n c k f f.issued j s (s.relTiles n c k (m + 1)) ∧
      (f.released + (m + 1) = f.tiles → (s.relTiles n c k (m + 1)).fetchSt n c k = none) ∧
      (f.released + (m + 1) < f.tiles →
        (s.relTiles n c k (m + 1)).fetchSt n c k = some { f with released := f.released + (m + 1), issued := j } ∧
        (j < min f.tiles (f.released + (m + 1) + f.depth) → (s.relTiles n c k (m + 1)).queueRoom n = false)) := by
  induction m generalizing s f with
  | zero =>
    have hone : s.relTiles n c k (0 + 1) = s.relOne n c k := rfl
    rw [hone]
    by_cases hend : f.released + 1 = f.tiles
    · have hlast : s.relOne n c k = s.setFetch n c k none := by
        simp only [State.relOne, h]
        rw [if_pos hend]
      rw [hlast]
      exact ⟨f.issued, le_rfl, .setFetch _ _, fun _ => fetchSt_setFetch _, fun hno => absurd hend (Nat.ne_of_lt hno)⟩
    · have hgo : s.relOne n c k = (s.setFetch n c k (some { f with released := f.released + 1 })).issueTiles n c k := by
        simp only [State.relOne, h]
        rw [if_neg hend]
      have hopen := openFetch_of_fetchSt (fetchSt_setFetch (s := s) (n := n) (c := c) (k := k)
        (some { f with released := f.released + 1 })) (openFetch_some h).2
      obtain ⟨j, hj, -, hfetch, htiles, hroom⟩ := issueTiles_issue hopen
      rw [← hgo] at hfetch htiles hroom
      exact ⟨j, hj, .trans (.setFetch _ _) htiles.of_alike, fun hno => absurd hno hend, fun _ => ⟨hfetch, hroom⟩⟩
  | succ m ih =>
    have hone : s.relOne n c k = (s.setFetch n c k (some { f with released := f.released + 1 })).issueTiles n c k := by
      simp only [State.relOne, h]
      rw [if_neg (by omega)]
    have hopen := openFetch_of_fetchSt (fetchSt_setFetch (s := s) (n := n) (c := c) (k := k)
      (some { f with released := f.released + 1 })) (openFetch_some h).2
    obtain ⟨j, hj, -, hfetch, htiles, -⟩ := issueTiles_issue hopen
    rw [← hone] at hfetch htiles
    obtain ⟨l, hl, htiles', hend, hgo⟩ := ih (openFetch_of_fetchSt hfetch (openFetch_some h).2) (by dsimp only; omega)
    have hsum : f.released + 1 + (m + 1) = f.released + (m + 1 + 1) := by omega
    dsimp only at hl htiles' hend hgo
    rw [hsum] at hend hgo
    exact ⟨l, Nat.le_trans hj hl, (TilesIssued.trans (.setFetch _ _) htiles.of_alike).trans htiles'.of_alike, hend, hgo⟩
theorem relTiles_closed (h : s.openFetch n c k = none) (m : Nat) : s.relTiles n c k m = s := by
  induction m with
  | zero => rfl
  | succ m ih =>
    have hone : s.relOne n c k = s := by simp only [State.relOne, h]
    rw [State.relTiles, hone, ih]
end

/-! ## XFER, XSTREAM, XREL -/

section
variable {a : Issue} {e : Eng} {s : State}

/-- Tiles issued by a bundle, told against the state that it issued in. -/
theorem tilesIssued_advance {n c k m d lo hi : Nat} {f : Fetch} {t : State} (h : TilesIssued n c k f lo hi (s.advance m d) t) :
    (∀ p : Fin 10, p.val ≠ n / 5 → t.mover p.val = s.mover p.val) ∧
    (∀ j, j ≠ (4 * n + c) * 8 + k → Sp.get (fun _ => none) t.fetch j = Sp.get (fun _ => none) s.fetch j) ∧
    t = { s.advance m d with movers := t.movers, moveId := t.moveId, fetch := t.fetch } ∧
    t.moveId = s.moveId + (hi - lo) ∧ t.mover (n / 5) = s.mover (n / 5) ++ tileMoves n c k f s.moveId lo hi := by
  have hmover (p : Nat) : (s.advance m d).mover p = s.mover p := by rw [State.mover, advance_only, State.mover]
  have hid : (s.advance m d).moveId = s.moveId := by rw [advance_only]
  have hfetch : (s.advance m d).fetch = s.fetch := by rw [advance_only]
  refine ⟨fun p hp => (h.movers p hp).trans (hmover p), fun j hj => (h.fetch j hj).trans (by rw [hfetch]), h.only, ?_, ?_⟩
  · rw [h.moveId, hid]
  · rw [h.mover, hmover, hid]

/-- A move entered by a bundle, told against the state that it issued in. -/
theorem addMove_advance {m d : Nat} (n c tag : Nat) (src dst : MoveEnd) (len stripe : Nat) (o : MoveOwner) :
    let t := (s.advance m d).addMove n c tag src dst len stripe o []
    t.mover (n / 5) = s.mover (n / 5) ++ [newMove n c s.moveId tag src dst len stripe o] ∧ t.moveId = s.moveId + 1 ∧
      (∀ p, p ≠ n / 5 → t.mover p = s.mover p) ∧ t.fetch = s.fetch ∧
      t = { s.advance m d with movers := t.movers, moveId := t.moveId, fetch := t.fetch } := by
  have hmovers : (s.advance m d).movers = s.movers := by rw [advance_only]
  have hid : (s.advance m d).moveId = s.moveId := by rw [advance_only]
  have hfetch : (s.advance m d).fetch = s.fetch := by rw [advance_only]
  generalize s.advance m d = i at *
  intro t
  refine ⟨?_, congrArg (· + 1) hid, fun p hp => ?_, hfetch, rfl⟩
  · refine (Sp.get_set_same _ _ _ _).trans ?_
    rw [State.mover, hmovers, hid]
    rfl
  · refine (Sp.get_set_ne _ _ _ hp).trans ?_
    rw [hmovers]
    rfl

/-- An engine bundle whose instruction makes its release itself leaves what the instruction does to the issued bundle. -/
theorem engine_completes_keep {op : Nat → Nat → Eng → State → SlotOp} {u : State} {post : State → Prop} (r : Option Nat)
    (h : EngineIssues op a e s) (hrun : (op a.folio.val a.ctx.val e s).run (s.advance a.folio.val a.ctx.val) = u) (hpost : post u) :
    CompletesKeep (engine op r a e s) a e s post := by
  obtain ⟨hready, hclear, hscalar⟩ := h
  exact ⟨u, by rw [engine_runs r hready hclear hscalar, hrun], hpost⟩

/-- XREL of an open stream breaks no rule: it releases some tile, and no more than the stream has. -/
theorem xrel_clear {n c : Nat} {f : Fetch} (h : (opXrel n c e s).clear) (hf : s.fetchSt n c (e.op 60 58) = some f)
    (hopen : f.cancelled = false) : 0 < e.op 57 49 ∧ f.released + e.op 57 49 ≤ f.tiles := by
  have hts := h.1
  simp only [opXrel, engSlot, hf, hopen, lowestTrap_append_none, lowestTrap_cons_none, Bool.or_eq_false_iff, Bool.not_false, Bool.true_and,
    decide_eq_false_iff_not, Nat.not_lt, beq_eq_false_iff_ne] at hts
  obtain ⟨-, -, ⟨⟨hpast, hcount⟩, -⟩, -⟩ := hts
  exact ⟨Nat.pos_of_ne_zero hcount, hpast⟩

/-- Settles O28: tiles issue in order while their places are free and the folio's queue has room. -/
theorem movesAndFetchStreams : Obligations.MovesAndFetchStreams := by
  intro a e s n c q k frame move tiles
  refine ⟨fun h => ?_, fun h => ?_, fun f hf hopen h => ?_, fun f hf hclosed h => ?_⟩
  · obtain ⟨hnew, hid, hothers, hfetch, honly⟩ := addMove_advance (s := s) (m := n) (d := c) n c (s.engTag n c e)
      (s.endOf n c (e.op 56 55) (s.ar n c (e.op 60 57))) (s.endOf n c (e.op 50 49) (s.ar n c (e.op 54 51))) (s.sr n c (e.op 48 44))
      (e.op 43 40) (.xfer (if e.rel then some e.rstrm.toNat else none))
    show CompletesKeep (engine opXfer none a e s) a e s _
    refine engine_completes_keep none h rfl ?_
    exact ⟨hnew, hid, hfetch, fun p hp => hothers p.val hp, fun j _ => congrArg (Sp.get (fun _ => none) · j) hfetch, honly⟩
  · let f : Fetch := ⟨s.engTag n c e, hbmOf (s.ar n c (e.op 57 54)), s.sr n c (e.op 38 34), s.sr n c (e.op 48 44), s.sr n c (e.op 43 39),
      e.op 33 30, s.endOf n c (if e.opb 49 then 1 else 2) (s.ar n c (e.op 53 50)), 0, 0, [], s.moveId, false⟩
    have hid : (s.advance n c).moveId = s.moveId := by rw [advance_only]
    obtain ⟨j, -, hj, hfetch, htiles, hroom⟩ := issueTiles_issue (openFetch_of_fetchSt (fetchSt_setFetch (s := s.advance n c) (n := n) (c := c)
      (k := k) (some f)) rfl)
    have hrun : (opXstream n c e s).run (s.advance n c) = (((s.advance n c).setFetch n c k (some f)).issueTiles n c k).relEng n c e := by
      simp only [opXstream, engSlot, hid]
      rfl
    obtain ⟨hmovers, hothers, honly, hmoves, hmover⟩ := tilesIssued_advance (TilesIssued.trans (.setFetch 0 (some f)) htiles)
    have hdue : min f.tiles (f.released + f.depth) = min f.depth f.tiles := by rw [Nat.min_comm, Nat.zero_add]
    rw [hdue] at hj hroom
    show Completes (engine opXstream none a e s) a e s _
    exact engine_completes none h hrun ⟨⟨hmovers, hothers, honly⟩, j, by simpa [f] using hj, hfetch, ⟨hmoves, hmover⟩, hroom⟩
  · have hst : (s.advance n c).openFetch n c k = some f := by
      refine openFetch_of_fetchSt ?_ hopen
      rw [State.fetchSt, advance_only]
      exact hf
    obtain ⟨hcount, hpast⟩ := xrel_clear h.2.1 hf hopen
    obtain ⟨m, hm⟩ := Nat.exists_eq_add_of_lt hcount
    rw [Nat.zero_add] at hm
    rw [hm] at hpast
    obtain ⟨j, hj, htiles, hend, hgo⟩ := relTiles_release hst hpast
    rw [← hm] at htiles hend hgo
    obtain ⟨hmovers, hothers, honly, hmoves, hmover⟩ := tilesIssued_advance htiles
    show Completes (engine opXrel none a e s) a e s _
    exact engine_completes none h rfl ⟨⟨hmovers, hothers, honly⟩, j, hj, ⟨hmoves, hmover⟩, hend, hgo⟩
  · have hnone : (s.advance n c).openFetch n c k = none := by
      have hst : (s.advance n c).fetchSt n c k = some f := by rw [State.fetchSt, advance_only]; exact hf
      simp [State.openFetch, hst, hclosed]
    show Completes (engine opXrel none a e s) a e s _
    exact engine_completes none h (congrArg (State.relEng · n c e) (relTiles_closed hnone _)) rfl
end

/-! ## Multicasts (R383) -/

section
variable {m : McLead} {v : State}

theorem mapM_some_of_forall {α β γ : Type} {f : α → Option β} {g : β → γ} {h : α → γ} {p : β → Prop} {l : List α}
    (hall : ∀ x ∈ l, ∃ y, f x = some y ∧ g y = h x ∧ p y) : ∃ ys, l.mapM f = some ys ∧ ys.map g = l.map h ∧ ∀ y ∈ ys, p y := by
  induction l with
  | nil => exact ⟨[], rfl, rfl, by simp⟩
  | cons x l ih =>
    obtain ⟨y, hy, hg, hp⟩ := hall x List.mem_cons_self
    obtain ⟨ys, hys, hgs, hps⟩ := ih fun z hz => hall z (List.mem_cons_of_mem _ hz)
    exact ⟨y :: ys, by simp [List.mapM_cons, hy, hys], by simp [hg, hgs], by simpa using ⟨hp, hps⟩⟩
theorem mapM_none_of_mem {α β : Type} {f : α → Option β} {l : List α} {x : α} (hx : x ∈ l) (h : f x = none) : l.mapM f = none := by
  induction l with
  | nil => exact absurd hx (by simp)
  | cons z l ih =>
    rcases List.mem_cons.mp hx with rfl | hx
    · simp [List.mapM_cons, h]
    · simp [List.mapM_cons, ih hx]

/-- A folio that the mask names has posted a receive for the multicast. -/
def Posted (m : McLead) (v : State) (k : Nat) (r : McRecv) : Prop := r ∈ v.mrecvs ∧ r.folio = v.phys k ∧ r.key = m.key ∧ r.len = m.len

theorem posted_iff_found {k : Nat} :
    (∃ r, Posted m v k r) ↔ ∃ r, v.mrecvs.find? (fun r => r.folio == v.phys k && r.key == m.key && r.len == m.len) = some r := by
  rw [← Option.isSome_iff_exists, List.find?_isSome]
  refine exists_congr fun r => and_congr_right fun _ => ?_
  simp only [Bool.and_eq_true, beq_iff_eq, and_assoc]
/-- The only multicast that waits starts when every folio that it names has posted its receive. -/
theorem startMcasts_starts (hm : v.mleads = [m]) (h : ∀ k ∈ members m.mask, ∃ r, Posted m v k r) :
    ∃ rs : List McRecv, rs.map McRecv.folio = (members m.mask).map v.phys ∧ (∀ r ∈ rs, r ∈ v.mrecvs ∧ r.key = m.key ∧ r.len = m.len) ∧
      v.startMcasts = State.addMove { v with mleads := [], mrecvs := rs.foldl (fun l r => l.erase r) v.mrecvs } m.folio m.ctx m.tag
        (.hbm m.src) (.fm 0) m.len 1 .mcast rs := by
  have hfound : ∀ k ∈ members m.mask, ∃ r, v.mrecvs.find? (fun r => r.folio == v.phys k && r.key == m.key && r.len == m.len) = some r ∧
      r.folio = v.phys k ∧ r ∈ v.mrecvs ∧ r.key = m.key ∧ r.len = m.len := by
    intro k hk
    obtain ⟨r, hr⟩ := posted_iff_found.mp (h k hk)
    have hok := List.find?_some hr
    simp only [Bool.and_eq_true, beq_iff_eq, and_assoc] at hok
    exact ⟨r, hr, hok.1, List.mem_of_find?_eq_some hr, hok.2⟩
  obtain ⟨rs, hrs, hfolios, hposted⟩ := mapM_some_of_forall hfound
  refine ⟨rs, hfolios, hposted, ?_⟩
  simp only [State.startMcasts, hm, List.foldl_cons, List.foldl_nil, State.mcReady, hrs, List.erase_cons_head]
theorem startMcasts_waits (hm : v.mleads = [m]) {k : Nat} (hk : k ∈ members m.mask) (h : ∀ r, ¬Posted m v k r) : v.startMcasts = v := by
  have hnone : v.mcReady m = none := by
    refine mapM_none_of_mem hk ?_
    by_contra hsome
    obtain ⟨r, hr⟩ := posted_iff_found.mpr (Option.ne_none_iff_exists'.mp hsome)
    exact h r hr
  simp only [State.startMcasts, hm, List.foldl_cons, List.foldl_nil, hnone]

/-- Settles O29: of a single multicast, the receives that have been posted decide whether it starts. -/
theorem multicastNeedsEveryReceive : Obligations.MulticastNeedsEveryReceive := by
  intro a e s n c i posted Starts Waits Acts
  have hleads : i.mleads = s.mleads := by
    show (s.advance n c).mleads = _
    rw [advance_only]
  have hrecvs : i.mrecvs = s.mrecvs := by
    show (s.advance n c).mrecvs = _
    rw [advance_only]
  have hmovers : i.movers = s.movers := by
    show (s.advance n c).movers = _
    rw [advance_only]
  have hid : i.moveId = s.moveId := by
    show (s.advance n c).moveId = _
    rw [advance_only]
  have hregs : i.regs = s.regs := advance_regs s n c
  have hacts (m : McLead) (u : State) (hu : u.regs = s.regs) :
      Acts m u ({ i with mleads := [m], mrecvs := u.mrecvs } : State).startMcasts := by
    have hphys (k : Nat) : ({ i with mleads := [m], mrecvs := u.mrecvs } : State).phys k = u.phys k := by
      simp only [State.phys, State.fld, State.reg, hregs, hu]
    refine ⟨fun hall => ?_, fun hmiss => ?_⟩
    · obtain ⟨rs, hfolios, hposted, hstart⟩ := startMcasts_starts (m := m) (v := { i with mleads := [m], mrecvs := u.mrecvs }) rfl
        fun k hk => (hall k hk).imp fun r hr => ⟨hr.1, (hphys k).symm ▸ hr.2.1, hr.2.2⟩
      rw [hstart]
      clear_value i
      refine ⟨rs, hfolios.trans (List.map_congr_left fun k _ => hphys k), hposted, rfl, rfl, ?_, fun q hq => ?_, congrArg (· + 1) hid, ?_⟩
      · refine (Sp.get_set_same _ _ _ _).trans ?_
        simp only [State.mover, hmovers, hid]
      · refine (Sp.get_set_ne _ _ _ hq).trans ?_
        simp only [State.mover, hmovers]
      · rfl
    · obtain ⟨k, hk, hnone⟩ := hmiss
      exact startMcasts_waits rfl hk fun r hr => hnone r ⟨hr.1, hphys k ▸ hr.2.1, hr.2.2⟩
  refine ⟨?_, ?_⟩
  · intro h m
    have hstart : ({ i with mleads := i.mleads ++ [m] } : State).startMcasts = ({ i with mleads := s.mleads ++ [m] } : State).startMcasts := by
      rw [hleads]
    show Completes (engine opXmcast none a e s) a e s _
    refine engine_completes none h (congrArg (State.relEng · n c e) hstart) ⟨rfl, fun hnone => ?_⟩
    have hone : ({ i with mleads := s.mleads ++ [m] } : State) = { i with mleads := [m], mrecvs := s.mrecvs } := by
      rw [hnone, ← hrecvs]
      rfl
    rw [hone]
    exact hacts m s rfl
  · intro h r u
    have hstart : ({ i with mrecvs := i.mrecvs ++ [r] } : State).startMcasts = ({ i with mrecvs := u.mrecvs } : State).startMcasts := by
      rw [hrecvs]
    show Completes (engine opXmrecv none a e s) a e s _
    refine engine_completes none h (congrArg (State.relEng · n c e) hstart) ⟨rfl, fun hnone => ?_, fun m hm => ?_⟩
    · have hempty : ({ i with mrecvs := u.mrecvs } : State).mleads = [] := hleads.trans hnone
      rw [State.startMcasts, hempty, List.foldl_nil]
    · have hone : ({ i with mrecvs := u.mrecvs } : State) = { i with mleads := [m], mrecvs := u.mrecvs } := by
        rw [← hm, ← hleads]
      rw [hone]
      exact hacts m u rfl
end

end Sys2Proof.Machine
end

-- ==== Spine instructions: O30 ====
section
/-! SUPPORT. The spine instructions (R453, R463, R464). In order: a contribution that waits; what a spine instruction does; the statement. -/

namespace Sys2Proof.Machine

open Sys2Proof.Claims

section
variable {s : State} {n : Nat}

/-- A contribution of this device alone waits in its folio's place. -/
theorem handOver_waits {x : Contrib} (hscope : x.scope = false) (hfree : s.contrib n = []) :
    (s.handOver n x).contrib n = [x] ∧ s.handOver n x = { s with contribs := (s.handOver n x).contribs } := by
  have hrun : s.handOver n x = s.contribute n x := by
    unfold State.handOver
    simp only [hscope, Bool.false_and, Bool.false_eq_true, if_false]
    split
    · rfl
    · rfl
  have hone : s.contribute n x = s.setContrib n [x] := by rw [State.contribute, hfree, List.nil_append]
  rw [hrun, hone]
  exact ⟨by rw [State.contrib, State.setContrib, Sp.get_set_same], rfl⟩
/-- A contribution from the send slot leaves it empty. -/
theorem slot_handed {x : Contrib} (hscope : x.scope = false) (hfree : s.contrib n = []) :
    let u := (({ s with fresh := s.fresh + 0 } : State).setSlot n none).handOver n x
    u.slot n = none ∧ u.contrib n = [x] ∧ u = { s with contribs := u.contribs, slots := u.slots } := by
  intro u
  obtain ⟨hwaits, honly⟩ := handOver_waits (s := ({ s with fresh := s.fresh + 0 } : State).setSlot n none) hscope hfree
  have hslots : u.slots = Sp.set (fun _ => none) s.slots n none := congrArg State.slots honly
  refine ⟨by rw [State.slot, hslots, Sp.get_set_same], hwaits, ?_⟩
  rw [hslots]
  exact honly
theorem padFree_length (len : Nat) (bs : List Byte) : (s.padFree len bs).length = len := by
  simp only [State.padFree, List.length_append, List.length_take, List.length_map, List.length_range]
  omega
theorem padFree_full {len : Nat} {bs : List Byte} (h : len ≤ bs.length) : s.padFree len bs = bs.take len := by
  simp [State.padFree, Nat.sub_eq_zero_of_le h]
end

section
variable {op : Nat} {a : Issue} {e : Eng} {s : State} {mk : Issue → Eng → Instr}

/-- Does a folio give bytes to a spine instruction (R460)? -/
def spineGives (op n : Nat) (e : Eng) (s : State) : Bool := !(op == opSPBAR) && !(op == opSPBCAST && !s.isFirst n (pSTAG e) (pSCOPE e))
theorem spineGives_iff {n : Nat} : spineGives op n e s = true ↔ op ≠ opSPBAR ∧ (op = opSPBCAST → s.isFirst n (pSTAG e) (pSCOPE e) = true) := by
  simp only [spineGives, Bool.and_eq_true, Bool.not_eq_true', beq_eq_false_iff_ne, Bool.and_eq_false_iff, Bool.not_eq_false', ne_eq]
  exact and_congr_right fun _ => imp_iff_not_or.symm
/-- What a spine instruction hands over, before its bytes. -/
def spineContrib (op n c : Nat) (e : Eng) (s : State) (count : Nat) : Contrib :=
  ⟨op, e.fmt, pROP e, count, pSTAG e, pSCOPE e, addrOf (s.ar n c (pDREG e)), c, [], if op = opSPCARRY then fieldSCAN else fieldVEC, [], 0,
    (s.ctx n c).owner⟩
/-- The bytes that it gives. -/
def spineLen (op n c : Nat) (e : Eng) (s : State) : Nat :=
  spBytes op (fmtOf s.level e.fmt) (pROP e) (s.sr n c (pSCNT e)) (s.isFirst n (pSTAG e) (pSCOPE e))

/-- A spine instruction that issues finds its folio's place free, and the send slot empty or filled by its own context. -/
theorem spine_clear {n c : Nat} (h : (opSpine op n c e s).clear) : s.contrib n = [] ∧ ∀ z, s.slot n = some z → (z.ctx == c) = true := by
  have hwait := h.2
  have hfree (own : Bool) (w : Option WaitK) : (if (!(s.contrib n).isEmpty || (s.slot n).isSome && !own ||
      (s.gates n).any (fun g => g.ctx == c)) = true then some .sendSlot else w) = none → s.contrib n = [] ∧ ((s.slot n).isSome → own) := by
    intro hw
    split at hw
    · exact absurd hw (by simp)
    next hno =>
      simp only [Bool.or_eq_true, Bool.not_eq_true', Bool.and_eq_true, not_or, not_and, Bool.not_eq_false] at hno
      exact ⟨List.isEmpty_iff.mp hno.1.1, hno.1.2⟩
  obtain ⟨hempty, hown⟩ := hfree _ _ hwait
  exact ⟨hempty, fun z hz => by simpa [hz] using hown⟩
theorem spine_from_memory {n c : Nat} {t : State} (hgives : spineGives op n e s = true) (hslot : t.slot n = none) :
    (opSpine op n c e s).run t = (t.handOver n { spineContrib op n c e s (s.sr n c (pSCNT e)) with
      bytes := t.fmBytes n c (addrOf (s.ar n c (pSREG e))) (spineLen op n c e s) }).relEng n c e := by
  have hbits : (!(op == opSPBAR) && !(op == opSPBCAST && !s.isFirst n (pSTAG e) (pSCOPE e))) = true := hgives
  simp only [opSpine, engSlot, hbits, hslot, if_true]
  rfl
theorem spine_from_slot {n c : Nat} {t : State} {z : Slot} (hgives : spineGives op n e s = true) (hslot : t.slot n = some z)
    (hown : (z.ctx == c) = true) : (opSpine op n c e s).run t =
      ((({ t with fresh := t.fresh + (spineLen op n c e s - z.bytes.length) } : State).setSlot n none).handOver n
        { spineContrib op n c e s (s.sr n c (pSCNT e)) with
          bytes := t.padFree (spineLen op n c e s) z.bytes, record := z.record, key := z.key }).relEng n c e := by
  have hbits : (!(op == opSPBAR) && !(op == opSPBCAST && !s.isFirst n (pSTAG e) (pSCOPE e))) = true := hgives
  simp only [opSpine, engSlot, hbits, hslot, hown, Bool.and_self, if_true, padFree_length]
  rfl
theorem spine_gives_nothing {n c : Nat} {t : State} (hgives : spineGives op n e s = false) :
    (opSpine op n c e s).run t = (t.handOver n (spineContrib op n c e s 0)).relEng n c e := by
  have hbits : (!(op == opSPBAR) && !(op == opSPBCAST && !s.isFirst n (pSTAG e) (pSCOPE e))) = false := hgives
  simp only [opSpine, engSlot, hbits, Bool.false_and, Bool.false_eq_true, if_false]
  split
  · rfl
  · rfl

theorem handsOver (hmk : exec (mk a e) s = engine (opSpine op) (some SPN_RESIDUE) a e s) : HandsOver op mk a e s := by
  unfold HandsOver
  intro n c i gives len x h
  obtain ⟨hfree, hown⟩ := spine_clear h.2.1
  have hslot : i.slot n = s.slot n := by
    show (s.advance n c).slot n = _
    rw [State.slot, advance_only, State.slot]
  have hcontrib : i.contrib n = [] := by
    show (s.advance n c).contrib n = _
    rw [State.contrib, advance_only]
    exact hfree
  rw [hmk]
  refine ⟨fun hz hg => ?_, fun hg => ?_, fun z hz hg => ?_⟩
  · refine engine_completes _ h (spine_from_memory (spineGives_iff.mpr hg) (hslot.trans hz)) ?_
    rw [fmBytes_advance]
    exact ⟨rfl, fun hscope => handOver_waits hscope hcontrib⟩
  · refine engine_completes _ h (spine_gives_nothing ?_) ⟨rfl, fun hscope => handOver_waits hscope hcontrib⟩
    rw [← Bool.not_eq_true]
    exact fun hno => hg (spineGives_iff.mp hno)
  · refine engine_completes _ h (spine_from_slot (spineGives_iff.mpr hg) (hslot.trans hz) (hown z hz)) ⟨rfl, fun hscope hlen => ?_⟩
    have hzero : len - z.bytes.length = 0 := Nat.sub_eq_zero_of_le hlen
    rw [show spineLen op a.folio.val a.ctx.val e s = len from rfl, hzero, padFree_full hlen]
    exact slot_handed hscope hcontrib

/-- Settles O30: each of the seven hands over what it gives, from folio memory or the send slot. -/
theorem spineInstructionsHandOver : Obligations.SpineInstructionsHandOver := fun _ _ _ =>
  ⟨handsOver rfl, handsOver rfl, handsOver rfl, handsOver rfl, handsOver rfl, handsOver rfl, handsOver rfl⟩
end

end Sys2Proof.Machine
end

-- ==== Collectives of one device: O31 refuted ====
section
/-! SUPPORT. A collective whose delivery reads what it has written (R462, R334). The bound of a contribution's context is read at its
descriptor, `SEQ_DESC n c 2`; for a context number that no folio has, 252, that address is FOLIO_OVR_CNT of the folio, into which the
overflow counts of the shared tag merge as the result is delivered. -/

namespace Sys2Proof.Machine

open Sys2Proof.Claims

/-- A contribution to shared tag 9, with its context at 252. -/
def strayContrib : Contrib :=
  { op := opSPBCAST, fmt := 0, rop := 0, count := 1, stag := 9, scope := false, dest := 0, ctx := 252, bytes := [1], field := fieldVEC }
/-- Level 2; logical folios 0 and 1 of gathering 0 are both on physical folio 0, whose contribution waits; 256 overflows are held against
the shared tag. -/
def straySpine : State :=
  { (((((State.reset.setReg IFACE_LEVEL 0x20).setReg (GATH_TBL 0 0) 3).setReg (GATH_TBL 0 1) (2 ^ 31)).setReg (SPN_LEAF 0) 0).setReg
      (SPN_LEAF 1) 0).setReg (FOLIO_OVR_CNT 0) 0x8000 with
    inReset := false
    scheds := [softmaxSched]
    contribs := [(0, [strayContrib])]
    heldOvr := [(7168 + 9, (256, 0))] }
/-- The byte at 4096 of folio 0 after a command. -/
def strayByte : Res → Option Byte
  | .next t => some (t.fm.byte 4096)
  | _ => none

theorem straySpine_given : straySpine.current 0 = some ⟨9, []⟩ ∧ straySpine.givers 0 9 = [(0, strayContrib), (0, strayContrib)] ∧
    straySpine.allGiven 0 9 = true := by
  decide +kernel
theorem strayByte_complete : strayByte (exec (.collectiveComplete 0 .ok) straySpine) = some 1 := by
  decide +kernel
/-- The tree's result, written to both folios as the state of the completion has their bounds, leaves byte 4096 at zero. -/
theorem strayByte_delivered :
    let ps := [(0, strayContrib), (0, strayContrib)]
    let p := rootPart strayContrib (treeParts strayContrib (ps.map (fun y => leafPart y.2)))
    (ps.foldl (fun (m : State) y => m.deliver y.1 y.2 p.bytes) straySpine).fm.byte 4096 = 0 := by
  decide +kernel

/-- Refutes O31: in the state `straySpine` the first delivery merges 256 overflows into FOLIO_OVR_CNT, which is where the second delivery
reads the base of its context 252, so that it writes at 4096 what the statement has at 0. The statement holds no contribution to the four
contexts that a folio has. -/
theorem not_collectivesCompleteTogether : ¬ Obligations.CollectivesCompleteTogether := by
  unfold Obligations.CollectivesCompleteTogether
  intro h
  obtain ⟨hcurrent, hgivers, hall⟩ := straySpine_given
  obtain ⟨t, hnext, hfm, -⟩ := (h 0 .ok straySpine ⟨9, []⟩ (0, strayContrib) [(0, strayContrib)] hcurrent hgivers).2 hall rfl rfl
  have hone := strayByte_complete
  rw [hnext] at hone
  have hzero : t.fm.byte 4096 = 0 := (congrArg (Memory.byte · 4096) (hfm (by decide) (by decide))).trans strayByte_delivered
  exact absurd ((Option.some.inj hone).symm.trans hzero) (by decide)

end Sys2Proof.Machine
end

-- ==== A contribution of another stream's step: O52 refuted ====
section
/-! SUPPORT. SPN_LATE where a contribution's owner is not the step that its context works on (R471, R475). The model fails the owner's step;
the statement fails the step whose entry the contribution's context runs. -/

namespace Sys2Proof.Machine

open Sys2Proof.Claims

/-- A burst of 64 bytes, and its step in flight on folio 0, not failed. -/
def flightBurst : Burst :=
  { bid := 1, seq := 1, typ := 0, fmt := 0, len := 64, elems := 16, crc := 0, next := 1, got := 0, timer := 0, zone := 2, grans := [],
    acc := true, spent := false }
def flightStep : Step := { Step.fresh flightBurst with dispatched := true, mask := 1 }
/-- A contribution to shared tag 9 by context 0, of stream 5's step. -/
def lateContrib : Contrib :=
  { op := opSPBCAST, fmt := 0, rop := 0, count := 1, stag := 9, scope := false, dest := 0, ctx := 0, bytes := [1], field := fieldVEC,
    owner := some 5 }
/-- `softmaxState`, whose context 0 works on stream 3's step, with that step in flight and the contribution of stream 5's waiting. -/
def lateState : State :=
  { softmaxState with
    contribs := [(0, [lateContrib])]
    strm := [(3, { Strm.reset with st := .active, step := some flightStep })] }
/-- Has stream i's step failed after a command? -/
def failedAfterStep (i : Nat) : Res → Option (Option Bool)
  | .next t => some ((t.str i).step.map Step.failed)
  | _ => none

theorem lateState_given : lateState.current 0 = some ⟨9, []⟩ ∧ lateState.givers 0 9 = [(0, lateContrib)] ∧
    (lateState.ctx 0 0).entry = some softmaxEntry ∧ (lateState.str 3).step = some flightStep := by
  decide +kernel
theorem lateState_late : failedAfterStep 3 (exec (.spnLate 0) lateState) = some (some false) := by
  decide +kernel

/-- Refutes O52: in the state `lateState` SPN_LATE fails the step of stream 5, which owns the contribution that is in, and leaves the step of
stream 3, whose entry the contribution's context runs. The statement takes the two for one without saying that they are. -/
theorem not_granulesLandAndMemoriesAreKept : ¬ Obligations.GranulesLandAndMemoriesAreKept := by
  unfold Obligations.GranulesLandAndMemoriesAreKept
  intro h
  obtain ⟨-, -, -, hlate, -⟩ := h lateState
  obtain ⟨hcurrent, hgivers, hentry, hstep⟩ := lateState_given
  have hin : lateState.givers 0 9 ≠ [] := by rw [hgivers]; exact List.cons_ne_nil _ _
  obtain ⟨t, hnext, -, hfails⟩ := hlate 0 ⟨9, []⟩ hcurrent hin
  have hmem : (0, lateContrib) ∈ lateState.givers 0 9 := by rw [hgivers]; exact List.mem_singleton_self _
  have hfailed : (t.str 3).step = some { flightStep with failed := true } :=
    hfails _ hmem softmaxEntry flightStep hentry rfl hstep
  have hkept := lateState_late
  rw [hnext] at hkept
  have hnot : (t.str 3).step.map Step.failed = some false := Option.some.inj hkept
  rw [hfailed] at hnot
  exact absurd hnot (by decide)

end Sys2Proof.Machine
end

-- ==== A log that reaches the class table: O57 and O59 refuted ====
section
/-! SUPPORT. A fault logged while FLT_HEAD names no entry of the log (R567). Entry 52352 stands on the page of the class table: its word 2,
the entry's code, unit and action, is the gathering of class 124. The log is written before the steps to be rerun are looked for, so that a
stream of that class, on gathering 0 before, is on gathering 1, by the action's code, when they are. -/

namespace Sys2Proof.Machine

open Sys2Proof.Claims

/-- In D0, folio 0 is gathering 0; FLT_HEAD names entry 52352; stream 3, of class 124, has a step in flight. -/
def strayLog : State :=
  { (((State.reset.setReg (GATH_TBL 0 0) 1).setReg (GATH_TBL 0 1) (2 ^ 31)).setReg FLT_HEAD 52352).setReg FW_SEL 1 with
    inReset := false
    switching := 1
    strm := [(3, { Strm.reset with st := .active, cls := 124, step := some flightStep })] }

theorem strayLog_entry : FLT_ENTRY 52352 2 = CLASS_TBL 124 2 := by decide
theorem strayLog_given : strayLog.devState = 0 ∧ strayLog.rbit CLK_STAT 0 = false ∧ (strayLog.str 3).step = some flightStep ∧
    strayLog.strGath 3 = 0 ∧ (members (strayLog.gmask 0)).any (fun j => strayLog.phys j / 5 == 0) = true := by
  decide +kernel
theorem strayLog_clkPll : failedAfterStep 3 (exec (.clkPll 0) strayLog) = some (some false) := by
  decide +kernel
theorem strayLog_fwUpdateFail : failedAfterStep 3 (exec (.fwUpdateFail 0) strayLog) = some (some false) := by
  decide +kernel
/-- A command after which stream 3's step has not failed cannot leave it failed. -/
theorem not_failed_of_failedAfterStep {r : Res} {t : State} (hr : failedAfterStep 3 r = some (some false)) (hnext : r = .next t) :
    (t.str 3).step ≠ some { flightStep with failed := true } := by
  intro hfailed
  rw [hnext, failedAfterStep, hfailed] at hr
  exact absurd hr (by decide)

/-- Refutes O57: in the state `strayLog` a PLL of quire 0 is lost while a step of gathering 0, a folio of that quire, is in flight; the log of
it moves the stream's class to gathering 1, and the step does not fail. The statement does not hold FLT_HEAD below 256, as `Logged` does. -/
theorem not_clocksSuppliesAndHeat : ¬ Obligations.ClocksSuppliesAndHeat := by
  unfold Obligations.ClocksSuppliesAndHeat
  intro h
  obtain ⟨-, -, -, hpll, -⟩ := h strayLog
  obtain ⟨hdev, hrun, hstep, hgath, hquire⟩ := strayLog_given
  obtain ⟨t, hnext, -, hfails⟩ := hpll 0 hdev rfl hrun
  have hfailed := (hfails 3).1 flightStep hstep rfl (by rw [hgath]; exact hquire)
  refine not_failed_of_failedAfterStep strayLog_clkPll hnext ?_
  rw [hfailed]

/-- Refutes O59: in the state `strayLog` a failure on gathering 0's staged copy is logged, which moves the class of a stream of that gathering
to gathering 1, and the stream's step does not fail. The statement does not hold FLT_HEAD below 256. -/
theorem not_mailboxSparingAndFirmware : ¬ Obligations.MailboxSparingAndFirmware := by
  unfold Obligations.MailboxSparingAndFirmware
  intro h
  obtain ⟨-, -, -, -, -, -, -, -, -, -, -, -, -, -, -, -, -, hswitch⟩ := h .d2d strayLog
  obtain ⟨-, -, hstep, hgath, -⟩ := strayLog_given
  obtain ⟨t, hnext, -, hfails⟩ := (hswitch 0 (by decide +kernel)).2 (by decide +kernel)
  exact not_failed_of_failedAfterStep strayLog_fwUpdateFail hnext (hfails 3 flightStep hgath hstep)

end Sys2Proof.Machine
end

-- ==== Transactions and the window: O58 refuted ====
section
/-! SUPPORT. A read of a rind timer through the JTAG window (R549, R625). The count of a timer of firmware is free, so that the model takes a
fresh choice at every read of the page of RIND_TMR, whatever the timer's owner. -/

namespace Sys2Proof.Machine

open Sys2Proof.Claims

/-- DBG_EN is 1 and level 1 is accepted. -/
def windowState : State := (State.reset.setReg DEV_SEAL 2).setReg IFACE_LEVEL 0x10
/-- A read of RIND_TMR7. -/
def timerRead : BitVec 97 := BitVec.ofNat 97 (RIND_TMR 7 * 2 ^ 64)
/-- The choices taken after a command. -/
def choicesTaken : Res → Option Nat
  | .next t => some t.fresh
  | _ => none

theorem timerRead_address : bits timerRead.toNat 95 64 = RIND_TMR 7 ∧ bit timerRead.toNat 96 = false := by
  decide
theorem windowState_reads : windowState.rbit DEV_SEAL 1 = true ∧ (windowState.touch .jtag).readWord .jtag (RIND_TMR 7) = some 0 := by
  decide +kernel
theorem timerRead_takes_choice : choicesTaken (exec (.window timerRead) windowState) = some (windowState.fresh + 1) := by
  decide +kernel

/-- Refutes O58: a read of RIND_TMR7 through the window takes a fresh choice, as every read of its page does, so that it leaves more than
JTAG's data changed. The statement excepts the read of STRM_DONE_HI, and not those of the timers. -/
theorem not_transactionsAndTheWindow : ¬ Obligations.TransactionsAndTheWindow := by
  unfold Obligations.TransactionsAndTheWindow
  intro h
  obtain ⟨-, -, -, -, -, -, -, -, -, -, -, hwindow⟩ := h .jtag 0 windowState
  obtain ⟨haddr, hread⟩ := timerRead_address
  obtain ⟨hopen, hword⟩ := windowState_reads
  have hleaves := (hwindow timerRead).2.2 hopen hread (by rw [haddr]; decide) (by rw [haddr]; decide) (by rw [haddr]; decide) 0
    (by rw [haddr]; exact hword)
  have htaken := timerRead_takes_choice
  rw [hleaves] at htaken
  have hsame : (windowState.touch .jtag).fresh = windowState.fresh := by decide +kernel
  have hnone : (windowState.touch .jtag).fresh = windowState.fresh + 1 := Option.some.inj htaken
  omega

end Sys2Proof.Machine
end

-- ==== What the ends of work leave ====
section
/-! SUPPORT. Frames of the operations that end work, move messages and apply a commit. Each writes counters, the fault log, contexts, tags,
movers and links, and none of the words that say where bring-up, the links, the stacks and the charter stand. -/

namespace Sys2Proof.Machine

open Sys2Proof.Claims

/-- The state words that an end of work leaves: the stage of bring-up, the hoop's timer, the stacks, the ports and the charter. -/
def steadyWords : List Nat :=
  [BOOT_STAT, OWN_TMR 3, HBM_STAT, LNK_STAT 0, LNK_STAT 1, LNK_STAT 2, LNK_STAT 3, LNK_STAT 4, LNK_STAT 5, LNK_CNT 0, LNK_CNT 1, LNK_CNT 2,
   LNK_CNT 3, LNK_CNT 4, LNK_CNT 5, D2D_STAT, CH_EPOCH, CH_STAT]
theorem steadyWords_place {a : Nat} (h : a ∈ steadyWords) :
    a % 4096 < 0x800 ∧ a / 4096 ∈ [0, 1, 0x150, 0x171, 0x172, 0x173, 0x174, 0x175, 0x176, 0x177, 0x1B0] := by
  revert a
  decide
theorem not_steady_of_page {a : Nat} (h : a / 4096 ∉ [0, 1, 0x150, 0x171, 0x172, 0x173, 0x174, 0x175, 0x176, 0x177, 0x1B0]) : a ∉ steadyWords :=
  fun hmem => h (steadyWords_place hmem).2
theorem fltEntry_not_steady {i w : Nat} (hw : w < 4) : FLT_ENTRY i w ∉ steadyWords := by
  intro hmem
  have hlow := (steadyWords_place hmem).1
  simp only [FLT_ENTRY, pg] at hlow
  omega
/-- A word of a folio's pages. -/
theorem folioWord_not_steady {a : Nat} (hlo : 0x40 ≤ a / 4096) (hhi : a / 4096 < 0x140) : a ∉ steadyWords := by
  refine not_steady_of_page ?_
  simp only [List.mem_cons, List.not_mem_nil, or_false]
  omega
theorem seqCtx_not_steady {n c : Nat} (hn : n < 50) (hc : c < 4) : SEQ_CTX n c ∉ steadyWords := by
  refine folioWord_not_steady ?_ ?_ <;>
  · simp only [SEQ_CTX, pg]
    omega
theorem moverCnt_not_steady {q : Nat} (hq : q < 10) : MOVER_CNT q ∉ steadyWords := by
  refine not_steady_of_page ?_
  simp only [MOVER_CNT, pg, List.mem_cons, List.not_mem_nil, or_false]
  omega

/-- A stream keeps its state and its committed slot, and where it holds no step, no held burst or no curd it comes to none. -/
structure Strm.Kept (x y : Strm) : Prop where
  st : y.st = x.st
  slot : y.slot = x.slot
  step : x.step = none → y.step = none
  held : x.held = [] → y.held = []
  curd : x.curd = none → y.curd = none
theorem Strm.Kept.refl (x : Strm) : x.Kept x := ⟨rfl, rfl, id, id, id⟩
theorem Strm.Kept.trans {x y z : Strm} (h : x.Kept y) (h' : y.Kept z) : x.Kept z :=
  ⟨h'.st.trans h.st, h'.slot.trans h.slot, h'.step ∘ h.step, h'.held ∘ h.held, h'.curd ∘ h.curd⟩

/-- The parts of the state beside the registers and the streams that an end of work leaves. -/
abbrev State.still (s : State) := (s.vreg, s.hoop, s.formed, s.lstateSeq, s.linkDown, s.linkIn, s.image, s.staged, s.scheds, s.d2dRx, s.d2dTx, s.mirrors,
  s.takeovers)

/-- From s to t the steady words and the still parts stay; `live` says that the streams stay too, as `Strm.Kept` has it. -/
structure State.Steady (live : Bool) (s t : State) : Prop where
  words : ∀ a ∈ steadyWords, t.reg a = s.reg a
  still : t.still = s.still
  strs : live = true → ∀ i, (s.str i).Kept (t.str i)

namespace State.Steady

variable {live : Bool} {s t : State}

theorem refl (live : Bool) (s : State) : s.Steady live s := ⟨fun _ _ => rfl, rfl, fun _ _ => .refl _⟩
theorem trans {u : State} (h : s.Steady live t) (h' : t.Steady live u) : s.Steady live u where
  words a ha := (h'.words a ha).trans (h.words a ha)
  still := h'.still.trans h.still
  strs hlive i := (h.strs hlive i).trans (h'.strs hlive i)
/-- What is left of streams that stay may be dropped. -/
theorem loose (h : s.Steady true t) : s.Steady live t := ⟨h.words, h.still, fun _ => h.strs rfl⟩
theorem of_same {u : State} (h : s.Steady live t) (hregs : u.regs = t.regs) (hstill : u.still = t.still) (hstrm : u.strm = t.strm) :
    s.Steady live u where
  words a ha := by rw [← h.words a ha, State.reg, hregs, ← State.reg]
  still := hstill.trans h.still
  strs hlive i := by
    have hstr : u.str i = t.str i := congrArg (Sp.get (fun _ => Strm.reset) · i) hstrm
    rw [hstr]
    exact h.strs hlive i
/-- An update of other fields. -/
theorem same {u : State} (h : s.Steady live t)
    (e : u.regs = t.regs ∧ u.still = t.still ∧ u.strm = t.strm := by with_reducible exact ⟨rfl, rfl, rfl⟩) : s.Steady live u :=
  h.of_same e.1 e.2.1 e.2.2
theorem ite {p : Prop} [Decidable p] {u : State} (ht : s.Steady live t) (hu : s.Steady live u) : s.Steady live (if p then t else u) := by
  split
  · exact ht
  · exact hu
theorem foldl {α : Type} {f : State → α → State} {l : List α} (h : s.Steady live t)
    (hf : ∀ {u}, ∀ x ∈ l, s.Steady live u → s.Steady live (f u x)) : s.Steady live (l.foldl f t) :=
  List.foldlRecOn l f h fun _ hu x hx => hf x hx hu

/-! Registers, streams, contexts, memories -/

theorem setReg {a v : Nat} (h : s.Steady live t) (ha : a ∉ steadyWords) : s.Steady live (t.setReg a v) where
  words b hb := (State.reg_setReg_ne t v fun e => ha (by rwa [← e])).trans (h.words b hb)
  still := h.still
  strs := h.strs
theorem setFld {a hi lo v : Nat} (h : s.Steady live t) (ha : a ∉ steadyWords) : s.Steady live (t.setFld a hi lo v) := h.setReg ha
theorem setBit {a k : Nat} {b : Bool} (h : s.Steady live t) (ha : a ∉ steadyWords) : s.Steady live (t.setBit a k b) := h.setReg ha
theorem bump {a hi lo k : Nat} (h : s.Steady live t) (ha : a ∉ steadyWords) : s.Steady live (t.bump a hi lo k) := h.setReg ha
theorem setStr {i : Nat} {x : Strm} (h : s.Steady live t) (hx : live = true → (t.str i).Kept x) : s.Steady live (t.setStr i x) where
  words := h.words
  still := h.still
  strs hlive j := by
    by_cases hj : j = i
    · subst hj
      rw [State.str_setStr_same]
      exact (h.strs hlive j).trans (hx hlive)
    · rw [State.str_setStr_ne t x hj]
      exact h.strs hlive j
theorem setAnyStr {i : Nat} {x : Strm} (h : s.Steady false t) : s.Steady false (t.setStr i x) := h.setStr nofun
theorem setTag {lf k : Nat} {r : TagRec} (h : s.Steady live t) : s.Steady live (t.setTag lf k r) := h.of_same rfl rfl rfl
theorem setCtx {n c : Nat} {x : Ctx} (h : s.Steady live t) : s.Steady live (t.setCtx n c x) := h.of_same rfl rfl rfl
theorem setSr {n c r v : Nat} (h : s.Steady live t) : s.Steady live (t.setSr n c r v) := h.of_same rfl rfl rfl
theorem setAr {n c r v : Nat} (h : s.Steady live t) : s.Steady live (t.setAr n c r v) := h.of_same rfl rfl rfl
theorem setMover {q : Nat} {ms : List Move} (h : s.Steady live t) : s.Steady live (t.setMover q ms) := h.of_same rfl rfl rfl
theorem setLink {p : Nat} {x : LinkPort} (h : s.Steady live t) : s.Steady live (t.setLink p x) := h.of_same rfl rfl rfl
theorem put {m k : Nat} {bs : List Byte} (h : s.Steady live t) : s.Steady live (t.put m k bs) := by
  unfold State.put State.setMem
  split <;> exact h.of_same rfl rfl rfl
theorem hbmWrite {a : Nat} {bs : List Byte} (h : s.Steady live t) : s.Steady live (t.hbmWrite a bs) := .ite h.same h.same
theorem hbmErase {a n : Nat} (h : s.Steady live t) : s.Steady live (t.hbmErase a n) := .ite h.same h.same
theorem sliceIn {n k i : Nat} (h : s.Steady live t) : s.Steady live (t.sliceIn n k i) := h.foldl fun _ _ hu => hu.put
/-- A stream with a step to which something is noted. -/
theorem noteStep {i : Nat} {x : Step} {w : Bool} {y : Option Step} (h : s.Steady live t) (hx : (t.str i).step = some x) :
    s.Steady live (t.setStr i { t.str i with warm := w, step := y }) :=
  h.setStr fun _ => ⟨rfl, rfl, fun hnone => by simp [hx] at hnone, id, id⟩
theorem deliverStep {n c i : Nat} (h : s.Steady live t) : s.Steady live (t.deliverStep n c i) := by
  unfold State.deliverStep
  split
  · exact h
  next x hx =>
    split
    · exact h.noteStep hx
    · exact h.noteStep hx
    · extract_lets bs t1
      have h1 : s.Steady live t1 := h.of_same rfl rfl rfl
      split
      · exact h1.sliceIn
      · exact h1
theorem failStep {i : Nat} {u : Bool} (h : s.Steady live t) : s.Steady live (t.failStep i u) := by
  unfold State.failStep
  extract_lets x
  split
  next y hy => exact h.noteStep hy
  · exact h

/-! The fault log, messages, interrupts -/

theorem withLine {p : Nat} {u : State} (h : s.Steady live t) : s.Steady live (u.withLine p t) := .ite (h.of_same rfl rfl rfl) h
theorem faultN {code : Nat} (h : s.Steady live t) : s.Steady live (t.faultN code) :=
  .ite (h.setBit (a := FLT_STAT) (k := 31) (b := true) (not_steady_of_page (by decide))).same h
theorem log {code unit action info : Nat} (h : s.Steady live t) : s.Steady live (t.log code unit action info) := by
  have hword {a : Nat} (ha : a / 4096 = 8) : a ∉ steadyWords := not_steady_of_page (by rw [ha]; decide)
  refine .withLine ?_
  extract_lets i t1 k full t2 t3
  have h1 : s.Steady live t1 := (((h.setReg (fltEntry_not_steady (by decide))).setReg (fltEntry_not_steady (by decide))).setReg
    (fltEntry_not_steady (by decide))).setReg (fltEntry_not_steady (by decide))
  have h2 : s.Steady live t2 := (h1.setReg (hword (by decide))).bump (hword (by decide))
  have h3 : s.Steady live t3 :=
    .ite (((h2.setReg (hword (by decide))).setBit (hword (by decide))).bump (hword (by decide))) h2
  exact .ite (h.bump (fltEntry_not_steady (by decide))).faultN h3.faultN
theorem send {m : List Byte} (h : s.Steady live t) : s.Steady live (t.send m) := .ite h (h.of_same rfl rfl rfl)
theorem status {i code seq bid : Nat} (h : s.Steady live t) : s.Steady live (t.status i code seq bid) := h.send
theorem notice {i kind : Nat} (h : s.Steady live t) : s.Steady live (t.notice i kind) := h.send
theorem cntStrm {k j : Nat} (h : s.Steady live t) (hk : k < 8) : s.Steady live (t.cntStrm k j) :=
  h.bump (not_steady_of_page (by interval_cases k <;> decide))

/-! Entries -/

theorem entryRegs {n c : Nat} {e : Entry} (h : s.Steady live t) : s.Steady live (t.entryRegs n c e) := by
  have h0 : s.Steady live { t with sreg := Sp.erase t.sreg ((4 * n + c) * 32) 32, areg := Sp.erase t.areg ((4 * n + c) * 16) 16,
                                   lc := Sp.erase t.lc ((4 * n + c) * 4) 4 } := h.of_same rfl rfl rfl
  exact .ite h0.setSr.setSr.setSr.setSr.setSr.setSr.setSr.setSr.setAr.setAr h0
theorem startEntry {n c : Nat} (h : s.Steady live t) (hn : n < 50) (hc : c < 4) : s.Steady live (t.startEntry n c) := by
  unfold State.startEntry
  split
  · exact h
  · extract_lets door t0 t1
    have h0 : s.Steady live t0 := .ite h.deliverStep h
    have h1 : s.Steady live t1 := .ite (h0.setBit (seqCtx_not_steady hn hc)) h0
    exact h1.entryRegs.setCtx
theorem select {n : Nat} (h : s.Steady live t) (hn : n < 50) : s.Steady live (t.select n) := by
  unfold State.select
  split
  · exact h
  · split
    · exact h
    next c hfind =>
      have hc : c < 4 := by
        have hmem := List.mem_of_find?_eq_some hfind
        fin_cases hmem <;> decide
      exact .ite (h.startEntry hn hc) h.setCtx
theorem endEntry {n c : Nat} (h : s.Steady live t) (hn : n < 50) : s.Steady live (t.endEntry n c) :=
  (setCtx (t := { t with casts := Sp.set (fun _ => []) t.casts (4 * n + c) [] }) (h.of_same rfl rfl rfl)).select hn

/-! Links and moves -/

theorem emit {p seq : Nat} {flit : List Byte} (h : s.Steady live t) : s.Steady live (t.emit p seq flit) := by
  unfold State.emit
  extract_lets x
  split
  exact h.setLink.same
theorem pump {p fuel : Nat} (h : s.Steady live t) : s.Steady live (t.pump p fuel) := by
  induction fuel generalizing t with
  | zero => exact h
  | succ fuel ih =>
    unfold State.pump
    extract_lets x
    split
    · exact h
    · split
      · exact h
      · exact ih h.setLink.emit
theorem queueFlit {p : Nat} {f : List Byte} (h : s.Steady live t) : s.Steady live (t.queueFlit p f) := h.setLink.pump
theorem linkDevCnt {hi lo k : Nat} (h : s.Steady live t) : s.Steady live (t.bump LNK_DEV_CNT hi lo k) :=
  h.bump (not_steady_of_page (by decide))
theorem sendSeat {typ dst : Nat} {payload : List Byte} (h : s.Steady live t) : s.Steady live (t.sendSeat typ dst payload) := by
  unfold State.sendSeat
  extract_lets vc id fs t1
  have h1 : s.Steady live t1 := h.of_same rfl rfl rfl
  split
  · exact h1.foldl fun _ _ hu => hu.queueFlit
  · exact h1.linkDevCnt
theorem sendPort {typ p : Nat} {payload : List Byte} (h : s.Steady live t) : s.Steady live (t.sendPort typ p payload) := by
  unfold State.sendPort
  extract_lets vc id t1
  have h1 : s.Steady live t1 := h.of_same rfl rfl rfl
  exact h1.foldl fun _ _ hu => hu.queueFlit
theorem sendAll {typ : Nat} {l : List Nat} {bs : List Byte} (h : s.Steady live t) : s.Steady live (t.sendAll typ l bs) :=
  h.foldl fun _ _ hu => hu.sendSeat
theorem endCarries {tag : Nat} {done : Bool} (h : s.Steady live t) : s.Steady live (t.endCarries tag done) :=
  foldl (h.of_same rfl rfl rfl) fun _ _ hu => hu.sendSeat
theorem dropHeld {n tag : Nat} (h : s.Steady live t) : s.Steady live (t.dropHeld n tag) := h.endCarries.of_same rfl rfl rfl
theorem drive (h : s.Steady live t) : s.Steady live t.drive := h.foldl fun _ _ hu => .ite hu hu.setMover.same
theorem cancelIn {tag q : Nat} (h : s.Steady live t) (hq : q < 10) : s.Steady live (t.cancelIn tag q) := by
  unfold State.cancelIn
  extract_lets ms ms' t1
  have h1 : s.Steady live t1 := h.setMover
  exact .ite (.ite (h1.bump (moverCnt_not_steady hq)) h1) h
theorem cancelMoves {tag : Nat} (h : s.Steady live t) : s.Steady live (t.cancelMoves tag) := by
  unfold State.cancelMoves
  extract_lets t0 led t1 dead lost
  have h1 : s.Steady live t1 := h.drive.foldl fun q hq hu => hu.cancelIn (List.mem_range.mp hq)
  clear_value t1
  exact foldl h1.same fun _ _ hu => .ite hu hu.setTag

/-! Work that ends -/

theorem freeGranules {zone : Nat} {gs : List Nat} (h : s.Steady live t) : s.Steady live (t.freeGranules zone gs) := h.of_same rfl rfl rfl
theorem setContrib {n : Nat} {l : List Contrib} (h : s.Steady live t) : s.Steady live (t.setContrib n l) := h.of_same rfl rfl rfl
theorem dropPlane {i : Nat} {x : Step} (h : s.Steady live t) : s.Steady live (t.dropPlane i x) :=
  foldl (.ite h (h.of_same rfl rfl rfl)) fun _ _ hu => hu.setContrib
theorem dropResume {n c tag : Nat} (h : s.Steady live t) : s.Steady live (t.dropResume n c tag) := by
  unfold State.dropResume
  extract_lets x
  split
  · exact h
  · exact .ite h h.setCtx
theorem dropSoftmax {n tag : Nat} (h : s.Steady live t) : s.Steady live (t.dropSoftmax n tag) := .ite (h.of_same rfl rfl rfl) h
theorem cancelEngines {n tag : Nat} (h : s.Steady live t) : s.Steady live (t.cancelEngines n tag) := by
  unfold State.cancelEngines
  extract_lets js gs ps t1 t2 t3
  have h1 : s.Steady live t1 := h.of_same rfl rfl rfl
  have h2 : s.Steady live t2 := h1.foldl fun _ _ hu => hu.of_same rfl rfl rfl
  have h3 : s.Steady live t3 := by
    unfold t3
    split
    · exact .ite (h2.of_same rfl rfl rfl) h2
    · exact h2
  exact h3.dropSoftmax.foldl fun _ _ hu => hu.dropResume
theorem cancelWork {n tag : Nat} (h : s.Steady live t) : s.Steady live (t.cancelWork n tag) := h.cancelEngines.cancelMoves
/-- A tag that ends without OK. -/
theorem tagDone {n lf k status : Nat} (h : s.Steady live t) (hstatus : status ≠ 0) : s.Steady live (t.tagDone n lf k status) := by
  unfold State.tagDone
  rw [if_neg hstatus]
  exact h.setTag.setCtx.dropHeld
theorem failTag {n lf k : Nat} (h : s.Steady live t) : s.Steady live (t.failTag n lf k) := h.cancelWork.tagDone (by decide)
theorem failTags {n c : Nat} (h : s.Steady live t) : s.Steady live (t.failTags n c) := by
  unfold State.failTags
  split
  · exact h
  · exact h.foldl fun _ _ hu => .ite hu hu.failTag
theorem failWork {n c : Nat} {u : Bool} (h : s.Steady live t) : s.Steady live (t.failWork n c u) := by
  unfold State.failWork
  split
  · exact h
  · split
    · extract_lets x
      split
      next y hy => exact h.noteStep hy
      · exact h
    · exact h.failTags
theorem freeTags {n i : Nat} (h : s.Steady live t) : s.Steady live (t.freeTags n i) := by
  unfold State.freeTags
  split
  · exact h
  · refine h.foldl fun k _ hu => ?_
    exact .ite hu hu.cancelWork.setTag.dropHeld.setCtx
theorem abortEntry {n c i : Nat} (h : s.Steady live t) (hn : n < 50) : s.Steady live (t.abortEntry n c i) := by
  unfold State.abortEntry
  extract_lets x t1
  have h1 : s.Steady live t1 := .ite h.setCtx h
  split
  · exact .ite (.ite h1.setCtx (h1.endEntry hn)) h1
  · exact h1
theorem abortEntries {i : Nat} (h : s.Steady live t) : s.Steady live (t.abortEntries i) :=
  cancelMoves <| h.foldl fun _ hn hu => hu.freeTags.cancelEngines.dropHeld.foldl fun _ _ hv => hv.abortEntry (List.mem_range.mp hn)
theorem dropStep {i : Nat} (h : s.Steady live t) : s.Steady live (t.dropStep i) := by
  unfold State.dropStep
  split
  · exact h
  · refine (freeGranules (.ite h.abortEntries.dropPlane h)).setStr fun _ => ⟨rfl, rfl, fun _ => rfl, id, id⟩
theorem complete {i op code : Nat} (h : s.Steady live t) : s.Steady live (t.complete i op code) := by
  have h1 : s.Steady live (t.setStr i { t.str i with cmd := none }) := h.setStr fun _ => ⟨rfl, rfl, id, id, id⟩
  exact .withLine (.ite h1.same (same (h1.setBit (a := STRM_CMD_STAT) (k := 31) (b := true) (not_steady_of_page (by decide)))))
theorem completeCmd {i code : Nat} (h : s.Steady live t) : s.Steady live (t.completeCmd i code) := by
  unfold State.completeCmd
  split
  · exact h
  · exact h.complete
theorem quitStep {i code : Nat} (h : s.Steady live t) : s.Steady live (t.quitStep i code) :=
  dropStep (h.foldl fun _ _ hu => hu.status)
theorem discard {i code : Nat} {bs : List Burst} (h : s.Steady live t) : s.Steady live (t.discard i code bs) :=
  h.foldl fun _ _ hu => hu.freeGranules.status

theorem dropBursts {i : Nat} (h : s.Steady live t) : s.Steady live (t.dropBursts i) := by
  unfold State.dropBursts
  extract_lets x bs t1
  refine (h.discard.setStr fun _ => ?_).cntStrm (by decide)
  rw [str_discard]
  exact ⟨rfl, rfl, id, fun _ => rfl, fun _ => rfl⟩

/-! Fencing and withdrawal -/

theorem appendBacklog {i : Nat} {b : Burst} (h : s.Steady false t) : s.Steady false (t.appendBacklog i b) := by
  unfold State.appendBacklog
  extract_lets x t0 len
  have h0 : s.Steady false t0 := h.freeGranules
  exact .ite h0.hbmWrite.setAnyStr ((h0.setAnyStr.status.cntStrm (by decide)).cntStrm (by decide))
theorem stowHeld {i : Nat} (h : s.Steady false t) : s.Steady false (t.stowHeld i) := h.setAnyStr.foldl fun _ _ hu => hu.appendBacklog
theorem fence (h : s.Steady false t) : s.Steady false t.fence :=
  h.foldl fun _ _ hu => .ite (notice (completeCmd hu.quitStep.dropBursts.setAnyStr)) hu
theorem pauseAll (h : s.Steady false t) : s.Steady false t.pauseAll :=
  h.foldl fun _ _ hu => .ite hu.quitStep.setAnyStr.completeCmd.stowHeld hu
theorem withdraw (h : s.Steady false t) : s.Steady false t.withdraw :=
  .ite h (setBit (.ite h.log.fence h.log.pauseAll) (not_steady_of_page (by decide)))

/-! Streams that become free, steps that end without result, failed banks -/

theorem writeRecord {i : Nat} (h : s.Steady false t) : s.Steady false (t.writeRecord i) := h.hbmWrite.setAnyStr
theorem eraseWheel {i : Nat} (h : s.Steady live t) : s.Steady live (t.eraseWheel i) := h.hbmErase.hbmErase.hbmErase
theorem freeStream {i : Nat} (h : s.Steady false t) : s.Steady false (t.freeStream i) := by
  unfold State.freeStream
  extract_lets t0 t1 t2
  have h0 : s.Steady false t0 := .ite h.writeRecord h
  have h1 : s.Steady false t1 := .ite h0.eraseWheel h0
  have h2 : s.Steady false t2 := h1.completeCmd
  clear_value t2
  exact h2.setAnyStr
theorem skipInput {i : Nat} (h : s.Steady false t) : s.Steady false (t.skipInput i) :=
  .ite h.setAnyStr.completeCmd h.setAnyStr.setAnyStr
theorem stepOver {i : Nat} {failed : Bool} (h : s.Steady false t) : s.Steady false (t.stepOver i failed) := by
  unfold State.stepOver
  extract_lets x
  split
  · exact h.setAnyStr.completeCmd.stowHeld
  · exact h.freeStream
  · exact .ite h.setAnyStr.stowHeld h
  · exact .ite h.setAnyStr.completeCmd h.skipInput
  · exact h
theorem endStep {i code : Nat} (h : s.Steady false t) : s.Steady false (t.endStep i code) := by
  unfold State.endStep State.closeStep
  split
  · exact h
  · extract_lets t1 bad t2 t3
    have h1 : s.Steady false t1 := h.status
    have h2 : s.Steady false t2 := .ite h1.log h1
    have h3 : s.Steady false t3 := .ite (h2.cntStrm (by decide)) (.ite (h2.cntStrm (by decide)) h2)
    exact h3.dropStep.stepOver
theorem burstBad {i : Nat} (h : s.Steady false t) : s.Steady false (t.burstBad i) := by
  unfold State.burstBad
  split
  · exact h.endStep
  · exact h
theorem coldRerun {i : Nat} (h : s.Steady false t) : s.Steady false (t.coldRerun i) := by
  unfold State.coldRerun
  split
  · exact h.setAnyStr
  · exact h
theorem coolBuf {k : Nat} (h : s.Steady false t) : s.Steady false (t.coolBuf k) := h.foldl fun _ _ hu => .ite hu.setAnyStr hu
/-- A word of the page of the vat or of the failed banks. -/
theorem bankWord_not_steady {b : Nat} (hb : b < 80) {a : Nat} (ha : a ∈ [VAT_FAIL (b / 32), VAT_STAT (b / 32), VAT_PWR (b / 32)]) :
    a ∉ steadyWords := by
  refine not_steady_of_page ?_
  simp only [VAT_FAIL, VAT_STAT, VAT_PWR, pg, List.mem_cons, List.not_mem_nil, or_false] at ha ⊢
  omega
theorem failBank {b : Nat} (h : s.Steady false t) (hb : b < 80) : s.Steady false (t.failBank b) := by
  unfold State.failBank
  extract_lets t1 covered
  have h1 : s.Steady false t1 := log (((h.setBit (bankWord_not_steady hb (by simp))).setBit (bankWord_not_steady hb (by simp))).setBit
    (bankWord_not_steady hb (by simp)))
  exact .ite h1.withdraw h1

end State.Steady

end Sys2Proof.Machine
end

-- ==== Fields of register words ====
section
/-! SUPPORT. What a field of a register word reads after a write of the same field, of another field of the word, or of another word, and the
words that an entry in the fault log leaves. -/

namespace Sys2Proof.Machine

theorem reg_of_regs {s t : State} {a : Nat} (h : t.regs = s.regs) : t.reg a = s.reg a := by rw [State.reg, h, ← State.reg]
theorem reg_lt (s : State) (a : Nat) : s.reg a < 2 ^ 32 := (Sp.get regReset s.regs a).isLt
theorem testBit_bits (x k : Nat) {hi lo : Nat} (h : lo ≤ hi) : (bits x hi lo).testBit k = (decide (k ≤ hi - lo) && x.testBit (k + lo)) := by
  rw [bits, Nat.testBit_mod_two_pow, Nat.testBit_div_two_pow]
  congr 1
  exact decide_eq_decide.mpr (by omega)
/-- A field reads as before after a write of a field beside it. -/
theorem bits_putBits_apart (x v : Nat) {hi lo hi' lo' : Nat} (h : lo ≤ hi) (h' : lo' ≤ hi') (hapart : hi' < lo ∨ hi < lo') :
    bits (putBits x hi lo v) hi' lo' = bits x hi' lo' := by
  refine Nat.eq_of_testBit_eq fun k => ?_
  rw [testBit_bits _ _ h', testBit_bits _ _ h', testBit_putBits _ _ _ h]
  by_cases hk : k ≤ hi' - lo'
  · rw [if_neg (by omega)]
  · simp [hk]

namespace State
variable (s : State) (a : Nat)

theorem fld_setFld_apart {hi lo hi' lo' : Nat} (v : Nat) (h : lo ≤ hi) (h' : lo' ≤ hi') (hhi' : hi' < 32) (hapart : hi' < lo ∨ hi < lo') :
    (s.setFld a hi lo v).fld a hi' lo' = s.fld a hi' lo' := by
  rw [State.fld, State.setFld, State.reg_setReg_same, bits_mod_two_pow h' hhi', bits_putBits_apart _ _ h h' hapart, ← State.fld]
theorem fld_setFld_ne {a b : Nat} {hi lo hi' lo' : Nat} (v : Nat) (h : b ≠ a) : (s.setFld a hi lo v).fld b hi' lo' = s.fld b hi' lo' := by
  rw [State.fld, State.reg_setFld_ne s _ _ _ h, ← State.fld]
theorem fld_setReg_ne {a b : Nat} {hi lo : Nat} (v : Nat) (h : b ≠ a) : (s.setReg a v).fld b hi lo = s.fld b hi lo := by
  rw [State.fld, State.reg_setReg_ne s _ h, ← State.fld]
/-- A counter counts up to its largest value. -/
theorem fld_bump_same {hi lo : Nat} (k : Nat) (h : lo ≤ hi) (hhi : hi < 32) :
    (s.bump a hi lo k).fld a hi lo = min (s.fld a hi lo + k) (2 ^ (hi - lo + 1) - 1) := by
  rw [State.bump, State.fld_setFld_same _ _ _ h hhi, Nat.mod_eq_of_lt]
  have hpos : 0 < 2 ^ (hi - lo + 1) := Nat.two_pow_pos _
  omega
theorem fld_bump_apart {hi lo hi' lo' : Nat} (k : Nat) (h : lo ≤ hi) (h' : lo' ≤ hi') (hhi' : hi' < 32) (hapart : hi' < lo ∨ hi < lo') :
    (s.bump a hi lo k).fld a hi' lo' = s.fld a hi' lo' := fld_setFld_apart s a _ h h' hhi' hapart
theorem reg_bump_ne {a b : Nat} {hi lo : Nat} (k : Nat) (h : b ≠ a) : (s.bump a hi lo k).reg b = s.reg b := State.reg_setFld_ne s _ _ _ h
theorem reg_setBit_ne {a b : Nat} {k : Nat} (v : Bool) (h : b ≠ a) : (s.setBit a k v).reg b = s.reg b := State.reg_setFld_ne s _ _ _ h
theorem rbit_setBit_same {k : Nat} (v : Bool) (hk : k < 32) : (s.setBit a k v).rbit a k = v := by
  rw [State.setBit, State.rbit_setFld _ _ _ _ le_rfl hk, if_pos ⟨le_rfl, le_rfl⟩, Nat.sub_self]
  cases v <;> rfl
theorem rbit_setBit_apart {k j : Nat} (v : Bool) (hk : k < 32) (hj : j ≠ k) : (s.setBit a k v).rbit a j = s.rbit a j := by
  rw [State.setBit, State.rbit_setFld _ _ _ _ le_rfl hk, if_neg (by omega)]
theorem rbit_setBit_ne {a b : Nat} {k j : Nat} (v : Bool) (h : b ≠ a) : (s.setBit a k v).rbit b j = s.rbit b j := by
  rw [State.rbit, reg_setBit_ne s v h, ← State.rbit]
theorem rbit_setFld_apart {hi lo k : Nat} (v : Nat) (h : lo ≤ hi) (hhi : hi < 32) (hk : k < lo ∨ hi < k) :
    (s.setFld a hi lo v).rbit a k = s.rbit a k := by
  rw [State.rbit_setFld _ _ _ _ h hhi, if_neg (by omega)]
theorem rbit_setFld_ne {a b : Nat} {hi lo k : Nat} (v : Nat) (h : b ≠ a) : (s.setFld a hi lo v).rbit b k = s.rbit b k := by
  rw [State.rbit, State.reg_setFld_ne s _ _ _ h, ← State.rbit]
theorem fld_setBit_apart {k hi lo : Nat} (v : Bool) (h : lo ≤ hi) (hhi : hi < 32) (hk : hi < k ∨ k < lo) :
    (s.setBit a k v).fld a hi lo = s.fld a hi lo := fld_setFld_apart s a _ le_rfl h hhi hk
theorem fld_setBit_ne {a b : Nat} {hi lo k : Nat} (v : Bool) (h : b ≠ a) : (s.setBit a k v).fld b hi lo = s.fld b hi lo :=
  fld_setFld_ne s _ h
theorem reg_withLine (p : Nat) (t : State) : (s.withLine p t).reg a = t.reg a := by
  unfold State.withLine
  split <;> rfl

/-- A word that no entry of the fault log and none of its pointers and counters is. -/
def Unlogged (a : Nat) : Prop := a % 4096 < 0x800 ∧ a / 4096 ≠ 8
theorem Unlogged.ne_entry {a : Nat} (h : Unlogged a) (i : Nat) {w : Nat} (hw : w < 4) : a ≠ FLT_ENTRY i w := by
  have hlow := h.1
  simp only [FLT_ENTRY, pg]
  omega
theorem Unlogged.ne_word {a b : Nat} (h : Unlogged a) (hb : b / 4096 = 8) : a ≠ b := fun e => h.2 (e ▸ hb)
theorem reg_faultN {a : Nat} (h : Unlogged a) (code : Nat) : (s.faultN code).reg a = s.reg a := by
  unfold State.faultN
  split
  · exact (reg_of_regs (s := s.setBit FLT_STAT 31 true) (by with_reducible rfl)).trans (reg_setBit_ne s true (h.ne_word (by decide)))
  · rfl
/-- An entry in the fault log leaves every other word. -/
theorem reg_log {a : Nat} (h : Unlogged a) (code unit action info : Nat) : (s.log code unit action info).reg a = s.reg a := by
  unfold State.log
  rw [reg_withLine]
  extract_lets i s1 k full s2 s3
  have hentry : ∀ j w, w < 4 → a ≠ FLT_ENTRY j w := fun j w hw => h.ne_entry j hw
  have h1 : s1.reg a = s.reg a := by
    simp only [s1, State.reg_setReg_ne _ _ (hentry _ _ (by decide : 0 < 4)), State.reg_setReg_ne _ _ (hentry _ _ (by decide : 1 < 4)),
      State.reg_setReg_ne _ _ (hentry _ _ (by decide : 2 < 4)), State.reg_setReg_ne _ _ (hentry _ _ (by decide : 3 < 4))]
  have h2 : s2.reg a = s.reg a := by
    rw [← h1]
    exact (reg_bump_ne _ 1 (h.ne_word (by decide))).trans (State.reg_setReg_ne _ _ (h.ne_word (by decide)))
  have h3 : s3.reg a = s.reg a := by
    rw [← h2]
    unfold s3
    split
    · exact (reg_bump_ne _ 1 (h.ne_word (by decide))).trans ((reg_setBit_ne _ true (h.ne_word (by decide))).trans
        (State.reg_setReg_ne _ _ (h.ne_word (by decide))))
    · rfl
  split
  · rw [reg_faultN _ h, reg_bump_ne _ _ (hentry _ _ (by decide))]
  · rw [reg_faultN _ h, h3]
theorem fld_log {a hi lo : Nat} (h : Unlogged a) (code unit action info : Nat) : (s.log code unit action info).fld a hi lo = s.fld a hi lo := by
  rw [State.fld, reg_log s h, ← State.fld]
theorem rbit_log {a k : Nat} (h : Unlogged a) (code unit action info : Nat) : (s.log code unit action info).rbit a k = s.rbit a k := by
  rw [State.rbit, reg_log s h, ← State.rbit]

end State

end Sys2Proof.Machine
end

-- ==== Traps, waits and failed checks: O45 ====
section
/-! SUPPORT. What a trap in debug mode records, and what the failure of a check leaves of the vector registers (R25, R355, R356, R422, R424). -/

namespace Sys2Proof.Machine

open Sys2Proof.Claims

/-! ## The lowest trap -/

/-- A list of traps with codes above 0. -/
def TrapCodes (ts : List (Bool × Nat)) : Prop := ∀ t ∈ ts, 0 < t.2
theorem TrapCodes.of_all {ts : List (Bool × Nat)} (h : ts.all (fun t => decide (0 < t.2)) = true) : TrapCodes ts :=
  fun t ht => decide_eq_true_eq.mp (List.all_eq_true.mp h t ht)
theorem TrapCodes.append {xs ys : List (Bool × Nat)} (hxs : TrapCodes xs) (hys : TrapCodes ys) : TrapCodes (xs ++ ys) :=
  fun t ht => (List.mem_append.mp ht).elim (hxs t) (hys t)
theorem TrapCodes.ite {p : Prop} [Decidable p] {xs ys : List (Bool × Nat)} (hxs : TrapCodes xs) (hys : TrapCodes ys) :
    TrapCodes (if p then xs else ys) := by
  split
  · exact hxs
  · exact hys
theorem TrapCodes.nil : TrapCodes [] := nofun
/-- An opcode that is reserved is the lowest trap. -/
theorem lowestTrap_reserved {xs ys : List (Bool × Nat)} (hmem : (true, OPC_RESERVED) ∈ xs) (hxs : TrapCodes xs) (hys : TrapCodes ys) :
    lowestTrap (xs ++ ys) = some OPC_RESERVED :=
  lowestTrap_least (List.mem_append_left _ hmem) fun t ht _ => (List.mem_append.mp ht).elim (hxs t) (hys t)
theorem reserved_mem_engTraps {s : State} (h : s.level < 2) (n c : Nat) (e : Eng) (xs : List (Bool × Nat)) :
    (true, OPC_RESERVED) ∈ engTraps 2 n c e s ++ xs := by
  simp [engTraps, h]

section
variable {a : Issue} {s : State} {e : Eng}

/-- An engine instruction of level 2 traps while level 1 is accepted. -/
theorem engine_reserved {op : Nat → Nat → Eng → State → SlotOp} {r : Option Nat} (hmay : mayIssue a s)
    (hmem : (true, OPC_RESERVED) ∈ (op a.folio.val a.ctx.val e s).traps) (hcodes : TrapCodes (op a.folio.val a.ctx.val e s).traps) :
    engine op r a e s = .next (s.takeTrap a.folio.val a.ctx.val OPC_RESERVED) :=
  issue_traps (op := fun s => (op a.folio.val a.ctx.val e s).both (scalarSlot true a.folio.val a.ctx.val e.sc s)) r e.stoch hmay
    (lowestTrap_reserved hmem hcodes (.of_all (scalarSlot_codes _ _ _ _ _)))
/-- A sewing instruction traps while level 1 is accepted. -/
theorem sewing_reserved {opc : Nat} {op : Nat → Nat → Eng → State → Long} (hmay : mayIssue a s)
    (hmem : (true, OPC_RESERVED) ∈ (op a.folio.val a.ctx.val e s).traps) (hcodes : TrapCodes (op a.folio.val a.ctx.val e s).traps) :
    sewing opc op a e s = .next (s.takeTrap a.folio.val a.ctx.val OPC_RESERVED) := by
  obtain ⟨-, -, hinside, -⟩ := id hmay
  unfold sewing longEngine
  simp only [hinside, Option.isSome_none, Bool.false_eq_true, false_and, if_false]
  exact issue_traps _ e.stoch hmay (lowestTrap_reserved hmem hcodes (.of_all (scalarSlot_codes _ _ _ _ _)))

end

section
variable (n c : Nat) (e : Eng) (s : State)

theorem fmSpan_codes (lo len : Nat) : TrapCodes (s.fmSpan n c lo len) := .ite .nil (.of_all rfl)
theorem planeTraps_codes (p len : Nat) : TrapCodes (s.planeTraps n c p len) := .append (.of_all rfl) (fmSpan_codes n c s _ _)
theorem carryTraps_codes (p len : Nat) : TrapCodes (s.carryTraps n c p len) :=
  .append (xs := [(badAddr p, ADDR_FORM)]) (.of_all rfl) (fmSpan_codes n c s _ _)
theorem scanTraps_codes (summ : Bool) : TrapCodes (scanTraps n c e s summ) := by
  have hplane := planeTraps_codes n c s
  have hcarry := carryTraps_codes n c s
  exact ((((TrapCodes.of_all rfl).append (.ite ((((hplane _ _).append (hplane _ _)).append (hplane _ _)).append (hplane _ _) |>.append
    (.ite (((hplane _ _).append (hplane _ _)).append (hplane _ _)) .nil)) ((hplane _ _).append (hplane _ _)))).append
    (.ite (hplane _ _) .nil)).append (.ite (hcarry _ _) .nil)).append (.ite (hcarry _ _) .nil)
theorem header_codes (lvl : Nat) (u : AcUse) : TrapCodes (engTraps lvl n c e s ++ acTraps u e) := .of_all (by
  simp [engTraps, acTraps, State.tagTraps, OPC_RESERVED, FLD_RESERVED, XF_STREAM, SEQ_TAG, FMT_STRICT, FMT_ROUND])

theorem opFnload_codes : TrapCodes (opFnload n c e s).traps :=
  (header_codes n c e s 2 {}).append ((TrapCodes.of_all rfl).append (fmSpan_codes n c s _ _))
theorem opSxclr_codes : TrapCodes (opSxclr n c e s).traps := .of_all rfl
theorem opSxacc_codes : TrapCodes (opSxacc n c e s).traps := .of_all rfl
theorem opSxred_codes : TrapCodes (opSxred n c e s).traps := .of_all rfl
theorem opSxdiv_codes : TrapCodes (opSxdiv n c e s).traps := .of_all rfl
theorem opSscan_codes : TrapCodes (opSscan n c e s).traps := (header_codes n c e s 2 scanUse).append (scanTraps_codes n c e s false)
theorem opSsumm_codes : TrapCodes (opSsumm n c e s).traps := (header_codes n c e s 2 scanUse).append (scanTraps_codes n c e s true)
theorem opSconv_codes : TrapCodes (opSconv n c e s).traps := by
  have hplane := planeTraps_codes n c s
  exact (((((((header_codes n c e s 2 scanUse).append (.of_all rfl)).append (hplane _ _)).append (hplane _ _)).append (hplane _ _)).append
    (hplane _ _)).append (.ite (hplane _ _) .nil)).append (.ite (hplane _ _) .nil)

end

/-! ## What the failure of a check leaves of the vector registers -/

theorem State.Steady.vreg {live : Bool} {s t : State} (h : s.Steady live t) : t.vreg = s.vreg := congrArg Prod.fst h.still

section
variable (s : State)

theorem setBit_vreg (a b : Nat) (v : Bool) : (s.setBit a b v).vreg = s.vreg := State.setReg_vreg s _ _
theorem setFld_vreg (a hi lo v : Nat) : (s.setFld a hi lo v).vreg = s.vreg := State.setReg_vreg s _ _
theorem bump_vreg (a hi lo k : Nat) : (s.bump a hi lo k).vreg = s.vreg := State.setReg_vreg s _ _
theorem log_vreg (code unit action info : Nat) : (s.log code unit action info).vreg = s.vreg := (State.Steady.refl true s).log.vreg
theorem withdraw_vreg : s.withdraw.vreg = s.vreg := (State.Steady.refl false s).withdraw.vreg
theorem isolate_vreg (n : Nat) : (s.isolate n).vreg = s.vreg := by
  have hstop (t : State) (c : Nat) : (t.stopCtx n c).vreg = t.vreg :=
    (((State.Steady.refl true t).foldl fun _ _ hu => .ite hu.failStep hu).failWork.failTags.setCtx).vreg
  rw [isolate_eq, hstop, hstop, hstop, hstop]
theorem dropPwr_vreg (n : Nat) : (s.dropPwr n).vreg = s.vreg := by
  have hrefuse (t : State) (d tgt who : Nat) (b : Bool) : (t.refuseEntry d tgt who b).vreg = t.vreg := by
    unfold State.refuseEntry
    cases b
    · exact (State.setReg_vreg _ _ _).trans (bump_vreg t _ _ _ _)
    · exact (State.setReg_vreg _ _ _).trans (bump_vreg t _ _ _ _)
  unfold State.dropPwr
  split
  · rfl
  · extract_lets t
    have ht : t.vreg = s.vreg := by with_reducible rfl
    clear_value t
    split
    · exact (hrefuse _ _ _ _ _).trans ht
    · exact ht
theorem takeAsleep_vreg (n sp k : Nat) : (s.takeAsleep n sp k).vreg = s.vreg := by
  have hkept {α : Type} (f : State → α → State) (hf : ∀ t x, (f t x).vreg = t.vreg) (l : List α) (t : State) : (l.foldl f t).vreg = t.vreg :=
    List.foldlRecOn (motive := fun u : State => u.vreg = t.vreg) l f rfl fun u hu x _ => (hf u x).trans hu
  unfold State.takeAsleep State.takeSettings
  exact (setFld_vreg _ _ _ _ _).trans ((hkept _ (fun t _ => (State.setCtx_vreg _ _ _ _).trans (setBit_vreg t _ _ _)) _ _).trans
    ((State.setReg_vreg _ _ _).trans (hkept _ (fun t _ => State.setReg_vreg t _ _) _ s)))
theorem retire_vreg (n : Nat) : (s.retire n).vreg = s.vreg := by
  unfold State.retire
  split
  · rfl
  · extract_lets s0 s1 sub s2
    have h0 : s0.vreg = s.vreg := (setBit_vreg _ _ _ _).trans ((dropPwr_vreg (s.isolate n) n).trans (isolate_vreg s n))
    have h1 : s1.vreg = s.vreg := (setFld_vreg _ _ _ _ _).trans h0
    have h2 : s2.vreg = s1.vreg := log_vreg _ _ _ _ _
    replace h2 := h2.trans h1
    clear_value s0 s1 s2 sub
    split
    · rcases sub with _ | ⟨r, _ | x⟩
      · exact h2
      · exact h2
      · dsimp only
        split
        · exact h2
        · exact (withdraw_vreg _).trans ((log_vreg _ _ _ _ _).trans h2)
    · split
      · extract_lets s3
        have h3 : s3.vreg = s.vreg := (log_vreg _ _ _ _ _).trans h1
        split
        · exact (takeAsleep_vreg _ _ _ _).trans h3
        · exact h3
      · exact (withdraw_vreg _).trans ((log_vreg _ _ _ _ _).trans ((log_vreg _ _ _ _ _).trans h1))
theorem countEvent_vreg (n code info need : Nat) (same : Bool) : (s.countEvent n code info need same).vreg = s.vreg := by
  unfold State.countEvent
  extract_lets e s1 hits all
  split
  · rfl
  · split
    · exact retire_vreg s1 n
    · rfl
theorem failWork_vreg (n c : Nat) (u : Bool) : (s.failWork n c u).vreg = s.vreg := (State.Steady.refl true s).failWork.vreg
theorem engineFault_vreg (n c code : Nat) (counts : Bool) : (s.engineFault n c code counts).vreg = s.vreg := by
  unfold State.engineFault
  extract_lets tag trig s1
  have h1 : s1.vreg = s.vreg := (log_vreg _ _ _ _ _).trans (failWork_vreg s n c trig)
  split
  · exact (countEvent_vreg _ _ _ _ _ _).trans h1
  · exact h1
theorem perr_vreg (n src a : Nat) (scrub : Bool) : (s.perr n src a scrub).vreg = s.vreg := by
  have hite {p : Prop} [Decidable p] {t u v : State} (ht : t.vreg = v.vreg) (hu : u.vreg = v.vreg) : (if p then t else u).vreg = v.vreg := by
    split
    · exact ht
    · exact hu
  unfold State.perr
  split
  · extract_lets s1
    have h1 : s1.vreg = s.vreg := hite rfl (State.setReg_vreg s _ _)
    clear_value s1
    exact hite ((bump_vreg s1 _ _ _ _).trans h1) ((bump_vreg s1 _ _ _ _).trans h1)
  · extract_lets s1 s2
    have h1 : s1.vreg = s.vreg := hite rfl (State.setReg_vreg s _ _)
    have h2 : s2.vreg = s.vreg := hite ((setBit_vreg s1 _ _ _).trans h1) h1
    clear_value s1 s2
    exact hite ((bump_vreg s2 _ _ _ _).trans h2) ((bump_vreg s2 _ _ _ _).trans h2)
theorem countBank_vreg (a : Nat) : (s.countBank a).vreg = s.vreg := by
  have hfail (t : State) (b : Nat) : (t.failBank b).vreg = t.vreg := by
    unfold State.failBank
    extract_lets t1 covered
    have h1 : t1.vreg = t.vreg := log_vreg _ _ _ _ _
    split
    · exact (withdraw_vreg t1).trans h1
    · exact h1
  unfold State.countBank
  extract_lets b s1 all
  split
  · rfl
  · split
    · exact hfail s1 b
    · rfl
/-- A parity error that a read finds leaves what the failure of its work leaves. -/
theorem parityAt_vreg (n src a : Nat) (i : Option Nat) {fail : Bool → State → State} (hfail : ∀ u t, (fail u t).vreg = t.vreg) :
    (s.parityAt n src a i fail).vreg = s.vreg := by
  have hburst (t : State) (k : Nat) : (t.burstBad k).vreg = t.vreg := (State.Steady.refl false t).burstBad.vreg
  have hcold (t : State) (k : Nat) : (t.coldRerun k).vreg = t.vreg := (State.Steady.refl false t).coldRerun.vreg
  have hcool (t : State) (k : Nat) : (t.coolBuf k).vreg = t.vreg := (State.Steady.refl false t).coolBuf.vreg
  unfold State.parityAt
  extract_lets s1 gold info failed s2 s3 trig
  clear_value gold trig
  have h1 : s1.vreg = s.vreg := perr_vreg (s.markBad n src a) n src a false
  have hfailed (u : Bool) (t : State) : (failed u t).vreg = t.vreg := by
    unfold failed
    split
    · exact (hcold _ _).trans (hfail u t)
    · exact hfail u t
  clear_value s1 failed
  by_cases hsrc : src = 6
  · rw [if_pos hsrc]
    have h2 : s2.vreg = s.vreg := (log_vreg _ _ _ _ _).trans h1
    clear_value s2
    refine (countBank_vreg s3 _).trans ?_
    unfold s3
    split
    · exact (hburst _ _).trans h2
    · split
      · exact (hcool _ _).trans ((hfailed _ _).trans h2)
      · exact (hfailed _ _).trans h2
    · exact (hfailed _ _).trans h2
  · rw [if_neg hsrc]
    exact (countEvent_vreg _ _ _ _ _ _).trans ((log_vreg _ _ _ _ _).trans ((hfailed _ _).trans h1))
theorem parityRead_vreg (n c src a : Nat) : (s.parityRead n c src a).vreg = s.vreg :=
  parityAt_vreg s n src a _ fun u t => failWork_vreg t n c u
theorem timely_vreg (n c : Nat) (run : State → State) : (s.timely n c run).vreg = (run s).vreg := by
  unfold State.timely
  split
  · exact engineFault_vreg _ _ _ _ _
  · rfl

end

/-! ## A trap in debug mode (R422) -/

/-- What a trap records: the lines of the interrupt, the first trap's word and the count. -/
def State.trapWords (s : State) (n c code : Nat) : State :=
  (if s.rbit (SEQ_TRAP n) 31 then s
    else s.setReg (SEQ_TRAP n) (2 ^ 31 + c * 2 ^ 29 + code * 2 ^ 21 + (s.ctx n c).pc.toNat)).bump (SEQ_CNT n) 15 0 1

section
variable (s : State) (n c code : Nat)

theorem reg_recordTrap (k : Nat) : (s.recordTrap n c code).reg k = (s.trapWords n c code).reg k := State.reg_withLine _ _ _ _
theorem recordTrap_only :
    s.recordTrap n c code = { s with regs := (s.recordTrap n c code).regs, sideband := (s.recordTrap n c code).sideband } := by
  have hset (u : State) (a v : Nat) : ∃ regs, u.setReg a v = { u with regs := regs } := ⟨_, rfl⟩
  have htrap (a v : Nat) : ∃ regs, (if s.rbit (SEQ_TRAP n) 31 then s else s.setReg a v) = { s with regs := regs } := by
    split
    · exact ⟨s.regs, rfl⟩
    · exact hset s a v
  obtain ⟨regs, hregs⟩ : ∃ regs, s.trapWords n c code = { s with regs := regs } := by
    obtain ⟨r, hr⟩ := htrap (SEQ_TRAP n) (2 ^ 31 + c * 2 ^ 29 + code * 2 ^ 21 + (s.ctx n c).pc.toNat)
    rw [State.trapWords, hr]
    exact hset _ _ _
  obtain ⟨msgs, hmsgs⟩ := withLine_eq_withMsgs s (0x041 + 4 * n) (s.trapWords n c code)
  have hline : s.recordTrap n c code = { s with regs := regs, sideband := msgs } := hmsgs.trans (by rw [hregs]; rfl)
  rw [hline]
theorem reg_recordTrap_trap (hc : c < 4) (hcode : code < 256) : (s.recordTrap n c code).reg (SEQ_TRAP n) =
    if s.rbit (SEQ_TRAP n) 31 then s.reg (SEQ_TRAP n) else 2 ^ 31 + c * 2 ^ 29 + code * 2 ^ 21 + (s.ctx n c).pc.toNat := by
  have hne : SEQ_TRAP n ≠ SEQ_CNT n := by simp only [SEQ_TRAP, SEQ_CNT, pg]; omega
  have hpc := (s.ctx n c).pc.isLt
  rw [reg_recordTrap, State.trapWords, State.reg_bump_ne _ 1 hne]
  split
  · rfl
  · rw [State.reg_setReg_same, Nat.mod_eq_of_lt (by omega)]
/-- The count's word before it counts. -/
theorem fld_trap_count (hi lo : Nat) : (if s.rbit (SEQ_TRAP n) 31 then s
    else s.setReg (SEQ_TRAP n) (2 ^ 31 + c * 2 ^ 29 + code * 2 ^ 21 + (s.ctx n c).pc.toNat)).fld (SEQ_CNT n) hi lo = s.fld (SEQ_CNT n) hi lo := by
  have hne : SEQ_CNT n ≠ SEQ_TRAP n := by simp only [SEQ_TRAP, SEQ_CNT, pg]; omega
  split
  · rfl
  · exact State.fld_setReg_ne s _ hne
theorem fld_recordTrap (hi lo : Nat) : (s.recordTrap n c code).fld (SEQ_CNT n) hi lo = (s.trapWords n c code).fld (SEQ_CNT n) hi lo :=
  congrArg (fun v => bits v hi lo) (reg_recordTrap s n c code _)
theorem fld_recordTrap_count : (s.recordTrap n c code).fld (SEQ_CNT n) 15 0 = min (s.fld (SEQ_CNT n) 15 0 + 1) 0xFFFF := by
  rw [fld_recordTrap, State.trapWords, State.fld_bump_same _ _ _ (by decide) (by decide), fld_trap_count]
  rfl
theorem fld_recordTrap_lockstep : (s.recordTrap n c code).fld (SEQ_CNT n) 31 16 = s.fld (SEQ_CNT n) 31 16 := by
  rw [fld_recordTrap, State.trapWords, State.fld_bump_apart _ _ _ (by decide) (by decide) (by decide) (by decide), fld_trap_count]
theorem reg_recordTrap_ne {k : Nat} (htrap : k ≠ SEQ_TRAP n) (hcnt : k ≠ SEQ_CNT n) : (s.recordTrap n c code).reg k = s.reg k := by
  rw [reg_recordTrap, State.trapWords, State.reg_bump_ne _ 1 hcnt]
  split
  · rfl
  · exact State.reg_setReg_ne s _ htrap

end

/-- In debug mode a trap records itself and halts the context, and the folio chooses no other. -/
theorem takeTrap_of_debug {s : State} {n c code : Nat} (hmode : s.mode n = 4)
    (halone : ∀ k : Fin 4, k.val ≠ c → (s.ctx n k.val).st ≠ .ready ∧ (s.ctx n k.val).st ≠ .suspended) :
    s.takeTrap n c code = (s.recordTrap n c code).setCtx n c { s.ctx n c with st := .halted, wait := none } := by
  have hctx (m k : Nat) : (s.recordTrap n c code).ctx m k = s.ctx m k := by rw [recordTrap_only]; rfl
  simp only [State.takeTrap, hmode, hctx, if_true, if_neg (by decide : ¬(4 = 0))]
  refine select_of_none_waits fun k => ?_
  by_cases hk : k.val = c
  · simp [hk, State.ctx_setCtx_same]
  · rw [State.ctx_setCtx_ne _ _ (by omega), hctx]
    exact halone k hk

/-- A long instruction that must wait leaves everything but the wait. -/
theorem longEngine_waits {a : Issue} {e : Eng} {s : State} {opc : Nat} {op : Nat → Nat → Eng → State → Long} {r : Option Nat} {w : WaitK}
    (hmay : mayIssue a s) (htrap : lowestTrap (op a.folio.val a.ctx.val e s).traps = none) (hwait : (op a.folio.val a.ctx.val e s).wait = some w)
    (hsc : lowestTrap (scalarSlot true a.folio.val a.ctx.val e.sc s).traps = none) :
    longEngine opc op r a e s = .next (s.setCtx a.folio.val a.ctx.val { s.ctx a.folio.val a.ctx.val with wait := some w }) := by
  obtain ⟨-, -, hinside, -⟩ := id hmay
  unfold longEngine
  dsimp only
  split
  · next x hx => exact absurd (hinside.symm.trans hx) nofun
  · refine issue_waits _ _ hmay ?_ ?_
    · exact (lowestTrap_append_none _ _).mpr ⟨htrap, hsc⟩
    · simp only [hwait]

/-! ## A vector instruction whose check fails -/

section
variable {a : Issue} {e : Eng} {s t u : State}

/-- What a VADD with its scalar slot does once it has issued. -/
def vaddRun (a : Issue) (e : Eng) (t : State) : State :=
  (((opVadd a.folio.val a.ctx.val e t).both (scalarSlot true a.folio.val a.ctx.val e.sc t)).run (t.advance a.folio.val a.ctx.val))

theorem vadd_checked (hmay : mayIssue a s) (hop : (opVadd a.folio.val a.ctx.val e s).clear)
    (hsc : (scalarSlot true a.folio.val a.ctx.val e.sc s).clear) :
    exec (.vadd a e) s = checked a (some VEC_RESIDUE) e.stoch (fun t => t.advance a.folio.val a.ctx.val) (vaddRun a e) s :=
  issue_checked (op := fun s => (opVadd a.folio.val a.ctx.val e s).both (scalarSlot true a.folio.val a.ctx.val e.sc s)) _ _ hmay
    (both_clear.mpr ⟨hop, hsc⟩)

/-- A failed check leaves the vector registers as the run leaves them, where the run is not dropped. -/
theorem vadd_vreg (hmay : mayIssue a s) (hop : (opVadd a.folio.val a.ctx.val e s).clear)
    (hsc : (scalarSlot true a.folio.val a.ctx.val e.sc s).clear) (hruns : ∀ src addr, a.hw ≠ .parity src addr)
    (ht : exec (.vadd a e) s = .next t) : t.vreg = (vaddRun a e s).vreg := by
  rw [vadd_checked hmay hop hsc] at ht
  rcases checked_cases ht with ⟨-, -, rfl⟩ | ⟨src, addr, hw, -⟩ | ⟨src, addr, -, rfl⟩ | ⟨-, code, -, rfl⟩ | ⟨-, -, rfl⟩
  · exact timely_vreg _ _ _ _
  · exact absurd hw (hruns src addr)
  · exact parityRead_vreg _ _ _ _ _
  · exact engineFault_vreg _ _ _ _ _
  · exact engineFault_vreg _ _ _ _ _
theorem vadd_of_parity {src : Fin 7} {addr : Nat} (hmay : mayIssue a s) (hop : (opVadd a.folio.val a.ctx.val e s).clear)
    (hsc : (scalarSlot true a.folio.val a.ctx.val e.sc s).clear) (hw : a.hw = .parity src addr) :
    exec (.vadd a e) s = .next ((s.advance a.folio.val a.ctx.val).parityRead a.folio.val a.ctx.val src.val addr) := by
  rw [vadd_checked hmay hop hsc, checked, hw]

end

/-- Settles O45: every trap and wait is the issue's, a trap in debug mode records itself and halts, and no failed check touches a vector
register. -/
theorem trapsWaitsAndFailedChecks : Obligations.TrapsWaitsAndFailedChecks := by
  intro a s n c x hmay
  refine ⟨fun e hlevel mk hmk => ?_, fun w hw => ?_, fun code hcode hmode halone => ?_, fun e w htrap hwait hsc => ?_, fun e hop hsc => ⟨?_, ?_, ?_⟩⟩
  · have hmem := reserved_mem_engTraps hlevel n c e
    simp only [List.mem_cons, List.not_mem_nil, or_false] at hmk
    rcases hmk with rfl | rfl | rfl | rfl | rfl | rfl | rfl | rfl
    · exact engine_reserved hmay (List.mem_append_left _ (hmem _)) (opFnload_codes _ _ _ _)
    · exact engine_reserved hmay (List.mem_append_left _ (hmem _)) (opSxclr_codes _ _ _ _)
    · exact engine_reserved hmay (List.mem_append_left _ (hmem _)) (opSxacc_codes _ _ _ _)
    · exact engine_reserved hmay (List.mem_append_left _ (hmem _)) (opSxred_codes _ _ _ _)
    · exact engine_reserved hmay (List.mem_append_left _ (hmem _)) (opSxdiv_codes _ _ _ _)
    · exact sewing_reserved hmay (List.mem_append_left _ (hmem _)) (opSscan_codes _ _ _ _)
    · exact sewing_reserved hmay (List.mem_append_left _ (hmem _)) (opSsumm_codes _ _ _ _)
    · exact sewing_reserved hmay (List.mem_append_left _ (hmem _)) (opSconv_codes _ _ _ _)
  · have hw' : w.toNat ≠ 0 := fun h => hw (BitVec.eq_of_toNat_eq h)
    exact issue_traps (op := opNop _ _ w.toNat) none false hmay (by simp [opNop, lowestTrap, FLD_RESERVED, hw'])
  · have hc : c < 4 := a.ctx.isLt
    intro t
    have ht : t = _ := takeTrap_of_debug hmode halone
    have hreg (k : Nat) : t.reg k = (s.recordTrap n c code).reg k := by rw [ht]; rfl
    have hfld (k hi lo : Nat) : t.fld k hi lo = (s.recordTrap n c code).fld k hi lo := by rw [ht]; rfl
    refine ⟨by rw [ht, State.ctx_setCtx_same], ?_, ?_, ?_, ?_, fun k htrap hcnt => ?_⟩
    · rw [ht, recordTrap_only]
      exact onlyCtx_setCtx _ _ hc
    · rw [hreg, reg_recordTrap_trap s n c code hc hcode]
    · rw [hfld, fld_recordTrap_count]
    · rw [hfld, fld_recordTrap_lockstep]
    · rw [hreg, reg_recordTrap_ne s n c code htrap hcnt]
  · have hissue : exec (.lzput a e) s = .next (s.setCtx n c { x with wait := some w }) := longEngine_waits hmay htrap hwait hsc
    exact ⟨_, hissue, State.ctx_setCtx_same _ _ _ _, onlyCtx_setCtx _ _ a.ctx.isLt⟩
  · intro u t hu ht
    exact (vadd_vreg (a := { a with hw := .residue }) hmay hop hsc nofun ht).trans
      (vadd_vreg (a := { a with hw := .ok }) hmay hop hsc nofun hu).symm
  · intro src addr u t hu ht
    exact (vadd_vreg (a := { a with hw := .merge src addr }) hmay hop hsc nofun ht).trans
      (vadd_vreg (a := { a with hw := .ok }) hmay hop hsc nofun hu).symm
  · intro src addr
    exact ⟨_, vadd_of_parity (a := { a with hw := .parity src addr }) hmay hop hsc rfl,
      (parityRead_vreg _ _ _ _ _).trans (advance_vreg s _ _)⟩

end Sys2Proof.Machine
end

-- ==== The D2D port and the resets of the ports: O53 ====
section
/-! SUPPORT. Flits that the D2D port sends and takes (R613 to R615), the interface level and the seal (R589, R590), and the transactions that a
port's reset orphans (R600, R620). -/

namespace Sys2Proof.Machine

open Sys2Proof.Claims

/-! ## States that differ in registers -/

/-- From s to t only registers differ. -/
def State.RegsOnly (s t : State) : Prop := ∃ regs, t = { s with regs := regs }

namespace State.RegsOnly
variable {s t : State}

theorem refl (s : State) : s.RegsOnly s := ⟨s.regs, rfl⟩
theorem setReg {a v : Nat} (h : s.RegsOnly t) : s.RegsOnly (t.setReg a v) := by
  obtain ⟨regs, rfl⟩ := h
  exact ⟨_, rfl⟩
theorem setFld {a hi lo v : Nat} (h : s.RegsOnly t) : s.RegsOnly (t.setFld a hi lo v) := h.setReg
theorem setBit {a k : Nat} {b : Bool} (h : s.RegsOnly t) : s.RegsOnly (t.setBit a k b) := h.setReg
theorem bump {a hi lo k : Nat} (h : s.RegsOnly t) : s.RegsOnly (t.bump a hi lo k) := h.setReg
theorem ite {p : Prop} [Decidable p] {u : State} (ht : s.RegsOnly t) (hu : s.RegsOnly u) : s.RegsOnly (if p then t else u) := by
  split
  · exact ht
  · exact hu
theorem eq (h : s.RegsOnly t) : t = { s with regs := t.regs } := by
  obtain ⟨regs, rfl⟩ := h
  rfl

end State.RegsOnly

/-! ## The check code of a flit (R613) -/

theorem xor_lt_two_pow_32 {x y : Nat} (hx : x < 2 ^ 32) (hy : y < 2 ^ 32) : x ^^^ y < 2 ^ 32 := Nat.xor_lt_two_pow hx hy
theorem crc32Shift_lt {c : Nat} (h : c < 2 ^ 32) : crc32Shift c < 2 ^ 32 := by
  have hhalf : c / 2 < 2 ^ 32 := by omega
  unfold crc32Shift
  split
  · exact hhalf
  · exact xor_lt_two_pow_32 hhalf (by decide)
theorem crc32Byte_lt {c : Nat} (h : c < 2 ^ 32) (b : Byte) : crc32Byte c b < 2 ^ 32 := by
  have hb : b.toNat < 2 ^ 32 := by omega
  exact crc32Shift_lt (crc32Shift_lt (crc32Shift_lt (crc32Shift_lt (crc32Shift_lt (crc32Shift_lt (crc32Shift_lt (crc32Shift_lt
    (xor_lt_two_pow_32 h hb))))))))
theorem crc32c_lt (bs : List Byte) : crc32c bs < 2 ^ 32 :=
  xor_lt_two_pow_32 (List.foldlRecOn (motive := fun c : Nat => c < 2 ^ 32) bs crc32Byte (by decide) fun _ hc b _ => crc32Byte_lt hc b) (by decide)
theorem ofBytes_crc32c (bs : List Byte) : ofBytes (toBytes 4 (crc32c bs)) = crc32c bs := by
  rw [ofBytes_toBytes]
  exact Nat.mod_eq_of_lt (crc32c_lt bs)

/-! ## Flits that the port sends (R613, R614) -/

theorem length_d2dBody (kind flags fidx handle bid : Nat) {payload : List Byte} (h : payload.length ≤ 296) :
    (d2dBody kind flags fidx handle bid payload).length = 312 := by
  simp only [d2dBody, List.length_append, toBytes_length, List.length_replicate]
  omega

section
variable (s : State)

/-- The sequence, acknowledgement, NAK and credits that go with a flit. -/
def State.d2dTrailer (seq : Nat) : List Byte :=
  toBytes 4 (seq * 2 ^ 22 + (s.d2dRx + 1023) % 1024 * 2 ^ 12 + (if s.d2dNak then 2 ^ 11 else 0) + min s.d2dOwed 2047)
/-- A flit as it leaves. -/
def State.d2dBytes (seq : Nat) (body : List Byte) : List Byte :=
  body ++ toBytes 4 (crc32c (body ++ s.d2dTrailer seq)) ++ s.d2dTrailer seq

theorem length_d2dTrailer (seq : Nat) : (s.d2dTrailer seq).length = 4 := toBytes_length _ _
theorem bit_d2dTrailer (seq : Nat) : bit (ofBytes (s.d2dTrailer seq)) 11 = s.d2dNak := by
  rw [State.d2dTrailer, ofBytes_toBytes, bit, bits]
  have hcred : min s.d2dOwed 2047 < 2048 := by omega
  cases s.d2dNak
  · rw [beq_eq_false_iff_ne]
    simp only [Bool.false_eq_true, if_false]
    omega
  · rw [beq_iff_eq, if_pos rfl]
    omega

variable {seq : Nat} {body : List Byte}

theorem length_d2dBytes (h : body.length = 312) : (s.d2dBytes seq body).length = 320 := by
  simp only [State.d2dBytes, List.length_append, toBytes_length, length_d2dTrailer, h]
theorem take_d2dBytes (h : body.length = 312) : (s.d2dBytes seq body).take 0x138 = body := by
  rw [State.d2dBytes, List.append_assoc, ← h, List.take_left]
theorem drop_d2dBytes (h : body.length = 312) :
    (s.d2dBytes seq body).drop 0x138 = toBytes 4 (crc32c (body ++ s.d2dTrailer seq)) ++ s.d2dTrailer seq := by
  rw [State.d2dBytes, List.append_assoc, ← h, List.drop_left]
theorem crc_d2dBytes_sent (h : body.length = 312) :
    ofBytes (((s.d2dBytes seq body).drop 0x138).take 4) = crc32c (body ++ s.d2dTrailer seq) := by
  have hlen : (toBytes 4 (crc32c (body ++ s.d2dTrailer seq))).length = 4 := toBytes_length _ _
  rw [drop_d2dBytes s h, List.take_left' hlen, ofBytes_crc32c]
theorem trailer_d2dBytes (h : body.length = 312) : (s.d2dBytes seq body).drop 0x13C = s.d2dTrailer seq := by
  have hlen : (body ++ toBytes 4 (crc32c (body ++ s.d2dTrailer seq))).length = 0x13C := by
    rw [List.length_append, toBytes_length, h]
  rw [State.d2dBytes, List.drop_left' hlen]

/-- One flit with a good check code is sent, with the NAK that is due; nothing that the port has taken differs. -/
def State.SendsFlit (s t : State) : Prop :=
  t.burstIn = s.burstIn ∧ t.d2dRx = s.d2dRx ∧ t.regs = s.regs ∧ ∃ f, t.d2dOut = s.d2dOut ++ [f] ∧ f.length = 320 ∧
    bit (ofBytes (f.drop 0x13C)) 11 = s.d2dNak ∧
    crc32c (f.take 0x138 ++ (f.drop 0x13C).take 4) = ofBytes ((f.drop 0x138).take 4)
theorem d2dEmit_sendsFlit (seq : Nat) (h : body.length = 312) : s.SendsFlit (s.d2dEmit seq body) := by
  refine ⟨rfl, rfl, rfl, s.d2dBytes seq body, rfl, length_d2dBytes s h, ?_, ?_⟩
  · rw [trailer_d2dBytes s h, bit_d2dTrailer]
  · rw [take_d2dBytes s h, trailer_d2dBytes s h, crc_d2dBytes_sent s h, List.take_of_length_le (length_d2dTrailer s seq).le]
theorem d2dSend_sendsFlit : s.SendsFlit s.d2dSend := by
  have hidle := d2dEmit_sendsFlit s (body := d2dBody 0 0 0 0 0 []) s.d2dTx (length_d2dBody 0 0 0 0 0 (Nat.zero_le _))
  unfold State.d2dSend
  split
  · exact hidle
  · split
    · exact hidle
    · exact d2dEmit_sendsFlit (body := d2dBody _ _ _ _ _ _) { s with outbox := _, d2dPos := _, d2dCredits := _, d2dTx := _, d2dRetry := _ } s.d2dTx
        (length_d2dBody _ _ _ _ _ (by rw [List.length_take]; exact min_le_left _ _))

/-- A resend leaves everything but the flits sent, the credits that went with them and the NAK. -/
theorem d2dResendAll_only : s.d2dResendAll =
    { s with d2dOut := s.d2dResendAll.d2dOut, d2dOwed := s.d2dResendAll.d2dOwed, d2dNak := s.d2dResendAll.d2dNak } :=
  List.foldlRecOn (motive := fun u : State => u = { s with d2dOut := u.d2dOut, d2dOwed := u.d2dOwed, d2dNak := u.d2dNak }) s.d2dRetry _ rfl
    fun u hu r _ => by
      rw [hu]
      rfl
/-- A resend sends every flit of the retry buffer. -/
theorem d2dResendAll_out : ∃ fs, s.d2dResendAll.d2dOut = s.d2dOut ++ fs ∧ fs.length = s.d2dRetry.length := by
  have hfold : ∀ (rs : List (Nat × List Byte)) (u : State), ∃ fs, (rs.foldl (fun s r => s.d2dEmit r.1 r.2) u).d2dOut = u.d2dOut ++ fs ∧
      fs.length = rs.length := by
    intro rs
    induction rs with
    | nil => exact fun u => ⟨[], (List.append_nil _).symm, rfl⟩
    | cons r rs ih =>
      intro u
      obtain ⟨fs, hout, hlen⟩ := ih (u.d2dEmit r.1 r.2)
      exact ⟨u.d2dBytes r.1 r.2 :: fs, hout.trans (List.append_assoc _ _ _), congrArg (· + 1) hlen⟩
  exact hfold s.d2dRetry s

/-! ## Attempts that fail (R614, R615) -/

theorem d2dTrain_state : s.d2dTrain.d2dState = 1 := by
  rw [State.d2dState, State.d2dTrain, State.bump, State.fld_setFld_ne _ _ (by decide), State.fld_setFld_same _ _ _ (by decide) (by decide)]
  rfl
theorem fld_d2dTrain {a hi lo : Nat} (hstat : a ≠ D2D_STAT) (hcnt : a ≠ D2D_RETRAIN_CNT) : s.d2dTrain.fld a hi lo = s.fld a hi lo := by
  rw [State.d2dTrain, State.bump, State.fld_setFld_ne _ _ hcnt, State.fld_setFld_ne _ _ hstat]
theorem fld_d2dTrain_count : s.d2dTrain.fld D2D_RETRAIN_CNT 15 0 = min (s.fld D2D_RETRAIN_CNT 15 0 + 1) 0xFFFF := by
  rw [State.d2dTrain, State.fld_bump_same _ _ _ (by decide) (by decide), State.fld_setFld_ne _ _ (by decide)]
  rfl
theorem d2dTrain_only : s.d2dTrain = { s with regs := s.d2dTrain.regs } := (State.RegsOnly.refl s).setFld.bump.eq
/-- The attempt counted. -/
def State.d2dCounted (s : State) : State := { s with d2dAttempts := s.d2dAttempts + 1 }.bump D2D_CNT 31 16 1
theorem fld_d2dCounted {a hi lo : Nat} (h : a ≠ D2D_CNT) : s.d2dCounted.fld a hi lo = s.fld a hi lo := State.fld_setFld_ne _ _ h
theorem fld_d2dCounted_count : s.d2dCounted.fld D2D_CNT 31 16 = min (s.fld D2D_CNT 31 16 + 1) 0xFFFF :=
  State.fld_bump_same _ _ _ (by decide) (by decide)
theorem d2dCounted_only : s.d2dCounted = { s with d2dAttempts := s.d2dAttempts + 1, regs := s.d2dCounted.regs } :=
  (State.RegsOnly.refl { s with d2dAttempts := s.d2dAttempts + 1 }).bump.eq
theorem d2dFailed_eq : s.d2dFailed = if 15 ≤ s.d2dAttempts then s.d2dCounted.d2dTrain else s.d2dCounted.d2dResendAll := rfl
/-- What a resend that is due does. -/
theorem d2dFailed_resends (h : s.d2dAttempts < 15) : s.d2dFailed = s.d2dCounted.d2dResendAll := if_neg (by omega)
theorem d2dFailed_trains (h : 15 ≤ s.d2dAttempts) : s.d2dFailed = s.d2dCounted.d2dTrain := if_pos h
theorem d2dCounted_fields : s.d2dCounted.d2dOut = s.d2dOut ∧ s.d2dCounted.d2dRetry = s.d2dRetry ∧ s.d2dCounted.d2dRx = s.d2dRx ∧
    s.d2dCounted.burstIn = s.burstIn := by
  rw [d2dCounted_only]
  exact ⟨rfl, rfl, rfl, rfl⟩

/-! ## Flits that arrive (R613 to R615) -/

/-- From s to t the port has taken the same flits, and is in the same state. -/
def State.SameTaken (s t : State) : Prop := t.d2dRx = s.d2dRx ∧ t.burstIn = s.burstIn ∧ t.d2dState = s.d2dState

theorem d2dFailed_sameTaken (h : s.d2dAttempts < 15) : s.SameTaken s.d2dFailed := by
  obtain ⟨-, -, hrx, hin⟩ := d2dCounted_fields s
  rw [d2dFailed_resends s h, d2dResendAll_only]
  exact ⟨hrx, hin, fld_d2dCounted s (by decide)⟩
/-- A trailer takes no flit; its NAK leaves the port up while fewer than 15 attempts have failed. -/
theorem d2dControl_sameTaken {hi : Nat} (h : bit hi 11 = false ∨ s.d2dAttempts < 15) : s.SameTaken (s.d2dControl hi) := by
  unfold State.d2dControl
  extract_lets ack s1 s2
  have h1 : s.SameTaken s1 ∧ s1.d2dAttempts ≤ s.d2dAttempts := by
    unfold s1
    split
    · exact ⟨⟨rfl, rfl, rfl⟩, Nat.zero_le _⟩
    · exact ⟨⟨rfl, rfl, rfl⟩, le_rfl⟩
  obtain ⟨hsame, hle⟩ := h1
  split
  · next hnak =>
    obtain ⟨hrx, hin, hst⟩ := d2dFailed_sameTaken { s2 with d2dNak := s2.d2dNak || s2.d2dLost } (hle.trans_lt (h.resolve_left (by simp [hnak])))
    exact ⟨hrx.trans hsame.1, hin.trans hsame.2.1, hst.trans hsame.2.2⟩
  · exact hsame
/-- A burst flit in order passes to its burst. -/
theorem d2dFrame_takes {hi : Nat} {f : List Byte} (hkind : ofBytes ((f.drop 0).take 1) = 1) (hpos : 0 < ofBytes ((f.drop 0x0A).take 2))
    (hlen : ofBytes ((f.drop 0x0A).take 2) ≤ 296) (hroom : s.burstIn.length < 1024) (hseq : bits hi 31 22 = s.d2dRx) :
    s.d2dFrame hi f = { s with
      d2dRx := (s.d2dRx + 1) % 1024, d2dLost := false,
      burstIn := s.burstIn ++ [⟨bit (ofBytes ((f.drop 1).take 1)) 0, ofBytes ((f.drop 2).take 2), ofBytes ((f.drop 4).take 4),
        ofBytes ((f.drop 8).take 2), (f.drop 0x10).take (ofBytes ((f.drop 0x0A).take 2))⟩] } := by
  have hkind' : ofBytes (f.take 1) = 1 := hkind
  simp only [State.d2dFrame, State.d2dTake, hkind, hkind', hseq, if_true]
  rw [if_neg (by decide), if_neg (by omega), if_neg (by omega)]

end

/-! ## Training (R615) -/

theorem State.RegsOnly.logOnly {s t u : State} (h : s.LogOnly t) (hu : t.RegsOnly u) : s.LogOnly u := by
  obtain ⟨_, _, _, rfl⟩ := h
  obtain ⟨_, rfl⟩ := hu
  exact ⟨_, _, _, rfl⟩
theorem State.LogOnly.then_log {s t : State} (h : s.LogOnly t) (code unit action info : Nat) : s.LogOnly (t.log code unit action info) := by
  obtain ⟨_, _, _, hlog⟩ := State.LogOnly.log t code unit action info
  obtain ⟨_, _, _, rfl⟩ := h
  exact ⟨_, _, _, hlog⟩
theorem State.LogOnly.then_logs {α : Type} {s t : State} (h : s.LogOnly t) (f : State → α → State) (l : List α)
    (hf : ∀ u x, f u x = u ∨ ∃ code unit action info, f u x = u.log code unit action info) : s.LogOnly (l.foldl f t) :=
  List.foldlRecOn (motive := fun u : State => s.LogOnly u) l f h fun u hu x _ => by
    rcases hf u x with hsame | ⟨code, unit, action, info, hlog⟩
    · rwa [hsame]
    · rw [hlog]
      exact hu.then_log code unit action info
theorem unlogged_d2dStat : State.Unlogged D2D_STAT := ⟨by decide, by decide⟩
theorem reg_foldl_logs {α : Type} {a : Nat} (ha : State.Unlogged a) (f : State → α → State) (l : List α) (s : State)
    (hf : ∀ u x, f u x = u ∨ ∃ code unit action info, f u x = u.log code unit action info) : (l.foldl f s).reg a = s.reg a :=
  List.foldlRecOn (motive := fun u : State => u.reg a = s.reg a) l f rfl fun u hu x _ => by
    rcases hf u x with hsame | ⟨code, unit, action, info, hlog⟩
    · rwa [hsame]
    · rw [hlog]
      exact (State.reg_log u ha code unit action info).trans hu

section
variable (s : State) (up repaired : Nat) (lanes : List (Fin 4 × BitVec 7))

/-- What training logs: the modules that are lost, and the lanes that are repaired. -/
def State.d2dLogged (s : State) (up : Nat) (lanes : List (Fin 4 × BitVec 7)) : State :=
  lanes.foldl (fun s l => s.log 0x38 (0xA8 + l.1.val) 7 l.2.toNat)
    ((List.range 4).foldl (fun t m => if bit (s.fld D2D_STAT 3 0) m && !bit up m then t.log 0x39 (0xA8 + m) 0 0 else t) s)
theorem d2dLogged_logOnly : s.LogOnly (s.d2dLogged up lanes) := by
  have hs : s.LogOnly s := ⟨_, _, _, rfl⟩
  refine (hs.then_logs _ _ fun u m => ?_).then_logs _ _ fun u l => .inr ⟨_, _, _, _, rfl⟩
  split
  · exact .inr ⟨_, _, _, _, rfl⟩
  · exact .inl rfl
theorem reg_d2dLogged {a : Nat} (ha : State.Unlogged a) : (s.d2dLogged up lanes).reg a = s.reg a := by
  refine (reg_foldl_logs ha _ _ _ fun u l => .inr ⟨_, _, _, _, rfl⟩).trans (reg_foldl_logs ha _ _ _ fun u m => ?_)
  split
  · exact .inr ⟨_, _, _, _, rfl⟩
  · exact .inl rfl

/-- The modules that stay with their lanes repaired, and the port up. -/
def State.d2dTrained (s : State) (left repaired : Nat) : State :=
  ((s.setFld D2D_STAT 3 0 left).setFld D2D_STAT 7 4 repaired).setFld D2D_STAT 31 29 2
theorem d2dModules_of_left (h : s.fld D2D_STAT 3 0 &&& up ≠ 0) : s.d2dModules up repaired lanes =
    (s.d2dLogged up lanes).d2dTrained (s.fld D2D_STAT 3 0 &&& up) ((s.fld D2D_STAT 7 4 ||| repaired) &&& (s.fld D2D_STAT 3 0 &&& up)) :=
  if_neg h
theorem d2dTrained_state (left : Nat) : (s.d2dTrained left repaired).d2dState = 2 :=
  State.fld_setFld_same _ _ _ (by decide) (by decide)
theorem d2dTrained_modules {left : Nat} (h : left < 16) : (s.d2dTrained left repaired).fld D2D_STAT 3 0 = left := by
  rw [State.d2dTrained, State.fld_setFld_apart _ _ _ (by decide) (by decide) (by decide) (by decide),
    State.fld_setFld_apart _ _ _ (by decide) (by decide) (by decide) (by decide), State.fld_setFld_same _ _ _ (by decide) (by decide)]
  exact Nat.mod_eq_of_lt h
theorem d2dTrained_regsOnly (left : Nat) : s.RegsOnly (s.d2dTrained left repaired) := (State.RegsOnly.refl s).setFld.setFld.setFld

/-- Training that leaves a module brings the port up with those modules; beside them only the fault log is written. -/
theorem d2dModules_trains (h : s.fld D2D_STAT 3 0 &&& up ≠ 0) : s.LogOnly (s.d2dModules up repaired lanes) ∧
    (s.d2dModules up repaired lanes).d2dState = 2 ∧ (s.d2dModules up repaired lanes).fld D2D_STAT 3 0 = s.fld D2D_STAT 3 0 &&& up := by
  have hnow : s.fld D2D_STAT 3 0 < 16 := Nat.mod_lt _ (by decide)
  rw [d2dModules_of_left s up repaired lanes h]
  exact ⟨State.RegsOnly.logOnly (d2dLogged_logOnly s up lanes) (d2dTrained_regsOnly _ _ _), d2dTrained_state _ _ _,
    d2dTrained_modules _ _ (Nat.and_le_left.trans_lt hnow)⟩

end

/-! ## Transactions that a port's reset orphans (R600, R620) -/

/-- A transaction that is orphaned. -/
def Txn.orphaned (x : Txn) : Txn := { x with st := 6, staged := [], lease := 0, out := 2 }

section
variable (s : State)

theorem txn_of_txns {s t : State} (h : t.txns = s.txns) (k : Nat) : t.txn k = s.txn k := by rw [State.txn, h, ← State.txn]
theorem txn_setTxn_same (k : Nat) (x : Txn) : (s.setTxn k x).txn k = x := Sp.get_set_same _ _ _ _
theorem txn_setTxn_ne {k j : Nat} (x : Txn) (h : j ≠ k) : (s.setTxn k x).txn j = s.txn j := Sp.get_set_ne _ _ _ h
theorem withLine_txns (p : Nat) (t : State) : (s.withLine p t).txns = t.txns := by
  obtain ⟨b, hb⟩ := withLine_eq_withMsgs s p t
  rw [hb]
  rfl
theorem log_txns (code unit action info : Nat) : (s.log code unit action info).txns = s.txns := by
  obtain ⟨_, _, _, hlog⟩ := State.LogOnly.log s code unit action info
  rw [hlog]
theorem orphan_txns (k : Nat) : (s.orphan k).txns = (s.setTxn k (s.txn k).orphaned).txns := by
  unfold State.orphan
  rw [withLine_txns, log_txns]
  rfl
theorem txn_orphan_same (k : Nat) : (s.orphan k).txn k = (s.txn k).orphaned :=
  (txn_of_txns (orphan_txns s k) k).trans (txn_setTxn_same s k _)
theorem txn_orphan_ne {k j : Nat} (h : j ≠ k) : (s.orphan k).txn j = s.txn j :=
  (txn_of_txns (orphan_txns s k) j).trans (txn_setTxn_ne s _ h)
theorem mbxOrphan_txns (p : Port) : (s.mbxOrphan p).txns = s.txns := by
  have hclear (l : List Nat) (t : State) : (l.foldl (fun s i => s.setReg (MBX_ARG i) 0) t).txns = t.txns :=
    List.foldlRecOn (motive := fun u : State => u.txns = t.txns) l _ rfl fun u hu i _ => (State.setReg_txns u _ _).trans hu
  have hfld (t : State) (a hi lo v : Nat) : (t.setFld a hi lo v).txns = t.txns := State.setReg_txns t _ _
  have hbit (t : State) (a k : Nat) (b : Bool) : (t.setBit a k b).txns = t.txns := State.setReg_txns t _ _
  have hend (code : Nat) : (s.mbxEnd code).txns = s.txns := by
    unfold State.mbxEnd
    rw [withLine_txns, hclear]
    exact (hfld ((s.setBit MBX_STAT 31 false).setBit MBX_STAT 29 false) MBX_STAT 23 16 code).trans
      ((hbit (s.setBit MBX_STAT 31 false) MBX_STAT 29 false).trans (hbit s MBX_STAT 31 false))
  unfold State.mbxOrphan
  split
  · split
    · exact hend _
    · rfl
  · rfl

/-- Is a transaction one that the reset of a port names? -/
def Txn.named (x : Txn) (p : Port) (names : Nat → Bool) : Bool := x.live && x.port == portCode p && names x.tag
/-- A port's reset orphans the transactions that it names, and no other. -/
theorem txn_portReset (p : Port) (names : Nat → Bool) (k : Fin 4) : (s.portReset p names).txn k.val =
    if (s.txn k.val).named p names then (s.txn k.val).orphaned else s.txn k.val := by
  have hstep (t : State) (j i : Nat) : (if (t.txn j).named p names then t.orphan j else t).txn i =
      if i = j ∧ (t.txn j).named p names = true then (t.txn j).orphaned else t.txn i := by
    by_cases hn : (t.txn j).named p names = true
    · rw [if_pos hn]
      by_cases hi : i = j
      · rw [if_pos ⟨hi, hn⟩, hi, txn_orphan_same]
      · rw [if_neg (fun h => hi h.1), txn_orphan_ne t hi]
    · rw [if_neg hn, if_neg (fun h => hn h.2)]
  have hfold : ∀ (l : List Nat), l.Nodup → ∀ t : State, (l.foldl (fun t j => if (t.txn j).named p names then t.orphan j else t) t).txn k.val =
      if k.val ∈ l ∧ (t.txn k.val).named p names = true then (t.txn k.val).orphaned else t.txn k.val := by
    intro l
    induction l with
    | nil => exact fun _ t => by simp
    | cons j l ih =>
      intro hnodup t
      obtain ⟨hj, hl⟩ := List.nodup_cons.mp hnodup
      rw [List.foldl_cons, ih hl, hstep]
      by_cases hk : k.val = j
      · subst hk
        simp only [hj, false_and, if_false, true_and, List.mem_cons, true_or]
      · simp only [hk, false_and, if_false, List.mem_cons, false_or]
  have hk : k.val ∈ List.range 4 := List.mem_range.mpr k.isLt
  refine (hfold (List.range 4) List.nodup_range s).trans ?_
  simp only [hk, true_and]
theorem portReset_orphans {t : State} {p : Port} {names : Nat → Bool} {named : Nat → Prop} (ht : t.txns = (s.portReset p names).txns)
    (hnames : ∀ tag, names tag = true ↔ named tag) : ∀ k : Fin 4,
      ((s.txn k.val).live = true → (s.txn k.val).port = portCode p → named (s.txn k.val).tag → (t.txn k.val).st = 6 ∧ (t.txn k.val).staged = []) ∧
      (¬((s.txn k.val).live = true ∧ (s.txn k.val).port = portCode p ∧ named (s.txn k.val).tag) → t.txn k.val = s.txn k.val) := by
  intro k
  have hiff : (s.txn k.val).named p names = true ↔
      (s.txn k.val).live = true ∧ (s.txn k.val).port = portCode p ∧ named (s.txn k.val).tag := by
    simp only [Txn.named, Bool.and_eq_true, beq_iff_eq, hnames, and_assoc]
  have htxn := (txn_of_txns ht k.val).trans (txn_portReset s p names k)
  refine ⟨fun hlive hport htag => ?_, fun hnot => ?_⟩
  · rw [htxn, if_pos (hiff.mpr ⟨hlive, hport, htag⟩)]
    exact ⟨rfl, rfl⟩
  · rw [htxn, if_neg (fun h => hnot (hiff.mp h))]

end

/-! ## A host's write of a word that stages nothing (R19, R580) -/

/-- From s to t only registers and interrupt messages differ, and of page p only its error word. -/
def State.ErrsOnly (s t : State) (p : Nat) : Prop :=
  (∃ regs msgs, t = { s with regs := regs, sideband := msgs }) ∧ ∀ a, a ≠ ERR_STATUS p → t.reg a = s.reg a

section
variable {s t : State} {q : Nat}

theorem State.ErrsOnly.refl (s : State) (q : Nat) : s.ErrsOnly s q := ⟨⟨s.regs, s.sideband, rfl⟩, fun _ _ => rfl⟩
theorem State.ErrsOnly.pageErr {k : Nat} (h : s.ErrsOnly t q) : s.ErrsOnly (t.pageErr q k) q := by
  obtain ⟨⟨_, _, rfl⟩, hreg⟩ := h
  refine ⟨?_, fun a ha => ?_⟩
  · unfold State.pageErr
    obtain ⟨b, hb⟩ := withLine_eq_withMsgs _ q (State.setBit { s with regs := _, sideband := _ } (ERR_STATUS q) k true)
    exact ⟨_, b, hb⟩
  · unfold State.pageErr
    rw [State.reg_withLine, State.reg_setBit_ne _ _ ha]
    exact hreg a ha
theorem State.ErrsOnly.ite {p : Prop} [Decidable p] {u : State} (ht : s.ErrsOnly t q) (hu : s.ErrsOnly u q) :
    s.ErrsOnly (if p then t else u) q := by
  split
  · exact ht
  · exact hu
/-- The errors that a write of a word reports: reserved bits that are not zero, and bits that the seal locks. -/
def State.writeErrs (s : State) (a w : Nat) : State :=
  let u := if w &&& (regAll - (s.spec a).named) ≠ 0 then s.pageErr (a / 4096) 30 else s
  if s.sealed ∧ (s.spec a).lk ≠ 0 then u.pageErr (a / 4096) 28 else u
/-- The RW bits of a word that the seal leaves open. -/
def State.openBits (s : State) (a : Nat) : Nat := if s.sealed then (s.spec a).rw - ((s.spec a).rw &&& (s.spec a).lk) else (s.spec a).rw
theorem writeErrs_errsOnly (s : State) (a w : Nat) : s.ErrsOnly (s.writeErrs a w) (a / 4096) := by
  have hs := State.ErrsOnly.refl s (a / 4096)
  exact .ite (State.ErrsOnly.ite hs.pageErr hs).pageErr (.ite hs.pageErr hs)
theorem writeHead_of_closed {p : Port} {a w : Nat} (htx : (s.spec a).tx = 0) (hrw : s.openBits a = 0) : s.writeHead p a w = s.writeErrs a w := by
  have hrw' : (if s.sealed then (s.spec a).rw - ((s.spec a).rw &&& (s.spec a).lk) else (s.spec a).rw) = 0 := hrw
  simp only [State.writeHead, hrw', htx, Nat.zero_and, Nat.sub_zero, ite_self, if_true]
  rfl
theorem writeHead_of_openBits {p : Port} {a w : Nat} (htx : (s.spec a).tx = 0) (hrw : s.openBits a ≠ 0) : s.writeHead p a w =
    (s.writeErrs a w).setReg a ((s.writeErrs a w).reg a - ((s.writeErrs a w).reg a &&& s.openBits a) + (w &&& s.openBits a)) := by
  have hrw' : (if s.sealed then (s.spec a).rw - ((s.spec a).rw &&& (s.spec a).lk) else (s.spec a).rw) ≠ 0 := hrw
  simp only [State.writeHead, htx, Nat.zero_and, Nat.sub_zero, ite_self, if_true]
  exact if_neg hrw'
/-- The bits that the word of a hidden page has are among those that it has where its page is shown. -/
theorem spec_none_or (s : State) {a : Nat} (hfolio : isFolioPage (a / 4096) 2 = false) : s.spec a = {} ∨ s.spec a = regSpec a := by
  simp only [State.spec, hfolio, Bool.false_eq_true, false_and, and_false, if_false]
  split
  · exact .inl rfl
  · exact .inr rfl

end

/-! ## The interface level (R590) -/

section
variable (s : State)

theorem level_of_reg {s t : State} (h : t.reg IFACE_LEVEL = s.reg IFACE_LEVEL) : t.level = s.level := congrArg (fun v => bits v 7 4) h
theorem clear_bit_30 (v w : Nat) (hv : v < 2 ^ 32) (hi lo : Nat) (h : (hi = 31 ∧ lo = 31) ∨ (hi = 7 ∧ lo = 4)) :
    bits ((v - (v &&& (w &&& 2 ^ 30))) % 2 ^ 32) hi lo = bits v hi lo := by
  have hw : w &&& 2 ^ 30 = 0 ∨ w &&& 2 ^ 30 = 2 ^ 30 := by
    rw [Nat.and_two_pow]
    cases w.testBit 30
    · exact .inl (Nat.zero_mul _)
    · exact .inr (Nat.one_mul _)
  rcases hw with hw | hw
  · rw [hw, Nat.and_zero, Nat.sub_zero, Nat.mod_eq_of_lt hv]
  · have hbit : v &&& 2 ^ 30 = v / 2 ^ 30 % 2 * 2 ^ 30 := by
      rw [Nat.and_two_pow, Nat.toNat_testBit]
    rw [hw, hbit, bits, bits]
    rcases h with ⟨rfl, rfl⟩ | ⟨rfl, rfl⟩ <;> omega

theorem setBit_levelReq (a k : Nat) (b : Bool) : (s.setBit a k b).levelReq = s.levelReq := State.setReg_levelReq s _ _
theorem setFld_levelReq (a hi lo v : Nat) : (s.setFld a hi lo v).levelReq = s.levelReq := State.setReg_levelReq s _ _
theorem rbit_withMsgs (b : List SbMsg) (a k : Nat) : (s.withMsgs b).rbit a k = s.rbit a k := rfl
theorem level_withMsgs (b : List SbMsg) : (s.withMsgs b).level = s.level := rfl
theorem levelReq_withMsgs (b : List SbMsg) : (s.withMsgs b).levelReq = s.levelReq := rfl
/-- The state with another level request that waits. -/
def State.withReq (s : State) (x : Option Nat) : State := { s with levelReq := x }

/-- A write of IFACE_LEVEL leaves the level in force and the request that waits before its effect acts. -/
theorem ifaceLevel_head (p : Port) (w : Nat) (x : Sp Txn) : ∃ regs msgs, 
    (((s.withTxns x).writeHead p IFACE_LEVEL w).writeClear IFACE_LEVEL w) = { s with regs := regs, txns := x, sideband := msgs } ∧
    ∀ hi lo, (hi = 31 ∧ lo = 31) ∨ (hi = 7 ∧ lo = 4) →
      (((s.withTxns x).writeHead p IFACE_LEVEL w).writeClear IFACE_LEVEL w).fld IFACE_LEVEL hi lo = s.fld IFACE_LEVEL hi lo := by
  have hspec (t : State) := spec_none_or t (a := IFACE_LEVEL) (by decide)
  have hplain (t : State) : (t.spec IFACE_LEVEL).tx = 0 ∧ (t.spec IFACE_LEVEL).rw = 0 ∧
      ((t.spec IFACE_LEVEL).w1c = 0 ∨ (t.spec IFACE_LEVEL).w1c = 2 ^ 30) := by
    rcases hspec t with h | h
    · rw [h]
      decide
    · rw [h]
      decide
  obtain ⟨htx, hrw, -⟩ := hplain (s.withTxns x)
  have hclosed : (s.withTxns x).openBits IFACE_LEVEL = 0 := by
    unfold State.openBits
    rw [hrw, Nat.zero_and, ite_self]
  rw [writeHead_of_closed htx hclosed]
  obtain ⟨⟨regs, msgs, hu⟩, hreg⟩ := writeErrs_errsOnly (s.withTxns x) IFACE_LEVEL w
  have hword : ((s.withTxns x).writeErrs IFACE_LEVEL w).reg IFACE_LEVEL = s.reg IFACE_LEVEL := hreg _ (by decide)
  generalize (s.withTxns x).writeErrs IFACE_LEVEL w = u at hu hword ⊢
  obtain ⟨-, -, hw1c⟩ := hplain u
  unfold State.writeClear
  dsimp only
  split
  · exact ⟨regs, msgs, hu, fun hi lo _ => congrArg (fun v => bits v hi lo) hword⟩
  · have hw : w &&& (u.spec IFACE_LEVEL).w1c = w &&& 2 ^ 30 := by
      rcases hw1c with h0 | h1
      · next hne => exact absurd (by rw [h0, Nat.and_zero]) hne
      · rw [h1]
    obtain ⟨regs', hset⟩ : u.RegsOnly _ := (State.RegsOnly.refl u).setReg (a := IFACE_LEVEL)
      (v := u.reg IFACE_LEVEL - (u.reg IFACE_LEVEL &&& (w &&& (u.spec IFACE_LEVEL).w1c)))
    refine ⟨regs', msgs, hset.trans (by rw [hu]; rfl), fun hi lo h => ?_⟩
    rw [State.fld, State.reg_setReg_same, hw, clear_bit_30 _ _ (reg_lt u _) _ _ h, hword, ← State.fld]

/-- What a write of IFACE_LEVEL that names a level leaves: a request that waits, or the refusal of a second one. -/
theorem ifaceLevel_asks {p : Port} {w : Word} (hopen : PortOpen p IFACE_LEVEL s) (hw : bits w.toNat 3 0 ≠ 0) :
    Next (exec (.ifaceLevel p w) s) fun t =>
      (s.rbit IFACE_LEVEL 31 = false → t.levelReq = some (min (bits w.toNat 3 0) 2) ∧ t.rbit IFACE_LEVEL 31 = true) ∧
      (s.rbit IFACE_LEVEL 31 = true → t.levelReq = s.levelReq ∧ t.rbit IFACE_LEVEL 30 = true) ∧ t.level = s.level := by
  obtain ⟨x, b, hwrite⟩ := hostWrite_of_open (w := w.toNat) (fun t => t.askLevel w.toNat) hopen
  obtain ⟨regs, msgs, hu, hkeep⟩ := ifaceLevel_head s p w.toNat x
  refine ⟨_, congrArg Host.Outcome.next hwrite, ?_⟩
  generalize ((s.withTxns x).writeHead p IFACE_LEVEL w.toNat).writeClear IFACE_LEVEL w.toNat = u at hu hkeep ⊢
  have hbusy : u.rbit IFACE_LEVEL 31 = s.rbit IFACE_LEVEL 31 := congrArg (· == 1) (hkeep 31 31 (.inl ⟨rfl, rfl⟩))
  have hlevel : u.level = s.level := hkeep 7 4 (.inr ⟨rfl, rfl⟩)
  have hreq : u.levelReq = s.levelReq := by rw [hu]
  have hask : u.askLevel w.toNat = if s.rbit IFACE_LEVEL 31 then u.setBit IFACE_LEVEL 30 true
      else (u.withReq (some (min (bits w.toNat 3 0) 2))).setBit IFACE_LEVEL 31 true := by
    rw [← hbusy]
    exact if_neg hw
  rw [hask, rbit_withMsgs, rbit_withMsgs, level_withMsgs, levelReq_withMsgs]
  cases s.rbit IFACE_LEVEL 31
  · rw [if_neg (by decide)]
    refine ⟨fun _ => ⟨setBit_levelReq _ _ _ _, State.rbit_setBit_same _ _ _ (by decide)⟩, nofun, ?_⟩
    exact (State.fld_setBit_apart (u.withReq _) IFACE_LEVEL true (by decide) (by decide) (by decide)).trans hlevel
  · rw [if_pos rfl]
    refine ⟨nofun, fun _ => ⟨(setBit_levelReq _ _ _ _).trans hreq, State.rbit_setBit_same _ _ _ (by decide)⟩, ?_⟩
    exact (State.fld_setBit_apart u IFACE_LEVEL true (by decide) (by decide) (by decide)).trans hlevel

/-- With no stream, schedule, transaction or mailbox operation the requested level comes into force. -/
theorem ifaceLevelDecision_takes {l : Nat} (hreq : s.levelReq = some l) (hl : l < 16) (hstrm : s.strm = []) (hscheds : s.scheds = [])
    (htxns : ∀ k : Fin 4, (s.txn k.val).live = false) (hmbx : s.mbx = none) :
    Next (exec .ifaceLevelDecision s) fun t => t.level = l ∧ t.levelReq = none := by
  have hidle : (s.strIdx.all (fun i => (s.str i).st == .free) && s.scheds.isEmpty && (List.range 4).all (fun k => !(s.txn k).live)
      && s.mbx.isNone) = true := by
    have hall : (List.range 4).all (fun k => !(s.txn k).live) = true :=
      List.all_eq_true.mpr fun k hk => by rw [htxns ⟨k, List.mem_range.mp hk⟩]; rfl
    rw [State.strIdx, hstrm, hscheds, hall, hmbx]
    rfl
  have hdrop (t : State) (ht : t.levelReq = none) : t.dropLevel2.levelReq = none := by
    unfold State.dropLevel2
    exact List.foldlRecOn (motive := fun u : State => u.levelReq = none) _ _ ht fun u hu n _ =>
      (setFld_levelReq _ _ _ _ _).trans ((setFld_levelReq _ _ _ _ _).trans hu)
  have hnone : ((s.withReq none).setBit IFACE_LEVEL 31 false).levelReq = none := setBit_levelReq _ _ _ _
  have hlevel : ((s.withReq none).setBit IFACE_LEVEL 31 false).level = s.level :=
    State.fld_setBit_apart (s.withReq none) IFACE_LEVEL false (by decide) (by decide) (by decide)
  have hrun : execIfaceLevelDecision s = if l = s.level then .next ((s.withReq none).setBit IFACE_LEVEL 31 false) else
      .next ((if l < s.level then ((s.withReq none).setBit IFACE_LEVEL 31 false).dropLevel2
        else (s.withReq none).setBit IFACE_LEVEL 31 false).setFld IFACE_LEVEL 7 4 l) := by
    simp only [execIfaceLevelDecision, hreq, hidle, if_true]
    rfl
  generalize (s.withReq none).setBit IFACE_LEVEL 31 false = u at hnone hlevel hrun
  show Next (execIfaceLevelDecision s) _
  rw [hrun]
  split
  · next heq => exact ⟨_, rfl, hlevel.trans heq.symm, hnone⟩
  · refine ⟨_, rfl, (State.fld_setFld_same _ IFACE_LEVEL l (by decide) (by decide)).trans (Nat.mod_eq_of_lt hl), ?_⟩
    rw [setFld_levelReq]
    split
    · exact hdrop u hnone
    · exact hnone
/-- With a schedule the level stays, and the request is refused. -/
theorem ifaceLevelDecision_refuses {l : Nat} (hreq : s.levelReq = some l) (hne : l ≠ s.level) (hscheds : s.scheds ≠ []) :
    Next (exec .ifaceLevelDecision s) fun t => t.level = s.level ∧ t.levelReq = none ∧ t.rbit IFACE_LEVEL 30 = true ∧
      t = { s with levelReq := none, regs := t.regs } := by
  have hbusy : s.scheds.isEmpty = false := by rwa [List.isEmpty_eq_false_iff]
  have hrun : exec .ifaceLevelDecision s = .next (((s.withReq none).setBit IFACE_LEVEL 31 false).setBit IFACE_LEVEL 30 true) := by
    show execIfaceLevelDecision s = _
    simp only [execIfaceLevelDecision, hreq, hne, hbusy, Bool.and_false, Bool.false_and, if_false, Bool.false_eq_true]
    rfl
  refine ⟨_, hrun, ?_, (setBit_levelReq _ _ _ _).trans (setBit_levelReq _ _ _ _), State.rbit_setBit_same _ IFACE_LEVEL true (by decide),
    (State.RegsOnly.refl (s.withReq none)).setBit.setBit.eq⟩
  exact (State.fld_setBit_apart _ IFACE_LEVEL true (by decide) (by decide) (by decide)).trans
    (State.fld_setBit_apart (s.withReq none) IFACE_LEVEL false (by decide) (by decide) (by decide))

/-! ## The seal (R589) -/

theorem seal_bits (v w : Nat) (hv : v < 2 ^ 32) :
    bit ((v - (v &&& 2) + (w &&& 2)) % 2 ^ 32) 0 = bit v 0 ∧ bit ((v - (v &&& 2) + (w &&& 2)) % 2 ^ 32) 1 = bit w 1 := by
  have hand (u : Nat) : u &&& 2 = u / 2 % 2 * 2 := (Nat.and_two_pow u 1).trans (by rw [Nat.toNat_testBit]; rfl)
  rw [hand, hand, bit, bit, bit, bit, bits, bits, bits, bits]
  constructor
  · exact congrArg (· == 1) (by omega)
  · exact congrArg (· == 1) (by omega)
theorem devSeal_head (p : Port) (w : Nat) (x : Sp Txn) (hshown : s.pageShown 0 = true) : ∃ regs msgs,
    (((s.withTxns x).writeHead p DEV_SEAL w).writeClear DEV_SEAL w) = { s with regs := regs, txns := x, sideband := msgs } ∧
    (((s.withTxns x).writeHead p DEV_SEAL w).writeClear DEV_SEAL w).sealed = s.sealed ∧
    (((s.withTxns x).writeHead p DEV_SEAL w).writeClear DEV_SEAL w).rbit DEV_SEAL 1 = if s.sealed then s.rbit DEV_SEAL 1 else bit w 1 := by
  have hw1c (t : State) : (t.spec DEV_SEAL).w1c = 0 := by
    rcases spec_none_or t (a := DEV_SEAL) (by decide) with h | h
    · rw [h]
    · rw [h]
      decide
  have hspec : (s.withTxns x).spec DEV_SEAL = regSpec DEV_SEAL := spec_of_shown (s := s.withTxns x) (kind := 1) hshown (by decide) (by decide)
  have htx : ((s.withTxns x).spec DEV_SEAL).tx = 0 := by
    rw [hspec]
    decide
  have hbits : (s.withTxns x).openBits DEV_SEAL = if s.sealed then 0 else 2 := by
    have hlocked : (regSpec DEV_SEAL).rw - ((regSpec DEV_SEAL).rw &&& (regSpec DEV_SEAL).lk) = 0 := by decide
    have hrw : (regSpec DEV_SEAL).rw = 2 := by decide
    rw [State.openBits, hspec, hlocked, hrw]
    rfl
  obtain ⟨⟨regs, msgs, hu⟩, hreg⟩ := writeErrs_errsOnly (s.withTxns x) DEV_SEAL w
  have hword : ((s.withTxns x).writeErrs DEV_SEAL w).reg DEV_SEAL = s.reg DEV_SEAL := hreg _ (by decide)
  rw [writeClear_of_w1c (hw1c _)]
  cases hseal : s.sealed
  · have hopen : (s.withTxns x).openBits DEV_SEAL = 2 := by rw [hbits, hseal]; rfl
    rw [writeHead_of_openBits htx (by rw [hopen]; decide), hopen, hword]
    generalize (s.withTxns x).writeErrs DEV_SEAL w = u at hu
    obtain ⟨regs', hset⟩ : u.RegsOnly _ := (State.RegsOnly.refl u).setReg (a := DEV_SEAL)
      (v := s.reg DEV_SEAL - (s.reg DEV_SEAL &&& 2) + (w &&& 2))
    obtain ⟨h0, h1⟩ := seal_bits (s.reg DEV_SEAL) w (reg_lt s _)
    refine ⟨regs', msgs, hset.trans (by rw [hu]; rfl), ?_, ?_⟩
    · rw [State.sealed, State.rbit, State.reg_setReg_same, h0]
      exact hseal
    · rw [State.rbit, State.reg_setReg_same, h1]
      rfl
  · have hclosed : (s.withTxns x).openBits DEV_SEAL = 0 := by rw [hbits, hseal]; rfl
    rw [writeHead_of_closed htx hclosed]
    exact ⟨regs, msgs, hu, (congrArg (fun v => bit v 0) hword).trans hseal, congrArg (fun v => bit v 1) hword⟩
/-- A write of DEV_SEAL sets the seal, and writes the debug permission while there is no seal. -/
theorem devSeal_writes {p : Port} {w : Word} (hopen : PortOpen p DEV_SEAL s) : Next (exec (.devSeal p w) s) fun t =>
    t.sealed = (s.sealed || bit w.toNat 0) ∧ t.rbit DEV_SEAL 1 = (if s.sealed then s.rbit DEV_SEAL 1 else bit w.toNat 1) ∧
    t = { s with regs := t.regs, txns := t.txns, sideband := t.sideband } := by
  obtain ⟨x, b, hwrite⟩ := hostWrite_of_open (w := w.toNat) (fun t => if bit w.toNat 0 then t.setBit DEV_SEAL 0 true else t) hopen
  obtain ⟨regs, msgs, hu, hsealed, hdebug⟩ := devSeal_head s p w.toNat x hopen.2.1
  refine ⟨_, congrArg Host.Outcome.next hwrite, ?_⟩
  generalize ((s.withTxns x).writeHead p DEV_SEAL w.toNat).writeClear DEV_SEAL w.toNat = u at hu hsealed hdebug ⊢
  cases bit w.toNat 0
  · simp only [Bool.false_eq_true, if_false, Bool.or_false]
    exact ⟨hsealed, hdebug, by rw [hu]; rfl⟩
  · obtain ⟨regs', hset⟩ : u.RegsOnly (u.setBit DEV_SEAL 0 true) := (State.RegsOnly.refl u).setBit
    simp only [if_true, Bool.or_true]
    refine ⟨State.rbit_setBit_same u DEV_SEAL true (by decide), ?_, ?_⟩
    · exact (State.rbit_setBit_apart u DEV_SEAL true (by decide) (by decide)).trans hdebug
    · rw [hset, hu]
      rfl

end

/-! ## The obligation -/

section
variable {s : State} {b : List Byte}

/-- Is the check code of a flit good? -/
def crcGood (b : List Byte) : Prop := crc32c (b.take 0x138 ++ (b.drop 0x13C).take 4) = ofBytes ((b.drop 0x138).take 4)

/-- The state in which a flit with a bad check code has been counted, and its NAK is due. -/
def State.d2dNaks (s : State) : State := { s.d2dBad with d2dNak := true, d2dLost := true }

theorem d2dFlit_of_bad (hup : s.d2dState = 2) (hbad : ¬ crcGood b) : exec (.d2dFlit b) s = .next s.d2dNaks.d2dSend := by
  show execD2dFlit b s = _
  unfold execD2dFlit
  rw [if_neg (not_not.mpr hup)]
  exact if_pos (.inr hbad)
theorem d2dFlit_bad_answers (hup : s.d2dState = 2) (hbad : ¬ crcGood b) : Next (exec (.d2dFlit b) s) fun t =>
    t.burstIn = s.burstIn ∧ t.d2dRx = s.d2dRx ∧ t.fld D2D_CNT 7 0 = min (s.fld D2D_CNT 7 0 + 1) 0xFF ∧
      ∃ f, t.d2dOut = s.d2dOut ++ [f] ∧ f.length = 320 ∧ bit (ofBytes (f.drop 0x13C)) 11 = true ∧ crcGood f := by
  have hcount : s.d2dBad.fld D2D_CNT 7 0 = min (s.fld D2D_CNT 7 0 + 1) 0xFF := State.fld_bump_same s _ _ (by decide) (by decide)
  obtain ⟨regs, hregs⟩ : s.RegsOnly s.d2dBad := (State.RegsOnly.refl s).bump
  have hnaks : s.d2dNaks = { s with regs := regs, d2dNak := true, d2dLost := true } := by
    rw [State.d2dNaks, hregs]
  have hnakRegs : s.d2dNaks.regs = s.d2dBad.regs := rfl
  obtain ⟨hin, hrx, hreg, f, hout, hlen, hnak, hcrc⟩ := d2dSend_sendsFlit s.d2dNaks
  refine ⟨_, d2dFlit_of_bad hup hbad, hin.trans (by rw [hnaks]), hrx.trans (by rw [hnaks]), ?_, f, hout.trans (by rw [hnaks]), hlen, hnak, hcrc⟩
  rw [State.fld, reg_of_regs (hreg.trans hnakRegs), ← State.fld, hcount]

theorem d2dFlit_of_good (hup : s.d2dState = 2) (hlen : b.length = 320) (hgood : crcGood b)
    (hctl : (s.d2dControl (ofBytes ((b.drop 0x13C).take 4))).d2dState = 2) : exec (.d2dFlit b) s =
      let u := (s.d2dControl (ofBytes ((b.drop 0x13C).take 4))).d2dFrame (ofBytes ((b.drop 0x13C).take 4)) (b.take 0x138)
      .next (if u.d2dState = 2 then u.d2dSend else u) := by
  have hok : ¬(b.length ≠ 320 ∨ crc32c (b.take 0x138 ++ (b.drop 0x13C).take 4) ≠ ofBytes ((b.drop 0x138).take 4)) := by
    rintro (hne | hne)
    · exact hne hlen
    · exact hne hgood
  show execD2dFlit b s = _
  unfold execD2dFlit
  rw [if_neg (not_not.mpr hup)]
  dsimp only
  rw [if_neg hok, if_neg (not_not.mpr hctl)]
theorem d2dFlit_in_order (hup : s.d2dState = 2) (hlen : b.length = 320) (hgood : crcGood b)
    (hkind : ofBytes (((b.take 0x138).drop 0).take 1) = 1) (hpos : 0 < ofBytes (((b.take 0x138).drop 0x0A).take 2))
    (hle : ofBytes (((b.take 0x138).drop 0x0A).take 2) ≤ 296) (hroom : s.burstIn.length < 1024)
    (hseq : bits (ofBytes (b.drop 0x13C)) 31 22 = s.d2dRx) (hnak : bit (ofBytes (b.drop 0x13C)) 11 = false ∨ s.d2dAttempts < 15) :
    Next (exec (.d2dFlit b) s) fun t => t.d2dRx = (s.d2dRx + 1) % 1024 ∧
      t.burstIn = s.burstIn ++ [⟨bit (ofBytes (((b.take 0x138).drop 1).take 1)) 0, ofBytes (((b.take 0x138).drop 2).take 2),
        ofBytes (((b.take 0x138).drop 4).take 4), ofBytes (((b.take 0x138).drop 8).take 2),
        ((b.take 0x138).drop 0x10).take (ofBytes (((b.take 0x138).drop 0x0A).take 2))⟩] := by
  have htrail : (b.drop 0x13C).take 4 = b.drop 0x13C := List.take_of_length_le (by rw [List.length_drop, hlen])
  obtain ⟨hrx, hin, hst⟩ := d2dControl_sameTaken s hnak
  have hctl : (s.d2dControl (ofBytes ((b.drop 0x13C).take 4))).d2dState = 2 := by rw [htrail, hst, hup]
  refine ⟨_, d2dFlit_of_good hup hlen hgood hctl, ?_⟩
  rw [htrail] at hctl ⊢
  rw [d2dFrame_takes _ hkind hpos hle (hin ▸ hroom) (hseq.trans hrx.symm), hrx, hin]
  generalize s.d2dControl (ofBytes (b.drop 0x13C)) = u at hctl
  split
  · obtain ⟨hin', hrx', -⟩ := d2dSend_sendsFlit { u with d2dRx := (s.d2dRx + 1) % 1024, d2dLost := false, burstIn := _ }
    exact ⟨hrx', hin'⟩
  · exact ⟨rfl, rfl⟩

theorem d2dResend_resends (hup : s.d2dState = 2) (hretry : s.d2dRetry ≠ []) : Next (exec .d2dResend s) fun t =>
    (s.d2dAttempts < 15 → ∃ fs, t.d2dOut = s.d2dOut ++ fs ∧ fs.length = s.d2dRetry.length) ∧
    (15 ≤ s.d2dAttempts → t.d2dState = 1 ∧ t.d2dOut = s.d2dOut) ∧ t.fld D2D_CNT 31 16 = min (s.fld D2D_CNT 31 16 + 1) 0xFFFF ∧
    t = { s with d2dAttempts := s.d2dAttempts + 1, regs := t.regs, d2dOut := t.d2dOut, d2dOwed := t.d2dOwed, d2dNak := t.d2dNak } := by
  have hrun : exec .d2dResend s = .next s.d2dFailed := by
    refine if_neg ?_
    rintro (hdown | hempty)
    · exact hdown hup
    · exact hretry (List.isEmpty_iff.mp hempty)
  obtain ⟨hout, hbuf, -, -⟩ := d2dCounted_fields s
  have hcount := fld_d2dCounted_count s
  have honly := d2dCounted_only s
  refine ⟨_, hrun, ?_⟩
  rcases Nat.lt_or_ge s.d2dAttempts 15 with hfew | hmany
  · have hresend := d2dResendAll_only s.d2dCounted
    obtain ⟨fs, hfs, hlen⟩ := d2dResendAll_out s.d2dCounted
    rw [d2dFailed_resends s hfew]
    refine ⟨fun _ => ⟨fs, hfs.trans (by rw [hout]), hlen.trans (by rw [hbuf])⟩, fun hmany => absurd hfew (by omega), ?_, ?_⟩
    · rw [hresend]
      exact hcount
    · rw [hresend, honly]
  · have htrain := d2dTrain_only s.d2dCounted
    rw [d2dFailed_trains s hmany]
    refine ⟨fun hfew => absurd hfew (by omega), fun _ => ⟨d2dTrain_state _, ?_⟩, ?_, ?_⟩
    · rw [htrain]
      exact hout
    · rw [fld_d2dTrain _ (by decide) (by decide), hcount]
    · rw [htrain, honly]
theorem d2dRetrain_trains (hup : s.d2dState = 2) : Next (exec .d2dRetrain s) fun t =>
    t.d2dState = 1 ∧ t.fld D2D_RETRAIN_CNT 15 0 = min (s.fld D2D_RETRAIN_CNT 15 0 + 1) 0xFFFF ∧ t = { s with regs := t.regs } :=
  ⟨_, if_neg (not_not.mpr hup), d2dTrain_state s, fld_d2dTrain_count s, d2dTrain_only s⟩
theorem d2dRetrainComplete_resends (up rep : BitVec 4) (lanes : List (Fin 4 × BitVec 7)) (htrains : s.d2dState = 1)
    (hleft : s.fld D2D_STAT 3 0 &&& up.toNat ≠ 0) : Next (exec (.d2dRetrainComplete up rep lanes) s) fun t =>
      t.d2dState = 2 ∧ t.fld D2D_STAT 3 0 = s.fld D2D_STAT 3 0 &&& up.toNat ∧ t.d2dRetry = s.d2dRetry ∧
      ∃ fs, t.d2dOut = s.d2dOut ++ fs ∧ fs.length = s.d2dRetry.length := by
  let u : State := { s with d2dAttempts := 0, d2dLost := false }
  obtain ⟨⟨_, _, _, hlog⟩, hup, hmods⟩ := d2dModules_trains u up.toNat rep.toNat lanes hleft
  have hretry : (u.d2dModules up.toNat rep.toNat lanes).d2dRetry = s.d2dRetry := by rw [hlog]
  have hout : (u.d2dModules up.toNat rep.toNat lanes).d2dOut = s.d2dOut := by rw [hlog]
  have hrun : exec (.d2dRetrainComplete up rep lanes) s = .next (u.d2dModules up.toNat rep.toNat lanes).d2dResendAll := by
    refine (if_neg (not_not.mpr htrains)).trans ?_
    exact congrArg Host.Outcome.next (if_pos hup)
  generalize u.d2dModules up.toNat rep.toNat lanes = v at hup hmods hretry hout hrun
  have honly := d2dResendAll_only v
  obtain ⟨fs, hfs, hlen⟩ := d2dResendAll_out v
  refine ⟨_, hrun, ?_, ?_, ?_, fs, hfs.trans (by rw [hout]), hlen.trans (by rw [hretry])⟩
  · rw [honly]
    exact hup
  · rw [honly]
    exact hmods
  · rw [honly]
    exact hretry
end

/-- Settles O53: a flit by its check code and its sequence, the resends and the training of the port, the transactions that a port's reset
orphans, the interface level, and the seal. -/
theorem d2dPortAndPortResets : Obligations.D2dPortAndPortResets := by
  intro s crcOk n orphans
  refine ⟨fun hup => ⟨fun b _ hbad => d2dFlit_bad_answers hup hbad, fun b hlen hgood hkind hpos hle hroom hseq hnak =>
      d2dFlit_in_order hup hlen hgood hkind hpos hle hroom hseq hnak, fun hretry => d2dResend_resends hup hretry, d2dRetrain_trains hup⟩,
    fun up rep lanes htrains hleft => d2dRetrainComplete_resends up rep lanes htrains hleft, fun tag => ?_,
    ⟨_, rfl, portReset_orphans s (p := .i3c) (mbxOrphan_txns _ _) fun _ => ⟨fun _ => trivial, fun _ => rfl⟩⟩,
    ⟨_, rfl, portReset_orphans s (p := .jtag) (mbxOrphan_txns _ _) fun _ => ⟨fun _ => trivial, fun _ => rfl⟩⟩, rfl,
    fun p w hopen hw => ifaceLevel_asks s hopen hw,
    fun l hreq hl => ⟨fun hstrm hscheds htxns hmbx => ifaceLevelDecision_takes s hreq hl hstrm hscheds htxns hmbx,
      fun hne hscheds => ifaceLevelDecision_refuses s hreq hne hscheds⟩,
    fun p w hopen => devSeal_writes s hopen⟩
  have hcase (names : Nat → Bool) (hnames : ∀ x, names x = true ↔ tag.toNat = 0xFFFF ∨ x = tag.toNat) (t : State)
      (ht : t.txns = (s.portReset .d2d names).txns) : orphans 0 (fun x => tag.toNat = 0xFFFF ∨ x = tag.toNat) t :=
    portReset_orphans s ht hnames
  by_cases hall : tag.toNat = 0xFFFF
  · exact ⟨_, if_pos hall, hcase _ (fun _ => ⟨fun _ => .inl hall, fun _ => rfl⟩) _ (mbxOrphan_txns _ _)⟩
  · refine ⟨_, if_neg hall, hcase _ (fun x => ?_) _ rfl⟩
    rw [beq_iff_eq]
    exact ⟨.inr, fun h => h.resolve_left hall⟩

end Sys2Proof.Machine
end

-- ==== Resets and bring-up: O60 ====
section
/-! SUPPORT. What the resets keep (R622, R637), the stages of bring-up with their codes (R631 to R635, R639), and what POWER, TEST, TRAIN and LINK
leave of the words and memories that they do not write. -/

namespace Sys2Proof.Machine

open Sys2Proof.Claims

/-! ## Stages and codes (R631) -/

/-- The device is HALTED with a code. -/
def State.Halted (code : Nat) (t : State) : Prop := t.boot = 0xF ∧ t.fld BOOT_STAT 23 16 = code ∧ t.devState = 2

section
variable (s : State)

theorem setDevState_regs (d : Nat) : (s.setDevState d).regs = (s.setFld PM_STATE 31 29 d).regs := by
  unfold State.setDevState
  with_reducible rfl
theorem fld_of_regs {s t : State} {a hi lo : Nat} (h : t.regs = s.regs) : t.fld a hi lo = s.fld a hi lo := congrArg (fun v => bits v hi lo) (reg_of_regs h)
theorem fld_setDevState_ne {a hi lo : Nat} (d : Nat) (h : a ≠ PM_STATE) : (s.setDevState d).fld a hi lo = s.fld a hi lo :=
  (fld_of_regs (setDevState_regs s d)).trans (State.fld_setFld_ne s d h)
theorem devState_setDevState {d : Nat} (h : d < 8) : (s.setDevState d).devState = d :=
  (fld_of_regs (setDevState_regs s d)).trans ((State.fld_setFld_same s PM_STATE d (by decide) (by decide)).trans (Nat.mod_eq_of_lt h))
theorem boot_setStage {k : Nat} (h : k < 16) : (s.setStage k).boot = k :=
  (State.fld_setFld_same s BOOT_STAT k (by decide) (by decide)).trans (Nat.mod_eq_of_lt h)
theorem fld_setStage_ne {a hi lo : Nat} (k : Nat) (h : a ≠ BOOT_STAT) : (s.setStage k).fld a hi lo = s.fld a hi lo := State.fld_setFld_ne s k h
theorem fld_setStage_apart {hi lo : Nat} (k : Nat) (h : lo ≤ hi) (hhi : hi < 28) : (s.setStage k).fld BOOT_STAT hi lo = s.fld BOOT_STAT hi lo :=
  State.fld_setFld_apart s BOOT_STAT k (by decide) h (by omega) (.inl hhi)
theorem halt_halted {code : Nat} (h : code < 256) : (s.halt code).Halted code := by
  refine ⟨?_, ?_, devState_setDevState _ (by decide)⟩
  · exact (fld_setDevState_ne _ 2 (by decide)).trans ((State.fld_setFld_apart _ _ _ (by decide) (by decide) (by decide) (by decide)).trans
      (boot_setStage s (by decide)))
  · exact (fld_setDevState_ne _ 2 (by decide)).trans ((State.fld_setFld_same _ _ _ (by decide) (by decide)).trans (Nat.mod_eq_of_lt h))

theorem setStage_only (k : Nat) : s.setStage k = { s with regs := (s.setStage k).regs } := (State.RegsOnly.refl s).setFld.eq
theorem halt_vat (code : Nat) : (s.halt code).vat = s.vat := by
  obtain ⟨regs, hregs⟩ : s.RegsOnly (((s.setStage 0xF).setFld BOOT_STAT 23 16 code).setFld PM_STATE 31 29 2) :=
    (State.RegsOnly.refl s).setFld.setFld.setFld
  unfold State.halt State.setDevState
  rw [hregs]

theorem inStage_iff (k : Nat) : s.inStage k = true ↔ s.boot = k ∧ s.inReset = false ∧ s.inWarm = false ∧ s.devState ≠ 7 := by
  simp only [State.inStage, Bool.and_eq_true, beq_iff_eq, Bool.not_eq_true', bne_iff_ne, and_assoc]

/-! ## PORST_N (R622, R631) -/

theorem begin_boot : s.begin.boot = 0 :=
  (State.fld_setFld_ne (s.setStage 0) 1 (by decide : BOOT_STAT ≠ CLK_STAT)).trans (boot_setStage s (by decide))
theorem begin_backup : s.begin.rbit CLK_STAT 31 = true := State.rbit_setBit_same _ _ _ (by decide)
theorem begin_only : s.begin = { s with regs := s.begin.regs } := (State.RegsOnly.refl s).setFld.setBit.eq

theorem porstNAssertion_clears (h : s.tooHot = false) : Next (exec .porstNAssertion s) fun t =>
    t.inReset = true ∧ t.regs = [] ∧ t.fm = [] ∧ t.vat = [] ∧ t.hbm = [] ∧ t.strm = [] ∧ t.reg 0x040 = 0x7A310006 ∧ t.boot = 0 ∧
      t.pending = s.pending := by
  have hid : (regReset 0x040).toNat = 0x7A310006 := by decide
  have hboot : bits (regReset BOOT_STAT).toNat 31 28 = 0 := by decide
  exact ⟨s.cold, if_neg (by rw [h]; decide), rfl, rfl, rfl, rfl, rfl, rfl, hid, hboot, rfl⟩
theorem porstN_begins (hcool : s.tripReset ≠ 1) (hreset : s.inReset = true) : Next (exec .porstN s) fun t =>
    t.inReset = false ∧ t.boot = 0 ∧ t.rbit CLK_STAT 31 = true ∧ t.strm = [] ∧ t.pending = s.pending := by
  have hrun : exec .porstN s = .next { s.cold with inReset := false }.begin := by
    refine (if_neg hcool).trans (if_neg ?_)
    rw [hreset]
    decide
  have honly := begin_only { s.cold with inReset := false }
  refine ⟨_, hrun, ?_, begin_boot _, begin_backup _, ?_, ?_⟩
  · rw [honly]
  · rw [honly]
    rfl
  · rw [honly]
    rfl
theorem warmNRelease_begins (hcool : s.tripReset ≠ 3) (hwarm : s.inWarm = true) : Next (exec .warmNRelease s) fun t =>
    t.inWarm = false ∧ t.boot = 0 ∧ t.rbit CLK_STAT 31 = true ∧ t.hbm = s.hbm := by
  have hrun : exec .warmNRelease s = .next { s with inWarm := false }.begin := by
    refine (if_neg hcool).trans (if_neg ?_)
    rw [hwarm]
    decide
  have honly := begin_only { s with inWarm := false }
  refine ⟨_, hrun, ?_, begin_boot _, begin_backup _, ?_⟩
  · rw [honly]
  · rw [honly]

end

/-! ## What a warm reset writes before it clears (R637) -/

/-- The words of the rind alone are written, and the fault log's pointer stays in its range. -/
structure State.RindOnly (s t : State) : Prop where
  wf : Sp.wf regReset s.regs = true → Sp.wf regReset t.regs = true
  head : s.reg FLT_HEAD < 256 → t.reg FLT_HEAD < 256
  far : s.reg FLT_HEAD < 256 → ∀ a, 0x40000 ≤ a → t.reg a = s.reg a

namespace State.RindOnly
variable {s t : State}

theorem refl (s : State) : s.RindOnly s := ⟨id, id, fun _ _ _ => rfl⟩
theorem of_regs {u : State} (h : s.RindOnly t) (hregs : u.regs = t.regs) : s.RindOnly u where
  wf hs := hregs ▸ h.wf hs
  head hs := (reg_of_regs hregs).trans_lt (h.head hs)
  far hs a ha := (reg_of_regs hregs).trans (h.far hs a ha)
/-- A word of the rind is written; where it is the fault log's pointer, with a place of the log. -/
theorem setReg {a v : Nat} (h : s.RindOnly t) (ha : s.reg FLT_HEAD < 256 → a < 0x40000) (hhead : a = FLT_HEAD → v < 256) :
    s.RindOnly (t.setReg a v) where
  wf hs := Sp.wf_set _ (h.wf hs) _ _
  head hs := by
    by_cases heq : a = FLT_HEAD
    · rw [heq, State.reg_setReg_same]
      exact (Nat.mod_le _ _).trans_lt (hhead heq)
    · rw [State.reg_setReg_ne _ _ (Ne.symm heq)]
      exact h.head hs
  far hs b hb := by
    have hlt := ha hs
    rw [State.reg_setReg_ne _ _ (by omega)]
    exact h.far hs b hb
theorem setFld {a hi lo v : Nat} (h : s.RindOnly t) (ha : a < 0x40000) (hne : a ≠ FLT_HEAD) : s.RindOnly (t.setFld a hi lo v) :=
  h.setReg (fun _ => ha) fun heq => absurd heq hne
theorem setBit {a k : Nat} {b : Bool} (h : s.RindOnly t) (ha : a < 0x40000) (hne : a ≠ FLT_HEAD) : s.RindOnly (t.setBit a k b) := h.setFld ha hne
theorem bump {a hi lo k : Nat} (h : s.RindOnly t) (ha : a < 0x40000) (hne : a ≠ FLT_HEAD) : s.RindOnly (t.bump a hi lo k) := h.setFld ha hne
theorem ite {p : Prop} [Decidable p] {u : State} (ht : s.RindOnly t) (hu : s.RindOnly u) : s.RindOnly (if p then t else u) := by
  split
  · exact ht
  · exact hu
theorem foldl {α : Type} {f : State → α → State} {l : List α} (h : s.RindOnly t)
    (hf : ∀ u x, x ∈ l → s.RindOnly u → s.RindOnly (f u x)) : s.RindOnly (l.foldl f t) :=
  List.foldlRecOn (motive := fun u : State => s.RindOnly u) l f h fun u hu x hx => hf u x hx hu
theorem withLine {p : Nat} {u : State} (h : s.RindOnly t) : s.RindOnly (u.withLine p t) := .ite (h.of_regs rfl) h
theorem faultN {code : Nat} (h : s.RindOnly t) : s.RindOnly (t.faultN code) :=
  .ite ((h.setBit (a := FLT_STAT) (k := 31) (b := true) (by decide) (by decide)).of_regs (by with_reducible rfl)) h
theorem entry_lt {i w : Nat} (hi : i < 256) (hw : w < 4) : FLT_ENTRY i w < 0x40000 := by
  simp only [FLT_ENTRY, pg]
  omega
theorem entry_ne_head (i : Nat) {w : Nat} (hw : w < 4) : FLT_ENTRY i w ≠ FLT_HEAD := by
  simp only [FLT_ENTRY, FLT_HEAD, pg]
  omega
theorem log {code unit action info : Nat} (h : s.RindOnly t) : s.RindOnly (t.log code unit action info) := by
  unfold State.log
  refine withLine ?_
  extract_lets i s1 k full s2 s3
  have hentry {w : Nat} (hw : w < 4) {u : State} {v : Nat} (hu : s.RindOnly u) : s.RindOnly (u.setReg (FLT_ENTRY i w) v) :=
    hu.setReg (fun hs => entry_lt (h.head hs) hw) fun heq => absurd heq (entry_ne_head i hw)
  have h1 : s.RindOnly s1 := hentry (by decide) (hentry (by decide) (hentry (by decide) (hentry (by decide) h)))
  have h2 : s.RindOnly s2 := (h1.setReg (fun _ => by decide) fun _ => Nat.mod_lt _ (by decide)).bump (by decide) (by decide)
  have htail : FLT_TAIL ≠ FLT_HEAD := by decide
  have h3 : s.RindOnly s3 :=
    .ite (((h2.setReg (fun _ => by decide) (absurd · htail)).setBit (by decide) (by decide)).bump (by decide) (by decide)) h2
  split
  · refine faultN (h.bump (entry_lt (Nat.mod_lt _ (by decide)) (by decide)) (entry_ne_head _ (by decide)))
  · exact h3.faultN
theorem orphan {k : Nat} (h : s.RindOnly t) : s.RindOnly (t.orphan k) := by
  unfold State.orphan
  refine withLine ?_
  extract_lets _ s1
  have h1 : s.RindOnly s1 := h.of_regs rfl
  exact ((h1.setBit (by decide) (by decide)).bump (by decide) (by decide)).log
theorem mbxEnd {code : Nat} (h : s.RindOnly t) : s.RindOnly (t.mbxEnd code) := by
  unfold State.mbxEnd
  refine withLine ?_
  extract_lets s1
  have h1 : s.RindOnly s1 := ((h.setBit (by decide) (by decide)).setBit (by decide) (by decide)).setFld (by decide) (by decide)
  clear_value s1
  refine (h1.of_regs (by with_reducible rfl)).foldl fun u i hi hu => hu.setReg (fun _ => ?_) fun heq => absurd heq ?_
  · have := List.mem_range.mp hi
    simp only [MBX_ARG, pg]
    omega
  · have hi := List.mem_range.mp hi
    simp only [MBX_ARG, FLT_HEAD, pg]
    omega

end State.RindOnly

/-- What a warm reset settles first: the transactions, the mailbox, and the leaves of the folios that substitute. -/
def State.settled (s : State) : State :=
  let s0 := (List.range 4).foldl (fun s k => if (s.txn k).live then s.orphan k else s) s
  (if s0.rbit MBX_STAT 31 then s0.mbxEnd MBX_ORPHANED else s0).settleLeaves

/-- From s to t registers, transactions, messages, FAULT_N and the mailbox alone differ. -/
def State.Settles (s t : State) : Prop := ∃ regs txns msgs low mbx valid,
  t = { s with regs := regs, txns := txns, sideband := msgs, faultLow := low, mbx := mbx, mbxValid := valid }

namespace State.Settles
variable {s t : State}

theorem refl (s : State) : s.Settles s := ⟨_, _, _, _, _, _, rfl⟩
theorem setReg {a v : Nat} (h : s.Settles t) : s.Settles (t.setReg a v) := by
  obtain ⟨_, _, _, _, _, _, rfl⟩ := h
  exact ⟨_, _, _, _, _, _, rfl⟩
theorem setTxn {k : Nat} {x : Txn} (h : s.Settles t) : s.Settles (t.setTxn k x) := by
  obtain ⟨_, _, _, _, _, _, rfl⟩ := h
  exact ⟨_, _, _, _, _, _, rfl⟩
theorem freeMbx (h : s.Settles t) : s.Settles { t with mbx := none, mbxValid := true } := by
  obtain ⟨_, _, _, _, _, _, rfl⟩ := h
  exact ⟨_, _, _, _, _, _, rfl⟩
theorem withMsgs {b : List SbMsg} (h : s.Settles t) : s.Settles (t.withMsgs b) := by
  obtain ⟨_, _, _, _, _, _, rfl⟩ := h
  exact ⟨_, _, _, _, _, _, rfl⟩
theorem withLine {p : Nat} {u : State} (h : s.Settles t) : s.Settles (u.withLine p t) := by
  obtain ⟨b, hb⟩ := withLine_eq_withMsgs u p t
  rw [hb]
  exact h.withMsgs
theorem log {code unit action info : Nat} (h : s.Settles t) : s.Settles (t.log code unit action info) := by
  obtain ⟨_, _, _, hlog⟩ := State.LogOnly.log t code unit action info
  obtain ⟨_, _, _, _, _, _, rfl⟩ := h
  exact ⟨_, _, _, _, _, _, hlog⟩
theorem ite {p : Prop} [Decidable p] {u : State} (ht : s.Settles t) (hu : s.Settles u) : s.Settles (if p then t else u) := by
  split
  · exact ht
  · exact hu
theorem foldl {α : Type} {f : State → α → State} {l : List α} (h : s.Settles t) (hf : ∀ u x, s.Settles u → s.Settles (f u x)) :
    s.Settles (l.foldl f t) :=
  List.foldlRecOn (motive := fun u : State => s.Settles u) l f h fun u hu x _ => hf u x hu
theorem orphan {k : Nat} (h : s.Settles t) : s.Settles (t.orphan k) := h.setTxn.setReg.setReg.log.withLine
theorem mbxEnd {code : Nat} (h : s.Settles t) : s.Settles (t.mbxEnd code) :=
  (h.setReg.setReg.setReg.freeMbx.foldl fun _ _ hu => hu.setReg).withLine
theorem settleLeaves (h : s.Settles t) : s.Settles t.settleLeaves := h.foldl fun u p hu => by
  split
  · exact hu.setReg
  · exact hu

end State.Settles

section
variable (s : State)

theorem settled_settles : s.Settles s.settled := by
  have h0 := (State.Settles.refl s).foldl (l := List.range 4) (f := fun s k => if (s.txn k).live then s.orphan k else s)
    fun u k hu => .ite hu.orphan hu
  exact (State.Settles.ite h0.mbxEnd h0).settleLeaves
/-- Where no folio substitutes, what is settled lies in the rind. -/
theorem settled_rindOnly (h : s.substs = []) : s.RindOnly s.settled := by
  have hfold : s.RindOnly ((List.range 4).foldl (fun s k => if (s.txn k).live then s.orphan k else s) s) :=
    (State.RindOnly.refl s).foldl fun u k _ hu => .ite hu.orphan hu
  have hsettles : s.Settles ((List.range 4).foldl (fun s k => if (s.txn k).live then s.orphan k else s) s) :=
    (State.Settles.refl s).foldl fun u k hu => .ite hu.orphan hu
  have hsubsts (t : State) (ht : s.Settles t) : t.settleLeaves = t := by
    obtain ⟨_, _, _, _, _, _, rfl⟩ := ht
    rw [State.settleLeaves, h]
    rfl
  unfold State.settled
  rw [hsubsts _ (.ite hsettles.mbxEnd hsettles)]
  exact .ite hfold.mbxEnd hfold

/-! ## What a warm reset keeps (R637) -/

/-- A word whose kept bits are all of its bits reads as before. -/
theorem get_warmRegs {a : Nat} (ha : 0x40000 ≤ a) (hkept : BitVec.ofNat 32 (warmKept a) = BitVec.allOnes 32) {m : Sp Word}
    (hm : Sp.wf regReset m = true) : Sp.get regReset (warmRegs m) a = Sp.get regReset m a := by
  have hfrom : ∀ lo, Sp.wfFrom regReset lo m = true → Sp.get regReset (warmRegs m) a = Sp.get regReset m a := by
    clear hm
    induction m with
    | nil => exact fun _ _ => rfl
    | cons p m ih =>
      intro lo hlo
      obtain ⟨b, v⟩ := p
      simp only [Sp.wfFrom, Bool.and_eq_true, decide_eq_true_eq] at hlo
      obtain ⟨⟨-, hne⟩, hrest⟩ := hlo
      have ih' := ih _ hrest
      simp only [warmRegs, List.map_cons, List.filter_cons] at ih' ⊢
      by_cases hb : b = a
      · subst hb
        have hval : (v &&& BitVec.ofNat 32 (warmKept b)) ||| (regReset b &&& ~~~(BitVec.ofNat 32 (warmKept b))) = v := by
          rw [hkept, BitVec.and_allOnes, BitVec.not_allOnes, BitVec.and_zero, BitVec.or_zero]
        simp only [if_neg (Nat.not_lt.mpr ha), hval, hne, ne_eq, not_false_eq_true, decide_true, if_true, Sp.get]
      · generalize (if b < 0x40000 then v else _) = v'
        split
        · simpa only [Sp.get, hb, if_false] using ih'
        · simpa only [Sp.get, hb, if_false] using ih'
  exact hfrom 0 hm
theorem warmKept_of_tx {a : Nat} (h : (regSpec a).tx = regAll) : BitVec.ofNat 32 (warmKept a) = BitVec.allOnes 32 := by
  have hor (x : Nat) : BitVec.ofNat 32 (x ||| regAll) = BitVec.allOnes 32 := by
    have hall : BitVec.ofNat 32 regAll = BitVec.allOnes 32 := by decide
    rw [BitVec.ofNat_or, hall, BitVec.or_allOnes]
  have hhbm : (regSpec HBM_STAT).tx ≠ regAll := by decide
  unfold warmKept
  dsimp only
  split
  · decide
  · split
    · decide
    · split
      · next heq => exact absurd (heq ▸ h) hhbm
      · rw [h, hor]

/-- What a warm reset leaves. -/
theorem warm_fields : s.warm.inWarm = true ∧ s.warm.strm = [] ∧ s.warm.fm = [] ∧ s.warm.image = s.settled.image ∧
    s.warm.staged = s.settled.staged ∧ s.warm.scheds = s.settled.scheds ∧ s.warm.hbm = s.settled.hbm ∧ s.warm.saved = s.settled.saved := by
  unfold State.warm
  extract_lets s0 s1 reset hoop s2
  obtain ⟨regs, hregs⟩ : s2.RegsOnly ((s2.setReg BOOT_STAT (2 ^ 15)).setFld PM_STATE 31 29 0) := (State.RegsOnly.refl s2).setReg.setFld
  rw [hregs]
  exact ⟨rfl, rfl, rfl, rfl, rfl, rfl, rfl, rfl⟩
theorem warm_boot : s.warm.boot = 0 ∧ s.warm.rbit BOOT_STAT 15 = true := by
  unfold State.warm
  extract_lets s0 s1 reset hoop s2
  have hboot : bits (2 ^ 15 % 2 ^ 32) 31 28 = 0 := by decide
  have hwarm : bit (2 ^ 15 % 2 ^ 32) 15 = true := by decide
  constructor
  · rw [State.boot, State.fld_setFld_ne _ _ (by decide), State.fld, State.reg_setReg_same, hboot]
  · rw [State.rbit_setFld_ne _ _ (by decide), State.rbit, State.reg_setReg_same, hwarm]
theorem reg_warm {a : Nat} (ha : 0x40000 ≤ a) (htx : (regSpec a).tx = regAll) (hwf : Sp.wf regReset s.settled.regs = true) :
    s.warm.reg a = s.settled.reg a := by
  have hboot : a ≠ BOOT_STAT := by rintro rfl; exact absurd ha (by decide)
  have hstate : a ≠ PM_STATE := by rintro rfl; exact absurd ha (by decide)
  have hget := get_warmRegs ha (warmKept_of_tx htx) hwf
  unfold State.warm
  extract_lets s0 s1 reset hoop s2
  rw [State.reg_setFld_ne _ _ _ _ hstate, State.reg_setReg_ne _ _ hboot]
  exact congrArg BitVec.toNat hget

/-- The save of R636, where it runs. -/
def State.warmSave (s : State) (saved : Bool) : State :=
  if s.boot = 7 ∧ s.devState ≠ 7 then (if saved then s.saveTable else { s with saved := false })
  else if s.boot = 7 then { s with saved := false } else s
theorem warmAssert_eq (saved : Bool) : s.warmAssert saved = (s.warmSave saved).warm := rfl
theorem warmSave_of_unsaved : ∃ b, s.warmSave false = { s with saved := b } := by
  unfold State.warmSave
  split
  · exact ⟨false, rfl⟩
  · split
    · exact ⟨false, rfl⟩
    · exact ⟨s.saved, rfl⟩
theorem warmSave_steady (saved : Bool) : s.Steady false (s.warmSave saved) := by
  have hs := State.Steady.refl false s
  have hrow {u : State} {i : Nat} (hu : s.Steady false u) : s.Steady false ((if (u.str i).recordDue then u.writeRecord i else u).dropStep i) :=
    (State.Steady.ite hu.writeRecord hu).dropStep
  have hfold : s.Steady false (s.strIdx.foldl (fun s i => (if (s.str i).recordDue then s.writeRecord i else s).dropStep i) s) :=
    hs.foldl fun u i hu => hrow hu
  have htable : s.Steady false s.saveTable := by
    unfold State.saveTable
    extract_lets s1
    exact hfold.of_same rfl rfl rfl
  exact .ite (.ite htable (hs.of_same rfl rfl rfl)) (.ite (hs.of_same rfl rfl rfl) hs)
theorem warmSave_saved (hboot : s.boot = 7) (hdev : s.devState ≠ 7) : (s.warmSave true).saved = true := by
  rw [State.warmSave, if_pos ⟨hboot, hdev⟩]
  rfl
theorem warmN_keeps (saved : Bool) (hreset : s.inReset = false) (htrip : s.tripReset = 0) (hfuse : ¬(s.boot = 0xF ∧ s.fld BOOT_STAT 23 16 = 2))
    (hhot : s.tooHot = false) : Next (exec (.warmN saved) s) fun t =>
      t.inWarm = true ∧ t.boot = 0 ∧ t.rbit BOOT_STAT 15 = true ∧ t.strm = [] ∧ t.fm = [] ∧ t.image = s.image ∧ t.staged = s.staged ∧
      t.scheds = s.scheds ∧ (saved = false → t.hbm = s.hbm) ∧ (saved = true → s.boot = 7 → s.devState ≠ 7 → t.saved = true) ∧
      (Sp.wf regReset s.regs = true → s.reg FLT_HEAD < 256 → s.substs = [] → saved = false → ∀ a, 0x40000 ≤ a → (regSpec a).tx = regAll →
        t.reg a = s.reg a) := by
  have hrun : exec (.warmN saved) s = .next (s.warmSave saved).warm := by
    have hgo : ¬(s.inReset = true ∨ s.tripReset = 1 ∨ s.tripReset = 2 ∨ (s.boot = 0xF ∧ s.fld BOOT_STAT 23 16 = 2)) := by
      rw [hreset, htrip]
      simpa using hfuse
    exact (if_neg hgo).trans (if_neg (by rw [hhot]; decide))
  obtain ⟨hin, hstrm, hfm, himage, hstaged, hscheds, hhbm, hsaved⟩ := warm_fields (s.warmSave saved)
  obtain ⟨hboot, hwarm⟩ := warm_boot (s.warmSave saved)
  obtain ⟨regs, txns, msgs, low, mbx, valid, hsettles⟩ := settled_settles (s.warmSave saved)
  have hstill := (warmSave_steady s saved).still
  simp only [State.still, Prod.mk.injEq] at hstill
  obtain ⟨-, -, -, -, -, -, himage', hstaged', hscheds', -⟩ := hstill
  refine ⟨_, hrun, hin, hboot, hwarm, hstrm, hfm, himage.trans ?_, hstaged.trans ?_, hscheds.trans ?_, ?_, ?_, ?_⟩
  · rw [hsettles]
    exact himage'
  · rw [hsettles]
    exact hstaged'
  · rw [hsettles]
    exact hscheds'
  · rintro rfl
    obtain ⟨b, hb⟩ := warmSave_of_unsaved s
    rw [hhbm, hsettles, hb]
  · rintro rfl hseven hdev
    rw [hsaved, hsettles]
    exact warmSave_saved s hseven hdev
  · rintro hwf hhead hsubsts rfl a ha htx
    obtain ⟨b, hb⟩ := warmSave_of_unsaved s
    have hregs : (s.warmSave false).regs = s.regs := by rw [hb]
    have hrind : (s.warmSave false).RindOnly (s.warmSave false).settled := settled_rindOnly _ (by rw [hb]; exact hsubsts)
    rw [reg_warm _ ha htx (hrind.wf (by rw [hregs]; exact hwf)),
      hrind.far ((reg_of_regs hregs).trans_lt hhead) a ha, reg_of_regs hregs]

/-! ## RIND and FUSE (R631, R632) -/

theorem rind_moves (hst : s.inStage 0 = true) (href : s.refLost = false) : Next (exec .rind s) fun t =>
    t.boot = (if s.isWarm && s.image.isSome then 3 else 1) ∧ t.rbit CLK_STAT 31 = false ∧ t.fld BOOT_STAT 23 16 = 0 ∧
      t = { s with regs := t.regs } := by
  let u : State := (s.setBit CLK_STAT 31 false).setFld BOOT_STAT 23 16 0
  have hrun : exec .rind s = .next (u.setStage (if s.isWarm && s.image.isSome then 3 else 1)) := by
    refine (if_neg (by rw [hst]; decide)).trans (if_neg ?_)
    rw [href]
    decide
  have hstage : (if s.isWarm && s.image.isSome then 3 else 1) < 16 := by
    split <;> decide
  refine ⟨_, hrun, boot_setStage u hstage, ?_, ?_, ((State.RegsOnly.refl s).setBit.setFld).setFld.eq⟩
  · rw [State.setStage, State.rbit_setFld_ne _ _ (by decide), State.rbit_setFld_ne _ _ (by decide), State.rbit_setBit_same _ _ _ (by decide)]
  · rw [fld_setStage_apart _ _ (by decide) (by decide), State.fld_setFld_same _ _ _ (by decide) (by decide)]
    rfl
theorem fuse_agrees (hst : s.inStage 1 = true) : Next (exec (.fuse true) s) fun t =>
    t.boot = (if s.image.isSome then 3 else 2) ∧ t = { s with regs := t.regs } := by
  have hrun : exec (.fuse true) s = .next (s.setStage (if s.image.isSome then 3 else 2)) := if_neg (by rw [hst]; decide)
  have hstage : (if s.image.isSome then 3 else 2) < 16 := by
    split <;> decide
  exact ⟨_, hrun, boot_setStage s hstage, (State.RegsOnly.refl s).setFld.eq⟩
theorem fuse_disagrees (hst : s.inStage 1 = true) : Next (exec (.fuse false) s) (State.Halted 2) :=
  ⟨_, if_neg (by rw [hst]; decide), halt_halted s (by decide)⟩

/-! ## The newest entry of the fault log (R567, R569) -/

theorem reg_faultN_ne {a : Nat} (h : a ≠ FLT_STAT) (code : Nat) : (s.faultN code).reg a = s.reg a := by
  unfold State.faultN
  split
  · exact (reg_of_regs (s := s.setBit FLT_STAT 31 true) (by with_reducible rfl)).trans (State.reg_setBit_ne s true h)
  · rfl
theorem entry_ne_page {i w a : Nat} (hw : w < 4) (ha : a / 4096 = 8) : FLT_ENTRY i w ≠ a := by
  rintro rfl
  simp only [FLT_ENTRY, pg] at ha
  omega
theorem entry_ne_entry {i v w : Nat} (hne : v ≠ w) : FLT_ENTRY i v ≠ FLT_ENTRY i w := by
  simp only [FLT_ENTRY, pg]
  omega
/-- A new entry: its words, and the pointer behind it. -/
theorem log_newest {code unit action info : Nat} (hmerge : s.merges code unit action info = false) :
    (s.log code unit action info).reg FLT_HEAD = (s.reg FLT_HEAD + 1) % 256 ∧
    (s.log code unit action info).reg (FLT_ENTRY (s.reg FLT_HEAD) 2) = (code + unit * 256 + action * 65536) % 2 ^ 32 ∧
    (s.log code unit action info).reg (FLT_ENTRY (s.reg FLT_HEAD) 3) = info % 2 ^ 32 := by
  have htwo {a : Nat} (ha : a / 4096 = 8) : FLT_ENTRY (s.reg FLT_HEAD) 2 ≠ a := entry_ne_page (by decide) ha
  have hthree {a : Nat} (ha : a / 4096 = 8) : FLT_ENTRY (s.reg FLT_HEAD) 3 ≠ a := entry_ne_page (by decide) ha
  unfold State.log
  rw [State.reg_withLine, State.reg_withLine, State.reg_withLine]
  extract_lets i s1 k full s2 s3
  have h2 : s2.reg FLT_HEAD = (s.reg FLT_HEAD + 1) % 256 := by
    refine (State.reg_bump_ne _ 1 (by decide)).trans ((State.reg_setReg_same _ _ _).trans (Nat.mod_eq_of_lt ?_))
    omega
  have h2two : s2.reg (FLT_ENTRY (s.reg FLT_HEAD) 2) = (code + unit * 256 + action * 65536) % 2 ^ 32 :=
    (State.reg_bump_ne _ 1 (htwo (by decide))).trans ((State.reg_setReg_ne _ _ (htwo (by decide))).trans
      ((State.reg_setReg_ne _ _ (entry_ne_entry (by decide))).trans (State.reg_setReg_same _ _ _)))
  have h2three : s2.reg (FLT_ENTRY (s.reg FLT_HEAD) 3) = info % 2 ^ 32 :=
    (State.reg_bump_ne _ 1 (hthree (by decide))).trans ((State.reg_setReg_ne _ _ (hthree (by decide))).trans (State.reg_setReg_same _ _ _))
  have h3 {a : Nat} (htail : a ≠ FLT_TAIL) (hstat : a ≠ FLT_STAT) (hcnt : a ≠ FLT_CNT) : s3.reg a = s2.reg a := by
    unfold s3
    split
    · rw [State.reg_bump_ne _ 1 hcnt, State.reg_setBit_ne _ _ hstat, State.reg_setReg_ne _ _ htail]
    · rfl
  rw [hmerge, if_neg (by decide)]
  refine ⟨?_, ?_, ?_⟩
  · rw [reg_faultN_ne _ (by decide), h3 (by decide) (by decide) (by decide), h2]
  · rw [reg_faultN_ne _ (htwo (by decide)), h3 (htwo (by decide)) (htwo (by decide)) (htwo (by decide)), h2two]
  · rw [reg_faultN_ne _ (hthree (by decide)), h3 (hthree (by decide)) (hthree (by decide)) (hthree (by decide)), h2three]
/-- An event that merges counts in the newest entry, which tells it already. -/
theorem log_merged {code unit action info : Nat} (hmerge : s.merges code unit action info = true) :
    (s.log code unit action info).reg FLT_HEAD = s.reg FLT_HEAD ∧
    (s.log code unit action info).fld (FLT_ENTRY ((s.reg FLT_HEAD + 255) % 256) 2) 23 0 = code + unit * 256 + action * 65536 ∧
    (s.log code unit action info).reg (FLT_ENTRY ((s.reg FLT_HEAD + 255) % 256) 3) = info := by
  have htwo {a : Nat} (ha : a / 4096 = 8) : FLT_ENTRY ((s.reg FLT_HEAD + 255) % 256) 2 ≠ a := entry_ne_page (by decide) ha
  have hthree {a : Nat} (ha : a / 4096 = 8) : FLT_ENTRY ((s.reg FLT_HEAD + 255) % 256) 3 ≠ a := entry_ne_page (by decide) ha
  have hsame := hmerge
  simp only [State.merges, Bool.and_eq_true, beq_iff_eq, decide_eq_true_eq] at hsame
  obtain ⟨⟨hword, hinfo⟩, -⟩ := hsame
  unfold State.log
  rw [State.fld]
  simp only [State.reg_withLine]
  rw [hmerge, if_pos rfl]
  refine ⟨?_, ?_, ?_⟩
  · rw [reg_faultN_ne _ (by decide), State.reg_bump_ne _ 1 (htwo (by decide)).symm]
  · rw [reg_faultN_ne _ (htwo (by decide)), ← State.fld, State.fld_bump_apart _ _ _ (by decide) (by decide) (by decide) (by decide), State.fld, hword]
  · rw [reg_faultN_ne _ (hthree (by decide)), State.reg_bump_ne _ 1 (entry_ne_entry (by decide)), hinfo]
theorem log_logged {code unit action info : Nat} (hword : code + unit * 256 + action * 65536 < 2 ^ 24) (hinfo : info < 2 ^ 32) :
    Logged code unit action info s (s.log code unit action info) := by
  intro hhead i
  cases hmerge : s.merges code unit action info
  · obtain ⟨hnext, hnew, hlast⟩ := log_newest s hmerge
    have hi : i = s.reg FLT_HEAD := by
      unfold i
      omega
    rw [hi, State.fld, hnew, hlast, Nat.mod_eq_of_lt hinfo, bits_mod_two_pow (by decide) (by decide), bits]
    exact ⟨by simpa using hword, rfl⟩
  · obtain ⟨hkept, hold, hlast⟩ := log_merged s hmerge
    have hi : i = (s.reg FLT_HEAD + 255) % 256 := by
      unfold i
      rw [hkept]
    rw [hi]
    exact ⟨hold, hlast⟩
theorem log_faultLow {code unit action info : Nat} (h : assertsFaultN code = true) : (s.log code unit action info).faultLow = true := by
  have hline (p : Nat) (t : State) : (s.withLine p t).faultLow = t.faultLow := by
    obtain ⟨b, hb⟩ := withLine_eq_withMsgs s p t
    rw [hb]
    rfl
  have hfault (t : State) : (t.faultN code).faultLow = true := by
    unfold State.faultN
    rw [if_pos h]
  unfold State.log
  simp only [hline]
  split
  · exact hfault _
  · exact hfault _
theorem refWait_logs (hst : s.inStage 0 = true) : Next (exec .refWait s) fun t =>
    t.boot = 0 ∧ t.fld BOOT_STAT 23 16 = 1 ∧ t.faultLow = true ∧ Logged 0x48 0xB1 0 0 s t := by
  let u : State := s.setFld BOOT_STAT 23 16 1
  have hrun : exec .refWait s = .next (u.log 0x48 0xB1 0 0) := if_neg (by rw [hst]; decide)
  obtain ⟨hboot, -⟩ := (inStage_iff s 0).mp hst
  have hlogs : State.Unlogged BOOT_STAT := ⟨by decide, by decide⟩
  have hhead : u.reg FLT_HEAD = s.reg FLT_HEAD := State.reg_setFld_ne _ _ _ _ (by decide)
  refine ⟨_, hrun, ?_, ?_, log_faultLow u (by decide), ?_⟩
  · rw [State.boot, State.fld_log _ hlogs, State.fld_setFld_apart _ _ _ (by decide) (by decide) (by decide) (by decide)]
    exact hboot
  · rw [State.fld_log _ hlogs, State.fld_setFld_same _ _ _ (by decide) (by decide)]
    rfl
  · exact fun h => log_logged u (by decide) (by decide) (hhead.trans_lt h)

end

/-! ## Folios and banks powered up (R633) -/

/-- A word that powering up leaves: neither a folio's state or an exit's delay, nor what says which segments or banks are powered. -/
def Unpowered (a : Nat) : Prop := a / 4096 ≠ 3 ∧ a / 4096 ≠ 5 ∧ a / 4096 ≠ 0x140 ∧ ∀ n < 50, a ≠ FOLIO_FM_STAT n

theorem unpowered_of_page {a : Nat} (h : a / 4096 < 0x40 ∧ a / 4096 ≠ 3 ∧ a / 4096 ≠ 5 ∨ 0x140 < a / 4096) : Unpowered a := by
  refine ⟨by omega, by omega, by omega, ?_⟩
  rintro n hn rfl
  simp only [FOLIO_FM_STAT, pg] at h
  omega
theorem unpowered_vacant {k : Nat} (hk : k < 48) : Unpowered (FOLIO_VAC (k / 32)) := unpowered_of_page (by
  simp only [FOLIO_VAC, pg]
  omega)
theorem unpowered_leaf {k : Nat} (hk : k < 48) : Unpowered (SPN_LEAF k) := unpowered_of_page (by
  simp only [SPN_LEAF, pg]
  omega)
theorem unpowered_retired {n : Nat} (hn : n < 50) : Unpowered (FOLIO_RET (n / 32)) := unpowered_of_page (by
  simp only [FOLIO_RET, pg]
  omega)
theorem unpowered_fmPwr {n : Nat} (hn : n < 50) : Unpowered (FOLIO_FM_PWR n) := by
  refine ⟨?_, ?_, ?_, fun m _ => ?_⟩
  · simp only [FOLIO_FM_PWR, pg]
    omega
  · simp only [FOLIO_FM_PWR, pg]
    omega
  · simp only [FOLIO_FM_PWR, pg]
    omega
  · simp only [FOLIO_FM_PWR, FOLIO_FM_STAT, pg]
    omega

/-- The words that powering up leaves read alike. -/
def State.AlikeUnpowered (s t : State) : Prop := ∀ a, Unpowered a → t.reg a = s.reg a

section
variable {s t : State}

theorem State.AlikeUnpowered.trans {u : State} (h : s.AlikeUnpowered t) (h' : t.AlikeUnpowered u) : s.AlikeUnpowered u :=
  fun a ha => (h' a ha).trans (h a ha)
theorem rbit_of_reg {a k : Nat} (h : t.reg a = s.reg a) : t.rbit a k = s.rbit a k := congrArg (fun v => bit v k) h
theorem State.AlikeUnpowered.vacant (h : s.AlikeUnpowered t) {k : Nat} (hk : k < 48) : t.vacant k = s.vacant k :=
  rbit_of_reg (h _ (unpowered_vacant hk))
theorem State.AlikeUnpowered.logical (h : s.AlikeUnpowered t) (n : Nat) : t.logical n = s.logical n := by
  have hall : ∀ l : List Nat, (∀ k ∈ l, k < 48) →
      l.find? (fun k => t.phys k == n && !t.vacant k) = l.find? (fun k => s.phys k == n && !s.vacant k) := by
    intro l hl
    refine List.find?_congr fun k hk => ?_
    have hphys : t.phys k = s.phys k := congrArg (fun v => bits v 5 0) (h _ (unpowered_leaf (hl k hk)))
    rw [hphys, h.vacant (hl k hk)]
  exact hall (List.range 48) fun k hk => List.mem_range.mp hk
theorem State.AlikeUnpowered.retired (h : s.AlikeUnpowered t) {n : Nat} (hn : n < 50) : t.retired n = s.retired n :=
  rbit_of_reg (h _ (unpowered_retired hn))
theorem State.AlikeUnpowered.short (h : s.AlikeUnpowered t) : t.short = s.short := by
  have hall : ∀ l : List Nat, (∀ k ∈ l, k < 48) → l.any t.vacant = l.any s.vacant := by
    intro l
    induction l with
    | nil => exact fun _ => rfl
    | cons k l ih =>
      intro hl
      rw [List.any_cons, List.any_cons, h.vacant (hl k List.mem_cons_self), ih fun j hj => hl j (List.mem_cons_of_mem _ hj)]
  exact hall (List.range 48) fun k hk => List.mem_range.mp hk
end

section
variable (s : State)

/-- The state in which bring-up leaves folio n: F1 where it serves an index, else F4. -/
def State.upState (s : State) (n : Nat) : Nat := if (s.logical n).isSome && !s.retired n then 1 else 4
/-- Folio n powered up. -/
def State.upFolio (s : State) (n : Nat) : State :=
  ((s.setFolioState n (s.upState n)).setReg (FOLIO_FM_STAT n) (s.reg (FOLIO_FM_PWR n))).loseMems n
/-- The banks powered as the map asks, where they have not failed. -/
def State.upBank (s : State) (i : Nat) : State := s.setReg (VAT_STAT i) (s.reg (VAT_PWR i) - (s.reg (VAT_PWR i) &&& s.reg (VAT_FAIL i)))
/-- Context k of the device, idle or off. -/
def State.upCtx (s : State) (k : Nat) : State :=
  s.setCtx (k / 4) (k % 4) { Ctx.reset with st := if s.ctxEn (k / 4) (k % 4) then .idle else .off }
theorem powerUp_eq : s.powerUp = (List.range 200).foldl State.upCtx
    (((List.range 3).foldl State.upBank ((List.range 50).foldl State.upFolio s)).wipe 6 0 (2 ^ 26)) := rfl

theorem wipe_leaves (m k len : Nat) : (s.wipe m k len).regs = s.regs ∧ (s.wipe m k len).heldWrites = s.heldWrites ∧
    (m ≠ 0 → (s.wipe m k len).fm = s.fm) := by
  unfold State.wipe State.setMem
  split
  · exact ⟨rfl, rfl, fun h => absurd rfl h⟩
  · exact ⟨rfl, rfl, fun _ => rfl⟩
  · exact ⟨rfl, rfl, fun _ => rfl⟩
  · exact ⟨rfl, rfl, fun _ => rfl⟩
  · exact ⟨rfl, rfl, fun _ => rfl⟩
  · exact ⟨rfl, rfl, fun _ => rfl⟩
  · exact ⟨rfl, rfl, fun _ => rfl⟩
theorem wipe_zero_fm (k len : Nat) : (s.wipe 0 k len).fm = Sp.erase s.fm k len := rfl
theorem wipe_vat (k len : Nat) : (s.wipe 6 k len).vat = Sp.erase s.vat k len := rfl
theorem wipes_leave (n : Nat) {l : List Nat} (hl : ∀ m ∈ l, m ≠ 0) :
    let t := l.foldl (fun s m => s.wipe m (n * memSpan m) (memSpan m)) s
    t.regs = s.regs ∧ t.heldWrites = s.heldWrites ∧ t.fm = s.fm :=
  List.foldlRecOn (motive := fun u : State => u.regs = s.regs ∧ u.heldWrites = s.heldWrites ∧ u.fm = s.fm) l _ ⟨rfl, rfl, rfl⟩
    fun u hu m hm => by
      obtain ⟨hregs, hheld, hfm⟩ := wipe_leaves u m (n * memSpan m) (memSpan m)
      exact ⟨hregs.trans hu.1, hheld.trans hu.2.1, (hfm (hl m hm)).trans hu.2.2⟩
theorem loseMems_eq (n : Nat) :
    s.loseMems n = [1, 2, 3, 4, 5].foldl (fun s m => s.wipe m (n * memSpan m) (memSpan m)) (s.wipe 0 (n * 2 ^ 20) (2 ^ 20)) := by
  have hrange : List.range 6 = [0, 1, 2, 3, 4, 5] := rfl
  have hspan : memSpan 0 = 2 ^ 20 := rfl
  rw [State.loseMems, hrange, List.foldl_cons, hspan]
theorem loseMems_leaves (n : Nat) : (s.loseMems n).regs = s.regs ∧ (s.loseMems n).heldWrites = s.heldWrites ∧
    (s.loseMems n).fm = Sp.erase s.fm (n * 2 ^ 20) (2 ^ 20) := by
  obtain ⟨hregs, hheld, hfm⟩ := wipes_leave (s.wipe 0 (n * 2 ^ 20) (2 ^ 20)) n (l := [1, 2, 3, 4, 5]) (by decide)
  obtain ⟨hregs0, hheld0, -⟩ := wipe_leaves s 0 (n * 2 ^ 20) (2 ^ 20)
  rw [loseMems_eq]
  exact ⟨hregs.trans hregs0, hheld.trans hheld0, hfm.trans (wipe_zero_fm s _ _)⟩
theorem loseMems_regs (n : Nat) : (s.loseMems n).regs = s.regs := (loseMems_leaves s n).1
theorem loseMems_fm (n : Nat) : (s.loseMems n).fm = Sp.erase s.fm (n * 2 ^ 20) (2 ^ 20) := (loseMems_leaves s n).2.2
theorem byte_loseMems (n a : Nat) : (s.loseMems n).fm.byte a =
    if n * 2 ^ 20 ≤ a ∧ a < n * 2 ^ 20 + 2 ^ 20 then 0 else s.fm.byte a := by
  rw [loseMems_fm]
  split
  · next hin => exact Sp.get_erase_in _ _ _ _ hin
  · next hout => exact Sp.get_erase_out _ _ _ _ (by omega)

theorem reg_upFolio_ne {n a : Nat} (hstate : a ≠ PM_FOLIO_STATE (n / 8)) (hstat : a ≠ FOLIO_FM_STAT n) : (s.upFolio n).reg a = s.reg a :=
  (reg_of_regs (loseMems_regs _ n)).trans ((State.reg_setReg_ne _ _ hstat).trans (State.reg_setFld_ne _ _ _ _ hstate))
theorem upFolio_alike {n : Nat} (hn : n < 50) : s.AlikeUnpowered (s.upFolio n) := fun a ha => by
  refine reg_upFolio_ne s ?_ (ha.2.2.2 n hn)
  rintro rfl
  refine ha.1 ?_
  simp only [PM_FOLIO_STATE, pg]
  omega
theorem folioState_ne_fmStat {m n : Nat} (hm : m < 50) : PM_FOLIO_STATE (m / 8) ≠ FOLIO_FM_STAT n := by
  simp only [PM_FOLIO_STATE, FOLIO_FM_STAT, pg]
  omega
theorem folioState_of_reg {t : State} {n : Nat} (h : t.reg (PM_FOLIO_STATE (n / 8)) = s.reg (PM_FOLIO_STATE (n / 8))) :
    t.folioState n = s.folioState n := congrArg (fun v => bits v (4 * (n % 8) + 3) (4 * (n % 8))) h
theorem folioState_setFolioState_same {n v : Nat} (hv : v < 16) : (s.setFolioState n v).folioState n = v := by
  rw [State.folioState, State.setFolioState, State.fld_setFld_same _ _ _ (by omega) (by omega)]
  refine Nat.mod_eq_of_lt (hv.trans_le ?_)
  rw [Nat.add_sub_cancel_left]
  decide
theorem folioState_setFolioState_ne {n m : Nat} (v : Nat) (h : m ≠ n) : (s.setFolioState n v).folioState m = s.folioState m := by
  rw [State.folioState, State.setFolioState]
  by_cases hword : m / 8 = n / 8
  · rw [hword, State.fld_setFld_apart _ _ _ (by omega) (by omega) (by omega) (by omega), State.folioState, hword]
  · rw [State.fld_setFld_ne _ _ (by simp only [PM_FOLIO_STATE, pg]; omega), State.folioState]
theorem folioState_upFolio_same {n : Nat} (hn : n < 50) : (s.upFolio n).folioState n = s.upState n := by
  have hstate : s.upState n < 16 := by
    unfold State.upState
    split <;> decide
  have hreg : (s.upFolio n).reg (PM_FOLIO_STATE (n / 8)) = (s.setFolioState n (s.upState n)).reg (PM_FOLIO_STATE (n / 8)) :=
    (reg_of_regs (loseMems_regs _ n)).trans (State.reg_setReg_ne _ _ (folioState_ne_fmStat hn))
  exact (folioState_of_reg _ hreg).trans (folioState_setFolioState_same s hstate)
theorem folioState_upFolio_ne {n m : Nat} (hm : m < 50) (h : m ≠ n) : (s.upFolio n).folioState m = s.folioState m := by
  have hreg : (s.upFolio n).reg (PM_FOLIO_STATE (m / 8)) = (s.setFolioState n (s.upState n)).reg (PM_FOLIO_STATE (m / 8)) :=
    (reg_of_regs (loseMems_regs _ n)).trans (State.reg_setReg_ne _ _ (folioState_ne_fmStat hm))
  exact (folioState_of_reg _ hreg).trans (folioState_setFolioState_ne s _ h)
theorem fmStat_upFolio_same (n : Nat) : (s.upFolio n).reg (FOLIO_FM_STAT n) = s.reg (FOLIO_FM_PWR n) := by
  refine (reg_of_regs (loseMems_regs _ n)).trans ((State.reg_setReg_same _ _ _).trans ?_)
  exact Nat.mod_eq_of_lt (reg_lt s _)
theorem fmStat_upFolio_ne {n m : Nat} (hn : n < 50) (h : m ≠ n) : (s.upFolio n).reg (FOLIO_FM_STAT m) = s.reg (FOLIO_FM_STAT m) :=
  reg_upFolio_ne s (folioState_ne_fmStat hn).symm (by simp only [FOLIO_FM_STAT, pg]; omega)
theorem byte_upFolio (n a : Nat) : (s.upFolio n).fm.byte a = if n * 2 ^ 20 ≤ a ∧ a < n * 2 ^ 20 + 2 ^ 20 then 0 else s.fm.byte a :=
  byte_loseMems _ n a

/-- What powering up leaves of one folio: its state, its segments, its memory. -/
structure State.Up (s : State) (n : Nat) (t : State) : Prop where
  state : t.folioState n = s.upState n
  stat : t.reg (FOLIO_FM_STAT n) = s.reg (FOLIO_FM_PWR n)
  zero : ∀ a < 2 ^ 20, t.fm.byte (n * 2 ^ 20 + a) = 0

theorem up_of_alike {t u : State} {n : Nat} (hn : n < 50) (halike : s.AlikeUnpowered t) (h : t.Up n u) : s.Up n u where
  state := h.state.trans (by rw [State.upState, halike.logical, halike.retired hn, ← State.upState])
  stat := h.stat.trans (halike _ (unpowered_fmPwr hn))
  zero := h.zero
/-- Every folio of a list is powered up, and what the list does not name stays. -/
theorem upFolios {l : List Nat} (hnodup : l.Nodup) (hl : ∀ n ∈ l, n < 50) : s.AlikeUnpowered (l.foldl State.upFolio s) ∧
    (∀ n ∈ l, s.Up n (l.foldl State.upFolio s)) ∧
    ∀ n, n < 50 → n ∉ l → (l.foldl State.upFolio s).folioState n = s.folioState n ∧
      (l.foldl State.upFolio s).reg (FOLIO_FM_STAT n) = s.reg (FOLIO_FM_STAT n) ∧
      ∀ a, s.fm.byte a = 0 → (l.foldl State.upFolio s).fm.byte a = 0 := by
  induction l generalizing s with
  | nil => exact ⟨fun _ _ => rfl, nofun, fun n _ _ => ⟨rfl, rfl, fun _ => id⟩⟩
  | cons m l ih =>
    obtain ⟨hm, hrest⟩ := List.nodup_cons.mp hnodup
    have hm50 : m < 50 := hl m List.mem_cons_self
    obtain ⟨halike, hup, hkept⟩ := ih (s.upFolio m) hrest fun n hn => hl n (List.mem_cons_of_mem _ hn)
    have hfirst := upFolio_alike s hm50
    rw [List.foldl_cons]
    refine ⟨hfirst.trans halike, fun n hn => ?_, fun n hn hout => ?_⟩
    · by_cases heq : n = m
      · subst heq
        obtain ⟨hstate, hstat, hzero⟩ := hkept n hm50 hm
        refine ⟨hstate.trans (folioState_upFolio_same s hm50), hstat.trans (fmStat_upFolio_same s n), fun a ha => hzero _ ?_⟩
        have hin : n * 2 ^ 20 ≤ n * 2 ^ 20 + a ∧ n * 2 ^ 20 + a < n * 2 ^ 20 + 2 ^ 20 := by omega
        exact (byte_upFolio s n _).trans (if_pos hin)
      · have hin : n ∈ l := (List.mem_cons.mp hn).resolve_left heq
        exact up_of_alike s (hl n hn) hfirst (hup n hin)
    · have hne : n ≠ m := fun heq => hout (heq ▸ List.mem_cons_self)
      obtain ⟨hstate, hstat, hzero⟩ := hkept n hn fun hin => hout (List.mem_cons_of_mem _ hin)
      refine ⟨hstate.trans (folioState_upFolio_ne s hn hne), hstat.trans (fmStat_upFolio_ne s hm50 hne), fun a ha => hzero a ?_⟩
      rw [byte_upFolio, ha, ite_self]

/-- The contexts start idle or off; nothing else differs. -/
theorem upCtxs_only (l : List Nat) : l.foldl State.upCtx s = { s with ctxs := (l.foldl State.upCtx s).ctxs } :=
  List.foldlRecOn (motive := fun u : State => u = { s with ctxs := u.ctxs }) l _ rfl fun u hu k _ => by
    rw [hu]
    rfl
theorem upBanks_regsOnly (l : List Nat) : s.RegsOnly (l.foldl State.upBank s) :=
  List.foldlRecOn (motive := fun u : State => s.RegsOnly u) l _ (.refl s) fun u hu k _ => hu.setReg
theorem reg_upBanks (l : List Nat) {a : Nat} (ha : a / 4096 ≠ 0x140) (hl : ∀ i ∈ l, i < 3) : (l.foldl State.upBank s).reg a = s.reg a :=
  List.foldlRecOn (motive := fun u : State => u.reg a = s.reg a) l _ rfl fun u hu i hi => by
    have hlt := hl i hi
    refine (State.reg_setReg_ne _ _ ?_).trans hu
    rintro rfl
    refine ha ?_
    simp only [VAT_STAT, pg]
    omega
theorem upFolios_held (l : List Nat) : (l.foldl State.upFolio s).heldWrites = s.heldWrites :=
  List.foldlRecOn (motive := fun u : State => u.heldWrites = s.heldWrites) l _ rfl fun u hu n _ =>
    (loseMems_leaves _ n).2.1.trans hu

/-- The state before the contexts start: the folios and banks powered, the vat zero. -/
def State.upMems (s : State) : State := ((List.range 3).foldl State.upBank ((List.range 50).foldl State.upFolio s)).wipe 6 0 (2 ^ 26)
theorem powerUp_upMems : s.powerUp.regs = s.upMems.regs ∧ s.powerUp.fm = s.upMems.fm ∧ s.powerUp.vat = s.upMems.vat ∧
    s.powerUp.heldWrites = s.upMems.heldWrites := by
  have honly := upCtxs_only s.upMems (List.range 200)
  rw [powerUp_eq, ← State.upMems, honly]
  with_reducible exact ⟨rfl, rfl, rfl, rfl⟩
theorem reg_upMems {a : Nat} (ha : a / 4096 ≠ 0x140) : s.upMems.reg a = ((List.range 50).foldl State.upFolio s).reg a := by
  obtain ⟨hregs, -, -⟩ := wipe_leaves ((List.range 3).foldl State.upBank ((List.range 50).foldl State.upFolio s)) 6 0 (2 ^ 26)
  exact (reg_of_regs hregs).trans (reg_upBanks _ _ ha fun i hi => List.mem_range.mp hi)
theorem upMems_fm : s.upMems.fm = ((List.range 50).foldl State.upFolio s).fm := by
  obtain ⟨-, -, hfm⟩ := wipe_leaves ((List.range 3).foldl State.upBank ((List.range 50).foldl State.upFolio s)) 6 0 (2 ^ 26)
  obtain ⟨regs, hbanks⟩ := upBanks_regsOnly ((List.range 50).foldl State.upFolio s) (List.range 3)
  exact (hfm (by decide)).trans (by rw [hbanks])
theorem upMems_held : s.upMems.heldWrites = s.heldWrites := by
  obtain ⟨-, hheld, -⟩ := wipe_leaves ((List.range 3).foldl State.upBank ((List.range 50).foldl State.upFolio s)) 6 0 (2 ^ 26)
  obtain ⟨regs, hbanks⟩ := upBanks_regsOnly ((List.range 50).foldl State.upFolio s) (List.range 3)
  refine hheld.trans (Eq.trans ?_ (upFolios_held s (List.range 50)))
  rw [hbanks]

theorem powerUp_alike : s.AlikeUnpowered s.powerUp := fun a ha => by
  obtain ⟨halike, -, -⟩ := upFolios s List.nodup_range fun n hn => List.mem_range.mp hn
  exact (reg_of_regs (powerUp_upMems s).1).trans ((reg_upMems s ha.2.2.1).trans (halike a ha))
theorem powerUp_up {n : Nat} (hn : n < 50) : s.Up n s.powerUp := by
  obtain ⟨-, hup, -⟩ := upFolios s List.nodup_range fun n hn => List.mem_range.mp hn
  obtain ⟨hstate, hstat, hzero⟩ := hup n (List.mem_range.mpr hn)
  have hstatePage : PM_FOLIO_STATE (n / 8) / 4096 ≠ 0x140 := by
    simp only [PM_FOLIO_STATE, pg]
    omega
  have hstatPage : FOLIO_FM_STAT n / 4096 ≠ 0x140 := by
    simp only [FOLIO_FM_STAT, pg]
    omega
  obtain ⟨hregs, hfm, -, -⟩ := powerUp_upMems s
  refine ⟨(folioState_of_reg _ ((reg_of_regs hregs).trans (reg_upMems s hstatePage))).trans hstate,
    (reg_of_regs hregs).trans ((reg_upMems s hstatPage).trans hstat), fun a ha => ?_⟩
  rw [hfm, upMems_fm]
  exact hzero a ha
theorem powerUp_vat {a : Nat} (ha : a < 2 ^ 26) : s.powerUp.vat.byte a = 0 := by
  obtain ⟨-, -, hvat, -⟩ := powerUp_upMems s
  have herase : s.upMems.vat = Sp.erase _ 0 (2 ^ 26) := wipe_vat _ 0 (2 ^ 26)
  rw [hvat, herase]
  exact Sp.get_erase_in _ _ _ _ ⟨Nat.zero_le a, by rwa [Nat.zero_add]⟩
theorem powerUp_held : s.powerUp.heldWrites = s.heldWrites := by
  exact (powerUp_upMems s).2.2.2.trans (upMems_held s)

/-! ## Folios and banks that fail in bring-up (R634) -/

end

namespace State.Steady
variable {live : Bool} {s t : State}

theorem wipe {m k len : Nat} (h : s.Steady live t) : s.Steady live (t.wipe m k len) := by
  have hmem : (t.wipe m k len).still = t.still ∧ (t.wipe m k len).strm = t.strm := by
    unfold State.wipe State.setMem
    split <;> exact ⟨rfl, rfl⟩
  exact h.of_same (wipe_leaves t m k len).1 hmem.1 hmem.2
theorem setFolioState {n v : Nat} (h : s.Steady live t) (hn : n < 50) : s.Steady live (t.setFolioState n v) := h.setFld (not_steady_of_page (by
  have hpage : PM_FOLIO_STATE (n / 8) / 4096 = 3 := by
    simp only [PM_FOLIO_STATE, pg]
    omega
  rw [hpage]
  decide))
theorem powerUp (h : s.Steady live t) : s.Steady live t.powerUp := by
  have hfolio {u : State} {n : Nat} (hu : s.Steady live u) (hn : n < 50) : s.Steady live (u.upFolio n) := by
    refine State.Steady.foldl (State.Steady.setReg (hu.setFolioState hn) (folioWord_not_steady ?_ ?_)) fun _ _ hv => hv.wipe
    · simp only [FOLIO_FM_STAT, pg]
      omega
    · simp only [FOLIO_FM_STAT, pg]
      omega
  have hbank {u : State} {i : Nat} (hu : s.Steady live u) (hi : i < 3) : s.Steady live (u.upBank i) := hu.setReg (not_steady_of_page (by
    have hpage : VAT_STAT i / 4096 = 0x140 := by
      simp only [VAT_STAT, pg]
      omega
    rw [hpage]
    decide))
  have hfolios : s.Steady live ((List.range 50).foldl State.upFolio t) :=
    List.foldlRecOn (motive := fun u : State => s.Steady live u) _ _ h fun u hu n hn => hfolio hu (List.mem_range.mp hn)
  have hbanks : s.Steady live ((List.range 3).foldl State.upBank ((List.range 50).foldl State.upFolio t)) :=
    List.foldlRecOn (motive := fun u : State => s.Steady live u) _ _ hfolios fun u hu i hi => hbank hu (List.mem_range.mp hi)
  rw [powerUp_eq]
  exact hbanks.wipe.foldl fun _ _ hu => hu.setCtx
theorem bootRetire {failed n : Nat} (h : s.Steady live t) (hn : n < 50) : s.Steady live (t.bootRetire failed n) := by
  have hret : FOLIO_RET (n / 32) ∉ steadyWords := not_steady_of_page (by
    have hpage : FOLIO_RET (n / 32) / 4096 = 0xB := by
      simp only [FOLIO_RET, pg]
      omega
    rw [hpage]
    decide)
  have hspare : SPARE_STAT ∉ steadyWords := not_steady_of_page (by decide)
  unfold State.bootRetire
  split
  · exact h
  · extract_lets s1 spend
    have h1 : s.Steady live s1 := (h.setBit hret).setFolioState hn
    split
    · exact (h1.setFld hspare).log
    · next k hk =>
      have hlt : k < 48 := List.mem_range.mp (List.mem_of_find?_eq_some hk)
      have hleaf : SPN_LEAF k ∉ steadyWords := not_steady_of_page (by
        have hpage : SPN_LEAF k / 4096 = 0x190 := by
          simp only [SPN_LEAF, pg]
          omega
        rw [hpage]
        decide)
      have hvac : FOLIO_VAC (k / 32) ∉ steadyWords := not_steady_of_page (by
        have hpage : FOLIO_VAC (k / 32) / 4096 = 0xB := by
          simp only [FOLIO_VAC, pg]
          omega
        rw [hpage]
        decide)
      split
      · exact (State.Steady.setFld (h1.setFld hleaf) hspare).log
      · exact (h1.log.setBit hvac).log
theorem bootFails {failed banks : Nat} (h : s.Steady false t) : s.Steady false (t.bootFails failed banks) := by
  have hfolios : s.Steady false (((List.range 50).filter (fun n => bit failed n)).foldl (fun s n => s.bootRetire failed n) t) :=
    List.foldlRecOn (motive := fun u : State => s.Steady false u) _ _ h fun u hu n hn =>
      hu.bootRetire (List.mem_range.mp (List.mem_filter.mp hn).1)
  exact List.foldlRecOn (motive := fun u : State => s.Steady false u) _ _ hfolios fun u hu b hb =>
    hu.failBank (List.mem_range.mp (List.mem_filter.mp hb).1)

end State.Steady

section
variable (s : State)

theorem bootFails_none : s.bootFails 0 0 = s := by
  have hbit (k : Nat) : bit 0 k = false := by rw [bit_eq_testBit, Nat.zero_testBit]
  have hfolios : (List.range 50).filter (fun n => bit 0 n) = [] := List.filter_eq_nil_iff.mpr fun n _ => by rw [hbit]; decide
  have hbanks : (List.range 80).filter (fun b => bit 0 b && !s.rbit (VAT_FAIL (b / 32)) (b % 32)) = [] :=
    List.filter_eq_nil_iff.mpr fun b _ => by rw [hbit, Bool.false_and]; decide
  unfold State.bootFails
  rw [hfolios]
  exact congrArg (fun l : List Nat => l.foldl (fun s b => s.failBank b) s) hbanks

theorem release_none (mine : Nat → Bool) (h : s.heldWrites = []) : s.release mine = s := by
  have hnone (p : Nat × Nat × Nat → Bool) : s.heldWrites.filter p = s.heldWrites := by rw [h]; rfl
  unfold State.release
  rw [hnone, hnone]
  exact congrArg (fun l : List (Nat × Nat × Nat) => l.foldl _ s) h

/-! ## POWER and TEST (R633, R634) -/

/-- The delays that firmware gives, where an image is verified. -/
def State.delayed (s : State) : State := match s.image with | some f => s.applyDelays f | none => s
theorem delayed_leaves : s.AlikeUnpowered s.delayed ∧ s.RegsOnly s.delayed := by
  have hset {α : Type} (f : Nat → Nat) (v : α → Nat) {k : Nat} (hf : ∀ j < k, f j / 4096 = 5) (l : List α) (u : State)
      (hu : s.AlikeUnpowered u ∧ s.RegsOnly u) :
      s.AlikeUnpowered (((List.range k).zip l).foldl (fun s p => s.setReg (f p.1) (v p.2)) u) ∧
        s.RegsOnly (((List.range k).zip l).foldl (fun s p => s.setReg (f p.1) (v p.2)) u) :=
    List.foldlRecOn (motive := fun u : State => s.AlikeUnpowered u ∧ s.RegsOnly u) _ _ hu fun u hu p hp => by
      have hpage : f p.1 / 4096 = 5 := hf _ (List.mem_range.mp (List.of_mem_zip hp).1)
      refine ⟨fun a ha => (State.reg_setReg_ne _ _ ?_).trans (hu.1 a ha), hu.2.setReg⟩
      rintro rfl
      exact ha.2.1 hpage
  unfold State.delayed
  split
  · next f _ =>
    refine hset PM_ENTRY_TBL BitVec.toNat (fun j hj => ?_) _ _
      (hset (fun j => PM_EXIT_TBL (j + 1)) BitVec.toNat (fun j hj => ?_) _ _ ⟨fun _ _ => rfl, .refl s⟩)
    · simp only [PM_ENTRY_TBL, pg]
      omega
    · simp only [PM_EXIT_TBL, pg]
      omega
  · exact ⟨fun _ _ => rfl, .refl s⟩

theorem power_due {failed : BitVec 50} {banks : BitVec 80} {fabric : Bool} (hst : s.inStage 3 = true)
    (hrails : ∀ r ∈ s.railsOut, r = .rind ∨ ∃ n, r = .folioReg n) : exec (.power failed banks fabric) s =
      if fabric then .next ((s.delayed.log 0x4C 0x40 0 0).halt 4)
      else if ((s.delayed.bootFails failed.toNat banks.toNat).powerUp).short then
        .next (((s.delayed.bootFails failed.toNat banks.toNat).powerUp).halt 5)
      else .next ((((s.delayed.bootFails failed.toNat banks.toNat).powerUp).setStage 4).release (fun p => decide (0x040 ≤ p))) := by
  have hnone : s.railsOut.any (fun r => match r with | .rind => false | .folioReg _ => false | _ => true) = false :=
    List.any_eq_false.mpr fun r hr => by
      rcases hrails r hr with rfl | ⟨n, rfl⟩
      · decide
      · exact Bool.false_ne_true
  refine (if_neg (by rw [hst]; decide)).trans (if_neg ?_)
  exact fun h => absurd (h.symm.trans hnone) (by decide)
theorem power_of_fabric {failed : BitVec 50} {banks : BitVec 80} (hst : s.inStage 3 = true)
    (hrails : ∀ r ∈ s.railsOut, r = .rind ∨ ∃ n, r = .folioReg n) : Next (exec (.power failed banks true) s) (State.Halted 4) :=
  ⟨_, power_due s hst hrails, halt_halted _ (by decide)⟩
theorem power_powers (hst : s.inStage 3 = true) (hrails : ∀ r ∈ s.railsOut, r = .rind ∨ ∃ n, r = .folioReg n) (hshort : s.short = false)
    (hheld : s.heldWrites = []) : Next (exec (.power 0 0 false) s) fun t => t.boot = 4 ∧ (∀ a < 2 ^ 26, t.vat.byte a = 0) ∧
      ∀ n : Fin 50, t.folioState n.val = (if (s.logical n.val).isSome && !s.retired n.val then 1 else 4) ∧
        t.reg (FOLIO_FM_STAT n.val) = s.reg (FOLIO_FM_PWR n.val) ∧ ∀ a < 2 ^ 20, t.fm.byte (n.val * 2 ^ 20 + a) = 0 := by
  obtain ⟨halike, hregs⟩ := delayed_leaves s
  have hrun := power_due s (failed := 0) (banks := 0) (fabric := false) hst hrails
  have hfails : s.delayed.bootFails (0 : BitVec 50).toNat (0 : BitVec 80).toNat = s.delayed := bootFails_none s.delayed
  have hup {n : Nat} (hn : n < 50) : s.Up n s.delayed.powerUp := up_of_alike s hn halike (powerUp_up s.delayed hn)
  have hdelayedHeld : s.delayed.heldWrites = [] := by
    obtain ⟨regs, hd⟩ := hregs
    rw [hd]
    exact hheld
  have hvat (a : Nat) (ha : a < 2 ^ 26) := powerUp_vat s.delayed ha
  have hshort' : s.delayed.powerUp.short = false := (halike.trans (powerUp_alike s.delayed)).short.trans hshort
  have hnone : s.delayed.powerUp.heldWrites = [] := (powerUp_held _).trans hdelayedHeld
  rw [hfails, if_neg (by decide), hshort', if_neg (by decide)] at hrun
  generalize s.delayed.powerUp = u at hup hvat hnone hrun
  have honly := setStage_only u 4
  have hnone' : (u.setStage 4).heldWrites = [] := by
    rw [honly]
    exact hnone
  rw [release_none (u.setStage 4) _ hnone'] at hrun
  have hfm : (u.setStage 4).fm = u.fm := by rw [honly]
  refine ⟨_, hrun, boot_setStage u (by decide), fun a ha => ?_, fun n => ?_⟩
  · rw [honly]
    exact hvat a ha
  obtain ⟨hstate, hstat, hzero⟩ := hup n.isLt
  have hne (a : Nat) (ha : a / 4096 ≠ 0) : (u.setStage 4).reg a = u.reg a :=
    State.reg_setFld_ne u _ _ _ (by rintro rfl; exact ha (by decide))
  refine ⟨(folioState_of_reg _ (hne _ ?_)).trans hstate, (hne _ ?_).trans hstat, fun a ha => (congrArg (fun m => Memory.byte m _) hfm).trans (hzero a ha)⟩
  · simp only [PM_FOLIO_STATE, pg]
    omega
  · simp only [FOLIO_FM_STAT, pg]
    omega

/-- The state after self-test: the folios counted, what fails retired, the rest powered again. -/
def State.tested (s : State) (failed : BitVec 50) (banks : BitVec 80) : State :=
  ((s.setFld BOOT_STAT 7 0 ((List.range 50).filter (fun n => bit failed.toNat n)).length).bootFails failed.toNat banks.toNat).powerUp
theorem test_due {failed : BitVec 50} {banks : BitVec 80} (hst : s.inStage 4 = true) : exec (.test failed banks) s =
    if (s.tested failed banks).short then .next ((s.tested failed banks).halt 5) else .next ((s.tested failed banks).setStage 5) :=
  if_neg (by rw [hst]; decide)
theorem tested_count (failed : BitVec 50) (banks : BitVec 80) : (s.tested failed banks).fld BOOT_STAT 7 0 =
    ((List.range 50).filter (fun n => bit failed.toNat n)).length := by
  have hcount : ((List.range 50).filter (fun n => bit failed.toNat n)).length < 256 :=
    (List.length_filter_le _ _).trans_lt (by rw [List.length_range]; decide)
  have hsteady := ((State.Steady.refl false (s.setFld BOOT_STAT 7 0 ((List.range 50).filter (fun n => bit failed.toNat n)).length)).bootFails
    (failed := failed.toNat) (banks := banks.toNat)).powerUp
  refine (congrArg (fun v => bits v 7 0) (hsteady.words BOOT_STAT (by decide))).trans ?_
  exact (State.fld_setFld_same _ _ _ (by decide) (by decide)).trans (Nat.mod_eq_of_lt hcount)
theorem test_tests {failed : BitVec 50} {banks : BitVec 80} (hst : s.inStage 4 = true) : Next (exec (.test failed banks) s) fun t =>
    t.fld BOOT_STAT 7 0 = ((List.range 50).filter (fun n => bit failed.toNat n)).length ∧ (t.boot = 5 ∨ t.Halted 5) ∧
      ∀ a < 2 ^ 26, t.vat.byte a = 0 := by
  have hrun := test_due s (failed := failed) (banks := banks) hst
  have hcount := tested_count s failed banks
  have hvat (a : Nat) (ha : a < 2 ^ 26) : (s.tested failed banks).vat.byte a = 0 := powerUp_vat _ ha
  generalize s.tested failed banks = u at hrun hcount hvat
  split at hrun
  · refine ⟨_, hrun, Eq.trans ?_ hcount, .inr (halt_halted u (by decide)),
      fun a ha => (congrArg (fun m => Memory.byte m a) (halt_vat u 5)).trans (hvat a ha)⟩
    exact (fld_setDevState_ne _ 2 (by decide)).trans ((State.fld_setFld_apart _ _ _ (by decide) (by decide) (by decide) (by decide)).trans
      (fld_setStage_apart u _ (by decide) (by decide)))
  · have hsame : (u.setStage 5).vat = u.vat := by rw [setStage_only u 5]
    exact ⟨_, hrun, (fld_setStage_apart u 5 (by decide) (by decide)).trans hcount, .inl (boot_setStage u (by decide)),
      fun a ha => (congrArg (fun m => Memory.byte m a) hsame).trans (hvat a ha)⟩
theorem test_passes (hst : s.inStage 4 = true) (hshort : s.short = false) : Next (exec (.test 0 0) s) fun t => t.boot = 5 := by
  have hrun := test_due s (failed := 0) (banks := 0) hst
  have hfails (u : State) : u.bootFails (0 : BitVec 50).toNat (0 : BitVec 80).toNat = u := bootFails_none u
  have hcounted (v : Nat) : (s.setFld BOOT_STAT 7 0 v).short = s.short := by
    have hvac (k : Nat) : (s.setFld BOOT_STAT 7 0 v).vacant k = s.vacant k := State.rbit_setFld_ne _ _ (by
      simp only [FOLIO_VAC, BOOT_STAT, pg]
      omega)
    exact congrArg (List.any (List.range 48)) (funext hvac)
  have hshort' : (s.tested 0 0).short = false := by
    rw [State.tested, hfails, (powerUp_alike _).short, hcounted, hshort]
  rw [hshort', if_neg (by decide)] at hrun
  exact ⟨_, hrun, boot_setStage _ (by decide)⟩

end

/-! ## TRAIN and LINK (R635, R636) -/

section
variable (s : State)

/-- Messages for many seats leave the streams and every word but the count of what had no route. -/
theorem sendAll_leaves (typ : Nat) (l : List Nat) (bs : List Byte) : (s.sendAll typ l bs).strm = s.strm ∧
    ∀ a, a ≠ LNK_DEV_CNT → (s.sendAll typ l bs).reg a = s.reg a :=
  List.foldlRecOn (motive := fun u : State => u.strm = s.strm ∧ ∀ a, a ≠ LNK_DEV_CNT → u.reg a = s.reg a) _ _ ⟨rfl, fun _ _ => rfl⟩
    fun u hu k _ => by
      obtain ⟨hstrm, hreg⟩ := sendSeat_leaves u typ k bs
      exact ⟨hstrm.trans hu.1, fun a ha => (hreg a ha).trans (hu.2 a ha)⟩
theorem lnkStat_inj {p q : Nat} (h : p ≠ q) : LNK_STAT p ≠ LNK_STAT q := by
  simp only [LNK_STAT, pg]
  omega
theorem linkState_setLinkState_same (p : Nat) {v : Nat} (hv : v < 8) : (s.setLinkState p v).linkState p = v :=
  (State.fld_setFld_same s (LNK_STAT p) v (by decide) (by decide)).trans (Nat.mod_eq_of_lt hv)
theorem linkState_setLinkState_ne {p q : Nat} (v : Nat) (h : q ≠ p) : (s.setLinkState p v).linkState q = s.linkState q :=
  State.fld_setFld_ne s v (lnkStat_inj h)
/-- A new state for every port of a list whose state is one that c says. -/
theorem linkState_fold (c : Nat → Prop) [DecidablePred c] {v : Nat} (hv : v < 8) (q : Nat) {l : List Nat} (hnodup : l.Nodup) :
    (l.foldl (fun s p => if c (s.linkState p) then s.setLinkState p v else s) s).linkState q =
      if q ∈ l ∧ c (s.linkState q) then v else s.linkState q := by
  induction l generalizing s with
  | nil => simp
  | cons p l ih =>
    obtain ⟨hp, hl⟩ := List.nodup_cons.mp hnodup
    rw [List.foldl_cons, ih _ hl]
    by_cases hq : q = p
    · subst hq
      simp only [hp, false_and, if_false, List.mem_cons, true_or, true_and]
      split
      · exact linkState_setLinkState_same s q hv
      · rfl
    · have hstep : (if c (s.linkState p) then s.setLinkState p v else s).linkState q = s.linkState q := by
        split
        · exact linkState_setLinkState_ne s v hq
        · rfl
      simp only [hstep, List.mem_cons, hq, false_or]
theorem linkFold_regsOnly (c : Nat → Prop) [DecidablePred c] (v : Nat) (l : List Nat) :
    s.RegsOnly (l.foldl (fun s p => if c (s.linkState p) then s.setLinkState p v else s) s) :=
  List.foldlRecOn (motive := fun u : State => s.RegsOnly u) l _ (.refl s) fun u hu p _ => .ite hu.setFld hu
theorem reg_linkFold (c : Nat → Prop) [DecidablePred c] (v : Nat) {a : Nat} {l : List Nat} (ha : ∀ p ∈ l, a ≠ LNK_STAT p) :
    (l.foldl (fun s p => if c (s.linkState p) then s.setLinkState p v else s) s).reg a = s.reg a :=
  List.foldlRecOn (motive := fun u : State => u.reg a = s.reg a) l _ rfl fun u hu p hp => by
    split
    · exact (State.reg_setFld_ne _ _ _ _ (ha p hp)).trans hu
    · exact hu

/-- LINK ends in READY: what was training waits, and no stream differs. -/
theorem link_ends (hst : s.inStage 6 = true) : Next (exec .link s) fun t => t.boot = 7 ∧ t.devState = 0 ∧
    (∀ p : Fin 6, t.linkState p.val = (if s.linkState p.val = 1 then 0 else s.linkState p.val)) ∧ t.strm = s.strm := by
  let u := (List.range 6).foldl (fun s p => if s.linkState p = 1 then s.setLinkState p 0 else s) s
  let w := (u.setStage 7).setDevState 0
  have hrun : exec .link s = .next (if w.isWarm && w.formed then w.askJoin else w) := if_neg (by rw [hst]; decide)
  have hboot : w.boot = 7 := (fld_setDevState_ne _ 0 (by decide)).trans (boot_setStage u (by decide))
  have hdev : w.devState = 0 := devState_setDevState _ (by decide)
  have hlinks (p : Fin 6) : w.linkState p.val = if s.linkState p.val = 1 then 0 else s.linkState p.val := by
    have hne (a : Nat) (ha : a / 4096 < 0x171) : LNK_STAT p.val ≠ a := by
      simp only [LNK_STAT, pg]
      omega
    have hfold := linkState_fold s (· = 1) (v := 0) (by decide) p.val (List.nodup_range (n := 6))
    simp only [List.mem_range, p.isLt, true_and] at hfold
    exact (fld_setDevState_ne _ 0 (hne _ (by decide))).trans ((fld_setStage_ne u 7 (hne _ (by decide))).trans hfold)
  have hstrm : w.strm = s.strm := by
    obtain ⟨regs, hu⟩ : s.RegsOnly ((u.setStage 7).setFld PM_STATE 31 29 0) := (linkFold_regsOnly s (· = 1) 0 (List.range 6)).setFld.setFld
    show (State.setDevState (u.setStage 7) 0).strm = s.strm
    unfold State.setDevState
    rw [hu]
  refine ⟨_, hrun, ?_⟩
  clear_value w
  split
  · have hset (a : Nat) (ha : a ≠ CH_STAT) : (w.setFld CH_STAT 31 29 4).reg a = w.reg a := State.reg_setFld_ne _ _ _ _ ha
    obtain ⟨hsent, hreg⟩ := sendAll_leaves (w.setFld CH_STAT 31 29 4) tyJOIN (w.cfgMembers.filter w.reached.contains)
      (toBytes 2 w.seat ++ toBytes 2 0 ++ toBytes 4 (w.reg CH_EPOCH) ++ toBytes 2 _ ++ toBytes 2 _ ++ _ ++ _)
    have hword (a : Nat) (hstat : a ≠ CH_STAT) (hcnt : a ≠ LNK_DEV_CNT) : w.askJoin.reg a = w.reg a := (hreg a hcnt).trans (hset a hstat)
    refine ⟨(congrArg (fun v => bits v 31 28) (hword BOOT_STAT (by decide) (by decide))).trans hboot,
      (congrArg (fun v => bits v 31 29) (hword PM_STATE (by decide) (by decide))).trans hdev, fun p => ?_,
      hsent.trans ((State.setReg_strm w _ _).trans hstrm)⟩
    refine (congrArg (fun v => bits v 31 29) (hword (LNK_STAT p.val) ?_ ?_)).trans (hlinks p)
    · simp only [LNK_STAT, CH_STAT, pg]
      omega
    · simp only [LNK_STAT, LNK_DEV_CNT, pg]
      omega
  · exact ⟨hboot, hdev, hlinks, hstrm⟩

/-! ### The stacks -/

/-- The stacks that fail in training. -/
def State.badStacks (s : State) (o : TrainOut) : List Nat := (s.trainStacks o).2
theorem train_of_bad {o : TrainOut} (hst : s.inStage 5 = true) (hbad : s.badStacks o ≠ []) : Next (exec (.train o) s) (State.Halted 6) := by
  have hrun : exec (.train o) s = .next ((s.trainStacks o).1.halt 6) :=
    (if_neg (by rw [hst]; decide)).trans (if_pos hbad)
  exact ⟨_, hrun, halt_halted _ (by decide)⟩
theorem badStacks_of_untrained {o : TrainOut} {k : Nat} (hk : k < 4) (h : bit o.hbms.toNat k = false) : s.badStacks o ≠ [] := by
  refine List.ne_nil_of_mem (a := k) (List.mem_filter.mpr ⟨List.mem_range.mpr hk, ?_⟩)
  rw [h]
  rfl
/-- Every stack is trained. -/
def State.stacksUp (s : State) : State := (List.range 4).foldl (fun s k => s.setBit HBM_STAT k true) s
theorem trainStacks_all {o : TrainOut} (hhbms : o.hbms = 15) (hpc : o.badPc = []) : s.trainStacks o = (s.stacksUp, []) := by
  have hbit : ∀ k < 4, bit (15 : BitVec 4).toNat k = true := by decide
  unfold State.trainStacks
  extract_lets second bad s1
  have hsecond (k : Nat) : second k = false := by
    unfold second
    rw [hpc, List.filter_nil, List.any_nil, Bool.and_false]
    decide
  have hbad : bad = [] := List.filter_eq_nil_iff.mpr fun k hk => by
    rw [hsecond, hhbms, hbit k (List.mem_range.mp hk)]
    decide
  have hs1 : s1 = s.stacksUp := by
    unfold s1
    rw [hbad]
    exact congrArg (fun f => List.foldl f s (List.range 4)) (funext fun u => funext fun k => if_neg (by simp))
  refine Prod.ext ?_ hbad
  rw [hpc, List.foldl_nil]
  exact hs1
theorem stacksUp_leaves : (∀ k < 4, s.stacksUp.rbit HBM_STAT k = true) ∧ (∀ a, a ≠ HBM_STAT → s.stacksUp.reg a = s.reg a) ∧
    s.RegsOnly s.stacksUp := by
  have hup : s.stacksUp =
      (((s.setBit HBM_STAT 0 true).setBit HBM_STAT 1 true).setBit HBM_STAT 2 true).setBit HBM_STAT 3 true := rfl
  have hset (u : State) (j : Nat) (hj : j < 4) (k : Nat) (hk : u.rbit HBM_STAT k = true ∨ k = j) : (u.setBit HBM_STAT j true).rbit HBM_STAT k = true := by
    by_cases heq : k = j
    · rw [heq]
      exact State.rbit_setBit_same u _ true (by omega)
    · rw [State.rbit_setBit_apart u _ true (by omega) heq]
      exact hk.resolve_right heq
  refine ⟨fun k hk => ?_, fun a ha => ?_, ?_⟩
  · rw [hup]
    refine hset _ 3 (by decide) k ?_
    by_cases h3 : k = 3
    · exact .inr h3
    refine .inl (hset _ 2 (by decide) k ?_)
    by_cases h2 : k = 2
    · exact .inr h2
    refine .inl (hset _ 1 (by decide) k ?_)
    by_cases h1 : k = 1
    · exact .inr h1
    exact .inl (hset _ 0 (by decide) k (.inr (by omega)))
  · rw [hup, State.reg_setBit_ne _ _ ha, State.reg_setBit_ne _ _ ha, State.reg_setBit_ne _ _ ha, State.reg_setBit_ne _ _ ha]
  · rw [hup]
    exact (State.RegsOnly.refl s).setBit.setBit.setBit.setBit
theorem train_of_no_module {o : TrainOut} (hst : s.inStage 5 = true) (hhbms : o.hbms = 15) (hpc : o.badPc = []) (hmods : o.modules = 0) :
    Next (exec (.train o) s) (State.Halted 7) := by
  have hrun : exec (.train o) s =
      .next (((List.range 4).foldl (fun s m => s.log 0x39 (0xA8 + m) 0 0) (s.trainStacks o).1).halt 7) := by
    refine (if_neg (by rw [hst]; decide)).trans ((if_neg ?_).trans (if_pos hmods))
    rw [trainStacks_all s hhbms hpc]
    exact not_not.mpr rfl
  exact ⟨_, hrun, halt_halted _ (by decide)⟩

/-! ### The ports -/

theorem reg_d2dModules {up repaired a : Nat} {lanes : List (Fin 4 × BitVec 7)} (h : s.fld D2D_STAT 3 0 &&& up ≠ 0) (ha : State.Unlogged a)
    (hne : a ≠ D2D_STAT) : (s.d2dModules up repaired lanes).reg a = s.reg a := by
  rw [d2dModules_of_left s up repaired lanes h, State.d2dTrained, State.reg_setFld_ne _ _ _ _ hne, State.reg_setFld_ne _ _ _ _ hne,
    State.reg_setFld_ne _ _ _ _ hne, reg_d2dLogged s up lanes ha]
/-- The D2D port as training finds it. -/
def State.d2dFresh (s : State) : State :=
  { s.setFld D2D_STAT 3 0 15 with d2dRx := 0, d2dTx := 0, d2dRetry := [], d2dAttempts := 0, d2dCredits := 256, d2dNak := false, d2dLost := false }
theorem fld_d2dFresh : s.d2dFresh.fld D2D_STAT 3 0 = 15 := by
  have hregs : s.d2dFresh.regs = (s.setFld D2D_STAT 3 0 15).regs := by
    unfold State.d2dFresh
    with_reducible rfl
  exact (fld_of_regs hregs).trans (State.fld_setFld_same s _ _ (by decide) (by decide))
theorem reg_d2dFresh {a : Nat} (h : a ≠ D2D_STAT) : s.d2dFresh.reg a = s.reg a := by
  have hregs : s.d2dFresh.regs = (s.setFld D2D_STAT 3 0 15).regs := by
    unfold State.d2dFresh
    with_reducible rfl
  exact (reg_of_regs hregs).trans (State.reg_setFld_ne s _ _ _ h)
/-- The D2D port is up with the modules that trained, its numbers at 0. -/
theorem d2dUp_trains {o : TrainOut} (h : o.modules ≠ 0) : (s.d2dUp o).fld D2D_STAT 3 0 = o.modules.toNat ∧ (s.d2dUp o).d2dRx = 0 ∧
    (s.d2dUp o).d2dTx = 0 ∧ ∀ a, State.Unlogged a → a ≠ D2D_STAT → (s.d2dUp o).reg a = s.reg a := by
  have hmods : s.d2dFresh.fld D2D_STAT 3 0 &&& o.modules.toNat = o.modules.toNat := by
    rw [fld_d2dFresh, Nat.and_comm]
    exact (Nat.and_two_pow_sub_one_eq_mod _ 4).trans (Nat.mod_eq_of_lt o.modules.isLt)
  have hleft : s.d2dFresh.fld D2D_STAT 3 0 &&& o.modules.toNat ≠ 0 := by
    rw [hmods]
    exact fun h0 => h (BitVec.eq_of_toNat_eq h0)
  have hup : s.d2dUp o = s.d2dFresh.d2dModules o.modules.toNat o.repaired.toNat o.lanes := rfl
  obtain ⟨⟨regs, msgs, low, honly⟩, -, hfld⟩ := d2dModules_trains s.d2dFresh o.modules.toNat o.repaired.toNat o.lanes hleft
  rw [hup]
  refine ⟨hfld.trans hmods, ?_, ?_, fun a ha hne => (reg_d2dModules _ hleft ha hne).trans (reg_d2dFresh s hne)⟩
  · rw [honly]
    rfl
  · rw [honly]
    rfl

end

namespace State.Steady
variable {live : Bool} {s t : State}

theorem storeStat {n : Nat} (h : s.Steady live t) (hn : n < 50) : s.Steady live (t.storeStat n) := by
  have hword : FOLIO_SFU_STORE n ∉ steadyWords := folioWord_not_steady (by simp only [FOLIO_SFU_STORE, pg]; omega)
    (by simp only [FOLIO_SFU_STORE, pg]; omega)
  exact (h.setFld hword).setBit hword
theorem loadFolio {n k : Nat} (h : s.Steady live t) (hn : n < 50) : s.Steady live (t.loadFolio n k) := by
  have hrefill {u : State} {m : Nat} {bs : List Byte} (hu : s.Steady live u) : s.Steady live (u.refill n m bs) := hu.wipe.put
  have himage {m : FolioImg} : s.Steady live (t.loadImage n m) := (hrefill (hrefill (hrefill h))).storeStat hn
  unfold State.loadFolio
  extract_lets s1
  have h1 : s.Steady live s1 := by
    unfold s1
    split
    · exact himage
    · exact h
  exact h1.foldl fun _ _ hu => hu.put
theorem setCredit {k v : Nat} (h : s.Steady live t) : s.Steady live (t.setCredit k v) := h.of_same rfl rfl rfl
theorem fillRings {x : Sched} (h : s.Steady live t) : s.Steady live (t.fillRings x) :=
  (h.foldl fun _ _ hu => hu.setCredit).foldl fun _ _ hu => hu.setCredit
theorem reloadScheds (h : s.Steady live t) : s.Steady live t.reloadScheds := by
  have hfolios : s.Steady live (t.active.foldl (fun s n => match s.logical n with | some k => s.loadFolio n k | none => s) t) :=
    List.foldlRecOn (motive := fun u : State => s.Steady live u) _ _ h fun u hu n hn => by
      have hlt : n < 50 := List.mem_range.mp (List.mem_filter.mp hn).1
      split
      · exact hu.loadFolio hlt
      · exact hu
  exact hfolios.foldl fun _ _ hu => hu.fillRings

end State.Steady

section
variable (s : State)

/-- The stream table read back leaves every word but BOOT_STAT, and the D2D port. -/
theorem restoreTable_leaves (good : Bool) : (∀ a, a ≠ BOOT_STAT → (s.restoreTable good).reg a = s.reg a) ∧
    (s.restoreTable good).d2dRx = s.d2dRx ∧ (s.restoreTable good).d2dTx = s.d2dTx := by
  unfold State.restoreTable
  split
  · exact ⟨fun _ _ => rfl, rfl, rfl⟩
  · extract_lets entry
    refine ⟨fun a ha => ?_, State.setReg_d2dRx _ _ _, State.setReg_d2dTx _ _ _⟩
    exact State.reg_setBit_ne _ true ha
/-- Knocks are due at the ports whose neighbours are members; nothing but the ports differs. -/
theorem startKnocks_leaves : s.startKnocks = { s with links := s.startKnocks.links } :=
  List.foldlRecOn (motive := fun u : State => u = { s with links := u.links }) _ _ rfl fun u hu p _ => by
    split
    · split
      · conv_lhs => rw [hu]
        rfl
      · exact hu
    · exact hu

/-- What a warm bring-up reloads. -/
def State.reloaded (s : State) (table : Bool) : State := if s.isWarm then s.reloadScheds.restoreTable table else s
theorem reloaded_leaves (table : Bool) : (∀ a ∈ steadyWords, a ≠ BOOT_STAT → (s.reloaded table).reg a = s.reg a) ∧
    (s.reloaded table).d2dRx = s.d2dRx ∧ (s.reloaded table).d2dTx = s.d2dTx := by
  have hsteady := (State.Steady.refl true s).reloadScheds
  have hstill := hsteady.still
  simp only [State.still, Prod.mk.injEq] at hstill
  obtain ⟨-, -, -, -, -, -, -, -, -, hrx, htx, -⟩ := hstill
  obtain ⟨hreg, hrx', htx'⟩ := restoreTable_leaves s.reloadScheds table
  unfold State.reloaded
  split
  · exact ⟨fun a ha hne => (hreg a hne).trans (hsteady.words a ha), hrx'.trans hrx, htx'.trans htx⟩
  · exact ⟨fun _ _ _ => rfl, rfl, rfl⟩
/-- Every port trains but those that sleep. -/
def State.portsTrain (s : State) : State := (List.range 6).foldl (fun s p => if s.linkState p = 3 then s else s.setLinkState p 1) s
theorem portsTrain_eq : s.portsTrain = (List.range 6).foldl (fun s p => if s.linkState p ≠ 3 then s.setLinkState p 1 else s) s := by
  have hstep : (fun (s : State) (p : Nat) => if s.linkState p = 3 then s else s.setLinkState p 1) =
      fun s p => if s.linkState p ≠ 3 then s.setLinkState p 1 else s := funext fun u => funext fun p => (ite_not ..).symm
  rw [State.portsTrain, hstep]
theorem portsTrain_leaves : (∀ p < 6, s.portsTrain.linkState p = if s.linkState p = 3 then 3 else 1) ∧
    (∀ a, a / 4096 < 0x171 ∨ 0x176 < a / 4096 → s.portsTrain.reg a = s.reg a) ∧ s.RegsOnly s.portsTrain := by
  rw [portsTrain_eq]
  refine ⟨fun p hp => ?_, fun a ha => reg_linkFold s (· ≠ 3) 1 fun p hp => ?_, linkFold_regsOnly s (· ≠ 3) 1 _⟩
  · rw [linkState_fold s (· ≠ 3) (by decide) p List.nodup_range]
    simp only [List.mem_range, hp, true_and]
    split
    · rfl
    · next heq => rw [if_pos (not_not.mp heq), not_not.mp heq]
  · have hlt := List.mem_range.mp hp
    rintro rfl
    simp only [LNK_STAT, pg] at ha
    omega
theorem train_trains {o : TrainOut} (hst : s.inStage 5 = true) (hhbms : o.hbms = 15) (hpc : o.badPc = []) (hmods : o.modules ≠ 0) :
    Next (exec (.train o) s) fun t => t.boot = 6 ∧ (∀ k : Fin 4, t.rbit HBM_STAT k.val = true) ∧ t.fld D2D_STAT 3 0 = o.modules.toNat ∧
      t.d2dRx = 0 ∧ t.d2dTx = 0 ∧ ∀ p : Fin 6, t.linkState p.val = (if s.linkState p.val = 3 then 3 else 1) := by
  have hrun : exec (.train o) s = .next ((((s.stacksUp.d2dUp o).reloaded o.table).portsTrain.startKnocks).setStage 6) := by
    have hstacks := trainStacks_all s hhbms hpc
    refine (if_neg (by rw [hst]; decide)).trans ((if_neg ?_).trans ((if_neg hmods).trans ?_))
    · rw [hstacks]
      exact not_not.mpr rfl
    · rw [hstacks]
      rfl
  obtain ⟨hhbm, hreg, -⟩ := stacksUp_leaves s
  obtain ⟨hmod, hrx, htx, hkeep⟩ := d2dUp_trains s.stacksUp hmods
  obtain ⟨hsteady, hrx', htx'⟩ := reloaded_leaves (s.stacksUp.d2dUp o) o.table
  generalize s.stacksUp.d2dUp o = u at hrun hmod hrx htx hkeep hsteady hrx' htx'
  have hrx'' := hrx'.trans hrx
  have htx'' := htx'.trans htx
  generalize u.reloaded o.table = v at hrun hsteady hrx'' htx''
  obtain ⟨hlinks, hfar, regs, hports⟩ := portsTrain_leaves v
  have hknocks := startKnocks_leaves v.portsTrain
  have hknockRegs : v.portsTrain.startKnocks.regs = v.portsTrain.regs := by rw [hknocks]
  have honly := setStage_only v.portsTrain.startKnocks 6
  have hword (a : Nat) (ha : a ≠ BOOT_STAT) : (v.portsTrain.startKnocks.setStage 6).reg a = v.portsTrain.reg a :=
    (State.reg_setFld_ne _ _ _ _ ha).trans (reg_of_regs hknockRegs)
  refine ⟨_, hrun, boot_setStage _ (by decide), fun k => ?_, ?_, ?_, ?_, fun p => ?_⟩
  · have hkept : (v.portsTrain.startKnocks.setStage 6).reg HBM_STAT = s.stacksUp.reg HBM_STAT :=
      (hword _ (by decide)).trans ((hfar _ (by decide)).trans ((hsteady _ (by decide) (by decide)).trans
        (hkeep _ ⟨by decide, by decide⟩ (by decide))))
    exact (rbit_of_reg hkept).trans (hhbm k.val k.isLt)
  · have hkept : (v.portsTrain.startKnocks.setStage 6).reg D2D_STAT = u.reg D2D_STAT :=
      (hword _ (by decide)).trans ((hfar _ (by decide)).trans (hsteady _ (by decide) (by decide)))
    exact (congrArg (fun x => bits x 3 0) hkept).trans hmod
  · rw [honly, hknocks, hports]
    exact hrx''
  · rw [honly, hknocks, hports]
    exact htx''
  · have hplace (a : Nat) (ha : a / 4096 < 0x171 ∨ 0x176 < a / 4096) : LNK_STAT p.val ≠ a := by
      rintro rfl
      simp only [LNK_STAT, pg] at ha
      omega
    have hmem : LNK_STAT p.val ∈ steadyWords := by
      fin_cases p <;> decide
    have hlogs : State.Unlogged (LNK_STAT p.val) := ⟨by simp only [LNK_STAT, pg]; omega, by simp only [LNK_STAT, pg]; omega⟩
    have hkept : v.linkState p.val = s.linkState p.val := congrArg (fun x => bits x 31 29)
      ((hsteady _ hmem (hplace _ (by decide))).trans ((hkeep _ hlogs (hplace _ (by decide))).trans (hreg _ (hplace _ (by decide)))))
    refine (congrArg (fun x => bits x 31 29) (hword _ (hplace _ (by decide)))).trans ?_
    rw [← hkept]
    exact hlinks p.val p.isLt

end

/-- Settles O60: what the two resets keep, and the end of every stage of bring-up. -/
theorem resetsAndBringUp : Obligations.ResetsAndBringUp := by
  intro s halted
  refine ⟨fun hcool => porstNAssertion_clears s hcool, fun hcool hreset => porstN_begins s hcool hreset, fun saved hreset => if_pos (.inl hreset),
    fun saved hreset htrip hfuse hhot => warmN_keeps s saved hreset htrip hfuse hhot, fun hcool hwarm => warmNRelease_begins s hcool hwarm,
    fun hst => ⟨fun href => rind_moves s hst href, refWait_logs s hst⟩, fun hst => ⟨fuse_agrees s hst, fuse_disagrees s hst⟩,
    fun failed banks hst hrails => ⟨power_of_fabric s hst hrails, fun hshort hheld => power_powers s hst hrails hshort hheld⟩,
    fun failed banks hst => ⟨test_tests s hst, fun hshort => test_passes s hst hshort⟩, fun o hst => ⟨?_, ?_, ?_⟩, fun hst => link_ends s hst⟩
  · rintro ⟨k, hk⟩
    exact train_of_bad s hst (badStacks_of_untrained s k.isLt hk)
  · exact fun hhbms hpc hmods => train_of_no_module s hst hhbms hpc hmods
  · exact fun hhbms hpc hmods => train_trains s hst hhbms hpc hmods

end Sys2Proof.Machine
end

-- ==== What a commit leaves ====
section
/-! SUPPORT. A charter that comes into force fails collectives, sends mirrors and merges streams; the stage of bring-up, the links, the
routes and the messages that have arrived stay. -/

namespace Sys2Proof.Machine

open Sys2Proof.Claims

namespace State.Steady

variable {live : Bool} {s t : State}

/-! Gates and collectives -/

theorem hold {n tag field v : Nat} (h : s.Steady live t) : s.Steady live (t.hold n tag field v) := h.of_same rfl rfl rfl
theorem holdFl {n tag field : Nat} {f : Fl} (h : s.Steady live t) : s.Steady live (t.holdFl n tag field f) := .ite h h.hold
theorem setSlot {n : Nat} {x : Option Slot} (h : s.Steady live t) : s.Steady live (t.setSlot n x) := h.of_same rfl rfl rfl
theorem setGates {n : Nat} {l : List Gupd} (h : s.Steady live t) : s.Steady live (t.setGates n l) := h.of_same rfl rfl rfl
theorem runGupd {n : Nat} {g : Gupd} (h : s.Steady live t) : s.Steady live (t.runGupd n g) := by
  unfold State.runGupd
  extract_lets ws P fn outs t1 xs
  split
  refine holdFl (setSlot (h.foldl fun _ _ hu => hu.foldl fun _ _ hv => ?_))
  split
  · exact hv.put
  · exact hv
theorem gateRun {n : Nat} (h : s.Steady live t) : s.Steady live (t.gateRun n) := by
  unfold State.gateRun
  split
  · exact .ite h.setGates.runGupd h
  · exact h
theorem offer {g : Nat} (h : s.Steady live t) : s.Steady live (t.offer g) := by
  unfold State.offer
  obtain ⟨givers, hgivers⟩ : ∃ f, State.givers = f := ⟨_, rfl⟩
  rw [hgivers]
  split
  · exact h
  · extract_lets ps d
    clear_value ps
    split
    · exact h
    · exact .ite (h.foldl fun _ _ hu => hu.sendSeat) h
theorem withPlane {p : Sp Nat} {r : List (Nat × Nat × List Byte)} (h : s.Steady live t) :
    s.Steady live { t with plane := p, remote := r } := h.of_same rfl rfl rfl
theorem planeNext {g stag : Nat} (h : s.Steady live t) : s.Steady live (t.planeNext g stag) :=
  .offer (.withPlane (h.foldl fun _ _ hu => hu.setContrib.gateRun))
theorem failGiver {n : Nat} {x : Contrib} {u : Bool} (h : s.Steady live t) : s.Steady live (t.failGiver n x u) := by
  unfold State.failGiver
  split
  · exact h.failStep
  · exact h.failWork
theorem collFail {g stag code act : Nat} (h : s.Steady live t) : s.Steady live (t.collFail g stag code act) :=
  .planeNext (.log (h.foldl fun _ _ hu => hu.failGiver))
theorem failScopes (h : s.Steady live t) : s.Steady live t.failScopes := by
  refine h.foldl fun _ _ hu => ?_
  obtain ⟨givers, hgivers⟩ : ∃ f, State.givers = f := ⟨_, rfl⟩
  rw [hgivers]
  split
  · exact hu
  · exact .ite (collFail (hu.bump (not_steady_of_page (by decide)))) hu
theorem fullCredits (h : s.Steady live t) : s.Steady live t.fullCredits := h.foldl fun _ _ hu => hu.setCredit

/-! Mirrors and streams that are merged -/

theorem sendMirror {i cseq : Nat} {slot : Bool} (h : s.Steady live t) : s.Steady live (t.sendMirror i slot cseq) :=
  sendSeat (h.setStr fun _ => ⟨rfl, rfl, id, id, id⟩)
theorem fullMirror {i : Nat} (h : s.Steady live t) : s.Steady live (t.fullMirror i) := by
  unfold State.fullMirror
  extract_lets x t1
  refine sendMirror ?_
  unfold t1
  split
  · exact .ite h.sendMirror h
  · exact h
theorem addMove {n c tag : Nat} {src dst : MoveEnd} {len stripe : Nat} {owner : MoveOwner} {dests : List McRecv} (h : s.Steady live t) :
    s.Steady live (t.addMove n c tag src dst len stripe owner dests) := by
  unfold State.addMove
  extract_lets m t1
  have h1 : s.Steady live t1 := h.setMover
  clear_value t1
  exact h1.same
theorem sealHeader {i : Nat} {x : Step} (h : s.Steady live t) : s.Steady live (t.sealHeader i x) := h.addMove
theorem resealAll (h : s.Steady live t) : s.Steady live t.resealAll := by
  refine h.foldl fun _ _ hu => ?_
  split
  · exact .ite hu.sealHeader hu
  · exact hu
theorem newBuddies {joins : List Nat} (h : s.Steady live t) : s.Steady live (t.newBuddies joins) := by
  refine h.foldl fun _ _ hu => ?_
  refine .ite hu (.ite (.ite hu.fullMirror hu) ?_)
  split
  · exact hu
  · exact fullMirror (hu.setStr fun _ => ⟨rfl, rfl, id, id, id⟩)
theorem endBursts {i : Nat} (h : s.Steady false t) : s.Steady false (t.endBursts i) := by
  unfold State.endBursts
  extract_lets x skip log bs t1 y d
  exact h.discard.setAnyStr.cntStrm (by decide)
theorem giveUp {i : Nat} (h : s.Steady false t) : s.Steady false (t.giveUp i) := h.notice.quitStep.endBursts.setAnyStr.freeStream
theorem restore {i : Nat} (h : s.Steady false t) : s.Steady false (t.restore i) := by
  unfold State.restore
  extract_lets t0 x t1
  exact notice (hbmWrite h.endBursts.setAnyStr)
theorem mergeMember {joins : List Nat} (h : s.Steady live t) : s.Steady live (t.mergeMember joins) := by
  unfold State.mergeMember
  extract_lets js t1
  have h1 : s.Steady live t1 := h.foldl fun _ _ hu => hu.foldl fun _ _ hv => hv.sendSeat
  refine h1.foldl fun _ _ hu => ?_
  split
  · exact .ite hu.sendSeat hu
  · exact hu

end State.Steady

/-! ## A commit -/

/-- From s to t the steady words, the hoop, the routes and the messages that have arrived stay; mirror entries may go. -/
structure State.Merged (s t : State) : Prop where
  words : ∀ a ∈ steadyWords, t.reg a = s.reg a
  parts : (t.hoop, t.formed, t.lstateSeq, t.linkDown, t.linkIn) = (s.hoop, s.formed, s.lstateSeq, s.linkDown, s.linkIn)
theorem State.Steady.merged {live : Bool} {s t : State} (h : s.Steady live t) : s.Merged t := by
  refine ⟨h.words, ?_⟩
  obtain ⟨-, hstill, -⟩ := h
  simp only [State.still, Prod.mk.injEq] at hstill ⊢
  obtain ⟨-, hhoop, hformed, hseq, hdown, hin, -⟩ := hstill
  exact ⟨hhoop, hformed, hseq, hdown, hin⟩
namespace State.Merged
variable {s t u : State}
theorem trans (h : s.Merged t) (h' : t.Merged u) : s.Merged u := ⟨fun a ha => (h'.words a ha).trans (h.words a ha), h'.parts.trans h.parts⟩
theorem hoop (h : s.Merged t) : t.hoop = s.hoop := congrArg Prod.fst h.parts
theorem withMirrors (h : s.Merged t) (ms : Sp (Option Mirror)) (ts : List Takeover) :
    s.Merged { t with mirrors := ms, takeovers := ts } := ⟨h.words, h.parts⟩
end State.Merged

theorem mergeJoiner_merged (s : State) (taken : List (Nat × Nat)) : s.Merged (s.mergeJoiner taken) := by
  have h : s.Steady false (s.strIdx.foldl (fun s i =>
      let x := s.str i
      if x.st == .free then s
      else if taken.contains (x.originSeat, x.originHandle) then s.giveUp i
      else if x.st == .fenced then s.restore i else s) s) :=
    (State.Steady.refl false s).foldl fun _ _ hu => .ite hu (.ite hu.giveUp (.ite hu.restore hu))
  exact h.merged.withMirrors [] []

/-! ## What goes out on the links -/

/-- From s to t messages have gone out: only the links, their output, their message numbers and the count of what had no route differ. -/
structure State.Sends (s t : State) : Prop where
  only : t = { s with links := t.links, linkOut := t.linkOut, linkMsgId := t.linkMsgId, regs := t.regs }
  words : ∀ a, a ≠ LNK_DEV_CNT → t.reg a = s.reg a
namespace State.Sends
variable {s t u : State}
theorem refl (s : State) : s.Sends s := ⟨rfl, fun _ _ => rfl⟩
theorem trans (h : s.Sends t) (h' : t.Sends u) : s.Sends u where
  only := by
    have ht := h.only
    have hu := h'.only
    rw [ht] at hu
    exact hu
  words a ha := (h'.words a ha).trans (h.words a ha)
theorem of_links (h : LinksOnly s t) : s.Sends t where
  only := by
    rw [LinksOnly] at h
    rw [h]
  words a _ := reg_of_regs h.regs
theorem queueFlit (h : s.Sends t) (p : Nat) (f : List Byte) : s.Sends (t.queueFlit p f) := h.trans (.of_links ((LinksOnly.refl t).queueFlit p f))
theorem setLink (h : s.Sends t) (p : Nat) (x : LinkPort) : s.Sends (t.setLink p x) := h.trans (.of_links ((LinksOnly.refl t).setLink p x))
theorem emit (h : s.Sends t) (p seq : Nat) (f : List Byte) : s.Sends (t.emit p seq f) := h.trans (.of_links ((LinksOnly.refl t).emit p seq f))
theorem pump (h : s.Sends t) (p fuel : Nat) : s.Sends (t.pump p fuel) := h.trans (.of_links ((LinksOnly.refl t).pump p fuel))
theorem devCnt (h : s.Sends t) (hi lo k : Nat) : s.Sends (t.bump LNK_DEV_CNT hi lo k) :=
  h.trans ⟨by rw [State.bump_regs_only], fun _ ha => State.reg_setFld_ne _ _ _ _ ha⟩
theorem sendSeat (h : s.Sends t) (typ dst : Nat) (payload : List Byte) : s.Sends (t.sendSeat typ dst payload) := by
  obtain ⟨l, o, m, r, hsent⟩ := sendSeat_only (s := t) typ dst payload
  refine h.trans ⟨?_, (sendSeat_leaves t typ dst payload).2⟩
  rw [hsent]
theorem sendAll (h : s.Sends t) (typ : Nat) (l : List Nat) (bs : List Byte) : s.Sends (t.sendAll typ l bs) :=
  List.foldlRecOn (motive := s.Sends) _ _ h fun _ hu k _ => hu.sendSeat typ k bs
theorem sendPort (h : s.Sends t) (typ p : Nat) (payload : List Byte) : s.Sends (t.sendPort typ p payload) := by
  unfold State.sendPort
  extract_lets vc id t1
  have h1 : s.Sends t1 := h.trans (.of_links rfl)
  exact List.foldlRecOn (motive := s.Sends) _ _ h1 fun _ hu f _ => hu.queueFlit p f
end State.Sends

/-- The hoop is extended or as long as before (R505). -/
theorem tryExtend_leaves (s : State) : ∃ e, s.hoop.ends ≤ e ∧ s.tryExtend = { s with hoop := { s.hoop with ends := e } } := by
  unfold State.tryExtend
  split
  · exact ⟨_, le_max_left _ _, rfl⟩
  · exact ⟨_, le_rfl, rfl⟩
/-- A renewal round (R504): the next number, now, no RACK yet; the hoop is never cut short. -/
theorem startRound_leaves (s : State) : ∃ u e, s.Sends u ∧ s.hoop.ends ≤ e ∧ s.startRound =
    { u with hoop := { s.hoop with round := s.hoop.round + 1, roundAt := s.rclk, racks := [], ends := e } } := by
  unfold State.startRound
  extract_lets k _ s1
  split
  · exact ⟨s, s.hoop.ends, .refl s, le_rfl, rfl⟩
  · generalize hv : State.sendAll s1 _ _ _ = v
    obtain ⟨honly, hwords⟩ : s1.Sends v := hv ▸ (State.Sends.refl s1).sendAll _ _ _
    have hhoop : v.hoop = s1.hoop := by rw [honly]
    obtain ⟨e, he, hext⟩ := tryExtend_leaves v
    rw [hhoop] at he hext
    exact ⟨{ v with hoop := s.hoop }, e, ⟨by rw [honly], hwords⟩, he, hext⟩
/-- A renewal round leaves every word but the count of what had no route, and whether the hoop stands and what is proposed. -/
theorem startRound_keeps (s : State) : (∀ a, a ≠ LNK_DEV_CNT → s.startRound.reg a = s.reg a) ∧ s.startRound.hoop.standing = s.hoop.standing ∧
    s.startRound.hoop.proposal = s.hoop.proposal := by
  obtain ⟨u, e, hsent, -, hround⟩ := startRound_leaves s
  rw [hround]
  exact ⟨hsent.words, rfl, rfl⟩

/-! ## What a change of the reachable members leaves -/

/-- From s to t the steady words beside the charter's stay, with the time of formation, the routes and the messages that have arrived. -/
structure State.LinksKept (s t : State) : Prop where
  words : ∀ a ∈ steadyWords, a ≠ CH_EPOCH → a ≠ CH_STAT → t.reg a = s.reg a
  parts : (t.formed, t.hoop.formAt, t.lstateSeq, t.linkDown, t.linkIn) = (s.formed, s.hoop.formAt, s.lstateSeq, s.linkDown, s.linkIn)
theorem State.Merged.linksKept {s t : State} (h : s.Merged t) : s.LinksKept t := by
  refine ⟨fun a ha _ _ => h.words a ha, ?_⟩
  obtain ⟨-, hparts⟩ := h
  simp only [Prod.mk.injEq] at hparts ⊢
  obtain ⟨hhoop, hformed, hseq, hdown, hin⟩ := hparts
  exact ⟨hformed, by rw [hhoop], hseq, hdown, hin⟩
theorem State.Steady.linksKept {live : Bool} {s t : State} (h : s.Steady live t) : s.LinksKept t := h.merged.linksKept
namespace State.LinksKept
variable {s t u : State}
theorem refl (s : State) : s.LinksKept s := ⟨fun _ _ _ _ => rfl, rfl⟩
theorem trans (h : s.LinksKept t) (h' : t.LinksKept u) : s.LinksKept u :=
  ⟨fun a ha he hs => (h'.words a ha he hs).trans (h.words a ha he hs), h'.parts.trans h.parts⟩
theorem setReg {a v : Nat} (h : s.LinksKept t) (ha : a ∈ steadyWords → a = CH_EPOCH ∨ a = CH_STAT) : s.LinksKept (t.setReg a v) where
  words b hb he hs := by
    refine (State.reg_setReg_ne t v fun e => ?_).trans (h.words b hb he hs)
    subst e
    exact (ha hb).elim he hs
  parts := h.parts
theorem setOther {a v : Nat} (h : s.LinksKept t) (ha : a ∉ steadyWords) : s.LinksKept (t.setReg a v) := h.setReg fun hmem => absurd hmem ha
/-- The charter's epoch and state may change. -/
theorem setEpoch {v : Nat} (h : s.LinksKept t) : s.LinksKept (t.setReg CH_EPOCH v) := h.setReg fun _ => .inl rfl
theorem setStat {hi lo v : Nat} (h : s.LinksKept t) : s.LinksKept (t.setFld CH_STAT hi lo v) := h.setReg fun _ => .inr rfl
theorem setHoop {x : Hoop} (h : s.LinksKept t) (hx : x.formAt = t.hoop.formAt) : s.LinksKept { t with hoop := x } :=
  ⟨h.words, (congrArg (fun f => (t.formed, f, t.lstateSeq, t.linkDown, t.linkIn)) hx).trans h.parts⟩
theorem sends (h : s.LinksKept t) (h' : t.Sends u) : s.LinksKept u := by
  refine h.trans ⟨fun a ha _ _ => h'.words a fun e => ?_, ?_⟩
  · subst e
    exact not_steady_of_page (by decide) ha
  · rw [h'.only]
theorem ite {p : Prop} [Decidable p] (ht : s.LinksKept t) (hu : s.LinksKept u) : s.LinksKept (if p then t else u) := by
  split
  · exact ht
  · exact hu
theorem foldl {α : Type} {f : State → α → State} {l : List α} (h : s.LinksKept t)
    (hf : ∀ {u}, ∀ x ∈ l, s.LinksKept u → s.LinksKept (f u x)) : s.LinksKept (l.foldl f t) :=
  List.foldlRecOn l f h fun _ hu x hx => hf x hx hu
theorem sendAll {typ : Nat} {l : List Nat} {bs : List Byte} (h : s.LinksKept t) : s.LinksKept (t.sendAll typ l bs) :=
  h.sends ((State.Sends.refl t).sendAll typ l bs)
theorem writeSeats {l : List Nat} (h : s.LinksKept t) : s.LinksKept (t.writeSeats l) :=
  h.foldl fun k hk hu => .ite hu (hu.setOther (not_steady_of_page (by
    have hk := List.mem_range.mp hk
    simp only [CH_SEAT_NOW, pg, List.mem_cons, List.not_mem_nil, or_false]
    omega)))
theorem startRound (h : s.LinksKept t) : s.LinksKept t.startRound := by
  obtain ⟨u, e, hsent, -, hround⟩ := startRound_leaves t
  rw [hround]
  refine (h.sends hsent).setHoop ?_
  rw [hsent.only]
end State.LinksKept

/-- What follows the renewal round of a commit; `mine` says that it admits this device. -/
def State.afterRound (s : State) (mine : Bool) (joins : List Nat) (taken : List (Nat × Nat)) : State :=
  let s4 := s.fullCredits.failScopes
  let s5 := if mine then s4.mergeJoiner taken else s4.mergeMember joins
  s5.planTakeovers.resealAll.newBuddies joins
theorem afterRound_merged (s : State) (mine : Bool) (joins : List Nat) (taken : List (Nat × Nat)) :
    s.Merged (s.afterRound mine joins taken) := by
  unfold State.afterRound
  extract_lets s4 s5
  have h4 : s.Merged s4 := (State.Steady.refl false s).fullCredits.failScopes.merged
  have h5 : s.Merged s5 := by
    unfold s5
    split
    · exact h4.trans (mergeJoiner_merged s4 taken)
    · exact h4.trans (State.Steady.refl false s4).mergeMember.merged
  have hplan : s.Merged s5.planTakeovers := h5.withMirrors _ _
  exact hplan.trans (State.Steady.refl false _).resealAll.newBuddies.merged

/-- The charter of an epoch is in force, and no hoop stands from before (R503). -/
def State.InForce (epoch : Nat) (t : State) : Prop :=
  t.reg CH_EPOCH = epoch % 2 ^ 32 ∧ t.fld CH_STAT 31 29 = 2 ∧ t.hoop.standing = false ∧ t.hoop.proposal = none
/-- The registers of a commit. -/
def State.charterWords (s : State) (epoch anchor : Nat) (l : List Nat) : State :=
  let s1 := s.writeSeats l
  (((((s1.setReg CH_EPOCH epoch).setFld CH_STAT 31 29 2).setFld CH_STAT 9 0 anchor).setFld CH_WEIGHT 15 0
    (sumBy s1.nowWeight l)).bump CH_CNT 15 0 1).setReg CH_CMD 0
/-- The hoop that a commit leaves behind for the round that it starts. -/
def State.commitHoop (s : State) (l : List Nat) : Hoop :=
  { s.hoop with
    standing := false, ends := if s.hoop.standing then s.rclk + s.extension else s.hoop.ends, racks := [], refused := [],
    proposal := none, missed := [], joiners := s.hoop.joiners.filter (fun k => !l.contains k) }
theorem applyCommit_eq (s : State) (epoch anchor : Nat) (l joins : List Nat) (taken : List (Nat × Nat)) :
    s.applyCommit epoch anchor l joins taken =
      ({ s.charterWords epoch anchor l with hoop := s.commitHoop l } : State).startRound.afterRound (joins.contains s.seat) joins taken := rfl
theorem charterWords_words (s : State) (epoch anchor : Nat) (l : List Nat) :
    (s.charterWords epoch anchor l).reg CH_EPOCH = epoch % 2 ^ 32 ∧ (s.charterWords epoch anchor l).fld CH_STAT 31 29 = 2 := by
  unfold State.charterWords
  extract_lets s1
  constructor
  · rw [State.reg_setReg_ne _ _ (by decide), State.reg_bump_ne _ _ (by decide), State.reg_setFld_ne _ _ _ _ (by decide),
      State.reg_setFld_ne _ _ _ _ (by decide), State.reg_setFld_ne _ _ _ _ (by decide), State.reg_setReg_same]
  · rw [State.fld_setReg_ne _ _ (by decide), State.bump, State.fld_setFld_ne _ _ (by decide), State.fld_setFld_ne _ _ (by decide),
      State.fld_setFld_apart _ _ _ (by decide) (by decide) (by decide) (by decide)]
    exact State.fld_setFld_same _ _ _ (by decide) (by decide)
theorem charterWords_hoop (s : State) (epoch anchor : Nat) (l : List Nat) : (s.charterWords epoch anchor l).hoop = s.hoop := by
  have hseats : s.RegsOnly (s.writeSeats l) := List.foldlRecOn (motive := s.RegsOnly) _ _ (.refl s) fun _ hu k _ => .ite hu hu.setReg
  obtain ⟨regs, hregs⟩ : s.RegsOnly (s.charterWords epoch anchor l) := hseats.setReg.setFld.setFld.setFld.bump.setReg
  rw [hregs]
theorem applyCommit_inForce (s : State) (epoch anchor : Nat) (l joins : List Nat) (taken : List (Nat × Nat)) :
    (s.applyCommit epoch anchor l joins taken).InForce epoch := by
  rw [applyCommit_eq]
  obtain ⟨hepoch, hstat⟩ := charterWords_words s epoch anchor l
  have hword (a : Nat) : ({ s.charterWords epoch anchor l with hoop := s.commitHoop l } : State).reg a = (s.charterWords epoch anchor l).reg a :=
    reg_of_regs (by with_reducible rfl)
  have hhoop : ({ s.charterWords epoch anchor l with hoop := s.commitHoop l } : State).hoop = s.commitHoop l := by with_reducible rfl
  generalize ({ s.charterWords epoch anchor l with hoop := s.commitHoop l } : State) = u at hword hhoop
  obtain ⟨hround, hstanding, hproposal⟩ := startRound_keeps u
  rw [hhoop] at hstanding hproposal
  have hmerged := afterRound_merged u.startRound (joins.contains s.seat) joins taken
  refine ⟨(hmerged.words _ (by decide)).trans ((hround _ (by decide)).trans ((hword _).trans hepoch)), ?_, ?_, ?_⟩
  · rw [State.fld, hmerged.words _ (by decide), hround _ (by decide), hword, ← State.fld, hstat]
  · rw [hmerged.hoop, hstanding]
    rfl
  · rw [hmerged.hoop, hproposal]
    rfl
theorem charterWords_linksKept {s t : State} (h : s.LinksKept t) (epoch anchor : Nat) (l : List Nat) :
    s.LinksKept (t.charterWords epoch anchor l) := by
  unfold State.charterWords
  extract_lets s1
  have h1 : s.LinksKept s1 := h.writeSeats
  exact .setOther (.setOther (.setOther h1.setEpoch.setStat.setStat (by decide)) (by decide)) (by decide)
theorem applyCommit_linksKept {s t : State} (h : s.LinksKept t) (epoch anchor : Nat) (l joins : List Nat) (taken : List (Nat × Nat)) :
    s.LinksKept (t.applyCommit epoch anchor l joins taken) := by
  rw [applyCommit_eq]
  have hkept : s.LinksKept { t.charterWords epoch anchor l with hoop := t.commitHoop l } := by
    refine (charterWords_linksKept h epoch anchor l).setHoop ?_
    rw [charterWords_hoop]
    rfl
  exact hkept.startRound.trans (afterRound_merged _ _ _ _).linksKept

namespace State.LinksKept
variable {s t : State}
theorem tryCommit (h : s.LinksKept t) : s.LinksKept t.tryCommit := by
  unfold State.tryCommit
  split
  · exact h
  · exact .ite h (applyCommit_linksKept h.sendAll _ _ _ _ _)
theorem propose {l joins : List Nat} {forming : Bool} (h : s.LinksKept t) : s.LinksKept (t.propose l joins forming) := by
  unfold State.propose
  extract_lets epoch p s1 _ s2
  have h2 : s.LinksKept s2 := h.setHoop rfl
  exact h2.sendAll.tryCommit
theorem tryForm (h : s.LinksKept t) : s.LinksKept t.tryForm := .ite h.propose h
theorem evalReach (h : s.LinksKept t) : s.LinksKept t.evalReach := by
  unfold State.evalReach
  extract_lets st l s1 s2 js
  have h1 : s.LinksKept s1 := h.setOther (by decide)
  have h2 : s.LinksKept s2 := .ite h1.setStat h1
  exact .ite (.ite h.tryForm h) (.ite (.ite h2.propose h2) (.ite h1 h1.setStat))
end State.LinksKept

section
variable (s : State)

/-- A device that may not propose counts the weight that it reaches and comes into force or leaves it, and nothing else differs (R514). -/
theorem evalReach_of_waits (h : s.mayPropose = false) : s.RegsOnly s.evalReach ∧ ∀ a, a ≠ CH_WEIGHT → a ≠ CH_STAT → s.evalReach.reg a = s.reg a := by
  have hform : s.tryForm = s := if_neg (by simp [h])
  unfold State.evalReach
  extract_lets st l s1 s2 js
  have h1 : s.RegsOnly s1 ∧ ∀ a, a ≠ CH_WEIGHT → a ≠ CH_STAT → s1.reg a = s.reg a :=
    ⟨(State.RegsOnly.refl s).setFld, fun a ha _ => State.reg_setFld_ne s _ _ _ ha⟩
  have hset (v : Nat) : s.RegsOnly (s1.setFld CH_STAT 31 29 v) ∧
      ∀ a, a ≠ CH_WEIGHT → a ≠ CH_STAT → (s1.setFld CH_STAT 31 29 v).reg a = s.reg a :=
    ⟨h1.1.setFld, fun a ha hs => (State.reg_setFld_ne _ _ _ _ hs).trans (h1.2 a ha hs)⟩
  have h2 : s.RegsOnly s2 ∧ ∀ a, a ≠ CH_WEIGHT → a ≠ CH_STAT → s2.reg a = s.reg a := by
    unfold s2
    split
    · exact hset 2
    · exact h1
  have hmay : s2.mayPropose = false := by
    have hout : s2.withdrawn = s.withdrawn := rbit_of_reg (h2.2 _ (by decide) (by decide))
    rw [State.mayPropose, hout]
    obtain ⟨regs, hregs⟩ := h2.1
    rw [hregs]
    exact h
  split
  · rw [hform, ite_self]
    exact ⟨.refl s, fun _ _ _ => rfl⟩
  · split
    · rw [hmay]
      exact h2
    · split
      · exact h1
      · exact hset 3

/-- The epoch of a message that is not above the device's own changes nothing (R518). -/
theorem seeEpoch_of_le {epoch : Nat} (h : epoch ≤ s.reg CH_EPOCH) : s.seeEpoch epoch = s := if_neg fun hlt => absurd hlt.1 (by omega)
end

end Sys2Proof.Machine
end

-- ==== Links: O54 ====
section
/-! SUPPORT. What the links send leaves, what a flit in order does to its port and its message, the loss and the training of a link, and
what a wake leaves. -/

namespace Sys2Proof.Machine

open Sys2Proof.Claims

/-! ## What sending leaves of a port -/

/-- The number of the next flit to arrive and the use of the spare lane are as they were. -/
def LinkPort.Kept (x y : LinkPort) : Prop := y.rxSeq = x.rxSeq ∧ y.spare = x.spare
theorem LinkPort.Kept.refl (x : LinkPort) : x.Kept x := ⟨rfl, rfl⟩
theorem LinkPort.Kept.trans {x y z : LinkPort} (h : x.Kept y) (h' : y.Kept z) : x.Kept z := ⟨h'.1.trans h.1, h'.2.trans h.2⟩
theorem LinkPort.ackTo_kept (x : LinkPort) (ack : Nat) : x.Kept (x.ackTo ack) := by
  unfold LinkPort.ackTo
  split <;> exact ⟨rfl, rfl⟩
theorem LinkPort.ackTo_attempts (x : LinkPort) (ack : Nat) : (x.ackTo ack).attempts ≤ x.attempts := by
  unfold LinkPort.ackTo
  split
  · exact Nat.zero_le _
  · exact le_rfl
theorem LinkPort.creditBack_kept (x : LinkPort) (vc hop k : Nat) :
    x.Kept (x.creditBack vc hop k) ∧ (x.creditBack vc hop k).attempts = x.attempts := by
  induction k generalizing x with
  | zero => exact ⟨.refl x, rfl⟩
  | succ k ih =>
    unfold LinkPort.creditBack
    split
    · exact ih { x with pool := min 512 (x.pool + 1) }
    · exact ih { x with resv := x.resv.erase (vc, hop + 1) }

section
variable {s t : State} {p : Nat}

theorem link_setLink_same (s : State) (p : Nat) (x : LinkPort) : (s.setLink p x).link p = x := Sp.get_set_same _ _ _ _
theorem link_setLink_ne (s : State) {p q : Nat} (x : LinkPort) (h : q ≠ p) : (s.setLink p x).link q = s.link q := Sp.get_set_ne _ _ _ h
theorem link_of_links (h : t.links = s.links) (q : Nat) : t.link q = s.link q := by rw [State.link, h, ← State.link]
theorem link_bump (s : State) (a hi lo k q : Nat) : (s.bump a hi lo k).link q = s.link q := by
  refine link_of_links ?_ q
  rw [State.bump_regs_only]
theorem linkState_of_reg (h : t.reg (LNK_STAT p) = s.reg (LNK_STAT p)) : t.linkState p = s.linkState p := by
  rw [State.linkState, State.fld, h, ← State.fld, ← State.linkState]

/-- From s to t every port keeps the number of its next flit and its spare lane. -/
def State.PortsKept (s t : State) : Prop := ∀ q, (s.link q).Kept (t.link q)
theorem State.PortsKept.refl (s : State) : s.PortsKept s := fun _ => .refl _
theorem State.PortsKept.setLink {x : LinkPort} (h : s.PortsKept t) (hx : (t.link p).Kept x) : s.PortsKept (t.setLink p x) := fun q => by
  by_cases hq : q = p
  · subst hq
    rw [link_setLink_same]
    exact (h q).trans hx
  · rw [link_setLink_ne t x hq]
    exact h q
theorem State.PortsKept.emit (h : s.PortsKept t) (seq : Nat) (f : List Byte) : s.PortsKept (t.emit p seq f) := by
  unfold State.emit
  extract_lets x
  split
  next c owed _ =>
    have hset : s.PortsKept (t.setLink p { x with owed := owed, nak := false }) := h.setLink ⟨rfl, rfl⟩
    exact fun q => hset q
theorem State.PortsKept.pump (h : s.PortsKept t) (fuel : Nat) : s.PortsKept (t.pump p fuel) := by
  induction fuel generalizing t with
  | zero => exact h
  | succ fuel ih =>
    unfold State.pump
    extract_lets x
    split
    · exact h
    · split
      · exact h
      · refine ih (.emit (.setLink h ?_) _ _)
        exact ⟨rfl, rfl⟩
theorem State.PortsKept.queueFlit (h : s.PortsKept t) (f : List Byte) : s.PortsKept (t.queueFlit p f) :=
  .pump (.setLink (x := { t.link p with queue := (t.link p).queue ++ [f] }) h ⟨rfl, rfl⟩) _
theorem State.PortsKept.sendPort (h : s.PortsKept t) (typ : Nat) (payload : List Byte) : s.PortsKept (t.sendPort typ p payload) := by
  unfold State.sendPort
  extract_lets vc id t1
  have h1 : s.PortsKept t1 := h
  exact List.foldlRecOn (motive := s.PortsKept) _ _ h1 fun _ hu f _ => hu.queueFlit f
theorem State.PortsKept.resend (h : s.PortsKept t) : s.PortsKept (t.resend p) :=
  List.foldlRecOn (motive := s.PortsKept) _ _ h fun _ hu r _ => hu.emit r.1 r.2
theorem State.PortsKept.answer (h : s.PortsKept t) (s0 : State) : s.PortsKept (s0.answer t p) := by
  unfold State.answer
  split
  · exact h.emit _ _
  · exact h
theorem State.Sends.resend (h : s.Sends t) : s.Sends (t.resend p) :=
  List.foldlRecOn (motive := s.Sends) _ _ h fun _ hu r _ => hu.emit p r.1 r.2
theorem State.Sends.answer (h : s.Sends t) (s0 : State) : s.Sends (s0.answer t p) := by
  unfold State.answer
  split
  · exact h.emit _ _ _
  · exact h
theorem State.Sends.linkIn (h : s.Sends t) : t.linkIn = s.linkIn := by rw [h.only]
theorem State.Sends.linkState (h : s.Sends t) (p : Nat) : t.linkState p = s.linkState p := linkState_of_reg (h.words _ (by
  simp only [LNK_STAT, LNK_DEV_CNT, pg]
  omega))
end

/-! ## A flit that cannot be corrected (R482, R488) -/

/-- The NAK of a control word (R483). -/
theorem bit_controlWord (flit : List Byte) (seq ack : Nat) (nak : Bool) {cvc chop ccnt : Nat} (hvc : cvc < 4) (hhop : chop < 32) (hcnt : ccnt < 8) :
    bit (ofBytes ((controlWord flit seq ack nak cvc chop ccnt).drop 4)) 11 = nak := by
  unfold controlWord
  extract_lets hi
  rw [List.drop_left' (toBytes_length 4 _), ofBytes_toBytes, bit, bits]
  cases nak
  · rw [beq_eq_false_iff_ne]
    simp only [Bool.false_eq_true, if_false]
    omega
  · rw [beq_iff_eq, if_pos rfl]
    omega
/-- A port that owes no credit and asks for a resend sends an idle flit whose control word carries the NAK. -/
theorem emit_nak {s : State} {p seq : Nat} (howed : (s.link p).owed = []) (hnak : (s.link p).nak = true) :
    ∃ w, (s.emit p seq idleFlit).linkOut = s.linkOut ++ [(p, idleFlit ++ w)] ∧ bit (ofBytes (w.drop 4)) 11 = true := by
  have hcred : (s.link p).nextCredits = ((0, 0x1F, 0), []) := by
    unfold LinkPort.nextCredits
    rw [howed]
  unfold State.emit
  extract_lets x
  rw [hcred]
  refine ⟨_, rfl, ?_⟩
  rw [bit_controlWord _ _ _ _ (by decide) (by decide) (by decide)]
  exact hnak
theorem badFlit_naks {l : Fin 6} {s : State} (hup : s.linkState l.val = 2) (howed : (s.link l.val).owed = []) (b : List Byte) :
    Next (exec (.linkFlit l b 0xFFFF) s) fun t => (t.link l.val).rxSeq = (s.link l.val).rxSeq ∧ t.linkIn = s.linkIn ∧
      ∃ w, t.linkOut = s.linkOut ++ [(l.val, List.replicate 256 0 ++ w)] ∧ bit (ofBytes (w.drop 4)) 11 = true := by
  let u := s.setLink l.val { s.link l.val with nak := true, lost := true }
  have hrun : exec (.linkFlit l b 0xFFFF) s = .next (s.answer u l.val) := (if_neg (not_not.mpr hup)).trans (if_pos (.inl (by decide)))
  have hanswer : s.answer u l.val = u.emit l.val (u.link l.val).txSeq idleFlit := if_pos ⟨rfl, hup⟩
  have hport : u.link l.val = { s.link l.val with nak := true, lost := true } := link_setLink_same s _ _
  have hkept : s.PortsKept (s.answer u l.val) := (State.PortsKept.setLink
    (x := { s.link l.val with nak := true, lost := true }) (.refl s) ⟨rfl, rfl⟩).answer s
  have hsent : s.Sends (s.answer u l.val) := ((State.Sends.refl s).setLink _ _).answer s
  refine ⟨_, hrun, (hkept l.val).1, hsent.linkIn, ?_⟩
  rw [hanswer]
  exact emit_nak (by rw [hport]; exact howed) (by rw [hport])

/-! ## A flit in order (R481, R482, R488) -/

section
variable {s : State} {p : Nat}

/-- What the control word and the taking of a flit leave: the messages that have arrived, the number of the next flit and the words of the
port's state, of the seat and of the epoch. -/
structure State.Listens (p : Nat) (s t : State) : Prop where
  linkIn : t.linkIn = s.linkIn
  ports : s.PortsKept t
  words : ∀ a ∈ [LNK_STAT p, LNK_CFG, CH_EPOCH], t.reg a = s.reg a

theorem listens_ne {a b : Nat} (hp : p < 6) (ha : a ∈ [LNK_STAT p, LNK_CFG, CH_EPOCH]) (hb : b ∈ [LNK_CNT p, LNK_FEC p, LNK_DEV_CNT]) : a ≠ b := by
  simp only [List.mem_cons, List.not_mem_nil, or_false] at ha hb
  rcases ha with rfl | rfl | rfl <;>
  · simp only [LNK_STAT, LNK_CFG, CH_EPOCH, LNK_CNT, LNK_FEC, LNK_DEV_CNT, pg] at hb ⊢
    omega
theorem takeControl_listens {hi : Nat} (hp : p < 6) (h : bit hi 11 = false ∨ (s.link p).attempts < 16) :
    s.Listens p (s.takeControl p hi) := by
  unfold State.takeControl
  extract_lets x x1 s1
  have hx1 : (s.link p).Kept x1 ∧ x1.attempts ≤ (s.link p).attempts := by
    obtain ⟨hkept, hattempts⟩ := LinkPort.creditBack_kept x (bits hi 10 9) (bits hi 8 4) (bits hi 3 1)
    exact ⟨(LinkPort.ackTo_kept _ _).trans hkept, hattempts.trans_le (LinkPort.ackTo_attempts _ _)⟩
  split
  next hnak =>
    have hfew : ¬16 ≤ x1.attempts := by
      have hatt := h.resolve_left (by rw [hnak]; decide)
      omega
    rw [if_neg hfew]
    have hport : s.PortsKept s1 := fun q => by
      unfold s1
      rw [link_bump]
      exact (State.PortsKept.refl s).setLink (x := { x1 with attempts := x1.attempts + 1, nak := x1.nak || x1.lost }) hx1.1 q
    have hsent : s1.Sends (s1.resend p) := (State.Sends.refl s1).resend
    have hin : s1.linkIn = s.linkIn := by
      unfold s1
      rw [State.bump_regs_only]
      rfl
    exact ⟨hsent.linkIn.trans hin, hport.resend, fun a ha => (hsent.words a (listens_ne hp ha (by simp))).trans
      (State.reg_setFld_ne _ _ _ _ (listens_ne hp ha (by simp)))⟩
  · exact ⟨rfl, (State.PortsKept.refl s).setLink hx1.1, fun _ _ => rfl⟩

theorem State.Listens.trans {t u : State} (h : s.Listens p t) (h' : t.Listens p u) : s.Listens p u :=
  ⟨h'.linkIn.trans h.linkIn, fun q => (h.ports q).trans (h'.ports q), fun a ha => (h'.words a ha).trans (h.words a ha)⟩
/-- The symbols that the code corrected are counted. -/
theorem counted_listens (s : State) (l : Fin 6) (n : Nat) : s.Listens l.val (s.bump (LNK_FEC l.val) 31 0 n) where
  linkIn := by rw [State.bump_regs_only]
  ports q := by
    rw [link_bump]
    exact .refl _
  words a ha := State.reg_setFld_ne _ _ _ _ (listens_ne l.isLt ha (by simp))

/-- A flit of one piece for this device joins its message, which it completes. -/
theorem assemble_whole {f : List Byte} (h : flitN f 0x0E 2 = 2 ^ 15) : (s.assemble p f).linkIn =
    s.linkIn ++ [⟨flitN f 0 1, flitN f 4 2, flitN f 8 4, p, (f.drop 16).take (min 240 (flitN f 2 2))⟩] ∧
      (s.assemble p f).links = s.links := by
  have hnum : bits (flitN f 0x0E 2) 14 0 = 0 := by
    rw [h]
    decide
  have hlast : bit (flitN f 0x0E 2) 15 = true := by
    rw [h]
    decide
  unfold State.assemble
  simp only [hnum, hlast, if_true, List.nil_append, ne_eq, not_true_eq_false, if_false, and_self]
/-- The credit of a flit's buffer is owed to the peer (R485): nothing but the port differs. -/
theorem owe_leaves (f : List Byte) : s.PortsKept (s.owe p f) ∧ ∃ x, s.owe p f = s.setLink p x := by
  have hset (x : LinkPort) (hx : (s.link p).Kept x) : s.PortsKept (s.setLink p x) ∧ ∃ x', s.setLink p x = s.setLink p x' :=
    ⟨(State.PortsKept.refl s).setLink hx, x, rfl⟩
  unfold State.owe
  extract_lets x
  split
  · exact hset _ ⟨rfl, rfl⟩
  · exact hset _ ⟨rfl, rfl⟩
/-- A flit for this device of the epoch in force. -/
structure State.MineIn (s : State) (f : List Byte) : Prop where
  kind : 0 < flitN f 0 1
  known : flitN f 0 1 < 0x0E
  dst : flitN f 6 2 = 0xFFFF ∨ flitN f 6 2 = s.seat
  epoch : flitVc f = 3 ∨ flitN f 8 4 = s.reg CH_EPOCH
theorem takeFrame_whole {f : List Byte} {hi : Nat} (hseq : bits hi 31 22 = (s.link p).rxSeq) (hf : s.MineIn f)
    (hlast : flitN f 0x0E 2 = 2 ^ 15) : ((s.takeFrame p hi f).link p).rxSeq = ((s.link p).rxSeq + 1) % 1024 ∧
      (s.takeFrame p hi f).linkIn =
        s.linkIn ++ [⟨flitN f 0 1, flitN f 4 2, flitN f 8 4, p, (f.drop 16).take (min 240 (flitN f 2 2))⟩] := by
  obtain ⟨hkind, hknown, hdst, hepoch⟩ := hf
  let u := s.setLink p { s.link p with rxSeq := ((s.link p).rxSeq + 1) % 1024, lost := false }
  obtain ⟨hports, x, howe⟩ := owe_leaves (s := u) (p := p) f
  have hframe : s.takeFrame p hi f = u.takeLinkFlit p f := (if_neg (by omega)).trans (if_pos hseq)
  have hflit : u.takeLinkFlit p f = (u.owe p f).assemble p f :=
    (if_neg (by omega)).trans ((if_pos hdst).trans (if_neg fun hstale => hepoch.elim hstale.1 fun he => hstale.2 he))
  obtain ⟨hin, hlinks⟩ := assemble_whole (s := u.owe p f) (p := p) hlast
  rw [hframe, hflit]
  refine ⟨?_, ?_⟩
  · rw [link_of_links hlinks, (hports p).1]
    exact congrArg LinkPort.rxSeq (link_setLink_same s p _)
  · rw [hin, howe]
    rfl
end

theorem inOrder_joins {l : Fin 6} {s : State} (hup : s.linkState l.val = 2) {b : List Byte} {fec : BitVec 16} (hlen : b.length = 264)
    (hfec : fec ≠ 0xFFFF#16) (hcrc : crc32c (b.take 256 ++ b.drop 260) = ofBytes ((b.drop 256).take 4))
    (hseq : bits (ofBytes (b.drop 260)) 31 22 = (s.link l.val).rxSeq) (hf : s.MineIn (b.take 256))
    (hlast : flitN (b.take 256) 0x0E 2 = 2 ^ 15) (hnak : bit (ofBytes (b.drop 260)) 11 = false ∨ (s.link l.val).attempts < 16) :
    Next (exec (.linkFlit l b fec) s) fun t => (t.link l.val).rxSeq = ((s.link l.val).rxSeq + 1) % 1024 ∧
      t.linkIn = s.linkIn ++ [⟨flitN (b.take 256) 0 1, flitN (b.take 256) 4 2, flitN (b.take 256) 8 4, l.val,
        ((b.take 256).drop 16).take (min 240 (flitN (b.take 256) 2 2))⟩] := by
  have hcw : (b.drop 256).drop 4 = b.drop 260 := List.drop_drop
  have hgood : ¬(fec.toNat = 0xFFFF ∨ b.length ≠ 264 ∨ crc32c (b.take 256 ++ (b.drop 256).drop 4) ≠ ofBytes ((b.drop 256).take 4)) := by
    rw [hcw]
    rintro (h | h | h)
    · exact hfec (BitVec.eq_of_toNat_eq h)
    · exact h hlen
    · exact h hcrc
  have hrun : exec (.linkFlit l b fec) s =
      (let s0 := (s.bump (LNK_FEC l.val) 31 0 fec.toNat).takeControl l.val (ofBytes ((b.drop 256).drop 4))
       if s0.linkState l.val ≠ 2 then .next s0
       else
         let s1 := (s0.takeFrame l.val (ofBytes ((b.drop 256).drop 4)) (b.take 256)).pump l.val 1024
         .next (if flitN (b.take 256) 0 1 = 0 then s1 else s.answer s1 l.val)) := (if_neg (not_not.mpr hup)).trans (if_neg hgood)
  rw [hcw] at hrun
  generalize b.take 256 = f at *
  generalize ofBytes (b.drop 260) = hi at *
  have hcontrol := (counted_listens s l fec.toNat).trans (takeControl_listens l.isLt (hi := hi) (by
    rw [link_bump]
    exact hnak))
  generalize (s.bump (LNK_FEC l.val) 31 0 fec.toNat).takeControl l.val hi = s0 at hcontrol hrun
  obtain ⟨hin, hports, hwords⟩ := hcontrol
  have hup0 : s0.linkState l.val = 2 := (linkState_of_reg (hwords _ (by simp))).trans hup
  have hmine : s0.MineIn f := by
    obtain ⟨hkind, hknown, hdst, hepoch⟩ := hf
    refine ⟨hkind, hknown, ?_, ?_⟩
    · rw [State.seat, State.fld, hwords _ (by simp)]
      exact hdst
    · rw [hwords _ (by simp)]
      exact hepoch
  obtain ⟨hrx, hjoined⟩ := takeFrame_whole (hseq.trans (hports l.val).1.symm) hmine hlast
  rw [(hports l.val).1] at hrx
  rw [hin] at hjoined
  have hfull : ¬flitN f 0 1 = 0 := by
    have hkind := hf.kind
    omega
  refine ⟨_, hrun.trans (if_neg (not_not.mpr hup0)), ?_⟩
  generalize s0.takeFrame l.val hi f = u at hrx hjoined
  have hkept : u.PortsKept (s.answer (u.pump l.val 1024) l.val) := (State.PortsKept.refl u |>.pump 1024).answer s
  have hsent : u.Sends (s.answer (u.pump l.val 1024) l.val) := ((State.Sends.refl u).pump _ _).answer s
  simp only [hfull, if_false]
  exact ⟨(hkept l.val).1.trans hrx, hsent.linkIn.trans hjoined⟩

/-! ## Lanes, losses and training (R489, R490, R495, R496) -/

section
variable {l : Fin 6} {s : State}

theorem unlogged_lnkStat (l : Fin 6) : State.Unlogged (LNK_STAT l.val) := by
  simp only [State.Unlogged, LNK_STAT, pg]
  omega
theorem unlogged_lnkCnt (l : Fin 6) : State.Unlogged (LNK_CNT l.val) := by
  simp only [State.Unlogged, LNK_CNT, pg]
  omega
theorem lnkStat_ne_cnt (p q : Nat) : LNK_STAT p ≠ LNK_CNT q ∧ LNK_STAT p ≠ LNK_DEV_CNT ∧ (q < 6 → LNK_CNT q ≠ LNK_DEV_CNT) := by
  simp only [LNK_STAT, LNK_CNT, LNK_DEV_CNT, pg]
  omega
theorem mem_steady_link (l : Fin 6) : LNK_STAT l.val ∈ steadyWords ∧ LNK_CNT l.val ∈ steadyWords := by
  revert l
  decide
/-- The bits of a port's lanes beside those of its state. -/
theorem moveLane_bits {lane : Nat} (hlane : lane < 4) (t : State) (p : Nat) :
    ((t.setBit (LNK_STAT p) lane false).setBit (LNK_STAT p) 4 true).rbit (LNK_STAT p) lane = false ∧
      ((t.setBit (LNK_STAT p) lane false).setBit (LNK_STAT p) 4 true).rbit (LNK_STAT p) 4 = true ∧
      ((t.setBit (LNK_STAT p) lane false).setBit (LNK_STAT p) 4 true).linkState p = t.linkState p := by
  refine ⟨?_, State.rbit_setBit_same _ _ _ (by decide), ?_⟩
  · rw [State.rbit_setBit_apart _ _ _ (by decide) (by omega), State.rbit_setBit_same _ _ _ (by omega)]
  · rw [State.linkState, State.fld_setBit_apart _ _ _ (by decide) (by decide) (by omega),
      State.fld_setBit_apart _ _ _ (by decide) (by decide) (by omega), ← State.linkState]
theorem laneFail_moves {lane : Fin 5} (hup : s.linkState l.val = 2) (hlane : lane.val < 4) (hwork : s.rbit (LNK_STAT l.val) lane.val = true)
    (hspare : (s.link l.val).spare = false) : Next (exec (.laneFail l lane) s) fun t => t.rbit (LNK_STAT l.val) lane.val = false ∧
      t.rbit (LNK_STAT l.val) 4 = true ∧ (t.link l.val).spare = true ∧ t.linkState l.val = 2 := by
  let s1 := (s.log 0x38 (0x48 + l.val) 7 (s.linkInfo l.val lane.val)).setLink l.val { s.link l.val with spare := true }
  let s2 := (s1.setBit (LNK_STAT l.val) lane.val false).setBit (LNK_STAT l.val) 4 true
  have hrun : exec (.laneFail l lane) s = .next (s2.sendPort tyLANECTL l.val (toBytes 1 1 ++ toBytes 1 lane.val)) :=
    (if_neg (not_not.mpr hup)).trans ((if_neg (by simp [hwork])).trans (if_neg (by simp [hspare])))
  obtain ⟨hoff, hon, hstate⟩ := moveLane_bits hlane s1 l.val
  have hup1 : s1.linkState l.val = 2 := (State.fld_log s (unlogged_lnkStat l) _ _ _ _).trans hup
  have hsent : s2.Sends (s2.sendPort tyLANECTL l.val (toBytes 1 1 ++ toBytes 1 lane.val)) := (State.Sends.refl s2).sendPort _ _ _
  have hports : s2.PortsKept (s2.sendPort tyLANECTL l.val (toBytes 1 1 ++ toBytes 1 lane.val)) := (State.PortsKept.refl s2).sendPort _ _
  have hbit (k : Nat) := rbit_of_reg (k := k) (hsent.words (LNK_STAT l.val) (lnkStat_ne_cnt l.val 0).2.1)
  refine ⟨_, hrun, (hbit _).trans hoff, (hbit _).trans hon, (hports l.val).2.trans ?_, (hsent.linkState _).trans (hstate.trans hup1)⟩
  have hport : s2.link l.val = s1.link l.val := link_of_links ((State.setReg_links _ _ _).trans (State.setReg_links _ _ _)) _
  rw [hport]
  exact congrArg LinkPort.spare (link_setLink_same _ _ _)

/-- The waiting flits of a port take their routes again, or are counted. -/
theorem requeue_sends (s : State) (p : Nat) : s.Sends (s.requeue p) := by
  unfold State.requeue
  refine List.foldlRecOn (motive := s.Sends) _ _ ((State.Sends.refl s).setLink _ _) fun u hu f _ => ?_
  split
  · exact hu.queueFlit _ _
  · exact hu.devCnt _ _ _
/-- A notice goes out on every live port: of the words, only the count of what had no route may differ. -/
theorem flood_words (s : State) (p : Nat) {a : Nat} (ha : a ≠ LNK_DEV_CNT) : (s.flood p).reg a = s.reg a := by
  unfold State.flood
  extract_lets k s1 b
  have hsent : s1.Sends ((List.range 6).foldl (fun s q => if s.linkState q = 2 then s.sendPort tyLSTATE q b else s) s1) :=
    List.foldlRecOn (motive := s1.Sends) _ _ (.refl s1) fun u hu q _ => by
      split
      · exact hu.sendPort _ _ _
      · exact hu
  exact (hsent.words a ha).trans (reg_of_regs (by with_reducible rfl))
/-- What follows once a port is lost leaves its state and its count. -/
theorem reroute_words (u : State) (l : Fin 6) {a : Nat} (ha : a = LNK_STAT l.val ∨ a = LNK_CNT l.val) :
    (((u.requeue l.val).flood l.val).evalReach).reg a = u.reg a := by
  have hne : a ≠ LNK_DEV_CNT ∧ a ≠ CH_EPOCH ∧ a ≠ CH_STAT ∧ a ∈ steadyWords := by
    rcases ha with rfl | rfl
    · revert l
      decide
    · revert l
      decide
  obtain ⟨hdev, hepoch, hstat, hmem⟩ := hne
  exact ((State.LinksKept.refl _).evalReach.words a hmem hepoch hstat).trans
    ((flood_words _ _ hdev).trans ((requeue_sends u l.val).words a hdev))
/-- A port that has lost its link: logged and counted, its buffers as after a reset but the flits that wait. -/
def State.portLost (s : State) (p : Nat) : State :=
  ((((s.log 0x39 (0x48 + p) 0 (s.linkInfo p 0)).bump (LNK_CNT p) 15 0 1).bump LNK_DEV_CNT 10 0 (s.link p).retry.length).setLinkState p 0).setLink p
    { LinkPort.reset with queue := (s.link p).queue }
theorem loseLink_eq (s : State) (p : Nat) : s.loseLink p = (((s.portLost p).requeue p).flood p).evalReach := rfl
theorem portLost_words (s : State) (l : Fin 6) : (s.portLost l.val).linkState l.val = 0 ∧
    (s.portLost l.val).fld (LNK_CNT l.val) 15 0 = min (s.fld (LNK_CNT l.val) 15 0 + 1) 0xFFFF := by
  obtain ⟨hstat, -, hcnt⟩ := lnkStat_ne_cnt l.val l.val
  have hlog : (s.log 0x39 (0x48 + l.val) 0 (s.linkInfo l.val 0)).fld (LNK_CNT l.val) 15 0 = s.fld (LNK_CNT l.val) 15 0 :=
    State.fld_log _ (unlogged_lnkCnt l) _ _ _ _
  unfold State.portLost
  generalize s.log 0x39 (0x48 + l.val) 0 (s.linkInfo l.val 0) = u at hlog
  have hset (v : State) (x : LinkPort) (a hi lo : Nat) : (v.setLink l.val x).fld a hi lo = v.fld a hi lo := rfl
  constructor
  · exact (hset _ _ _ _ _).trans (linkState_setLinkState_same _ l.val (by decide))
  · rw [hset, State.setLinkState, State.fld_setFld_ne _ _ hstat.symm, State.bump, State.fld_setFld_ne _ _ (hcnt l.isLt),
      State.fld_bump_same _ _ _ (by decide) (by decide), hlog]
    rfl
/-- The loss of a link (R490): its state and its count. -/
theorem loseLink_words (s : State) (l : Fin 6) : (s.loseLink l.val).linkState l.val = 0 ∧
    (s.loseLink l.val).fld (LNK_CNT l.val) 15 0 = min (s.fld (LNK_CNT l.val) 15 0 + 1) 0xFFFF := by
  obtain ⟨hstate, hcnt⟩ := portLost_words s l
  rw [loseLink_eq]
  generalize s.portLost l.val = u at hstate hcnt
  refine ⟨(linkState_of_reg (reroute_words u l (.inl rfl))).trans hstate, ?_⟩
  rw [State.fld, reroute_words u l (.inr rfl), ← State.fld, hcnt]
theorem lnkLost_loses (hup : s.linkState l.val = 2) : Next (exec (.lnkLost l) s) fun t => t.linkState l.val = 0 ∧
    t.fld (LNK_CNT l.val) 15 0 = min (s.fld (LNK_CNT l.val) 15 0 + 1) 0xFFFF :=
  ⟨_, if_neg (not_not.mpr hup), loseLink_words s l⟩
end

/-! ## Messages (R348, R472, R489, R496) -/

section
variable {s : State} {m : LMsg}

/-- A command that consumes a message does so with the oldest of its type. -/
theorem onMsg_of_found {typ : Nat} (h : s.linkIn.find? (fun y => y.typ == typ) = some m) (k : LMsg → State → State) :
    onMsg typ s k = .next (k m { s with linkIn := s.linkIn.erase m }) := by
  unfold onMsg State.popMsg
  rw [h]

/-- Another device's part of a collective is kept under its tag and seat. -/
theorem data_keeps_part (h : s.linkIn.find? (fun y => y.typ == 0x01) = some m) (hkind : ofBytes ((m.payload.drop 0).take 1) = 1) :
    Next (exec .data s) fun t => t.linkIn = s.linkIn.erase m ∧
      (ofBytes ((m.payload.drop 2).take 2), m.src, m.payload.drop 1) ∈ t.remote ∧ t = { s with linkIn := t.linkIn, remote := t.remote } := by
  have hrun : exec .data s = .next (State.takeData { s with linkIn := s.linkIn.erase m } m) :=
    onMsg_of_found h fun m t => t.takeData m
  refine ⟨_, hrun, ?_⟩
  unfold State.takeData
  extract_lets b n
  have hn : n 0 1 = 1 := hkind
  rw [hn]
  exact ⟨rfl, List.mem_append_right _ (List.mem_singleton.mpr rfl), rfl⟩
/-- A credit return of a remote ring adds to its credits, up to the ring's size. -/
theorem msg_returns_credit {r : RemoteRing} (h : s.linkIn.find? (fun y => y.typ == 0x02) = some m)
    (hkind : ofBytes ((m.payload.drop 0).take 1) = 1) (hring : s.outRing m.src (ofBytes ((m.payload.drop 2).take 2)) = some r) :
    Next (exec .msg s) fun t =>
      let k := remoteKey m.src (ofBytes ((m.payload.drop 2).take 2)) (ofBytes ((m.payload.drop 4).take 2))
      t.credit k = min r.size (s.credit k + ofBytes ((m.payload.drop 6).take 2)) ∧ (∀ j, j ≠ k → t.credit j = s.credit j) ∧
      t = { s with linkIn := s.linkIn.erase m, credits := t.credits } := by
  have hrun : exec .msg s = .next (State.takeMsg { s with linkIn := s.linkIn.erase m } m) :=
    onMsg_of_found h fun m t => t.takeMsg m
  refine ⟨_, hrun, ?_⟩
  unfold State.takeMsg
  extract_lets k b n
  have hn : n 0 1 = 1 := hkind
  have hr : ({ s with linkIn := s.linkIn.erase m } : State).outRing m.src (n 2 2) = some r := hring
  rw [hn]
  dsimp only
  rw [hr]
  exact ⟨Sp.get_set_same _ _ _ _, fun j hj => Sp.get_set_ne _ _ _ hj, rfl⟩
/-- A notice with a higher number for its seat is applied (R496). -/
theorem lstate_applies (h : s.linkIn.find? (fun y => y.typ == 0x07) = some m) (hepoch : m.epoch ≤ s.reg CH_EPOCH)
    (hnew : Sp.get (fun _ => 0) s.lstateSeq (ofBytes ((m.payload.drop 0).take 2)) < ofBytes ((m.payload.drop 4).take 4)) :
    Next (exec .lstate s) fun t =>
      Sp.get (fun _ => 0) t.lstateSeq (ofBytes ((m.payload.drop 0).take 2)) = ofBytes ((m.payload.drop 4).take 4) ∧
      Sp.get (fun _ => false) t.linkDown (8 * ofBytes ((m.payload.drop 0).take 2) + ofBytes ((m.payload.drop 2).take 1)) =
        decide (ofBytes ((m.payload.drop 3).take 1) ≠ 2) := by
  have hrun : exec .lstate s = .next (State.takeLstate { s with linkIn := s.linkIn.erase m } m) :=
    onMsg_of_found h fun m t => t.takeLstate m
  refine ⟨_, hrun, ?_⟩
  unfold State.takeLstate
  extract_lets n seat s0 s1
  have hs0 : s0 = { s with linkIn := s.linkIn.erase m } := seeEpoch_of_le _ hepoch
  rw [hs0, if_neg (not_le.mpr hnew)]
  have hkept : s1.LinksKept (((List.range 6).foldl (fun s q => if q ≠ m.port ∧ s.linkState q = 2 then s.sendPort tyLSTATE q m.payload else s)
      s1).evalReach) :=
    (State.LinksKept.foldl (.refl s1) fun q _ hu => .ite (hu.sends ((State.Sends.refl _).sendPort _ _ _)) hu).evalReach
  have hparts := hkept.parts
  simp only [Prod.mk.injEq] at hparts
  obtain ⟨-, -, hseq, hdown, -⟩ := hparts
  dsimp only
  rw [hseq, hdown]
  refine ⟨Sp.get_set_same _ _ _ _, (Sp.get_set_same _ _ _ _).trans ?_⟩
  cases hst : decide (n 3 1 ≠ 2) <;> simp_all
/-- The peer has moved a lane's place to the spare. -/
theorem lanectl_moves {l : Fin 6} (h : s.linkIn.find? (fun y => y.typ == 0x0D && y.port == l.val) = some m)
    (hkind : ofBytes ((m.payload.drop 0).take 1) = 1) (hlane : ofBytes ((m.payload.drop 1).take 1) < 4) :
    Next (exec (.lanectl l) s) fun t => t.rbit (LNK_STAT l.val) (ofBytes ((m.payload.drop 1).take 1)) = false ∧
      t.rbit (LNK_STAT l.val) 4 = true ∧ (t.link l.val).spare = true ∧
      t = { s with linkIn := s.linkIn.erase m, regs := t.regs, links := t.links } := by
  let s1 : State := { s with linkIn := s.linkIn.erase m }
  let s2 := (s1.setBit (LNK_STAT l.val) (ofBytes ((m.payload.drop 1).take 1)) false).setBit (LNK_STAT l.val) 4 true
  have hrun : exec (.lanectl l) s = .next (s2.setLink l.val { s1.link l.val with spare := true }) := by
    show execLanectl l s = _
    unfold execLanectl
    have hfind : s.linkIn.find? (fun m => m.typ == tyLANECTL && m.port == l.val) = some m := h
    rw [hfind]
    exact if_pos ⟨hkind, hlane⟩
  obtain ⟨hoff, hon, -⟩ := moveLane_bits hlane s1 l.val
  obtain ⟨regs, hregs⟩ : s1.RegsOnly s2 := (State.RegsOnly.refl s1).setBit.setBit
  refine ⟨_, hrun, hoff, hon, congrArg LinkPort.spare (link_setLink_same _ _ _), ?_⟩
  rw [hregs]
  rfl
end

/-! ## Training, retraining and knocks (R490, R492, R494, R495) -/

section
variable {l : Fin 6} {s : State}

theorem retrain_trains (h : s.linkState l.val = 0 ∨ s.linkState l.val = 4) : Next (exec (.linkRetrain l) s) fun t =>
    t.linkState l.val = 1 ∧ t = { s with regs := t.regs } :=
  ⟨_, if_pos h, linkState_setLinkState_same s l.val (by decide), (State.RegsOnly.refl s).setFld.eq⟩
theorem knockRepetition_sends (hknocks : 0 < (s.link l.val).knocks) (hdown : s.linkState l.val ≠ 2) :
    Next (exec (.knockRepetition l) s) fun t => t.link l.val = { s.link l.val with knocks := (s.link l.val).knocks - 1 } ∧
      t.linkOut = s.linkOut ++ [(l.val, [])] ∧ t = { s with links := t.links, linkOut := t.linkOut } :=
  ⟨_, if_neg (by omega), link_setLink_same s l.val _, rfl, rfl⟩

/-- The words of a port whose training ends with a peer. -/
def State.met (s : State) (p seat peer lanes : Nat) : State :=
  ((s.setFld (LNK_STAT p) 23 14 seat).setFld (LNK_STAT p) 13 11 peer).setFld (LNK_STAT p) 4 0 lanes
theorem workingSet_full {lanes : Nat} (h : lanes % 16 = 15) : workingSet lanes = 15 := if_pos h
theorem four_lanes {lanes : Nat} (h : lanes % 16 = 15) : ¬((List.range 5).filter (fun k => bit lanes k)).length < 4 := by
  have hbit (k : Nat) (hk : k < 4) : bit lanes k = true := by
    rw [bit, bits, beq_iff_eq]
    interval_cases k <;> omega
  have hsub : [0, 1, 2, 3].Sublist ((List.range 5).filter (fun k => bit lanes k)) := by
    have hrange : List.range 5 = [0, 1, 2, 3] ++ [4] := by decide
    rw [hrange, List.filter_append, List.filter_eq_self.mpr fun k hk => hbit k (by fin_cases hk <;> decide)]
    exact List.sublist_append_left _ _
  exact not_lt.mpr hsub.length_le
theorem linkUp_expected {seat : BitVec 10} {peer : BitVec 3} {lanes : BitVec 5} (htrains : s.linkState l.val = 1)
    (hlanes : lanes.toNat % 16 = 15) (hseat : s.neighbour s.seat l.val = some seat.toNat) (hpeer : peer.toNat = peerPort l.val) :
    Next (exec (.linkUp l seat peer lanes) s) fun t =>
      t.linkState l.val = 2 ∧ t.fld (LNK_STAT l.val) 23 14 = seat.toNat ∧ t.fld (LNK_STAT l.val) 4 0 = 15 := by
  let s1 := s.met l.val seat.toNat peer.toNat (workingSet lanes.toNat)
  let s2 := (s1.setLinkState l.val 2).setLink l.val { LinkPort.reset with spare := lanes.toNat % 16 ≠ 15 }
  have hrun : exec (.linkUp l seat peer lanes) s = .next ((s2.flood l.val).evalReach) :=
    (if_neg (not_not.mpr htrains)).trans ((if_neg (four_lanes hlanes)).trans (if_pos ⟨hseat, hpeer⟩))
  have hword : ((s2.flood l.val).evalReach).reg (LNK_STAT l.val) = s2.reg (LNK_STAT l.val) :=
    ((State.LinksKept.refl _).evalReach.words _ (mem_steady_link l).1 (by simp only [LNK_STAT, CH_EPOCH, pg]; omega)
      (by simp only [LNK_STAT, CH_STAT, pg]; omega)).trans (flood_words _ _ (lnkStat_ne_cnt l.val 0).2.1)
  have hfld (hi lo : Nat) : ((s2.flood l.val).evalReach).fld (LNK_STAT l.val) hi lo = s2.fld (LNK_STAT l.val) hi lo :=
    congrArg (fun v => bits v hi lo) hword
  have hset (v : State) (x : LinkPort) (hi lo : Nat) : (v.setLink l.val x).fld (LNK_STAT l.val) hi lo = v.fld (LNK_STAT l.val) hi lo := rfl
  refine ⟨_, hrun, (hfld 31 29).trans ((hset _ _ 31 29).trans (linkState_setLinkState_same s1 l.val (by decide))),
    (hfld 23 14).trans ((hset _ _ 23 14).trans ?_), (hfld 4 0).trans ((hset _ _ 4 0).trans ?_)⟩
  · refine (State.fld_setFld_apart s1 _ 2 (by decide) (by decide) (by decide) (by decide)).trans ?_
    exact (State.fld_setFld_apart _ _ _ (by decide) (by decide) (by decide) (by decide)).trans
      ((State.fld_setFld_apart _ _ _ (by decide) (by decide) (by decide) (by decide)).trans
        ((State.fld_setFld_same _ _ _ (by decide) (by decide)).trans (Nat.mod_eq_of_lt seat.isLt)))
  · refine (State.fld_setFld_apart s1 _ 2 (by decide) (by decide) (by decide) (by decide)).trans ?_
    refine (State.fld_setFld_same _ _ _ (by decide) (by decide)).trans ?_
    rw [workingSet_full hlanes]
    rfl
theorem linkUp_miswired {seat : BitVec 10} {peer : BitVec 3} {lanes : BitVec 5} (htrains : s.linkState l.val = 1)
    (hlanes : lanes.toNat % 16 = 15) (hbad : ¬(s.neighbour s.seat l.val = some seat.toNat ∧ peer.toNat = peerPort l.val)) :
    Next (exec (.linkUp l seat peer lanes) s) fun t => t.linkState l.val = 4 ∧
      t.fld (LNK_CNT l.val) 15 0 = min (s.fld (LNK_CNT l.val) 15 0 + 1) 0xFFFF ∧
      t = { s with regs := t.regs, sideband := t.sideband, faultLow := t.faultLow } := by
  let s1 := s.met l.val seat.toNat peer.toNat (workingSet lanes.toNat)
  let s2 := (s1.setLinkState l.val 4).bump (LNK_CNT l.val) 15 0 1
  have hrun : exec (.linkUp l seat peer lanes) s = .next (s2.log 0x3A (0x48 + l.val) 0 (s1.linkInfo l.val 0)) :=
    (if_neg (not_not.mpr htrains)).trans ((if_neg (four_lanes hlanes)).trans (if_neg hbad))
  have hne := (lnkStat_ne_cnt l.val l.val).1
  have hcnt : s1.fld (LNK_CNT l.val) 15 0 = s.fld (LNK_CNT l.val) 15 0 := by
    unfold s1 State.met
    rw [State.fld_setFld_ne _ _ hne.symm, State.fld_setFld_ne _ _ hne.symm, State.fld_setFld_ne _ _ hne.symm]
  refine ⟨_, hrun, ?_, ?_, ?_⟩
  · refine (State.fld_log s2 (unlogged_lnkStat l) _ _ _ _).trans ((State.fld_setFld_ne _ _ hne).trans ?_)
    exact linkState_setLinkState_same s1 l.val (by decide)
  · refine (State.fld_log s2 (unlogged_lnkCnt l) _ _ _ _).trans ((State.fld_bump_same _ _ _ (by decide) (by decide)).trans ?_)
    rw [State.setLinkState, State.fld_setFld_ne _ _ hne.symm, hcnt]
    rfl
  · have hregs : s.RegsOnly s2 := (State.RegsOnly.refl s).setFld.setFld.setFld.setFld.bump
    obtain ⟨_, _, _, hlog⟩ := (State.RegsOnly.logOnly ⟨_, _, _, rfl⟩ hregs : s.LogOnly s2).then_log 0x3A (0x48 + l.val) 0 (s1.linkInfo l.val 0)
    rw [hlog]
end

/-! ## What a wake leaves (R528, R530, R540) -/

/-- A word that no wake writes: one beside the power page, or the votes and the limits on it. -/
def Unwoken (a : Nat) : Prop := a / 4096 ≠ 3 ∨ a ∈ [PM_VOTE_HOST, PM_VOTE_DBG, PM_LIMIT, PM_PLAN]
/-- From s to t wakes have been recorded: only the sequences, the words of the power page, the sideband and WAKE_N differ, and no cause
recorded before is gone. -/
structure State.Woken (s t : State) : Prop where
  only : t = { s with pwr := t.pwr, regs := t.regs, sideband := t.sideband, wakeLow := t.wakeLow }
  words : ∀ a, Unwoken a → t.reg a = s.reg a
  cause : ∀ k, s.rbit PM_WAKE_CAUSE k = true → t.rbit PM_WAKE_CAUSE k = true
  low : s.wakeLow = true → t.wakeLow = true
namespace State.Woken
variable {s t u : State}
theorem refl (s : State) : s.Woken s := ⟨rfl, fun _ _ => rfl, fun _ => id, id⟩
theorem trans (h : s.Woken t) (h' : t.Woken u) : s.Woken u where
  only := by
    have ht := h.only
    have hu := h'.only
    rw [ht] at hu
    exact hu
  words a ha := (h'.words a ha).trans (h.words a ha)
  cause k hk := h'.cause k (h.cause k hk)
  low hl := h'.low (h.low hl)
theorem setReg {a v : Nat} (h : s.Woken t) (hwoken : ¬Unwoken a) (hne : a ≠ PM_WAKE_CAUSE) : s.Woken (t.setReg a v) :=
  h.trans ⟨(State.RegsOnly.refl t).setReg.eq.trans rfl, fun _ hb => State.reg_setReg_ne _ _ fun e => hwoken (e ▸ hb),
    fun k hk => (rbit_of_reg (State.reg_setReg_ne t v hne.symm)).trans hk, id⟩
theorem setSeq {d : Nat} {x : Option PwrSeq} (h : s.Woken t) : s.Woken (t.setSeq d x) := h.trans ⟨rfl, fun _ _ => rfl, fun _ => id, id⟩
theorem withSideband {m : List SbMsg} (h : s.Woken t) : s.Woken { t with sideband := m } := h.trans ⟨rfl, fun _ _ => rfl, fun _ => id, id⟩
theorem withLow (h : s.Woken t) : s.Woken { t with wakeLow := true } := h.trans ⟨rfl, fun _ _ => rfl, fun _ => id, fun _ => rfl⟩
theorem ite {p : Prop} [Decidable p] (ht : s.Woken t) (hu : s.Woken u) : s.Woken (if p then t else u) := by
  split
  · exact ht
  · exact hu
theorem setDevState {d : Nat} (h : s.Woken t) : s.Woken (t.setDevState d) :=
  withSideband (h.setReg (a := PM_STATE) (by unfold Unwoken; decide) (by decide))
theorem setFolioState {n v : Nat} (h : s.Woken t) (hn : n < 64) : s.Woken (t.setFolioState n v) := by
  refine h.setReg ?_ ?_
  · simp only [Unwoken, PM_FOLIO_STATE, PM_VOTE_HOST, PM_VOTE_DBG, PM_LIMIT, PM_PLAN, pg, List.mem_cons, List.not_mem_nil, or_false]
    omega
  · simp only [PM_FOLIO_STATE, PM_WAKE_CAUSE, pg]
    omega
end State.Woken

section
variable (s : State)

theorem withLine_pwr (p : Nat) (t : State) : (s.withLine p t).pwr = t.pwr := by
  unfold State.withLine
  split <;> rfl
theorem withLine_wakeLow (p : Nat) (t : State) : (s.withLine p t).wakeLow = t.wakeLow := by
  unfold State.withLine
  split <;> rfl
theorem State.Woken.withLine {t : State} (h : s.Woken t) (p : Nat) (v : State) : s.Woken (v.withLine p t) := by
  unfold State.withLine
  exact .ite h.withSideband h
theorem bit_or (x y k : Nat) : bit (x ||| y) k = (bit x k || bit y k) := by
  simp only [bit_eq_testBit, Nat.testBit_or]
/-- The recorded causes, which a wake adds to. -/
theorem wakeCause_reg (causes : Nat) : (s.wakeCause causes).reg PM_WAKE_CAUSE = (s.reg PM_WAKE_CAUSE ||| causes) % 2 ^ 32 := by
  unfold State.wakeCause
  extract_lets s1
  rw [State.reg_withLine]
  split
  · exact State.reg_setReg_same _ _ _
  · exact State.reg_setReg_same _ _ _
theorem wakeCause_low {causes : Nat} (h : 2 ≤ causes) : (s.wakeCause causes).wakeLow = true := by
  unfold State.wakeCause
  extract_lets s1
  rw [withLine_wakeLow, if_neg (by omega)]
theorem wakeCause_rbit (causes k : Nat) : (s.wakeCause causes).rbit PM_WAKE_CAUSE k = (decide (k < 32) && (s.rbit PM_WAKE_CAUSE k || bit causes k)) := by
  rw [State.rbit, wakeCause_reg, bit_mod_two_pow, bit_or, ← State.rbit]
theorem wakeCause_woken (causes : Nat) : s.Woken (s.wakeCause causes) := by
  have honly : s.wakeCause causes = { s with
      pwr := (s.wakeCause causes).pwr, regs := (s.wakeCause causes).regs, sideband := (s.wakeCause causes).sideband,
      wakeLow := (s.wakeCause causes).wakeLow } := by
    unfold State.wakeCause
    extract_lets s1
    obtain ⟨regs, h1⟩ : s.RegsOnly s1 := (State.RegsOnly.refl s).setReg
    clear_value s1
    subst h1
    unfold State.withLine
    split <;> split <;> rfl
  refine ⟨honly, fun a ha => ?_, fun k hk => ?_, fun hl => ?_⟩
  · unfold State.wakeCause
    extract_lets s1
    rw [State.reg_withLine]
    have h1 : s1.reg a = s.reg a := State.reg_setReg_ne _ _ fun e => absurd (e ▸ ha) (by unfold Unwoken; decide)
    split
    · exact h1
    · exact h1
  · have hk32 : k < 32 := by
      by_contra hge
      have hzero : s.rbit PM_WAKE_CAUSE k = false := by
        rw [State.rbit, bit_eq_testBit]
        exact Nat.testBit_lt_two_pow ((reg_lt s _).trans_le (Nat.pow_le_pow_right (by decide) (by omega)))
      rw [hzero] at hk
      exact Bool.false_ne_true hk
    rw [wakeCause_rbit, hk]
    simp [hk32]
  · unfold State.wakeCause
    extract_lets s1
    rw [withLine_wakeLow]
    split
    · exact hl
    · rfl
variable {s} {t : State}
theorem State.Woken.wakeCause (h : s.Woken t) (causes : Nat) : s.Woken (t.wakeCause causes) := h.trans (wakeCause_woken t causes)
theorem State.Woken.startExit {d : Nat} (h : s.Woken t) (hd : d < 64 ∨ d = 0x40) (causes : Nat) : s.Woken (t.startExit d causes) := by
  unfold State.startExit
  extract_lets js f js'
  split
  · exact h.setSeq.setDevState.wakeCause causes
  next hdev => exact (h.setSeq.setFolioState (hd.resolve_right hdev)).wakeCause causes
theorem State.Woken.undoEntry {d : Nat} {x : PwrSeq} (h : s.Woken t) (hd : d < 64 ∨ d = 0x40) : s.Woken (t.undoEntry d x) := by
  unfold State.undoEntry
  extract_lets t1
  split
  · exact h.setSeq.setDevState
  next hdev => exact h.setSeq.setFolioState (hd.resolve_right hdev)
theorem State.Woken.refuseEntry {d target who : Nat} {abort : Bool} (h : s.Woken t) : s.Woken (t.refuseEntry d target who abort) := by
  refine State.Woken.setReg (State.Woken.ite ?_ ?_) (by unfold Unwoken; decide) (by decide) <;>
  · exact h.setReg (by unfold Unwoken; decide) (by decide)
theorem State.Woken.voteFails {d : Nat} (h : s.Woken t) : s.Woken (t.voteFails d) :=
  (h.setReg (by unfold Unwoken; decide) (by decide)).setReg (by unfold Unwoken; decide) (by decide)
/-- What a wake of a folio or of the device leaves. -/
theorem State.Woken.wake {d causes who : Nat} (h : s.Woken t) (hd : d < 64 ∨ d = 0x40) : s.Woken (t.wake d causes who) := by
  unfold State.wake
  refine .ite h.voteFails ?_
  split
  · exact .ite (.ite (h.refuseEntry.undoEntry hd) h.setSeq) h
  · exact .ite (.ite (h.startExit hd _) h) (.ite (h.startExit hd _) h)
end

theorem knock_wakes {l : Fin 6} {s : State} {bursts : List (Nat × Nat)} (hasleep : s.linkState l.val = 3)
    (hseen : (if s.rbit CLK_STAT 31 then knockSeen 6 10 0 bursts else knockSeen 8 12 0 bursts) = true)
    (hmay : s.rbit LNK_CFG (16 + l.val) = true) : Next (exec (.knock l bursts) s) fun t =>
      t.linkState l.val = 1 ∧ t.rbit PM_WAKE_CAUSE (2 + l.val) = true ∧ t.wakeLow = true := by
  let u := s.wakeCause (2 ^ (2 + l.val))
  have hrun : exec (.knock l bursts) s = .next ((u.wakePort l.val).wake 0x40 (2 ^ (2 + l.val)) (2 + l.val)) :=
    (if_neg (not_not.mpr hasleep)).trans ((if_neg (by simp [hseen])).trans (if_neg (by simp [hmay])))
  have hpage : LNK_STAT l.val / 4096 ≠ 3 := by
    simp only [LNK_STAT, pg]
    omega
  have hu : u.linkState l.val = 3 := (linkState_of_reg ((wakeCause_woken s _).words _ (.inl hpage))).trans hasleep
  have hport : u.wakePort l.val = u.setLinkState l.val 1 := if_pos hu
  have hcause : u.rbit PM_WAKE_CAUSE (2 + l.val) = true := by
    rw [wakeCause_rbit, bit_eq_testBit, Nat.testBit_two_pow_self, Bool.or_true, Bool.and_true, decide_eq_true_eq]
    omega
  have hlow : u.wakeLow = true := wakeCause_low s (by
    calc 2 ≤ 2 ^ 2 := by decide
      _ ≤ 2 ^ (2 + l.val) := Nat.pow_le_pow_right (by decide) (by omega))
  have hwoken := (State.Woken.refl (u.setLinkState l.val 1)).wake (d := 0x40) (causes := 2 ^ (2 + l.val)) (who := 2 + l.val) (.inr rfl)
  rw [hport] at hrun
  refine ⟨_, hrun, (linkState_of_reg (hwoken.words _ (.inl hpage))).trans (linkState_setLinkState_same u l.val (by decide)), hwoken.cause _ ?_, hwoken.low ?_⟩
  · refine (rbit_of_reg (State.reg_setFld_ne u _ _ _ fun e => hpage ?_)).trans hcause
    rw [← e]
    decide
  · rw [State.setLinkState, State.setFld, State.setReg_wakeLow, hlow]

/-- Settles O54: each clause by the lemma of its command; what a change of the routes starts leaves the words of the ports. -/
theorem linksCarryMessagesAndTrain : Obligations.LinksCarryMessagesAndTrain := by
  unfold Obligations.LinksCarryMessagesAndTrain
  intro l s p x byte next
  refine ⟨fun hup => ⟨fun b howed => badFlit_naks hup howed b, ?_, ?_, lnkLost_loses hup⟩, fun m h hkind => data_keeps_part h hkind,
    fun m r h hkind hring => msg_returns_credit h hkind hring, fun m h hepoch hnew => lstate_applies h hepoch hnew,
    fun m h hkind hlane => lanectl_moves h hkind hlane, fun h => retrain_trains h, fun seat peer lanes htrains hlanes => ⟨?_, ?_⟩,
    fun bursts hasleep hseen hmay => knock_wakes hasleep hseen hmay, fun hknocks hdown => knockRepetition_sends hknocks hdown⟩
  · intro b fec hlen hfec f hi hcrc hseq hkind hknown hdst hepoch hlast hnak
    exact inOrder_joins hup hlen hfec hcrc hseq ⟨hkind, hknown, hdst, hepoch⟩ hlast hnak
  · intro lane hlane hwork hspare
    exact laneFail_moves hup hlane hwork hspare
  · intro hseat hpeer
    exact linkUp_expected htrains hlanes hseat hpeer
  · intro hbad
    exact linkUp_miswired htrains hlanes hbad

end Sys2Proof.Machine
end

-- ==== The charter: O55 ====
section
/-! SUPPORT. What each message and each timer of the charter, of the hoop and of the mirrors does. -/

namespace Sys2Proof.Machine

open Sys2Proof.Claims

/-! ## Formation (R499, R504) -/

section
variable {s : State}

/-- The words of formation as a write of FORM starts it. -/
def State.formWords (s : State) : State :=
  (((s.setReg CH_CMD 1).setFld CH_STAT 31 29 1).setReg (OWN_TMR 3) 4).setFld (RIND_TMR 3) 31 28 4
theorem formWords_timer (s : State) : s.formWords.reg (OWN_TMR 3) = 4 := by
  unfold State.formWords
  rw [State.reg_setFld_ne _ _ _ _ (by decide), State.reg_setReg_same]
  rfl
theorem startForm_forms (h : s.chartered = false) : (s.startForm 1).formed = true ∧ (s.startForm 1).reg (OWN_TMR 3) = 4 := by
  have hrun : s.startForm 1 = ({ s.formWords with formed := true, hoop := { s.hoop with formAt := s.rclk } } : State).startKnocks.tryForm :=
    if_neg (by
      rw [h]
      decide)
  have htimer := formWords_timer s
  rw [hrun]
  generalize s.formWords = v at htimer
  obtain ⟨u, hu⟩ : ∃ u : State, u = { v with formed := true, hoop := { s.hoop with formAt := s.rclk } } := ⟨_, rfl⟩
  have hregs : u.regs = v.regs := by
    rw [hu]
  have hformed : u.formed = true := by
    rw [hu]
  have hknocks := startKnocks_leaves u
  have hkept : u.LinksKept u.startKnocks.tryForm := by
    refine State.LinksKept.tryForm ⟨fun a _ _ _ => ?_, ?_⟩
    · rw [hknocks]
      rfl
    · rw [hknocks]
  rw [← hu]
  exact ⟨(congrArg Prod.fst hkept.parts).trans hformed,
    (hkept.words _ (by decide) (by decide) (by decide)).trans ((reg_of_regs hregs).trans htimer)⟩
theorem form_forms {p : Port} (h : PortOpen p CH_CMD s) (hfree : s.chartered = false) : Next (exec (.form p) s) fun t =>
    t.formed = true ∧ t.reg (OWN_TMR 3) = 4 := by
  obtain ⟨x, b, hwrite⟩ := hostWrite_of_acting (w := 1) (fun t => t.startForm 1) h rfl (kind := 72) (by decide) (by decide) (by decide) (by decide)
  have hforms := startForm_forms (s := s.withTxns x) hfree
  have hrun : exec (.form p) s = .next (s.hostWrite p CH_CMD 1 fun t => t.startForm 1) := rfl
  rw [hwrite] at hrun
  exact ⟨_, hrun, hforms⟩
theorem formationRetry_retries (hforming : s.fld CH_STAT 31 29 = 1) (hdue : s.hoop.formAt + 960000 ≤ s.rclk) :
    Next (exec .formationRetry s) fun t => t.hoop.formAt = s.hoop.formAt + 96000 := by
  let u : State := { s with hoop := { s.hoop with formAt := s.hoop.formAt + 96000 } }
  have hrun : exec .formationRetry s = .next u.tryForm := (if_neg (not_not.mpr hforming)).trans (if_neg (by omega))
  exact ⟨_, hrun, congrArg (fun q => q.2.1) (State.LinksKept.refl u).tryForm.parts⟩
end

/-! ## Proposals, votes and commits (R501, R503) -/

section
variable {s : State} {m : LMsg}

theorem propose_votes (h : s.linkIn.find? (fun y => y.typ == 0x08) = some m) (hforming : s.fld CH_STAT 31 29 = 1)
    (hnew : s.reg CH_EPOCH < ofBytes ((m.payload.drop 0).take 4)) (hfirst : ofBytes ((m.payload.drop 0).take 4) ∉ s.hoop.voted)
    (hkind : ofBytes ((m.payload.drop 4).take 1) = 1) (hmine : s.seat ∈ seatsAt m.payload 16 (ofBytes ((m.payload.drop 6).take 2)))
    (hdigest : ofBytes ((m.payload.drop 8).take 8) = s.charterDigest) (hin : s.withdrawn = false) :
    Next (exec .propose s) fun t => t.hoop.voted = ofBytes ((m.payload.drop 0).take 4) :: s.hoop.voted ∧ t.reg CH_EPOCH = s.reg CH_EPOCH := by
  let s1 : State := { s with linkIn := s.linkIn.erase m }
  let epoch := ofBytes ((m.payload.drop 0).take 4)
  let l := seatsAt m.payload 16 (ofBytes ((m.payload.drop 6).take 2))
  let u := s1.castVote epoch l
  have hrun : exec .propose s = .next (s1.takePropose m) := onMsg_of_found h fun m t => t.takePropose m
  have hvote : s1.takePropose m = u.sendSeat tyVOTE m.src (voteBytes epoch s1.takenOrigins) := by
    have hmay : ¬(epoch ≤ s1.reg CH_EPOCH ∨ s1.hoop.voted.contains epoch = true ∨ (!l.contains s1.seat) = true ∨ s1.withdrawn = true) := by
      rintro (hle | hvoted | hout | hwithdrawn)
      · exact absurd hle (not_le.mpr hnew)
      · exact hfirst (List.contains_iff_mem.mp hvoted)
      · simp only [Bool.not_eq_true', List.contains_eq_mem, decide_eq_false_iff_not] at hout
        exact hout hmine
      · rw [show s1.withdrawn = s.withdrawn from rfl, hin] at hwithdrawn
        exact Bool.false_ne_true hwithdrawn
    refine (if_neg hmay).trans ((if_pos ?_).trans ((if_neg (not_not.mpr hforming)).trans (if_neg (not_not.mpr hdigest))))
    exact beq_iff_eq.mpr hkind
  have hsent : u.Sends (u.sendSeat tyVOTE m.src (voteBytes epoch s1.takenOrigins)) := (State.Sends.refl u).sendSeat _ _ _
  rw [hvote] at hrun
  refine ⟨_, hrun, ?_, hsent.words _ (by decide)⟩
  rw [hsent.only]
  rfl
theorem commit_commits (h : s.linkIn.find? (fun y => y.typ == 0x0A) = some m) (hnew : s.reg CH_EPOCH < ofBytes ((m.payload.drop 0).take 4))
    (hmine : s.seat ∈ seatsAt m.payload 12 (ofBytes ((m.payload.drop 6).take 2))) :
    Next (exec .commit s) (State.InForce (ofBytes ((m.payload.drop 0).take 4))) := by
  let s1 : State := { s with linkIn := s.linkIn.erase m }
  have hrun : exec .commit s = .next (s1.takeCommit m) := onMsg_of_found h fun m t => t.takeCommit m
  have hnot : ¬(ofBytes ((m.payload.drop 0).take 4) ≤ s1.reg CH_EPOCH ∨
      (!(seatsAt m.payload 12 (ofBytes ((m.payload.drop 6).take 2))).contains s1.seat) = true) := by
    rintro (hle | hout)
    · exact absurd hle (not_le.mpr hnew)
    · simp only [Bool.not_eq_true', List.contains_eq_mem, decide_eq_false_iff_not] at hout
      exact hout hmine
  refine ⟨_, hrun, ?_⟩
  unfold State.takeCommit
  extract_lets n a j l
  rw [if_neg hnot]
  exact applyCommit_inForce _ _ _ _ _ _

/-- The quorum that a proposal needs. -/
def State.proposalQuorum (s : State) (p : Proposal) (l : List Nat) : Bool := if p.forming then s.cfgQuorum l else s.nowQuorum l
/-- A proposal with one more vote and the origins that the voter has taken over. -/
def Proposal.withVote (p : Proposal) (m : LMsg) : Proposal :=
  { p with votes := p.votes ++ [m.src], taken := p.taken ++ originsAt m.payload 8 (ofBytes ((m.payload.drop 4).take 4)) }
/-- A state whose proposal has one more vote, the message consumed. -/
def State.withVote (s : State) (p : Proposal) (m : LMsg) : State :=
  { s with linkIn := s.linkIn.erase m, hoop := { s.hoop with proposal := some (p.withVote m) } }
theorem tryCommit_of_proposal {q : Proposal} (h : s.hoop.proposal = some q) :
    (s.proposalQuorum q q.votes = false → s.tryCommit = s) ∧ (s.proposalQuorum q q.votes = true → s.tryCommit.InForce q.epoch) := by
  unfold State.tryCommit State.proposalQuorum
  rw [h]
  refine ⟨fun hfew => ?_, fun hquorum => ?_⟩
  · exact if_pos (by rw [hfew]; rfl)
  · dsimp only
    rw [hquorum]
    exact applyCommit_inForce _ _ _ _ _ _
theorem vote_counts {p : Proposal} (h : s.linkIn.find? (fun y => y.typ == 0x09) = some m) (hprop : s.hoop.proposal = some p)
    (hepoch : ofBytes ((m.payload.drop 0).take 4) = p.epoch) (hmember : m.src ∈ p.members) (hfirst : m.src ∉ p.votes)
    (hmay : (if p.forming then s.rbit (CH_SEAT m.src) 31 else s.member m.src) = true) (htime : s.rclk ≤ p.sent + 1920) :
    exec .vote s = .next (s.withVote p m).tryCommit := by
  let s1 : State := { s with linkIn := s.linkIn.erase m }
  have hrun : exec .vote s = .next (s1.takeVote m) := onMsg_of_found h fun m t => t.takeVote m
  have hprop1 : s1.hoop.proposal = some p := hprop
  rw [hrun]
  unfold State.takeVote
  rw [hprop1]
  refine congrArg _ (if_neg ?_)
  rintro (hother | hout | hagain | hnot | hlate)
  · exact hother hepoch
  · simp only [Bool.not_eq_true', List.contains_eq_mem, decide_eq_false_iff_not] at hout
    exact hout hmember
  · exact hfirst (List.contains_iff_mem.mp hagain)
  · have hmay1 : (if p.forming then s1.rbit (CH_SEAT m.src) 31 else s1.member m.src) = true := hmay
    rw [hmay1] at hnot
    exact Bool.false_ne_true hnot
  · exact absurd hlate (not_lt.mpr htime)
theorem vote_waits {p : Proposal} (hrun : exec .vote s = .next (s.withVote p m).tryCommit)
    (hfew : s.proposalQuorum p (p.votes ++ [m.src]) = false) : Next (exec .vote s) fun t =>
      t.hoop.proposal = some (p.withVote m) ∧ t.reg CH_EPOCH = s.reg CH_EPOCH := by
  have hsame : (s.withVote p m).tryCommit = s.withVote p m := (tryCommit_of_proposal (s := s.withVote p m) (q := p.withVote m) rfl).1 hfew
  rw [hsame] at hrun
  exact ⟨_, hrun, rfl, rfl⟩
theorem vote_commits {p : Proposal} (hrun : exec .vote s = .next (s.withVote p m).tryCommit)
    (hquorum : s.proposalQuorum p (p.votes ++ [m.src]) = true) : Next (exec .vote s) (State.InForce p.epoch) :=
  ⟨_, hrun, (tryCommit_of_proposal (s := s.withVote p m) (q := p.withVote m) rfl).2 hquorum⟩
theorem proposalTimeout_drops {p : Proposal} (hprop : s.hoop.proposal = some p) (htime : p.sent + 1920 ≤ s.rclk) : exec .proposalTimeout s =
    .next { s with hoop := { s.hoop with proposal := none, backoff := s.rclk + 9600 + s.seat % 16 * 480 } } := by
  show execProposalTimeout s = _
  unfold execProposalTimeout
  rw [hprop]
  exact if_neg (not_lt.mpr htime)
end

/-! ## Joining and the hoop (R504 to R507, R518) -/

section
variable {s : State} {m : LMsg}

theorem mayPropose_of_backoff (h : s.rclk < s.hoop.backoff) : s.mayPropose = false := by
  have hlate : decide (s.hoop.backoff ≤ s.rclk) = false := decide_eq_false (not_le.mpr h)
  rw [State.mayPropose, hlate, Bool.and_false]
theorem join_waits (hback : s.rclk < s.hoop.backoff) (h : s.linkIn.find? (fun y => y.typ == 0x0B) = some m)
    (hforce : s.fld CH_STAT 31 29 = 2) (hseat : s.rbit (CH_SEAT m.src) 31 = true) (hnew : m.src ∉ s.hoop.joiners) :
    Next (exec .join s) fun t => t.hoop.joiners = s.hoop.joiners ++ [m.src] ∧ t.linkIn = s.linkIn.erase m := by
  let s1 : State := { s with linkIn := s.linkIn.erase m }
  let u : State := { s1 with hoop := { s1.hoop with joiners := s1.hoop.joiners ++ [m.src] } }
  have hrun : exec .join s = .next (s1.takeJoin m) := onMsg_of_found h fun m t => t.takeJoin m
  have hjoin : s1.takeJoin m = u.evalReach := if_neg (by
    rintro (hnot | hout | hagain)
    · exact hnot hforce
    · rw [show s1.rbit (CH_SEAT m.src) 31 = s.rbit (CH_SEAT m.src) 31 from rfl, hseat] at hout
      exact Bool.false_ne_true hout
    · exact hnew (List.contains_iff_mem.mp hagain))
  obtain ⟨⟨regs, hregs⟩, -⟩ := evalReach_of_waits u (mayPropose_of_backoff (s := u) hback)
  rw [hjoin, hregs] at hrun
  exact ⟨_, hrun, rfl, rfl⟩
theorem renewalRound_asks (hback : s.rclk < s.hoop.backoff) (hforce : s.chartered = true) (hstands : s.hoop.standing = false)
    (hdue : s.hoop.roundAt + s.fld CH_HOOP 15 8 * 9600 ≤ s.rclk) : Next (exec .renewalRound s) fun t =>
      t.hoop.round = s.hoop.round + 1 ∧ t.hoop.roundAt = s.rclk ∧ t.hoop.racks = [] ∧ s.hoop.ends ≤ t.hoop.ends := by
  let s1 : State := { s with hoop := { s.hoop with missed := s.countMissed } }
  have hrun : exec .renewalRound s = .next s1.startRound.evalReach :=
    (if_neg (by rw [hforce, hstands]; decide)).trans (if_neg (not_lt.mpr hdue))
  obtain ⟨u, e, hsent, he, hround⟩ := startRound_leaves s1
  have hclk : u.rclk = s.rclk := by rw [hsent.only]
  rw [hround] at hrun
  obtain ⟨v, hv⟩ : ∃ v : State, v = { u with
      hoop := { s1.hoop with round := s1.hoop.round + 1, roundAt := s1.rclk, racks := [], ends := e } } := ⟨_, rfl⟩
  rw [← hv] at hrun
  have hhoop : v.hoop = { s1.hoop with round := s1.hoop.round + 1, roundAt := s1.rclk, racks := [], ends := e } := by rw [hv]
  have hvclk : v.rclk = u.rclk := by rw [hv]
  obtain ⟨⟨regs, hregs⟩, -⟩ := evalReach_of_waits v (mayPropose_of_backoff (by
    rw [hvclk, hclk, hhoop]
    exact hback))
  have hkept : v.evalReach.hoop = v.hoop := by rw [hregs]
  refine ⟨_, hrun, ?_⟩
  dsimp only
  rw [hkept, hhoop]
  exact ⟨rfl, rfl, rfl, he⟩

/-- Flits that go out leave the numbers of the messages. -/
theorem emit_msgId (s : State) (p seq : Nat) (f : List Byte) : (s.emit p seq f).linkMsgId = s.linkMsgId := by
  unfold State.emit
  extract_lets x
  split
  rfl
theorem pump_msgId (s : State) (p fuel : Nat) : (s.pump p fuel).linkMsgId = s.linkMsgId := by
  induction fuel generalizing s with
  | zero => rfl
  | succ fuel ih =>
    unfold State.pump
    extract_lets x
    split
    · rfl
    · split
      · rfl
      · rw [ih, emit_msgId]
        rfl
theorem sendSeat_msgId (s : State) (typ dst : Nat) (payload : List Byte) : (s.sendSeat typ dst payload).linkMsgId =
    Sp.set (fun _ => 0) s.linkMsgId (vcOf typ) ((Sp.get (fun _ => 0) s.linkMsgId (vcOf typ) + 1) % 65536) := by
  unfold State.sendSeat
  extract_lets vc id fs s1
  split
  · exact List.foldlRecOn (motive := fun u : State => u.linkMsgId = s1.linkMsgId) _ _ rfl fun u hu f _ => by
      rw [State.queueFlit, pump_msgId]
      exact hu
  · rw [State.bump_regs_only]
theorem renew_answers (h : s.linkIn.find? (fun y => y.typ == 0x05) = some m) (hepoch : ofBytes ((m.payload.drop 0).take 4) = s.reg CH_EPOCH)
    (hforce : s.chartered = true) (hnot : m.src ∉ s.hoop.refused) (hin : s.withdrawn = false) : Next (exec .renew s) fun t =>
      t.hoop = s.hoop ∧ t.linkIn = s.linkIn.erase m ∧
      Sp.get (fun _ => 0) t.linkMsgId 3 = (Sp.get (fun _ => 0) s.linkMsgId 3 + 1) % 65536 := by
  let s1 : State := { s with linkIn := s.linkIn.erase m }
  have hrun : exec .renew s = .next (s1.takeRenew m) := onMsg_of_found h fun m t => t.takeRenew m
  have hrenew : s1.takeRenew m = s1.sendSeat tyRACK m.src (m.payload.take 8) := if_pos (by
    refine ⟨hepoch, hforce, ?_, ?_⟩
    · simpa using hnot
    · rw [show s1.withdrawn = s.withdrawn from rfl, hin]
      rfl)
  have hsent : s1.Sends (s1.sendSeat tyRACK m.src (m.payload.take 8)) := (State.Sends.refl s1).sendSeat _ _ _
  rw [hrenew] at hrun
  refine ⟨_, hrun, ?_, hsent.linkIn, ?_⟩
  · rw [hsent.only]
  · rw [sendSeat_msgId]
    exact Sp.get_set_same _ _ _ _
theorem rack_counts (h : s.linkIn.find? (fun y => y.typ == 0x06) = some m) (hepoch : ofBytes ((m.payload.drop 0).take 4) = s.reg CH_EPOCH)
    (hround : ofBytes ((m.payload.drop 4).take 4) = s.hoop.round) (hnew : m.src ∉ s.hoop.racks) : Next (exec .rack s) fun t =>
      t.hoop.racks = s.hoop.racks ++ [m.src] ∧
      t.hoop.ends = (if s.nowQuorum (s.seat :: (s.hoop.racks ++ [m.src])) then max s.hoop.ends (s.hoop.roundAt + s.extension) else s.hoop.ends) ∧
      t = { s with linkIn := s.linkIn.erase m, hoop := t.hoop } := by
  let s1 : State := { s with linkIn := s.linkIn.erase m }
  let u : State := { s1 with hoop := { s1.hoop with racks := s1.hoop.racks ++ [m.src] } }
  have hrun : exec .rack s = .next (s1.takeRack m) := onMsg_of_found h fun m t => t.takeRack m
  have hrack : s1.takeRack m = u.tryExtend := if_neg (by
    rintro (hother | hold | hagain)
    · exact hother hepoch
    · exact hold hround
    · exact hnew (List.contains_iff_mem.mp hagain))
  rw [hrack] at hrun
  refine ⟨_, hrun, ?_⟩
  have hquorum : u.nowQuorum (u.seat :: u.hoop.racks) = s.nowQuorum (s.seat :: (s.hoop.racks ++ [m.src])) := rfl
  unfold State.tryExtend
  rw [hquorum]
  split
  · exact ⟨rfl, rfl, rfl⟩
  · exact ⟨rfl, rfl, rfl⟩
end

/-! ## The lapse of the hoop (R506) -/

/-- A stream that a fence has stopped: nothing held, its committed slot as before. -/
structure Strm.Fenced (x y : Strm) : Prop where
  st : y.st = .fenced
  step : y.step = none
  held : y.held = []
  curd : y.curd = none
  slot : y.slot = x.slot
theorem Strm.Fenced.kept {x y z : Strm} (h : x.Fenced y) (h' : y.Kept z) : x.Fenced z :=
  ⟨h'.st.trans h.st, h'.step h.step, h'.held h.held, h'.curd h.curd, h'.slot.trans h.slot⟩
theorem Strm.Kept.fenced {x y z : Strm} (h : x.Kept y) (h' : y.Fenced z) : x.Fenced z :=
  ⟨h'.st, h'.step, h'.held, h'.curd, h'.slot.trans h.slot⟩

section
variable (s : State) (i : Nat)

/-- What a fence does to a stream. -/
def State.fenceStr (s : State) (i : Nat) : State :=
  if (s.str i).st.live then
    (let s1 := (s.quitStep i 0x0A).dropBursts i
     ((s1.setStr i { s1.str i with st := .fenced }).completeCmd i 0).notice i 0)
  else s
theorem dropStep_step : ((s.dropStep i).str i).step = none := by
  unfold State.dropStep
  split
  next h => exact h
  · exact congrArg Strm.step (State.str_setStr_same _ _ _)
theorem dropBursts_str : ((s.dropBursts i).str i).held = [] ∧ ((s.dropBursts i).str i).curd = none := by
  unfold State.dropBursts
  extract_lets x bs s1
  rw [str_cntStrm, State.str_setStr_same]
  exact ⟨rfl, rfl⟩
theorem fenceStr_fences (h : (s.str i).st.live = true) : (s.str i).Fenced ((s.fenceStr i).str i) := by
  unfold State.fenceStr
  rw [if_pos h]
  extract_lets s1
  have hkept := (State.Steady.refl true (s.quitStep i 0x0A)).dropBursts (i := i) |>.strs rfl i
  have hstep : (s1.str i).step = none := hkept.step (dropStep_step _ i)
  obtain ⟨hheld, hcurd⟩ := dropBursts_str (s.quitStep i 0x0A) i
  have hslot := ((State.Steady.refl true s).quitStep (i := i) (code := 0x0A)).dropBursts (i := i) |>.strs rfl i |>.slot
  have hfenced : (s.str i).Fenced ((s1.setStr i { s1.str i with st := .fenced }).str i) := by
    rw [State.str_setStr_same]
    exact ⟨rfl, hstep, hheld, hcurd, hslot⟩
  exact hfenced.kept ((State.Steady.refl true _).completeCmd.notice.strs rfl i)
theorem fenceStr_others {j : Nat} (hj : j ≠ i) : (s.str j).Kept ((s.fenceStr i).str j) := by
  unfold State.fenceStr
  split
  · extract_lets s1
    have h1 := ((State.Steady.refl true s).quitStep (i := i) (code := 0x0A)).dropBursts (i := i) |>.strs rfl j
    have h2 : (s1.str j).Kept ((s1.setStr i { s1.str i with st := .fenced }).str j) := by
      rw [State.str_setStr_ne _ _ hj]
      exact .refl _
    exact (h1.trans h2).trans ((State.Steady.refl true _).completeCmd.notice.strs rfl j)
  · exact .refl _
theorem fenceStr_stays {x : Strm} (h : x.Fenced (s.str j)) : x.Fenced ((s.fenceStr i).str j) := by
  by_cases hj : j = i
  · subst hj
    have hdead : ¬(s.str j).st.live = true := by
      rw [h.st]
      decide
    rw [State.fenceStr, if_neg hdead]
    exact h
  · exact h.kept (fenceStr_others s i hj)
/-- A fence stops every stream of its list that runs. -/
theorem fenceAll_fences (l : List Nat) : (∀ i, (s.str i).st.live = true → i ∈ l → (s.str i).Fenced ((l.foldl State.fenceStr s).str i)) ∧
    ∀ i (x : Strm), x.Fenced (s.str i) → x.Fenced ((l.foldl State.fenceStr s).str i) := by
  induction l generalizing s with
  | nil => exact ⟨fun _ _ h => absurd h List.not_mem_nil, fun _ _ h => h⟩
  | cons j l ih =>
    obtain ⟨hfences, hstays⟩ := ih (s.fenceStr j)
    rw [List.foldl_cons]
    refine ⟨fun i hlive hmem => ?_, fun i x h => hstays i x (fenceStr_stays s j h)⟩
    by_cases hi : i = j
    · subst hi
      exact hstays i _ (fenceStr_fences s i hlive)
    · have hkept := fenceStr_others s j hi
      refine hkept.fenced (hfences i ?_ ((List.mem_cons.mp hmem).resolve_left hi))
      rw [hkept.st]
      exact hlive
theorem Sp.get_of_no_key {α : Type} {d : Nat → α} {m : Sp α} {k : Nat} (h : k ∉ m.map Prod.fst) : Sp.get d m k = d k := by
  induction m with
  | nil => rfl
  | cons p m ih =>
    obtain ⟨hne, htail⟩ := not_or.mp (mt List.mem_cons.mpr h)
    exact (if_neg fun e => hne e.symm).trans (ih htail)
/-- A stream that the table does not list is FREE. -/
theorem mem_strIdx_of_live (h : (s.str i).st.live = true) : i ∈ s.strIdx := by
  by_contra hout
  have hreset : s.str i = Strm.reset := Sp.get_of_no_key hout
  rw [hreset] at h
  exact absurd h (by decide)
theorem hoopLapse_fences (hout : s.hoopRuns = false) : Next (exec .hoopLapse s) fun t => ∀ i, (s.str i).st.live = true →
    (s.str i).Fenced (t.str i) :=
  ⟨s.fence, if_neg (by rw [hout]; decide), fun i hlive => (fenceAll_fences s s.strIdx).1 i hlive (mem_strIdx_of_live s i hlive)⟩
end

/-! ## Mirrors (R511, R512) -/

section
variable {s : State} {m : LMsg}

/-- A number that the payload of a message carries. -/
def LMsg.num (m : LMsg) (o k : Nat) : Nat := ofBytes ((m.payload.drop o).take k)
/-- The entry that a mirror message of a new origin makes. -/
def LMsg.newMirror (m : LMsg) : Mirror :=
  ⟨m.num 4 2, m.num 0 4, m.src, m.num 8 4, false, m.num 0x18 8, m.num 6 2, m.num 0x0C 1, m.num 0x0D 1 % 2 == 1, m.num 0x10 8⟩
/-- The image of a mirror message written with its record, and the entry made. -/
def State.mirrored (s : State) (m : LMsg) (k : Nat) : State :=
  ((s.hbmWrite (s.mirrorAddr k false) (m.payload.drop 48)).hbmWrite (s.mirrorRecord k) (toBytes 8 0 ++ toBytes 8 (m.num 0x18 8))).setMirror k
    (some m.newMirror)
theorem takeMirror_of_new {k : Nat} (hstr : s.strOf (m.num 4 2) (m.num 0 4) = none) (hmirror : s.mirrorOf (m.num 4 2) (m.num 0 4) = none)
    (hcrc : crc64 (m.payload.take 0x28 ++ m.payload.drop 48) = m.num 0x28 8) (hlen : (m.payload.drop 48).length = m.num 6 2 * 256)
    (hfree : (List.range 4096).find? (fun k => (s.mirrorAt k).isNone) = some k)
    (hsched : ∃ y ∈ s.scheds, y.ident.toNat = m.num 0x10 8) :
    s.takeMirror m true = (s.mirrored m k).sendSeat tyMACK m.src (mackBytes (m.num 4 2) (m.num 0 4) (m.num 0x18 8) 0) := by
  have hnone : s.mirrorAt k = none := by
    have hk := List.find?_some hfree
    simpa using hk
  have hany : s.scheds.any (fun x => x.ident.toNat == m.num 0x10 8) = true := by
    simpa using hsched
  unfold LMsg.num at *
  unfold State.takeMirror
  extract_lets b f img oh os cseq mack free
  have hstr' : s.strOf os oh = none := hstr
  have hmirror' : s.mirrorOf os oh = none := hmirror
  have hfree' : free = some k := hfree
  rw [hstr', hmirror', hfree']
  dsimp only
  rw [if_neg (by
    rintro (hbad | hbad)
    · exact hbad hcrc
    · exact hbad hlen), if_neg (by
    rw [hany]
    decide), hnone]
  rfl

theorem mirrorAt_setMirror_same (s : State) (k : Nat) (x : Option Mirror) : (s.setMirror k x).mirrorAt k = x := Sp.get_set_same _ _ _ _
theorem mirrorAt_setMirror_ne (s : State) {j k : Nat} (x : Option Mirror) (h : j ≠ k) : (s.setMirror k x).mirrorAt j = s.mirrorAt j :=
  Sp.get_set_ne _ _ _ h
theorem str_setMirror (s : State) (k : Nat) (x : Option Mirror) (i : Nat) : (s.setMirror k x).str i = s.str i := rfl
theorem setMirror_regs (s : State) (k : Nat) (x : Option Mirror) : (s.setMirror k x).regs = s.regs := rfl
theorem setMirror_hbm (s : State) (k : Nat) (x : Option Mirror) : (s.setMirror k x).hbm = s.hbm := rfl
theorem mirrorAt_of_mirrors {s t : State} (h : t.mirrors = s.mirrors) (j : Nat) : t.mirrorAt j = s.mirrorAt j := by
  rw [State.mirrorAt, h, ← State.mirrorAt]
theorem hbmWrite_of_active (h : s.pcsActive = true) (a : Nat) (bs : List Byte) : (s.hbmWrite a bs).hbm = s.hbm.write a bs := by
  unfold State.hbmWrite
  rw [if_pos h]
/-- The record of a mirror entry lies above the images of all of them. -/
theorem mirrored_image {k : Nat} (hk : k < 4096) (hactive : s.pcsActive = true) (hlen : (m.payload.drop 48).length ≤ 0x40000) :
    (s.mirrored m k).hbm.bytes (s.mirrorAddr k false) (m.payload.drop 48).length = m.payload.drop 48 := by
  let u := s.hbmWrite (s.mirrorAddr k false) (m.payload.drop 48)
  have hregs : u.regs = s.regs := hbmWrite_regs s _ _
  have hactive' : u.pcsActive = true := by
    rw [State.pcsActive, ← hactive, State.pcsActive]
    exact congrArg _ (funext fun j => by rw [reg_of_regs hregs, reg_of_regs hregs])
  have hhbm : (s.mirrored m k).hbm = (s.hbm.write (s.mirrorAddr k false) (m.payload.drop 48)).write (s.mirrorRecord k)
      (toBytes 8 0 ++ toBytes 8 (m.num 0x18 8)) := by
    rw [State.mirrored, setMirror_hbm, hbmWrite_of_active hactive', hbmWrite_of_active hactive]
  rw [hhbm, Memory.bytes_write_out _ _ _ (.inl ?_), Memory.bytes_write]
  simp only [State.mirrorAddr, State.mirrorRecord, Bool.false_eq_true, if_false]
  omega
theorem mirror_records {k : Nat} (h : s.linkIn.find? (fun y => y.typ == 0x03) = some m) (hstr : s.strOf (m.num 4 2) (m.num 0 4) = none)
    (hmirror : s.mirrorOf (m.num 4 2) (m.num 0 4) = none) (hcrc : crc64 (m.payload.take 0x28 ++ m.payload.drop 48) = m.num 0x28 8)
    (hlen : (m.payload.drop 48).length = m.num 6 2 * 256) (hshort : (m.payload.drop 48).length ≤ 0x40000)
    (hfree : (List.range 4096).find? (fun k => (s.mirrorAt k).isNone) = some k) (hactive : s.pcsActive = true)
    (hsched : ∃ y ∈ s.scheds, y.ident.toNat = m.num 0x10 8) : Next (exec (.mirror true) s) fun t =>
      t.hbm.bytes (s.mirrorAddr k false) (m.payload.drop 48).length = m.payload.drop 48 ∧ t.mirrorAt k = some m.newMirror ∧
      ∀ j, j ≠ k → t.mirrorAt j = s.mirrorAt j := by
  let s1 : State := { s with linkIn := s.linkIn.erase m }
  have hrun : exec (.mirror true) s = .next (s1.takeMirror m true) := onMsg_of_found h fun m t => t.takeMirror m true
  rw [takeMirror_of_new (s := s1) hstr hmirror hcrc hlen hfree hsched] at hrun
  have hsent : (s1.mirrored m k).Sends ((s1.mirrored m k).sendSeat tyMACK m.src (mackBytes (m.num 4 2) (m.num 0 4) (m.num 0x18 8) 0)) :=
    (State.Sends.refl _).sendSeat _ _ _
  have himage := mirrored_image (s := s1) (m := m) (List.mem_range.mp (List.mem_of_find?_eq_some hfree)) hactive hshort
  have hmade : (s1.mirrored m k).mirrorAt k = some m.newMirror := mirrorAt_setMirror_same _ _ _
  have hothers (j : Nat) (hj : j ≠ k) : (s1.mirrored m k).mirrorAt j = s.mirrorAt j := by
    refine (mirrorAt_setMirror_ne _ _ hj).trans (mirrorAt_of_mirrors ?_ j)
    rw [hbmWrite_eq, hbmWrite_eq]
  generalize s1.mirrored m k = u at hrun hsent himage hmade hothers
  have hsame : (u.sendSeat tyMACK m.src (mackBytes (m.num 4 2) (m.num 0 4) (m.num 0x18 8) 0)).mirrors = u.mirrors := by rw [hsent.only]
  refine ⟨_, hrun, ?_, (mirrorAt_of_mirrors hsame k).trans hmade, fun j hj => (mirrorAt_of_mirrors hsame j).trans (hothers j hj)⟩
  have hhbm : (u.sendSeat tyMACK m.src (mackBytes (m.num 4 2) (m.num 0 4) (m.num 0x18 8) 0)).hbm = u.hbm := by rw [hsent.only]
  rw [hhbm]
  exact himage
theorem mack_acknowledges {i : Nat} {y : Step} (h : s.linkIn.find? (fun y => y.typ == 0x04) = some m)
    (hstr : s.strOf (m.num 0 2) (m.num 4 4) = some i) (hbuddy : m.src = (s.str i).buddy) (hkind : m.num 16 1 = 0)
    (hstep : (s.str i).step = some y) (hreleased : y.released = true) (hlive : y.replayed = false) (hseq : m.num 8 8 = (s.str i).cseq + 1) :
    Next (exec .mack s) fun t => t.str i = { s.str i with step := some { y with mirrorAck := true } } ∧
      t = { s with linkIn := s.linkIn.erase m, strm := t.strm } := by
  let s1 : State := { s with linkIn := s.linkIn.erase m }
  have hrun : exec .mack s = .next (s1.takeMack m) := onMsg_of_found h fun m t => t.takeMack m
  have hinputs : y.inputs = 1 := by
    rw [Step.inputs, hlive]
    rfl
  have hack : s1.takeMack m = s1.setStr i { s.str i with step := some { y with mirrorAck := true } } := by
    unfold LMsg.num at *
    unfold State.takeMack
    extract_lets f cseq
    have hstr' : s1.strOf (f 0 2) (f 4 4) = some i := hstr
    have hkind' : f 16 1 = 0 := hkind
    have hseq' : cseq = (s.str i).cseq + 1 := hseq
    have hcur : s1.str i = s.str i := rfl
    rw [hstr']
    dsimp only
    rw [hcur, if_neg (not_not.mpr hbuddy), hkind', hstep]
    exact if_pos (c := (y.released && cseq == (s.str i).cseq + y.inputs) = true) (by
      rw [hreleased, hseq', hinputs, beq_self_eq_true]
      rfl)
  rw [hack] at hrun
  exact ⟨_, hrun, State.str_setStr_same _ _ _, rfl⟩
theorem mrel_frees {k : Nat} (h : s.linkIn.find? (fun y => y.typ == 0x0C) = some m) (hmirror : s.mirrorOf (m.num 0 2) (m.num 4 4) = some k) :
    Next (exec .mrel s) fun t => t.mirrorAt k = none ∧ (∀ j, j ≠ k → t.mirrorAt j = s.mirrorAt j) ∧
      t = { s with linkIn := s.linkIn.erase m, mirrors := t.mirrors, takeovers := t.takeovers } := by
  let s1 : State := { s with linkIn := s.linkIn.erase m }
  have hrun : exec .mrel s = .next (s1.takeMrel m) := onMsg_of_found h fun m t => t.takeMrel m
  have hfree : s1.takeMrel m = { s1.setMirror k none with takeovers := s1.takeovers.filter (fun t => t.entry != k) } := by
    unfold LMsg.num at *
    unfold State.takeMrel
    extract_lets f
    have hmirror' : s1.mirrorOf (f 0 2) (f 4 4) = some k := hmirror
    rw [hmirror']
  rw [hfree] at hrun
  exact ⟨_, hrun, mirrorAt_setMirror_same s1 k none, fun j hj => mirrorAt_setMirror_ne s1 none hj, rfl⟩
theorem mirrorTimeout_fails {i : BitVec 12} {y : Step} (hstep : (s.str i.toNat).step = some y) (hmirror : (s.str i.toNat).mirror = true)
    (hreleased : y.released = true) (hnone : y.mirrorAck = false) (hfirst : y.failedAfter = false) (hgood : y.lost = false)
    (hmember : s.member (s.str i.toNat).buddy = true) (hreach : s.reachable (s.str i.toNat).buddy = true)
    (hdue : (s.str i.toNat).timer + s.mirrorTime ≤ s.rclk) : Next (exec (.mirrorTimeout i) s) fun t =>
      t.str i.toNat = { s.str i.toNat with step := some { y with failedAfter := true } } := by
  let u := s.setStr i.toNat { s.str i.toNat with step := some { y with failedAfter := true } }
  have hrun : exec (.mirrorTimeout i) s = .next (u.log 0x43 0x40 1 (s.handle i.toNat)) := by
    show execMirrorTimeout i s = _
    unfold execMirrorTimeout
    extract_lets k x
    have hstep' : x.step = some y := hstep
    rw [hstep']
    dsimp only
    rw [if_neg (by simp [x, k, hmirror, hreleased, hnone, hfirst]), if_neg (by simp [hgood]), if_neg (by simp [x, k, hmember, hreach]),
      if_neg (not_lt.mpr hdue)]
  have hstrm : (u.log 0x43 0x40 1 (s.handle i.toNat)).strm = u.strm := by
    obtain ⟨_, _, _, hlog⟩ := State.LogOnly.log u 0x43 0x40 1 (s.handle i.toNat)
    rw [hlog]
  have hstr : (u.log 0x43 0x40 1 (s.handle i.toNat)).str i.toNat = u.str i.toNat := congrArg (Sp.get (fun _ => Strm.reset) · i.toNat) hstrm
  exact ⟨_, hrun, hstr.trans (State.str_setStr_same s i.toNat _)⟩

/-! ## Takeover (R515) -/

/-- The stream that a takeover places from a mirror entry. -/
def State.takenStr (s : State) (i : Nat) (e : Mirror) : Strm :=
  let x0 := (s.str i).freed
  { x0 with
    gen := nextGen x0.gen, st := .paused, cls := e.cls, resident := e.resident, mirror := true, originSeat := e.originSeat,
    originHandle := e.originHandle, buddy := (s.nextMember s.seat).getD 0xFFFF }
/-- A stream that keeps who it is. -/
structure Strm.Known (x y : Strm) : Prop where
  st : y.st = x.st
  cls : y.cls = x.cls
  originSeat : y.originSeat = x.originSeat
  originHandle : y.originHandle = x.originHandle
theorem Strm.Known.trans {x y z : Strm} (h : x.Known y) (h' : y.Known z) : x.Known z :=
  ⟨h'.st.trans h.st, h'.cls.trans h.cls, h'.originSeat.trans h.originSeat, h'.originHandle.trans h.originHandle⟩

/-- From s to t every stream is who it was, and the mirror entries and the words but the count of what had no route stay. -/
structure State.KeepsStreams (s t : State) : Prop where
  strs : ∀ i, (s.str i).Known (t.str i)
  mirrors : t.mirrors = s.mirrors
  words : ∀ a, a ≠ LNK_DEV_CNT → t.reg a = s.reg a
namespace State.KeepsStreams
variable {s t u : State}
theorem refl (s : State) : s.KeepsStreams s := ⟨fun _ => ⟨rfl, rfl, rfl, rfl⟩, rfl, fun _ _ => rfl⟩
theorem trans (h : s.KeepsStreams t) (h' : t.KeepsStreams u) : s.KeepsStreams u :=
  ⟨fun i => (h.strs i).trans (h'.strs i), h'.mirrors.trans h.mirrors, fun a ha => (h'.words a ha).trans (h.words a ha)⟩
theorem setStr {i : Nat} {x : Strm} (h : s.KeepsStreams t) (hx : (t.str i).Known x) : s.KeepsStreams (t.setStr i x) := by
  refine h.trans ⟨fun j => ?_, rfl, fun _ _ => rfl⟩
  by_cases hj : j = i
  · subst hj
    rw [State.str_setStr_same]
    exact hx
  · rw [State.str_setStr_ne t x hj]
    exact ⟨rfl, rfl, rfl, rfl⟩
theorem hbmWrite (h : s.KeepsStreams t) (a : Nat) (bs : List Byte) : s.KeepsStreams (t.hbmWrite a bs) := by
  refine h.trans ⟨fun j => ?_, ?_, fun b _ => reg_of_regs (hbmWrite_regs t a bs)⟩
  · rw [str_hbmWrite]
    exact ⟨rfl, rfl, rfl, rfl⟩
  · rw [hbmWrite_eq]
theorem send (h : s.KeepsStreams t) (m : List Byte) : s.KeepsStreams (t.send m) := by
  rw [send_eq]
  exact h.trans ⟨fun _ => ⟨rfl, rfl, rfl, rfl⟩, rfl, fun _ _ => rfl⟩
theorem sends (h : s.KeepsStreams t) (h' : t.Sends u) : s.KeepsStreams u := by
  refine h.trans ⟨fun j => ?_, by rw [h'.only], h'.words⟩
  have hstrm : u.strm = t.strm := by rw [h'.only]
  have hstr : u.str j = t.str j := congrArg (Sp.get (fun _ => Strm.reset) · j) hstrm
  rw [hstr]
  exact ⟨rfl, rfl, rfl, rfl⟩
theorem sendMirror (h : s.KeepsStreams t) (i : Nat) (slot : Bool) (cseq : Nat) : s.KeepsStreams (t.sendMirror i slot cseq) :=
  (h.setStr (x := { t.str i with timer := t.rclk }) ⟨rfl, rfl, rfl, rfl⟩).sends ((State.Sends.refl _).sendSeat _ _ _)
theorem adoptWheel (h : s.KeepsStreams t) (i : Nat) (slot : Bool) (img : List Byte) : s.KeepsStreams (t.adoptWheel i slot img) := by
  unfold State.adoptWheel
  extract_lets f x x1 s1
  have h1 : s.KeepsStreams s1 := by
    refine (h.hbmWrite _ _).setStr ?_
    rw [str_hbmWrite]
    exact ⟨rfl, rfl, rfl, rfl⟩
  refine ((h1.hbmWrite _ _).hbmWrite _ _).setStr ?_
  rw [str_hbmWrite]
  exact ⟨rfl, rfl, rfl, rfl⟩
end State.KeepsStreams

theorem takeOver_places (s : State) (k i : Nat) (e : Mirror) : ((s.takeOver k i e).str i).st = .paused ∧
    ((s.takeOver k i e).str i).cls = e.cls ∧ ((s.takeOver k i e).str i).originSeat = e.originSeat ∧
    ((s.takeOver k i e).str i).originHandle = e.originHandle ∧ (s.takeOver k i e).mirrorAt k = none ∧
    (s.takeOver k i e).fld CH_CNT 31 16 = min (s.fld CH_CNT 31 16 + 1) 0xFFFF := by
  unfold State.takeOver
  extract_lets img x0 x s1 _ s2
  have hx : x.st = .paused ∧ x.cls = e.cls ∧ x.originSeat = e.originSeat ∧ x.originHandle = e.originHandle := ⟨rfl, rfl, rfl, rfl⟩
  clear_value x
  obtain ⟨hst, hcls, hseat, hhandle⟩ := hx
  have hw := (State.KeepsStreams.refl (s.setStr i x)).adoptWheel i false img
  have hknown : x.Known (s1.str i) := by
    have hi := hw.strs i
    rw [State.str_setStr_same] at hi
    rwa [str_setMirror]
  have hgone : s1.mirrorAt k = none := mirrorAt_setMirror_same _ k none
  have hcnt : s1.reg CH_CNT = s.reg CH_CNT := (reg_of_regs (setMirror_regs _ k none)).trans (hw.words _ (by decide))
  clear_value s1
  have h2 : s1.KeepsStreams s2 := State.KeepsStreams.send
    (.setStr (x := { s1.str i with sched := e.sched }) (.refl s1) ⟨rfl, rfl, rfl, rfl⟩) _
  clear_value s2
  have hv : s1.KeepsStreams (if x.buddy = 0xFFFF then s2 else s2.sendMirror i false (s2.str i).cseq) := by
    split
    · exact h2
    · exact h2.sendMirror _ _ _
  generalize (if x.buddy = 0xFFFF then s2 else s2.sendMirror i false (s2.str i).cseq) = v at hv
  have hplaced := hknown.trans (hv.strs i)
  refine ⟨hplaced.st.trans hst, hplaced.cls.trans hcls, hplaced.originSeat.trans hseat, hplaced.originHandle.trans hhandle, (mirrorAt_of_mirrors hv.mirrors k).trans hgone, ?_⟩
  rw [State.fld_bump_same _ _ _ (by decide) (by decide), State.fld, hv.words _ (by decide), hcnt]
  rfl
theorem takeover_places {k i : Nat} {w : Takeover} {e : Mirror} (hplan : s.takeovers.find? (fun t => t.entry == k) = some w)
    (hentry : s.mirrorAt k = some e) (hdue : w.due ≤ s.rclk) (hfree : (List.range 4096).find? (fun i => (s.str i).st == .free) = some i) :
    Next (exec (.takeover k) s) fun t => (t.str i).st = .paused ∧ (t.str i).cls = e.cls ∧ (t.str i).originSeat = e.originSeat ∧
      (t.str i).originHandle = e.originHandle ∧ t.mirrorAt k = none ∧ t.fld CH_CNT 31 16 = min (s.fld CH_CNT 31 16 + 1) 0xFFFF := by
  have hrun : exec (.takeover k) s = .next (({ s with takeovers := s.takeovers.filter (fun t => t.entry != k) } : State).takeOver k i e) := by
    show execTakeover k s = _
    unfold execTakeover
    rw [hplan, hentry]
    dsimp only
    rw [if_neg (not_lt.mpr hdue), hfree]
  exact ⟨_, hrun, takeOver_places _ k i e⟩
end

/-- Settles O55: each clause by the lemma of its command; what a commit starts keeps the charter in force, and what a change of the reachable
members does is empty while the device may not propose. -/
theorem charterHoopAndMirrors : Obligations.CharterHoopAndMirrors := by
  unfold Obligations.CharterHoopAndMirrors
  intro s next byte inForce
  refine ⟨fun p h hfree => form_forms h hfree, formationRetry_retries, ?_, ?_, ?_, fun p hprop htime => proposalTimeout_drops hprop htime,
    fun hback => ⟨fun m h hforce hseat hnew => join_waits hback h hforce hseat hnew, renewalRound_asks hback⟩, ?_, ?_, ?_, ?_, ?_, ?_, ?_, ?_⟩
  · intro m h hforming hnew hfirst hkind hmine hdigest hin
    exact propose_votes h hforming hnew hfirst hkind hmine hdigest hin
  · intro m p h hprop hepoch hmember hfirst hmay htime q
    have hrun := vote_counts h hprop hepoch hmember hfirst hmay htime
    exact ⟨fun hfew => vote_waits hrun hfew, fun hquorum => vote_commits hrun hquorum⟩
  · intro m h hnew hmine
    exact commit_commits h hnew hmine
  · intro m h hepoch hforce hnot hin
    exact renew_answers h hepoch hforce hnot hin
  · intro m h hepoch hround hnew
    exact rack_counts h hepoch hround hnew
  · intro hout
    obtain ⟨t, hrun, hfenced⟩ := hoopLapse_fences s hout
    exact ⟨t, hrun, fun i hlive => ⟨(hfenced i hlive).st, (hfenced i hlive).step, (hfenced i hlive).held, (hfenced i hlive).curd,
      (hfenced i hlive).slot⟩⟩
  · intro m k h hstr hmirror img hcrc hlen hshort hfree hactive hsched
    exact mirror_records h hstr hmirror hcrc hlen hshort hfree hactive hsched
  · intro m i y h hstr hbuddy hkind hstep hreleased hlive hseq
    exact mack_acknowledges h hstr hbuddy hkind hstep hreleased hlive hseq
  · intro m k h hmirror
    exact mrel_frees h hmirror
  · intro i y hstep hmirror hreleased hnone hfirst hgood hmember hreach hdue
    exact mirrorTimeout_fails hstep hmirror hreleased hnone hfirst hgood hmember hreach hdue
  · intro k i w e hplan hentry hdue hfree
    exact takeover_places hplan hentry hdue hfree

end Sys2Proof.Machine
end

-- ==== Power states: O56 ====
section
/-! SUPPORT. Writes to the vote words, what a wake does to one folio and leaves of the others, entries, the steps of an exit, and steps that
time out. -/

namespace Sys2Proof.Machine

open Sys2Proof.Claims

/-! ## Bits of words that a write replaces or clears -/

theorem add_of_disjoint {x y : Nat} (hx : x < 2 ^ 32) (hy : y < 2 ^ 32) (h : x &&& y = 0) : x + y = x ||| y := by
  have hor : x ||| y < 2 ^ 32 := Nat.or_lt_two_pow hx hy
  have hbv := BitVec.add_eq_or_of_and_eq_zero (BitVec.ofNat 33 x) (BitVec.ofNat 33 y) (by
    rw [← BitVec.ofNat_and, h])
  have hnat := congrArg BitVec.toNat hbv
  rw [BitVec.toNat_add, BitVec.toNat_or, BitVec.toNat_ofNat, BitVec.toNat_ofNat, Nat.mod_eq_of_lt (hx.trans (by decide)),
    Nat.mod_eq_of_lt (hy.trans (by decide)), Nat.mod_eq_of_lt (by omega)] at hnat
  exact hnat
theorem sub_and_eq_xor {x : Nat} (hx : x < 2 ^ 32) (m : Nat) : x - (x &&& m) = x ^^^ (x &&& m) := by
  have hand : x &&& m < 2 ^ 32 := Nat.and_le_left.trans_lt hx
  have hsum : (x ^^^ (x &&& m)) + (x &&& m) = x := by
    rw [add_of_disjoint (Nat.xor_lt_two_pow hx hand) hand]
    · refine Nat.eq_of_testBit_eq fun k => ?_
      simp only [Nat.testBit_or, Nat.testBit_xor, Nat.testBit_and]
      cases x.testBit k <;> cases m.testBit k <;> rfl
    · refine Nat.eq_of_testBit_eq fun k => ?_
      simp only [Nat.testBit_xor, Nat.testBit_and, Nat.zero_testBit]
      cases x.testBit k <;> cases m.testBit k <;> rfl
  omega
theorem bit_cleared {x : Nat} (hx : x < 2 ^ 32) (m k : Nat) : bit (x - (x &&& m)) k = (bit x k && !bit m k) := by
  rw [sub_and_eq_xor hx]
  simp only [bit_eq_testBit, Nat.testBit_xor, Nat.testBit_and]
  cases x.testBit k <;> cases m.testBit k <;> rfl
theorem bit_replaced {x r : Nat} (hx : x < 2 ^ 32) (hr : r < 2 ^ 32) (w k : Nat) :
    bit (x - (x &&& r) + (w &&& r)) k = if bit r k then bit w k else bit x k := by
  have hold : x - (x &&& r) < 2 ^ 32 := by omega
  have hnew : w &&& r < 2 ^ 32 := Nat.and_le_right.trans_lt hr
  rw [add_of_disjoint hold hnew, bit_or, bit_cleared hx]
  · simp only [bit_eq_testBit, Nat.testBit_and]
    cases x.testBit k <;> cases r.testBit k <;> cases w.testBit k <;> rfl
  · rw [sub_and_eq_xor hx]
    refine Nat.eq_of_testBit_eq fun k => ?_
    simp only [Nat.testBit_xor, Nat.testBit_and, Nat.zero_testBit]
    cases x.testBit k <;> cases r.testBit k <;> cases w.testBit k <;> rfl

/-! ## Writes of a port to words of the power page (R583) -/

/-- From s to t a port has written word a: the word, its page's errors, the port's lease and messages differ at most. -/
structure State.Wrote (a : Nat) (s t : State) : Prop where
  only : ∃ regs txns msgs, t = { s with regs := regs, txns := txns, sideband := msgs }
  words : ∀ c, c ≠ a → c ≠ ERR_STATUS (a / 4096) → t.reg c = s.reg c

section
variable {s : State} {p : Port} {a w : Nat}

theorem writeErrs_wrote (s : State) (x : Sp Txn) (a w : Nat) (haddr : a % 4096 ≠ 0x018) :
    s.Wrote a ((s.withTxns x).writeErrs a w) ∧ ((s.withTxns x).writeErrs a w).reg a = s.reg a := by
  obtain ⟨⟨regs, msgs, honly⟩, hwords⟩ := writeErrs_errsOnly (s.withTxns x) a w
  have hne : a ≠ ERR_STATUS (a / 4096) := by
    simp only [ERR_STATUS, pg]
    omega
  refine ⟨⟨⟨regs, x, msgs, ?_⟩, fun c _ hc => (hwords c hc).trans rfl⟩, (hwords a hne).trans rfl⟩
  rw [honly]
  rfl
theorem State.Wrote.setReg {t : State} {v : Nat} (h : s.Wrote a t) : s.Wrote a (t.setReg a v) := by
  refine ⟨?_, fun c hc hc' => (State.reg_setReg_ne t v hc).trans (h.words c hc hc')⟩
  obtain ⟨regs, txns, msgs, rfl⟩ := h.only
  exact ⟨_, txns, msgs, rfl⟩
/-- A write of a word with bits that a write replaces, and then what it does. -/
theorem hostWrite_replaces (eff : State → State) (h : PortOpen p a s) {kind : Nat}
    (hinfo : pageInfo (a / 4096) = some (kind, (regSpec a).lvl)) (hfolio : isFolioPage (a / 4096) 2 = false) (haddr : a % 4096 ≠ 0x018)
    (hplain : (regSpec a).lk = 0 ∧ (regSpec a).rw ≠ 0 ∧ (regSpec a).rw < 2 ^ 32 ∧ (regSpec a).tx = 0 ∧ (regSpec a).w1c = 0) :
    ∃ b u, s.hostWrite p a w eff = (eff u).withMsgs b ∧ s.Wrote a u ∧
      ∀ k < 32, u.rbit a k = if bit (regSpec a).rw k then bit w k else s.rbit a k := by
  obtain ⟨x, b, hwrite⟩ := hostWrite_of_open (w := w) eff h
  have hspec : (s.withTxns x).spec a = regSpec a := spec_of_shown h.2.1 hinfo hfolio
  obtain ⟨hlk, hrw, hlt, htx, hw1c⟩ := hplain
  have hopen : (s.withTxns x).openBits a = (regSpec a).rw := by
    rw [State.openBits, hspec, hlk, Nat.and_zero, Nat.sub_zero, ite_self]
  obtain ⟨hwrote, hreg⟩ := writeErrs_wrote s x a w haddr
  have hclear (u : State) : (u.spec a).w1c = 0 := by
    rcases spec_none_or u hfolio with hnone | hsome
    · rw [hnone]
    · rw [hsome, hw1c]
  rw [writeHead_of_openBits (hspec ▸ htx) (hopen ▸ hrw), writeClear_of_w1c (hclear _), hopen, hreg] at hwrite
  refine ⟨b, _, hwrite, hwrote.setReg, fun k hk => ?_⟩
  rw [State.rbit, State.reg_setReg_same, bit_mod_two_pow, bit_replaced (reg_lt s a) hlt, decide_eq_true hk, Bool.true_and, ← State.rbit]
/-- A write of a word whose bits a write clears, and then what it does. -/
theorem hostWrite_clears (eff : State → State) (h : PortOpen p a s) {kind : Nat}
    (hinfo : pageInfo (a / 4096) = some (kind, (regSpec a).lvl)) (hfolio : isFolioPage (a / 4096) 2 = false) (haddr : a % 4096 ≠ 0x018)
    (hlevel : a / 4096 ≠ IFACE_LEVEL / 4096) (hplain : (regSpec a).rw = 0 ∧ (regSpec a).tx = 0) :
    ∃ b u, s.hostWrite p a w eff = (eff u).withMsgs b ∧ s.Wrote a u ∧
      u.reg a = s.reg a - (s.reg a &&& (w &&& (regSpec a).w1c)) := by
  obtain ⟨x, b, hwrite⟩ := hostWrite_of_open (w := w) eff h
  have hspec : (s.withTxns x).spec a = regSpec a := spec_of_shown h.2.1 hinfo hfolio
  obtain ⟨hrw, htx⟩ := hplain
  have hclosed : (s.withTxns x).openBits a = 0 := by
    rw [State.openBits, hspec, hrw, Nat.zero_and, ite_self]
  obtain ⟨hwrote, hreg⟩ := writeErrs_wrote s x a w haddr
  rw [writeHead_of_closed (hspec ▸ htx) hclosed] at hwrite
  generalize (s.withTxns x).writeErrs a w = u at hwrite hwrote hreg
  have hshown : u.pageShown (a / 4096) = true := by
    have hlvl : u.level = s.level := level_of_reg (hwrote.words _ (fun e => hlevel (e ▸ rfl)) (fun e => hlevel (by
      rw [e]
      simp only [ERR_STATUS, pg]
      omega)))
    rw [State.pageShown, hlvl, ← State.pageShown]
    exact h.2.1
  have hspec' : u.spec a = regSpec a := spec_of_shown hshown hinfo hfolio
  refine ⟨b, _, hwrite, ?_, ?_⟩
  · unfold State.writeClear
    extract_lets m
    split
    · exact hwrote
    · exact hwrote.setReg
  · unfold State.writeClear
    extract_lets m
    have hm : m = w &&& (regSpec a).w1c := by
      unfold m
      rw [hspec']
    rw [← hm]
    split
    next hzero => rw [hreg, hzero, Nat.and_zero, Nat.sub_zero]
    · rw [State.reg_setReg_same, hreg, Nat.mod_eq_of_lt ((Nat.sub_le _ _).trans_lt (reg_lt s a))]
end

/-! ## What a wake does to one folio and leaves of the others (R528 to R530, R537) -/

section
variable {s t : State} {n d : Nat}

/-- From s to t the folios beside d and the device keep their states and sequences. -/
structure State.Spares (d : Nat) (s t : State) : Prop where
  folios : ∀ m, m ≠ d → t.folioState m = s.folioState m
  seqs : ∀ m, m ≠ d → t.seqOf m = s.seqOf m
  dev : t.devState = s.devState
theorem State.Spares.refl (d : Nat) (s : State) : s.Spares d s := ⟨fun _ _ => rfl, fun _ _ => rfl, rfl⟩
theorem State.Spares.trans {u : State} (h : s.Spares d t) (h' : t.Spares d u) : s.Spares d u :=
  ⟨fun m hm => (h'.folios m hm).trans (h.folios m hm), fun m hm => (h'.seqs m hm).trans (h.seqs m hm), h'.dev.trans h.dev⟩
/-- A word of the power page below the folios' states and beside the device's. -/
theorem State.Spares.of_words (hpwr : t.pwr = s.pwr) (hwords : ∀ a, PM_FOLIO_STATE 0 ≤ a ∨ a = PM_STATE → t.reg a = s.reg a) : s.Spares d t where
  folios m _ := by
    rw [State.folioState, State.fld, hwords _ (.inl ?_), ← State.fld, ← State.folioState]
    simp only [PM_FOLIO_STATE, pg]
    omega
  seqs m _ := by rw [State.seqOf, hpwr, ← State.seqOf]
  dev := by rw [State.devState, State.fld, hwords _ (.inr rfl), ← State.fld, ← State.devState]
theorem State.Spares.setSeq {x : Option PwrSeq} (h : s.Spares d t) : s.Spares d (t.setSeq d x) :=
  h.trans ⟨fun _ _ => rfl, fun _ hm => Sp.get_set_ne _ _ _ hm, rfl⟩
theorem State.Spares.setFolioState {v : Nat} (h : s.Spares d t) : s.Spares d (t.setFolioState d v) := by
  refine h.trans ⟨fun m hm => folioState_setFolioState_ne t v hm, fun _ _ => rfl, State.fld_setFld_ne _ _ ?_⟩
  simp only [PM_STATE, PM_FOLIO_STATE, pg]
  omega
theorem State.Spares.wakeCause (h : s.Spares d t) (causes : Nat) : s.Spares d (t.wakeCause causes) := by
  refine h.trans (.of_words ?_ fun a ha => ?_)
  · unfold State.wakeCause
    extract_lets t1
    rw [withLine_pwr]
    split <;> rfl
  · have hne : a ≠ PM_WAKE_CAUSE := by
      rintro rfl
      exact absurd ha (by decide)
    unfold State.wakeCause
    extract_lets t1
    rw [State.reg_withLine]
    split
    · exact State.reg_setReg_ne _ _ hne
    · exact State.reg_setReg_ne _ _ hne
theorem State.Spares.setReg {a v : Nat} (h : s.Spares d t) (ha : a < PM_FOLIO_STATE 0) (hdev : a ≠ PM_STATE) : s.Spares d (t.setReg a v) :=
  h.trans (.of_words rfl fun b hb => State.reg_setReg_ne _ _ (by
    rintro rfl
    exact hb.elim (fun hge => absurd ha (not_lt.mpr hge)) hdev))
theorem State.Spares.refuseEntry {target who : Nat} {abort : Bool} (h : s.Spares d t) : s.Spares d (t.refuseEntry d target who abort) := by
  refine State.Spares.setReg ?_ (by decide) (by decide)
  split
  · exact h.setReg (by decide) (by decide)
  · exact h.setReg (by decide) (by decide)
theorem State.Spares.voteFails (h : s.Spares d t) (k : Nat) : s.Spares d (t.voteFails k) :=
  (h.setReg (by decide) (by decide)).setReg (by decide) (by decide)
/-- A wake of a folio leaves the other folios and the device. -/
theorem State.Spares.wake {causes who : Nat} (hd : d ≠ 0x40) (h : s.Spares d t) : s.Spares d (t.wake d causes who) := by
  have hexit : s.Spares d (t.startExit d causes) := by
    unfold State.startExit
    rw [if_neg hd]
    extract_lets f js
    exact h.setSeq.setFolioState.wakeCause causes
  have hundo (x : PwrSeq) : s.Spares d ((t.refuseEntry d (targetCode d x.target) who false).undoEntry d x) := by
    unfold State.undoEntry
    rw [if_neg hd]
    exact h.refuseEntry.setSeq.setFolioState
  unfold State.wake
  rw [if_neg hd]
  split
  · exact h.voteFails d
  · split
    · split
      · split
        · exact hundo _
        · exact h.setSeq
      · exact h
    · split
      · exact hexit
      · exact h

/-- Folio n is on its way out of its sleep, and nothing keeps a vote on it from waking it. -/
structure State.Wakening (n : Nat) (s : State) : Prop where
  state : s.folioState n = 6
  seq : ∃ x, s.seqOf n = some x ∧ x.entering = false
  may : s.domainFails n = false

/-- What says whether the votes on a domain are refused is the same. -/
theorem domainFails_of_woken (h : s.Woken t) (hdev : t.devState = s.devState) (m : Nat) : t.domainFails m = s.domainFails m := by
  have hboot : t.fld BOOT_STAT 31 28 = s.fld BOOT_STAT 31 28 := congrArg (fun v => bits v 31 28) (h.words _ (.inl (by decide)))
  have hfailed : t.pwrFailed = s.pwrFailed := by rw [h.only]
  have hlost : t.refLost = s.refLost := by rw [h.only]
  have hrails : t.railsOut = s.railsOut := by rw [h.only]
  rw [State.domainFails, hboot, hdev, hfailed, hlost, hrails, ← State.domainFails]
theorem asleep_same (h : Asleep n s) (hwoken : s.Woken t) (hdev : t.devState = s.devState) (hfolio : t.folioState n = s.folioState n)
    (hseq : t.seqOf n = s.seqOf n) (hdevSeq : t.seqOf 0x40 = s.seqOf 0x40) : Asleep n t := by
  obtain ⟨hd0, hfree, hn, hlo, hhi, hret, hnone, hmay⟩ := h
  have hretired : t.retired n = s.retired n := rbit_of_reg (hwoken.words _ (.inl (by
    simp only [FOLIO_RET, pg]
    omega)))
  refine ⟨hdev.trans hd0, hdevSeq.trans hfree, hn, hfolio ▸ hlo, hfolio ▸ hhi, hretired.trans hret, hseq.trans hnone, ?_⟩
  rw [domainFails_of_woken hwoken hdev, hmay]
theorem State.Wakening.same (h : s.Wakening n) (hwoken : s.Woken t) (hdev : t.devState = s.devState) (hfolio : t.folioState n = s.folioState n)
    (hseq : t.seqOf n = s.seqOf n) : t.Wakening n := by
  obtain ⟨hstate, hx, hmay⟩ := h
  refine ⟨hfolio.trans hstate, by rwa [hseq], ?_⟩
  rw [domainFails_of_woken hwoken hdev, hmay]
theorem seqOf_setSeq_same (s : State) (d : Nat) (x : Option PwrSeq) : (s.setSeq d x).seqOf d = x := Sp.get_set_same _ _ _ _
theorem setDevState_pwr (s : State) (v : Nat) : (s.setDevState v).pwr = s.pwr := by
  obtain ⟨regs, hregs⟩ : s.RegsOnly (s.setFld PM_STATE 31 29 v) := (State.RegsOnly.refl s).setFld
  unfold State.setDevState
  rw [hregs]
theorem seqOf_setDevState (s : State) (v d : Nat) : (s.setDevState v).seqOf d = s.seqOf d := by
  rw [State.seqOf, setDevState_pwr, ← State.seqOf]
theorem linkState_setLink (s : State) (p : Nat) (x : LinkPort) (q : Nat) : (s.setLink p x).linkState q = s.linkState q := rfl
theorem seqOf_setFolioState (s : State) (n v d : Nat) : (s.setFolioState n v).seqOf d = s.seqOf d := rfl
/-- An exit starts: the folio's state and its sequence. -/
theorem startExit_starts (hn : n ≠ 0x40) (causes : Nat) : (s.startExit n causes).folioState n = 6 ∧ (s.startExit n causes).seqOf n =
    some ⟨false, 1, s.folioState n, s.rclk, s.folioSteps n (s.folioState n), (s.folioSteps n (s.folioState n)).map (s.stepTime n), false, false, causes⟩ := by
  unfold State.startExit
  rw [if_neg hn]
  extract_lets f js
  have hcause (u : State) : u.Spares 0x40 (u.wakeCause causes) := (State.Spares.refl 0x40 u).wakeCause causes
  refine ⟨((hcause _).folios n hn).trans (folioState_setFolioState_same _ (by decide)), ((hcause _).seqs n hn).trans ?_⟩
  exact (seqOf_setFolioState _ _ _ _).trans (seqOf_setSeq_same _ _ _)
/-- A folio that sleeps wakes. -/
theorem wake_wakens (h : Asleep n s) (causes who : Nat) : (s.wake n causes who).Wakening n := by
  have hall := h
  obtain ⟨hd0, hfree, hn, hlo, hhi, hret, hnone, hmay⟩ := hall
  have hne : n ≠ 0x40 := by omega
  have hrun : s.wake n causes who = s.startExit n causes := by
    unfold State.wake
    rw [if_neg (by rw [hmay]; decide), hnone]
    dsimp only
    rw [if_neg hne, if_pos ⟨hd0, hlo, hhi, by rw [hret]; rfl⟩]
  obtain ⟨hstate, hseq⟩ := startExit_starts (s := s) hne causes
  have hwoken : s.Woken (s.startExit n causes) := (State.Woken.refl s).startExit (.inl (by omega)) causes
  rw [hrun]
  refine ⟨hstate, ⟨_, hseq, rfl⟩, ?_⟩
  have hspares : s.Spares n (s.wake n causes who) := (State.Spares.refl n s).wake hne
  rw [hrun] at hspares
  rw [domainFails_of_woken hwoken hspares.dev, hmay]
/-- One that is on its way stays so. -/
theorem State.Wakening.wake (h : s.Wakening n) (hd : d < 64) (causes who : Nat) : (s.wake d causes who).Wakening n := by
  by_cases hdn : n = d
  · subst hdn
    obtain ⟨x, hx, hout⟩ := h.seq
    have hsame : s.wake n causes who = s := by
      unfold State.wake
      rw [if_neg (by rw [h.may]; decide), hx]
      exact if_neg (by rw [hout]; decide)
    rwa [hsame]
  · have hspares : s.Spares d (s.wake d causes who) := (State.Spares.refl d s).wake (by omega)
    exact h.same ((State.Woken.refl s).wake (.inl hd)) hspares.dev (hspares.folios n hdn) (hspares.seqs n hdn)
theorem asleep_wake (h : Asleep n s) (hd : d < 64) (hdn : n ≠ d) (causes who : Nat) : Asleep n (s.wake d causes who) := by
  have hspares : s.Spares d (s.wake d causes who) := (State.Spares.refl d s).wake (by omega)
  exact asleep_same h ((State.Woken.refl s).wake (.inl hd)) hspares.dev (hspares.folios n hdn) (hspares.seqs n hdn) (hspares.seqs 0x40 (by omega))
/-- A wake of the device while it is awake wakes nothing. -/
theorem asleep_wakeDev (h : Asleep n s) (causes who : Nat) : Asleep n (s.wake 0x40 causes who) := by
  have hall := h
  obtain ⟨hd0, hfree, hn, -⟩ := hall
  have hrun : s.wake 0x40 causes who = s.voteFails 0x40 ∨ s.wake 0x40 causes who = s := by
    unfold State.wake
    split
    · exact .inl rfl
    · rw [hfree]
      dsimp only
      rw [if_pos rfl, if_neg (by omega)]
      exact .inr rfl
  rcases hrun with hrun | hrun
  · have hspares : s.Spares 0x41 (s.voteFails 0x40) := (State.Spares.refl _ s).voteFails 0x40
    rw [hrun]
    exact asleep_same h (State.Woken.refl s).voteFails hspares.dev (hspares.folios n (by omega)) (hspares.seqs n (by omega)) (hspares.seqs 0x40 (by decide))
  · rwa [hrun]
end

/-! ## Votes that stand (R529, R536) -/

/-- Over a list whose steps all keep P or reach Q, and keep Q, one step that makes Q of P leads from P to Q. -/
theorem foldl_reaches {α : Type} {f : State → α → State} {P Q : State → Prop} {l : List α} {x : α} (hx : x ∈ l)
    (hP : ∀ u, ∀ y ∈ l, P u → P (f u y) ∨ Q (f u y)) (hQ : ∀ u, ∀ y ∈ l, Q u → Q (f u y)) (hstep : ∀ u, P u → Q (f u x)) (s : State)
    (h : P s ∨ Q s) : Q (l.foldl f s) := by
  have hkeep : ∀ (l' : List α) (u : State), (∀ y ∈ l', y ∈ l) → Q u → Q (l'.foldl f u) := fun l' u hsub hu =>
    List.foldlRecOn (motive := Q) l' f hu fun v hv y hy => hQ v y (hsub y hy) hv
  obtain ⟨l₁, l₂, rfl⟩ := List.append_of_mem hx
  have hfirst : P (l₁.foldl f s) ∨ Q (l₁.foldl f s) := List.foldlRecOn (motive := fun u => P u ∨ Q u) l₁ f h fun u hu y hy => by
    rcases hu with hu | hu
    · exact hP u y (by simp [hy]) hu
    · exact .inr (hQ u y (by simp [hy]) hu)
  rw [List.foldl_append, List.foldl_cons]
  refine hkeep l₂ _ (fun y hy => by simp [hy]) ?_
  rcases hfirst with hfirst | hfirst
  · exact hstep _ hfirst
  · exact hQ _ x (by simp) hfirst

section
variable {s t : State} {n g : Nat}

theorem phys_lt (s : State) (k : Nat) : s.phys k < 64 := Nat.mod_lt _ (by decide)
theorem phys_of_reg (k : Nat) (h : t.reg (SPN_LEAF k) = s.reg (SPN_LEAF k)) : t.phys k = s.phys k := congrArg (fun v => bits v 5 0) h
theorem gmask_of_reg (h : ∀ w, t.reg (GATH_TBL g w) = s.reg (GATH_TBL g w)) : t.gmask g = s.gmask g := by
  rw [State.gmask, h, State.fld, h, ← State.fld, ← State.gmask]
/-- The words of the gatherings and of the leaf map, which no wake writes. -/
theorem unwoken_leaf (k : Nat) : Unwoken (SPN_LEAF k) := .inl (by
  simp only [SPN_LEAF, pg]
  omega)
theorem unwoken_gath (g w : Nat) : Unwoken (GATH_TBL g w) := .inl (by
  simp only [GATH_TBL, pg]
  omega)
theorem State.Woken.phys (h : s.Woken t) (k : Nat) : t.phys k = s.phys k := phys_of_reg k (h.words _ (unwoken_leaf k))
theorem State.Woken.gmask (h : s.Woken t) (g : Nat) : t.gmask g = s.gmask g := gmask_of_reg fun w => h.words _ (unwoken_gath g w)
theorem State.Woken.wakeGath {causes who : Nat} (h : s.Woken t) : s.Woken (t.wakeGath g causes who) :=
  List.foldlRecOn (motive := s.Woken) _ _ h fun u hu k _ => hu.wake (.inl (phys_lt u k))
/-- Folio n sleeps or is on its way. -/
def State.Rousable (s : State) (n : Nat) : Prop := Asleep n s ∨ s.Wakening n
theorem rousable_wake (h : s.Rousable n) {d : Nat} (hd : d < 64) (causes who : Nat) : (s.wake d causes who).Rousable n := by
  rcases h with h | h
  · by_cases hdn : n = d
    · exact .inr (hdn ▸ wake_wakens h causes who)
    · exact .inl (asleep_wake h hd hdn causes who)
  · exact .inr (h.wake hd causes who)
/-- A wake of a gathering wakes each of its folios that sleeps. -/
theorem wakeGath_wakens {k : Nat} (hk : k ∈ members (s.gmask g)) (h : s.Rousable (s.phys k)) (causes who : Nat) :
    (s.wakeGath g causes who).Wakening (s.phys k) := by
  have hfold := foldl_reaches (f := fun u k => u.wake (u.phys k) causes who) (P := fun u => s.Woken u ∧ Asleep (s.phys k) u)
    (Q := fun u => s.Woken u ∧ u.Wakening (s.phys k)) hk ?_ ?_ ?_ s ?_
  · exact hfold.2
  · rintro u j - ⟨hu, hasleep⟩
    have hwoken : s.Woken (u.wake (u.phys j) causes who) := hu.wake (.inl (phys_lt u j))
    exact (rousable_wake (.inl hasleep) (phys_lt u j) causes who).imp (⟨hwoken, ·⟩) (⟨hwoken, ·⟩)
  · rintro u j - ⟨hu, hwakening⟩
    exact ⟨hu.wake (.inl (phys_lt u j)), hwakening.wake (phys_lt u j) causes who⟩
  · rintro u ⟨hu, hasleep⟩
    have hwoken : s.Woken (u.wake (u.phys k) causes who) := hu.wake (.inl (phys_lt u k))
    refine ⟨hwoken, ?_⟩
    rw [hu.phys]
    exact wake_wakens hasleep causes who
  · exact h.imp (⟨.refl s, ·⟩) (⟨.refl s, ·⟩)
theorem rousable_wakeGath (h : s.Rousable n) (g causes who : Nat) : (s.wakeGath g causes who).Rousable n :=
  List.foldlRecOn (motive := fun u : State => u.Rousable n) _ _ h fun u hu k _ => rousable_wake hu (phys_lt u k) causes who
theorem wakening_wakeGath (h : s.Wakening n) (g causes who : Nat) : (s.wakeGath g causes who).Wakening n :=
  List.foldlRecOn (motive := fun u : State => u.Wakening n) _ _ h fun u hu k _ => hu.wake (phys_lt u k) causes who

/-- What the votes of a word wake before the ports. -/
def State.applyGaths (s : State) (a cause who : Nat) : State :=
  (List.range 16).foldl (fun s g => if s.rbit a g then s.wakeGath g cause who else s) (if s.rbit a 31 then s.wake 0x40 cause who else s)
/-- The ports that the votes of a word hold train. -/
def State.applyPorts (s : State) (a : Nat) : State := (List.range 6).foldl (fun s p => if s.rbit a (16 + p) then s.wakePort p else s) s
theorem applyVotes_eq (s : State) (a cause who : Nat) : s.applyVotes a cause who = (s.applyGaths a cause who).applyPorts a := rfl
theorem applyGaths_woken (s : State) (a cause who : Nat) : s.Woken (s.applyGaths a cause who) := by
  have hdev : s.Woken (if s.rbit a 31 then s.wake 0x40 cause who else s) := .ite ((State.Woken.refl s).wake (.inr rfl)) (.refl s)
  exact List.foldlRecOn (motive := s.Woken) _ _ hdev fun u hu g _ => .ite hu.wakeGath hu
theorem applyPorts_leaves (s : State) (a : Nat) : ∀ b, b / 4096 < 0x171 → (s.applyPorts a).reg b = s.reg b := fun b hb =>
  List.foldlRecOn (motive := fun u : State => u.reg b = s.reg b) _ _ rfl fun u hu p _ => by
    have hne : b ≠ LNK_STAT p := by
      rintro rfl
      simp only [LNK_STAT, pg] at hb
      omega
    split
    · unfold State.wakePort
      split
      · exact (State.reg_setFld_ne u _ _ _ hne).trans hu
      · exact hu
    · exact hu
/-- Every folio that sleeps of a gathering with a vote in the word is on its way. -/
theorem applyVotes_wakes {a k : Nat} (ha : a = PM_VOTE_HOST ∨ a = PM_VOTE_DBG) (hg : g < 16) (hvote : s.rbit a g = true)
    (hk : k ∈ members (s.gmask g)) (h : Asleep (s.phys k) s) (cause who : Nat) : (s.applyVotes a cause who).folioState (s.phys k) = 6 := by
  have hunwoken : Unwoken a := .inr (by rcases ha with rfl | rfl <;> decide)
  have hdev : s.Woken (if s.rbit a 31 then s.wake 0x40 cause who else s) ∧
      Asleep (s.phys k) (if s.rbit a 31 then s.wake 0x40 cause who else s) := by
    split
    · exact ⟨(State.Woken.refl s).wake (.inr rfl), asleep_wakeDev h cause who⟩
    · exact ⟨.refl s, h⟩
  have hgaths : (s.applyGaths a cause who).Wakening (s.phys k) := by
    have hfold := foldl_reaches (f := fun u g => if u.rbit a g then u.wakeGath g cause who else u) (P := fun u => s.Woken u ∧ Asleep (s.phys k) u)
      (Q := fun u => s.Woken u ∧ u.Wakening (s.phys k)) (List.mem_range.mpr hg) ?_ ?_ ?_ _ (.inl hdev)
    · exact hfold.2
    · rintro u j - ⟨hu, hasleep⟩
      split
      · exact (rousable_wakeGath (.inl hasleep) j cause who).imp (⟨hu.wakeGath, ·⟩) (⟨hu.wakeGath, ·⟩)
      · exact .inl ⟨hu, hasleep⟩
    · rintro u j - ⟨hu, hwakening⟩
      split
      · exact ⟨hu.wakeGath, wakening_wakeGath hwakening j cause who⟩
      · exact ⟨hu, hwakening⟩
    · rintro u ⟨hu, hasleep⟩
      rw [if_pos ((rbit_of_reg (hu.words a hunwoken)).trans hvote)]
      refine ⟨hu.wakeGath, ?_⟩
      rw [← hu.phys]
      exact wakeGath_wakens (by rwa [hu.gmask]) (.inl (by rwa [hu.phys])) cause who
  have hstate : (s.applyVotes a cause who).folioState (s.phys k) = (s.applyGaths a cause who).folioState (s.phys k) := by
    rw [applyVotes_eq, State.folioState, State.fld, applyPorts_leaves _ _ _ (by
      have hlt := phys_lt s k
      simp only [PM_FOLIO_STATE, pg]
      omega), ← State.fld, ← State.folioState]
  rw [hstate]
  exact hgaths.state
theorem applyVotes_words {a b : Nat} (hb : b = PM_VOTE_HOST ∨ b = PM_VOTE_DBG) (cause who : Nat) : (s.applyVotes a cause who).reg b = s.reg b := by
  rw [applyVotes_eq, applyPorts_leaves _ _ _ (by rcases hb with rfl | rfl <;> decide)]
  exact (applyGaths_woken s a cause who).words b (.inr (by rcases hb with rfl | rfl <;> decide))
end

section
variable {s : State} {p : Port} {w : Word} {n : Nat}

/-- What keeps a folio asleep reads as before after a write of a vote word. -/
theorem asleep_wrote {u : State} {a : Nat} (ha : a = PM_VOTE_HOST ∨ a = PM_VOTE_DBG) (hwrote : s.Wrote a u) (h : Asleep n s) : Asleep n u := by
  obtain ⟨hd0, hfree, hn, hlo, hhi, hret, hnone, hmay⟩ := h
  have hword (b : Nat) (hb : b < 0x3018 ∨ 0x304C ≤ b ∨ b = PM_STATE) : u.reg b = s.reg b := hwrote.words b
    (by rcases ha with rfl | rfl <;> simp only [PM_VOTE_HOST, PM_VOTE_DBG, PM_STATE, pg] at hb ⊢ <;> omega)
    (by rcases ha with rfl | rfl <;> simp only [PM_VOTE_HOST, PM_VOTE_DBG, PM_STATE, ERR_STATUS, pg] at hb ⊢ <;> omega)
  obtain ⟨regs, txns, msgs, honly⟩ := hwrote.only
  have hseq (d : Nat) : u.seqOf d = s.seqOf d := by
    rw [honly]
    rfl
  have hfolio : u.folioState n = s.folioState n := by
    rw [State.folioState, State.fld, hword _ (.inr (.inl (by simp only [PM_FOLIO_STATE, pg]; omega))), ← State.fld, ← State.folioState]
  have hdev : u.devState = s.devState := congrArg (fun v => bits v 31 29) (hword PM_STATE (.inr (.inr rfl)))
  have hretired : u.retired n = s.retired n := rbit_of_reg (hword _ (.inr (.inl (by simp only [FOLIO_RET, pg]; omega))))
  have hfails : u.domainFails n = s.domainFails n := by
    have hboot : u.fld BOOT_STAT 31 28 = s.fld BOOT_STAT 31 28 := congrArg (fun v => bits v 31 28) (hword _ (.inl (by decide)))
    have hfailed : u.pwrFailed = s.pwrFailed := by rw [honly]
    have hlost : u.refLost = s.refLost := by rw [honly]
    have hrails : u.railsOut = s.railsOut := by rw [honly]
    rw [State.domainFails, hboot, hdev, hfailed, hlost, hrails, ← State.domainFails]
  exact ⟨hdev.trans hd0, (hseq _).trans hfree, hn, hfolio ▸ hlo, hfolio ▸ hhi, hretired.trans hret, (hseq _).trans hnone, hfails.trans hmay⟩

/-- A write of a vote word: its bits, and what they wake. -/
theorem voteWord_wakes {a : Nat} (ha : a = PM_VOTE_HOST ∨ a = PM_VOTE_DBG) (h : PortOpen p a s) (cause who : Nat) :
    (∀ k, k ≤ 21 ∨ k = 31 → (s.hostWrite p a w.toNat (fun t => t.applyVotes a cause who)).rbit a k = bit w.toNat k) ∧
      ∀ g < 16, bit w.toNat g = true → ∀ k ∈ members (s.gmask g), Asleep (s.phys k) s →
        (s.hostWrite p a w.toNat (fun t => t.applyVotes a cause who)).folioState (s.phys k) = 6 := by
  obtain ⟨b, u, hwrite, hwrote, hbits⟩ := hostWrite_replaces (w := w.toNat) (fun t => t.applyVotes a cause who) h (kind := 4)
    (by rcases ha with rfl | rfl <;> decide) (by rcases ha with rfl | rfl <;> decide) (by rcases ha with rfl | rfl <;> decide)
    (by rcases ha with rfl | rfl <;> decide)
  have hset (k : Nat) (hk : k ≤ 21 ∨ k = 31) : u.rbit a k = bit w.toNat k := by
    have hmask : bit (regSpec a).rw k = true := by
      have hall : ∀ k : Fin 32, k.val ≤ 21 ∨ k.val = 31 → bit (regSpec a).rw k.val = true := by
        rcases ha with rfl | rfl <;> decide
      exact hall ⟨k, by omega⟩ hk
    rw [hbits k (by omega), if_pos hmask]
  rw [hwrite]
  refine ⟨fun k hk => ?_, fun g hg hvote k hk hasleep => ?_⟩
  · exact (rbit_of_reg (applyVotes_words ha cause who)).trans (hset k hk)
  · have hgmask : u.gmask g = s.gmask g := gmask_of_reg fun i => hwrote.words _
      (by rcases ha with rfl | rfl <;> simp only [GATH_TBL, PM_VOTE_HOST, PM_VOTE_DBG, pg] <;> omega)
      (by rcases ha with rfl | rfl <;> simp only [GATH_TBL, PM_VOTE_HOST, PM_VOTE_DBG, ERR_STATUS, pg] <;> omega)
    have hphys : u.phys k = s.phys k := phys_of_reg k (hwrote.words _
      (by rcases ha with rfl | rfl <;> simp only [SPN_LEAF, PM_VOTE_HOST, PM_VOTE_DBG, pg] <;> omega)
      (by rcases ha with rfl | rfl <;> simp only [SPN_LEAF, PM_VOTE_HOST, PM_VOTE_DBG, ERR_STATUS, pg] <;> omega))
    have hwakes := applyVotes_wakes ha hg ((hset g (by omega)).trans hvote) (hgmask ▸ hk) (hphys ▸ asleep_wrote ha hwrote hasleep) cause who
    rw [hphys] at hwakes
    exact hwakes
theorem pmVoteDbg_writes (h : PortOpen p PM_VOTE_DBG s) : Next (exec (.pmVoteDbg p w) s) fun t =>
    ∀ k, k ≤ 21 ∨ k = 31 → t.rbit PM_VOTE_DBG k = (if s.debugging then bit w.toNat k else s.rbit PM_VOTE_DBG k) := by
  have hrun : exec (.pmVoteDbg p w) s = .next (s.wrVoteDbg p w.toNat) := rfl
  refine ⟨_, hrun, fun k hk => ?_⟩
  unfold State.wrVoteDbg
  split
  · exact (voteWord_wakes (.inr rfl) h 1 8).1 k hk
  · extract_lets m
    obtain ⟨b, u, hwrite, hwrote, hbits⟩ := hostWrite_replaces (w := (w.toNat - (w.toNat &&& m)) ||| (s.reg PM_VOTE_DBG &&& m)) id h (kind := 4)
      (by decide) (by decide) (by decide) (by decide)
    have hmask : bit (regSpec PM_VOTE_DBG).rw k = true ∧ bit m k = true := by
      have hall : ∀ k : Fin 32, k.val ≤ 21 ∨ k.val = 31 → bit (regSpec PM_VOTE_DBG).rw k.val = true ∧ bit (regSpec PM_VOTE_DBG).named k.val = true := by
        decide
      exact hall ⟨k, by omega⟩ hk
    have hkept : bit (s.reg PM_VOTE_DBG &&& m) k = s.rbit PM_VOTE_DBG k := by
      rw [bit_eq_testBit, Nat.testBit_and, ← bit_eq_testBit, ← bit_eq_testBit, hmask.2, Bool.and_true, State.rbit]
    have hwritten : u.rbit PM_VOTE_DBG k = s.rbit PM_VOTE_DBG k := by
      rw [hbits k (by omega), if_pos hmask.1, bit_or, bit_cleared w.isLt, hmask.2, hkept, Bool.not_true, Bool.and_false, Bool.false_or]
    rw [hwrite]
    exact hwritten
theorem pmWakeCause_clears (h : PortOpen p PM_WAKE_CAUSE s) : Next (exec (.pmWakeCause p w) s) fun t =>
    (∀ k < 10, t.rbit PM_WAKE_CAUSE k = (s.rbit PM_WAKE_CAUSE k && !bit w.toNat k)) ∧
      t.wakeLow = (s.wakeLow && decide (t.reg PM_WAKE_CAUSE ≠ 0)) := by
  obtain ⟨b, u, hwrite, hwrote, hword⟩ := hostWrite_clears (w := w.toNat) (fun t => t.releaseWake) h (kind := 4) (by decide) (by decide) (by decide)
    (by decide) (by decide)
  have hrun : exec (.pmWakeCause p w) s = .next (s.hostWrite p PM_WAKE_CAUSE w.toNat fun t => t.releaseWake) := rfl
  rw [hwrite] at hrun
  have hlow : u.wakeLow = s.wakeLow := by
    obtain ⟨regs, txns, msgs, honly⟩ := hwrote.only
    rw [honly]
  have hbit (k : Nat) (hk : k < 10) : u.rbit PM_WAKE_CAUSE k = (s.rbit PM_WAKE_CAUSE k && !bit w.toNat k) := by
    have hmask : bit (regSpec PM_WAKE_CAUSE).w1c k = true := by
      have hall : ∀ k : Fin 10, bit (regSpec PM_WAKE_CAUSE).w1c k.val = true := by decide
      exact hall ⟨k, hk⟩
    rw [State.rbit, hword, bit_cleared (reg_lt s _), bit_eq_testBit (w.toNat &&& _), Nat.testBit_and, ← bit_eq_testBit, ← bit_eq_testBit, hmask,
      Bool.and_true, State.rbit]
  refine ⟨_, hrun, ?_⟩
  unfold State.releaseWake
  split
  next hzero => exact ⟨hbit, by
      rw [show (({ u with wakeLow := false } : State).withMsgs b).reg PM_WAKE_CAUSE = u.reg PM_WAKE_CAUSE from rfl, hzero]
      simp
      rfl⟩
  next hcause => exact ⟨hbit, by
      rw [show (u.withMsgs b).reg PM_WAKE_CAUSE = u.reg PM_WAKE_CAUSE from rfl, decide_eq_true hcause, Bool.and_true, ← hlow]
      rfl⟩
theorem pmRefuseLog_clears (h : PortOpen p PM_REFUSE_LOG s) : Next (exec (.pmRefuseLog p w) s) fun t =>
    (t.reg PM_REFUSE_LOG, t.reg PM_REFUSE_CNT) = (if bit w.toNat 31 then (0, 0) else (s.reg PM_REFUSE_LOG, s.reg PM_REFUSE_CNT)) := by
  obtain ⟨b, u, hwrite, hwrote, hword⟩ := hostWrite_clears (w := w.toNat) (fun t => t.refuseClr w.toNat) h (kind := 4) (by decide) (by decide)
    (by decide) (by decide) (by decide)
  have hrun : exec (.pmRefuseLog p w) s = .next (s.hostWrite p PM_REFUSE_LOG w.toNat fun t => t.refuseClr w.toNat) := rfl
  rw [hwrite] at hrun
  refine ⟨_, hrun, ?_⟩
  have hmsgs (v : State) (a : Nat) : (v.withMsgs b).reg a = v.reg a := rfl
  dsimp only
  rw [hmsgs, hmsgs]
  unfold State.refuseClr
  split
  next hvalid =>
    rw [State.reg_setReg_ne _ _ (by decide), State.reg_setReg_same, State.reg_setReg_same]
    rfl
  next hvalid =>
    have hmask : w.toNat &&& (regSpec PM_REFUSE_LOG).w1c = 0 := by
      have hw1c : (regSpec PM_REFUSE_LOG).w1c = 2 ^ 31 := by decide
      have hoff : w.toNat.testBit 31 = false := by simpa [bit_eq_testBit] using hvalid
      rw [hw1c, Nat.and_two_pow, hoff]
      rfl
    rw [hword, hmask, Nat.and_zero, Nat.sub_zero, hwrote.words PM_REFUSE_CNT (by decide) (by decide)]
/-- PLANNER_EXPIRY wakes the planned class's gathering (R536). -/
theorem plannerExpiry_wakes (hlevel : 2 ≤ s.level) (hplan : s.rbit PM_PLAN 31 = true) (htimer : s.planTimer = true) (hlast : s.planLast ≠ 0)
    (harmed : ∀ a, s.planAt = some a → a + 1 < s.planLast)
    (hdue : s.planLast + s.fld PM_PLAN 23 0 ≤ s.rclk + s.wakeTime (s.clsGath (s.fld PM_PLAN 27 24)) + 1) :
    Next (exec .plannerExpiry s) fun t => t.planAt = some s.rclk ∧
      ∀ k ∈ members (s.gmask (s.clsGath (s.fld PM_PLAN 27 24))), Asleep (s.phys k) s → t.folioState (s.phys k) = 6 := by
  let s1 : State := { s with planAt := some s.rclk }
  let u := s1.wake 0x40 256 0
  have hon : s.planArmed = true := by
    unfold State.planArmed
    rw [decide_eq_true hlevel, hplan, htimer, decide_eq_true (Nat.pos_of_ne_zero hlast)]
    cases hat : s.planAt with
    | none => rfl
    | some a => simpa using harmed a hat
  have hleft : s.planLeft = 0 := Nat.sub_eq_zero_of_le hdue
  have hrun : exec .plannerExpiry s = .next (u.wakeGath (s.clsGath (s.fld PM_PLAN 27 24)) 256 0) := by
    show execPlannerExpiry s = _
    unfold execPlannerExpiry
    rw [if_neg (by simp [hplan, htimer]; omega), if_neg hlast, if_neg (by simp [hon]), if_neg (by simp [hleft])]
  have hdev : s1.Woken u := (State.Woken.refl s1).wake (.inr rfl)
  have hwoken : s1.Woken (u.wakeGath (s.clsGath (s.fld PM_PLAN 27 24)) 256 0) := hdev.wakeGath
  refine ⟨_, hrun, ?_, fun k hk hasleep => ?_⟩
  · rw [hwoken.only]
  · have hu : Asleep (u.phys k) u := by
      rw [hdev.phys]
      exact asleep_wakeDev (s := s1) hasleep 256 0
    have hwakes := wakeGath_wakens (s := u) (g := s.clsGath (s.fld PM_PLAN 27 24)) (by
      rw [hdev.gmask]
      exact hk) (.inl hu) 256 0
    rw [hdev.phys] at hwakes
    exact hwakes.state
end

/-! ## Entries (R526, R530, R533, R534) -/

/-- A folio's domain, as a command names it. -/
theorem folioDomain (n : Fin 50) : (BitVec.ofNat 8 n.val).toNat = n.val := by
  rw [BitVec.toNat_ofNat]
  exact Nat.mod_eq_of_lt (by omega)
section
variable {s : State} {n : Fin 50}

theorem f1Entry_enters (hstate : s.folioState n.val = 0) (hquiet : s.folioQuiet n.val = true) : Next (exec (.f1Entry n) s) fun t =>
    t.folioState n.val = 1 ∧ (∀ m : Fin 50, m ≠ n → t.folioState m.val = s.folioState m.val) ∧ t = { s with regs := t.regs } :=
  ⟨_, (if_neg (not_not.mpr hstate)).trans (if_neg (by simp [hquiet])), folioState_setFolioState_same s (by decide),
    fun m hm => folioState_setFolioState_ne s 1 fun e => hm (Fin.ext e), (State.RegsOnly.refl s).setFld.eq⟩

/-- What makes a folio due for a deeper state. -/
structure State.EntryDue (s : State) (n : Nat) : Prop where
  service : s.inReset = false ∧ s.boot = 7 ∧ s.devState = 0
  placed : (s.logical n).isSome ∧ s.retired n = false ∧ s.seqOf n = none
  deeper : 1 ≤ s.folioState n ∧ s.folioState n < 4 ∧ s.folioState n < s.folioChoice n
  free : s.folioVoted n = false ∧ s.substs = [] ∧ (s.gathOfPhys n).any (fun g => bit s.switching g) = false
theorem powerEntry_begins (h : s.EntryDue n.val) (ok : Bool) : exec (.powerEntry (BitVec.ofNat 8 n.val) ok) s =
    .next (s.beginEntry n.val (s.folioChoice n.val) (s.folioState n.val) ok) := by
  obtain ⟨⟨hreset, hboot, hdev⟩, ⟨hplaced, hret, hseq⟩, ⟨hlo, hhi, hdeeper⟩, hvoted, hsubsts, hswitching⟩ := h
  have hservice : ¬(s.inReset || s.fld BOOT_STAT 31 28 != 7) = true := by
    rw [hreset, show s.fld BOOT_STAT 31 28 = 7 from hboot]
    decide
  show execPowerEntry _ _ s = _
  unfold execPowerEntry
  rw [folioDomain]
  dsimp only
  rw [if_neg hservice, if_neg (by omega), if_pos n.isLt, if_neg, if_neg (by rw [hvoted]; decide), if_neg (by rw [hsubsts]; exact Bool.false_ne_true),
    if_neg (by rw [hswitching]; decide)]
  rintro (hnone | hretired | hsome | hzero | hdeep | haway | hnot)
  · rw [Option.isNone_iff_eq_none] at hnone
    rw [hnone] at hplaced
    exact absurd hplaced (by decide)
  · rw [hret] at hretired
    exact Bool.false_ne_true hretired
  · rw [hseq] at hsome
    exact absurd hsome (by decide)
  · omega
  · omega
  · exact haway hdev
  · omega
theorem beginEntry_starts (hfree : s.tagsOpen n.val = false) (target old : Nat) : s.beginEntry n.val target old true =
    (s.setSeq n.val (some ⟨true, target, old, s.rclk, [], [s.entryTime (target - 2)], false, false, 0⟩)).setFolioState n.val 5 := by
  have hcheck : s.entryCheck n.val = none := by
    unfold State.entryCheck
    rw [if_neg (by omega), if_neg (by rw [hfree]; decide)]
  unfold State.beginEntry
  rw [if_pos rfl, hcheck]
  dsimp only
  rw [if_neg (by omega), if_neg (by omega)]
theorem powerEntry_enters (h : s.EntryDue n.val) (hfree : s.tagsOpen n.val = false) :
    Next (exec (.powerEntry (BitVec.ofNat 8 n.val) true) s) fun t => t.folioState n.val = 5 ∧
      t.seqOf n.val = some ⟨true, s.folioChoice n.val, s.folioState n.val, s.rclk, [], [s.entryTime (s.folioChoice n.val - 2)], false, false, 0⟩ ∧
      t = { s with regs := t.regs, pwr := t.pwr } := by
  have hrun := powerEntry_begins h true
  rw [beginEntry_starts hfree] at hrun
  refine ⟨_, hrun, folioState_setFolioState_same _ (by decide), (seqOf_setFolioState _ _ _ _).trans (seqOf_setSeq_same _ _ _), ?_⟩
  obtain ⟨regs, hregs⟩ := (State.RegsOnly.refl (s.setSeq n.val (some ⟨true, s.folioChoice n.val, s.folioState n.val, s.rclk, [],
    [s.entryTime (s.folioChoice n.val - 2)], false, false, 0⟩))).setFld (a := PM_FOLIO_STATE (n.val / 8)) (hi := 4 * (n.val % 8) + 3)
    (lo := 4 * (n.val % 8)) (v := 5)
  rw [State.setFolioState, hregs]
  rfl
theorem powerEntry_refused (h : s.EntryDue n.val) : Next (exec (.powerEntry (BitVec.ofNat 8 n.val) false) s) fun t =>
    t.folioState n.val = s.folioState n.val ∧ t.fld PM_REFUSE_CNT 31 16 = min (s.fld PM_REFUSE_CNT 31 16 + 1) 0xFFFF ∧
      t = { s with regs := t.regs } := by
  have hrun := powerEntry_begins h false
  have hrefuse : s.beginEntry n.val (s.folioChoice n.val) (s.folioState n.val) false =
      (s.bump PM_REFUSE_CNT 31 16 1).setReg PM_REFUSE_LOG (2 ^ 31 + targetCode n.val (s.folioChoice n.val) * 2 ^ 28 + 0xB * 2 ^ 24 + n.val) := rfl
  rw [hrefuse] at hrun
  have hne {a : Nat} (ha : a < PM_FOLIO_STATE 0) : PM_FOLIO_STATE (n.val / 8) ≠ a := by
    simp only [PM_FOLIO_STATE, pg] at ha ⊢
    omega
  refine ⟨_, hrun, folioState_of_reg s ?_, ?_, (State.RegsOnly.refl s).bump.setReg.eq⟩
  · exact (State.reg_setReg_ne _ _ (hne (by decide))).trans (State.reg_bump_ne _ _ (hne (by decide)))
  · rw [State.fld_setReg_ne _ _ (by decide), State.fld_bump_same _ _ _ (by decide) (by decide)]
    rfl

/-- The device enters D1 or D2 while every folio sleeps. -/
theorem devEntry_enters (hreset : s.inReset = false) (hboot : s.boot = 7) (hseq : s.seqOf 0x40 = none) (hawake : s.devState < 2)
    (hdeeper : s.devState < s.devChoice) (hvoted : s.devVoted = false) (hasleep : ∀ m ∈ s.active, 2 ≤ s.folioState m ∧ s.folioState m ≤ 4)
    (hcheck : s.entryCheck 0x40 = none) : Next (exec (.powerEntry 0x40 true) s) fun t => t.devState = 3 ∧
      t.sideband = s.sideband ++ [.state 3] ∧
      t.seqOf 0x40 = some ⟨true, s.devChoice, s.devState, s.rclk, [], [s.entryTime (s.devChoice + 2)], false, false, 0⟩ := by
  let x : PwrSeq := ⟨true, s.devChoice, s.devState, s.rclk, [], [s.entryTime (s.devChoice + 2)], false, false, 0⟩
  have hservice : ¬(s.inReset || s.fld BOOT_STAT 31 28 != 7) = true := by
    rw [hreset, show s.fld BOOT_STAT 31 28 = 7 from hboot]
    decide
  have hall : s.active.all (fun n => decide (2 ≤ s.folioState n) && decide (s.folioState n ≤ 4)) = true := by
    rw [List.all_eq_true]
    intro m hm
    obtain ⟨hlo, hhi⟩ := hasleep m hm
    rw [decide_eq_true hlo, decide_eq_true hhi]
    rfl
  have hbegin : s.beginEntry 0x40 s.devChoice s.devState true = (s.setSeq 0x40 (some x)).setDevState 3 := by
    unfold State.beginEntry
    rw [if_pos rfl, hcheck]
    rfl
  have hrun : exec (.powerEntry 0x40 true) s = .next (s.beginEntry 0x40 s.devChoice s.devState true) := by
    refine (if_neg hservice).trans ((if_pos rfl).trans ((if_neg ?_).trans ((if_neg (by rw [hvoted]; decide)).trans (if_neg ?_))))
    · rintro (hsome | hsleeps | hnot)
      · rw [show s.seqOf (BitVec.toNat (64 : BitVec 8)) = none from hseq] at hsome
        exact absurd hsome (by decide)
      · omega
      · omega
    · rw [hall]
      decide
  rw [hbegin] at hrun
  exact ⟨_, hrun, devState_setDevState _ (by decide), rfl, (seqOf_setDevState _ _ _).trans (seqOf_setSeq_same s 0x40 (some x))⟩
/-- A port without votes falls asleep. -/
theorem portEntry_naps {l : Fin 6} (hreset : s.inReset = false) (hboot : s.boot = 7) (hvoted : s.portVoted l.val = false)
    (hnap : s.mayNap l.val = true) (hstate : s.linkState l.val = 0 ∨ s.linkState l.val = 2) :
    Next (exec (.powerEntry (BitVec.ofNat 8 (0x48 + l.val)) true) s) fun t => t.linkState l.val = 3 := by
  have hservice : ¬(s.inReset || s.fld BOOT_STAT 31 28 != 7) = true := by
    rw [hreset, show s.fld BOOT_STAT 31 28 = 7 from hboot]
    decide
  have hdom : (BitVec.ofNat 8 (0x48 + l.val)).toNat = 0x48 + l.val := by
    rw [BitVec.toNat_ofNat]
    exact Nat.mod_eq_of_lt (by omega)
  let u := (s.setLinkState l.val 3).setLink l.val { LinkPort.reset with queue := (s.link l.val).queue }
  have hrun : exec (.powerEntry (BitVec.ofNat 8 (0x48 + l.val)) true) s = .next (((u.requeue l.val).flood l.val).evalReach) := by
    show execPowerEntry _ _ s = _
    unfold execPowerEntry
    rw [hdom]
    dsimp only
    rw [if_neg hservice, if_neg (by omega), if_neg (by omega), if_pos (by omega), Nat.add_sub_cancel_left, if_neg]
    rintro (hheld | hnot | haway)
    · rw [hvoted] at hheld
      exact Bool.false_ne_true hheld
    · rw [hnap] at hnot
      exact absurd hnot (by decide)
    · exact hstate.elim haway.1 haway.2
  refine ⟨_, hrun, (linkState_of_reg (reroute_words u l (.inl rfl))).trans ?_⟩
  exact (linkState_setLink _ _ _ _).trans (linkState_setLinkState_same s l.val (by decide))
end

end Sys2Proof.Machine
end

-- ==== Ends of entries and exits: O56 ====
section
/-! SUPPORT. What sleep takes from a folio and from the vat and what a reload gives back, the end of an entry, the steps of an exit, and
steps that time out. -/

namespace Sys2Proof.Machine

open Sys2Proof.Claims

/-! ## What sleep takes and reloads give back (R526, R537) -/

/-- A word that no reload of a memory writes: any beside the folios' FOLIO_SFU_STORE. -/
def Unloaded (a : Nat) : Prop := ∀ n < 50, a ≠ FOLIO_SFU_STORE n
theorem unloaded_of_page {a : Nat} (h : a / 4096 < 0x40 ∨ 0x10A < a / 4096) : Unloaded a := fun n hn => by
  rintro rfl
  simp only [FOLIO_SFU_STORE, pg] at h
  omega
/-- From s to t memories, contexts and streams differ at most, and what a reload reports of a function store. -/
structure State.Upkept (s t : State) : Prop where
  words : ∀ a, Unloaded a → t.reg a = s.reg a
  pwr : t.pwr = s.pwr
  rclk : t.rclk = s.rclk
  held : t.heldWrites = s.heldWrites
namespace State.Upkept
variable {s t u : State}

theorem refl (s : State) : s.Upkept s := ⟨fun _ _ => rfl, rfl, rfl, rfl⟩
theorem trans (h : s.Upkept t) (h' : t.Upkept u) : s.Upkept u :=
  ⟨fun a ha => (h'.words a ha).trans (h.words a ha), h'.pwr.trans h.pwr, h'.rclk.trans h.rclk, h'.held.trans h.held⟩
theorem of_same (h : s.Upkept t) (hregs : u.regs = t.regs) (hpwr : u.pwr = t.pwr) (hrclk : u.rclk = t.rclk)
    (hheld : u.heldWrites = t.heldWrites) : s.Upkept u := h.trans ⟨fun _ _ => reg_of_regs hregs, hpwr, hrclk, hheld⟩
theorem setMem {m : Nat} {x : Memory} (h : s.Upkept t) : s.Upkept (t.setMem m x) := by
  unfold State.setMem
  split
  · exact h.of_same rfl rfl rfl rfl
  · exact h.of_same rfl rfl rfl rfl
  · exact h.of_same rfl rfl rfl rfl
  · exact h.of_same rfl rfl rfl rfl
  · exact h.of_same rfl rfl rfl rfl
  · exact h.of_same rfl rfl rfl rfl
  · exact h.of_same rfl rfl rfl rfl
theorem put {m k : Nat} {bs : List Byte} (h : s.Upkept t) : s.Upkept (t.put m k bs) :=
  (h.setMem (m := m) (x := (t.mem m).write k bs)).of_same rfl rfl rfl rfl
theorem wipe {m k len : Nat} (h : s.Upkept t) : s.Upkept (t.wipe m k len) :=
  (h.setMem (m := m) (x := Sp.erase (t.mem m) k len)).of_same rfl rfl rfl rfl
theorem setStr {i : Nat} {x : Strm} (h : s.Upkept t) : s.Upkept (t.setStr i x) := h.of_same rfl rfl rfl rfl
theorem foldl {α : Type} {f : State → α → State} {l : List α} (h : s.Upkept t) (hf : ∀ v, ∀ x ∈ l, s.Upkept v → s.Upkept (f v x)) :
    s.Upkept (l.foldl f t) := List.foldlRecOn (motive := s.Upkept) l f h fun v hv x hx => hf v x hx hv
theorem ite {p : Prop} [Decidable p] (ht : s.Upkept t) (hu : s.Upkept u) : s.Upkept (if p then t else u) := by
  split
  · exact ht
  · exact hu
theorem storeStat {n : Nat} (h : s.Upkept t) (hn : n < 50) : s.Upkept (t.storeStat n) := by
  obtain ⟨regs, hregs⟩ : t.RegsOnly (t.storeStat n) := (State.RegsOnly.refl t).setFld.setBit
  refine h.trans ⟨fun a ha => reg_storeStat_ne t n (ha n hn), ?_, ?_, ?_⟩
  · rw [hregs]
  · rw [hregs]
  · rw [hregs]
theorem loadFolio {n k : Nat} (h : s.Upkept t) (hn : n < 50) : s.Upkept (t.loadFolio n k) := by
  have hrefill {v : State} {m : Nat} {bs : List Byte} (hv : s.Upkept v) : s.Upkept (v.refill n m bs) := hv.wipe.put
  have himage {m : FolioImg} : s.Upkept (t.loadImage n m) := (hrefill (hrefill (hrefill h))).storeStat hn
  unfold State.loadFolio
  extract_lets s1
  have h1 : s.Upkept s1 := by
    unfold s1
    split
    · exact himage
    · exact h
  exact h1.foldl fun _ _ _ hv => hv.put
theorem reloadSeg {n j : Nat} (h : s.Upkept t) : s.Upkept (t.reloadSeg n j) := by
  unfold State.reloadSeg
  split
  · exact h
  · refine h.foldl fun v b _ hv => ?_
    extract_lets blk
    split
    · exact hv.put
    · exact hv
theorem coolBuf {b : Nat} (h : s.Upkept t) : s.Upkept (t.coolBuf b) := h.foldl fun _ _ _ hv => .ite hv.setStr hv
theorem copyWheel {i : Nat} (h : s.Upkept t) : s.Upkept (t.copyWheel i) := by
  unfold State.copyWheel
  extract_lets x
  split
  · exact h.coolBuf.put.setStr
  · exact h
theorem reloadVat (h : s.Upkept t) : s.Upkept t.reloadVat :=
  (h.foldl fun _ _ _ hv => hv.put).foldl fun _ _ _ hv => .ite hv.copyWheel hv
/-- The end of a step of an exit reloads at most. -/
theorem exitEffect {d j : Nat} (h : s.Upkept t) (hd : d < 50 ∨ j ≠ 20) : s.Upkept (t.exitEffect d j) := by
  have hfolios : s.Upkept (t.active.foldl (fun s n => match s.logical n with | some k => s.loadFolio n k | none => s) t) :=
    h.foldl fun v n hn hv => by
      have hlt : n < 50 := List.mem_range.mp (List.mem_filter.mp hn).1
      split
      · exact hv.loadFolio hlt
      · exact hv
  unfold State.exitEffect
  split
  · exact hfolios.reloadVat
  · split
    next hj =>
      split
      · exact h.loadFolio (hd.resolve_right (not_not.mpr hj))
      · exact h
    · exact .ite h.reloadSeg h
theorem loseMems {n : Nat} (h : s.Upkept t) : s.Upkept (t.loseMems n) := h.foldl fun _ _ _ hv => hv.wipe
theorem loseSegs {n : Nat} (h : s.Upkept t) : s.Upkept (t.loseSegs n) := h.wipe.foldl fun _ _ _ hv => .ite hv hv.wipe
theorem coolWheels {lost : Nat → Bool} (h : s.Upkept t) : s.Upkept (t.coolWheels lost) := h.foldl fun v i _ hv => by
  extract_lets x
  split
  · exact .ite hv.setStr hv
  · exact hv
theorem sleepVat {d : Nat} (h : s.Upkept t) : s.Upkept (t.sleepVat d) := by
  unfold State.sleepVat
  split
  · extract_lets bad
    exact (h.foldl fun _ _ _ hv => .ite hv hv.wipe).coolWheels
  · exact h.wipe.coolWheels
theorem setCtx {n c : Nat} {x : Ctx} (h : s.Upkept t) : s.Upkept (t.setCtx n c x) := h.of_same rfl rfl rfl rfl
theorem loseLogic {n : Nat} (h : s.Upkept t) : s.Upkept (t.loseLogic n) := by
  unfold State.loseLogic
  extract_lets s1 s2
  have h1 : s.Upkept s1 := h.of_same rfl rfl rfl rfl
  have h2 : s.Upkept s2 := by
    unfold s2
    clear_value s1
    split
    · exact h1.of_same rfl rfl rfl rfl
    · exact h1
  exact h2.foldl fun _ _ _ hv => hv.setCtx
theorem sleepFolio {n f : Nat} (h : s.Upkept t) : s.Upkept (t.sleepFolio n f) := by
  unfold State.sleepFolio
  split
  · exact h
  · exact h.loseLogic.loseSegs
  · exact h.loseLogic.loseMems

/-! ### What reads as before -/

theorem folioState (h : s.Upkept t) (n : Nat) (hn : n < 512) : t.folioState n = s.folioState n :=
  congrArg (fun v => bits v _ _) (h.words _ (unloaded_of_page (.inl (by
    simp only [PM_FOLIO_STATE, pg]
    omega))))
theorem devState (h : s.Upkept t) : t.devState = s.devState := congrArg (fun v => bits v 31 29) (h.words _ (unloaded_of_page (.inl (by decide))))
theorem seqOf (h : s.Upkept t) (d : Nat) : t.seqOf d = s.seqOf d := by rw [State.seqOf, h.pwr, ← State.seqOf]
end State.Upkept

/-! ### The memories after a sleep -/

section
variable (s : State)

theorem loseLogic_vat (n : Nat) : (s.loseLogic n).vat = s.vat := by
  unfold State.loseLogic
  extract_lets s1 s2
  have h2 : s2.vat = s.vat := by
    unfold s2
    split
    · rfl
    · rfl
  clear_value s2
  exact List.foldlRecOn (motive := fun u : State => u.vat = s.vat) _ _ h2 fun u hu _ _ => hu
theorem wipe_vat_of_folio {m : Nat} (k len : Nat) (h : m < 6) : (s.wipe m k len).vat = s.vat := by
  interval_cases m
  · rfl
  · rfl
  · rfl
  · rfl
  · rfl
  · rfl
/-- The sleep of a folio in F4 leaves the vat. -/
theorem sleepFolio_vat (n : Nat) : (s.sleepFolio n 4).vat = s.vat :=
  List.foldlRecOn (motive := fun u : State => u.vat = s.vat) _ _ (loseLogic_vat s n) fun u hu m hm =>
    (wipe_vat_of_folio u _ _ (List.mem_range.mp hm)).trans hu
theorem coolWheels_vat (lost : Nat → Bool) : (s.coolWheels lost).vat = s.vat :=
  List.foldlRecOn (motive := fun u : State => u.vat = s.vat) s.strIdx _ rfl fun u hu i _ => by
    extract_lets x
    split
    · split
      · exact hu
      · exact hu
    · exact hu
/-- In D2 the vat reads zero. -/
theorem sleepVat_zeros {a : Nat} (ha : a < 2 ^ 26) : (s.sleepVat 2).vat.byte a = 0 := by
  have hvat : (s.sleepVat 2).vat = Sp.erase s.vat 0 (2 ^ 26) := by
    rw [State.sleepVat, if_neg (by decide), coolWheels_vat]
    rfl
  rw [hvat]
  exact Sp.get_erase_in _ _ _ _ ⟨Nat.zero_le _, by omega⟩
end

/-! ## The end of an entry (R530, R540) -/

section
variable {s : State}

/-- A folio asleep in state f. -/
def State.folioAsleep (s : State) (n f : Nat) : State := ((s.setSeq n none).setFolioState n f).sleepFolio n f
theorem folioAsleep_upkept (n f : Nat) : ((s.setSeq n none).setFolioState n f).Upkept (s.folioAsleep n f) := (State.Upkept.refl _).sleepFolio
theorem folioAsleep_sleeps {n f : Nat} (hn : n < 50) (hf : f < 16) : (s.folioAsleep n f).folioState n = f ∧ (s.folioAsleep n f).seqOf n = none := by
  have hkept := folioAsleep_upkept (s := s) n f
  exact ⟨(hkept.folioState n (by omega)).trans (folioState_setFolioState_same _ hf),
    (hkept.seqOf n).trans ((seqOf_setFolioState _ _ _ _).trans (seqOf_setSeq_same _ _ _))⟩
/-- In F4 the folio memory reads zero. -/
theorem folioAsleep_zeros (n : Nat) {a : Nat} (ha : a < 2 ^ 20) : (s.folioAsleep n 4).fm.byte (n * 2 ^ 20 + a) = 0 := by
  have hmems : s.folioAsleep n 4 = (((s.setSeq n none).setFolioState n 4).loseLogic n).loseMems n := rfl
  rw [hmems, byte_loseMems, if_pos (by omega)]
theorem entryComplete_folio {n : Fin 50} {x : PwrSeq} (hseq : s.seqOf n.val = some x) (hin : x.entering = true)
    (hdelay : x.since + 2 + x.delays.headD 0 ≤ s.rclk) : exec (.entryComplete (BitVec.ofNat 8 n.val)) s =
      .next (if x.latched then (s.folioAsleep n.val x.target).startExit n.val x.causes else s.folioAsleep n.val x.target) := by
  have hne : n.val ≠ 0x40 := by omega
  show execEntryComplete _ s = _
  unfold execEntryComplete
  rw [folioDomain]
  dsimp only
  rw [hseq]
  dsimp only
  rw [if_neg (by rw [hin]; decide), if_neg (by omega)]
  simp only [hne, false_and, if_false]
  rfl
theorem entryComplete_sleeps {n : Fin 50} {x : PwrSeq} (hseq : s.seqOf n.val = some x) (hin : x.entering = true) (hlo : 2 ≤ x.target)
    (hhi : x.target ≤ 4) (hdelay : x.since + 2 + x.delays.headD 0 ≤ s.rclk) : Next (exec (.entryComplete (BitVec.ofNat 8 n.val)) s) fun t =>
      t.folioState n.val = (if x.latched then 6 else x.target) ∧ (x.latched = false → t.seqOf n.val = none) ∧
        (x.target = 4 → ∀ a < 2 ^ 20, t.fm.byte (n.val * 2 ^ 20 + a) = 0) ∧ (x.target = 2 → t.fm = s.fm ∧ t.ob = s.ob) := by
  have hrun := entryComplete_folio hseq hin hdelay
  obtain ⟨hstate, hfree⟩ := folioAsleep_sleeps (s := s) (f := x.target) n.isLt (by omega)
  have hshallow (h : x.target = 2) : (s.folioAsleep n.val x.target).fm = s.fm ∧ (s.folioAsleep n.val x.target).ob = s.ob := by
    rw [h]
    obtain ⟨regs, hregs⟩ : (s.setSeq n.val none).RegsOnly ((s.setSeq n.val none).setFolioState n.val 2) := (State.RegsOnly.refl _).setFld
    have hsame : s.folioAsleep n.val 2 = (s.setSeq n.val none).setFolioState n.val 2 := rfl
    rw [hsame, hregs]
    exact ⟨rfl, rfl⟩
  have hdeep (h : x.target = 4) : ∀ a < 2 ^ 20, (s.folioAsleep n.val x.target).fm.byte (n.val * 2 ^ 20 + a) = 0 := by
    rw [h]
    exact fun a ha => folioAsleep_zeros n.val ha
  generalize s.folioAsleep n.val x.target = u at hrun hstate hfree hshallow hdeep
  cases hlatch : x.latched with
  | false =>
    rw [hlatch] at hrun
    exact ⟨_, hrun, hstate, fun _ => hfree, hdeep, hshallow⟩
  | true =>
    rw [hlatch] at hrun
    have hwoken : u.Woken (u.startExit n.val x.causes) := (State.Woken.refl u).startExit (.inl (by omega)) x.causes
    refine ⟨_, hrun, (startExit_starts (by omega) _).1, fun h => absurd h (by decide), fun h => ?_, fun h => ?_⟩
    · have hfm : (u.startExit n.val x.causes).fm = u.fm := by rw [hwoken.only]
      exact fun a ha => (congrArg (fun m : Memory => m.byte (n.val * 2 ^ 20 + a)) hfm).trans (hdeep h a ha)
    · have hsame : (u.startExit n.val x.causes).fm = u.fm ∧ (u.startExit n.val x.causes).ob = u.ob := by
        rw [hwoken.only]
        exact ⟨rfl, rfl⟩
      exact ⟨hsame.1.trans (hshallow h).1, hsame.2.trans (hshallow h).2⟩
/-- Every active folio asleep in F4. -/
def State.allAsleep (s : State) : State := s.active.foldl (fun s n => (s.setFolioState n 4).sleepFolio n 4) s
theorem allAsleep_leaves (s : State) : s.allAsleep.devState = s.devState ∧ s.allAsleep.seqOf 0x40 = s.seqOf 0x40 ∧ s.allAsleep.vat = s.vat :=
  List.foldlRecOn (motive := fun u : State => u.devState = s.devState ∧ u.seqOf 0x40 = s.seqOf 0x40 ∧ u.vat = s.vat) s.active _ ⟨rfl, rfl, rfl⟩
    fun u ⟨hdev, hseq, hvat⟩ n _ => by
      have hkept : (u.setFolioState n 4).Upkept ((u.setFolioState n 4).sleepFolio n 4) := (State.Upkept.refl _).sleepFolio
      have hstate : (u.setFolioState n 4).devState = u.devState := ((State.Spares.refl n u).setFolioState (v := 4)).dev
      exact ⟨hkept.devState.trans (hstate.trans hdev), (hkept.seqOf 0x40).trans hseq, (sleepFolio_vat _ n).trans hvat⟩
/-- The device in D1 or D2. -/
def State.devAsleep (s : State) (d : Nat) : State := ((s.setSeq 0x40 none).setDevState d).sleepVat d
theorem devAsleep_sleeps {d : Nat} (hd : d < 8) : (s.devAsleep d).devState = d ∧ (s.devAsleep d).seqOf 0x40 = none := by
  have hkept : ((s.setSeq 0x40 none).setDevState d).Upkept (s.devAsleep d) := (State.Upkept.refl _).sleepVat
  exact ⟨hkept.devState.trans (devState_setDevState _ hd), (hkept.seqOf _).trans ((seqOf_setDevState _ _ _).trans (seqOf_setSeq_same s 0x40 none))⟩
theorem entryComplete_dev {x : PwrSeq} (hseq : s.seqOf 0x40 = some x) (hin : x.entering = true) (hawake : x.latched = false)
    (hdelay : x.since + 2 + x.delays.headD 0 ≤ s.rclk) : exec (.entryComplete 0x40) s =
      .next ((if x.target = 2 then (s.devAsleep x.target).allAsleep else s.devAsleep x.target).setFld D2D_STAT 31 29 3) := by
  have hdom : (0x40 : BitVec 8).toNat = 0x40 := rfl
  show execEntryComplete _ s = _
  unfold execEntryComplete
  rw [hdom]
  dsimp only
  rw [hseq]
  dsimp only
  rw [if_neg (by rw [hin]; decide), if_neg (by omega)]
  simp only [true_and, if_true, hawake, Bool.false_eq_true, if_false]
  rfl
theorem entryComplete_sleepsDev {x : PwrSeq} (hseq : s.seqOf 0x40 = some x) (hin : x.entering = true) (hawake : x.latched = false)
    (hhi : x.target ≤ 2) (hdelay : x.since + 2 + x.delays.headD 0 ≤ s.rclk) : Next (exec (.entryComplete 0x40) s) fun t =>
      t.devState = x.target ∧ t.seqOf 0x40 = none ∧ (x.target = 2 → ∀ a < 2 ^ 26, t.vat.byte a = 0) := by
  have hrun := entryComplete_dev hseq hin hawake hdelay
  obtain ⟨hdev, hfree⟩ := devAsleep_sleeps (s := s) (d := x.target) (by omega)
  have hvat (h : x.target = 2) : ∀ a < 2 ^ 26, (s.devAsleep x.target).vat.byte a = 0 := by
    rw [h]
    exact fun a ha => sleepVat_zeros _ ha
  generalize s.devAsleep x.target = u at hrun hdev hfree hvat
  have hall : let v := if x.target = 2 then u.allAsleep else u
      v.devState = x.target ∧ v.seqOf 0x40 = none ∧ (x.target = 2 → ∀ a < 2 ^ 26, v.vat.byte a = 0) := by
    obtain ⟨hdev', hseq', hvat'⟩ := allAsleep_leaves u
    dsimp only
    split
    · exact ⟨hdev'.trans hdev, hseq'.trans hfree, by rwa [hvat']⟩
    · exact ⟨hdev, hfree, hvat⟩
  dsimp only at hall
  generalize (if x.target = 2 then u.allAsleep else u) = v at hrun hall
  obtain ⟨hdev', hseq', hvat'⟩ := hall
  obtain ⟨regs, hregs⟩ : v.RegsOnly (v.setFld D2D_STAT 31 29 3) := (State.RegsOnly.refl v).setFld
  refine ⟨_, hrun, (State.fld_setFld_ne _ _ (by decide)).trans hdev', ?_, ?_⟩
  · rw [hregs]
    exact hseq'
  · rw [hregs]
    exact hvat'
end

/-! ## The steps of an exit (R537, R539) -/

section
variable {s : State} {n : Fin 50} {x : PwrSeq} {j : Nat} {js : List Nat}

theorem exitStep_runs (hseq : s.seqOf n.val = some x) (hout : x.entering = false) (hsteps : x.steps = j :: js) (hdue : s.stepDue x = true)
    (hown : j ≠ 20 ∨ (s.logical n.val).isSome) : exec (.exitStep (BitVec.ofNat 8 n.val)) s = .next (s.stepExit n.val x) := by
  show execExitStep _ s = _
  unfold execExitStep
  rw [folioDomain]
  dsimp only
  rw [hseq]
  dsimp only
  rw [if_neg (by rw [hout]; decide), if_neg, if_neg (by rw [hdue]; decide)]
  rintro ⟨hhead, hnone⟩
  rw [hsteps] at hhead
  rcases hown with hother | hsome
  · exact hother (Option.some.inj hhead)
  · rw [Option.isNone_iff_eq_none] at hnone
    rw [hnone] at hsome
    exact absurd hsome (by decide)
theorem exitStep_goesOn (hseq : s.seqOf n.val = some x) (hout : x.entering = false) (hsteps : x.steps = j :: js) (hdue : s.stepDue x = true)
    (hown : j ≠ 20 ∨ (s.logical n.val).isSome) (hmore : js ≠ []) : Next (exec (.exitStep (BitVec.ofNat 8 n.val)) s) fun t =>
      t.seqOf n.val = some { x with steps := js, delays := x.delays.drop 1, since := s.rclk, retried := false } ∧
        t.folioState n.val = s.folioState n.val := by
  have hkept : s.Upkept (s.exitEffect n.val j) := (State.Upkept.refl s).exitEffect (.inl n.isLt)
  have hrun := exitStep_runs hseq hout hsteps hdue hown
  rw [State.stepExit, hsteps] at hrun
  dsimp only at hrun
  rw [if_neg (by simpa using hmore)] at hrun
  exact ⟨_, hrun, seqOf_setSeq_same _ _ _, hkept.folioState n.val (by omega)⟩
theorem endExit_folio (hheld : s.heldWrites = []) : (s.endExit n.val x).seqOf n.val = none ∧ (s.endExit n.val x).folioState n.val = 1 := by
  obtain ⟨regs, hregs⟩ : (s.setSeq n.val none).RegsOnly ((s.setSeq n.val none).setFolioState n.val 1) := (State.RegsOnly.refl _).setFld
  have hheld' : ((s.setSeq n.val none).setFolioState n.val 1).heldWrites = [] := by
    rw [hregs]
    exact hheld
  have hend : s.endExit n.val x = (s.setSeq n.val none).setFolioState n.val 1 := by
    unfold State.endExit
    dsimp only
    rw [if_neg (show ¬n.val = 0x40 by omega)]
    exact release_none _ _ hheld'
  rw [hend]
  exact ⟨(seqOf_setFolioState _ _ _ _).trans (seqOf_setSeq_same _ _ _), folioState_setFolioState_same _ (by decide)⟩
theorem exitStep_ends (hseq : s.seqOf n.val = some x) (hout : x.entering = false) (hsteps : x.steps = [j]) (hdue : s.stepDue x = true)
    (hown : j ≠ 20 ∨ (s.logical n.val).isSome) (hheld : s.heldWrites = []) : Next (exec (.exitStep (BitVec.ofNat 8 n.val)) s) fun t =>
      t.seqOf n.val = none ∧ t.folioState n.val = 1 := by
  have hkept : s.Upkept (s.exitEffect n.val j) := (State.Upkept.refl s).exitEffect (.inl n.isLt)
  have hrun := exitStep_runs hseq hout hsteps hdue hown
  rw [State.stepExit, hsteps] at hrun
  exact ⟨_, hrun, endExit_folio (hkept.held.trans hheld)⟩
/-- The active folios are the same after the upkeep of memories. -/
theorem State.Upkept.active {t : State} (h : s.Upkept t) : t.active = s.active := by
  have hret (k : Nat) (hk : k < 50) : t.retired k = s.retired k := rbit_of_reg (h.words _ (unloaded_of_page (.inl (by
    simp only [FOLIO_RET, pg]
    omega))))
  have hvac (k : Nat) (hk : k < 48) : t.vacant k = s.vacant k := rbit_of_reg (h.words _ (unloaded_of_page (.inl (by
    simp only [FOLIO_VAC, pg]
    omega))))
  have hphys (k : Nat) : t.phys k = s.phys k := phys_of_reg k (h.words _ (unloaded_of_page (.inr (by
    simp only [SPN_LEAF, pg]
    omega))))
  have hlogical (m : Nat) : t.logical m = s.logical m := by
    unfold State.logical
    refine List.find?_congr fun k hk => ?_
    rw [hphys, hvac k (List.mem_range.mp hk)]
  unfold State.active
  refine List.filter_congr fun m hm => ?_
  rw [hlogical, hret m (List.mem_range.mp hm)]
theorem foldl_setFolioState {v m : Nat} (hv : v < 16) {l : List Nat} (hm : m ∈ l) : (l.foldl (fun s n => s.setFolioState n v) s).folioState m = v :=
  foldl_reaches (P := fun _ => True) (Q := fun u => u.folioState m = v) hm (fun _ _ _ _ => .inl trivial) (fun u y _ hu => by
    by_cases heq : m = y
    · exact heq ▸ folioState_setFolioState_same u hv
    · exact (folioState_setFolioState_ne u v heq).trans hu) (fun u _ => folioState_setFolioState_same u hv) s (.inl trivial)
theorem foldl_setFolioState_regsOnly (v : Nat) (l : List Nat) : s.RegsOnly (l.foldl (fun s n => s.setFolioState n v) s) :=
  List.foldlRecOn (motive := s.RegsOnly) l _ (.refl s) fun _ hu _ _ => hu.setFld

/-- The folios awake at the end of the device's exit. -/
def State.devWakes (s : State) (old : Nat) : State :=
  if old = 2 then (s.setSeq 0x40 none).active.foldl (fun s n => s.setFolioState n 1) (s.setSeq 0x40 none) else s.setSeq 0x40 none
theorem devWakes_wakes (old : Nat) : (s.setSeq 0x40 none).RegsOnly (s.devWakes old) ∧
    (old = 2 → ∀ m ∈ s.active, (s.devWakes old).folioState m = 1) := by
  unfold State.devWakes
  split
  · exact ⟨foldl_setFolioState_regsOnly 1 _, fun _ m hm => foldl_setFolioState (by decide) hm⟩
  next hold => exact ⟨.refl _, fun h => absurd h hold⟩
theorem setDevState_held (s : State) (v : Nat) : (s.setDevState v).heldWrites = s.heldWrites := by
  obtain ⟨regs, hregs⟩ : s.RegsOnly (s.setFld PM_STATE 31 29 v) := (State.RegsOnly.refl s).setFld
  unfold State.setDevState
  rw [hregs]
theorem setD2dState_leaves (s : State) (v : Nat) : (s.setFld D2D_STAT 31 29 v).devState = s.devState ∧
    (s.setFld D2D_STAT 31 29 v).heldWrites = s.heldWrites ∧ (s.setFld D2D_STAT 31 29 v).seqOf 0x40 = s.seqOf 0x40 ∧
    ∀ m < 50, (s.setFld D2D_STAT 31 29 v).folioState m = s.folioState m := by
  obtain ⟨regs, hregs⟩ : s.RegsOnly (s.setFld D2D_STAT 31 29 v) := (State.RegsOnly.refl s).setFld
  refine ⟨State.fld_setFld_ne _ _ (by decide), ?_, ?_, fun m hm => folioState_of_reg _ (State.reg_setFld_ne _ _ _ _ ?_)⟩
  · rw [hregs]
  · rw [hregs]
    rfl
  · simp only [PM_FOLIO_STATE, D2D_STAT, pg]
    omega
theorem folioState_setDevState (s : State) (v m : Nat) : (s.setDevState v).folioState m = s.folioState m :=
  folioState_of_reg _ ((reg_of_regs (setDevState_regs s v)).trans (State.reg_setFld_ne _ _ _ _ (by
    simp only [PM_FOLIO_STATE, PM_STATE, pg]
    omega)))
/-- The device in D0, its D2D port as it trained. -/
def State.devUp (s : State) : State := (s.setDevState 0).setFld D2D_STAT 31 29 (if s.fld D2D_STAT 3 0 = 0 then 0 else 2)
theorem devUp_wakes (s : State) : s.devUp.devState = 0 ∧ s.devUp.heldWrites = s.heldWrites ∧ s.devUp.seqOf 0x40 = s.seqOf 0x40 ∧
    ∀ m < 50, s.devUp.folioState m = s.folioState m := by
  obtain ⟨hdev, hheld, hseq, hfolio⟩ := setD2dState_leaves (s.setDevState 0) (if s.fld D2D_STAT 3 0 = 0 then 0 else 2)
  exact ⟨hdev.trans (devState_setDevState s (by decide)), hheld.trans (setDevState_held s 0), hseq.trans (seqOf_setDevState s 0 0x40),
    fun m hm => (hfolio m hm).trans (folioState_setDevState s 0 m)⟩
theorem endExit_dev (hheld : s.heldWrites = []) : (s.endExit 0x40 x).devState = 0 ∧ (s.endExit 0x40 x).seqOf 0x40 = none ∧
    (x.old = 2 → ∀ m ∈ s.active, (s.endExit 0x40 x).folioState m = 1) := by
  have hend : s.endExit 0x40 x = (s.devWakes x.old).devUp.release (pagesOf 0x40 x.old) := rfl
  obtain ⟨⟨regs, hregs⟩, hfolios⟩ := devWakes_wakes (s := s) x.old
  have hseq : (s.devWakes x.old).seqOf 0x40 = none := by
    rw [hregs]
    exact seqOf_setSeq_same s 0x40 none
  have hheld' : (s.devWakes x.old).heldWrites = [] := by
    rw [hregs]
    exact hheld
  rw [hend]
  generalize s.devWakes x.old = u at hseq hheld' hfolios
  obtain ⟨hdev, hsame, hsame', hkept⟩ := devUp_wakes u
  rw [release_none _ _ (hsame.trans hheld')]
  exact ⟨hdev, hsame'.trans hseq, fun hold m hm => (hkept m (List.mem_range.mp (List.mem_filter.mp hm).1)).trans (hfolios hold m hm)⟩
theorem exitStep_endsDev (hseq : s.seqOf 0x40 = some x) (hout : x.entering = false) (hsteps : x.steps = [j]) (hj : j ≠ 20)
    (hdue : s.stepDue x = true) (hheld : s.heldWrites = []) : Next (exec (.exitStep 0x40) s) fun t =>
      t.devState = 0 ∧ t.seqOf 0x40 = none ∧ (x.old = 2 → ∀ m ∈ s.active, t.folioState m = 1) := by
  have hdom : (0x40 : BitVec 8).toNat = 0x40 := rfl
  have hkept : s.Upkept (s.exitEffect 0x40 j) := (State.Upkept.refl s).exitEffect (.inr hj)
  have hrun : exec (.exitStep 0x40) s = .next (s.stepExit 0x40 x) := by
    show execExitStep _ s = _
    unfold execExitStep
    rw [hdom]
    dsimp only
    rw [hseq]
    dsimp only
    rw [if_neg (by rw [hout]; decide), if_neg, if_neg (by rw [hdue]; decide)]
    rintro ⟨hhead, -⟩
    rw [hsteps] at hhead
    exact hj (Option.some.inj hhead)
  rw [State.stepExit, hsteps] at hrun
  have hends := endExit_dev (x := x) (hkept.held.trans hheld)
  rw [hkept.active] at hends
  exact ⟨_, hrun, hends⟩

/-- An exit that is due for a folio with a vote starts. -/
theorem exitStep_starts (hasleep : Asleep n.val s) (hplaced : (s.logical n.val).isSome) (hvoted : s.folioVoted n.val = true) :
    Next (exec (.exitStep (BitVec.ofNat 8 n.val)) s) fun t => t.folioState n.val = 6 ∧
      ∃ x, t.seqOf n.val = some x ∧ x.entering = false ∧ x.steps = s.folioSteps n.val (s.folioState n.val) := by
  obtain ⟨hd0, hfree, hn, hlo, hhi, hret, hnone, hmay⟩ := hasleep
  obtain ⟨k, hk⟩ := Option.isSome_iff_exists.mp hplaced
  have hindex : s.indexOf n.val = some k := by
    unfold State.indexOf
    rw [hk]
  have hdue : s.dueExit n.val = some (s.gathCauses n.val) := by
    unfold State.dueExit
    rw [if_neg (by rw [hnone]; decide), if_neg (by omega), if_pos n.isLt, if_neg, if_neg (by rw [hk]; exact Bool.false_ne_true), if_pos hvoted]
    rw [hindex, hret]
    rintro (h | h | h | h | h)
    · exact h hd0
    · omega
    · omega
    · exact absurd h (by simp)
    · exact Bool.false_ne_true h
  have hrun : exec (.exitStep (BitVec.ofNat 8 n.val)) s = .next (s.startExit n.val (s.gathCauses n.val)) := by
    show execExitStep _ s = _
    unfold execExitStep
    rw [folioDomain]
    dsimp only
    rw [hnone]
    dsimp only
    rw [if_neg (by omega), hdue]
    exact if_neg (by rw [hmay]; decide)
  obtain ⟨hstate, hseq⟩ := startExit_starts (s := s) (n := n.val) (by omega) (s.gathCauses n.val)
  exact ⟨_, hrun, hstate, _, hseq, rfl, rfl⟩

/-! ## Steps that time out (R541, R542) -/

theorem exitFor_folio (hseq : s.seqOf n.val = some x) (hout : x.entering = false) : s.exitFor n.val = n.val := by
  unfold State.exitFor
  rw [hseq]
  dsimp only
  rw [if_pos (by rw [decide_eq_true n.isLt, hout]; rfl)]
theorem wakeFail_retries (hseq : s.seqOf n.val = some x) (hout : x.entering = false) (hsteps : x.steps = j :: js) (hwaits : waitsReady j = true)
    (hlate : x.since + 4 * x.delays.headD 0 ≤ s.rclk) (hfirst : x.retried = false) : Next (exec (.wakeFail (BitVec.ofNat 8 n.val)) s) fun t =>
      t.seqOf n.val = some { x with retried := true, since := s.rclk + (if j = 11 then 0 else 16) } ∧ t = { s with pwr := t.pwr } := by
  refine ⟨s.setSeq n.val (some { x with retried := true, since := s.rclk + (if j = 11 then 0 else 16) }), ?_, seqOf_setSeq_same _ _ _, rfl⟩
  show execWakeFail _ s = _
  unfold execWakeFail
  rw [folioDomain]
  dsimp only
  rw [exitFor_folio hseq hout, if_neg (by omega), hseq]
  dsimp only
  rw [hsteps]
  dsimp only
  rw [if_neg (by rw [hout]; decide), if_neg (by rw [hwaits]; decide), if_neg (by omega), if_pos (by rw [hfirst]; rfl)]
theorem wakeFail_fails (hseq : s.seqOf n.val = some x) (hout : x.entering = false) (hsteps : x.steps = j :: js) (hwaits : waitsReady j = true)
    (hlate : x.since + 4 * x.delays.headD 0 ≤ s.rclk) (hsecond : x.retried = true) : exec (.wakeFail (BitVec.ofNat 8 n.val)) s =
      .next ((s.setSeq n.val (some { x with retried := false, since := s.rclk })).folioFails n.val) := by
  have hpll : pllOf n.val j = none := by
    unfold pllOf
    split
    · rfl
    · rw [if_neg (by omega), if_neg (by omega)]
  show execWakeFail _ s = _
  unfold execWakeFail
  rw [folioDomain]
  dsimp only
  rw [exitFor_folio hseq hout, if_neg (by omega), hseq]
  dsimp only
  rw [hsteps]
  dsimp only
  rw [if_neg (by rw [hout]; decide), if_neg (by rw [hwaits]; decide), if_neg (by omega), if_neg (by rw [hsecond]; decide), hpll]
  exact congrArg Host.Outcome.next (if_pos n.isLt)
/-- A folio that fails is retired and FAILED. -/
theorem folioFails_fails (s : State) (n : Fin 50) : (s.folioFails n.val).folioState n.val = 7 ∧ (s.folioFails n.val).retired n.val = true := by
  have hretired (u : State) : (u.retire n.val).retired n.val = true := by
    cases hret : u.retired n.val with
    | false => exact (retire_outOfService hret).1
    | true =>
      unfold State.retire
      rw [hret]
      exact hret
  have hmark (u : State) (a : Nat) (ha : a ≠ PM_VOTE_STAT) : (u.markFailed n.val).reg a = u.reg a :=
    (State.reg_setFld_ne _ _ _ _ ha).trans (State.reg_setBit_ne _ true ha)
  have hdomain : PM_FOLIO_STATE (n.val / 8) ≠ PM_VOTE_STAT ∧ FOLIO_RET (n.val / 32) ≠ PM_VOTE_STAT ∧
      FOLIO_RET (n.val / 32) ≠ PM_FOLIO_STATE (n.val / 8) := by
    simp only [PM_FOLIO_STATE, PM_VOTE_STAT, FOLIO_RET, pg]
    omega
  obtain ⟨hstate, hret, hapart⟩ := hdomain
  unfold State.folioFails
  generalize s.log 0x4C n.val 4 0 = u
  exact ⟨(folioState_of_reg _ (hmark _ _ hstate)).trans (folioState_setFolioState_same _ (by decide)),
    (rbit_of_reg ((hmark _ _ hret).trans (State.reg_setFld_ne _ _ _ _ hapart))).trans (hretired u)⟩

end

/-- Settles O56: votes and what they wake, entries, the ends of entries and exits, and steps that time out. -/
theorem votesEntriesAndExits : Obligations.VotesEntriesAndExits := by
  intro n s d wakes
  refine ⟨fun p w h => ⟨_, rfl, voteWord_wakes (.inl rfl) h 1 1⟩, fun p w h => pmVoteDbg_writes h, fun p w h => pmWakeCause_clears h,
    fun p w h => pmRefuseLog_clears h, fun hstate hquiet => f1Entry_enters hstate hquiet, ?_, ?_, ?_, ?_, ?_, ?_, ?_, ?_, ?_⟩
  · intro hreset hboot hdev hplaced hret hseq hlo hhi hdeeper hvoted hsubsts hswitching
    have hdue : s.EntryDue n.val := ⟨⟨hreset, hboot, hdev⟩, ⟨hplaced, hret, hseq⟩, ⟨hlo, hhi, hdeeper⟩, hvoted, hsubsts, hswitching⟩
    exact ⟨fun hfree => powerEntry_enters hdue hfree, powerEntry_refused hdue⟩
  · intro hreset hboot hseq hawake hdeeper hvoted hasleep hcheck
    exact devEntry_enters hreset hboot hseq hawake hdeeper hvoted hasleep hcheck
  · intro l hreset hboot hvoted hnap hstate
    exact portEntry_naps hreset hboot hvoted hnap hstate
  · intro x hseq hin hlo hhi hdelay
    exact entryComplete_sleeps hseq hin hlo hhi hdelay
  · intro x hseq hin hawake hlo hhi hdelay
    exact entryComplete_sleepsDev hseq hin hawake hhi hdelay
  · intro x j js hseq hout hsteps
    refine ⟨fun hdue hown => ⟨exitStep_goesOn hseq hout hsteps hdue hown, ?_⟩, fun hwaits hlate => ⟨wakeFail_retries hseq hout hsteps hwaits hlate, ?_⟩⟩
    · rintro rfl hheld
      exact exitStep_ends hseq hout hsteps hdue hown hheld
    · exact fun hsecond => ⟨_, wakeFail_fails hseq hout hsteps hwaits hlate hsecond, folioFails_fails _ n⟩
  · intro x j hseq hout hsteps hj hdue hheld
    exact exitStep_endsDev hseq hout hsteps hj hdue hheld
  · intro hasleep hplaced hvoted
    exact exitStep_starts hasleep hplaced hvoted
  · intro hlevel hplan htimer hlast harmed g hdue
    exact plannerExpiry_wakes hlevel hplan htimer hlast harmed hdue

end Sys2Proof.Machine
end
